-- ==== Sys2Proof/Word.lean ====
section
/-!
DEFINITION. The word types of the device: bytes, 16-, 32-, 64-, 128-, 2048- and 4096-bit words.
R7 (spec/00_scope.md) fixes little-endian order; the byte-order helpers stand in Machine/Bytes.lean.
-/
namespace Sys2Proof

/-- A byte. -/
abbrev Byte := BitVec 8
/-- A 16-bit field. -/
abbrev Half := BitVec 16
/-- A 32-bit register word. -/
abbrev W32 := BitVec 32
/-- A 64-bit scalar register. -/
abbrev W64 := BitVec 64
/-- A 128-bit short-vector register, and a predicate register. -/
abbrev W128 := BitVec 128
/-- One 2,048-bit plane of a long register. -/
abbrev Plane := BitVec 2048
/-- A 4,096-bit operand word of a big-number engine. -/
abbrev BigWord := BitVec 4096

end Sys2Proof
end

