-- ==== Sys2Proof/Syntax.lean ====
section
/-!
DEFINITION. The commands the device takes: one constructor of `Instr` for each row of the spec's table of operations and
events (spec/opcode_table.json), with the operands the row's rule gives it. A grain instruction carries the logical grain
that runs it and the fields of its word (R118, R144); a field that an instruction does not use is reserved, must be 0
(R119), and is no operand here: a word with such a field set is the row ILLEGAL_ENCODING.
-/
namespace Sys2Proof

/-- A register field of the scalar formats of R118. -/
abbrev Reg := BitVec 5

/-- The fields of format LV (R144); `modulus` is MOD, or PARAM where an instruction table says so. -/
structure LvOps where
  dst : BitVec 4
  src1 : BitVec 4
  src2 : BitVec 4
  pred : BitVec 3
  sh : BitVec 2
  modulus : BitVec 3
  deriving DecidableEq, Repr

/-- The fields of format LV for an instruction without SRC2. -/
structure LvUnary where
  dst : BitVec 4
  src1 : BitVec 4
  pred : BitVec 3
  sh : BitVec 2
  modulus : BitVec 3
  deriving DecidableEq, Repr

/-- What a microcoded instruction meets in its grain's hardware: nothing, a control-store parity error (R174) or an
uncorrectable memory error (R109 MEM_ECC). -/
inductive GrainTrouble where
  | none
  | csParity
  | memEcc
  deriving DecidableEq, Repr

/-- A check of R188 that fails in a job, as a fault in the hardware makes it. -/
inductive FaultCheck where
  | selfVerify
  | shareCheck
  deriving DecidableEq, Repr

/-- Who writes a register (R33): a port's PF, a VF of a port, or a loam core. -/
inductive Requester where
  | pf (p : Nat)
  | vf (p v : Nat)
  | loam (k : Nat)
  deriving DecidableEq, Repr

/-- The SQ registers (R28, R30): each block's event register. -/
inductive SqId where
  | glb (p : Nat)
  | vf (p v : Nat)
  | grain (b position : Nat)
  | bne (w : Nat)
  | dig (e : Nat)
  | rng
  | key
  | pgd
  | lcs
  | tmp
  | unc
  | boot
  | rst
  | hzn
  | obs
  deriving DecidableEq, Repr

/-- The three stores that a zeroize scrubs (R13). -/
inductive Store where
  | slotSram
  | contextStore
  | keyCache
  deriving DecidableEq, Repr

/-- The blocks whose writes are posted across the die link (R39, R42). -/
inductive PostedBlock where
  | rng
  | pgd
  | lcs
  | tmp
  | unc
  | boot
  | hzn
  | dig16
  | dig17
  deriving DecidableEq, Repr

/-- What REGISTER_WRITE writes: a register of a BAR, a field of the SR-IOV capability (R72), the function power state
(R69), or the MSI-X table. -/
inductive WriteTarget where
  | bar (off : Nat) (value : W32)
  | numVFs (n : Nat)
  | vfEnable (on : Bool)
  | power (p f : Nat) (d3hot : Bool)
  deriving DecidableEq, Repr

/-- The transports of manager and attestation requests (R427): a PF's VDM messages, a PF's admin queue, I3C, Uncel; the factory
service also takes requests over the TAP (R400). -/
inductive Transport where
  | vdm (p : Nat)
  | admin (p : Nat)
  | i3c
  | uncel
  | tap
  deriving DecidableEq, Repr

/-- How a request arrived: its transport and, inside a session, the session's number. -/
structure Via where
  transport : Transport
  session : Option Nat
  deriving DecidableEq, Repr


/-- The fields of a TPT entry that a manager sets (R76): `grains` and `bne` are masks of logical numbers. -/
structure Machine.TptFields where
  isolated : Bool := false
  pfOwned : Bool := false
  port : Nat := 0
  vfNum : Nat := 0
  vfFirst : Nat := 0
  qpPerFunc : Nat := 0
  qpBase : Nat := 0
  slotsWr : Nat := 0
  slotsRd : Nat := 0
  ctxQuota : Nat := 0
  slotQuota : Nat := 0
  rngMs : Nat := 10
  bne : Nat := 0
  ext : Nat := 0
  grains : Nat := 0
  deriving DecidableEq, Repr

/-- What SIEVE_SET changes: an opcode entry of a channel (R385), or address rule `r` (R386, R394). -/
inductive SieveEntry where
  | opcode (channel code : Nat) (entry : W32)
  | rule (r : Nat) (base len ctl : W32)
  deriving DecidableEq, Repr

/-- The requests that a manager session sends, with the fields of their tables (R37, R80, R315, R367, R391, R403, R416, R439,
R440, R456). An arming request carries the value of the guarded write, which only I3C and Uncel use (R38). -/
inductive MgrReq where
  | tenantSet (t : Nat) (f : Machine.TptFields)
  | quiesce (t : Nat)
  | resume (t : Nat)
  | removeArm (t : Nat) (value : W32)
  | migrateExport (t addr len : Nat) (accepted : Bool)
  | migrateImport (t : Nat) (blob : List Byte)
  | slotAssign (slot owner : Nat) (system : Bool)
  | budgetLower (slot budget : Nat)
  | destroyArm (slot : Nat) (value : W32)
  | imageBegin (target len : Nat)
  | imageData (off : Nat) (bytes : List Byte)
  | imageCommit
  | imageActivate (primary : Nat) (raiseSvn : Bool)
  | revokeArm (entry : Nat) (value : W32)
  | sieveSet (e : SieveEntry)
  | pgdArm (off : Nat) (value : W32)
  | platformCycle
  | hostImageBegin (channel target len : Nat)
  | hostImageData (off : Nat) (bytes : List Byte)
  | hostImageCommit
  | lcStage (request : List Byte)
  | tamperArm (off : Nat) (value : W32)
  | checkpoint (seq : Nat)
  | checkpointAck (seq : Nat) (digest : List Byte)
  | timeSet (offset : W64)
  | logRead (seq count : Nat)
  | keyUsage (first count : Nat)
  | uncMkeyNew
  | uncMkeyJoin (leader : Nat) (reachable : Bool)
  | uncEpoch (target : Nat)
  | ceremonyApprove (id target officer : Nat) (signature : List Byte)
  | uncReenumerate
  | globalArm (off : Nat) (value : W32)
  deriving DecidableEq, Repr

/-- A certificate chain as mutual authentication presents it (R429): the bytes, and what its root certificate names. -/
structure Chain where
  bytes : List Byte
  rootKey : List Byte
  hssKey : List Byte
  deriving DecidableEq, Repr

/-- The commands of the device, one constructor for each row of the spec's table of operations and events. -/
inductive Instr where
  /-- DIE_LINK_INTEGRITY_EVENT (R12): A die-link frame fails authentication, a counter is out of sequence or link training is lost, so frames stop, the tamper source is raised and jobs in flight end with LINK_FAULT. -/
  | dieLinkIntegrityEvent
  /-- ZEROIZE_REQUEST (R13): The zeroize line leaves (1, 0): the three KEKs and the root secret clear in one clock and the store scrubs start. -/
  | zeroizeRequest
  /-- ZEROIZE_SCRUB_DONE (R13): The scrub of the slot SRAM, the context store or the key cache ends, and the jobs concerned complete with ZEROIZED. -/
  | zeroizeScrubDone (store : Store)
  /-- SQ_ACKNOWLEDGE (R31): A write to the alias of an SQ register clears every EVT bit when SEQ matches and no increment is pending, and otherwise increments GLB_ACK_MISS. -/
  | sqAcknowledge (r : Requester) (reg : SqId) (value : W32)
  /-- SQ_PENDING_INCREMENT (R30): The 2 µs coalescing interval ends and a pending SEQ increment is applied. -/
  | sqPendingIncrement (reg : SqId)
  /-- GUARD_FIRST_WRITE (R33): The value write of a guarded pair is held, awaiting its complement from the same requester. -/
  | guardFirstWrite (r : Requester) (off : Nat) (value : W32)
  /-- GUARD_PAIR_TIMEOUT (R34): No complement arrives within 1 µs, so the pair fails with TIMEOUT and GUARD_FAULT is raised. -/
  | guardPairTimeout (r : Requester)
  /-- ARMING_LAPSE (R36): An arming that no write has used lapses 10 ms after it was made. -/
  | armingLapse (p : Nat)
  /-- POSTED_WRITE (R39): A write to a posted block is accepted and sets BUSY, or is dropped and counted in WRITE_LOST when BUSY is already set. -/
  | postedWrite (p : Nat) (off : Nat) (value : W32)
  /-- POSTED_WRITE_APPLIED (R39): A posted write is applied across the die link and PSTAT.BUSY clears. -/
  | postedWriteApplied (block : PostedBlock)
  /-- REGISTER_WRITE (R28): A write to a register that has no row of its own takes effect according to its access type. -/
  | registerWrite (r : Requester) (t : WriteTarget)
  /-- GLB_EPOCH_RAISE (R46): An applied pair on GLB_EPOCH_RAISE raises GLB_EPOCH, or refuses the value with EPOCH_EXHAUSTED or EPOCH_ORDER. -/
  | glbEpochRaise (r : Requester) (off : Nat) (complement : W32)
  /-- GLB_RESET (R45): An applied pair carrying 0x5EED_0001 starts a software full reset, and any other value is refused with INPUT_INVALID. -/
  | glbReset (r : Requester) (off : Nat) (complement : W32)
  /-- GLB_TENANT_REMOVE (R82): An applied pair on a QUIESCED tenant destroys its slots, zeroes its contexts, clears its units and releases its pairs. -/
  | glbTenantRemove (r : Requester) (off : Nat) (complement : W32)
  /-- TENANT_REMOVE_DONE (R81): The scrub of a removed tenant ends and the tenant becomes FREE. -/
  | tenantRemoveDone (t : Nat)
  /-- KEY_SLOT_DESTROY (R323): An applied destroy pair overwrites a slot's secret, scrubs its cache lines, invalidates its shelf record and aborts jobs that hold the slot. -/
  | keySlotDestroy (r : Requester) (off : Nat) (complement : W32)
  /-- SLOT_DESTROY_DONE (R323): The destroy of a slot finishes, the slot is EMPTY and KEY_EVT.DESTROYED is set. -/
  | slotDestroyDone (slot : Nat)
  /-- BOOT_REVOKE (R368): An applied pair programs an image-key revocation bit, or refuses the value with REVOKE_STRANDS or LOG_FULL. -/
  | bootRevoke (r : Requester) (off : Nat) (complement : W32)
  /-- PGD_HOLD_ASSERT (R394): The ASSERT field of an applied PGD_HOLD_REL pair asserts the named holds. -/
  | pgdHoldAssert (r : Requester) (off : Nat) (complement : W32)
  /-- PGD_HOLD_RELEASE (R394): The RELEASE field of an applied PGD_HOLD_REL pair releases the named holds that are eligible for release. -/
  | pgdHoldRelease (r : Requester) (off : Nat) (complement : W32)
  /-- PGD_SIEVE_EN (R386): An applied pair puts the sieve rules in force, or takes them out of force, per channel. -/
  | pgdSieveEn (r : Requester) (off : Nat) (complement : W32)
  /-- PGD_UPD_WIN (R387): An applied pair opens or replaces the update window of a channel, or closes it with LEN 0. -/
  | pgdUpdWin (r : Requester) (off : Nat) (complement : W32)
  /-- TMP_CFGS (R416): An applied pair ORs bits 5:0 into the configuration of a tamper source. -/
  | tmpCfgs (r : Requester) (off : Nat) (complement : W32)
  /-- LCS_REQ (R403): An applied pair carrying the staged TO code word stores the life-cycle request, logs it and starts a full reset with cause LC_TRANS. -/
  | lcsReq (r : Requester) (off : Nat) (complement : W32)
  /-- RNG_SRC_SEL (R299): An applied pair retires the named noise sources. -/
  | rngSrcSel (r : Requester) (off : Nat) (complement : W32)
  /-- QUEUE_ENABLE (R49): Setting QUE_CTL.EN from 0 to 1 enables a DISABLED pair that passes its checks, or refuses the change with QUEUE_CONFIG. -/
  | queueEnable (p q : Nat) (ctl : W32)
  /-- QUEUE_DISABLE (R50): Clearing QUE_CTL.EN puts the pair in STOPPING and aborts its fetched and placed jobs. -/
  | queueDisable (p q : Nat) (ctl : W32)
  /-- QUEUE_DRAIN_DONE (R50): QUE_INFLIGHT of a STOPPING pair reaches 0 and the pair becomes DISABLED. -/
  | queueDrainDone (q : Nat)
  /-- SQ_TAIL_DOORBELL (R51): A submission tail write marks descriptors ready, or stops the pair with DOORBELL_RANGE when the tail is out of range. -/
  | sqTailDoorbell (p f k : Nat) (value : W32) (accepted : Bool)
  /-- CQ_HEAD_DOORBELL (R51): A completion head write frees completion entries, or stops the pair with DOORBELL_RANGE when the head is out of range. -/
  | cqHeadDoorbell (p f k : Nat) (value : W32) (accepted : Bool)
  /-- DESCRIPTOR_FETCH (R53): The front end reads up to 8 descriptors of a pair whose completion room allows it. -/
  | descriptorFetch (q : Nat) (data : Option (List Byte))
  /-- JOB_PLACEMENT (R21): The scheduler places a waiting job on a free grain of its tenant in a bed at the required epoch, or ends it with ALG_REVOKED. -/
  | jobPlacement (q : Nat)
  /-- KEY_STAGE (R17): The key port judges and delivers the job's keys in shares and charges their budgets, or ends the job with a key status. -/
  | keyStage (j : Nat) (blob : Option (List Byte))
  /-- INPUT_DMA_DONE (R20): The scatter-gather input read into grain DM completes and execution starts. -/
  | inputDmaDone (j : Nat) (inList : Option (List Byte)) (data : Option (List Byte))
  /-- OUTPUT_STAGE_DONE (R65): The job's output writes complete and its completion is written with the phase bit. -/
  | outputStageDone (j : Nat) (outList : Option (List Byte)) (accepted ring : Bool)
  /-- IRQ_COALESCE_TIMEOUT (R67): TIME_US passes after the first counted completion and the vector is sent. -/
  | irqCoalesceTimeout (q : Nat)
  /-- MSIX_VECTOR_UNMASK (R44): Unmasking a vector whose pending bit is set sends its message. -/
  | msixVectorUnmask (p f v : Nat)
  /-- DLOG_FLIP (R85): Writing FLIP switches the active dirty-page buffer and clears FLIP_DONE. -/
  | dlogFlip (p v : Nat) (value : W32)
  /-- DLOG_FLIP_DONE (R85): Every cached line of the old buffer reaches host memory and FLIP_DONE is set. -/
  | dlogFlipDone (p v : Nat)
  /-- PERST_ASSERT (R71): PERST_N[p] assertion brings port p down, resets its functions as for a PF FLR and clears its IDE keys. -/
  | perstAssert (p : Nat)
  /-- FUNCTION_LEVEL_RESET (R83): An FLR of a VF or PF stops the function's work without writing completions. -/
  | functionLevelReset (p f : Nat)
  /-- FLR_COMPLETE (R83): An FLR finishes, leaving the function's pairs DISABLED and its MSI-X entries masked. -/
  | flrComplete (p f : Nat)
  /-- IDE_KM_KEY_PROG (R74): An IDE_KM message in an SPDM session changes the keys of a selective IDE stream. -/
  | ideKmKeyProg (v : Via) (stream : Nat) (keySet : Nat) (key : List Byte)
  /-- LOCK_INTERFACE (R75): The TDISP message moves a VF to CONFIG_LOCKED, after which PF writes to its pairs are ignored. -/
  | lockInterface (v : Via) (vf : Nat)
  /-- START_INTERFACE (R75): The TDISP message moves a VF to RUN, in which its DMA carries the T bit. -/
  | startInterface (v : Via) (vf : Nat)
  /-- STOP_INTERFACE (R75): The TDISP message returns a VF to CONFIG_UNLOCKED. -/
  | stopInterface (v : Via) (vf : Nat)
  /-- GET_DEVICE_INTERFACE_REPORT (R434): The TDISP request returns the interface report of a VF. -/
  | getDeviceInterfaceReport (v : Via) (vf : Nat)
  /-- DMA_FRAME_BOUNDARY (R78): A port's DMA frame ends, and pending bandwidth, slot positions and tenant changes take effect. -/
  | dmaFrameBoundary (p : Nat)
  /-- LINK_RETRAIN (R78): The link retrains to another width or rate, and the slot length changes at the next frame. -/
  | linkRetrain (p width rate : Nat)
  /-- TENANT_SET (R80): The manager request creates a tenant or changes TPT fields, subject to R77. -/
  | tenantSet (v : Via) (t : Nat) (f : Machine.TptFields)
  /-- QUIESCE (R82): The manager request stops fetching on a tenant's pairs and starts its drain. -/
  | quiesce (v : Via) (t : Nat)
  /-- TENANT_DRAINED (R81): The in-flight count of a QUIESCING tenant reaches 0 and the tenant becomes QUIESCED. -/
  | tenantDrained (t : Nat)
  /-- RESUME (R82): The manager request returns a QUIESCED tenant to ACTIVE and restarts fetching. -/
  | resume (v : Via) (t : Nat)
  /-- REMOVE_ARM (R80): The manager request arms GLB_TENANT_REMOVE for the requesting PF. -/
  | removeArm (v : Via) (t : Nat) (value : W32)
  /-- MIGRATE_EXPORT (R87): The manager request writes the tenant's migratable state as a blob, then deletes the exported slots and contexts. -/
  | migrateExport (v : Via) (t addr len : Nat) (accepted : Bool)
  /-- MIGRATE_IMPORT (R86): The manager request re-creates exported state from a blob into a QUIESCED tenant. -/
  | migrateImport (v : Via) (t : Nat) (blob : List Byte)
  /-- GLOBAL_ARM (R37): The manager request arms GLB_EPOCH_RAISE, GLB_RESET or RNG_SRC_SEL for the requesting PF. -/
  | globalArm (v : Via) (off : Nat) (value : W32)
  /-- BED_APPLY_DONE (R89): A bed finishes applying an epoch, which may settle the epoch across the device. -/
  | bedApplyDone (b : Nat)
  /-- BED_GATE_OPEN (R116): A requested bed wake opens its power gate in stagger order, starting the quadrant PLL when it is stopped. -/
  | bedGateOpen (b : Nat)
  /-- QUADRANT_PLL_LOCK (R115): A quadrant PLL locks, and the beds waking behind it proceed. -/
  | quadrantPllLock (q : Nat)
  /-- BED_WAKE_DONE (R115): 18 µs after its gate opened a bed becomes AWAKE and may take jobs. -/
  | bedWakeDone (b : Nat)
  /-- BED_IDLE_TIMEOUT (R114): A bed idle for BED_IDLE_US at GLB_EPOCH begins entry to Dormant. -/
  | bedIdleTimeout (b : Nat)
  /-- BED_DORMANT_ENTRY_DONE (R113): The 2 µs entry ends, the bed is DORMANT and the quadrant PLL may stop. -/
  | bedDormantEntryDone (b : Nat)
  /-- QUADRANT_PLL_UNLOCK (R331): A quadrant PLL loses lock and the quadrant's units stop as under a settle hold. -/
  | quadrantPllUnlock (q : Nat)
  /-- PLL_RELOCK_TIMEOUT (R331): A quadrant PLL fails to relock within 100 µs, and the quadrant stays stopped with its units absent. -/
  | pllRelockTimeout (q : Nat)
  /-- PROGRAM_LOAD_DONE (R107): A grain program load from the program shelf into PM and the data region finishes. -/
  | programLoadDone (g : Nat)
  /-- GRAIN_SCRUB_DONE (R108): A grain's end-of-job scrub ends and the grain may take a new job. -/
  | grainScrubDone (g : Nat)
  /-- CYCLE_BOUND_REACHED (R109): The execute cycles reach CYCLE_BOUND and the job ends with PROGRAM_FAULT. -/
  | cycleBoundReached (g : Nat)
  /-- EXPANDER_SEED_ARRIVAL (R102): A requested seed reaches a mask expander and is absorbed at its reseed point. -/
  | expanderSeedArrival (g : Nat)
  /-- RNG_TIMEOUT (R103): A stall for randomness lasts for the tenant's RNG timeout and the job ends with RNG_STARVED. -/
  | rngTimeout (j : Nat)
  /-- CS_PATROL_READ (R175): Every 256 idle cycles the microsequencer checks the parity of the next control-store or dispatch word. -/
  | csPatrolRead (g : Nat) (word : BitVec 51)
  /-- CS_RELOAD_DONE (R176): A control-store reload and its parity read-back finish, or the grain is retired after a second read-back error. -/
  | csReloadDone (g : Nat) (readBackOk : Bool)
  /-- ADD (R121): The scalar instruction adds two registers. -/
  | add (g : Nat) (w : Bool) (dst src1 src2 : Reg)
  /-- SUB (R121): The scalar instruction subtracts two registers. -/
  | sub (g : Nat) (w : Bool) (dst src1 src2 : Reg)
  /-- AND (R121): The scalar instruction forms the bitwise AND of two registers. -/
  | and (g : Nat) (dst src1 src2 : Reg)
  /-- OR (R121): The scalar instruction forms the bitwise OR of two registers. -/
  | or (g : Nat) (dst src1 src2 : Reg)
  /-- XOR (R121): The scalar instruction forms the bitwise XOR of two registers. -/
  | xor (g : Nat) (dst src1 src2 : Reg)
  /-- ANDN (R121): The scalar instruction forms SRC1 AND NOT SRC2. -/
  | andn (g : Nat) (dst src1 src2 : Reg)
  /-- SLL (R121): The scalar instruction shifts left logically. -/
  | sll (g : Nat) (w : Bool) (dst src1 src2 : Reg)
  /-- SRL (R121): The scalar instruction shifts right logically. -/
  | srl (g : Nat) (w : Bool) (dst src1 src2 : Reg)
  /-- SRA (R121): The scalar instruction shifts right arithmetically. -/
  | sra (g : Nat) (w : Bool) (dst src1 src2 : Reg)
  /-- ROL (R121): The scalar instruction rotates left. -/
  | rol (g : Nat) (w : Bool) (dst src1 src2 : Reg)
  /-- ROR (R121): The scalar instruction rotates right. -/
  | ror (g : Nat) (w : Bool) (dst src1 src2 : Reg)
  /-- SLT (R121): The scalar instruction compares two registers as signed values. -/
  | slt (g : Nat) (dst src1 src2 : Reg)
  /-- SLTU (R121): The scalar instruction compares two registers as unsigned values. -/
  | sltu (g : Nat) (dst src1 src2 : Reg)
  /-- CSEL (R121): The scalar instruction selects SRC1 or SRC2 on X(DST). -/
  | csel (g : Nat) (dst src1 src2 : Reg)
  /-- MUL (R121): The scalar instruction writes the low 64 bits of a product. -/
  | mul (g : Nat) (w : Bool) (dst src1 src2 : Reg)
  /-- MULHU (R121): The scalar instruction writes the high 64 bits of an unsigned product. -/
  | mulhu (g : Nat) (dst src1 src2 : Reg)
  /-- MULH (R121): The scalar instruction writes the high 64 bits of a signed product. -/
  | mulh (g : Nat) (dst src1 src2 : Reg)
  /-- DIVU (R121): The scalar instruction writes an unsigned quotient in fixed time. -/
  | divu (g : Nat) (w : Bool) (dst src1 src2 : Reg)
  /-- REMU (R121): The scalar instruction writes an unsigned remainder in fixed time. -/
  | remu (g : Nat) (w : Bool) (dst src1 src2 : Reg)
  /-- SEXTB (R121): The scalar instruction sign-extends from bit 7. -/
  | sextb (g : Nat) (dst src1 : Reg)
  /-- SEXTH (R121): The scalar instruction sign-extends from bit 15. -/
  | sexth (g : Nat) (dst src1 : Reg)
  /-- SEXTW (R121): The scalar instruction sign-extends from bit 31. -/
  | sextw (g : Nat) (dst src1 : Reg)
  /-- POPCNT (R121): The scalar instruction counts the set bits of a register. -/
  | popcnt (g : Nat) (dst src1 : Reg)
  /-- CLZ (R121): The scalar instruction counts the leading zeros of a register. -/
  | clz (g : Nat) (dst src1 : Reg)
  /-- JR (R121): The scalar instruction jumps to a register target and links. -/
  | jr (g : Nat) (dst src1 : Reg)
  /-- ADDI (R122): The instruction adds a sign-extended immediate. -/
  | addi (g : Nat) (dst src1 : Reg) (imm : Half)
  /-- ANDI (R122): The instruction ANDs a zero-extended immediate. -/
  | andi (g : Nat) (dst src1 : Reg) (imm : Half)
  /-- ORI (R122): The instruction ORs a zero-extended immediate. -/
  | ori (g : Nat) (dst src1 : Reg) (imm : Half)
  /-- XORI (R122): The instruction XORs a zero-extended immediate. -/
  | xori (g : Nat) (dst src1 : Reg) (imm : Half)
  /-- SHI (R122): The instruction shifts or rotates by an immediate amount. -/
  | shi (g : Nat) (dst src1 : Reg) (kind : BitVec 2) (w : Bool) (amount : BitVec 6)
  /-- MOVZ (R122): The instruction sets a register to a shifted immediate. -/
  | movz (g : Nat) (dst : Reg) (hw : BitVec 2) (imm : Half)
  /-- MOVK (R122): The instruction replaces one halfword of a register. -/
  | movk (g : Nat) (dst : Reg) (hw : BitVec 2) (imm : Half)
  /-- LD (R123): The instruction loads 8 bytes from DM or the twiddle ROM. -/
  | ld (g : Nat) (dst src1 : Reg) (imm : Half) (ecc : Bool)
  /-- LW (R123): The instruction loads 4 bytes, zero-extended. -/
  | lw (g : Nat) (dst src1 : Reg) (imm : Half) (ecc : Bool)
  /-- LH (R123): The instruction loads 2 bytes, zero-extended. -/
  | lh (g : Nat) (dst src1 : Reg) (imm : Half) (ecc : Bool)
  /-- LB (R123): The instruction loads 1 byte, zero-extended. -/
  | lb (g : Nat) (dst src1 : Reg) (imm : Half) (ecc : Bool)
  /-- SD (R123): The instruction stores 8 bytes to DM. -/
  | sd (g : Nat) (data src1 : Reg) (imm : Half)
  /-- SW (R123): The instruction stores 4 bytes to DM. -/
  | sw (g : Nat) (data src1 : Reg) (imm : Half)
  /-- SH (R123): The instruction stores 2 bytes to DM. -/
  | sh (g : Nat) (data src1 : Reg) (imm : Half)
  /-- SB (R123): The instruction stores 1 byte to DM. -/
  | sb (g : Nat) (data src1 : Reg) (imm : Half)
  /-- FLD (R123): The instruction loads an F register. -/
  | fld (g : Nat) (dst src1 : Reg) (imm : Half) (ecc : Bool)
  /-- FSD (R123): The instruction stores an F register. -/
  | fsd (g : Nat) (data src1 : Reg) (imm : Half)
  /-- SLD (R123): The instruction loads an S register. -/
  | sld (g : Nat) (dst src1 : Reg) (imm : Half) (ecc : Bool)
  /-- SST (R123): The instruction stores an S register. -/
  | sst (g : Nat) (data src1 : Reg) (imm : Half)
  /-- BEQ (R124): The instruction branches when two registers are equal. -/
  | beq (g : Nat) (src1 src2 : Reg) (off : Half)
  /-- BNE (R124): The instruction branches when two registers differ. -/
  | bne (g : Nat) (src1 src2 : Reg) (off : Half)
  /-- BLT (R124): The instruction branches on signed less-than. -/
  | blt (g : Nat) (src1 src2 : Reg) (off : Half)
  /-- BGE (R124): The instruction branches on signed greater-or-equal. -/
  | bge (g : Nat) (src1 src2 : Reg) (off : Half)
  /-- BLTU (R124): The instruction branches on unsigned less-than. -/
  | bltu (g : Nat) (src1 src2 : Reg) (off : Half)
  /-- BGEU (R124): The instruction branches on unsigned greater-or-equal. -/
  | bgeu (g : Nat) (src1 src2 : Reg) (off : Half)
  /-- JAL (R124): The instruction jumps to TARGET and links. -/
  | jal (g : Nat) (dst : Reg) (target : BitVec 13)
  /-- END (R124): The instruction waits for every started unit to finish and ends the job, whose status is then taken under R97. -/
  | endJob (g : Nat)
  /-- FADD (R127): The binary64 instruction adds. -/
  | fadd (g : Nat) (rm : BitVec 3) (dst src1 src2 : Reg)
  /-- FSUB (R127): The binary64 instruction subtracts. -/
  | fsub (g : Nat) (rm : BitVec 3) (dst src1 src2 : Reg)
  /-- FMUL (R127): The binary64 instruction multiplies. -/
  | fmul (g : Nat) (rm : BitVec 3) (dst src1 src2 : Reg)
  /-- FDIV (R127): The binary64 instruction divides in fixed time. -/
  | fdiv (g : Nat) (rm : BitVec 3) (dst src1 src2 : Reg)
  /-- FSQRT (R127): The binary64 instruction takes a square root in fixed time. -/
  | fsqrt (g : Nat) (rm : BitVec 3) (dst src1 : Reg)
  /-- FMA (R127): The binary64 instruction forms a fused multiply-add. -/
  | fma (g : Nat) (rm : BitVec 3) (dst src1 src2 : Reg)
  /-- FMIN (R127): The binary64 instruction returns minimumNumber. -/
  | fmin (g : Nat) (rm : BitVec 3) (dst src1 src2 : Reg)
  /-- FMAX (R127): The binary64 instruction returns maximumNumber. -/
  | fmax (g : Nat) (rm : BitVec 3) (dst src1 src2 : Reg)
  /-- FNEG (R127): The binary64 instruction negates. -/
  | fneg (g : Nat) (rm : BitVec 3) (dst src1 : Reg)
  /-- FABS (R127): The binary64 instruction takes the absolute value. -/
  | fabs (g : Nat) (rm : BitVec 3) (dst src1 : Reg)
  /-- FEQ (R127): The binary64 instruction compares for equality into an X register. -/
  | feq (g : Nat) (rm : BitVec 3) (dst src1 src2 : Reg)
  /-- FLT (R127): The binary64 instruction compares for less-than into an X register. -/
  | flt (g : Nat) (rm : BitVec 3) (dst src1 src2 : Reg)
  /-- FLE (R127): The binary64 instruction compares for less-or-equal into an X register. -/
  | fle (g : Nat) (rm : BitVec 3) (dst src1 src2 : Reg)
  /-- FCVTLD (R127): The instruction converts binary64 to int64 with saturation. -/
  | fcvtld (g : Nat) (rm : BitVec 3) (dst src1 : Reg)
  /-- FCVTDL (R127): The instruction converts int64 to binary64. -/
  | fcvtdl (g : Nat) (rm : BitVec 3) (dst src1 : Reg)
  /-- FMVXD (R127): The instruction copies bits from an F register to an X register. -/
  | fmvxd (g : Nat) (rm : BitVec 3) (dst src1 : Reg)
  /-- FMVDX (R127): The instruction copies bits from an X register to an F register. -/
  | fmvdx (g : Nat) (rm : BitVec 3) (dst src1 : Reg)
  /-- SV_VADD (R128): The short-vector instruction adds elements. -/
  | svVadd (g : Nat) (ew : BitVec 2) (dst src1 src2 : Reg)
  /-- SV_VSUB (R128): The short-vector instruction subtracts elements. -/
  | svVsub (g : Nat) (ew : BitVec 2) (dst src1 src2 : Reg)
  /-- SV_VAND (R128): The short-vector instruction forms a bitwise AND. -/
  | svVand (g : Nat) (ew : BitVec 2) (dst src1 src2 : Reg)
  /-- SV_VOR (R128): The short-vector instruction forms a bitwise OR. -/
  | svVor (g : Nat) (ew : BitVec 2) (dst src1 src2 : Reg)
  /-- SV_VXOR (R128): The short-vector instruction forms a bitwise XOR. -/
  | svVxor (g : Nat) (ew : BitVec 2) (dst src1 src2 : Reg)
  /-- SV_VANDN (R128): The short-vector instruction forms a bitwise AND NOT. -/
  | svVandn (g : Nat) (ew : BitVec 2) (dst src1 src2 : Reg)
  /-- SV_VSHL (R128): The short-vector instruction shifts elements left. -/
  | svVshl (g : Nat) (ew : BitVec 2) (dst src1 src2 : Reg)
  /-- SV_VSRL (R128): The short-vector instruction shifts elements right logically. -/
  | svVsrl (g : Nat) (ew : BitVec 2) (dst src1 src2 : Reg)
  /-- SV_VSRA (R128): The short-vector instruction shifts elements right arithmetically. -/
  | svVsra (g : Nat) (ew : BitVec 2) (dst src1 src2 : Reg)
  /-- SV_VCMPEQ (R128): The short-vector instruction compares elements for equality. -/
  | svVcmpeq (g : Nat) (ew : BitVec 2) (dst src1 src2 : Reg)
  /-- SV_VCMPGT (R128): The short-vector instruction compares elements for signed greater-than. -/
  | svVcmpgt (g : Nat) (ew : BitVec 2) (dst src1 src2 : Reg)
  /-- SV_VSEL (R128): The short-vector instruction performs a bitwise select. -/
  | svVsel (g : Nat) (ew : BitVec 2) (dst src1 src2 : Reg)
  /-- SV_VMULLO (R128): The short-vector instruction writes the low half of signed element products. -/
  | svVmullo (g : Nat) (ew : BitVec 2) (dst src1 src2 : Reg)
  /-- SV_VMULHI (R128): The short-vector instruction writes the high half of signed element products. -/
  | svVmulhi (g : Nat) (ew : BitVec 2) (dst src1 src2 : Reg)
  /-- SV_VPERMB (R128): The short-vector instruction permutes bytes. -/
  | svVpermb (g : Nat) (ew : BitVec 2) (dst src1 src2 : Reg)
  /-- SV_VSPLAT (R128): The short-vector instruction splats an X register into every element. -/
  | svVsplat (g : Nat) (ew : BitVec 2) (dst src1 : Reg)
  /-- SV_VINS (R128): The short-vector instruction inserts an element. -/
  | svVins (g : Nat) (ew : BitVec 2) (dst src1 index : Reg)
  /-- SV_VEXT (R128): The short-vector instruction extracts an element. -/
  | svVext (g : Nat) (ew : BitVec 2) (dst src1 index : Reg)
  /-- SHAINIT (R130): The instruction loads a SHA-2 initial value. -/
  | shainit (g : Nat) (variant : Reg)
  /-- SHABLK (R130): The instruction starts the compression of one block. -/
  | shablk (g : Nat) (src1 : Reg)
  /-- SHAOUT (R130): The instruction writes the SHA-2 state to DM. -/
  | shaout (g : Nat) (src1 : Reg)
  /-- SHALD (R130): The instruction loads the SHA-2 state from DM. -/
  | shald (g : Nat) (src1 : Reg)
  /-- AESKEY (R131): The instruction expands an AES key. -/
  | aeskey (g : Nat) (src1 kind : Reg)
  /-- AESKEYM (R131): The instruction expands a masked AES key from two shares. -/
  | aeskeym (g : Nat) (src1 kind : Reg)
  /-- AESENC (R131): The instruction encrypts one AES block. -/
  | aesenc (g : Nat) (dst src1 : Reg)
  /-- AESDEC (R131): The instruction decrypts one AES block. -/
  | aesdec (g : Nat) (dst src1 : Reg)
  /-- AESENCM (R131): The instruction encrypts one masked AES block. -/
  | aesencm (g : Nat) (dst src1 : Reg)
  /-- AESDECM (R131): The instruction decrypts one masked AES block. -/
  | aesdecm (g : Nat) (dst src1 : Reg)
  /-- TDESKEY (R131): The instruction loads a TDES key schedule. -/
  | tdeskey (g : Nat) (src1 kind : Reg)
  /-- TDESKEYM (R131): The instruction loads a masked TDES key schedule. -/
  | tdeskeym (g : Nat) (src1 kind : Reg)
  /-- TDESENC (R131): The instruction encrypts one TDES block. -/
  | tdesenc (g : Nat) (dst src1 : Reg)
  /-- TDESDEC (R131): The instruction decrypts one TDES block. -/
  | tdesdec (g : Nat) (dst src1 : Reg)
  /-- TDESENCM (R131): The instruction encrypts one masked TDES block. -/
  | tdesencm (g : Nat) (dst src1 : Reg)
  /-- TDESDECM (R131): The instruction decrypts one masked TDES block. -/
  | tdesdecm (g : Nat) (dst src1 : Reg)
  /-- KPERM (R133): The instruction applies Keccak-f[1600] in place to a DM state. -/
  | kperm (g : Nat) (src1 : Reg)
  /-- INPULL (R134): The instruction refills the IN window with the next input bytes. -/
  | inpull (g : Nat) (dst : Reg) (data : Option (List Byte))
  /-- OUTPUSH (R134): The instruction appends OUT window bytes to the host output, beginning the output stage on the first push. -/
  | outpush (g : Nat) (dst src1 : Reg) (list : List Byte) (accepted : Bool)
  /-- BNPUT (R135): The instruction moves 512 bytes from DM into an engine operand word, taking hold of the engine. -/
  | bnput (g : Nat) (src1 src2 : Reg) (index : BitVec 6)
  /-- BNGET (R135): The instruction moves an engine operand word into DM. -/
  | bnget (g : Nat) (src1 src2 : Reg) (index : BitVec 6)
  /-- BNCMD (R135): The instruction loads 64 command-memory entries of an engine. -/
  | bncmd (g : Nat) (src1 src2 : Reg) (index : BitVec 6)
  /-- BNGO (R135): The instruction starts an engine program. -/
  | bngo (g : Nat) (src1 src2 : Reg)
  /-- BNWAIT (R135): The instruction waits for an engine program to end and returns its status. -/
  | bnwait (g : Nat) (dst src2 : Reg)
  /-- BNREL (R135): The instruction releases an engine after its program ends, starting the engine's scrub. -/
  | bnrel (g : Nat) (src2 : Reg)
  /-- CSRR (R136): The instruction reads a control register. -/
  | csrr (g : Nat) (dst : Reg) (csr : Half)
  /-- CSRW (R136): The instruction writes a control register, clearing a long register that LPUB newly marks public. -/
  | csrw (g : Nat) (src1 : Reg) (csr : Half)
  /-- VADD (R151): The long-vector instruction adds elements. -/
  | vadd (g : Nat) (o : LvOps)
  /-- VSUB (R151): The long-vector instruction subtracts elements. -/
  | vsub (g : Nat) (o : LvOps)
  /-- VNEG (R151): The long-vector instruction negates elements. -/
  | vneg (g : Nat) (o : LvUnary)
  /-- VCABS (R151): The long-vector instruction takes the centred absolute value. -/
  | vcabs (g : Nat) (o : LvUnary)
  /-- VAND (R151): The long-vector instruction forms a bitwise AND. -/
  | vand (g : Nat) (o : LvOps)
  /-- VOR (R151): The long-vector instruction forms a bitwise OR. -/
  | vor (g : Nat) (o : LvOps)
  /-- VXOR (R151): The long-vector instruction forms a bitwise XOR. -/
  | vxor (g : Nat) (o : LvOps)
  /-- VANDN (R151): The long-vector instruction forms a bitwise AND NOT. -/
  | vandn (g : Nat) (o : LvOps)
  /-- VSLL (R151): The long-vector instruction shifts elements left. -/
  | vsll (g : Nat) (o : LvOps)
  /-- VSRL (R151): The long-vector instruction shifts elements right logically. -/
  | vsrl (g : Nat) (o : LvOps)
  /-- VSRA (R151): The long-vector instruction shifts elements right arithmetically. -/
  | vsra (g : Nat) (o : LvOps)
  /-- VCMPEQ (R151): The long-vector instruction writes an equality predicate. -/
  | vcmpeq (g : Nat) (o : LvOps)
  /-- VCMPLTU (R151): The long-vector instruction writes an unsigned less-than predicate. -/
  | vcmpltu (g : Nat) (o : LvOps)
  /-- VCMPGEU (R151): The long-vector instruction writes an unsigned greater-or-equal predicate. -/
  | vcmpgeu (g : Nat) (o : LvOps)
  /-- VSEL (R151): The long-vector instruction selects elements by predicate. -/
  | vsel (g : Nat) (o : LvOps)
  /-- VSPLAT (R151): The long-vector instruction splats an X register into every element. -/
  | vsplat (g : Nat) (o : LvOps)
  /-- VMUL (R152): The long-vector instruction multiplies elements modulo M. -/
  | vmul (g : Nat) (o : LvOps)
  /-- VMULM (R152): The long-vector instruction performs a Montgomery multiplication. -/
  | vmulm (g : Nat) (o : LvOps)
  /-- VMAC (R152): The long-vector instruction performs a modular multiply-accumulate. -/
  | vmac (g : Nat) (o : LvOps)
  /-- VMACM (R152): The long-vector instruction performs a Montgomery multiply-accumulate. -/
  | vmacm (g : Nat) (o : LvOps)
  /-- VRED (R152): The long-vector instruction reduces elements modulo q. -/
  | vred (g : Nat) (o : LvUnary)
  /-- VKBMUL (R152): The long-vector instruction performs MultiplyNTTs of FIPS 203. -/
  | vkbmul (g : Nat) (o : LvOps)
  /-- VCLMULLO (R152): The long-vector instruction writes the low half of carry-less products. -/
  | vclmullo (g : Nat) (o : LvOps)
  /-- VCLMULHI (R152): The long-vector instruction writes the high half of carry-less products. -/
  | vclmulhi (g : Nat) (o : LvOps)
  /-- VGFMUL (R152): The long-vector instruction multiplies in GF(2^m). -/
  | vgfmul (g : Nat) (o : LvOps)
  /-- VGFINV (R152): The microcoded long-vector instruction inverts in GF(2^m). -/
  | vgfinv (g : Nat) (o : LvUnary) (trouble : GrainTrouble)
  /-- VNTTS (R153): The microcoded long-vector instruction performs one forward NTT stage. -/
  | vntts (g : Nat) (o : LvOps) (layer : BitVec 4) (trouble : GrainTrouble)
  /-- VINTTS (R153): The microcoded long-vector instruction performs one inverse NTT stage. -/
  | vintts (g : Nat) (o : LvOps) (layer : BitVec 4) (trouble : GrainTrouble)
  /-- VBFCT (R153): The long-vector instruction performs Cooley-Tukey butterflies across groups. -/
  | vbfct (g : Nat) (o : LvOps) (wreg : BitVec 4)
  /-- VBFGS (R153): The long-vector instruction performs Gentleman-Sande butterflies across groups. -/
  | vbfgs (g : Nat) (o : LvOps) (wreg : BitVec 4)
  /-- VLD (R154): The instruction loads planes of a long-register group from DM. -/
  | vld (g : Nat) (lreg : BitVec 4) (xbase : Reg) (pred : BitVec 3) (sh : BitVec 2) (off : BitVec 11) (ecc : Bool)
  /-- VST (R154): The instruction stores planes of a long-register group to DM. -/
  | vst (g : Nat) (lreg : BitVec 4) (xbase : Reg) (pred : BitVec 3) (sh : BitVec 2) (off : BitVec 11)
  /-- VMOV (R155): The long-vector instruction moves a group. -/
  | vmov (g : Nat) (o : LvUnary)
  /-- VGATHER (R155): The long-vector instruction gathers elements by index. -/
  | vgather (g : Nat) (o : LvOps)
  /-- VSCATTER (R155): The long-vector instruction scatters elements by index. -/
  | vscatter (g : Nat) (o : LvOps)
  /-- VCOMPACT (R155): The long-vector instruction compacts the active elements and returns their count. -/
  | vcompact (g : Nat) (o : LvOps)
  /-- VPERMGEN (R155): The microcoded long-vector instruction draws a uniform permutation from the expander. -/
  | vpermgen (g : Nat) (o : LvUnary) (trouble : GrainTrouble)
  /-- VGATHERM (R155): The long-vector instruction gathers elements from DM. -/
  | vgatherm (g : Nat) (o : LvOps) (ecc : Bool)
  /-- VSCATTERM (R155): The long-vector instruction scatters elements to DM. -/
  | vscatterm (g : Nat) (o : LvOps)
  /-- VEXT (R155): The long-vector instruction extracts an element of a public register into an X register. -/
  | vext (g : Nat) (o : LvOps)
  /-- VINS (R155): The long-vector instruction inserts an X value into an element. -/
  | vins (g : Nat) (o : LvOps)
  /-- VKECCAK (R156): The microcoded long-vector instruction applies Keccak-f[1600] to a register state, masked in the share-wise form. -/
  | vkeccak (g : Nat) (o : LvUnary) (trouble : GrainTrouble)
  /-- VKABS (R156): The microcoded long-vector instruction absorbs rate bytes from DM and permutes. -/
  | vkabs (g : Nat) (o : LvOps) (trouble : GrainTrouble)
  /-- VSQZ (R156): The long-vector instruction squeezes the rate bytes of a state. -/
  | vsqz (g : Nat) (o : LvUnary)
  /-- VREJ (R156): The long-vector instruction appends accepted rejection-sampling candidates to a group and updates the count. -/
  | vrej (g : Nat) (o : LvOps)
  /-- VCBD (R156): The long-vector instruction samples a centred binomial polynomial. -/
  | vcbd (g : Nat) (o : LvUnary)
  /-- VSIB (R156): The microcoded long-vector instruction performs SampleInBall of FIPS 204. -/
  | vsib (g : Nat) (o : LvUnary) (trouble : GrainTrouble)
  /-- VREFRESHB (R157): The gadget re-randomises Boolean shares. -/
  | vrefreshb (g : Nat) (o : LvUnary) (chk : Option Bool) (trouble : GrainTrouble)
  /-- VREFRESHA (R157): The gadget re-randomises arithmetic shares. -/
  | vrefresha (g : Nat) (o : LvUnary) (chk : Option Bool) (trouble : GrainTrouble)
  /-- VA2B (R157): The gadget converts arithmetic shares to Boolean shares. -/
  | va2b (g : Nat) (o : LvUnary) (chk : Option Bool) (trouble : GrainTrouble)
  /-- VB2A (R157): The gadget converts Boolean shares to arithmetic shares. -/
  | vb2a (g : Nat) (o : LvUnary) (chk : Option Bool) (trouble : GrainTrouble)
  /-- VMAND (R157): The gadget forms a masked AND. -/
  | vmand (g : Nat) (o : LvOps) (chk : Option Bool) (trouble : GrainTrouble)
  /-- VMCMPEQ (R157): The gadget compares masked values for equality. -/
  | vmcmpeq (g : Nat) (o : LvOps) (chk : Option Bool) (trouble : GrainTrouble)
  /-- VMCMPLT (R157): The gadget compares a masked value's magnitude against a public bound. -/
  | vmcmplt (g : Nat) (o : LvOps) (chk : Option Bool) (trouble : GrainTrouble)
  /-- VMALL (R157): The gadget writes the masked AND over all active elements. -/
  | vmall (g : Nat) (o : LvUnary) (chk : Option Bool) (trouble : GrainTrouble)
  /-- VMDECOMP (R157): The gadget performs the masked Decompose of FIPS 204. -/
  | vmdecomp (g : Nat) (o : LvOps) (chk : Option Bool) (trouble : GrainTrouble)
  /-- VUNMASKB (R159): The instruction combines Boolean shares into a public register. -/
  | vunmaskb (g : Nat) (o : LvUnary)
  /-- VUNMASKA (R159): The instruction combines arithmetic shares into a public register. -/
  | vunmaska (g : Nat) (o : LvUnary)
  /-- PAND (R159): The predicate instruction forms an AND. -/
  | pand (g : Nat) (dst src1 src2 : BitVec 4)
  /-- POR (R159): The predicate instruction forms an OR. -/
  | por (g : Nat) (dst src1 src2 : BitVec 4)
  /-- PXOR (R159): The predicate instruction forms an XOR. -/
  | pxor (g : Nat) (dst src1 src2 : BitVec 4)
  /-- PANDN (R159): The predicate instruction forms an AND NOT. -/
  | pandn (g : Nat) (dst src1 src2 : BitVec 4)
  /-- PSETN (R159): The predicate instruction sets the first n predicate bits. -/
  | psetn (g : Nat) (dst src1 : BitVec 4)
  /-- PCNT (R159): The predicate instruction counts the set bits of a predicate. -/
  | pcnt (g : Nat) (dst src1 : BitVec 4)
  /-- BN_END (R242): The engine command ends the program and posts its status to BNWAIT. -/
  | bnEnd (n : Nat)
  /-- MODADD (R242): The engine command performs a modular addition. -/
  | modadd (n : Nat) (d a b : BitVec 6) (pset : BitVec 4)
  /-- MODSUB (R242): The engine command performs a modular subtraction. -/
  | modsub (n : Nat) (d a b : BitVec 6) (pset : BitVec 4)
  /-- MODMUL (R242): The engine command performs a modular multiplication. -/
  | modmul (n : Nat) (d a b : BitVec 6) (pset : BitVec 4)
  /-- MODSQR (R242): The engine command performs a modular squaring. -/
  | modsqr (n : Nat) (d a : BitVec 6) (pset : BitVec 4)
  /-- MODINV (R242): The engine command inverts on a fixed schedule. -/
  | modinv (n : Nat) (d a : BitVec 6) (pset : BitVec 4)
  /-- MODEXP (R242): The engine command performs a blinded fixed-window exponentiation, optionally as a CRT pair. -/
  | modexp (n : Nat) (d a b : BitVec 6) (pset : BitVec 4) (crt : Bool) (blind : BitVec 6)
  /-- MODRED (R242): The engine command reduces a bit range modulo m. -/
  | modred (n : Nat) (d a : BitVec 6) (pset : BitVec 4) (off len : Half)
  /-- BLIND (R242): The engine command adds a random multiple of the modulus. -/
  | blind (n : Nat) (d a b : BitVec 6) (pset : BitVec 4) (off : Half)
  /-- SETMOD (R240): The engine command loads and validates a modulus register. -/
  | setmod (n : Nat) (a : BitVec 6) (pset : BitVec 4) (cls : BitVec 2) (half : Bool)
  /-- RAWCLR (R242): The engine command clears the accumulator. -/
  | rawclr (n : Nat)
  /-- RAWMAC (R242): The engine command accumulates a limb product. -/
  | rawmac (n : Nat) (a b : BitVec 6) (li lj : BitVec 4) (k : BitVec 2)
  /-- RAWOUT (R242): The engine command writes a limb from the accumulator and shifts the accumulator. -/
  | rawout (n : Nat) (d : BitVec 6) (t : BitVec 4)
  /-- JOIN (R242): The engine command XORs the word halves and recombines shares. -/
  | join (n : Nat) (d a b : BitVec 6) (x : Bool)
  /-- COPY (R242): The engine command copies a word. -/
  | copy (n : Nat) (d a : BitVec 6)
  /-- REVB (R242): The engine command reverses bytes. -/
  | revb (n : Nat) (d a : BitVec 6) (len : BitVec 10)
  /-- CSWAP (R242): The engine command swaps two words conditionally on a counter-indexed bit. -/
  | cswap (n : Nat) (d a b : BitVec 6) (counter : BitVec 2)
  /-- SETC (R242): The engine command loads a counter from an immediate. -/
  | setc (n : Nat) (counter : BitVec 2) (value : BitVec 12)
  /-- DJNZ (R242): The engine command decrements a counter and branches while it is non-zero. -/
  | djnz (n : Nat) (counter : BitVec 2) (target : BitVec 9)
  /-- CHKEQ (R242): The engine command sets a status when two words differ. -/
  | chkeq (n : Nat) (a b : BitVec 6) (value : Half)
  /-- CHKNZ (R242): The engine command sets a status when a word is zero. -/
  | chknz (n : Nat) (a : BitVec 6) (value : Half)
  /-- LDI (R242): The engine command loads an immediate into a word. -/
  | ldi (n : Nat) (d : BitVec 6) (value : W32)
  /-- BNE_SCRUB_DONE (R238): An engine's 512-cycle scrub ends and another job may hold the engine. -/
  | bneScrubDone (n : Nat)
  /-- KAT_SCHEDULE (R464): Core 3 starts a background known-answer test on an idle unit that is due for one. -/
  | katSchedule (unit : Nat)
  /-- KAT_DONE (R466): A known-answer test ends, and its unit is passed, repeated after a reload, or retired. -/
  | katDone (unit : Nat) (pass : Bool)
  /-- AGING_READ (R470): Every 10 minutes core 3 reads the aging monitors and sets AGING when a count has fallen 8 %. -/
  | agingRead (counts : List Nat)
  /-- OBS_COUNTER_LO_READ (R472): A read of a tenant counter _LO register latches its _HI half for the same PF. -/
  | obsCounterLoRead (p t k : Nat)
  /-- DIG_CTL_WRITE (R261): A DIG_CTL write ends the message in progress and starts a new one, latching its parameters and absorbing its key and S. -/
  | digCtlWrite (r : Requester) (e : Nat) (value : W32)
  /-- DIG_DATA_WRITE (R262): A DIG_DATA_HI write absorbs 8 message bytes. -/
  | digDataWrite (r : Requester) (e : Nat) (value : W32)
  /-- DIG_LAST_WRITE (R262): A DIG_LAST_HI write absorbs the final bytes and finishes the message. -/
  | digLastWrite (r : Requester) (e : Nat) (value : W32)
  /-- DIG_LEN_WRITE (R262): A DIG_LEN write sets the DMA length, and a length of 0 finishes the message at once. -/
  | digLenWrite (r : Requester) (e : Nat) (value : W32)
  /-- DIG_ADDR_HI_WRITE (R262): A DIG_ADDR_HI write starts the DMA read of the message. -/
  | digAddrHiWrite (r : Requester) (e : Nat) (value : W32)
  /-- DIG_DMA_DONE (R262): The last DMA byte of a digest message is absorbed and the engine enters FINAL. -/
  | digDmaDone (e : Nat) (data : Option (List Byte))
  /-- DIG_RESULT_READY (R264): The digest result or compare outcome is ready, and the engine enters DONE. -/
  | digResultReady (e : Nat)
  /-- NOISE_BLOCK_DONE (R283): A source completes a block of 1,024 samples, which the health tests judge, possibly retiring the source. -/
  | noiseBlockDone (src : Nat) (samples : BitVec 1024)
  /-- SOURCE_CALIBRATION_DONE (R282): A noise source finishes calibrating its divider and starts its start-up block. -/
  | sourceCalibrationDone (src : Nat)
  /-- CONDITIONER_SEED_OUT (R285): The conditioner produces a seed into the queue, and the arbiter serves waiting requests by priority. -/
  | conditionerSeedOut
  /-- RNG_FIRST_SEED_TIMEOUT (R287): No seed exists tRNGFAIL after the subsoil clock starts, so the RNG enters FAILED and the start fails. -/
  | rngFirstSeedTimeout
  /-- DRBG_INSTANTIATE (R291): When the queue first holds 16 seeds, core 1 tests and instantiates the DRBG of each enabled port. -/
  | drbgInstantiate (p : Nat) (katOk : Bool)
  /-- DRBG_GENERATE_DONE (R292): A reserved generate request of a port DRBG completes. -/
  | drbgGenerateDone (p : Nat)
  /-- DRBG_RESEED_DONE (R292): A port DRBG's reseed finishes and COUNT returns to 0. -/
  | drbgReseedDone (p : Nat)
  /-- KEY_PORT_BUFFER_REFILL (R292): A key-port buffer refill of 4,096 bytes completes and the waiting job's bytes are delivered. -/
  | keyPortBufferRefill (q p : Nat)
  /-- RNG_CAPTURE_START (R297): Writing CAPGO in TEST_UNLOCKED starts a raw capture of one source. -/
  | rngCaptureStart (src : Nat)
  /-- RNG_CAPTURE_DONE (R297): 32,768 raw samples are captured and CAPGO clears. -/
  | rngCaptureDone (samples : List Byte)
  /-- RANDOM_BYTES (R294): Operation 0x7100 writes DRBG output to the host without a grain. -/
  | randomBytes (j : Nat)
  /-- RANDOM_BYTES_PR (R293): Operation 0x7101 reseeds the DRBG before its first request and then writes random bytes. -/
  | randomBytesPr (j : Nat)
  /-- CONDITIONED_ENTROPY (R294): Operation 0x7200 gathers seeds at priority 4 and writes them to the host. -/
  | conditionedEntropy (j : Nat)
  /-- NOP (R59): Operation 0x0000 completes with OK at admission, after earlier jobs of its pair when it carries FENCE. -/
  | nop (j : Nat)
  /-- ML_KEM_KEYGEN (R199): The operation generates an ML-KEM key into a claimed slot. -/
  | mlKemKeygen (j : Nat)
  /-- ML_KEM_ENCAPS (R203): The operation encapsulates to an ML-KEM key. -/
  | mlKemEncaps (j : Nat)
  /-- ML_KEM_DECAPS (R201): The operation decapsulates masked, with implicit rejection and optional KEEP. -/
  | mlKemDecaps (j : Nat) (faulted : Bool)
  /-- ML_DSA_KEYGEN (R199): The operation generates an ML-DSA key. -/
  | mlDsaKeygen (j : Nat)
  /-- ML_DSA_SIGN_HEDGED (R206): The operation produces a hedged ML-DSA signature with self-verification. -/
  | mlDsaSignHedged (j : Nat) (fault : Option FaultCheck)
  /-- ML_DSA_SIGN_DETERMINISTIC (R206): The operation produces a deterministic ML-DSA signature. -/
  | mlDsaSignDeterministic (j : Nat) (fault : Option FaultCheck)
  /-- HASHML_DSA_SIGN_HEDGED (R206): The operation produces a hedged pre-hash ML-DSA signature. -/
  | hashmlDsaSignHedged (j : Nat) (fault : Option FaultCheck)
  /-- HASHML_DSA_SIGN_DETERMINISTIC (R206): The operation produces a deterministic pre-hash ML-DSA signature. -/
  | hashmlDsaSignDeterministic (j : Nat) (fault : Option FaultCheck)
  /-- ML_DSA_VERIFY (R205): The operation verifies an ML-DSA signature. -/
  | mlDsaVerify (j : Nat)
  /-- HASHML_DSA_VERIFY (R205): The operation verifies a pre-hash ML-DSA signature. -/
  | hashmlDsaVerify (j : Nat)
  /-- FN_DSA_KEYGEN (R200): The operation generates an FN-DSA key in fixed time. -/
  | fnDsaKeygen (j : Nat)
  /-- FN_DSA_SIGN (R207): The operation produces an FN-DSA signature. -/
  | fnDsaSign (j : Nat) (faulted : Bool)
  /-- HASHFN_DSA_SIGN (R207): The operation produces a pre-hash FN-DSA signature. -/
  | hashfnDsaSign (j : Nat) (faulted : Bool)
  /-- FN_DSA_VERIFY (R205): The operation verifies an FN-DSA signature. -/
  | fnDsaVerify (j : Nat)
  /-- HASHFN_DSA_VERIFY (R205): The operation verifies a pre-hash FN-DSA signature. -/
  | hashfnDsaVerify (j : Nat)
  /-- COMPOSITE_SIGN (R208): The operation signs with ML-DSA on the grain and ECDSA on a reserved engine. -/
  | compositeSign (j : Nat) (fault : Option FaultCheck)
  /-- COMPOSITE_VERIFY (R208): The operation verifies both parts of a composite signature. -/
  | compositeVerify (j : Nat)
  /-- SLH_DSA_KEYGEN (R218): The operation generates an SLH-DSA key. -/
  | slhDsaKeygen (j : Nat)
  /-- SLH_DSA_SIGN_HEDGED (R218): The operation produces a hedged SLH-DSA signature. -/
  | slhDsaSignHedged (j : Nat)
  /-- SLH_DSA_SIGN_DETERMINISTIC (R218): The operation produces a deterministic SLH-DSA signature. -/
  | slhDsaSignDeterministic (j : Nat)
  /-- HASHSLH_DSA_SIGN_HEDGED (R218): The operation produces a hedged pre-hash SLH-DSA signature. -/
  | hashslhDsaSignHedged (j : Nat)
  /-- HASHSLH_DSA_SIGN_DETERMINISTIC (R218): The operation produces a deterministic pre-hash SLH-DSA signature. -/
  | hashslhDsaSignDeterministic (j : Nat)
  /-- SLH_DSA_VERIFY (R218): The operation verifies an SLH-DSA signature. -/
  | slhDsaVerify (j : Nat)
  /-- HASHSLH_DSA_VERIFY (R218): The operation verifies a pre-hash SLH-DSA signature. -/
  | hashslhDsaVerify (j : Nat)
  /-- HSS_KEYGEN (R222): The operation generates a persistent HSS key and its tree store. -/
  | hssKeygen (j : Nat)
  /-- HSS_SIGN (R226): The operation signs with a reserved leaf and prepares later trees. -/
  | hssSign (j : Nat) (faulted : Bool)
  /-- HSS_VERIFY (R221): The operation verifies an HSS signature. -/
  | hssVerify (j : Nat)
  /-- LMS_VERIFY (R221): The operation verifies a single-tree LMS signature. -/
  | lmsVerify (j : Nat)
  /-- XMSS_MT_KEYGEN (R222): The operation generates a persistent XMSS^MT key. -/
  | xmssMtKeygen (j : Nat)
  /-- XMSS_MT_SIGN (R226): The operation signs with an XMSS^MT leaf. -/
  | xmssMtSign (j : Nat) (faulted : Bool)
  /-- XMSS_VERIFY (R221): The operation verifies an XMSS signature. -/
  | xmssVerify (j : Nat)
  /-- XMSS_MT_VERIFY (R221): The operation verifies an XMSS^MT signature. -/
  | xmssMtVerify (j : Nat)
  /-- LEAF_RESERVATION_DONE (R224): Core 1 has raised NEXT by 1,024 and read it back, so leaves of the new block may be handed out. -/
  | leafReservationDone (slot : Nat)
  /-- TREE_RESTORATION_JOB (R228): An internal job rebuilds part of a stateful key's tree store at NEXT after a reset. -/
  | treeRestorationJob (slot : Nat)
  /-- HQC_KEYGEN (R232): The operation generates an HQC key. -/
  | hqcKeygen (j : Nat)
  /-- HQC_ENCAPS (R232): The operation encapsulates to an HQC key. -/
  | hqcEncaps (j : Nat)
  /-- MCELIECE_ENCAPS (R233): The operation encapsulates to a Classic McEliece key streamed through the input. -/
  | mcelieceEncaps (j : Nat)
  /-- HQC_DECAPS (R234): The operation decapsulates HQC, masked. -/
  | hqcDecaps (j : Nat) (faulted : Bool)
  /-- MCELIECE_DECAPS (R234): The operation decapsulates Classic McEliece, masked. -/
  | mcelieceDecaps (j : Nat) (faulted : Bool)
  /-- ECDSA_KEYGEN (R250): The operation generates an ECDSA key. -/
  | ecdsaKeygen (j : Nat)
  /-- ECDSA_SIGN_MESSAGE (R249): The operation signs a message with ECDSA. -/
  | ecdsaSignMessage (j : Nat)
  /-- ECDSA_SIGN_DIGEST (R249): The operation signs a digest with ECDSA. -/
  | ecdsaSignDigest (j : Nat)
  /-- ECDSA_VERIFY_MESSAGE (R252): The operation verifies an ECDSA signature over a message. -/
  | ecdsaVerifyMessage (j : Nat)
  /-- ECDSA_VERIFY_DIGEST (R252): The operation verifies an ECDSA signature over a digest. -/
  | ecdsaVerifyDigest (j : Nat)
  /-- EDDSA_KEYGEN (R250): The operation generates an EdDSA key. -/
  | eddsaKeygen (j : Nat)
  /-- EDDSA_SIGN (R249): The operation produces an EdDSA signature. -/
  | eddsaSign (j : Nat)
  /-- EDDSA_VERIFY (R252): The operation verifies an EdDSA signature. -/
  | eddsaVerify (j : Nat)
  /-- KA_KEYGEN (R250): The operation generates a key-agreement key. -/
  | kaKeygen (j : Nat)
  /-- KA_DERIVE (R251): The operation derives a shared secret from a peer key, optionally with KEEP. -/
  | kaDerive (j : Nat)
  /-- RSASSA_PSS_SIGN (R249): The operation produces an RSA-PSS signature with CRT and self-verification. -/
  | rsassaPssSign (j : Nat) (faulted : Bool)
  /-- RSAES_OAEP_DECRYPT (R249): The operation performs RSA-OAEP decryption. -/
  | rsaesOaepDecrypt (j : Nat) (faulted : Bool)
  /-- RSAES_OAEP_ENCRYPT (R251): The operation performs RSA-OAEP encryption. -/
  | rsaesOaepEncrypt (j : Nat)
  /-- RSASSA_PSS_VERIFY (R252): The operation verifies an RSA-PSS signature. -/
  | rsassaPssVerify (j : Nat)
  /-- PKCS1_V15_VERIFY (R252): The operation verifies a PKCS #1 v1.5 signature. -/
  | pkcs1V15Verify (j : Nat)
  /-- HASH (R270): The operation hashes its input on a grain. -/
  | hash (j : Nat)
  /-- HMAC_GENERATE (R270): The operation computes an HMAC. -/
  | hmacGenerate (j : Nat)
  /-- HMAC_VERIFY (R271): The operation verifies an HMAC. -/
  | hmacVerify (j : Nat)
  /-- KMAC_GENERATE (R270): The operation computes a KMAC. -/
  | kmacGenerate (j : Nat)
  /-- KMAC_VERIFY (R271): The operation verifies a KMAC. -/
  | kmacVerify (j : Nat)
  /-- AES_ENCRYPT (R270): The operation encrypts in an AES mode. -/
  | aesEncrypt (j : Nat)
  /-- AES_DECRYPT (R270): The operation decrypts in an AES mode. -/
  | aesDecrypt (j : Nat)
  /-- TDES_ENCRYPT (R270): The operation encrypts with TDES. -/
  | tdesEncrypt (j : Nat)
  /-- TDES_DECRYPT (R270): The operation decrypts with TDES. -/
  | tdesDecrypt (j : Nat)
  /-- CMAC_GENERATE (R270): The operation computes a CMAC. -/
  | cmacGenerate (j : Nat)
  /-- CMAC_VERIFY (R271): The operation verifies a CMAC. -/
  | cmacVerify (j : Nat)
  /-- WRAP (R270): The operation wraps host data with KW, KWP or TKW. -/
  | wrap (j : Nat)
  /-- UNWRAP (R270): The operation unwraps host data. -/
  | unwrap (j : Nat)
  /-- PIN_TRANSLATE (R275): The operation translates a PIN block between keys and formats, masked and self-checked. -/
  | pinTranslate (j : Nat) (faulted : Bool)
  /-- PIN_COMPARE (R275): The operation compares the PINs of two PIN blocks. -/
  | pinCompare (j : Nat) (faulted : Bool)
  /-- MAC_ALGORITHM_3_GENERATE (R277): The operation computes an ISO 9797-1 MAC algorithm 3. -/
  | macAlgorithm3Generate (j : Nat)
  /-- MAC_ALGORITHM_3_VERIFY (R277): The operation verifies an ISO 9797-1 MAC algorithm 3. -/
  | macAlgorithm3Verify (j : Nat)
  /-- DUKPT_INITIAL_KEY_EXPORT (R278): The operation derives a DUKPT initial key and exports it in a key block. -/
  | dukptInitialKeyExport (j : Nat)
  /-- DUKPT_PIN_TRANSLATE (R278): The operation translates a PIN block under a DUKPT-derived key. -/
  | dukptPinTranslate (j : Nat) (faulted : Bool)
  /-- DUKPT_CMAC_GENERATE (R278): The operation computes a CMAC under a DUKPT-derived key. -/
  | dukptCmacGenerate (j : Nat)
  /-- DUKPT_CMAC_VERIFY (R278): The operation verifies a CMAC under a DUKPT-derived key. -/
  | dukptCmacVerify (j : Nat)
  /-- KEY_BLOCK_IMPORT (R279): The operation imports an X9.143 key block into a claimed slot. -/
  | keyBlockImport (j : Nat)
  /-- KEY_BLOCK_EXPORT (R279): The operation exports a slot key as a version D key block. -/
  | keyBlockExport (j : Nat)
  /-- SLOT_PREPARE (R313): The operation presets the attribute word and budget of an EMPTY slot, which becomes PREPARED. -/
  | slotPrepare (j : Nat)
  /-- SYMMETRIC_GENERATE (R313): The operation fills a claimed slot with DRBG key bytes. -/
  | symmetricGenerate (j : Nat)
  /-- IMPORT_PUBLIC_KEY (R313): The operation imports a public key into a slot, setting PUBLIC_ONLY. -/
  | importPublicKey (j : Nat)
  /-- IMPORT_WRAPPED (R314): The operation unwraps a private-key payload into a claimed slot. -/
  | importWrapped (j : Nat)
  /-- IMPORT_BLOB (R313): The operation imports a device blob into a claimed slot. -/
  | importBlob (j : Nat)
  /-- EXPORT_BLOB (R316): The operation exports a slot key as a wrapped blob. -/
  | exportBlob (j : Nat)
  /-- DERIVE (R313): The operation derives a key by KMAC256 into a claimed slot. -/
  | derive (j : Nat)
  /-- READ_PUBLIC_KEY (R313): The operation returns the public key of a LOADED slot. -/
  | readPublicKey (j : Nat)
  /-- CONTEXT_OPEN (R321): The operation opens a session context for an underlying group-0x5 operation. -/
  | contextOpen (j : Nat)
  /-- CONTEXT_STEP (R321): The operation advances a session context with more data. -/
  | contextStep (j : Nat)
  /-- CONTEXT_CLOSE (R321): The operation finishes a context, writes its final output and frees the context. -/
  | contextClose (j : Nat)
  /-- CONTEXT_DISCARD (R321): The operation frees and zeroes a context. -/
  | contextDiscard (j : Nat)
  /-- OWNER_EXTENSION (R364): A group-0xF job runs an owner extension program of the tilth record. -/
  | ownerExtension (j : Nat)
  /-- MCTP_MESSAGE (R428): Admin operation 0x0100 passes an MCTP message body to core 0 and returns the response. -/
  | mctpMessage (j : Nat)
  /-- BUDGET_FLOOR_WRITE_DONE (R319): Core 1 has written a lower budget floor to the shelf and read it back, releasing held charges. -/
  | budgetFloorWriteDone (slot : Nat)
  /-- SHELF_RESTORE_DONE (R320): Core 1 finishes restoring every valid shelf record into its slot. -/
  | shelfRestoreDone (bad : List Nat)
  /-- SLOT_ASSIGN (R315): The manager request sets the owner or system flag of an UNASSIGNED or EMPTY slot. -/
  | slotAssign (v : Via) (slot owner : Nat) (system : Bool)
  /-- BUDGET_LOWER (R319): The manager request lowers a slot budget, writing the shelf floor first on a persistent slot. -/
  | budgetLower (v : Via) (slot budget : Nat)
  /-- DESTROY_ARM (R315): The manager request arms KEY_SLOT_DESTROY for the requesting PF. -/
  | destroyArm (v : Via) (slot : Nat) (value : W32)
  /-- SETTLE_HOLD_START (R334): VDD_T or VDD_TM falls below its warning level, and jobs and units stop under the hold rules. -/
  | settleHoldStart (supply : Nat)
  /-- SETTLE_HOLD_RELEASE (R334): Every supply that raised the hold rises above its release level, and held work resumes or re-runs. -/
  | settleHoldRelease (supply : Nat)
  /-- SETTLE_HOLD_TIMEOUT (R334): A hold lasts tHOLD and ends in a topsoil brown-out. -/
  | settleHoldTimeout
  /-- TOPSOIL_BROWN_OUT (R337): A topsoil supply falls below its reset level, clearing the fabric and taking the PCIe ports down. -/
  | topsoilBrownOut (supply : Nat)
  /-- SUBSOIL_BROWN_OUT (R336): A subsoil-group supply falls below its reset level, causing a full reset. -/
  | subsoilBrownOut (supply : Nat)
  /-- VDD_SM_WARNING (R335): VDD_SM falls below its warning level and no new MRAM write starts. -/
  | vddSmWarning
  /-- VDD_SM_RELEASE (R335): VDD_SM reaches its release level and the deferred MRAM writes proceed. -/
  | vddSmRelease
  /-- VDD_S_WARNING (R333): VDD_S falls below its warning level and the crossing is counted and logged. -/
  | vddSWarning (low : Bool)
  /-- POWER_ON_RESET (R327): The subsoil supplies and reference clock become valid, starting power-on reset. -/
  | powerOnReset (valid : Nat) (vbatLost refclk0 : Bool)
  /-- POR_RELEASE (R346): tPOR after the supplies become valid, power-on reset is released and the straps are latched. -/
  | porRelease (straps : Nat) (forceGolden h33 factory : Bool)
  /-- SYS_RESET_ASSERT (R340): SYS_RESET_N goes low. -/
  | sysResetAssert
  /-- SYS_RESET_RELEASE (R340): SYS_RESET_N rises after a low pulse of tRSTW or more, releasing a full reset and latching the straps. -/
  | sysResetRelease (nanos straps : Nat) (forceGolden taken : Bool)
  /-- SUBSOIL_PLL_LOCK (R338): The subsoil PLL locks and the four loam cores leave reset. -/
  | subsoilPllLock
  /-- FULL_RESET_START (R358): The loam cores fetch from 0x0000_0000 and run their immutable duties. -/
  | fullResetStart (torn condKat : Bool) (cut : Option Bool) (bad : Nat)
  /-- ROOT_SECRET_RENEWAL (R303): After the first seed, the boot code generates a new root secret, erases the shelf and logs ROOT_RENEWED. -/
  | rootSecretRenewal
  /-- SEAL_CHECK_START (R338): Core 0 starts the seal check of the running slot on DS0 once the first seed exists. -/
  | sealCheckStart
  /-- SEAL_CHECK_DONE (R360): The seal check ends, opening the output gate, or marking the slot BAD and raising a full reset. -/
  | sealCheckDone
  /-- TOPSOIL_POWER_UP (R338): With boot done, the topsoil group valid and PCIE_REFCLK 0 present, the topsoil fabric is released. -/
  | topsoilPowerUp (supplies : Nat) (refclk0 : Bool)
  /-- START_OK (R338): The Secure Executive declares the start healthy, clearing the count and updating PRIMARY and the SVN floor. -/
  | startOk
  /-- BRINGUP_TIMEOUT (R346): No START_OK is written within tBRINGUP, causing a full reset with cause BRINGUP. -/
  | bringupTimeout
  /-- LOAM_WATCHDOG_TIMEOUT (R337): A loam core not serviced for tWDT is reset alone, or escalated to a full reset before START_OK. -/
  | loamWatchdogTimeout (k : Nat)
  /-- LOAM_MACHINE_CHECK (R336): A lockstep mismatch causes a full reset. -/
  | loamMachineCheck
  /-- IMAGE_BEGIN (R367): The request opens an install into a slot or tilth copy and marks the target WRITING. -/
  | imageBegin (v : Via) (target len : Nat)
  /-- IMAGE_DATA (R367): The request writes install data at an offset. -/
  | imageData (v : Via) (off : Nat) (bytes : List Byte)
  /-- IMAGE_COMMIT (R367): The request checks, verifies and seals an installed image, writing its control page last. -/
  | imageCommit (v : Via)
  /-- IMAGE_ACTIVATE (R367): The request sets PRIMARY and optionally RAISE_SVN for the next full reset. -/
  | imageActivate (v : Via) (primary : Nat) (raiseSvn : Bool)
  /-- REVOKE_ARM (R367): The request arms BOOT_REVOKE for the requesting PF. -/
  | revokeArm (v : Via) (entry : Nat) (value : W32)
  /-- FALLOW_STATUS (R369): The fallow message returns the UID, state and boot status. -/
  | fallowStatus (v : Via)
  /-- FALLOW_EXIT (R369): The fallow message sets PRIMARY, clears the count and performs a software full reset. -/
  | fallowExit (v : Via) (slot : Nat)
  /-- CHANNEL_INIT_DONE (R376): A flash channel finishes initialisation in 8D-8D-8D, or waits when the flash does not answer. -/
  | channelInitDone (c : Nat) (answers : Bool) (jedec sfdp header0 header1 : List Byte)
  /-- MANIFEST_VERIFY_DONE (R383): Core 2 finishes verifying a host image manifest. -/
  | manifestVerifyDone (c : Nat) (manifest : List Byte)
  /-- BLOCK_SCAN_DONE (R381): The block scan and mirror fill of a channel end, and the channel becomes SERVING or moves to the next recovery source. -/
  | blockScanDone (c : Nat) (image : List Byte)
  /-- HOLD_AUTO_RELEASE (R373): DELAY_MS after its channels are SERVING, an AUTO hold is released, completing platform release when it is the last. -/
  | holdAutoRelease (k : Nat)
  /-- HOST_FLASH_READ (R378): A host read command is served from the mirror, a watched flash read or an open flash read. -/
  | hostFlashRead (c : Nat) (code : Half) (addr n : Nat) (slow : Bool) (data : List Byte) (tagOk : Bool)
  /-- HOST_FLASH_PROGRAM (R387): A host program command is judged by the sieve and the update window, then forwarded or denied. -/
  | hostFlashProgram (c : Nat) (code : Half) (addr : Nat) (data : List Byte)
  /-- HOST_FLASH_ERASE (R387): A host erase command is judged by the sieve and the update window, then forwarded or denied. -/
  | hostFlashErase (c : Nat) (code : Half) (addr : Nat)
  /-- HOST_FLASH_STATUS (R388): A host status command is forwarded, or answered with emulated denial status. -/
  | hostFlashStatus (c : Nat) (code : Half) (status : Byte)
  /-- HOST_FLASH_CONFIG (R375): A host configuration command changes the emulated configuration when the sieve permits. -/
  | hostFlashConfig (c : Nat) (code : Half) (addr : Nat) (data : List Byte)
  /-- HOST_FLASH_RESET (R375): The 0x66 0x99 sequence returns the emulation to 1-1-1 with 3-byte addressing. -/
  | hostFlashReset (c : Nat)
  /-- WATCHED_COMPLETION_READ (R379): The flash read that completes a pending watched block runs when the flash is free, or after 40 µs. -/
  | watchedCompletionRead (c block : Nat) (data : List Byte)
  /-- WATCHED_BLOCK_HASH_DONE (R389): DS0 finishes the hash of a watched block, which is compared with its entry. -/
  | watchedBlockHashDone (c block : Nat)
  /-- UPDATE_WINDOW_TIMEOUT (R387): An update window reaches WIN_TIMEOUT and closes. -/
  | updateWindowTimeout (c : Nat)
  /-- FLASH_IDLE_TIMEOUT (R392): A flash busy with a program or erase for 10 s is reset so that recovery can proceed. -/
  | flashIdleTimeout (c : Nat)
  /-- SIEVE_SET (R391): The request changes one opcode entry or one address rule. -/
  | sieveSet (v : Via) (e : SieveEntry)
  /-- PGD_ARM (R391): The request arms PGD_HOLD_REL, PGD_SIEVE_EN or PGD_UPD_WIN for the requesting PF. -/
  | pgdArm (v : Via) (off : Nat) (value : W32)
  /-- PLATFORM_CYCLE (R391): The request asserts the holds and re-verifies both channels. -/
  | platformCycle (v : Via)
  /-- HOST_IMAGE_BEGIN (R391): The request opens the delivery of a host image into a region. -/
  | hostImageBegin (v : Via) (channel target len : Nat)
  /-- HOST_IMAGE_DATA (R391): The request writes host image bytes to flash, bypassing the sieve. -/
  | hostImageData (v : Via) (off : Nat) (bytes : List Byte)
  /-- HOST_IMAGE_COMMIT (R391): The request verifies a delivered host image from flash. -/
  | hostImageCommit (v : Via)
  /-- LC_STAGE (R403): The request checks and stages a life-cycle request and arms LCS_REQ. -/
  | lcStage (v : Via) (request : List Byte)
  /-- LC_DIRECT_REQUEST (R403): The factory, fallow or lock service takes a signed transition request and performs steps 3 to 6 without staging. -/
  | lcDirectRequest (v : Via) (request : List Byte) (cut : Option Bool)
  /-- TAP_INSTRUCTION (R399): A TAP instruction takes effect only where the debug latch permits it, and otherwise BYPASS holds. -/
  | tapInstruction (factory : Bool) (instruction : Nat)
  /-- TAMPER_SAMPLE_TICK (R408): The 1 ms sample of switch and static loop inputs raises an alarm after three abnormal samples. -/
  | tamperSampleTick (switches : BitVec 8) (loops : BitVec 4)
  /-- LOOP_MISMATCH (R409): A pseudo-random loop shows four mismatching bits in 64 and raises an alarm. -/
  | loopMismatch (k : Nat)
  /-- VOLTAGE_TAMPER (R410): A core supply goes over its level or leaves its glitch window and raises the voltage source. -/
  | voltageTamper (supply : Nat)
  /-- TEMPERATURE_READING (R411): The periodic sensor reading raises the temperature source after three readings out of window or in disagreement. -/
  | temperatureReading (readings : List (BitVec 16))
  /-- CLOCK_MONITOR_WINDOW (R412): The clock measurement window raises the clock source after three windows out of range or a stopped clock. -/
  | clockMonitorWindow (clock : Nat) (abnormal stopped : Bool)
  /-- OSCILLATOR_FALLBACK (R422): The 32.768 kHz oscillator stops on battery and the 1 kHz oscillator takes over, recording CLOCK_STOP. -/
  | oscillatorFallback
  /-- TAMPER_OUT_RELEASE (R415): After tOUT with no persisting condition or lock, TAMPER_OUT_N is released. -/
  | tamperOutRelease
  /-- EVIDENCE_INCREMENT_DONE (R421): One evidence counter bit is programmed and read back, saturating the counter at 4,096. -/
  | evidenceIncrementDone (readBackOk : Bool)
  /-- LOCK_STATUS (R419): The lock-service message returns the UID, state, evidence count and battery record. -/
  | lockStatus (v : Via)
  /-- UNLOCK (R420): A valid signed unlock clears the latch and flag, logs and performs a software full reset. -/
  | unlock (v : Via) (request : List Byte)
  /-- TAMPER_ARM (R416): The request arms a TMP_CFG register for the requesting PF. -/
  | tamperArm (v : Via) (off : Nat) (value : W32)
  /-- GET_VERSION (R430): The SPDM request returns the supported versions. -/
  | getVersion (v : Via)
  /-- GET_CAPABILITIES (R430): The SPDM request returns the capabilities. -/
  | getCapabilities (v : Via) (version : Nat)
  /-- NEGOTIATE_ALGORITHMS (R430): The SPDM request selects the algorithms. -/
  | negotiateAlgorithms (v : Via) (asym hash measHash : Nat)
  /-- GET_DIGESTS (R432): The SPDM request returns the certificate chain digests. -/
  | getDigests (v : Via)
  /-- GET_CERTIFICATE (R432): The SPDM request returns the certificate chain of slot 0. -/
  | getCertificate (v : Via) (slot off len : Nat)
  /-- CHALLENGE (R431): The SPDM request returns a hybrid-signed challenge response. -/
  | challenge (v : Via) (slot : Nat)
  /-- GET_MEASUREMENTS (R433): The SPDM request returns the measurement blocks. -/
  | getMeasurements (v : Via) (index : Nat) (signed : Bool)
  /-- KEY_EXCHANGE (R429): The SPDM request opens a session, or is refused when the session limit is reached. -/
  | keyExchange (v : Via) (slot : Nat)
  /-- FINISH (R429): The SPDM request completes session establishment. -/
  | finish (v : Via) (n : Nat) (chain : Option Chain) (signature mac : List Byte)
  /-- HEARTBEAT (R430): The SPDM request keeps a session alive. -/
  | heartbeat (v : Via)
  /-- HEARTBEAT_TIMEOUT (R429): A session loses its heartbeat and ends. -/
  | heartbeatTimeout (n : Nat)
  /-- KEY_UPDATE (R430): The SPDM request updates the session keys. -/
  | keyUpdate (v : Via)
  /-- END_SESSION (R429): The SPDM request ends a session. -/
  | endSession (v : Via)
  /-- SET_CERTIFICATE (R432): The SPDM request installs a new DeviceID chain in a manager session and appends a fresh Alias certificate. -/
  | setCertificate (v : Via) (slot : Nat) (chain : List Byte)
  /-- CHUNK_SEND (R427): The SPDM request carries one chunk of a large request. -/
  | chunkSend (v : Via) (handle seq : Nat) (last : Bool) (bytes : List Byte)
  /-- CHUNK_GET (R427): The SPDM request retrieves one chunk of a large response. -/
  | chunkGet (v : Via) (handle seq : Nat)
  /-- MANAGER_BIND (R429): The vendor request binds a session as a manager session by a signature over TH2. -/
  | managerBind (v : Via) (signature : List Byte)
  /-- SET_ENDPOINT_ID (R427): The MCTP control message sets the endpoint ID. -/
  | setEndpointId (v : Via) (eid : Nat)
  /-- CHECKPOINT (R441): The request issues a signed checkpoint for an entry. -/
  | checkpoint (v : Via) (seq : Nat)
  /-- CHECKPOINT_ACK (R440): The request moves the log floor to an acknowledged checkpoint. -/
  | checkpointAck (v : Via) (seq : Nat) (digest : List Byte)
  /-- LOG_READ (R440): The request returns up to 64 log entries. -/
  | logRead (v : Via) (seq count : Nat)
  /-- KEY_USAGE (R443): The request returns a signed usage report of slots. -/
  | keyUsage (v : Via) (first count : Nat)
  /-- TIME_SET (R439): The request sets the wall-time offset. -/
  | timeSet (v : Via) (offset : W64)
  /-- CEREMONY_APPROVE (R459): The request counts an officer approval and executes the ceremony at M approvals. -/
  | ceremonyApprove (v : Via) (id target officer : Nat) (signature : List Byte)
  /-- CEREMONY_EXPIRY (R459): A ceremony not completed within 24 hours is discarded. -/
  | ceremonyExpiry
  /-- UNC_MKEY_NEW (R454): The request makes the device the leader of a new domain-secret generation and floods MKEY_OFFER. -/
  | uncMkeyNew (v : Via)
  /-- UNC_MKEY_JOIN (R454): The request makes the device join a named leader's generation. -/
  | uncMkeyJoin (v : Via) (leader : Nat) (reachable : Bool)
  /-- UNC_EPOCH (R457): The request raises the epoch locally and floods EPOCH. -/
  | uncEpoch (v : Via) (target : Nat)
  /-- UNC_REENUMERATE (R456): The request makes a bridge enumerate its child ring again. -/
  | uncReenumerate (v : Via)
  /-- KEEPALIVE (R449): A keepalive frame arrives on a link. -/
  | keepalive (b : Bool) (bytes : List Byte)
  /-- KEEPALIVE_TIMER (R449): A transmitter idle for tKA sends a KEEPALIVE. -/
  | keepaliveTimer (b : Bool)
  /-- LINK_LOSS_TIMEOUT (R452): No valid frame for tLOSS declares the link lost and the device drops its address. -/
  | linkLossTimeout (b : Bool)
  /-- ENUMERATE (R451): The enumeration token assigns the next address, and a bridge enumerates its child before forwarding it. -/
  | enumerate (b : Bool) (bytes : List Byte)
  /-- DISOWN (R448): The frame makes every device of a segment drop its address. -/
  | disown (b : Bool) (bytes : List Byte)
  /-- UNCEL_MCTP_FRAME (R448): A frame carries one MCTP packet to its endpoint. -/
  | uncelMctpFrame (b : Bool) (bytes : List Byte)
  /-- UNCEL_EPOCH_FRAME (R457): An authenticated EPOCH frame applies the target epoch at the receiver. -/
  | uncelEpochFrame (b : Bool) (bytes : List Byte)
  /-- EPOCH_DONE (R457): The frame reports a receiver's epoch result to the originator. -/
  | epochDone (b : Bool) (bytes : List Byte)
  /-- MKEY_OFFER (R454): The offer makes devices of a lower generation join the leader. -/
  | mkeyOffer (b : Bool) (bytes : List Byte)
  /-- UNC_JOIN_REQUEST (R454): A member's join message is checked by the leader, which returns the wrapped secret. -/
  | uncJoinRequest (member : Nat) (ek chain ownerHash signature : List Byte)
  /-- UNC_JOIN_RESPONSE (R454): A member checks the leader's response and writes the new generation. -/
  | uncJoinResponse (leader : Nat) (answer chain ownerHash signature : List Byte)
  /-- UNCEL_TAMPER_FRAME (R458): An authenticated remote tamper frame applies the REMOTE_TAMPER responses. -/
  | uncelTamperFrame (b : Bool) (bytes : List Byte)
  /-- UNCEL_TIME_FRAME (R460): A TIME frame steps the receiver's offset when it differs by more than 800 µs and sets ALIGNED. -/
  | uncelTimeFrame (b : Bool) (bytes : List Byte)
  /-- TIME_LEADER_TICK (R460): Once per second the time leader floods TIME. -/
  | timeLeaderTick
  /-- ALIGNMENT_TIMEOUT (R460): 10 s without a TIME frame clears ALIGNED. -/
  | alignmentTimeout
  /-- ENTDAA (R500): The I3C CCC assigns a dynamic address. -/
  | entdaa (addr : Nat)
  /-- SETDASA (R500): The I3C CCC assigns a dynamic address from the static address 0x2E. -/
  | setdasa (static addr : Nat)
  /-- SETNEWDA (R500): The I3C CCC changes the dynamic address. -/
  | setnewda (old addr : Nat)
  /-- RSTDAA (R500): The I3C CCC resets the dynamic address. -/
  | rstdaa
  /-- GETPID (R500): The I3C CCC returns the PID. -/
  | getpid (addr : Nat)
  /-- GETBCR (R500): The I3C CCC returns the BCR. -/
  | getbcr (addr : Nat)
  /-- GETDCR (R500): The I3C CCC returns the DCR. -/
  | getdcr (addr : Nat)
  /-- GETSTATUS (R500): The I3C CCC returns the target status. -/
  | getstatus (addr : Nat)
  /-- GETMRL (R500): The I3C CCC returns the maximum read length. -/
  | getmrl (addr : Nat)
  /-- GETMWL (R500): The I3C CCC returns the maximum write length. -/
  | getmwl (addr : Nat)
  /-- ENEC (R500): The I3C CCC enables target events. -/
  | enec (addr : Option Nat) (events : Byte)
  /-- DISEC (R500): The I3C CCC disables target events. -/
  | disec (addr : Option Nat) (events : Byte)
  /-- RSTACT (R500): The I3C CCC resets only the I3C target. -/
  | rstact
  /-- I3C_PRIVATE_TRANSFER (R500): An I3C private transfer carries an MCTP packet to or from the target, with an IBI when a response is ready. -/
  | i3cPrivateTransfer (addr : Nat) (read : Bool) (bytes : List Byte)
  /-- PERST_RELEASE (R71): PERST_N[p] is deasserted and port p may train its link again when step 5 of R338 permits. -/
  | perstRelease (p : Nat)
  /-- UNCEL_RECEIVER_LINK_UP (R451): An Uncel receiver gains its link, setting LINK_A or LINK_B, and a bridge whose B link comes up enumerates its child ring. -/
  | uncelReceiverLinkUp (b : Bool)
  /-- UNCEL_OTHER_FRAME (R448): A frame with an unassigned TYPE or a LEN outside its row arrives and is forwarded, but not acted on. -/
  | uncelOtherFrame (b : Bool) (bytes : List Byte)
  /-- FLASH_PROGRAM_ERASE_DONE (R392): The attached flash finishes a program or erase and goes idle, so a recovery waiting on it proceeds and watched reads are served again. -/
  | flashProgramEraseDone (c : Nat)
  /-- LEAF_HANDOUT_INTERVAL (R224): 4.8 µs after a key's last leaf was handed out, the key port may hand the next leaf to a job waiting at the key stage. -/
  | leafHandoutInterval (slot : Nat)
  /-- ILLEGAL_ENCODING (R119): A grain fetches a word whose MAJOR, FUNC or OP is unassigned, and the job ends with PROGRAM_FAULT cause ILLEGAL. -/
  | illegalEncoding (g : Nat)
  /-- PM_RANGE_FETCH (R124): A grain fetches at or past TEXT_WORDS, and the job ends with PROGRAM_FAULT cause PM_RANGE. -/
  | pmRangeFetch (g : Nat)
  /-- BAD_COMMAND (R243): An engine program meets an unknown OPC or a fetch past entry 511, stops, and reports BAD_COMMAND. -/
  | badCommand (n : Nat)
  deriving DecidableEq, Repr

end Sys2Proof
end

