-- ==== Sys2Proof/Decode.lean ====
section
/-!
DEFINITION. The command that a word spells by the table's bits. No row of spec/opcode_table.json gives bits: the commands
are register writes, operations, frames and events, and the encodings of a grain's and an engine's own instructions stand
in Machine/Encode.lean and Machine/Bne.lean, where the programs in PM and in the control store are compared with them.
-/
namespace Sys2Proof

/-- The command that `w` spells as a word of `nbits` bits: none, since the table gives no row bits (log entry 4). -/
def decodeTableWord (_nbits _w : Nat) : Option Instr := none

end Sys2Proof
end

