-- ==== Sys2Proof/Config.lean ====
section
/-!
DEFINITION. What an implementation fixes and what the spec leaves open: constants with no body, so that nothing proved can
rest on a value of them. A fresh free value is one of these applied to the counter `State.free`, which a step advances
whenever it uses one. The log entries of notes/assumptions say where each of them stands.
-/
namespace Sys2Proof.Config

/-- A free number for use `n` at index `i`: seeds, noise, share splits, blinding, DRBG output (log entry 1). -/
opaque freeNat : Nat → Nat → Nat
/-- A free byte for use `n` at index `i` (log entry 1). -/
opaque freeByte : Nat → Nat → Byte
/-- A free truth value for use `n` (log entry 1). -/
opaque freeBool : Nat → Bool
/-- The cycles that execution advances CYCLE by, at use `n`: the pipeline's timing is left out (log entry 3). -/
opaque cyclesTaken : Nat → Nat
/-- RTC ticks that pass before the `n`-th reading of the clock (log entry 2). -/
opaque elapsed : Nat → Nat
/-- Whether tininess is judged before rounding: R126 names IEEE 754, which leaves the choice open (log entry 12). -/
opaque tininessBeforeRounding : Bool
/-- Whether FMA of infinity times zero plus a quiet NaN sets NV: IEEE 754 leaves the choice open (log entry 12). -/
opaque fmaInfZeroNaNInvalid : Bool
/-- A key derived from the Uncel domain secret, by label (0 migration, 1 frame, 2 ceremony), generation and secret: R453 does
not say how label and generation enter KMAC256 (log entry 24). -/
opaque domainKey : Nat → Nat → List Byte → List Byte

/-- Whether a signature verifies, by scheme, public key (or the digest that names it), message and signature (log entry 26). -/
opaque sigOk : Nat → List Byte → List Byte → List Byte → Bool
/-- Whether a certificate chain is valid, and its certificates certify one another (log entry 26). -/
opaque chainOk : List Byte → Bool
/-- SHA3-256 of the vendor life-cycle key's public keys, fixed in the immutable boot code (R401; log entry 32). -/
opaque vendorLcKey : List Byte
/-- The immutable boot code (R306, R433; log entry 32). -/
opaque bootCode : List Byte
/-- The bytes of a manager request's body, whose layout the spec does not give (log entry 27). -/
opaque requestBody : MgrReq → List Byte

/-- The bytes of a KEY_USAGE report's list, whose layout R443 does not give, from its fields slot by slot (log entry 28). -/
opaque usageReport : List (List Nat) → List Byte

/-- The bytes of an answer of the fallow and lock services, whose layout R369 and R419 do not give, from its fields (log entry
35). -/
opaque serviceReport : List Nat → List Byte

/-- The pair, slot and context records of a migration blob, whose layout within a record R88 does not give, by kind (0 pair, 1
slot, 2 context): the bytes from the record's numbers and byte string, and back (log entry 29). -/
opaque migrationRecord : Nat → List Nat → List Byte → List Byte
/-- The numbers of a migration record (log entry 29). -/
opaque migrationNumbers : Nat → List Byte → List Nat
/-- The byte string of a migration record (log entry 29). -/
opaque migrationBytes : Nat → List Byte → List Byte

end Sys2Proof.Config
end

