-- ==== Sys2Proof/Machine/Map.lean ====
section
/-!
DEFINITION. Sparse tables by number: a list of (key, value) pairs with rising keys. Every numbered
collection of the device (grains, slots, queue pairs, memory bytes) is held in this one form.
-/
namespace Sys2Proof.Machine

/-- A table by number, in one canonical form: keys strictly rising (`Map.wf`). -/
abbrev Map (α : Type) := List (Nat × α)

/-- The value listed under `k`, if any. -/
def Map.find? {α : Type} : Map α → Nat → Option α
  | [], _ => none
  | (j, v) :: m, k => if j = k then some v else Map.find? m k

/-- List `v` under `k`, replacing what stood there. -/
def Map.insert {α : Type} : Map α → Nat → α → Map α
  | [], k, v => [(k, v)]
  | (j, w) :: m, k, v =>
    if k < j then (k, v) :: (j, w) :: m
    else if k = j then (k, v) :: m
    else (j, w) :: Map.insert m k v

/-- Take `k` out of the table. -/
def Map.erase {α : Type} : Map α → Nat → Map α
  | [], _ => []
  | (j, w) :: m, k => if j = k then m else (j, w) :: Map.erase m k

/-- The value at `k`, where an unlisted key reads as `d`. -/
def Map.get {α : Type} (m : Map α) (k : Nat) (d : α) : α := (Map.find? m k).getD d

/-- Write `v` at `k`, where an unlisted key reads as `d`: a value equal to `d` is not listed. -/
def Map.set {α : Type} [DecidableEq α] (m : Map α) (k : Nat) (v d : α) : Map α :=
  if v = d then Map.erase m k else Map.insert m k v

/-- Change the value at `k`, where an unlisted key reads as `d`. -/
def Map.modify {α : Type} [DecidableEq α] (m : Map α) (k : Nat) (d : α) (f : α → α) : Map α :=
  Map.set m k (f (Map.get m k d)) d

/-- Every listed value changed by `f`, the keys kept. -/
def Map.mapVals {α : Type} (m : Map α) (f : Nat → α → α) : Map α := m.map fun (k, v) => (k, f k v)

/-- The keys from `lo` rise strictly. -/
def Map.rising {α : Type} : Map α → Bool
  | [] => true
  | [_] => true
  | (j, _) :: (k, w) :: m => decide (j < k) && Map.rising ((k, w) :: m)

/-- The canonical form: keys strictly rising, and no entry equal to what an unlisted key reads as. -/
def Map.wf {α : Type} [DecidableEq α] (m : Map α) (d : α) : Bool :=
  Map.rising m && m.all fun (_, v) => decide (v ≠ d)

end Sys2Proof.Machine
end

