-- ==== Sys2Proof/Machine/Bytes.lean ====
section
/-!
DEFINITION. Bit fields and byte order. R7 (spec/00_scope.md): multi-byte fields are little-endian.
-/
namespace Sys2Proof.Machine

/-- Bits `hi:lo` of `n`. -/
def bits (n hi lo : Nat) : Nat := (n >>> lo) % 2 ^ (hi + 1 - lo)

/-- Bit `i` of `n` as a truth value. -/
def bit (n i : Nat) : Bool := n.testBit i

/-- A truth value as bit 0. -/
def ofBool (b : Bool) : Nat := if b then 1 else 0

/-- The `n` low bytes of `v`, least significant first. -/
def leBytes : Nat → Nat → List Byte
  | 0, _ => []
  | n + 1, v => BitVec.ofNat 8 v :: leBytes n (v / 256)

/-- The number whose little-endian bytes are the list. -/
def leNat : List Byte → Nat
  | [] => 0
  | b :: bs => b.toNat + 256 * leNat bs

/-- The `n` low bytes of `v`, most significant first. -/
def beBytes (n v : Nat) : List Byte := (leBytes n v).reverse

/-- The number whose big-endian bytes are the list. -/
def beNat (bs : List Byte) : Nat := leNat bs.reverse

/-- `n` bytes of `bs` from offset `off`, short where the list ends. -/
def slice (bs : List Byte) (off n : Nat) : List Byte := (bs.drop off).take n

/-- The little-endian field of `n` bytes at `off`; bytes past the end read as 0. -/
def field (bs : List Byte) (off n : Nat) : Nat := leNat (slice bs off n)

/-- `bs` made exactly `n` bytes long, filled up with zero bytes. -/
def padTo (n : Nat) (bs : List Byte) : List Byte := bs.take n ++ List.replicate (n - bs.length) 0#8

/-- The low `w` bits of `v` read as a two's-complement number. -/
def toSigned (w v : Nat) : Int :=
  let u := v % 2 ^ w
  if 2 ^ (w - 1) ≤ u then (u : Int) - (2 ^ w : Nat) else u

/-- The `w`-bit two's-complement pattern of `i`. -/
def ofSigned (w : Nat) (i : Int) : Nat := (i % (2 ^ w : Nat)).toNat

/-- The exclusive or of two byte strings, as long as the shorter one. -/
def xorBytes (a b : List Byte) : List Byte := List.zipWith (· ^^^ ·) a b

/-- Round `n` up to a multiple of `m`. -/
def roundUp (n m : Nat) : Nat := (n + m - 1) / m * m

/-- A count that stops at `max`. -/
def satAdd (max a b : Nat) : Nat := if max < a + b then max else a + b

/-- The ASCII bytes of a string. -/
def ascii (s : String) : List Byte := s.toList.map fun c => BitVec.ofNat 8 c.toNat

end Sys2Proof.Machine
end

