-- ==== Sys2Proof/Machine/Keccak.lean ====
section
/-!
DEFINITION. Keccak-f[1600] and the functions of FIPS 202 and SP 800-185 that the spec names (R133, R156, R256, R270).
A state is one number of 1,600 bits: lane (x, y) is bits 64(x + 5y) + 63 to 64(x + 5y), byte i is bits 8i + 7 to 8i (R156).
-/
namespace Sys2Proof.Machine

/-- The round constants of FIPS 202, 64 bits each, round 0 lowest. -/
def keccakRC : Nat :=
  0x8000000080008008000000008000000180000000000080808000000080008081800000008000000a000000000000800a8000000000000080800000000000800280000000000080038000000000008089800000000000008b000000008000808b000000008000000a00000000800080090000000000000088000000000000008a800000000000800980000000800080810000000080000001000000000000808b8000000080008000800000000000808a00000000000080820000000000000001

/-- The ρ offsets of FIPS 202, in lane order x + 5y. -/
def keccakRho : List Nat :=
  [0, 1, 62, 28, 27, 36, 44, 6, 55, 20, 3, 10, 43, 25, 39, 41, 45, 15, 21, 8, 18, 2, 61, 56, 14]

/-- Lane `i` of a state given as a list of lanes. -/
def lane (a : List Nat) (i : Nat) : Nat := (a[i]?).getD 0

/-- Rotate a 64-bit lane left. -/
def rotl64 (v n : Nat) : Nat := ((v <<< n) % 2 ^ 64) ||| (v >>> (64 - n))

/-- θ of FIPS 202. -/
def keccakTheta (a : List Nat) : List Nat :=
  let c := (List.range 5).map fun x =>
    lane a x ^^^ lane a (x + 5) ^^^ lane a (x + 10) ^^^ lane a (x + 15) ^^^ lane a (x + 20)
  let d := (List.range 5).map fun x => lane c ((x + 4) % 5) ^^^ rotl64 (lane c ((x + 1) % 5)) 1
  (List.range 25).map fun i => lane a i ^^^ lane d (i % 5)

/-- ρ and π of FIPS 202. -/
def keccakRhoPi (a : List Nat) : List Nat :=
  (List.range 25).map fun i =>
    let x := i % 5
    let y := i / 5
    let j := (x + 3 * y) % 5 + 5 * x
    rotl64 (lane a j) (lane keccakRho j)

/-- χ and ι of FIPS 202. -/
def keccakChiIota (r : Nat) (b : List Nat) : List Nat :=
  (List.range 25).map fun i =>
    let x := i % 5
    let y := 5 * (i / 5)
    let v := lane b i ^^^ ((2 ^ 64 - 1 - lane b ((x + 1) % 5 + y)) &&& lane b ((x + 2) % 5 + y))
    if i = 0 then v ^^^ ((keccakRC >>> (64 * r)) % 2 ^ 64) else v

/-- One round. -/
def keccakRound (a : List Nat) (r : Nat) : List Nat := keccakChiIota r (keccakRhoPi (keccakTheta a))

/-- The lanes of a 1,600-bit number. -/
def toLanes (v : Nat) : List Nat := (List.range 25).map fun i => (v >>> (64 * i)) % 2 ^ 64

/-- The 1,600-bit number of the lanes. -/
def ofLanes (a : List Nat) : Nat := a.foldr (fun l acc => acc * 2 ^ 64 + l) 0

/-- Keccak-f[1600] on a 1,600-bit state. -/
def keccakF (v : Nat) : Nat := ofLanes ((List.range 24).foldl keccakRound (toLanes v))

/-- Absorb whole blocks of `rate` bytes; the first number is how many blocks there are. -/
def absorbBlocks (rate : Nat) : Nat → Nat → List Byte → Nat
  | 0, st, _ => st
  | n + 1, st, m => absorbBlocks rate n (keccakF (st ^^^ leNat (m.take rate))) (m.drop rate)

/-- The given number of blocks of output. -/
def squeezeBlocks (rate : Nat) : Nat → Nat → List Byte
  | 0, _ => []
  | n + 1, st => leBytes rate st ++ squeezeBlocks rate n (keccakF st)

/-- pad10*1 of FIPS 202 after a domain suffix byte `suf` that holds the first pad bit. -/
def padKeccak (rate suf : Nat) (m : List Byte) : List Byte :=
  let n := rate - m.length % rate
  if n = 1 then m ++ [BitVec.ofNat 8 (suf ||| 0x80)]
  else m ++ BitVec.ofNat 8 suf :: List.replicate (n - 2) 0#8 ++ [0x80#8]

/-- The sponge: rate and output length in bytes. -/
def sponge (rate suf outLen : Nat) (m : List Byte) : List Byte :=
  let p := padKeccak rate suf m
  let st := absorbBlocks rate (p.length / rate) 0 p
  (squeezeBlocks rate (outLen / rate + 1) st).take outLen

/-- SHA3-224, -256, -384, -512, by digest length in bytes. -/
def sha3 (n : Nat) (m : List Byte) : List Byte := sponge (200 - 2 * n) 0x06 n m

/-- SHA3-256. -/
def sha3_256 (m : List Byte) : List Byte := sha3 32 m

/-- SHAKE128 and SHAKE256 (FIPS 202), by security strength. -/
def shake (strength outLen : Nat) (m : List Byte) : List Byte := sponge (200 - strength / 4) 0x1F outLen m

/-- The fewest bytes that hold `n`, at least one. -/
def byteLen (n : Nat) : Nat := if n = 0 then 1 else (Nat.log2 n) / 8 + 1

/-- left_encode of SP 800-185. -/
def leftEncode (n : Nat) : List Byte := BitVec.ofNat 8 (byteLen n) :: beBytes (byteLen n) n

/-- right_encode of SP 800-185. -/
def rightEncode (n : Nat) : List Byte := beBytes (byteLen n) n ++ [BitVec.ofNat 8 (byteLen n)]

/-- encode_string of SP 800-185. -/
def encodeString (s : List Byte) : List Byte := leftEncode (8 * s.length) ++ s

/-- bytepad of SP 800-185. -/
def bytepad (x : List Byte) (w : Nat) : List Byte :=
  let z := leftEncode w ++ x
  z ++ List.replicate (roundUp z.length w - z.length) 0#8

/-- cSHAKE128 and cSHAKE256 with function name `n` and customisation `s`. -/
def cshake (strength outLen : Nat) (m n s : List Byte) : List Byte :=
  if n = [] ∧ s = [] then shake strength outLen m
  else
    let rate := 200 - strength / 4
    sponge rate 0x04 outLen (bytepad (encodeString n ++ encodeString s) rate ++ m)

/-- KMAC128 and KMAC256 of SP 800-185. -/
def kmac (strength outLen : Nat) (key m s : List Byte) : List Byte :=
  let rate := 200 - strength / 4
  cshake strength outLen (bytepad (encodeString key) rate ++ m ++ rightEncode (8 * outLen)) (ascii "KMAC") s

/-- KMACXOF128 and KMACXOF256 of SP 800-185. -/
def kmacXof (strength outLen : Nat) (key m s : List Byte) : List Byte :=
  let rate := 200 - strength / 4
  cshake strength outLen (bytepad (encodeString key) rate ++ m ++ rightEncode 0) (ascii "KMAC") s

end Sys2Proof.Machine
end

