-- ==== Sys2Proof/Machine/StateGrain.lean ====
section
/-!
DEFINITION. The state of beds, grains and big-number engines (spec/05_grains.md, 06, 07, 08 and 12_bignum_engine.md). The
value of a field at reset is its default here.
-/
namespace Sys2Proof.Machine

/-- A byte memory: unlisted bytes read as 0, which is what the scrub of R108 leaves. -/
abbrev Memory := Map Byte

/-- The header of a grain program (R104, R105). -/
structure ProgHeader where
  version : Nat := 1
  flags : Nat := 0
  progId : Nat := 0
  textWords : Nat := 0
  entry : Nat := 0
  dataOff : Nat := 0
  dataLen : Nat := 0
  inOff : Nat := 0
  inSize : Nat := 0
  outOff : Nat := 0
  outSize : Nat := 0
  kbufOff : Nat := 0
  kbufSize : Nat := 0
  pubLregs : Nat := 0
  minMicrocode : Nat := 0
  cycleBound : Nat := 0
  deriving DecidableEq, Repr

/-- A grain program: header, text, constants and TEXT_DIGEST (R104). -/
structure Program where
  header : ProgHeader := {}
  text : List W32 := []
  data : List Byte := []
  digest : List Byte := []
  deriving DecidableEq, Repr

/-- GRN_STAT.STATE (R117); DORMANT is a state of the bed. -/
inductive GState where
  | unowned
  | scrub
  | idle
  | load
  | running
  | stalled
  | held
  | reload
  | retired
  deriving DecidableEq, Repr

/-- The mask expander (R102): words delivered since the last reseed, the early seed request, whether the arbiter has
served it, and a seed in hand. -/
structure Expander where
  delivered : Nat := 0
  pending : Bool := false
  coming : Bool := false
  seedHeld : Bool := false
  deriving DecidableEq, Repr

/-- The microsequencer's scratch (R168, R169): U0 to U31, T0 to T7 per plane, the counters, the link, the twiddle pointer,
the beat generator, the effective VL, the in-beat mode and the SALU flags. -/
structure Micro where
  u : Map W64 := []
  t : Map (BitVec 1536) := []
  uc0 : Nat := 0
  uc1 : Nat := 0
  ul : Nat := 0
  twp : Nat := 0
  beat : Nat := 0
  evl : Nat := 0
  inBeat : Bool := false
  zf : Bool := false
  nf : Bool := false
  deriving DecidableEq, Repr, Inhabited

/-- The registers of a grain (R93, R136, R137, R140): every one reads 0 after a scrub. -/
structure Regs where
  x : Map W64 := []
  f : Map W64 := []
  sv : Map W128 := []
  la : Map Plane := []
  lb : Map Plane := []
  p : Map W128 := []
  cycle : Nat := 0
  instret : Nat := 0
  fcsr : W64 := 0
  vl : Nat := 0
  ew32 : Bool := false
  lpub : Nat := 0
  deriving DecidableEq, Repr

/-- The SHA-2 unit and the AES/TDES unit of a grain (R130, R131). -/
structure Units where
  shaVariant : Nat := 0
  shaState : Nat := 0
  aesKey : Option (List Byte) := none
  tdesKey : Option (List Byte) := none
  deriving DecidableEq, Repr

/-- A grain, by its logical number (R14, R93, R117); `test` while a known-answer test runs on it, `tested` the time of the last
one (R464, R465). -/
structure Grain where
  state : GState := .unowned
  job : Option Nat := none
  prog : Option ProgHeader := none
  pm : Map W32 := []
  pc : Nat := 0
  regs : Regs := {}
  dm : Memory := []
  units : Units := {}
  micro : Micro := {}
  expander : Expander := {}
  patrol : Nat := 0
  busy : Nat := 0
  rngWait : Bool := false
  test : Bool := false
  tested : Option Nat := none
  deriving DecidableEq, Repr

/-- BED_STAT.STATE (R113). -/
inductive BState where
  | off
  | waking
  | awake
  | applying
  | entering
  | dormant
  deriving DecidableEq, Repr

/-- A bed (R113 to R117, R177) with its part of the retirement map (R15) and its positions' machine-check records. `store` is what
the control stores and dispatch tables of its positions hold (R161, R172); a word that a read finds faulty enters with
the command that meets it. -/
structure Bed where
  state : BState := .off
  epoch : Nat := 0
  applied : Bool := false
  target : Nat := 0
  wakeWanted : Bool := false
  lapsed : Bool := false
  wakes : Nat := 0
  ucode : Nat := 0
  store : List Byte := []
  reloads : Nat := 0
  shelf : Map Program := []
  retired : Nat := 0
  spareOf : Option Nat := none
  mchk : Map Nat := []
  lastMchk : Map Nat := []
  deriving DecidableEq, Repr

/-- A quadrant's clock and its reload port (R114, R115, R176, R331). -/
structure Quadrant where
  pllRun : Bool := false
  pllLocked : Bool := false
  unlocked : Bool := false
  failed : Bool := false
  reloads : List Nat := []
  reloadTry : Nat := 0
  bneRetired : Nat := 0
  bneMoved : Map Nat := []
  lastUnlock : Option Nat := none
  deriving DecidableEq, Repr

/-- The state of a big-number engine (R254); UNOWNED and CLOCK_OFF are read from the TPT and the clock. -/
inductive EState where
  | idle
  | scrub
  | held
  | running
  | stopped
  | test
  deriving DecidableEq, Repr

/-- A modulus register (R240): value, class in bits, half form, and whether the value passed its check. -/
structure Modulus where
  value : Nat := 0
  bits : Nat := 2048
  half : Bool := false
  valid : Bool := false
  deriving DecidableEq, Repr

/-- A big-number engine, by its logical number (R236, R254). -/
structure Engine where
  state : EState := .idle
  holder : Option Nat := none
  words : Map BigWord := []
  cmds : Map W64 := []
  mods : Map Modulus := []
  acc : BitVec 1024 := 0
  counters : Map (BitVec 12) := []
  status : Nat := 0
  pc : Nat := 0
  reserved : Option Nat := none
  assigned : List Nat := []
  released : List Nat := []
  secretRun : Bool := false
  progs : Nat := 0
  busy : Nat := 0
  deriving DecidableEq, Repr

end Sys2Proof.Machine
end

