-- ==== Sys2Proof/Machine/StateKeys.lean ====
section
/-!
DEFINITION. The state of the key vault, key cache, context store, key shelf and device secrets
(spec/16_key_store.md, 11_hash_and_code_schemes.md R223 to R229). The value of a field at reset is its default here.
-/
namespace Sys2Proof.Machine

/-- Slot states (R309). -/
inductive SlotState where
  | unassigned
  | empty
  | prepared
  | claimed
  | loaded
  deriving DecidableEq, Repr

/-- A stateful hash-based key (R222 to R228): NEXT of the state area, the next leaf to hand out, its total, the reservation
and hand-out interval in progress, and what remains of its tree store's restoration. -/
structure Stateful where
  next : Nat := 0
  hand : Nat := 0
  total : Nat := 0
  levels : Nat := 0
  w8 : Bool := false
  reserving : Bool := false
  interval : Bool := false
  built : Bool := true
  restoring : Nat := 0
  deriving DecidableEq, Repr

/-- A key slot (R308): `budget` of 2^40 − 1 means unlimited (R190). -/
structure Slot where
  state : SlotState := .unassigned
  secret : List Byte := []
  attr : Nat := 0
  owner : Nat := 0
  system : Bool := false
  budget : Nat := 2 ^ 40 - 1
  cache : List Byte := []
  pub : List Byte := []
  stateful : Option Stateful := none
  destroying : Bool := false
  lowering : List (Nat × Via) := []
  floorWrite : Bool := false
  uses : Nat := 0
  createSeq : Nat := 0
  deriving DecidableEq, Repr

/-- A record of the key shelf (R318). -/
structure ShelfRecord where
  owner : Nat := 0
  system : Bool := false
  attr : Nat := 0
  floor : Nat := 2 ^ 40 - 1
  secret : List Byte := []
  cache : List Byte := []
  pub : List Byte := []
  count : Nat := 0
  stateful : Option Stateful := none
  uses : Nat := 0
  createSeq : Nat := 0
  deriving DecidableEq, Repr

/-- Context states (R325 KEY_CTX). -/
inductive CtxState where
  | free
  | opened
  | busy
  deriving DecidableEq, Repr

/-- A session context (R321): the underlying operation, its parameter, prefix and the input so far. -/
structure Ctx where
  state : CtxState := .free
  migratable : Bool := false
  kind : Nat := 0
  owner : Nat := 0
  keyed : Bool := false
  slot : Nat := 0
  op : Nat := 0
  attr : Nat := 0
  param : Nat := 0
  head : List Byte := []
  data : List Byte := []
  keyGone : Bool := false
  deriving DecidableEq, Repr

/-- The device secrets and the key stores (R13, R301 to R320). -/
structure Vault where
  rootSecret : List Byte := []
  rootValid : Bool := false
  fuseSecret : List Byte := []
  slotKekValid : Bool := false
  cacheKekValid : Bool := false
  ctxKekValid : Bool := false
  slots : Map Slot := []
  ctxs : Map Ctx := []
  shelf : Map ShelfRecord := []
  shelfErased : Bool := false
  shelfLoading : Bool := false
  rootRenewed : Bool := false
  owned : Map (Nat × Bool) := []
  tgen : Map Nat := []
  deviceCert : List Byte := []
  aliasKey : Bool := false
  aliasCert : List Byte := []
  scrubSlots : Bool := false
  scrubCtxs : Bool := false
  scrubCache : Bool := false
  deriving DecidableEq, Repr

end Sys2Proof.Machine
end

