-- ==== Sys2Proof/Machine/StateHost.lean ====
section
/-!
DEFINITION. The host-facing state: registers, queue pairs, jobs, ports, functions and tenants
(spec/02_register_conventions.md, 03_queues_and_jobs.md, 04_host_ports_and_tenancy.md). The value of a field at reset is
its default here.
-/
namespace Sys2Proof.Machine

/-- An SQ register (R30): EVT, SEQ, a pending increment, and whether the 2 µs coalescing interval runs. -/
structure Sq where
  evt : BitVec 16 := 0
  seq : BitVec 16 := 0
  incPending : Bool := false
  interval : Bool := false
  deriving DecidableEq, Repr

/-- The PSTAT register of a posted block (R39) with the write it holds: offset, value, and the PF that wrote it. -/
structure Posted where
  busy : Bool := false
  writeLost : Nat := 0
  held : Option (Nat × Nat × W32) := none
  deriving DecidableEq, Repr

/-- The purpose of an arming (R36, R37): the armed register's offset and, where the request names one, its subject. -/
structure Arming where
  offset : Nat
  deriving DecidableEq, Repr

/-- The per-PF part of the global registers (R45). -/
structure GlbPf where
  ackMiss : Nat := 0
  guardResult : Nat := 0xFF
  guardOffset : Nat := 0
  arm : Option Arming := none
  deriving DecidableEq, Repr

/-- The global registers that are not per PF (R45, R46). -/
structure Glb where
  epoch : Nat := 0
  lastSettled : Bool := true
  rngReady : Bool := false
  startOk : Bool := false
  fallow : Bool := false
  locked : Bool := false
  logFull : Bool := false
  linkDown : Bool := false
  deriving DecidableEq, Repr

/-- QUE_STAT.STATE (R48). -/
inductive QState where
  | disabled
  | enabled
  | stopping
  | stopped
  | quiesced
  deriving DecidableEq, Repr

/-- A queue pair (R47 to R53, R65, R67). -/
structure Queue where
  sqb : W64 := 0
  cqb : W64 := 0
  sqLog2 : Nat := 0
  cqLog2 : Nat := 0
  weight : Nat := 1
  irqEn : Bool := false
  timeUs : Nat := 0
  count : Nat := 0
  en : Bool := false
  error : Nat := 0
  state : QState := .disabled
  sqHead : Nat := 0
  sqTail : Nat := 0
  cqTail : Nat := 0
  cqHead : Nat := 0
  phase : Bool := true
  inflight : Nat := 0
  counted : Nat := 0
  deriving DecidableEq, Repr

/-- A descriptor (R54). -/
structure Descriptor where
  opcode : Nat := 0
  flags : Nat := 0
  tag : Nat := 0
  keyForm : Nat := 0
  key2Form : Nat := 0
  keyIndex : Nat := 0
  key2Index : Nat := 0
  reserved : Nat := 0
  blobAddr : Nat := 0
  minEpoch : Nat := 0
  inSgl : Nat := 0
  outSgl : Nat := 0
  inAddr : Nat := 0
  inLen : Nat := 0
  outLen : Nat := 0
  outAddr : Nat := 0
  param : Nat := 0
  deriving DecidableEq, Repr

/-- Where a job stands on the path of R20. -/
inductive Stage where
  | admitted
  | placed
  | key
  | input
  | execute
  | output
  | ending
  deriving DecidableEq, Repr

/-- Key material as the key port delivers it: attribute word, secret, key-cache material and public key. -/
structure KeyMat where
  attr : Nat := 0
  secret : List Byte := []
  cache : List Byte := []
  pub : List Byte := []
  deriving DecidableEq, Repr

/-- A job in flight (R20): its descriptor, its stage and what it has produced. -/
structure Job where
  pair : Nat
  index : Nat
  desc : Descriptor
  tenant : Nat
  stage : Stage := .admitted
  grain : Option Nat := none
  epoch : Nat := 0
  status : Nat := 0
  outWritten : Nat := 0
  detail : Nat := 0
  cycles : Nat := 0
  out : List Byte := []
  input : List Byte := []
  delivered : Nat := 0
  pushed : Nat := 0
  streamed : Bool := false
  outList : List (Nat × Nat) := []
  retried : Bool := false
  reruns : Nat := 0
  secret : Bool := false
  charged : Bool := false
  claim : Option Nat := none
  ctx : Option Nat := none
  key1 : KeyMat := {}
  key2 : KeyMat := {}
  random : List Byte := []
  rngWait : Bool := false
  exhausted : Bool := false
  leaf : Option Nat := none
  slots : List Nat := []
  faulted : Option Nat := none
  held : Bool := false
  draw : Nat := 0
  retryBlob : Bool := false
  order2 : Bool := false
  ctxNew : Option Ctx := none
  deriving DecidableEq, Repr

/-- TDISP states of a VF (R75). -/
inductive Tdisp where
  | configUnlocked
  | configLocked
  | run
  | error
  deriving DecidableEq, Repr

/-- A function of a port: its MSI-X table and pending bits (R43, R44), VF_EPOCH, the dirty-page log (R84), TDISP (R75). -/
structure Func where
  msixTable : Map W32 := []
  msixMasked : Nat := 2 ^ 64 - 1
  msixPending : Nat := 0
  vfEpoch : Nat := 0
  dlogBase0 : W64 := 0
  dlogBase1 : W32 := 0
  dlogLimit : Nat := 0
  dlogEn : Bool := false
  dlogActive : Bool := false
  dlogOverflow : Bool := false
  dlogFlipDone : Bool := false
  dlogPages0 : Map Unit := []
  dlogPages1 : Map Unit := []
  tdisp : Tdisp := .configUnlocked
  flr : Bool := false
  d3hot : Bool := false
  grainsSeen : Nat := 0
  deriving DecidableEq, Repr

/-- A port (R69 to R72, R74, R78): its reset pin, link, SR-IOV settings, IDE streams and DMA frame. -/
structure Port where
  perstLow : Bool := false
  linkUp : Bool := false
  width : Nat := 0
  rate : Nat := 0
  pendingLink : Option (Nat × Nat) := none
  numVFs : Nat := 0
  vfEnable : Bool := false
  ideKeys : Map (Nat × Nat) := []
  slots : Map (Nat × Nat) := []
  drbgEnabled : Bool := false
  deriving DecidableEq, Repr

/-- TPT_CTL.STATE (R81). -/
inductive TState where
  | free
  | active
  | quiescing
  | quiesced
  | removing
  deriving DecidableEq, Repr


/-- A tenant: its TPT entry, with the changes that wait for a frame boundary (R80), and the
QUIESCE requests that wait for the drain (R81). -/
structure Tenant where
  state : TState := .free
  exported : Bool := false
  tpt : TptFields := {}
  later : Option TptFields := none
  slotsLive : Nat × Nat := (0, 0)
  quiescers : List Via := []
  deriving DecidableEq, Repr

end Sys2Proof.Machine
end

