-- ==== Sys2Proof/Machine/StateBoot.lean ====
section
/-!
DEFINITION. The state of supplies, clocks, resets, the boot store and the tilth record (spec/17_power_clocks_reset.md,
18_boot_and_images.md). The value of a field at reset is its default here.
-/
namespace Sys2Proof.Machine

/-- Where a full reset stands on the way to a running device (R338). -/
inductive Phase where
  /-- A subsoil supply is below its reset level, or nothing has powered up yet. -/
  | unpowered
  /-- Power-on reset is held (R327). -/
  | porHeld
  /-- SYS_RESET_N is low (R340). -/
  | pinHeld
  /-- Reset released, the subsoil PLL is locking. -/
  | pllLocking
  /-- The loam cores run immutable boot code. -/
  | booting
  /-- The boot code waits to renew the root secret (R303). -/
  | renewing
  /-- A slot has been selected and runs; its seal check has not started (R358). -/
  | chosen
  /-- The seal check runs on DS0. -/
  | sealing
  /-- The output gate is open. -/
  | gateOpen
  /-- Fallow mode (R343). -/
  | fallow
  /-- The lock service of the immutable boot code runs (R419). -/
  | lockService
  /-- The factory service of the immutable boot code runs (R400). -/
  | factory
  /-- The reporting of a scrapped device (R400). -/
  | scrapped
  deriving DecidableEq, Repr

/-- Supplies, clocks and resets (R326 to R347). Masks are in the bit order of BOOT_SUPPLY.VALID. `resetDue` is the cause of a
full reset that the current command starts when its own effects are done. -/
structure Power where
  valid : Nat := 0
  warn : Nat := 0
  vbat : Bool := true
  refclk0 : Bool := true
  refRunning : Bool := true
  holdBy : Nat := 0
  holdActive : Bool := false
  phase : Phase := .unpowered
  topsoilUp : Bool := false
  pciePermitted : Bool := false
  cause : Nat := 0
  localCause : Nat := 0
  strapRaw : Nat := 0
  strapEff : Nat := 0
  supplyH33 : Bool := false
  settleCount : Nat := 0
  glitches : Nat := 0
  pinLow : Bool := false
  rtcLost : Bool := false
  resetDue : Nat := 0
  deriving DecidableEq, Repr

/-- STATE of a control page (R355). -/
inductive PageState where
  | empty
  | writing
  | sealedPage
  | bad
  deriving DecidableEq, Repr

/-- A control page (R355). -/
structure CtrlPage where
  state : PageState := .empty
  signer : Nat := 0
  svn : Nat := 0
  sealedLen : Nat := 0
  installs : Nat := 0
  sealVal : List Byte := []
  installTime : Nat := 0
  deriving DecidableEq, Repr

/-- A slot or tilth copy of the boot store (R348): its control page and the bytes written. -/
structure Region where
  page : CtrlPage := {}
  bytes : Map Byte := []
  deriving DecidableEq, Repr

/-- The responses of one tamper source (R413, R426): MODE, and OUT, HOLD, LOCK, ZEROIZE, LOG. -/
structure TamperCfg where
  mode : Nat := 0
  bits : Nat := 0
  deriving DecidableEq, Repr, Inhabited

/-- One address rule of the sieve as its registers hold it (R386, R394). -/
structure SieveRule where
  base : Nat := 0
  len : Nat := 0
  ctl : Nat := 0
  deriving DecidableEq, Repr, Inhabited

/-- The plan of a flash channel (R380): addresses in bytes; `modes` are ranges of image blocks as (first, count, mode), with mode 0
open, 1 mirrored, 2 watched. -/
structure FlashPlan where
  size : Nat := 0
  dummy : Nat := 20
  blocks : Nat := 0
  hostBase : Nat := 0
  bases : List Nat := []
  minSvn : Nat := 0
  modes : List (Nat × Nat × Nat) := []
  winTimeout : Nat := 600
  deriving DecidableEq, Repr, Inhabited

/-- One entry of the release plan (R373): MODE, CHAN_MASK and DELAY_MS. -/
structure HoldPlan where
  mode : Nat := 1
  chans : Nat := 0
  delayMs : Nat := 0
  deriving DecidableEq, Repr, Inhabited

/-- The ring settings of the tilth record (R459, R462). -/
structure UncelCfg where
  tamperTx : Bool := false
  remoteTamper : Nat := 0
  officers : List (List Byte) := []
  approvals : Nat := 0
  ceremonyMask : Nat := 0
  timeLeader : Option Nat := none
  timeAlign : Bool := false
  slotCur : Nat := 0
  slotPrev : Nat := 0
  deriving DecidableEq, Repr, Inhabited

/-- The contents of a tilth record (R363), as its sections set them. -/
structure Tilth where
  sequence : Nat := 0
  linkCfg : Nat := 0
  vfCount : List Nat := []
  mgmtPort : Nat := 0
  tenants : List (Nat × TptFields) := []
  slots : List (Nat × Nat × Bool) := []
  digest : Map Nat := []
  bedIdleUs : Option Nat := some 1000
  keepPll : Nat := 0
  limitN : Nat := 3
  tamper : Option (Map TamperCfg) := none
  tempWindow : Option (BitVec 16 × BitVec 16) := none
  sieveOps : Option (Map W32) := none
  sieveRules : Map SieveRule := []
  sieveSection : Bool := false
  sieveEn : Nat := 0
  flash : Map FlashPlan := []
  platformKeys : List (List Byte) := []
  holds : Map HoldPlan := []
  extensions : List (Nat × Program) := []
  uncel : UncelCfg := {}
  ownerKey : List Byte := []
  deriving DecidableEq, Repr, Inhabited

/-- An open install (R367). -/
structure Install where
  target : Nat
  len : Nat
  deriving DecidableEq, Repr

/-- The boot store's state area and control pages, the OTP image keys and SVN floor, and the running image (R348 to R371) with
the topsoil microcode buffer (R173).
Region numbers: 0 slot A, 1 slot B, 2 golden, 3 and 4 the tilth copies. -/
structure Boot where
  regions : Map Region := []
  primary : Nat := 0
  failCount : Nat := 0
  limitN : Nat := 3
  tilthFloor : Nat := 0
  ownerTilth : Bool := false
  reseal : Bool := false
  svnRaise : Bool := false
  fallowWhy : Nat := 0
  keys : Map (List Byte) := []
  revoked : Nat := 0
  svnFloor : Nat := 0
  install : Option Install := none
  running : Nat := 3
  gateOpen : Bool := false
  tilthCopy : Nat := 0
  otherValid : Bool := false
  tilth : Option Tilth := none
  fwVersion : Nat := 0
  directory : List (Nat × Nat) := []
  programs : List Program := []
  ucode : List Byte := []
  ucodeVersion : Nat := 0
  ucodeBad : Bool := false
  deriving DecidableEq, Repr

end Sys2Proof.Machine
end

