-- ==== Sys2Proof/Machine/StateDigest.lean ====
section
/-!
DEFINITION. The state of a digest engine (spec/13_digest_engine.md). The value of a field at reset is its default here.
-/
namespace Sys2Proof.Machine

/-- STATE of DIG_STAT (R260); PAUSED is kept beside it. -/
inductive DigState where
  | idle
  | feed
  | armed
  | dma
  | final
  | done
  | error
  deriving DecidableEq, Repr

/-- ERROR of DIG_STAT. -/
inductive DigError where
  | none
  | sequence
  | config
  | keyAbsent
  | keyDenied
  | keyBudget
  | dmaError
  | length
  | zeroized
  | linkFault
  | reset
  deriving DecidableEq, Repr

/-- A digest engine: its state, its registers, and what DIG_CTL latched for the message. -/
structure Digest where
  state : DigState := .idle
  paused : Bool := false
  error : DigError := .none
  result : Nat := 0
  ctl : Nat := 0
  param : Nat := 0
  len : Nat := 0
  lenSet : Bool := false
  addrLo : Nat := 0
  addrHi : Nat := 0
  lcnt : Nat := 0
  dataLo : Nat := 0
  lastLo : Nat := 0
  keyReg : Map (BitVec 32) := []
  custReg : Map (BitVec 32) := []
  expectReg : Map (BitVec 32) := []
  key : List (BitVec 8) := []
  cust : List (BitVec 8) := []
  expect : List (BitVec 8) := []
  slot : Option Nat := none
  message : List (BitVec 8) := []
  out : List (BitVec 8) := []
  deriving DecidableEq, Repr

end Sys2Proof.Machine
end

