-- ==== Sys2Proof/Machine/StateLife.lean ====
section
/-!
DEFINITION. The life-cycle state (spec/20_life_cycle.md): the OTP entries, the state decided from them, the debug latch and
the requests. The value of a field at reset is its default here.
-/
namespace Sys2Proof.Machine

/-- The states of R395. -/
inductive LcState where
  | raw
  | testUnlocked
  | testLocked
  | manufactured
  | owned
  | returned
  | scrapped
  deriving DecidableEq, Repr

/-- OTP entries (R396), the state in force with its marks (R397), the latch of R399, the staged request (R403 step 1), the
request in the state area (step 2) and the factory instruction on the TAP (R400). -/
structure Life where
  entries : Map (BitVec 128) := []
  state : LcState := .raw
  wiped : Bool := false
  decideFail : Bool := false
  latch : Nat := 0
  staged : Option (List Byte) := none
  request : Option (List Byte) := none
  tapFactory : Bool := false
  tapInstruction : Option Nat := none
  deriving DecidableEq, Repr

end Sys2Proof.Machine
end

