-- ==== Sys2Proof/Machine/StateLog.lean ====
section
/-!
DEFINITION. The state of the horizon log (spec/22_attestation_and_horizon_log.md R435 to R445). The value of a field at
reset is its default here.
-/
namespace Sys2Proof.Machine

/-- An entry of the log without its SEQ, by which it is listed (R435). -/
structure LogEntry where
  time : Nat
  type : Nat
  data : List Byte
  chain : List Byte
  deriving DecidableEq, Repr

/-- The log: the ring by SEQ, the SEQ and CHAIN of the last entry, the floor (R440), the entries not written (R442), the
entries that wait for the output gate or for VDD_SM (R438, R335), the four checkpoints last issued, the wall-time offset
(R439) and HZN_WIN (R445). -/
structure Horizon where
  entries : Map LogEntry := []
  next : Nat := 0
  chain : List Byte := []
  floor : Option Nat := none
  dropped : Nat := 0
  droppedTime : Nat := 0
  waiting : List (Nat × Nat × List Byte) := []
  issued : List (Nat × List Byte) := []
  offset : W64 := 0
  win : W64 := 0
  deriving DecidableEq, Repr

end Sys2Proof.Machine
end

