-- ==== Sys2Proof/Machine/StateObs.lean ====
section
/-!
DEFINITION. The state of self-test and observation (spec/24_service_spares_observation.md) and of the I3C target (R500). The
value of a field at reset is its default here.
-/
namespace Sys2Proof.Machine

/-- The counters of a tenant (R472). -/
structure Counters where
  jobs : Nat := 0
  fails : Nat := 0
  inBytes : Nat := 0
  outBytes : Nat := 0
  cycles : Nat := 0
  stall : Nat := 0
  retried : Nat := 0
  discarded : Nat := 0
  deriving DecidableEq, Repr

/-- A known-answer test that runs on a unit, and whether it is the repeat (R464, R466). Units are grains by number, engines from
1,024 on. -/
structure Test where
  repeated : Bool := false
  deriving DecidableEq, Repr

/-- The observation block: counters by tenant, latched _HI halves by PF, tenant and counter, tests done, failed and retired,
the tests in progress, the time of each unit's last test and last failure, aging counts by monitor (4 is the subsoil's) with
those already reported, and the trace settings. -/
structure Obs where
  counters : Map Counters := []
  latched : Map Nat := []
  katRun : Nat := 0
  katFails : Nat := 0
  katRetired : Nat := 0
  tests : Map Test := []
  tested : Map Nat := []
  failedAt : Map Nat := []
  ages : Map Nat := []
  aged : Nat := 0
  trcCtl : Nat := 0
  trcDrop : Nat := 0
  deriving DecidableEq, Repr

/-- The I3C target (R500): its dynamic address, whether its events are enabled, and how many responses wait to be read. -/
structure I3c where
  addr : Option Nat := none
  events : Bool := true
  waiting : Nat := 0
  deriving DecidableEq, Repr

end Sys2Proof.Machine
end

