-- ==== Sys2Proof/Machine/StateOut.lean ====
section
/-!
DEFINITION. What the device sends out, in order: host memory writes, interrupt messages, responses and frames. The host
side of a link has no state here; an effect on it is an entry of this list.
-/
namespace Sys2Proof.Machine

/-- The SPDM errors of R427, R429 and R432, and the one of a request out of its order. -/
inductive SpdmError where
  | unsupportedRequest
  | invalidRequest
  | unexpectedRequest
  | sessionLimitExceeded
  | versionMismatch
  /-- A response that must be fetched in chunks, under this handle (R427). -/
  | largeResponse (handle : Nat)
  /-- No response can be signed: the Alias key is gone. -/
  | unspecified
  deriving DecidableEq, Repr

/-- The SPDM responses, with what the spec says they hold; their byte layout is the SPDM standard's. A hybrid signature is the
P-384 signature and the ML-DSA-87 signature of the same response (R431). -/
inductive SpdmReply where
  | error (e : SpdmError)
  | version (versions : List Nat)
  | capabilities
  | algorithms (hashSha3 measSha3 : Bool)
  | digests (chains : List (Nat × List Byte))
  | certificate (part : List Byte) (remainder : Nat)
  | challengeAuth (signature : List Byte)
  | measurements (blocks : List (Nat × List Byte)) (signature : List Byte)
  | keyExchange (session : Nat) (signature : List Byte)
  | finish
  | heartbeatAck
  | keyUpdateAck
  | endSessionAck
  | setCertificate
  | chunkSendAck (seq : Nat)
  | chunk (seq : Nat) (last : Bool) (bytes : List Byte)
  | interfaceReport (bytes : List Byte)
  | tdisp
  | ideKm
  | endpointSet (eid : Nat)
  deriving DecidableEq, Repr

/-- One effect on the world outside. Functions are (port, number): 0 is the PF, v + 1 is VF v. -/
inductive Out where
  /-- A posted write to host memory with its Relaxed Ordering and T attributes (R65, R75). -/
  | dma (port func addr : Nat) (data : List Byte) (relaxed tbit : Bool)
  /-- An MSI-X message (R44). -/
  | msix (port func vector : Nat)
  /-- Dirty-page bits of a buffer brought to host memory (R85). -/
  | dirty (port vf : Nat) (base : Nat) (pages : List Nat)
  /-- The response to a request: a status of R68 and the response's bytes. -/
  | response (via : Via) (status : Nat) (payload : List Byte)
  /-- An SPDM or MCTP response. -/
  | spdm (via : Via) (reply : SpdmReply)
  /-- A frame or a symbol run on an Uncel transmitter: pair A, or B. -/
  | uncel (b : Bool) (bytes : List Byte)
  /-- A frame whose forwarded copy ends with an abort symbol (R449). -/
  | uncelAbort (b : Bool) (bytes : List Byte)
  /-- An officer's approval, forwarded to the device whose ceremony it names (R459). -/
  | approval (target id officer : Nat) (signature : List Byte)
  /-- A vendor message of a join, to another device (R454). -/
  | join (dst : Nat) (bytes : List Byte)
  /-- Data that a host-facing flash target port answers with (R378, R388). -/
  | hostFlash (channel : Nat) (data : List Byte)
  /-- A command that the guard sends to the attached flash: its opcode, address and data (R376, R386, R391). -/
  | toFlash (channel : Nat) (opcode addr : Nat) (data : List Byte)
  /-- Bytes of a delivered host image, manifest first, that the guard writes to an image region of a flash (R391). -/
  | hostImage (channel target off : Nat) (data : List Byte)
  /-- A pulse on F_FA_RESET_N or F_FB_RESET_N (R376, R392). -/
  | flashReset (channel : Nat)
  /-- What the I3C target answers or sends in a private read (R500). -/
  | i3c (bytes : List Byte)
  /-- An in-band interrupt of the I3C target (R500). -/
  | ibi
  /-- A fallow or lock service message's answer (R369, R419). -/
  | service (via : Via) (status : Nat) (payload : List Byte)
  deriving DecidableEq, Repr

end Sys2Proof.Machine
end

