-- ==== Sys2Proof/Machine/StatePgd.lean ====
section
/-!
DEFINITION. The state of the platform guard (spec/19_platform_guard.md): channels, emulated flash settings, the measurement
table, the mirror, the sieve, holds, update windows and deliveries. The value of a field at reset is its default here.
-/
namespace Sys2Proof.Machine

/-- STATE of PGD_CHAN (R394). -/
inductive ChanState where
  | idle
  | init
  | verifying
  | serving
  | recovering
  | waiting
  deriving DecidableEq, Repr

/-- An entry of the measurement table (R384): `mode` 1 mirrored, 2 watched; `state` 0 PENDING, 1 VERIFIED, 2 MISMATCH. -/
structure MeasEntry where
  digest : List Byte := []
  block : Nat := 0
  mirror : Option Nat := none
  channel : Nat := 0
  mode : Nat := 0
  state : Nat := 0
  deriving DecidableEq, Repr

/-- An update window (R387): base and length in bytes. -/
structure Window where
  base : Nat
  len : Nat
  deriving DecidableEq, Repr

/-- A log entry of a denial or LOG action with the repeats of the current second (R388): rule, opcode, class, action. -/
structure DenyKey where
  rule : Nat
  opcode : Nat
  cls : Nat
  action : Nat
  deriving DecidableEq, Repr

/-- A flash channel (R375 to R392). `source` is the image region under preparation, `left` the sources still to try, `recovers`
whether a recovery runs; `jedec` and `sfdp` the copies served as identity; `mode`, `addr4` and `settings` the
emulated configuration, `denied` the emulated status of a denial (1 program, 2 erase); `buffers` the received bytes of
pending watched blocks, `hashing` the blocks under hash, `raw` the manifest that was verified last. -/
structure Chan where
  state : ChanState := .idle
  serving : Option Nat := none
  source : Nat := 0
  left : List Nat := []
  recovers : Bool := false
  cause : Nat := 0
  busy : Bool := false
  window : Option Window := none
  jedec : List Byte := []
  sfdp : List Byte := []
  mode : Nat := 0
  addr4 : Bool := false
  settings : Map Byte := []
  denied : Nat := 0
  manifest : List (List Byte) := []
  raw : List Byte := []
  buffers : Map (Map Byte) := []
  hashing : List (Nat × List Byte) := []
  deny : Nat := 0
  late : Nat := 0
  overrun : Nat := 0
  recent : List (DenyKey × Nat × Nat) := []
  lastOverrun : Option Nat := none
  deriving DecidableEq, Repr

/-- An open delivery of a host image (R391): what has arrived of it. -/
structure Delivery where
  channel : Nat
  target : Nat
  len : Nat
  bytes : Map Byte := []
  deriving DecidableEq, Repr

/-- The platform guard. `level` is the mask of holds that are high (asserted), `byTamper` those a tamper response keeps
asserted until the next full reset, which also ends a lock (R374, R413, R420), `autoDue` those that the release plan is still to release. -/
structure Pgd where
  chans : Map Chan := []
  table : List MeasEntry := []
  mirror : Map (List Byte) := []
  ops : Map W32 := []
  rules : Map SieveRule := []
  hits : Map Nat := []
  sieveEn : Nat := 0
  level : Nat := 0xFF
  byTamper : Nat := 0
  releasedOnce : Nat := 0
  released : Bool := false
  autoDue : Nat := 0
  tblIdx : Nat := 0
  delivery : Option Delivery := none
  deriving DecidableEq, Repr

end Sys2Proof.Machine
end

