-- ==== Sys2Proof/Machine/StateRng.lean ====
section
/-!
DEFINITION. The state of the random number generator (spec/15_random_numbers.md): noise sources, conditioner, seed queue,
port DRBGs, key-port buffers and expanders, and factory test access. The value of a field at reset is its default here.
-/
namespace Sys2Proof.Machine

/-- ROLE of RNG_SRC (R298). -/
inductive SrcRole where
  | active
  | spare
  | retired
  | warming
  deriving DecidableEq, Repr

/-- A noise source (R281 to R285): whether its divider is calibrated, a passed block that waits for its pair, the pairs
ready for the conditioner, and its failure counts. -/
structure Source where
  role : SrcRole := .spare
  calibrated : Bool := false
  half : Option (BitVec 1024) := none
  pairs : List (BitVec 2048) := []
  consec : Nat := 0
  hfail : Nat := 0
  subst : Bool := false
  lfsr : W64 := 0
  deriving DecidableEq, Repr

/-- STATE of RNG_STAT (R298). -/
inductive RngState where
  | warmup
  | ready
  | failed
  deriving DecidableEq, Repr

/-- A waiting request for seeds (R288), with the class of its consumer. -/
inductive SeedReq where
  /-- Priority 1: the expander of a grain. -/
  | grain (g : Nat)
  /-- Priority 1: the expander of a quadrant's key port. -/
  | keyPort (q : Nat)
  /-- Priority 3: the next regular reseed or the instantiation of a port's DRBG. -/
  | drbg (p : Nat)
  /-- Priority 3: a prediction-resistance reseed of a port's DRBG. -/
  | predict (p : Nat)
  /-- Priority 4: a conditioned-entropy job. -/
  | entropy (j : Nat)
  deriving DecidableEq, Repr

/-- Whose generate request it is: a job's, a key-port buffer's, or one whose output is discarded (R292, R300). -/
inductive DrbgUser where
  | job (j : Nat)
  | buffer (q : Nat)
  | discard
  deriving DecidableEq, Repr

/-- A reserved generate request. -/
structure DrbgReq where
  user : DrbgUser
  bytes : Nat
  input : List Byte := []
  predict : Bool := false
  deriving DecidableEq, Repr

/-- STATE of RNG_DRBG (R298). -/
inductive DrbgState where
  | uninstantiated
  | ready
  | waitSeed
  | failed
  deriving DecidableEq, Repr

/-- A port's CTR_DRBG (R291 to R293): Key and V, the requests done since the last reseed, the seeds held for the next one
or for a prediction-resistance reseed, a reseed in progress, the reserved requests and the reservations that wait. -/
structure Drbg where
  state : DrbgState := .uninstantiated
  key : List Byte := []
  v : List Byte := []
  count : Nat := 0
  held : List (List Byte) := []
  predictSeeds : List (List Byte) := []
  reseeding : Bool := false
  reseeds : Nat := 0
  requests : List DrbgReq := []
  waiting : List (List DrbgReq) := []
  deriving DecidableEq, Repr

/-- The random number generator; `instantiated` says that the queue has held 16 seeds, which starts the instantiation of the port
DRBGs (R291). -/
structure Rng where
  state : RngState := .warmup
  firstSeed : Bool := false
  sources : Map Source := []
  turn : Nat := 0
  queue : List (List Byte) := []
  seeds : Nat := 0
  waiting : List SeedReq := []
  drbgs : Map Drbg := []
  buffers : Map (List Byte) := []
  keyPorts : Map Expander := []
  instantiated : Bool := false
  test : W32 := 0
  testSeed : W64 := 0
  capturing : Option Nat := none
  capture : Map Byte := []
  deriving DecidableEq, Repr

end Sys2Proof.Machine
end

