-- ==== Sys2Proof/Machine/StateSpdm.lean ====
section
/-!
DEFINITION. The state of the SPDM responder and the MCTP endpoints (spec/22_attestation_and_horizon_log.md R427 to R434). The
value of a field at reset is its default here.
-/
namespace Sys2Proof.Machine

/-- A connection on one transport: how far GET_VERSION, GET_CAPABILITIES and NEGOTIATE_ALGORITHMS have come, what they
settled, a large request that arrives in chunks, and a large response that waits to be fetched. -/
structure Conn where
  phase : Nat := 0
  version : Nat := 0
  hashSha3 : Bool := false
  measSha3 : Bool := false
  sendHandle : Nat := 0
  sendNext : Nat := 0
  received : List Byte := []
  large : List Byte := []
  getHandle : Nat := 0
  getNext : Nat := 0
  deriving DecidableEq, Repr

/-- A session (R429): whether FINISH has completed it, whether mutual authentication was completed and with which chain,
whether a request has followed FINISH, the manager's mark, and the key updates done. -/
structure Session where
  transport : Transport
  established : Bool := false
  chain : Option Chain := none
  started : Bool := false
  manager : Bool := false
  updates : Nat := 0
  transcript : List Byte := []
  deriving DecidableEq, Repr

/-- The responder: connections and endpoint IDs by transport, sessions by number. -/
structure Spdm where
  conns : Map Conn := []
  endpoints : Map Nat := []
  sessions : Map Session := []
  nextSession : Nat := 0
  deriving DecidableEq, Repr

end Sys2Proof.Machine
end

