-- ==== Sys2Proof/Machine/StateTamper.lean ====
section
/-!
DEFINITION. The state of the tamper system (spec/21_tamper_and_environment.md). The value of a field at reset is its default
here. What the always-on domain, the state area and OTP hold survives resets: `latch` and the battery latch, `flag`, and the
evidence counter.
-/
namespace Sys2Proof.Machine

/-- The battery latch (R422) and its copy in TMP_BATT (R423). -/
structure BattLatch where
  sources : Nat := 0
  count : Nat := 0
  first : Nat := 0
  clockStop : Bool := false
  deriving DecidableEq, Repr

/-- The tamper system. `due` counts the evidence increments that are not yet programmed, `next` the OTP positions programmed
or tried. `abnormal` counts consecutive abnormal samples by source (readings of the sensors: 16 + i out of the window, 20 + d
the two of die d apart; clocks: 32 + c). `outFor` holds the sources that drive
TAMPER_OUT_N, and `outLock` whether it waits for the end of the lock; `battCfg` and `battWindow` are the settings as the
always-on domain knows them (R422). -/
structure Tamper where
  latch : Bool := false
  flag : Bool := false
  batt : BattLatch := {}
  transferred : BattLatch := {}
  count : Nat := 0
  next : Nat := 0
  due : Nat := 0
  live : Nat := 0
  last : Nat := 0
  abnormal : Map Nat := []
  temps : Map Nat := []
  battWindow : Option (BitVec 16 × BitVec 16) := none
  out : Bool := false
  outFor : Nat := 0
  outLock : Bool := false
  vbatLow : Bool := false
  locked : Bool := false
  unlocked : Bool := false
  battCfg : Map TamperCfg := []
  deriving DecidableEq, Repr

end Sys2Proof.Machine
end

