-- ==== Sys2Proof/Machine/StateUncel.lean ====
section
/-!
DEFINITION. The state of the Uncel chain (spec/23_uncel_chain.md): address, links, child ring, authenticated counters, epoch
reports, ceremonies and joins. The value of a field at reset is its default here.
-/
namespace Sys2Proof.Machine

/-- The token that a bridge holds: the payload of ENUMERATE and its frame's HOPS, SRC and TAG (R451). -/
structure Token where
  seg : Nat := 0
  nextPos : Nat := 0
  nextSeg : Nat := 0
  overflow : Bool := false
  segExhausted : Bool := false
  budget : Bool := false
  base : Nat := 0
  hops : Nat := 0
  src : Nat := 0
  tag : Nat := 0
  deriving DecidableEq, Repr

/-- An open ceremony (R459): its ID, the request, the officers counted, and when it was opened. -/
structure Ceremony where
  id : Nat
  request : MgrReq
  officers : List Nat := []
  opened : Nat := 0
  deriving DecidableEq, Repr

/-- A join that this device runs as a member (R454): the leader, the generation and the encapsulation key's secret. -/
structure Join where
  leader : Nat
  generation : Nat
  dk : List Byte := []
  deriving DecidableEq, Repr

/-- The Uncel chain. `gen` and `genPrev` are the generations of the secrets in the two named system slots, and survive a
reset with them; the rest is cleared by every full reset (R337). `silent` from a
lost A link until the next ENUMERATE (R452). -/
structure Uncel where
  addr : Option Nat := none
  silent : Bool := false
  lat : Nat := 0
  linkA : Bool := false
  linkB : Bool := false
  childOk : Bool := false
  childSeg : Nat := 0
  childEnd : Nat := 0
  token : Option Token := none
  authFails : Nat := 0
  crcFails : Nat := 0
  epTarget : Nat := 0
  epDone : Nat := 0
  epRefused : Nat := 0
  epochFrom : List (Nat × Nat) := []
  ceremony : Option Ceremony := none
  ceremonies : Nat := 0
  aligned : Bool := false
  lastCtr : Map Nat := []
  ctrCount : Nat := 0
  tagCount : Nat := 0
  gen : Nat := 0
  genPrev : Nat := 0
  join : Option Join := none
  deriving DecidableEq, Repr

end Sys2Proof.Machine
end

