-- ==== Sys2Proof/Machine/State.lean ====
section
/-!
DEFINITION. The whole state of the device, plain data, the reasons a step can stop, and the state right after reset.
-/
namespace Sys2Proof.Machine

/-- The device. Tables are by number: queue pair, job, port, function (port · 2,048 + number), tenant, bed, logical grain,
quadrant, logical engine. `pending` is the queue of commands that wait; `free`, `out` and `nextJob` are the model's own. -/
structure State where
  pending : List Instr
  free : Nat
  out : List Out
  nextJob : Nat
  sq : Map Sq
  glb : Glb
  glbPf : Map GlbPf
  guard : Map (Nat × W32 × Bool)
  posted : Map Posted
  queues : Map Queue
  jobs : Map Job
  ports : Map Port
  funcs : Map Func
  tenants : Map Tenant
  beds : Map Bed
  grains : Map Grain
  quads : Map Quadrant
  engines : Map Engine
  vault : Vault
  grade : Nat
  uid : Nat
  rtc : Nat
  power : Power
  boot : Boot
  hzn : Horizon
  rng : Rng
  life : Life
  uncel : Uncel
  digests : Map Digest
  spdm : Spdm
  tamper : Tamper
  tamperCfg : Map TamperCfg
  pgd : Pgd
  obs : Obs
  i3c : I3c
  deriving DecidableEq, Repr

/-- Reasons a step stops because the machine faults. No command of the device faults: what the spec calls an error is a
status, a result code or an event, and the machine goes on. -/
inductive Fault where
  /-- Raised by nothing: no command of the device faults; safe. -/
  | noFault
  deriving DecidableEq, Repr

/-- Reasons a command has no meaning. -/
inductive Refusal where
  /-- Raised by exec's arm of a command that has no meaning yet; safe, the machine stops. -/
  | notModelled (mnemonic : String)
  deriving DecidableEq, Repr

/-- The outcome of a step. -/
abbrev Result := Host.Outcome State Fault Refusal

/-- The device right after reset: every field at its reset value. -/
def State.reset : State where
  pending := []
  free := 0
  out := []
  nextJob := 0
  sq := []
  glb := {}
  glbPf := []
  guard := []
  posted := []
  queues := []
  jobs := []
  ports := []
  funcs := []
  tenants := []
  beds := []
  grains := []
  quads := []
  engines := []
  vault := {}
  grade := 0
  uid := 0
  rtc := 0
  power := {}
  boot := {}
  hzn := {}
  rng := {}
  life := {}
  uncel := {}
  digests := []
  spdm := {}
  tamper := {}
  tamperCfg := []
  pgd := {}
  obs := {}
  i3c := {}

end Sys2Proof.Machine
end

