-- ==== Sys2Proof/Machine/Status.lean ====
section
/-!
DEFINITION. The status codes of R68 and the result codes of GLB_GUARD_STAT (R45).
-/
namespace Sys2Proof.Machine.Status

def ok : Nat := 0x0000
def verifyFail : Nat := 0x0001
def opcodeUnknown : Nat := 0x0100
def opcodeDenied : Nat := 0x0101
def descFormat : Nat := 0x0102
def lengthRange : Nat := 0x0103
def sglFormat : Nat := 0x0104
def outputShort : Nat := 0x0105
def dmaError : Nat := 0x0106
def queueConfig : Nat := 0x0107
def doorbellRange : Nat := 0x0108
def keyAbsent : Nat := 0x0200
def keyDenied : Nat := 0x0201
def keyBudget : Nat := 0x0202
def keyExhausted : Nat := 0x0203
def blobInvalid : Nat := 0x0204
def contextInvalid : Nat := 0x0205
def inputInvalid : Nat := 0x0300
def noncanonical : Nat := 0x0301
def inverseNone : Nat := 0x0302
def pointInvalid : Nat := 0x0303
def deviceLocked : Nat := 0x0400
def tenantQuiesced : Nat := 0x0401
def noResource : Nat := 0x0402
def epochAhead : Nat := 0x0403
def algRevoked : Nat := 0x0404
def rngNotReady : Nat := 0x0405
def rngStarved : Nat := 0x0406
def aborted : Nat := 0x0500
def machineCheck : Nat := 0x0501
def programFault : Nat := 0x0502
def faultDetected : Nat := 0x0503
def supplyFault : Nat := 0x0504
def linkFault : Nat := 0x0505
def zeroized : Nat := 0x0506
def tenantBusy : Nat := 0x0600
def epochExhausted : Nat := 0x0601
def epochOrder : Nat := 0x0602
def revokeStrands : Nat := 0x0603
def logFull : Nat := 0x0604

end Sys2Proof.Machine.Status

namespace Sys2Proof.Machine

/-- GLB_GUARD_STAT.RESULT codes (R45). -/
inductive GuardResult where
  | applied
  | mismatch
  | intervening
  | timeout
  | unarmed
  | epochExhausted
  | epochOrder
  | tenantBusy
  | revokeStrands
  | logFull
  | inputInvalid
  deriving DecidableEq, Repr

/-- The code of a result. -/
def GuardResult.code : GuardResult → Nat
  | .applied => 0x00
  | .mismatch => 0x01
  | .intervening => 0x02
  | .timeout => 0x03
  | .unarmed => 0x04
  | .epochExhausted => 0x10
  | .epochOrder => 0x11
  | .tenantBusy => 0x12
  | .revokeStrands => 0x13
  | .logFull => 0x14
  | .inputInvalid => 0x15

/-- The status code of R68 that answers the same outcome on I3C and Uncel (R38). -/
def GuardResult.status : GuardResult → Nat
  | .applied => Status.ok
  | .epochExhausted => Status.epochExhausted
  | .epochOrder => Status.epochOrder
  | .tenantBusy => Status.tenantBusy
  | .revokeStrands => Status.revokeStrands
  | .logFull => Status.logFull
  | _ => Status.inputInvalid

end Sys2Proof.Machine
end

