-- ==== Sys2Proof/Machine/Ops.lean ====
section
/-!
DEFINITION. The named operations over the state that the commands share: one accessor and one modifier for each table,
events and interrupt messages (R30, R44), the owners of pairs, grains and engines (R15, R73, R76), writes to host memory
(R78, R85) and the horizon log (R435 to R442).
-/
namespace Sys2Proof.Machine

/-- Send something out. -/
def State.emit (s : State) (o : Out) : State := { s with out := s.out ++ [o] }

/-- Send an answer on a request's transport. On I3C it waits to be read, and an in-band interrupt announces it (R500). -/
def State.send (s : State) (v : Via) (o : Out) : State :=
  let s := s.emit o
  match v.transport with
  | .i3c =>
    let s := { s with i3c := { s.i3c with waiting := s.i3c.waiting + 1 } }
    if s.i3c.events ∧ s.i3c.addr.isSome then s.emit .ibi else s
  | _ => s

/-- Use up the current free value. -/
def State.spend (s : State) : State := { s with free := s.free + 1 }

/-- `n` free bytes of the current use. -/
def State.freeBytes (s : State) (n : Nat) : List Byte := (List.range n).map (Config.freeByte s.free)

/-- A free number below `2 ^ w` of the current use. -/
def State.freeBits (s : State) (w i : Nat) : Nat := Config.freeNat s.free i % 2 ^ w

def State.queue (s : State) (q : Nat) : Queue := s.queues.get q {}
def State.modQueue (s : State) (q : Nat) (f : Queue → Queue) : State := { s with queues := s.queues.modify q {} f }
def State.func (s : State) (k : Nat) : Func := s.funcs.get k {}
def State.modFunc (s : State) (k : Nat) (f : Func → Func) : State := { s with funcs := s.funcs.modify k {} f }
def State.port (s : State) (p : Nat) : Port := s.ports.get p {}
def State.modPort (s : State) (p : Nat) (f : Port → Port) : State := { s with ports := s.ports.modify p {} f }
def State.tenant (s : State) (t : Nat) : Tenant := s.tenants.get t {}
def State.modTenant (s : State) (t : Nat) (f : Tenant → Tenant) : State := { s with tenants := s.tenants.modify t {} f }
def State.bed (s : State) (b : Nat) : Bed := s.beds.get b {}
def State.modBed (s : State) (b : Nat) (f : Bed → Bed) : State := { s with beds := s.beds.modify b {} f }
def State.grain (s : State) (g : Nat) : Grain := s.grains.get g {}
def State.modGrain (s : State) (g : Nat) (f : Grain → Grain) : State := { s with grains := s.grains.modify g {} f }
def State.quad (s : State) (q : Nat) : Quadrant := s.quads.get q {}
def State.modQuad (s : State) (q : Nat) (f : Quadrant → Quadrant) : State := { s with quads := s.quads.modify q {} f }
def State.engine (s : State) (n : Nat) : Engine := s.engines.get n {}
def State.modEngine (s : State) (n : Nat) (f : Engine → Engine) : State := { s with engines := s.engines.modify n {} f }
def State.pf (s : State) (p : Nat) : GlbPf := s.glbPf.get p {}
def State.modPf (s : State) (p : Nat) (f : GlbPf → GlbPf) : State := { s with glbPf := s.glbPf.modify p {} f }
def State.slot (s : State) (k : Nat) : Slot := s.vault.slots.get k {}
def State.modSlot (s : State) (k : Nat) (f : Slot → Slot) : State :=
  { s with vault := { s.vault with slots := s.vault.slots.modify k {} f } }
def State.ctx (s : State) (c : Nat) : Ctx := s.vault.ctxs.get c {}
def State.modCtx (s : State) (c : Nat) (f : Ctx → Ctx) : State :=
  { s with vault := { s.vault with ctxs := s.vault.ctxs.modify c {} f } }
def State.job (s : State) (j : Nat) : Option Job := s.jobs.find? j
/-- Change a job that is in flight. -/
def State.modJob (s : State) (j : Nat) (f : Job → Job) : State :=
  match s.jobs.find? j with
  | some job => { s with jobs := s.jobs.insert j (f job) }
  | none => s

/-- The key of a function in `State.funcs`: 0 is the PF, v + 1 is VF v. -/
def fnKey (p f : Nat) : Nat := 2048 * p + f

/-- The tilth record in force, or the empty record when none has been read. -/
def State.tilth (s : State) : Tilth := s.boot.tilth.getD {}

/-- The ports of LINK_CFG (R70). -/
def State.portCount (s : State) : Nat := match s.tilth.linkCfg with | 0 => 1 | 1 => 2 | _ => 4

/-- The ports that exist. -/
def State.portList (s : State) : List Nat := List.range s.portCount

/-- VF_COUNT of a port (R45). -/
def State.vfCount (s : State) (p : Nat) : Nat := (s.tilth.vfCount[p]?).getD 0

/-- The management port (R42). -/
def State.mgmt (s : State) : Nat := s.tilth.mgmtPort

/-! Grains and engines by position (R14, R15). -/

/-- Where logical grain `i` of a bed sits: its own position, the spare, or nowhere. -/
def Bed.position (b : Bed) (i : Nat) : Option Nat :=
  if b.spareOf = some i then some 16 else if b.retired.testBit i then none else some i

/-- The logical grain at a position of a bed. -/
def Bed.logicalAt (b : Bed) (pos : Nat) : Option Nat := (List.range 16).find? fun i => b.position i = some pos

/-- A logical grain is present (R15). -/
def State.grainPresent (s : State) (g : Nat) : Bool := decide (g < 1024) && ((s.bed (g / 16)).position (g % 16)).isSome

/-- Where logical engine `k` of a quadrant sits. -/
def Quadrant.position (q : Quadrant) (k : Nat) : Option Nat :=
  match q.bneMoved.find? k with
  | some pos => if q.bneRetired.testBit pos then none else some pos
  | none => if q.bneRetired.testBit k then none else some k

/-- The logical engine at a position of a quadrant. -/
def Quadrant.logicalAt (q : Quadrant) (pos : Nat) : Option Nat :=
  (List.range 16).find? fun k => q.position k = some pos

/-- A logical engine is present (R15); one in a quadrant that failed to relock is absent (R331). -/
def State.enginePresent (s : State) (n : Nat) : Bool :=
  decide (n < 64) && ((s.quad (n / 16)).position (n % 16)).isSome && !(s.quad (n / 16)).failed

/-- GRAINS_ACTIVE of GLB_CAP0. -/
def State.grainsActive (s : State) : Nat :=
  ((List.range 1024).filter fun g => s.grainPresent g && !(s.quad (g / 256)).failed).length

/-- BNE_ACTIVE of GLB_CAP0. -/
def State.enginesActive (s : State) : Nat := ((List.range 64).filter s.enginePresent).length

/-! Tenants (R73, R76). -/

/-- A tenant's entry is in use. -/
def Tenant.live (t : Tenant) : Bool := decide (t.state ≠ .free)

/-- The numbers of the tenants whose entry is in use. -/
def State.tenantList (s : State) : List Nat := (s.tenants.filter fun (_, t) => t.live).map Prod.fst

/-- The tenant of a logical grain. -/
def State.grainTenant (s : State) (g : Nat) : Option Nat :=
  s.tenantList.find? fun t => (s.tenant t).tpt.grains.testBit g

/-- The tenant of a logical engine. -/
def State.engineTenant (s : State) (n : Nat) : Option Nat :=
  s.tenantList.find? fun t => (s.tenant t).tpt.bne.testBit n

/-- The functions a tenant owns, in the order in which they receive pairs (R73): 0 the PF, v + 1 VF v. -/
def TptFields.funcList (t : TptFields) : List Nat :=
  (if t.pfOwned then [0] else []) ++ (List.range t.vfNum).map fun i => t.vfFirst + i + 1

/-- The tenant of a function. -/
def State.funcTenant (s : State) (p f : Nat) : Option Nat :=
  s.tenantList.find? fun t => decide ((s.tenant t).tpt.port = p) && (s.tenant t).tpt.funcList.contains f

/-- QUE_OWNER of a pair (R48): its tenant, port, function and local number. -/
structure PairOwner where
  tenant : Nat
  port : Nat
  func : Nat
  local_ : Nat
  deriving DecidableEq, Repr

/-- The owner of pair `q` in one tenant's entry. -/
def TptFields.pairOwner (t : TptFields) (tn q : Nat) : Option PairOwner :=
  if t.qpPerFunc = 0 ∨ q < t.qpBase then none
  else match t.funcList[(q - t.qpBase) / t.qpPerFunc]? with
    | some f => some ⟨tn, t.port, f, (q - t.qpBase) % t.qpPerFunc⟩
    | none => none

/-- The owner of pair `q`, if it is assigned. -/
def State.pairOwner (s : State) (q : Nat) : Option PairOwner :=
  s.tenantList.findSome? fun t => (s.tenant t).tpt.pairOwner t q

/-- Pair `k` of function `f` of port `p` (R43, R73). -/
def State.pairOf (s : State) (p f k : Nat) : Option Nat :=
  match s.funcTenant p f with
  | none => none
  | some t =>
    let e := (s.tenant t).tpt
    if k < e.qpPerFunc then (e.funcList.idxOf? f).map fun i => e.qpBase + i * e.qpPerFunc + k else none

/-- The pairs of a tenant. -/
def TptFields.pairs (t : TptFields) : List Nat :=
  (List.range (t.funcList.length * t.qpPerFunc)).map fun i => t.qpBase + i

/-! Interrupt messages (R44). -/

/-- Raise a vector: its message is sent, or its pending bit is set while it is masked. -/
def State.raiseVector (s : State) (p f v : Nat) : State :=
  let fn := s.func (fnKey p f)
  if fn.msixMasked.testBit v then s.modFunc (fnKey p f) fun x => { x with msixPending := x.msixPending ||| 2 ^ v }
  else if (s.port p).perstLow then s
  else s.emit (.msix p f v)

/-- An event of an SQ register (R30): the bits are set at once, and SEQ moves at most once per interval. -/
def Sq.raise (r : Sq) (mask : Nat) : Sq :=
  let r := { r with evt := r.evt ||| BitVec.ofNat 16 mask }
  if r.interval then { r with incPending := true } else { r with seq := r.seq + 1, interval := true }

def sqKey : SqId → Nat
  | .glb p => p
  | .vf p v => 16384 + fnKey p (v + 1)
  | .grain b pos => 65536 + 32 * b + pos
  | .bne w => 131072 + w
  | .dig e => 131200 + e
  | .rng => 131300
  | .key => 131301
  | .pgd => 131302
  | .lcs => 131303
  | .tmp => 131304
  | .unc => 131305
  | .boot => 131306
  | .rst => 131307
  | .hzn => 131308
  | .obs => 131309

def State.sqReg (s : State) (r : SqId) : Sq := s.sq.get (sqKey r) {}
def State.modSq (s : State) (r : SqId) (f : Sq → Sq) : State := { s with sq := s.sq.modify (sqKey r) {} f }

/-- The block of an SQ register lies on the subsoil, behind the die link. -/
def sqSubsoil : SqId → Bool
  | .rng | .pgd | .lcs | .tmp | .unc | .boot | .rst | .hzn => true
  | .dig e => decide (16 ≤ e)
  | _ => false

/-- The functions to which a block is visible (R42, R117), as (port, function). -/
def State.seers (s : State) : SqId → List (Nat × Nat)
  | .glb p => [(p, 0)]
  | .vf p v => [(p, v + 1)]
  | .grain b pos =>
    match (s.bed b).logicalAt pos with
    | some i => (s.grainTenant (16 * b + i)).toList.map fun t => ((s.tenant t).tpt.port, 0)
    | none => []
  | .bne w =>
    match (s.quad (w / 18)).logicalAt (w % 18) with
    | some k => (s.engineTenant (16 * (w / 18) + k)).toList.map fun t => ((s.tenant t).tpt.port, 0)
    | none => []
  | .dig e => if 16 ≤ e then [(s.mgmt, 0)] else (s.tilth.digest.find? e).toList.map fun p => (p, 0)
  | .key | .lcs | .obs => s.portList.map fun p => (p, 0)
  | _ => [(s.mgmt, 0)]

/-- An event: the register's bits, and vector 0 of every function that sees the block. After a die-link integrity event a
subsoil block's event does not reach the topsoil (R12). -/
def State.event (s : State) (r : SqId) (mask : Nat) : State :=
  let s := s.modSq r fun x => x.raise mask
  if sqSubsoil r && s.glb.linkDown then s
  else (s.seers r).foldl (fun s pf => s.raiseVector pf.1 pf.2 0) s

/-- An event of GLB_EVT in every PF. -/
def State.glbEvent (s : State) (mask : Nat) : State := s.portList.foldl (fun s p => s.event (.glb p) mask) s

/-- An event of VF_EVT in every VF that a tenant owns. -/
def State.vfEventOf (s : State) (t mask : Nat) : State :=
  let e := (s.tenant t).tpt
  (List.range e.vfNum).foldl (fun s i => s.event (.vf e.port (e.vfFirst + i)) mask) s

/-- An event of VF_EVT in every VF. -/
def State.vfEvent (s : State) (mask : Nat) : State := s.tenantList.foldl (fun s t => s.vfEventOf t mask) s

/-! GLB_EVT and VF_EVT bits (R43, R45). -/

def evGuardFault : Nat := 1
def evEpochRaised : Nat := 2
def evEpochSettled : Nat := 4
def evCapacity : Nat := 8
def evTamper : Nat := 16
def evLockChanged : Nat := 32
def evLinkFault : Nat := 64
def evLogFull : Nat := 128
def vfQueueError : Nat := 1
def vfLocked : Nat := 2
def vfQuiesced : Nat := 4
def vfEpochRaised : Nat := 8
def vfCapacity : Nat := 16

/-! Host memory. -/

/-- Record the pages of a write in the active dirty-page buffer (R85). -/
def Func.logPages (fn : Func) (addr len : Nat) : Func :=
  if !fn.dlogEn ∨ len = 0 then fn
  else
    let first := addr / 4096
    let n := (addr + len - 1) / 4096 + 1 - first
    let pages := (List.range n).map fun i => first + i
    let inside := pages.filter fun p => decide (4096 * p < 2 ^ fn.dlogLimit)
    let add := fun (m : Map Unit) => inside.foldl (fun m p => m.insert p ()) m
    let fn := if inside.length < pages.length then { fn with dlogOverflow := true } else fn
    if fn.dlogActive then { fn with dlogPages1 := add fn.dlogPages1 } else { fn with dlogPages0 := add fn.dlogPages0 }

/-- A DMA write of a function (R75, R78, R85). A function under FLR or in TDISP ERROR issues none (R83). -/
def State.dmaWrite (s : State) (p f addr : Nat) (data : List Byte) (relaxed : Bool) : State :=
  let fn := s.func (fnKey p f)
  if data = [] ∨ fn.flr ∨ fn.tdisp = .error then s
  else
    let s := if f = 0 then s else s.modFunc (fnKey p f) fun x => x.logPages addr data.length
    s.emit (.dma p f addr data relaxed (decide (fn.tdisp = .run)))

/-- Data cut to a list of (address, length) entries. -/
def scatter : List (Nat × Nat) → List Byte → List (Nat × List Byte)
  | [], _ => []
  | (a, n) :: es, d => (a, d.take n) :: scatter es (d.drop n)

/-- Write data to the entries of a list in order (R57). -/
def State.dmaScatter (s : State) (p f : Nat) (es : List (Nat × Nat)) (data : List Byte) : State :=
  (scatter es data).foldl (fun s e => s.dmaWrite p f e.1 e.2 true) s

/-! The clock and the horizon log. -/

/-- The always-on clock as time passes (R439); log entry 2 of the assumption log. -/
def State.tick (s : State) : State := { s.spend with rtc := (s.rtc + Config.elapsed s.free) % 2 ^ 48 }

/-- U of R442: the entries above the floor. -/
def Horizon.unacked (h : Horizon) : Nat := match h.floor with | none => h.next | some f => h.next - 1 - f

/-- The bytes 0x00 to 0x1F of an entry (R435). -/
def entryBytes (seq time type : Nat) (data : List Byte) : List Byte :=
  leBytes 8 seq ++ leBytes 6 time ++ leBytes 2 type ++ padTo 16 data

/-- CHAIN before SEQ 0 (R436). -/
def chainStart (uid : Nat) : List Byte := sha3_256 (ascii "IXL-HZN" ++ leBytes 16 uid)

/-- Write an entry to the ring: it takes the next SEQ and extends the chain (R436, R438). -/
def Horizon.append (h : Horizon) (uid time type : Nat) (data : List Byte) : Horizon :=
  let prev := if h.next = 0 then chainStart uid else h.chain
  let chain := sha3_256 (prev ++ entryBytes h.next time type data)
  let kept := if 16384 ≤ h.next then h.entries.erase (h.next - 16384) else h.entries
  { h with
    entries := kept.insert h.next ⟨time, type, padTo 16 data, chain⟩
    next := h.next + 1
    chain := chain }

/-- MRAM writes proceed: VDD_SM is above its warning level (R335). -/
def State.mramOk (s : State) : Bool := !s.power.warn.testBit 5

/-- Append under R442, with the events of HZN_EVT and GLB_EVT. -/
def State.logWrite (s : State) (time type : Nat) (data : List Byte) : State :=
  if 16384 ≤ s.hzn.unacked then
    { s with hzn := { s.hzn with
      dropped := satAdd 0xFFFF s.hzn.dropped 1
      droppedTime := if s.hzn.dropped = 0 then time else s.hzn.droppedTime } }
  else
    let s := { s with hzn := s.hzn.append s.uid time type data }
    if s.hzn.unacked = 8192 then s.event .hzn 2
    else if s.hzn.unacked = 16128 then
      ({ s with glb := { s.glb with logFull := true } }.event .hzn 1).glbEvent evLogFull
    else s

/-- Entries can be written: the output gate is open, or a service of the immutable boot code runs, and VDD_SM is up (R335,
R362, R420). -/
def State.logOpen (s : State) : Bool :=
  (s.boot.gateOpen || decide (s.power.phase = .fallow ∨ s.power.phase = .lockService)) && s.mramOk

/-- Record an event whose TIME is given: SEQ is taken when the entry is written (R438). While the output gate is closed, or
VDD_SM is low, up to 256 entries wait. -/
def State.logAt (s : State) (time type : Nat) (data : List Byte) : State :=
  if s.logOpen then s.logWrite time type data
  else if s.hzn.waiting.length < 256 then
    { s with hzn := { s.hzn with waiting := s.hzn.waiting ++ [(time, type, data)] } }
  else { s with hzn := { s.hzn with
      dropped := satAdd 0xFFFF s.hzn.dropped 1
      droppedTime := if s.hzn.dropped = 0 then time else s.hzn.droppedTime } }

/-- Record an event in the horizon log, with TIME taken now. -/
def State.log (s : State) (type : Nat) (data : List Byte) : State :=
  let s := s.tick
  s.logAt s.rtc type data

/-- Record an event under an entry whose type and data the spec does not give (log entry 25). -/
def State.logFree (s : State) : State := s.spend.log (s.freeBits 16 0) (s.freeBytes 16)

/-- The LOST entry, when space has returned (R442). -/
def State.logLost (s : State) : State :=
  if s.hzn.dropped = 0 ∨ 16384 ≤ s.hzn.unacked then s
  else
    let n := s.hzn.dropped
    let t := s.hzn.droppedTime
    let s := { s with hzn := { s.hzn with dropped := 0, droppedTime := 0 } }
    s.logWrite s.rtc 0x7004 (leBytes 4 n ++ leBytes 6 t)

/-- Write the entries that waited, in the order they were created (R438). -/
def State.logFlush (s : State) : State :=
  let w := s.hzn.waiting
  let s := { s with hzn := { s.hzn with waiting := [] } }
  (w.foldl (fun s e => s.logWrite e.1 e.2.1 e.2.2) s).logLost

/-- The entry of type HEALTH (R437). -/
def State.logHealth (s : State) (ev unit : Nat) : State := s.log 0x6001 (leBytes 2 ev ++ leBytes 2 unit)

/-- The entry of type KEY_EVENT (R437). -/
def State.logKeyEvent (s : State) (ev slot cause : Nat) : State :=
  s.log 0x2003 (leBytes 2 ev ++ leBytes 2 slot ++ leBytes 1 cause)

end Sys2Proof.Machine
end

