-- ==== Sys2Proof/Machine/Guard.lean ====
section
/-!
DEFINITION. Register writes in common: visibility (R42), SQ acknowledges (R30, R31), guarded pairs and armings (R33 to R38),
and posted writes (R39 to R41).
-/
namespace Sys2Proof.Machine

/-- A PF's registers can be reached: the topsoil runs, the port exists and PERST_N is high (R70, R71). -/
def State.pfLive (s : State) (p : Nat) : Bool :=
  s.power.topsoilUp && decide (p < s.portCount) && !(s.port p).perstLow

/-- A requester's writes can arrive: a VF's need VF Enable and NumVFs above it (R72). -/
def State.live (s : State) : Requester → Bool
  | .pf p => s.pfLive p
  | .vf p v => s.pfLive p && (s.port p).vfEnable && decide (v < (s.port p).numVFs) && !(s.func (fnKey p (v + 1))).flr
  | .loam _ => true

/-! Posted blocks (R39). -/

/-- The key of a posted block in `State.posted`. -/
def blockKey : PostedBlock → Nat
  | .rng => 0 | .pgd => 1 | .lcs => 2 | .tmp => 3 | .unc => 4 | .boot => 5 | .hzn => 6 | .dig16 => 7 | .dig17 => 8

/-- The posted block of a PF BAR0 offset (R42). -/
def postedOf (off : Nat) : Option PostedBlock :=
  match off / 0x10000 with
  | 0x20 => some .rng
  | 0x30 => some .pgd
  | 0x31 => some .lcs
  | 0x32 => some .tmp
  | 0x33 => some .unc
  | 0x34 => some .boot
  | _ =>
    if 0x400000 ≤ off ∧ off < 0x500000 then some .hzn
    else if off / 0x1000 = 0x2810 then some .dig16
    else if off / 0x1000 = 0x2811 then some .dig17
    else none

def State.postedBlock (s : State) (b : PostedBlock) : Posted := s.posted.get (blockKey b) {}
def State.modPosted (s : State) (b : PostedBlock) (f : Posted → Posted) : State :=
  { s with posted := s.posted.modify (blockKey b) {} f }

/-- A posted block takes no write: it is busy, or the die link is down (R39, R41). A write it drops while busy is counted. -/
def State.dropPosted (s : State) (b : PostedBlock) : State × Bool :=
  if s.glb.linkDown then (s, true)
  else if (s.postedBlock b).busy then
    (s.modPosted b fun x => { x with writeLost := satAdd 0xFFFF x.writeLost 1 }, true)
  else (s, false)

/-! Guarded pairs. -/

/-- The GD registers, by PF BAR0 offset. -/
def gdEpoch : Nat := 0x100
def gdReset : Nat := 0x104
def gdRemove : Nat := 0x108
def gdSrcSel : Nat := 0x200400
def gdDestroy : Nat := 0x210100
def gdHoldRel : Nat := 0x300100
def gdSieveEn : Nat := 0x300104
def gdUpdWin : Nat := 0x300108
def gdLcsReq : Nat := 0x310100
def gdTamper (k : Nat) : Nat := 0x320100 + 4 * k
def gdRevoke : Nat := 0x340200

/-- Every GD register. -/
def gdOffsets : List Nat :=
  [gdEpoch, gdReset, gdRemove, gdSrcSel, gdDestroy, gdHoldRel, gdSieveEn, gdUpdWin, gdLcsReq, gdRevoke] ++
  (List.range 16).map gdTamper

/-- A GD register is visible to a requester: the registers of a subsoil block to the management PF (R42). -/
def State.gdVisible (s : State) (r : Requester) (off : Nat) : Bool :=
  match r with
  | .pf p => (postedOf off).isNone || decide (p = s.mgmt)
  | .vf _ _ => false
  | .loam _ => true

/-- The requesters that can form pairs (R33). -/
def reqKey : Requester → Option Nat
  | .pf p => some p
  | .loam k => some (4 + k)
  | .vf _ _ => none

/-- The requester in a GUARD_PAIR entry (R505). -/
def reqLog : Requester → Nat
  | .pf p => p
  | .loam k => 0x10 + k
  | .vf _ _ => 0xFF

/-- The entry of type GUARD_PAIR (R437). -/
def State.logPair (s : State) (off code who : Nat) : State := s.log 0x1002 (leBytes 4 off ++ leBytes 1 code ++ leBytes 1 who)

/-- The results of R34 that raise GUARD_FAULT. -/
def GuardResult.faulty : GuardResult → Bool
  | .mismatch | .intervening | .timeout | .unarmed => true
  | _ => false

/-- The first write that a requester's pair holds: offset, value, and whether the register was armed for it. -/
def State.heldPair (s : State) (r : Requester) : Option (Nat × W32 × Bool) := (reqKey r).bind s.guard.find?

/-- A pair on LCS_REQ has used the arming of a PF up without being applied: the staged request lapses with it (R36, R403). -/
def State.stageLapses (s : State) (r : Requester) (off : Nat) (res : GuardResult) : Bool :=
  match r, s.heldPair r with
  | .pf _, some (_, _, armed) => armed && decide (off = gdLcsReq) && decide (res ≠ .applied)
  | _, _ => false

/-- A pair has been judged: the first write is forgotten, a busy block is free, GLB_GUARD_STAT and the log take the result,
and a failure raises GUARD_FAULT (R34, R40, R437). -/
def State.judged (s : State) (r : Requester) (off : Nat) (res : GuardResult) : State :=
  let s := if s.stageLapses r off res then { s with life := { s.life with staged := none } } else s
  let s := match reqKey r with | some k => { s with guard := s.guard.erase k } | none => s
  let s := match postedOf off with | some b => s.modPosted b fun x => { x with busy := false } | none => s
  let s := s.logPair off res.code (reqLog r)
  match r with
  | .pf p =>
    let s := s.modPf p fun x => { x with guardResult := res.code, guardOffset := off }
    if res.faulty then s.event (.glb p) evGuardFault else s
  | _ => s

/-- A write of a requester that is not its pair's second one comes between the two (R34). -/
def State.noteWrite (s : State) (r : Requester) : State :=
  match s.heldPair r with
  | some (off, _, _) => s.judged r off .intervening
  | none => s

/-- The first write to an armed register uses the arming up (R36). -/
def State.useArming (s : State) (r : Requester) (off : Nat) : State × Bool :=
  match r with
  | .pf p =>
    if (s.pf p).arm = some ⟨off⟩ then (s.modPf p fun x => { x with arm := none }, true) else (s, false)
  | .loam _ => (s, true)
  | .vf _ _ => (s, false)

/-- GUARD_FIRST_WRITE: the value of a pair arrives (R33, R36, R40). -/
def execGuardFirstWrite (r : Requester) (off : Nat) (value : W32) (s : State) : Result :=
  .next (
    if !s.live r then s
    else
      let s := s.noteWrite r
      if !gdOffsets.contains off || !s.gdVisible r off then s
      else
        let (s, armed) := s.useArming r off
        let (s, dropped) := match postedOf off with | some b => s.dropPosted b | none => (s, false)
        if dropped then s
        else
          let s := match postedOf off with | some b => s.modPosted b fun x => { x with busy := true } | none => s
          match reqKey r with
          | some k => { s with guard := s.guard.insert k (off, value, armed) }
          | none => s)

/-- The second write of a pair arrives at `shadow`, for a register among `regs`; `apply` is what the operation does with the
value, and its refusal (R34, R442). The order of the judgements is that of the rows of R34. -/
def State.guardPair (s : State) (r : Requester) (regs : List Nat) (shadow : Nat) (complement : W32)
    (apply : Nat → W32 → State → State × GuardResult) : State :=
  if !s.live r then s
  else match s.heldPair r with
    | none => s
    | some (off, value, armed) =>
      if !regs.contains off ∨ off ^^^ 0x8000 ≠ shadow then s.judged r off .intervening
      else if complement ≠ ~~~value then s.judged r off .mismatch
      else if !armed then s.judged r off .unarmed
      else if s.glb.logFull then s.judged r off .logFull
      else
        let x := apply off value s
        x.1.judged r off x.2

/-- Privilege 0 forms a pair itself, for a request on I3C or Uncel (R38). -/
def State.loamPair (s : State) (off : Nat) (value : W32) (apply : Nat → W32 → State → State × GuardResult) :
    State × GuardResult :=
  let x := if s.glb.logFull then (s, .logFull) else apply off value s
  (x.1.logPair off x.2.code 0xFF, x.2)

/-- GUARD_PAIR_TIMEOUT: no second write came within 1 µs (R34). -/
def execGuardPairTimeout (r : Requester) (s : State) : Result :=
  .next (match s.heldPair r with
    | some (off, _, _) => s.judged r off .timeout
    | none => s)

/-- The Secure Executive arms a register for a PF; an arming it held lapses, and with that of LCS_REQ its staged request (R36,
R403). -/
def State.armFor (s : State) (p off : Nat) : State :=
  let s := if (s.pf p).arm = some ⟨gdLcsReq⟩ ∧ off ≠ gdLcsReq then { s with life := { s.life with staged := none } } else s
  s.modPf p fun x => { x with arm := some ⟨off⟩ }

/-- ARMING_LAPSE: 10 ms have passed since the arming was made (R36); a life-cycle request staged for it is discarded (R403). -/
def execArmingLapse (p : Nat) (s : State) : Result :=
  .next (
    let s := if (s.pf p).arm = some ⟨gdLcsReq⟩ then { s with life := { s.life with staged := none } } else s
    s.modPf p fun x => { x with arm := none })

/-! SQ registers. -/

/-- The register is visible to a requester for an acknowledge (R42, R43, R117). -/
def State.sqVisible (s : State) (r : Requester) (reg : SqId) : Bool :=
  match r with
  | .pf p => (s.seers reg).contains (p, 0)
  | .vf p v => decide (reg = .vf p v)
  | .loam _ => true

/-- The posted block of an SQ register. -/
def sqBlock : SqId → Option PostedBlock
  | .rng => some .rng
  | .pgd => some .pgd
  | .lcs => some .lcs
  | .tmp => some .tmp
  | .unc => some .unc
  | .boot => some .boot
  | .rst => some .boot
  | .hzn => some .hzn
  | .dig e => if e = 16 then some .dig16 else if e = 17 then some .dig17 else none
  | _ => none

/-- An acknowledge that clears nothing is counted for the PF (R31). -/
def State.ackMiss (s : State) (r : Requester) : State :=
  match r with
  | .pf p | .vf p _ => s.modPf p fun x => { x with ackMiss := satAdd 0xFFFFFFFF x.ackMiss 1 }
  | .loam _ => s

/-- The decision of R31. -/
def State.acknowledge (s : State) (r : Requester) (reg : SqId) (value : W32) : State :=
  let x := s.sqReg reg
  if x.seq = value.extractLsb' 16 16 ∧ !x.incPending then s.modSq reg fun y => { y with evt := 0 } else s.ackMiss r

/-- SQ_ACKNOWLEDGE: a write to the alias (R30, R31); a posted block that is busy drops it (R39). -/
def execSqAcknowledge (r : Requester) (reg : SqId) (value : W32) (s : State) : Result :=
  .next (
    if !s.live r then s
    else
      let s := s.noteWrite r
      if !s.sqVisible r reg then s
      else match sqBlock reg with
        | some b => match s.dropPosted b with
          | (s, true) => s
          | (s, false) => s.acknowledge r reg value
        | none => s.acknowledge r reg value)

/-- SQ_PENDING_INCREMENT: 2 µs have passed since the last increment; a pending one is applied (R30). -/
def execSqPendingIncrement (reg : SqId) (s : State) : Result :=
  .next (s.modSq reg fun x =>
    if x.incPending then { x with seq := x.seq + 1, incPending := false, interval := true } else { x with interval := false })

/-! Posted writes. -/

/-- A write reaches a posted block and is held there until it is applied (R39). -/
def State.post (s : State) (p off : Nat) (value : W32) : State :=
  match postedOf off with
  | none => s
  | some b => match s.dropPosted b with
    | (s, true) => s
    | (s, false) => s.modPosted b fun x => { x with busy := true, held := some (off, p, value) }

/-- POSTED_WRITE: a PF's write to a posted block (R39, R41). A block that is not visible ignores it (R42). -/
def execPostedWrite (p off : Nat) (value : W32) (s : State) : Result :=
  .next (
    if !s.pfLive p then s
    else
      let s := s.noteWrite (.pf p)
      if p = s.mgmt then s.post p off value else s)

end Sys2Proof.Machine
end

