-- ==== Sys2Proof/Machine/Jobs.lean ====
section
/-!
DEFINITION. How jobs end: completions (R64 to R67), the ends of the execute stage (R66, R97, R109), aborts (R110), machine
checks (R111) and the release of what a job holds (R199, R215, R238, R321).
-/
namespace Sys2Proof.Machine

/-- A pair stops with an error (R52). -/
def State.stopPair (s : State) (q code : Nat) : State :=
  let s := s.modQueue q fun x => { x with state := .stopped, error := code }
  match s.pairOwner q with
  | some o => if o.func = 0 then s.spend.event (.glb o.port) (Config.freeNat s.free 0 % 256)
              else s.event (.vf o.port (o.func - 1)) vfQueueError
  | none => s

/-- The entry of R64, without the phase taken from the queue's owner. -/
def completionBytes (qu : Queue) (o : PairOwner) (job : Job) (epoch status out : Nat) : List Byte :=
  leBytes 4 job.desc.tag ++ leBytes 2 status ++ leBytes 2 (ofBool qu.phase + 2 * ofBool job.retried) ++
  leBytes 2 qu.sqHead ++ leBytes 2 o.local_ ++ leBytes 4 epoch ++ leBytes 4 out ++ leBytes 4 job.detail ++
  leBytes 2 (job.grain.getD 0xFFFF) ++ leBytes 2 0 ++ leBytes 4 job.cycles

/-- The interrupt vector of a pair's completions (R44). -/
def completionVector (o : PairOwner) : Nat := if o.func = 0 then 1 + o.local_ else 1 + o.local_ % 7

/-- Count a completion toward a message (R67). -/
def State.countCompletion (s : State) (q : Nat) (o : PairOwner) (irq : Bool) : State :=
  let qu := s.queue q
  if !(irq && qu.irqEn) then s
  else if max 1 qu.count ≤ qu.counted + 1 ∨ qu.timeUs = 0 then
    (s.modQueue q fun x => { x with counted := 0 }).raiseVector o.port o.func (completionVector o)
  else s.modQueue q fun x => { x with counted := x.counted + 1 }

/-- Write a completion entry and move the completion tail (R65). -/
def State.writeCompletion (s : State) (o : PairOwner) (job : Job) (epoch status out : Nat) : State :=
  let qu := s.queue job.pair
  let s := s.dmaWrite o.port o.func (qu.cqb.toNat + 32 * qu.cqTail) (completionBytes qu o job epoch status out) false
  let next := (qu.cqTail + 1) % 2 ^ qu.cqLog2
  let s := s.modQueue job.pair fun x => { x with cqTail := next, phase := if next = 0 then !x.phase else x.phase }
  let s := s.modFunc (fnKey o.port o.func) fun x => { x with vfEpoch := epoch }
  s.countCompletion job.pair o (job.desc.flags.testBit 2)

/-- Give up a job's claim of a slot: the slot goes back to PREPARED (R199, R309). -/
def State.releaseClaim (s : State) (job : Job) : State :=
  match job.claim with
  | some k => s.modSlot k fun x => if x.state = .claimed then { x with state := .prepared } else x
  | none => s

/-- The context of a job that ended OK takes what the job made of it (R83, R321). -/
def State.commitCtx (s : State) (job : Job) : State :=
  match job.ctx, job.ctxNew with
  | some c, some x => s.modCtx c fun _ => x
  | _, _ => s

/-- A context whose job has ended takes further jobs. -/
def State.releaseCtx (s : State) (job : Job) : State :=
  match job.ctx with
  | some c => s.modCtx c fun x => if x.state = .busy then { x with state := .opened } else x
  | none => s

/-- The engines a job holds stop and scrub, and none counts the job any more (R238, R246, R248). During a settle hold a
stopped engine scrubs at the release (R246). -/
def State.dropEngines (s : State) (j : Nat) : State :=
  let mine := (s.engines.filter fun (_, e) => e.holder = some j).map Prod.fst
  let s := { s with engines := s.engines.mapVals fun _ e =>
    { e with
      assigned := e.assigned.erase j
      released := e.released.erase j
      reserved := if e.reserved = some j then none else e.reserved } }
  mine.foldl (fun s n =>
    let e := s.engine n
    let s := s.modEngine n fun x =>
      { x with state := if x.state = .stopped then .stopped else .scrub, holder := none }
    if e.state = .running ∨ e.state = .stopped then
      match (s.quad (n / 16)).position (n % 16) with
      | some pos => s.event (.bne (18 * (n / 16) + pos)) 1
      | none => s
    else s) s

/-! Tenant counters (R472). -/

def State.modCounters (s : State) (t : Nat) (f : Counters → Counters) : State :=
  { s with obs := { s.obs with counters := s.obs.counters.modify t {} f } }

/-- A saturating 64-bit counter. -/
def count64 (a b : Nat) : Nat := satAdd (2 ^ 64 - 1) a b

/-- The counters of a completion. The cycles stalled are timing, and free (log entry 3). -/
def State.countJob (s : State) (job : Job) (status out : Nat) : State :=
  s.spend.modCounters job.tenant fun c => { c with
    jobs := count64 c.jobs 1
    fails := count64 c.fails (ofBool (decide (status ≠ Status.ok)))
    inBytes := count64 c.inBytes job.input.length
    outBytes := count64 c.outBytes (if status = Status.ok then out else 0)
    cycles := count64 c.cycles job.cycles
    stall := count64 c.stall (if job.grain.isSome then Config.freeNat s.free 0 else 0)
    retried := count64 c.retried (ofBool job.retried)
    discarded := count64 c.discarded (ofBool (decide (status = Status.aborted))) }

/-- A job completes: it leaves the device, and its completion is written unless its function writes none. -/
def State.complete (s : State) (j : Nat) (status : Nat) (ring : Bool) : State :=
  match s.job j with
  | none => s
  | some job =>
    let s := if status = Status.ok then s else s.releaseClaim job
    let s := (if status = Status.ok then s.commitCtx job else s).releaseCtx job
    let s := { s with jobs := s.jobs.erase j }
    let s := s.modQueue job.pair fun x => { x with inflight := x.inflight - 1 }
    let epoch := if job.grain.isSome then job.epoch else s.glb.epoch
    let out := if status = Status.ok ∨ status = Status.outputShort then job.outWritten else 0
    match s.pairOwner job.pair with
    | none => s
    | some o =>
      if ring then (s.countJob job status out).writeCompletion o job epoch status out
      else s.stopPair job.pair Status.dmaError

/-- The SQ register of a logical grain. -/
def State.grainEvent (s : State) (g mask : Nat) : State :=
  match (s.bed (g / 16)).position (g % 16) with
  | some pos => s.event (.grain (g / 16) pos) mask
  | none => s

/-- The slot of a job's first key. -/
def Job.slotOf (job : Job) : Nat := job.desc.keyIndex

/-- The events of an end of the execute stage (R109, R188). -/
def State.endEvents (s : State) (g : Nat) (job : Job) (status detail : Nat) : State :=
  if status = Status.programFault then s.grainEvent g 2
  else if status = Status.faultDetected then
    (s.grainEvent g 4).logKeyEvent 2 job.slotOf (bits detail 31 24)
  else if status = Status.rngStarved then s.grainEvent g 8
  else s

/-- The output list of a job: its scatter-gather entries, or the one buffer. -/
def Job.outRanges (job : Job) : List (Nat × Nat) :=
  if job.desc.flags.testBit 1 then job.outList else [(job.desc.outAddr, job.desc.outLen)]

/-- Overwrite with zeros what a job has pushed (R66, R134). -/
def State.zeroPushed (s : State) (job : Job) : State :=
  match s.pairOwner job.pair with
  | none => s
  | some o => s.dmaScatter o.port o.func job.outRanges (List.replicate job.pushed 0#8)

/-- The execute stage of job `j` on grain `g` ends. With OK the output stage follows; with any other status the pushed output
is zeroed, the completion is written and the grain scrubs (R66, R108). -/
def State.endExecution (s : State) (j g status out detail : Nat) : State :=
  match s.job j with
  | none => s
  | some job =>
    let s := s.modJob j fun x => { x with
      status := status, outWritten := out, detail := detail % 2 ^ 32,
      cycles := min 0xFFFFFFFF (s.grain g).regs.cycle }
    let s := s.dropEngines j
    if status = Status.ok then s.modJob j fun x => { x with stage := .output }
    else
      let s := s.endEvents g job status detail
      let s := s.zeroPushed job
      let s := s.modGrain g fun x => { x with state := .scrub, job := none, rngWait := false }
      s.complete j status true

/-- The end of a job that takes no grain: its output stage follows an OK, and its completion any other status. -/
def State.endDirect (s : State) (j status : Nat) (out : List Byte) : State :=
  match s.job j with
  | none => s
  | some job =>
    if status ≠ Status.ok then s.complete j status true
    else if job.desc.outLen < out.length then
      (s.modJob j fun x => { x with outWritten := out.length }).complete j Status.outputShort true
    else s.modJob j fun x => { x with stage := .output, out := out, outWritten := out.length, rngWait := false }

/-- A job is stopped with a status that is written after its grain's scrub (R50, R12, R13): a job that is not placed
completes at once. -/
def State.abortJob (s : State) (j status : Nat) : State :=
  match s.job j with
  | none => s
  | some job =>
    match job.grain with
    | none => s.complete j status true
    | some g =>
      let s := s.releaseClaim job
      let s := s.dropEngines j
      let s := s.modGrain g fun x => { x with state := .scrub, rngWait := false }
      s.modJob j fun x => { x with
        stage := .ending, status := status, claim := none, detail := 0,
        cycles := min 0xFFFFFFFF (s.grain g).regs.cycle }

/-- A job is stopped and nothing is written (R83): the function is under reset. -/
def State.discardJob (s : State) (j : Nat) : State :=
  match s.job j with
  | none => s
  | some job =>
    let s := s.releaseClaim job
    let s := s.releaseCtx job
    let s := s.dropEngines j
    let s := match job.grain with
      | some g => s.modGrain g fun x => { x with state := .scrub, job := none, rngWait := false }
      | none => s
    let s := s.modQueue job.pair fun x => { x with inflight := x.inflight - 1 }
    let s := s.modCounters job.tenant fun c => { c with discarded := count64 c.discarded 1 }
    { s with jobs := s.jobs.erase j }

/-- A job is run again from the start (R111, R192): it waits for a grain ahead of every queued job of its pair, since it was
fetched before them. -/
def State.requeueJob (s : State) (j : Nat) (faulted : Option Nat) : State :=
  match s.job j with
  | none => s
  | some job =>
    let s := s.releaseClaim job
    let s := s.dropEngines j
    let s := match job.grain with
      | some g => s.modGrain g fun x => { x with state := .scrub, job := none, rngWait := false }
      | none => s
    s.modJob j fun x => { x with
      stage := .admitted, grain := none, retried := true, claim := none, delivered := 0, pushed := 0, streamed := false,
      out := [], input := [], outWritten := 0, detail := 0, cycles := 0, held := false, faulted := faulted }

/-- The jobs of which `f` holds, in the order in which they were fetched. -/
def State.jobsWhere (s : State) (f : Job → Bool) : List Nat := (s.jobs.filter fun (_, j) => f j).map Prod.fst

/-- RETRY_ALLOWED of the job's key, or no key (R111). -/
def State.mayRetry (s : State) (job : Job) : Bool :=
  decide (job.desc.keyForm = 0) ||
  (if job.desc.keyForm = 2 then (s.slot (s.ctx job.desc.keyIndex).slot).attr.testBit 44
   else if job.desc.keyForm = 3 then job.retryBlob
   else (s.slot job.desc.keyIndex).attr.testBit 44)

/-- A grain is retired (R15, R111, R467): its number moves to the bed's spare position, the last one, or becomes absent (R469). -/
def State.retireGrain (s : State) (g : Nat) : State :=
  let b := g / 16
  let i := g % 16
  match (s.bed b).position i with
  | none => s
  | some pos =>
    let taken := pos ≠ 16 ∧ (s.bed b).spareOf = none ∧ !(s.bed b).retired.testBit 16
    let s := s.modBed b fun x => { x with
      retired := x.retired ||| 2 ^ pos
      spareOf := if taken then some i else if pos = 16 then none else x.spareOf }
    let s := s.modGrain g fun _ => { state := if taken then .scrub else .retired }
    let s := s.event (.grain b pos) 16
    let s := s.log 0x6002 (leBytes 1 1 ++ leBytes 2 (17 * b + pos) ++ leBytes 2 (if taken then 17 * b + 16 else 0xFFFF))
    if taken then s.event .obs 4
    else
      let s := s.glbEvent evCapacity
      match s.grainTenant g with
      | some t => s.vfEventOf t vfCapacity
      | none => s

/-- 24 hours by the RTC. -/
def dayTicks : Nat := 24 * 3600 * 32768

/-- A machine check (R111): the job runs again or ends with MACHINE_CHECK, and the grain is scrubbed and its control store
reloaded, or it is retired when it had a machine check within 24 hours. -/
def State.machineCheck (s : State) (g cause : Nat) : State :=
  let b := g / 16
  let job := (s.grain g).job
  let s := match job with
    | none => s.modGrain g fun x => { x with state := .scrub }
    | some j =>
      match s.job j with
      | none => s.modGrain g fun x => { x with state := .scrub, job := none }
      | some jb =>
        if jb.stage = Stage.ending then s
        else if s.mayRetry jb then s.requeueJob j (some g)
        else s.endExecution j g Status.machineCheck 0 (cause * 2 ^ 24)
  let s := s.grainEvent g 1
  let s := s.tick
  match (s.bed b).position (g % 16) with
  | none => s
  | some pos =>
    let last := (s.bed b).lastMchk.find? pos
    let s := s.modBed b fun x => { x with
      mchk := x.mchk.insert pos (satAdd 0xFFFF (x.mchk.get pos 0) 1), lastMchk := x.lastMchk.insert pos s.rtc }
    match last with
    | some t => if s.rtc - t ≤ dayTicks then s.retireGrain g
                else s.modQuad (g / 256) fun x => { x with reloads := x.reloads ++ [g] }
    | none => s.modQuad (g / 256) fun x => { x with reloads := x.reloads ++ [g] }

end Sys2Proof.Machine
end

