-- ==== Sys2Proof/Machine/UncelOps.lean ====
section
/-!
DEFINITION. Frames of the Uncel chain: header and CRC (R447), authenticated payloads (R455), the domain keys (R453) and
sending (R446, R449, R452, R454).
-/
namespace Sys2Proof.Machine

def State.modUncel (s : State) (f : Uncel → Uncel) : State := { s with uncel := f s.uncel }

/-- The CRC-32 of IEEE 802.3, reflected, over a list of bytes. -/
def crc32 (bs : List Byte) : Nat :=
  (bs.foldl (fun (c : BitVec 32) b =>
    (List.range 8).foldl (fun c _ => if c.getLsbD 0 then (c >>> 1) ^^^ 0xEDB88320#32 else c >>> 1)
      (c ^^^ b.zeroExtend 32)) (BitVec.allOnes 32) ^^^ BitVec.allOnes 32).toNat

/-- The fields of a frame's header (R447). -/
structure Frame where
  dst : Nat
  src : Nat
  type : Nat
  hops : Nat
  tag : Nat
  payload : List Byte
  deriving DecidableEq, Repr

/-- Header and payload. -/
def Frame.body (f : Frame) : List Byte :=
  leBytes 2 f.dst ++ leBytes 2 f.src ++ leBytes 1 f.type ++ leBytes 1 f.hops ++ leBytes 2 f.payload.length ++
  leBytes 2 f.tag ++ f.payload

/-- A frame as its symbols carry it, without start and end. -/
def Frame.bytes (f : Frame) : List Byte := f.body ++ leBytes 4 (crc32 f.body)

/-- Read a frame: its CRC holds and LEN is the payload's length. -/
def parseFrame (b : List Byte) : Option Frame :=
  let n := b.length - 14
  if 14 ≤ b.length ∧ n ≤ 256 ∧ field b 6 2 = n ∧ field b (n + 10) 4 = crc32 (b.take (n + 10)) then
    some ⟨field b 0 2, field b 2 2, field b 4 1, field b 5 1, field b 8 2, slice b 10 n⟩
  else none

/-- DST bits of R447. -/
def dstMaster : Nat := 2 ^ 13
def dstSegment : Nat := 2 ^ 14
def dstDomain : Nat := 2 ^ 15

/-- The device's own address in SRC. -/
def State.ownAddr (s : State) : Nat := s.uncel.addr.getD 0x7FF

/-- A transmitter runs: the output gate is open, or the fallow or lock service has released it, and pair B belongs to a bridge
(R362, R419, R446). -/
def State.uncelOn (s : State) (b : Bool) : Bool :=
  (s.boot.gateOpen || decide (s.power.phase = .fallow ∨ s.power.phase = .lockService)) && (!b || bit s.power.strapEff 8)

/-- Transmit on a pair. -/
def State.transmit (s : State) (b : Bool) (f : Frame) : State :=
  if s.uncelOn b then s.emit (.uncel b f.bytes) else s

/-- Send a frame of this device on its own ring; a bridge sends a domain frame on its child ring too (R449). -/
def State.originate (s : State) (dst type : Nat) (payload : List Byte) : State :=
  match s.uncel.addr with
  | none => s
  | some a =>
    let f : Frame := ⟨dst, a, type, 0, s.uncel.tagCount % 65536, payload⟩
    let s := s.modUncel fun u => { u with tagCount := u.tagCount + 1 }
    let seg := dst % 2048 / 64
    let child := s.uncel.childOk && decide (s.uncel.childSeg ≤ seg ∧ seg < s.uncel.childEnd) && decide (dst < 2 ^ 13)
    let s := if child then s else s.transmit false f
    if (dst.testBit 15 && s.uncel.childOk) || child then s.transmit true f else s

/-! Authenticated payloads. -/

/-- The system slot that holds a generation's domain secret (R453). -/
def State.domainSecret (s : State) (gen : Nat) : Option (List Byte) :=
  let u := s.tilth.uncel
  let slot := if gen = 0 then none else if gen = s.uncel.gen then some u.slotCur
    else if gen = s.uncel.genPrev then some u.slotPrev else none
  match slot with
  | some k => if (s.slot k).state = .loaded ∧ (s.slot k).system then some (s.slot k).secret else none
  | none => none

/-- The frame key of a generation. -/
def State.frameKey (s : State) (gen : Nat) : Option (List Byte) :=
  (s.domainSecret gen).map fun x => Config.domainKey 1 gen x

/-- TAG of R455. -/
def frameTag (key : List Byte) (f : Frame) : List Byte :=
  let n := f.payload.length - 16
  kmac 256 16 key (f.body.take 5 ++ slice f.body 6 4 ++ f.payload.take n) (ascii "IXL-UNC")

/-- Wall time (R439), as 64 bits. -/
def State.wallTime (s : State) : Nat := (BitVec.ofNat 64 s.rtc + s.hzn.offset).toNat

/-- Send an authenticated frame with a body (R455). -/
def State.originateAuth (s : State) (dst type : Nat) (body : List Byte) : State :=
  match s.frameKey s.uncel.gen, s.uncel.addr with
  | some key, some a =>
    let s := s.tick
    let ctr := s.wallTime % 2 ^ 48 * 65536 + s.uncel.ctrCount % 65536
    let plain := leBytes 4 s.uncel.gen ++ leBytes 8 ctr ++ body
    let f : Frame := ⟨dst, a, type, 0, s.uncel.tagCount % 65536, plain ++ List.replicate 16 0#8⟩
    let s := s.modUncel fun u => { u with ctrCount := u.ctrCount + 1 }
    s.originate dst type (plain ++ frameTag key f)
  | _, _ => s

/-- EPOCH_DONE to the devices whose raise this one has settled or refused (R457). -/
def State.reportEpoch (s : State) (dst target result : Nat) : State :=
  s.originateAuth dst 0x21 (leBytes 4 target ++ leBytes 2 result)

end Sys2Proof.Machine
end

