-- ==== Sys2Proof/Machine/Beds.lean ====
section
/-!
DEFINITION. Beds and policy epochs: staging of programs (R106, R107), the raise and the roll-out (R46, R89, R457), and the
states of a bed with its quadrant's PLL (R113 to R116).
-/
namespace Sys2Proof.Machine

/-! Staging (R104 to R107). -/

/-- The header of R104, without TEXT_DIGEST. -/
def ProgHeader.bytes (h : ProgHeader) : List Byte :=
  ascii "IXGP" ++ leBytes 2 h.version ++ leBytes 2 h.flags ++ leBytes 4 h.progId ++ leBytes 2 h.textWords ++
  leBytes 2 h.entry ++ leBytes 2 h.dataOff ++ leBytes 2 h.dataLen ++ leBytes 2 h.inOff ++ leBytes 2 h.inSize ++
  leBytes 2 h.outOff ++ leBytes 2 h.outSize ++ leBytes 2 h.kbufOff ++ leBytes 2 h.kbufSize ++ leBytes 2 h.pubLregs ++
  leBytes 2 h.minMicrocode ++ leBytes 4 h.cycleBound ++ List.replicate 24 0#8

/-- The bytes that TEXT_DIGEST covers. -/
def Program.covered (p : Program) : List Byte := p.header.bytes ++ p.text.flatMap (fun w => leBytes 4 w.toNat) ++ p.data

/-- Two regions of DM overlap. -/
def overlap (a n b m : Nat) : Bool := decide (0 < n ∧ 0 < m ∧ a < b + m ∧ b < a + n)

/-- The field ranges of R104 and R105. -/
def ProgHeader.rangesOk (h : ProgHeader) : Bool :=
  decide (h.version = 1 ∧ h.flags < 64 ∧ 1 ≤ h.textWords ∧ h.textWords ≤ 8192 ∧ h.dataOff % 64 = 0 ∧ h.dataLen ≤ 16384 ∧
    1 ≤ h.cycleBound)

/-- A window lies within 0x0800 to 0xFFFF. -/
def windowOk (off n : Nat) : Bool := decide (n = 0 ∨ (0x800 ≤ off ∧ off + n ≤ 0x10000))

/-- The conditions of R106. -/
def Program.stages (p : Program) (ucode : Nat) : Bool :=
  let h := p.header
  h.rangesOk && decide (p.text.length = h.textWords ∧ p.data.length = h.dataLen ∧ p.digest = sha3_256 p.covered) &&
  windowOk h.inOff h.inSize && windowOk h.outOff h.outSize && windowOk h.kbufOff h.kbufSize &&
  !overlap h.dataOff h.dataLen h.inOff h.inSize && !overlap h.dataOff h.dataLen h.outOff h.outSize &&
  !overlap h.dataOff h.dataLen h.kbufOff h.kbufSize && !overlap h.kbufOff h.kbufSize h.inOff h.inSize &&
  !overlap h.kbufOff h.kbufSize h.outOff h.outSize && decide (h.minMicrocode ≤ ucode)

/-- The programs that the running image and the tilth record give, by their keys: PROG_ID, and 2^32 + i for extension i. -/
def State.offered (s : State) : List (Nat × Program) :=
  (s.boot.programs.map fun p => (p.header.progId, p)) ++ (s.tilth.extensions.zipIdx.map fun (e, i) => (2 ^ 32 + i, e.2))

/-- The staged programs, which a bed takes into its shelf. -/
def State.staged (s : State) : Map Program :=
  (s.offered.filter fun (_, p) => p.stages s.boot.ucodeVersion).foldl (fun m (k, p) => m.insert k p) []

/-- Every program that is not staged is logged; R106 does not say under which entry, so its content is free (log entry 25). -/
def State.logUnstaged (s : State) : State :=
  (s.offered.filter fun (_, p) => !p.stages s.boot.ucodeVersion).foldl (fun s _ => s.logFree) s

/-! Applying an epoch (R89). -/

/-- The bed has a present grain. -/
def State.bedPresent (s : State) (b : Nat) : Bool := (List.range 16).any fun i => s.grainPresent (16 * b + i)

/-- A grain of the bed runs a job. -/
def State.bedRuns (s : State) (b : Nat) : Bool := (List.range 16).any fun i => (s.grain (16 * b + i)).job.isSome

/-- The bed has not applied GLB_EPOCH. -/
def State.bedStale (s : State) (b : Nat) : Bool := !(s.bed b).applied || decide ((s.bed b).epoch ≠ s.glb.epoch)

/-- An awake bed without a running job begins to apply GLB_EPOCH. -/
def State.startApply (s : State) (b : Nat) : State :=
  if (s.bed b).state = .awake ∧ s.bedStale b ∧ !s.bedRuns b then
    s.modBed b fun x => { x with state := .applying, target := s.glb.epoch }
  else s

/-- The beds that count in GLB_EPOCH_MIN, GLB_EPOCH_MAX and the settle test. -/
def State.countedBeds (s : State) : List Nat := (List.range 64).filter fun b => s.bedPresent b && (s.bed b).applied

/-- GLB_EPOCH_MIN. -/
def State.epochMin (s : State) : Nat := (s.countedBeds.map fun b => (s.bed b).epoch).min?.getD 0
/-- GLB_EPOCH_MAX. -/
def State.epochMax (s : State) : Nat := (s.countedBeds.map fun b => (s.bed b).epoch).max?.getD 0

/-- EPOCH_SETTLED, once all counted beds have applied the raised epoch, with the reports of R457. -/
def State.settle (s : State) : State :=
  if s.glb.lastSettled ∨ !(s.countedBeds.all fun b => decide ((s.bed b).epoch = s.glb.epoch)) then s
  else
    let s := { s with glb := { s.glb with lastSettled := true } }.glbEvent evEpochSettled
    let waiting := s.uncel.epochFrom
    let s := s.modUncel fun u => { u with epochFrom := [] }
    waiting.foldl (fun s (src, target) => s.reportEpoch src target GuardResult.applied.code) s

/-- A raise of GLB_EPOCH (R46, R89): the log, the events, the wakes of Dormant beds and the first applications. -/
def State.raiseEpoch (s : State) (target : Nat) : State × GuardResult :=
  let old := s.glb.epoch
  if old = 0xFFFFFFFF then (s, .epochExhausted)
  else if target ≤ old then (s, .epochOrder)
  else
    let s := { s with glb := { s.glb with epoch := target, lastSettled := false } }
    let s := (s.log 0x1003 (leBytes 4 old ++ leBytes 4 target)).glbEvent evEpochRaised
    let s := s.vfEvent vfEpochRaised
    let s := (List.range 64).foldl (fun s b =>
      if (s.bed b).state = .dormant ∨ (s.bed b).state = .entering then
        s.modBed b fun x => { x with wakeWanted := true, lapsed := true }
      else s.startApply b) s
    (s.settle, .applied)

/-- The pair on GLB_EPOCH_RAISE. -/
def epochPair (_off : Nat) (v : W32) (s : State) : State × GuardResult := s.raiseEpoch v.toNat

/-- GLB_EPOCH_RAISE: the second write of the pair (R46). -/
def execGlbEpochRaise (r : Requester) (off : Nat) (complement : W32) (s : State) : Result :=
  .next (s.guardPair r [gdEpoch] off complement epochPair)

/-! Wake, idle and Dormant (R113 to R116). -/

/-- A grain that keeps its bed from Dormant: it holds a job or a scrub, or it is being reloaded or tested. -/
def Grain.active_ (G : Grain) : Bool :=
  G.job.isSome || G.test || decide (G.state ∈ [GState.scrub, .load, .running, .stalled, .held, .reload])

/-- The bed may enter Dormant (R114). -/
def State.maySleep (s : State) (b : Nat) : Bool :=
  decide ((s.bed b).state = .awake) && !s.bedStale b && (List.range 16).all fun i => !(s.grain (16 * b + i)).active_

/-- BED_APPLY_DONE: the bed has applied its target, its shelf holds the staged programs, and after a further raise it begins
again at once. A bed that was woken for the roll-out alone goes back to Dormant (R89, R107). -/
def execBedApplyDone (b : Nat) (s : State) : Result :=
  .next (
    let x := s.bed b
    let s := s.startApply b
    if (s.bed b).state ≠ .applying then s
    else
      let s := s.modBed b fun y => { y with state := .awake, epoch := y.target, applied := true, shelf := s.staged }
      let s := if x.applied then s.settle else s
      let s := s.startApply b
      if (s.bed b).lapsed ∧ s.maySleep b then s.modBed b fun y => { y with state := .entering, lapsed := false }
      else s.modBed b fun y => { y with lapsed := false })

/-- BED_GATE_OPEN: the power gate of a bed that is wanted opens, its wake at power-up copies the microcode buffer into its
positions (R115, R173), and a stopped quadrant PLL starts; no gate opens during a settle hold or without the topsoil (R27, R115, R116). -/
def execBedGateOpen (b : Nat) (s : State) : Result :=
  .next (
    let x := s.bed b
    let q := s.quad (b / 16)
    if !x.wakeWanted ∨ !s.power.topsoilUp ∨ s.power.holdActive ∨ q.failed ∨ (x.state ≠ .off ∧ x.state ≠ .dormant) ∨ 64 ≤ b then s
    else
      let s := s.modBed b fun y =>
        { y with
          state := .waking, wakeWanted := false, wakes := satAdd 0xFFFFFFFF y.wakes 1
          ucode := if y.state = .off then s.boot.ucodeVersion else y.ucode
          store := if y.state = .off then s.boot.ucode else y.store }
      if q.pllRun then s else s.modQuad (b / 16) fun y => { y with pllRun := true })

/-- BED_WAKE_DONE: with the quadrant PLL locked, the bed is AWAKE and applies GLB_EPOCH if it has not (R89, R115). -/
def execBedWakeDone (b : Nat) (s : State) : Result :=
  .next (
    if (s.bed b).state = .waking ∧ (s.quad (b / 16)).pllLocked then
      (s.modBed b fun y => { y with state := .awake }).startApply b
    else s)

/-- BED_IDLE_TIMEOUT: the bed has been idle for BED_IDLE_US and enters Dormant when R114 allows it. -/
def execBedIdleTimeout (b : Nat) (s : State) : Result :=
  .next (if s.tilth.bedIdleUs.isSome && s.maySleep b then s.modBed b fun y => { y with state := .entering } else s)

/-- An engine of the quadrant runs a program or a known-answer test. -/
def State.quadBusy (s : State) (q : Nat) : Bool :=
  (List.range 16).any fun k => decide ((s.engine (16 * q + k)).state = .running ∨ (s.engine (16 * q + k)).state = .test)

/-- A quadrant PLL stops under R114. -/
def State.stopPll (s : State) (q : Nat) : State :=
  if (List.range 16).all (fun i => decide ((s.bed (16 * q + i)).state = .dormant)) && !s.quadBusy q && !s.tilth.keepPll.testBit q
  then s.modQuad q fun y => { y with pllRun := false, pllLocked := false, unlocked := false }
  else s

/-- BED_DORMANT_ENTRY_DONE: the bed is DORMANT, and the quadrant PLL stops with its last bed (R114). -/
def execBedDormantEntryDone (b : Nat) (s : State) : Result :=
  .next (
    if (s.bed b).state = .entering then (s.modBed b fun y => { y with state := .dormant }).stopPll (b / 16) else s)

end Sys2Proof.Machine
end

