-- ==== Sys2Proof/Machine/Encode.lean ====
section
/-!
DEFINITION. The words of grain instructions and engine commands (R118, R119, R121 to R136, R144, R145, R151 to R159, R241,
R242): the formats, and the table of the assigned encodings with their reserved fields.
-/
namespace Sys2Proof.Machine

/-- Format A: MAJOR, DST, SRC1, SRC2, FUNC. -/
def encA (major : Nat) (dst src1 src2 : Reg) (func : Nat) : W32 :=
  BitVec.ofNat 6 major ++ dst ++ src1 ++ src2 ++ BitVec.ofNat 11 func
/-- Format I: MAJOR, DST or store data, SRC1, IMM. -/
def encI (major : Nat) (dst src1 : Reg) (imm : Half) : W32 := BitVec.ofNat 6 major ++ dst ++ src1 ++ imm
/-- Format J: MAJOR, link register, reserved, TARGET. -/
def encJ (major : Nat) (dst : Reg) (target : BitVec 13) : W32 := BitVec.ofNat 6 major ++ dst ++ (0 : BitVec 8) ++ target
/-- Format W: MAJOR, DST, OP, HW, IMM. -/
def encW (major : Nat) (dst : Reg) (op : Nat) (hw : BitVec 2) (imm : Half) : W32 :=
  BitVec.ofNat 6 major ++ dst ++ BitVec.ofNat 3 op ++ hw ++ imm
/-- The IMM field of SHI: kind in bits 9:8, W in bit 7, amount in bits 5:0 (R122). -/
def shiImm (kind : BitVec 2) (w : Bool) (amount : BitVec 6) : Half :=
  (0 : BitVec 6) ++ kind ++ BitVec.ofBool w ++ (0 : BitVec 1) ++ amount
/-- FUNC with its W bit, bit 10. -/
def funcW (w : Bool) (func : Nat) : Nat := func + if w then 0x400 else 0
/-- FUNC of a floating-point instruction: the rounding field in bits 10:8 (R127). -/
def funcFp (rm : BitVec 3) (func : Nat) : Nat := func + 256 * rm.toNat
/-- FUNC of a short-vector instruction: the width in bits 10:9 (R128). -/
def funcSv (ew : BitVec 2) (func : Nat) : Nat := func + 512 * ew.toNat
/-- FUNC of a big-number access: the operation in bits 3:0 and the index in bits 9:4 (R135). -/
def funcBn (op : Nat) (index : BitVec 6) : Nat := op + 16 * index.toNat
/-- Format LV (R144). -/
def encLV (major : Nat) (dst src1 src2 : BitVec 4) (pred : BitVec 3) (sh : BitVec 2) (func : Nat) : W32 :=
  BitVec.ofNat 6 major ++ dst ++ src1 ++ src2 ++ pred ++ sh ++ BitVec.ofNat 9 func
/-- Format LV of an instruction with two sources. -/
def encLv2 (major : Nat) (o : LvOps) (op : Nat) : W32 :=
  encLV major o.dst o.src1 o.src2 o.pred o.sh (64 * o.modulus.toNat + op)
/-- Format LV of an instruction with one source: SRC2 is reserved. -/
def encLv1 (major : Nat) (o : LvUnary) (op : Nat) : W32 :=
  encLV major o.dst o.src1 0 o.pred o.sh (64 * o.modulus.toNat + op)
/-- Format LV of an operation on predicates: PRED, SH and MOD are 0 (R159). -/
def encP (dst src1 src2 : BitVec 4) (op : Nat) : W32 := encLV 0x3F dst src1 src2 0 0 op
/-- OP of a gadget with its CHK bit (R157). -/
def opChk (chk : Option Bool) (op : Nat) : Nat := op + if chk.isSome then 0x20 else 0
/-- Format LM (R144): VLD has ST 0 and VST has ST 1. -/
def encLM (lr : BitVec 4) (xbase : Reg) (pred : BitVec 3) (sh : BitVec 2) (st : Bool) (off : BitVec 11) : W32 :=
  BitVec.ofNat 6 0x3E ++ lr ++ xbase ++ pred ++ sh ++ BitVec.ofBool st ++ off

/-- A row of the encoding table: the bits that are fixed, reserved ones among them, and their values. -/
structure EncRow where
  mask : Nat
  value : Nat
  deriving DecidableEq, Repr

/-- The row of a MAJOR whose fixed bits are all but `vary`. -/
def encRow (major vary func : Nat) : EncRow := ⟨(2 ^ 32 - 1) ^^^ vary, major * 2 ^ 26 + func⟩

/-- The bits of DST, SRC1 and SRC2 in the scalar formats. -/
def fD : Nat := 0x03E00000
def f1 : Nat := 0x001F0000
def f2 : Nat := 0x0000F800
def fImm : Nat := 0xFFFF
/-- The fields of format LV: DST, SRC1, SRC2, and PRED, SH and MOD together. -/
def lD : Nat := 0x03C00000
def l1 : Nat := 0x003C0000
def l2 : Nat := 0x0003C000
def lPSM : Nat := 0x3FC0

/-- MAJOR 0x00 (R121). -/
def rowsScalar : List EncRow :=
  ([0x000, 0x001, 0x008, 0x009, 0x00A, 0x00B, 0x00C, 0x018, 0x01C, 0x01D].map (encRow 0x00 (fD + f1 + f2 + 0x400))) ++
  ([0x002, 0x003, 0x004, 0x005, 0x010, 0x011, 0x012, 0x019, 0x01A].map (encRow 0x00 (fD + f1 + f2))) ++
  ([0x020, 0x021, 0x022, 0x023, 0x024, 0x028].map (encRow 0x00 (fD + f1)))

/-- The immediate, memory, branch, jump and control-register majors (R122 to R124, R136). -/
def rowsImmediate : List EncRow :=
  ([0x01, 0x02, 0x03, 0x04, 0x08, 0x09, 0x0A, 0x0B, 0x0C, 0x0D, 0x0E, 0x0F, 0x10, 0x11, 0x12, 0x13, 0x14, 0x15, 0x16,
    0x17, 0x18, 0x19].map fun m => encRow m (fD + f1 + fImm) 0) ++
  [encRow 0x05 (fD + f1 + 0x3BF) 0,
   encRow 0x06 (fD + 0x30000 + fImm) 0, encRow 0x06 (fD + 0x30000 + fImm) 0x40000,
   encRow 0x1A (fD + 0x1FFF) 0, encRow 0x1B 0 0, encRow 0x30 (fD + fImm) 0, encRow 0x31 (f1 + fImm) 0]

/-- MAJOR 0x20 and 0x24 (R127, R128). -/
def rowsFloatShort : List EncRow :=
  ([0x00, 0x01, 0x02, 0x03, 0x05, 0x08, 0x09, 0x10, 0x11, 0x12].map (encRow 0x20 (fD + f1 + f2 + 0x700))) ++
  ([0x04, 0x0A, 0x0B, 0x18, 0x19, 0x1A, 0x1B].map (encRow 0x20 (fD + f1 + 0x700))) ++
  ([0x00, 0x01, 0x02, 0x03, 0x04, 0x05, 0x08, 0x09, 0x0A, 0x10, 0x11, 0x12, 0x18, 0x19, 0x20, 0x29, 0x2A].map
    (encRow 0x24 (fD + f1 + f2 + 0x600))) ++
  [encRow 0x24 (fD + f1 + 0x600) 0x28]

/-- The local units, streams and big-number access (R130 to R135). -/
def rowsUnits : List EncRow :=
  [encRow 0x28 f2 0x000] ++ ([0x001, 0x002, 0x003].map (encRow 0x28 f1)) ++
  ([0x000, 0x001, 0x008, 0x009].map (encRow 0x29 (f1 + f2))) ++
  ([0x002, 0x003, 0x004, 0x005, 0x00A, 0x00B, 0x00C, 0x00D].map (encRow 0x29 (fD + f1))) ++
  [encRow 0x2A f1 0x000, encRow 0x2C fD 0x000, encRow 0x2C (fD + f1) 0x001] ++
  ([0x0, 0x1, 0x2].map (encRow 0x2D (f1 + f2 + 0x3F0))) ++
  [encRow 0x2D (f1 + f2) 0x3, encRow 0x2D (fD + f2) 0x4, encRow 0x2D f2 0x5]

/-- MAJOR 0x38 to 0x3F (R151 to R159). -/
def rowsLong : List EncRow :=
  ([0x00, 0x01, 0x04, 0x05, 0x06, 0x07, 0x08, 0x09, 0x0A, 0x10, 0x11, 0x12, 0x14].map
    (encRow 0x38 (lD + l1 + l2 + lPSM))) ++
  ([0x02, 0x03, 0x18].map (encRow 0x38 (lD + l1 + lPSM))) ++
  ([0x00, 0x01, 0x02, 0x03, 0x05, 0x08, 0x09, 0x0A].map (encRow 0x39 (lD + l1 + l2 + lPSM))) ++
  ([0x04, 0x0B].map (encRow 0x39 (lD + l1 + lPSM))) ++
  [encRow 0x3A 0x03FFFFFF 0] ++
  ([0x01, 0x02, 0x03, 0x05, 0x06, 0x08, 0x09].map (encRow 0x3B (lD + l1 + l2 + lPSM))) ++
  [encRow 0x3B (lD + l1 + lPSM) 0x00, encRow 0x3B (lD + lPSM) 0x04] ++
  ([0x01, 0x03].map (encRow 0x3C (lD + l1 + l2 + lPSM))) ++
  ([0x00, 0x02, 0x04, 0x05].map (encRow 0x3C (lD + l1 + lPSM))) ++
  ([0x00, 0x01, 0x02, 0x03, 0x07].map (encRow 0x3D (lD + l1 + lPSM + 0x20))) ++
  ([0x04, 0x05, 0x06, 0x08].map (encRow 0x3D (lD + l1 + l2 + lPSM + 0x20))) ++
  [encRow 0x3E 0x03FFFFFF 0] ++
  ([0x00, 0x01].map (encRow 0x3F (lD + l1 + lPSM))) ++
  ([0x10, 0x11, 0x12, 0x13].map (encRow 0x3F (lD + l1 + l2))) ++
  ([0x14, 0x15].map (encRow 0x3F (lD + l1)))

/-- Every assigned encoding of a grain instruction. -/
def grainRows : List EncRow := rowsScalar ++ rowsImmediate ++ rowsFloatShort ++ rowsUnits ++ rowsLong

/-- A word matches a row. -/
def EncRow.matches (r : EncRow) (w : Nat) : Bool := decide (w &&& r.mask = r.value)
/-- The word's MAJOR, FUNC or OP is assigned, and its reserved fields are 0 (R119). -/
def assignedWord (w : W32) : Bool := grainRows.any fun r => r.matches w.toNat

/-- A command entry of an engine (R241). -/
def encCmd (opc : Nat) (d a b : BitVec 6) (pset : BitVec 4) (x : Bool) (imm : W32) : W64 :=
  BitVec.ofNat 6 opc ++ d ++ a ++ b ++ pset ++ (0 : BitVec 3) ++ BitVec.ofBool x ++ imm

end Sys2Proof.Machine
end

