-- ==== Sys2Proof/Machine/Aes.lean ====
section
/-!
DEFINITION. The AES block cipher (FIPS 197), used by R131, R270 and the key machinery.
A block is 16 bytes, byte 0 first. The S-boxes are one number each, entry x in bits 8x + 7 to 8x.
-/
namespace Sys2Proof.Machine

/-- The S-box of FIPS 197. -/
def aesSboxTable : Nat :=
  0x16bb54b00f2d99416842e6bf0d89a18cdf2855cee9871e9b948ed9691198f8e19e1dc186b95735610ef6034866b53e708a8bbd4b1f74dde8c6b4a61c2e2578ba08ae7a65eaf4566ca94ed58d6d37c8e779e4959162acd3c25c2406490a3a32e0db0b5ede14b8ee4688902a22dc4f816073195d643d7ea7c41744975fec130ccdd2f3ff1021dab6bcf5389d928f40a351a89f3c507f02f94585334d43fbaaefd0cf584c4a39becb6a5bb1fc20ed00d153842fe329b3d63b52a05a6e1b1a2c830975b227ebe28012079a059618c323c7041531d871f1e5a534ccf73f362693fdb7c072a49cafa2d4adf04759fa7dc982ca76abd7fe2b670130c56f6bf27b777c63
/-- The inverse S-box of FIPS 197. -/
def aesInvSboxTable : Nat :=
  0x7d0c2155631469e126d677ba7e042b17619953833cbbebc8b0f52aae4d3be0a0ef9cc9939f7ae52d0d4ab519a97f51605fec8027591012b131c7078833a8dd1ff45acd78fec0db9a2079d2c64b3e56fc1bbe18aa0e62b76f89c5291d711af1476edf751ce837f9e28535ade72274ac9673e6b4f0cecff297eadc674f4111913a6b8a130103bdafc1020f3fca8f1e2cd00645b3b80558e4f70ad3bc8c00abd890849d8da75746155edab9edfd5048706c92b6655dcc5ca4d41698688664f6f87225d18b6d49a25b76b224d92866a12e084ec3fa420b954cee3d23c2a632947b54cbe9dec444438e3487ff2f9b8239e37cfbd7f3819ea340bf38a53630d56a0952

/-- SubBytes on one byte. -/
def aesSbox (x : Nat) : Nat := (aesSboxTable >>> (8 * x)) % 256
/-- InvSubBytes on one byte. -/
def aesInvSbox (x : Nat) : Nat := (aesInvSboxTable >>> (8 * x)) % 256

/-- Multiply by x in GF(2^8). -/
def xtime (a : Nat) : Nat := if a < 128 then 2 * a else (2 * a) ^^^ 0x11B

/-- Multiply in GF(2^8), over the given number of bits of the second factor. -/
def gmul8 : Nat → Nat → Nat → Nat
  | 0, _, _ => 0
  | k + 1, a, b => (if b % 2 = 1 then a else 0) ^^^ gmul8 k (xtime a) (b / 2)

/-- The key words (4 bytes each), newest first: how many are still to be made, and the next index. -/
def aesExpand (nk : Nat) : Nat → Nat → Nat → List (List Nat) → List (List Nat)
  | 0, _, _, ws => ws
  | n + 1, i, rcon, ws =>
    let prev := (ws[0]?).getD []
    let back := (ws[nk - 1]?).getD []
    let first := i % nk = 0
    let t :=
      if first then
        match prev with
        | [a, b, c, d] => [aesSbox b ^^^ rcon, aesSbox c, aesSbox d, aesSbox a]
        | w => w
      else if nk > 6 ∧ i % nk = 4 then prev.map aesSbox
      else prev
    aesExpand nk n (i + 1) (if first then xtime rcon else rcon) (List.zipWith (· ^^^ ·) back t :: ws)

/-- The first words of a list, 4 bytes each. -/
def groups4 : Nat → List Nat → List (List Nat)
  | 0, _ => []
  | n + 1, l => l.take 4 :: groups4 n (l.drop 4)

/-- Gather round keys of 16 bytes from words. -/
def roundKeys : Nat → List (List Nat) → List (List Nat)
  | 0, _ => []
  | n + 1, ws => (ws.take 4).flatten :: roundKeys n (ws.drop 4)

/-- Rounds for a key of `n` bytes. -/
def aesRounds (n : Nat) : Nat := n / 4 + 6

/-- The key schedule: aesRounds + 1 round keys. -/
def aesSchedule (key : List Byte) : List (List Nat) :=
  let nk := key.length / 4
  let nr := aesRounds key.length
  let ws := aesExpand nk (4 * (nr + 1) - nk) nk 1 (groups4 nk (key.map (·.toNat))).reverse
  roundKeys (nr + 1) ws.reverse

/-- ShiftRows, by byte index of the column-major state. -/
def shiftRows (s : List Nat) : List Nat := (List.range 16).map fun i => (s[(i + 4 * (i % 4)) % 16]?).getD 0
/-- InvShiftRows. -/
def invShiftRows (s : List Nat) : List Nat := (List.range 16).map fun i => (s[(i + 12 * (i % 4)) % 16]?).getD 0

/-- MixColumns with the first row of its matrix. -/
def mixColumns (col : List Nat) (s : List Nat) : List Nat :=
  (List.range 16).map fun i =>
    (List.range 4).foldl (fun acc j =>
      acc ^^^ gmul8 4 ((s[4 * (i / 4) + j]?).getD 0) ((col[(j + 4 - i % 4) % 4]?).getD 0)) 0

/-- AddRoundKey. -/
def addKey (s k : List Nat) : List Nat := List.zipWith (· ^^^ ·) s k

/-- The rounds of encryption over the round keys that remain. -/
def aesEncRounds : List Nat → List (List Nat) → List Nat
  | s, [] => s
  | s, [k] => addKey (shiftRows (s.map aesSbox)) k
  | s, k :: ks => aesEncRounds (addKey (mixColumns [2, 3, 1, 1] (shiftRows (s.map aesSbox))) k) ks

/-- The rounds of decryption over the round keys that remain, last round key first. -/
def aesDecRounds : List Nat → List (List Nat) → List Nat
  | s, [] => s
  | s, [k] => addKey ((invShiftRows s).map aesInvSbox) k
  | s, k :: ks => aesDecRounds (mixColumns [14, 11, 13, 9] (addKey ((invShiftRows s).map aesInvSbox) k)) ks

/-- Encrypt one block. -/
def aesEncrypt (key block : List Byte) : List Byte :=
  match aesSchedule key with
  | [] => block
  | k :: ks => (aesEncRounds (addKey (block.map (·.toNat)) k) ks).map (BitVec.ofNat 8)

/-- Decrypt one block. -/
def aesDecrypt (key block : List Byte) : List Byte :=
  match (aesSchedule key).reverse with
  | [] => block
  | k :: ks => (aesDecRounds (addKey (block.map (·.toNat)) k) ks).map (BitVec.ofNat 8)

end Sys2Proof.Machine
end

