-- ==== Sys2Proof/Machine/Des.lean ====
section
/-!
DEFINITION. The DES and TDES block ciphers (R131, R270, R274). A block is a 64-bit number whose first bit, bit 1 of the
standard, is the highest. Parity bits of a key are ignored (R131).
-/
namespace Sys2Proof.Machine

/-- Select bits of an `n`-bit number by the standard's bit numbers, 1 the highest. -/
def desPermute (n : Nat) (tbl : List Nat) (v : Nat) : Nat :=
  tbl.foldl (fun acc i => 2 * acc + ofBool (v.testBit (n - i))) 0

/-- The initial permutation. -/
def desIP : List Nat :=
  [58, 50, 42, 34, 26, 18, 10, 2, 60, 52, 44, 36, 28, 20, 12, 4, 62, 54, 46, 38, 30, 22, 14, 6, 64, 56, 48, 40, 32, 24,
   16, 8, 57, 49, 41, 33, 25, 17, 9, 1, 59, 51, 43, 35, 27, 19, 11, 3, 61, 53, 45, 37, 29, 21, 13, 5, 63, 55, 47, 39, 31,
   23, 15, 7]
/-- The final permutation. -/
def desFP : List Nat :=
  [40, 8, 48, 16, 56, 24, 64, 32, 39, 7, 47, 15, 55, 23, 63, 31, 38, 6, 46, 14, 54, 22, 62, 30, 37, 5, 45, 13, 53, 21, 61,
   29, 36, 4, 44, 12, 52, 20, 60, 28, 35, 3, 43, 11, 51, 19, 59, 27, 34, 2, 42, 10, 50, 18, 58, 26, 33, 1, 41, 9, 49, 17,
   57, 25]
/-- The expansion. -/
def desE : List Nat :=
  [32, 1, 2, 3, 4, 5, 4, 5, 6, 7, 8, 9, 8, 9, 10, 11, 12, 13, 12, 13, 14, 15, 16, 17, 16, 17, 18, 19, 20, 21, 20, 21, 22,
   23, 24, 25, 24, 25, 26, 27, 28, 29, 28, 29, 30, 31, 32, 1]
/-- The permutation of the round function. -/
def desP : List Nat :=
  [16, 7, 20, 21, 29, 12, 28, 17, 1, 15, 23, 26, 5, 18, 31, 10, 2, 8, 24, 14, 32, 27, 3, 9, 19, 13, 30, 6, 22, 11, 4, 25]
/-- Permuted choice 1. -/
def desPC1 : List Nat :=
  [57, 49, 41, 33, 25, 17, 9, 1, 58, 50, 42, 34, 26, 18, 10, 2, 59, 51, 43, 35, 27, 19, 11, 3, 60, 52, 44, 36, 63, 55, 47,
   39, 31, 23, 15, 7, 62, 54, 46, 38, 30, 22, 14, 6, 61, 53, 45, 37, 29, 21, 13, 5, 28, 20, 12, 4]
/-- Permuted choice 2. -/
def desPC2 : List Nat :=
  [14, 17, 11, 24, 1, 5, 3, 28, 15, 6, 21, 10, 23, 19, 12, 4, 26, 8, 16, 7, 27, 20, 13, 2, 41, 52, 31, 37, 47, 55, 30, 40,
   51, 45, 33, 48, 44, 49, 39, 56, 34, 53, 46, 42, 50, 36, 29, 32]
/-- The rotations of the key halves. -/
def desShifts : List Nat := [1, 1, 2, 2, 2, 2, 2, 2, 1, 2, 2, 2, 2, 2, 2, 1]
/-- The S-boxes, each one number with entry 16·row + column in 4 bits. -/
def desSboxes : List Nat :=
  [0xd60ae3b5719428cf05a379cfb26d8e148359bc6a1d2e47f07095c6a38bf21d4e,
   0x9e50c76b24f31a8df2396c851d4ab7e05b96a10ce82f74d3a50cd27943b6e81f,
   0xc25b3ef478960da17ea5c21b03f8946d1fbce582a643907d824b7cd15f36e90a,
   0xe27cb5498d1a60f34825e31fd7bc096a9ea1c27430f65b8df4cb5821a9603ed7,
   0x354a90f6d2e17c8be0365c9f87dab1246893af051d74c2be9e0df3586ba714c2,
   0xd80671ebaf59c2346bd1a4073c825fe983b0ed1659c724fab57e43d08629fa1c,
   0xc32ef0597a418db6295086fae73cdb4168f2c53ea1947b0d16a579c3d80fe2b4,
   0xb65309cfd8a47e12853fda602ec914b729e0b65c473a8df17c05e39a1bf6482d]

/-- The round keys from the halves, by the rotations that remain. -/
def desRoundKeys : List Nat → Nat → Nat → List Nat
  | [], _, _ => []
  | n :: ns, c, d =>
    let rot v := ((v <<< n) ||| (v >>> (28 - n))) % 2 ^ 28
    desPermute 56 desPC2 (rot c * 2 ^ 28 + rot d) :: desRoundKeys ns (rot c) (rot d)

/-- The 16 round keys of a 64-bit key. -/
def desKeys (key : Nat) : List Nat :=
  let k := desPermute 64 desPC1 key
  desRoundKeys desShifts (k / 2 ^ 28) (k % 2 ^ 28)

/-- The round function. -/
def desF (r k : Nat) : Nat :=
  let x := desPermute 32 desE r ^^^ k
  let s := (desSboxes.zipIdx).foldl (fun acc t =>
    let six := (x >>> (6 * (7 - t.2))) % 64
    let row := 2 * (six / 32) + six % 2
    let col := (six / 2) % 16
    acc * 16 + (t.1 >>> (4 * (16 * row + col))) % 16) 0
  desPermute 32 desP s

/-- One DES pass with the round keys in the order given. -/
def desPass (ks : List Nat) (block : Nat) : Nat :=
  let v := desPermute 64 desIP block
  let lr := ks.foldl (fun (p : Nat × Nat) k => (p.2, p.1 ^^^ desF p.2 k)) (v / 2 ^ 32, v % 2 ^ 32)
  desPermute 64 desFP (lr.2 * 2 ^ 32 + lr.1)

/-- DES encryption of one block. -/
def desEncryptNat (key block : Nat) : Nat := desPass (desKeys key) block
/-- DES decryption of one block. -/
def desDecryptNat (key block : Nat) : Nat := desPass (desKeys key).reverse block

/-- The three DES keys of a TDES key of 8, 16 (two-key) or 24 bytes. -/
def tdesKeys (key : List Byte) : Nat × Nat × Nat :=
  let k i := beNat (slice key (8 * i) 8)
  if key.length ≤ 8 then (k 0, k 0, k 0) else if key.length ≤ 16 then (k 0, k 1, k 0) else (k 0, k 1, k 2)

/-- TDES encryption of one 8-byte block: encrypt, decrypt, encrypt. -/
def tdesEncrypt (key block : List Byte) : List Byte :=
  let (a, b, c) := tdesKeys key
  beBytes 8 (desEncryptNat c (desDecryptNat b (desEncryptNat a (beNat block))))

/-- TDES decryption of one 8-byte block. -/
def tdesDecrypt (key block : List Byte) : List Byte :=
  let (a, b, c) := tdesKeys key
  beBytes 8 (desDecryptNat a (desEncryptNat b (desDecryptNat c (beNat block))))

end Sys2Proof.Machine
end

