-- ==== Sys2Proof/Machine/Modes.lean ====
section
/-!
DEFINITION. Block-cipher modes and key wrapping over AES and TDES (R270, R316): ECB, CBC, CFB128, OFB, CTR, GCM with a
96-bit IV, CMAC, KW, KWP, and MAC algorithm 3 of ISO 9797-1 (R277).
-/
namespace Sys2Proof.Machine

/-- A block cipher under a key: block length, encryption and decryption of a block. -/
structure Cipher where
  len : Nat
  enc : List Byte → List Byte
  dec : List Byte → List Byte

def aesCipher (key : List Byte) : Cipher := ⟨16, aesEncrypt key, aesDecrypt key⟩
def tdesCipher (key : List Byte) : Cipher := ⟨8, tdesEncrypt key, tdesDecrypt key⟩

/-- A string cut into blocks of `n` bytes, the last one short where the length says so. -/
def blocksOf (n : Nat) (m : List Byte) : List (List Byte) :=
  (List.range ((m.length + n - 1) / n)).map fun i => slice m (n * i) n

def ecb (f : List Byte → List Byte) (n : Nat) (m : List Byte) : List Byte := (blocksOf n m).flatMap f

def cbcEnc (c : Cipher) : List Byte → List (List Byte) → List Byte
  | _, [] => []
  | iv, b :: bs => let y := c.enc (xorBytes b iv); y ++ cbcEnc c y bs

def cbcDec (c : Cipher) : List Byte → List (List Byte) → List Byte
  | _, [] => []
  | iv, b :: bs => xorBytes (c.dec b) iv ++ cbcDec c b bs

def cfbEnc (c : Cipher) : List Byte → List (List Byte) → List Byte
  | _, [] => []
  | iv, b :: bs => let y := xorBytes b (c.enc iv); y ++ cfbEnc c y bs

def cfbDec (c : Cipher) : List Byte → List (List Byte) → List Byte
  | _, [] => []
  | iv, b :: bs => xorBytes b (c.enc iv) ++ cfbDec c b bs

def ofb (c : Cipher) : List Byte → List (List Byte) → List Byte
  | _, [] => []
  | iv, b :: bs => let o := c.enc iv; xorBytes b o ++ ofb c o bs

/-- CTR: the whole block counts as a big-endian integer (R270). -/
def ctr (c : Cipher) : Nat → List (List Byte) → List Byte
  | _, [] => []
  | n, b :: bs => xorBytes b (c.enc (beBytes c.len n)) ++ ctr c ((n + 1) % 2 ^ (8 * c.len)) bs

/-- Multiplication in GCM's field: bit 0 is the leftmost bit of the block. -/
def gmulGcm : Nat → Nat → Nat → Nat → Nat
  | 0, _, _, z => z
  | n + 1, x, v, z =>
    let z := if x.testBit n then z ^^^ v else z
    gmulGcm n x (if v.testBit 0 then (v >>> 1) ^^^ (0xE1 * 2 ^ 120) else v >>> 1) z

/-- GHASH over whole blocks. -/
def ghash (h : Nat) (m : List Byte) : Nat :=
  (blocksOf 16 m).foldl (fun y b => gmulGcm 128 (y ^^^ beNat (padTo 16 b)) h 0) 0

def pad16 (m : List Byte) : List Byte := m ++ List.replicate (roundUp m.length 16 - m.length) 0#8

/-- The full GCM tag. -/
def gcmTag (key iv aad ct : List Byte) : List Byte :=
  let h := beNat (aesEncrypt key (List.replicate 16 0#8))
  let s := ghash h (pad16 aad ++ pad16 ct ++ beBytes 8 (8 * aad.length) ++ beBytes 8 (8 * ct.length))
  xorBytes (beBytes 16 s) (aesEncrypt key (iv ++ beBytes 4 1))

/-- GCM's counter mode, the same in both directions. -/
def gcmCtr (key iv m : List Byte) : List Byte := ctr (aesCipher key) (beNat (iv ++ beBytes 4 2)) (blocksOf 16 m)

/-- The doubling of CMAC. -/
def cmacDouble (n v : Nat) : Nat :=
  let d := 2 * v % 2 ^ (8 * n)
  if v.testBit (8 * n - 1) then d ^^^ (if n = 16 then 0x87 else 0x1B) else d

/-- CMAC: the chaining over the message's blocks. -/
def cmacChain (c : Cipher) (k1 k2 : Nat) : List Byte → List (List Byte) → List Byte
  | _, [] => []
  | y, [b] =>
    let last := if b.length = c.len then xorBytes b (beBytes c.len k1)
      else xorBytes (padTo c.len (b ++ [0x80#8])) (beBytes c.len k2)
    c.enc (xorBytes last y)
  | y, b :: bs => cmacChain c k1 k2 (c.enc (xorBytes b y)) bs

def cmacTag (c : Cipher) (m : List Byte) : List Byte :=
  let k1 := cmacDouble c.len (beNat (c.enc (List.replicate c.len 0#8)))
  cmacChain c k1 (cmacDouble c.len k1) (List.replicate c.len 0#8) (if m = [] then [[]] else blocksOf c.len m)

/-- The wrapping function of KW and KWP over A and the semiblocks R: `6 n` steps. -/
def kwSteps (key : List Byte) (n : Nat) : Nat → Nat → List Byte → List (List Byte) → List Byte × List (List Byte)
  | 0, _, a, rs => (a, rs)
  | k + 1, t, a, rs =>
    let i := (t - 1) % n
    let b := aesEncrypt key (a ++ (rs[i]?).getD [])
    kwSteps key n k (t + 1) (xorBytes (b.take 8) (beBytes 8 t)) (rs.set i (b.drop 8))

def kwUnsteps (key : List Byte) (n : Nat) : Nat → List Byte → List (List Byte) → List Byte × List (List Byte)
  | 0, a, rs => (a, rs)
  | t + 1, a, rs =>
    let i := t % n
    let b := aesDecrypt key (xorBytes a (beBytes 8 (t + 1)) ++ (rs[i]?).getD [])
    kwUnsteps key n t (b.take 8) (rs.set i (b.drop 8))

def kwWrap (key icv p : List Byte) : List Byte :=
  let rs := blocksOf 8 p
  let r := kwSteps key rs.length (6 * rs.length) 1 icv rs
  r.1 ++ r.2.flatten

/-- The check value and the plaintext of an unwrap. -/
def kwUnwrap (key c : List Byte) : List Byte × List Byte :=
  let rs := blocksOf 8 (c.drop 8)
  let r := kwUnsteps key rs.length (6 * rs.length) (c.take 8) rs
  (r.1, r.2.flatten)

def kwIcv : List Byte := List.replicate 8 0xA6#8
def kwpIcv (n : Nat) : List Byte := [0xA6#8, 0x59#8, 0x59#8, 0xA6#8] ++ beBytes 4 n

def kwpWrap (key p : List Byte) : List Byte :=
  let padded := padTo (roundUp p.length 8) p
  if padded.length = 8 then aesEncrypt key (kwpIcv p.length ++ padded) else kwWrap key (kwpIcv p.length) padded

/-- KWP's unwrap: the plaintext, if the check value and the padding are right. -/
def kwpUnwrap (key c : List Byte) : Option (List Byte) :=
  let r := if c.length = 16 then let b := aesDecrypt key c; (b.take 8, b.drop 8) else kwUnwrap key c
  let n := beNat (r.1.drop 4)
  if r.1.take 4 = (kwpIcv 0).take 4 ∧ n ≤ r.2.length ∧ r.2.length < n + 8 ∧ (r.2.drop n).all (fun b => decide (b = 0)) then
    some (r.2.take n)
  else none

/-- MAC algorithm 3 of ISO 9797-1 over padded blocks: DES chaining under K, then decryption under K′ and encryption under K. -/
def mac3Tag (key : List Byte) (blocks : List (List Byte)) : List Byte :=
  let k := key.take 8
  let k' := slice key 8 8
  let single := fun x => tdesCipher (x ++ x ++ x)
  let y := blocks.foldl (fun y b => (single k).enc (xorBytes b y)) (List.replicate 8 0#8)
  (single k).enc ((single k').dec y)

/-- The padding methods of ISO 9797-1 (R277). -/
def mac3Pad (two : Bool) (m : List Byte) : List (List Byte) :=
  if two then
    let m' := m ++ [0x80#8]
    blocksOf 8 (padTo (roundUp m'.length 8) m')
  else blocksOf 8 (padTo (max 8 (roundUp m.length 8)) m)

end Sys2Proof.Machine
end

