-- ==== Sys2Proof/Machine/CtrDrbg.lean ====
section
/-!
DEFINITION. The CTR_DRBG of SP 800-90A with AES-256 and the derivation function (R291 to R293).
-/
namespace Sys2Proof.Machine

/-- BCC: CBC chaining with a zero start, the last block kept. -/
def drbgBcc (key : List Byte) (m : List Byte) : List Byte :=
  (blocksOf 16 m).foldl (fun y b => aesEncrypt key (xorBytes y b)) (List.replicate 16 0#8)

/-- Block_Cipher_df to 48 bytes. -/
def drbgDf (input : List Byte) : List Byte :=
  let s := beBytes 4 input.length ++ beBytes 4 48 ++ input ++ [0x80#8]
  let s := padTo (roundUp s.length 16) s
  let k := (List.range 32).map (BitVec.ofNat 8)
  let temp := (List.range 3).flatMap fun i => drbgBcc k (beBytes 4 i ++ List.replicate 12 0#8 ++ s)
  let key := temp.take 32
  let x1 := aesEncrypt key (slice temp 32 16)
  let x2 := aesEncrypt key x1
  x1 ++ x2 ++ aesEncrypt key x2

/-- `n` blocks of E(Key, V + 1), E(Key, V + 2), …, with the V that follows. -/
def drbgBlocks (key : List Byte) : Nat → Nat → List Byte × Nat
  | 0, v => ([], v)
  | n + 1, v =>
    let v' := (v + 1) % 2 ^ 128
    let r := drbgBlocks key n v'
    (aesEncrypt key (beBytes 16 v') ++ r.1, r.2)

/-- CTR_DRBG_Update. -/
def drbgUpdate (data : List Byte) (key v : List Byte) : List Byte × List Byte :=
  let t := xorBytes (drbgBlocks key 3 (beNat v)).1 data
  (t.take 32, t.drop 32)

/-- Instantiation with 64 bytes of entropy and the personalisation string. -/
def drbgInstantiate (entropy pers : List Byte) : List Byte × List Byte :=
  drbgUpdate (drbgDf (entropy ++ pers)) (List.replicate 32 0#8) (List.replicate 16 0#8)

/-- Reseeding. -/
def drbgReseed (entropy : List Byte) (kv : List Byte × List Byte) : List Byte × List Byte :=
  drbgUpdate (drbgDf entropy) kv.1 kv.2

/-- A generate request of `n` bytes with additional input: the output and the new Key and V. -/
def drbgGenerate (n : Nat) (input : List Byte) (kv : List Byte × List Byte) : List Byte × (List Byte × List Byte) :=
  let add := if input = [] then List.replicate 48 0#8 else drbgDf input
  let kv := if input = [] then kv else drbgUpdate add kv.1 kv.2
  let r := drbgBlocks kv.1 ((n + 15) / 16) (beNat kv.2)
  (r.1.take n, drbgUpdate add kv.1 (beBytes 16 r.2))

end Sys2Proof.Machine
end

