-- ==== Sys2Proof/Machine/Seeds.lean ====
section
/-!
DEFINITION. The seed queue and its arbiter (R288, R289), the port DRBGs with their reservations (R291 to R293), and the
buffers and expanders of the key ports (R290, R292).
-/
namespace Sys2Proof.Machine

def State.modRng (s : State) (f : Rng → Rng) : State := { s with rng := f s.rng }
def State.drbg (s : State) (p : Nat) : Drbg := s.rng.drbgs.get p {}
def State.modDrbg (s : State) (p : Nat) (f : Drbg → Drbg) : State :=
  s.modRng fun r => { r with drbgs := r.drbgs.modify p {} f }

/-- The personalisation string of a port's DRBG (R291). -/
def drbgPers (uid p : Nat) : List Byte := leBytes 16 uid ++ leBytes 1 p

/-- The key of a key-port buffer: its quadrant and its port (R292). -/
def bufKey (q p : Nat) : Nat := 4 * q + p

/-! Reservations (R292, R293). -/

/-- The DRBG's count after one more request, counted from the last reseed. -/
def nextCount (c : Nat) (r : DrbgReq) : Nat := if r.predict then 1 else if 65536 ≤ c then 1 else c + 1

/-- Whether a request at count `c` follows a regular reseed point. -/
def crosses (c : Nat) (r : DrbgReq) : Bool := !r.predict && decide (65536 ≤ c)

/-- The count after a list of requests, and whether a regular reseed point lies among them. -/
def countAfter : Nat → List DrbgReq → Nat × Bool
  | c, [] => (c, false)
  | c, r :: rs => let x := countAfter (nextCount c r) rs; (x.1, crosses c r || x.2)

/-- A reservation is accepted when its range holds no reseed point or the seeds for that reseed are held; one reseed that is
already due takes the held seeds first (R292). -/
def Drbg.accepts (d : Drbg) (rs : List DrbgReq) : Bool :=
  let ahead := countAfter d.count d.requests
  !(countAfter ahead.1 rs).2 || (!ahead.2 && decide (2 ≤ d.held.length))

/-- Accept waiting reservations in order; the first that must wait holds back those behind it. -/
def Drbg.acceptAll : Nat → Drbg → Drbg
  | 0, d => d
  | n + 1, d =>
    match d.waiting with
    | [] => d
    | rs :: rest =>
      if d.accepts rs then Drbg.acceptAll n { d with requests := d.requests ++ rs, waiting := rest } else d

/-- A reservation reaches the DRBG. -/
def Drbg.reserve (d : Drbg) (rs : List DrbgReq) : Drbg :=
  let d := { d with waiting := d.waiting ++ [rs] }
  d.acceptAll d.waiting.length

/-- The DRBG moves to its reseed point when it stands at one and the seeds are at hand (R289, R292, R293). -/
def Drbg.advance (d : Drbg) : Drbg :=
  if d.reseeding then d
  else match d.requests with
    | r :: _ =>
      if r.predict then (if 2 ≤ d.predictSeeds.length then { d with reseeding := true } else d)
      else if 65536 ≤ d.count then
        (if 2 ≤ d.held.length then { d with reseeding := true, state := .ready } else { d with state := .waitSeed })
      else d
    | [] =>
      if 65536 ≤ d.count then
        (if 2 ≤ d.held.length then { d with reseeding := true, state := .ready } else { d with state := .waitSeed })
      else d

/-- The reseed ends: COUNT becomes 0 (R292, R293). -/
def Drbg.reseed (d : Drbg) : Drbg :=
  let regular := match d.requests with | r :: _ => !r.predict | [] => true
  let seeds := if regular then d.held else d.predictSeeds
  let kv := drbgReseed (seeds.take 2).flatten (d.key, d.v)
  let d := { d with
    key := kv.1, v := kv.2, count := 0, reseeds := satAdd 0xFFFFFFFF d.reseeds 1, reseeding := false, state := .ready }
  let d := if regular then { d with held := [] }
    else { d with
      predictSeeds := d.predictSeeds.drop 2
      requests := match d.requests with | r :: rs => { r with predict := false } :: rs | [] => [] }
  d.acceptAll d.waiting.length

/-! The arbiter. -/

/-- The class of a consumer (R288). -/
def SeedReq.cls : SeedReq → Nat
  | .grain _ | .keyPort _ => 1
  | .drbg _ | .predict _ => 3
  | .entropy _ => 4

/-- The reserve of a class (R288). -/
def reserveOf (c : Nat) : Nat := match c with | 3 => 8 | 4 => 32 | _ => 1

/-- The seeds a request takes together. -/
def SeedReq.seeds : SeedReq → Nat
  | .drbg _ | .predict _ => 2
  | _ => 1

/-- The oldest request of the highest class (R289). -/
def firstRequest (w : List SeedReq) : Option SeedReq :=
  match w.find? fun r => decide (r.cls = 1) with
  | some r => some r
  | none => match w.find? fun r => decide (r.cls = 3) with
    | some r => some r
    | none => w.head?

/-- The words one seed covers. -/
def expanderSpan : Nat := 524288
/-- GRN_EXP.COUNT: requests since the last reseed. -/
def Expander.count (e : Expander) : Nat := (e.delivered + 127) / 128
/-- Deliver `n` words: the early seed request is made at request 3,584, the seed is absorbed when the last word of request
4,096 has been delivered, and past that word a seed must be at hand (R102, R103). -/
def Expander.draw (e : Expander) (n : Nat) : Option Expander :=
  if expanderSpan ≤ e.delivered + n ∧ e.seedHeld then some { delivered := e.delivered + n - expanderSpan }
  else if e.delivered + n ≤ expanderSpan then
    let x := { e with delivered := e.delivered + n }
    some (if 3584 ≤ x.count ∧ !e.seedHeld then { x with pending := true } else x)
  else none

/-- An expander absorbs the seed in hand at its reseed point (R102). -/
def Expander.arrive (e : Expander) : Expander :=
  if expanderSpan ≤ e.delivered then {} else { e with pending := false, coming := false, seedHeld := true }

/-- A conditioned-entropy job takes a seed; with the last one its output stands. -/
def State.gather (s : State) (j : Nat) (seed : List Byte) : State :=
  match s.job j with
  | none => s
  | some job =>
    let out := job.out ++ seed
    if job.desc.outLen ≤ out.length then s.endDirect j Status.ok (out.take job.desc.outLen)
    else (s.modJob j fun x => { x with out := out }).modRng fun r => { r with waiting := r.waiting ++ [.entropy j] }

/-- Deliver seeds to a request. -/
def State.deliverSeeds (s : State) (r : SeedReq) (seeds : List (List Byte)) : State :=
  match r with
  | .grain g => s.modGrain g fun G => { G with expander := { G.expander with coming := true } }
  | .keyPort q => s.modRng fun x => { x with keyPorts := x.keyPorts.modify q {} Expander.arrive }
  | .drbg p => s.modDrbg p fun d => let d := { d with held := seeds }; (d.acceptAll d.waiting.length).advance
  | .predict p => s.modDrbg p fun d => { d with predictSeeds := d.predictSeeds ++ seeds }.advance
  | .entropy j => s.gather j seeds.flatten

/-- The requests the arbiter sees: not those of a job that has ended, and after a die-link integrity event none whose seed
would cross to the topsoil (R300). -/
def State.liveRequests (s : State) : List SeedReq :=
  s.rng.waiting.filter fun r =>
    (match r with | .entropy j => (s.job j).isSome | _ => true) && (!s.glb.linkDown || decide (r.cls = 3))

/-- Serve waiting requests by priority while the reserves are met (R289). -/
def State.arbitrate : Nat → State → State
  | 0, s => s
  | n + 1, s =>
    match firstRequest s.liveRequests with
    | none => s
    | some r =>
      let depth := s.rng.queue.length
      if s.rng.state ≠ .ready ∨ depth < max (reserveOf r.cls) r.seeds then s
      else
        let seeds := s.rng.queue.take r.seeds
        State.arbitrate n ((s.modRng fun x => { x with
          queue := x.queue.drop r.seeds, waiting := x.waiting.erase r }).deliverSeeds r seeds)

/-- The arbiter acts whenever a seed or a request arrives. -/
def State.serve (s : State) : State := State.arbitrate (s.rng.waiting.length + s.rng.queue.length) s

/-- A request for seeds arrives. -/
def State.requestSeed (s : State) (r : SeedReq) : State :=
  if s.rng.waiting.contains r then s else (s.modRng fun x => { x with waiting := x.waiting ++ [r] }).serve

/-- A seed for the Secure Executive, taken at priority 2 (R288): the next seed of the queue, or a later one, which is free
here, when the queue is empty (log entry 20). -/
def State.takeSeed (s : State) : State × List Byte :=
  match s.rng.queue with
  | x :: rest => (s.modRng fun r => { r with queue := rest }, x)
  | [] => (s.spend, s.freeBytes 32)

/-- The early request of a grain's expander (R102). -/
def State.askForGrain (s : State) (g : Nat) : State :=
  let e := (s.grain g).expander
  if e.pending && !e.coming && !s.rng.waiting.contains (.grain g) then s.requestSeed (.grain g) else s

/-! DRBG requests. -/

/-- Requests reach a port's DRBG. -/
def State.reserveDrbg (s : State) (p : Nat) (rs : List DrbgReq) : State :=
  s.modDrbg p fun d => (d.reserve rs).advance

/-- The regular early request at COUNT 65,024 (R292). -/
def State.askForDrbg (s : State) (p : Nat) : State :=
  let d := s.drbg p
  if 65024 ≤ d.count ∧ d.held = [] ∧ d.state ≠ .uninstantiated ∧ d.state ≠ .failed then s.requestSeed (.drbg p) else s

/-- What a job of a port takes from its quadrant's buffer: the bytes, or a refill has been asked for (R292). -/
inductive Drawn where
  | bytes (b : List Byte)
  | wait
  | notReady

/-- The random inputs of a job at the key stage (R202, R292): a shortfall hands out what remains with the next refill, so
the buffer is left as it is until the refill joins it. -/
def State.drawPort (s : State) (q p n : Nat) : State × Drawn :=
  let d := s.drbg p
  let b := s.rng.buffers.get (bufKey q p) []
  if n = 0 then (s, .bytes [])
  else if s.rng.state ≠ .ready ∨ d.state = .uninstantiated ∨ d.state = .failed then (s, .notReady)
  else if n ≤ b.length then
    (s.modRng fun x => { x with buffers := x.buffers.set (bufKey q p) (b.drop n) [] }, .bytes (b.take n))
  else
    let asked := (d.requests.any fun r => decide (r.user = .buffer q)) ||
      d.waiting.any fun w => w.any fun r => decide (r.user = .buffer q)
    (if asked then s else s.reserveDrbg p [{ user := .buffer q, bytes := 4096 }], .wait)

/-- The key port of a quadrant draws words of its expander to split a secret into shares (R101, R290): one word for each 32
bytes of each share beyond the first (log entry 21). Nothing where a seed is due and has not arrived. -/
def State.drawKeyPort (s : State) (q n : Nat) : Option State :=
  match (s.rng.keyPorts.get q {}).draw n with
  | some e =>
    let s := s.modRng fun x => { x with keyPorts := x.keyPorts.set q e {} }
    some (if e.pending && !s.rng.waiting.contains (.keyPort q) then s.requestSeed (.keyPort q) else s)
  | none => none

end Sys2Proof.Machine
end

