-- ==== Sys2Proof/Machine/Operands.lean ====
section
/-!
DEFINITION. The operands of grain instructions and how an instruction ends: registers (R121, R129, R140), DM and its ranges
(R93, R95, R123), long-register groups and planes (R137 to R143), mask-expander words (R102), and the ends of R109.
-/
namespace Sys2Proof.Config

/-- A byte of the twiddle ROM of R94: the spec gives the tables' values and not where each one lies (log entry 13). -/
opaque romByte : Nat → Byte
/-- What a microcoded instruction leaves in the scratch of R168, which is vendor content (log entry 14). -/
opaque freeMicro : Nat → Sys2Proof.Machine.Micro

end Sys2Proof.Config

namespace Sys2Proof.Machine

/-- The causes of R109. -/
def causeIllegal : Nat := 0x01
def causeDmBounds : Nat := 0x02
def causeIndexRange : Nat := 0x03
def causePmRange : Nat := 0x04
def causeCycleBound : Nat := 0x05
def causeResultStatus : Nat := 0x06
def causeShareCheck : Nat := 0x10
def causeSelfVerify : Nat := 0x11
def causeCsParity : Nat := 0x20
def causeMemEcc : Nat := 0x21

/-- How an instruction ends without its effect: a program fault, a share-check mismatch, a machine check, a stall for
randomness, or a wait for another unit. -/
inductive Stop where
  | fault (cause : Nat)
  | check
  | machine (cause : Nat)
  | stall
  | wait
  deriving DecidableEq, Repr

/-- An instruction faults as ILLEGAL, DM_BOUNDS or INDEX_RANGE unless `p` holds. -/
def need (p : Prop) [Decidable p] (cause : Nat) : Except Stop Unit := if p then .ok () else .error (.fault cause)

/-- What an instruction sees of its job: the grain's number, the tenant, the masking order in force, the engines of
its quadrant that run its programs, and the number of the free values it may use. -/
structure GCtx where
  gid : Nat
  tenant : Nat
  order2 : Bool
  bnstat : Nat
  free : Nat
  deriving DecidableEq, Repr

/-- The effect of an instruction on its grain, with the next program counter. -/
abbrev GrainOp := GCtx → Grain → Except Stop (Grain × Nat)

/-- The header of the program in PM. -/
def Grain.header (G : Grain) : ProgHeader := G.prog.getD {}
/-- COMPAT (R105). -/
def Grain.compat (G : Grain) : Bool := G.header.flags.testBit 0
/-- The index of the next instruction. -/
def Grain.next (G : Grain) : Nat := G.pc + 1

/-! X, F and S registers. -/

/-- X(r): X0 reads as zero. -/
def Grain.x (G : Grain) (r : Nat) : W64 := G.regs.x.get r 0
/-- Write X(r): a write to X0 is discarded. -/
def Grain.setX (G : Grain) (r : Nat) (v : W64) : Grain :=
  if r = 0 then G else { G with regs := { G.regs with x := G.regs.x.set r v 0 } }
/-- F(r). -/
def Grain.f (G : Grain) (r : Nat) : W64 := G.regs.f.get r 0
/-- Write F(r). -/
def Grain.setF (G : Grain) (r : Nat) (v : W64) : Grain := { G with regs := { G.regs with f := G.regs.f.set r v 0 } }
/-- S(r): in COMPAT mode, F(2r) and F(2r + 1) (R129). -/
def Grain.sreg (G : Grain) (r : Nat) : W128 :=
  if G.compat then BitVec.append (G.f (2 * r + 1)) (G.f (2 * r)) else G.regs.sv.get r 0
/-- Write S(r). -/
def Grain.setS (G : Grain) (r : Nat) (v : W128) : Grain :=
  if G.compat then (G.setF (2 * r) (v.extractLsb' 0 64)).setF (2 * r + 1) (v.extractLsb' 64 64)
  else { G with regs := { G.regs with sv := G.regs.sv.set r v 0 } }
/-- S16 to S31 do not exist in COMPAT mode (R105). -/
def Grain.needS (G : Grain) (rs : List Nat) : Except Stop Unit :=
  need (G.compat = false ∨ ∀ r ∈ rs, r < 16) causeIllegal
/-- MAJOR 0x20, FLD and FSD need FLAGS.FP (R126). -/
def Grain.needFp (G : Grain) : Except Stop Unit := need (G.header.flags.testBit 2 = true) causeIllegal

/-! Data memory. -/

/-- A result field of the job block (R95, R96). -/
def resultByte (a : Nat) : Bool := decide ((0x40 ≤ a ∧ a < 0x42) ∨ (0x44 ≤ a ∧ a < 0x4C))
/-- The bytes lie in DM or in the twiddle ROM, where a load may read (R93). -/
def canRead (addr n : Nat) : Bool := decide (addr + n ≤ 0x10000 ∨ (0x10000 ≤ addr ∧ addr + n ≤ 0x16000))
/-- The bytes lie in DM, where a program may write (R93, R95). -/
def canWrite (addr n : Nat) : Bool :=
  decide (addr + n ≤ 0x10000) && (List.range n).all fun i => decide (0x800 ≤ addr + i) || resultByte (addr + i)

/-- The bytes overlap DM 0x0100 to 0x06FF, which the key port fills (R95). -/
def keyRegion (a n : Nat) : Bool := decide (a < 0x700 ∧ 0x100 < a + n)

/-- A byte as a load sees it. -/
def Grain.byte (G : Grain) (a : Nat) : Byte :=
  if a < 0x10000 then G.dm.get a 0 else if a < 0x15400 then Config.romByte (a - 0x10000) else 0
/-- `n` bytes from `a`. -/
def Grain.bytes (G : Grain) (a n : Nat) : List Byte := (List.range n).map fun i => G.byte (a + i)
/-- Write bytes to a memory. -/
def Memory.put (m : Memory) (a : Nat) : List Byte → Memory
  | [] => m
  | b :: bs => Memory.put (m.set a b 0) (a + 1) bs
/-- The canonical form of a memory: addresses strictly rising, and no entry equal to what an unlisted address reads as. -/
def Memory.wf (m : Memory) : Bool := Map.wf m 0
/-- Store bytes to DM. -/
def Grain.store (G : Grain) (a : Nat) (bs : List Byte) : Grain := { G with dm := Memory.put G.dm a bs }

/-- The effective address of R123. -/
def Grain.ea (G : Grain) (base : Nat) (imm : Half) : Nat := (G.x base + imm.signExtend 64).toNat

/-- Load `n` bytes under R123; an uncorrectable memory error is a machine check (R109). -/
def Grain.load (G : Grain) (a n : Nat) (ecc : Bool) : Except Stop (List Byte) :=
  if a % n ≠ 0 ∨ canRead a n = false then .error (.fault causeDmBounds)
  else if ecc then .error (.machine causeMemEcc)
  else .ok (G.bytes a n)

/-- Store bytes under R123. -/
def Grain.save (G : Grain) (a : Nat) (bs : List Byte) : Except Stop Grain :=
  if a % bs.length ≠ 0 ∨ canWrite a bs.length = false then .error (.fault causeDmBounds) else .ok (G.store a bs)

/-! Long registers (R137 to R142). -/

/-- EW in bits. -/
def Grain.ew (G : Grain) : Nat := if G.regs.ew32 then 32 else 16
/-- G of R138. -/
def groupOf (vl ew : Nat) : Nat := if vl * ew ≤ 2048 then 1 else if vl * ew ≤ 4096 then 2 else 4
/-- The group size in force. -/
def Grain.grp (G : Grain) : Nat := groupOf G.regs.vl G.ew
/-- B of R149. -/
def beatsOf (vl ew : Nat) : Nat := max 1 ((vl * ew + 511) / 512)
/-- The beats in force. -/
def Grain.beats (G : Grain) : Nat := beatsOf G.regs.vl G.ew

/-- The planes (R137, R139). -/
inductive Pl where
  | a
  | b
  | c
  deriving DecidableEq, Repr

/-- A plane of Ln: the third is L(n + 8).a (R101). -/
def Grain.plane (G : Grain) (p : Pl) (n : Nat) : Plane :=
  match p with
  | .a => G.regs.la.get n 0
  | .b => G.regs.lb.get n 0
  | .c => G.regs.la.get (n + 8) 0
/-- Write a plane of Ln. -/
def Grain.setPlane (G : Grain) (p : Pl) (n : Nat) (v : Plane) : Grain :=
  match p with
  | .a => { G with regs := { G.regs with la := G.regs.la.set n v 0 } }
  | .b => { G with regs := { G.regs with lb := G.regs.lb.set n v 0 } }
  | .c => { G with regs := { G.regs with la := G.regs.la.set (n + 8) v 0 } }

/-- The registers of a group as one number: element i stands at bit EW · i (R138). -/
def Grain.group (G : Grain) (p : Pl) (n k : Nat) : Nat :=
  (List.range k).foldr (fun i acc => (G.plane p (n + i)).toNat + acc * 2 ^ 2048) 0
/-- Write the registers of a group. -/
def Grain.setGroup (G : Grain) (p : Pl) (n k v : Nat) : Grain :=
  (List.range k).foldl (fun G i => G.setPlane p (n + i) (BitVec.ofNat 2048 (v >>> (2048 * i)))) G

/-- The first `vl` elements of a group's number. -/
def elems (ew vl v : Nat) : List Nat := (List.range vl).map fun i => (v >>> (ew * i)) % 2 ^ ew
/-- The number whose elements are the list, over what lies above them in `old`. -/
def packElems (ew : Nat) (xs : List Nat) (old : Nat) : Nat :=
  xs.foldr (fun x acc => x % 2 ^ ew + acc * 2 ^ ew) (old >>> (ew * xs.length))

/-- P(n): P0 reads as all ones (R140). -/
def Grain.p (G : Grain) (n : Nat) : W128 := if n = 0 then BitVec.allOnes 128 else G.regs.p.get n 0
/-- Write P(n). -/
def Grain.setP (G : Grain) (n : Nat) (v : W128) : Grain :=
  if n = 0 then G else { G with regs := { G.regs with p := G.regs.p.set n v 0 } }
/-- Element i is active under a predicate (R140). -/
def Grain.active (G : Grain) (pred i : Nat) : Bool := (G.p pred).getLsbD (i % 128)

/-- The elements of the group at Ln, plane p. -/
def Grain.vec (G : Grain) (p : Pl) (n : Nat) : List Nat := elems G.ew G.regs.vl (G.group p n G.grp)

/-- Write the active elements of a group: inactive elements and those at or above VL keep their value (R140). -/
def Grain.writeVec (G : Grain) (pred : Nat) (p : Pl) (n : Nat) (xs : List Nat) : Grain :=
  let old := G.group p n G.grp
  let olds := elems G.ew G.regs.vl old
  let new := (List.range G.regs.vl).map fun i =>
    if G.active pred i then (xs[i]?).getD 0 else (olds[i]?).getD 0
  G.setGroup p n G.grp (packElems G.ew new old)

/-- Every element of a group below VL is written, whatever the predicate. -/
def Grain.writeAll (G : Grain) (p : Pl) (n : Nat) (xs : List Nat) : Grain := G.writeVec 0 p n xs

/-- The planes in force for share-wise work (R141). -/
def planes (order2 : Bool) : List Pl := if order2 then [.a, .b, .c] else [.a, .b]

/-- Some register of the group is public. -/
def Grain.anyPublic (G : Grain) (n k : Nat) : Bool := (List.range k).any fun i => G.regs.lpub.testBit (n + i)
/-- Every register of the group is public. -/
def Grain.allPublic (G : Grain) (n k : Nat) : Bool := (List.range k).all fun i => G.regs.lpub.testBit (n + i)

/-- A long register field may be named: L8 to L15 do not exist at MASK_ORDER 2 (R139). -/
def nameable (c : GCtx) (n : Nat) : Bool := !c.order2 || decide (n < 8)

/-- The group checks of R138, R139 and R147: destinations of `dsize` registers, sources of one group each, no overlap when
the instruction has more than one beat, and the rules of R142 for a public destination. -/
def Grain.checkGroups (G : Grain) (c : GCtx) (sh : Nat) (k beats dst dsize : Nat) (srcs : List Nat) : Bool :=
  nameable c dst && srcs.all (nameable c) &&
  decide (dst % dsize = 0) && srcs.all (fun n => decide (n % k = 0)) &&
  (decide (beats ≤ 1) || srcs.all fun n => decide (n + k ≤ dst ∨ dst + dsize ≤ n)) &&
  (!G.anyPublic dst dsize || (decide (sh = 0) && srcs.all fun n => G.allPublic n k))

/-- MOD names arithmetic that this element width has (R146). -/
def modOk (ew : Nat) (m : Nat) : Bool :=
  match m with
  | 0 => true
  | 1 | 3 | 4 | 5 => decide (ew = 16)
  | 2 => decide (ew = 32)
  | _ => false

/-- The modulus of R146; 2^EW for MOD 0. -/
def modulusOf (ew m : Nat) : Nat :=
  match m with
  | 1 => 3329
  | 2 => 8380417
  | 3 => 12289
  | _ => 2 ^ ew

/-! The mask expander (R102, R103). -/

/-- The grain draws `n` words. -/
def Grain.draw (G : Grain) (n : Nat) : Except Stop Grain :=
  match G.expander.draw n with
  | some x => .ok { G with expander := x }
  | none => .error .stall

/-- Trouble in the control store or in memory is a machine check (R109, R174). -/
def noTrouble (t : GrainTrouble) : Except Stop Unit :=
  match t with
  | .none => .ok ()
  | .csParity => .error (.machine causeCsParity)
  | .memEcc => .error (.machine causeMemEcc)

/-! Running an instruction. -/

/-- The job that grain `g` executes: the grain runs and its job is in the execute stage. -/
def State.executing (s : State) (g : Nat) : Option (Nat × Job) :=
  let G := s.grain g
  if G.state = .running then
    match G.job with
    | some j => match s.job j with
      | some job => if job.stage = .execute ∧ !job.held then some (j, job) else none
      | none => none
    | none => none
  else none

/-- BNSTAT (R136): bit k is set while engine N(16 · QUAD + k) runs a program of this job. -/
def State.bnstat (s : State) (g j : Nat) : Nat :=
  (List.range 16).foldl (fun acc k =>
    let e := s.engine (16 * (g / 256) + k)
    if e.state = .running ∧ e.holder = some j then acc + 2 ^ k else acc) 0

/-- What an instruction of grain `g` sees of its job. -/
def State.gctx (s : State) (g j : Nat) (job : Job) : GCtx := ⟨g, job.tenant, job.order2, s.bnstat g j, s.free⟩

/-- An instruction retires (R91, R136): it advances CYCLE by the cycles it took, INSTRET by one, and the program counter. -/
def Grain.retire (G : Grain) (cycles pc : Nat) : Grain :=
  { G with
    pc := pc
    busy := G.busy + cycles
    regs := { G.regs with cycle := (G.regs.cycle + cycles) % 2 ^ 64, instret := (G.regs.instret + 1) % 2 ^ 64 } }

/-- An instruction of grain `g` ends without its effect (R109). -/
def State.stopGrain (s : State) (g j : Nat) (e : Stop) : State :=
  match e with
  | .fault c => s.endExecution j g Status.programFault 0 (c * 2 ^ 24 + (s.grain g).pc % 2 ^ 16)
  | .check => s.endExecution j g Status.faultDetected 0 (causeShareCheck * 2 ^ 24)
  | .machine c => s.machineCheck g c
  | .stall => s.modGrain g fun G => { G with state := .stalled, rngWait := true }
  | .wait => s

/-- The word at the program counter (R118): PM is fetched below TEXT_WORDS only. -/
def Grain.fetched (G : Grain) : Option W32 := if G.pc < G.header.textWords then some (G.pm.get G.pc 0) else none

/-- The job whose next instruction on grain `g` has the word `w`. -/
def State.fetching (s : State) (g : Nat) (w : W32) : Option (Nat × Job) :=
  if (s.grain g).fetched = some w then s.executing g else none

/-- Grain `g` runs the instruction of word `w`: nothing happens unless the grain executes a job and fetches this word. -/
def State.runGrain (s : State) (g : Nat) (w : W32) (f : GrainOp) : State :=
  match s.fetching g w with
  | none => s
  | some (j, job) =>
    match f (s.gctx g j job) (s.grain g) with
    | .ok (G', pc) => (s.spend.modGrain g fun _ => G'.retire (Config.cyclesTaken s.free) pc).askForGrain g
    | .error e => s.stopGrain g j e

end Sys2Proof.Machine
end

