-- ==== Sys2Proof/Machine/GrainScalar.lean ====
section
/-!
DEFINITION. The scalar instructions of a grain: register operations (R121), immediates and wide moves (R122), loads and
stores (R123), branches and jumps (R124).
-/
namespace Sys2Proof.Machine

/-- An instruction that writes X(dst) and goes on. -/
def scalarOp (dst : Reg) (f : Grain → W64) : GrainOp := fun _ G => .ok (G.setX dst.toNat (f G), G.next)

/-- A register operation on X(src1) and X(src2). -/
def regOp (dst src1 src2 : Reg) (f : W64 → W64 → W64) : GrainOp :=
  scalarOp dst fun G => f (G.x src1.toNat) (G.x src2.toNat)

/-- The form with W: the operation acts on bits 31:0 and the result is zero-extended. -/
def wordOp (w : Bool) (f : W64 → W64 → W64) (fw : W32 → W32 → W32) (a b : W64) : W64 :=
  if w then (fw (a.setWidth 32) (b.setWidth 32)).setWidth 64 else f a b

/-- A register operation that has the W form. -/
def regOpW (w : Bool) (dst src1 src2 : Reg) (f : W64 → W64 → W64) (fw : W32 → W32 → W32) : GrainOp :=
  regOp dst src1 src2 (wordOp w f fw)

/-- A truth value as a register. -/
def flag (b : Bool) : W64 := if b then 1 else 0

/-- The shifts and rotates at a width, by the amount modulo the width: 0 SLL, 1 SRL, 2 SRA, 3 ROL, 4 ROR. -/
def shiftBy {n : Nat} (kind : Nat) (a : BitVec n) (amount : Nat) : BitVec n :=
  match kind with
  | 0 => a <<< (amount % n)
  | 1 => a >>> (amount % n)
  | 2 => a.sshiftRight (amount % n)
  | 3 => a.rotateLeft (amount % n)
  | _ => a.rotateRight (amount % n)

/-- A shift instruction: the amount is X(src2) modulo the width. -/
def shiftOp (kind : Nat) (w : Bool) (dst src1 src2 : Reg) : GrainOp :=
  regOpW w dst src1 src2 (fun a b => shiftBy kind a (b.toNat % 64)) (fun a b => shiftBy kind a (b.toNat % 32))

/-- DIVU: divisor 0 gives all ones. -/
def divu {n : Nat} (a b : BitVec n) : BitVec n := if b = 0 then BitVec.allOnes n else a / b
/-- REMU: divisor 0 gives the dividend. -/
def remu {n : Nat} (a b : BitVec n) : BitVec n := if b = 0 then a else a % b

/-- The set bits of a value. -/
def popCount {n : Nat} (a : BitVec n) : Nat := ((List.range n).filter fun i => a.getLsbD i).length
/-- The leading zeros of a value, its width for 0. -/
def leadingZeros (a : W64) : Nat := if a = 0 then 64 else 63 - Nat.log2 a.toNat

def execAdd (g : Nat) (w : Bool) (dst src1 src2 : Reg) (s : State) : Result :=
  .next (s.runGrain g (encA 0x00 dst src1 src2 (funcW w 0x000)) (regOpW w dst src1 src2 (· + ·) (· + ·)))
def execSub (g : Nat) (w : Bool) (dst src1 src2 : Reg) (s : State) : Result :=
  .next (s.runGrain g (encA 0x00 dst src1 src2 (funcW w 0x001)) (regOpW w dst src1 src2 (· - ·) (· - ·)))
def execAnd (g : Nat) (dst src1 src2 : Reg) (s : State) : Result :=
  .next (s.runGrain g (encA 0x00 dst src1 src2 0x002) (regOp dst src1 src2 (· &&& ·)))
def execOr (g : Nat) (dst src1 src2 : Reg) (s : State) : Result :=
  .next (s.runGrain g (encA 0x00 dst src1 src2 0x003) (regOp dst src1 src2 (· ||| ·)))
def execXor (g : Nat) (dst src1 src2 : Reg) (s : State) : Result :=
  .next (s.runGrain g (encA 0x00 dst src1 src2 0x004) (regOp dst src1 src2 (· ^^^ ·)))
def execAndn (g : Nat) (dst src1 src2 : Reg) (s : State) : Result :=
  .next (s.runGrain g (encA 0x00 dst src1 src2 0x005) (regOp dst src1 src2 fun a b => a &&& ~~~b))
def execSll (g : Nat) (w : Bool) (dst src1 src2 : Reg) (s : State) : Result :=
  .next (s.runGrain g (encA 0x00 dst src1 src2 (funcW w 0x008)) (shiftOp 0 w dst src1 src2))
def execSrl (g : Nat) (w : Bool) (dst src1 src2 : Reg) (s : State) : Result :=
  .next (s.runGrain g (encA 0x00 dst src1 src2 (funcW w 0x009)) (shiftOp 1 w dst src1 src2))
def execSra (g : Nat) (w : Bool) (dst src1 src2 : Reg) (s : State) : Result :=
  .next (s.runGrain g (encA 0x00 dst src1 src2 (funcW w 0x00A)) (shiftOp 2 w dst src1 src2))
def execRol (g : Nat) (w : Bool) (dst src1 src2 : Reg) (s : State) : Result :=
  .next (s.runGrain g (encA 0x00 dst src1 src2 (funcW w 0x00B)) (shiftOp 3 w dst src1 src2))
def execRor (g : Nat) (w : Bool) (dst src1 src2 : Reg) (s : State) : Result :=
  .next (s.runGrain g (encA 0x00 dst src1 src2 (funcW w 0x00C)) (shiftOp 4 w dst src1 src2))
def execSlt (g : Nat) (dst src1 src2 : Reg) (s : State) : Result :=
  .next (s.runGrain g (encA 0x00 dst src1 src2 0x010) (regOp dst src1 src2 fun a b => flag (a.slt b)))
def execSltu (g : Nat) (dst src1 src2 : Reg) (s : State) : Result :=
  .next (s.runGrain g (encA 0x00 dst src1 src2 0x011) (regOp dst src1 src2 fun a b => flag (a.ult b)))
/-- CSEL reads X(DST) before writing it. -/
def execCsel (g : Nat) (dst src1 src2 : Reg) (s : State) : Result :=
  .next (s.runGrain g (encA 0x00 dst src1 src2 0x012) (scalarOp dst fun G =>
    if G.x dst.toNat ≠ 0 then G.x src1.toNat else G.x src2.toNat))
def execMul (g : Nat) (w : Bool) (dst src1 src2 : Reg) (s : State) : Result :=
  .next (s.runGrain g (encA 0x00 dst src1 src2 (funcW w 0x018)) (regOpW w dst src1 src2 (· * ·) (· * ·)))
def execMulhu (g : Nat) (dst src1 src2 : Reg) (s : State) : Result :=
  .next (s.runGrain g (encA 0x00 dst src1 src2 0x019) (regOp dst src1 src2 fun a b => BitVec.ofNat 64 (a.toNat * b.toNat / 2 ^ 64)))
def execMulh (g : Nat) (dst src1 src2 : Reg) (s : State) : Result :=
  .next (s.runGrain g (encA 0x00 dst src1 src2 0x01A) (regOp dst src1 src2 fun a b => BitVec.ofInt 64 (a.toInt * b.toInt / 2 ^ 64)))
def execDivu (g : Nat) (w : Bool) (dst src1 src2 : Reg) (s : State) : Result :=
  .next (s.runGrain g (encA 0x00 dst src1 src2 (funcW w 0x01C)) (regOpW w dst src1 src2 divu divu))
def execRemu (g : Nat) (w : Bool) (dst src1 src2 : Reg) (s : State) : Result :=
  .next (s.runGrain g (encA 0x00 dst src1 src2 (funcW w 0x01D)) (regOpW w dst src1 src2 remu remu))
def execSextb (g : Nat) (dst src1 : Reg) (s : State) : Result :=
  .next (s.runGrain g (encA 0x00 dst src1 0 0x020) (scalarOp dst fun G => ((G.x src1.toNat).setWidth 8).signExtend 64))
def execSexth (g : Nat) (dst src1 : Reg) (s : State) : Result :=
  .next (s.runGrain g (encA 0x00 dst src1 0 0x021) (scalarOp dst fun G => ((G.x src1.toNat).setWidth 16).signExtend 64))
def execSextw (g : Nat) (dst src1 : Reg) (s : State) : Result :=
  .next (s.runGrain g (encA 0x00 dst src1 0 0x022) (scalarOp dst fun G => ((G.x src1.toNat).setWidth 32).signExtend 64))
def execPopcnt (g : Nat) (dst src1 : Reg) (s : State) : Result :=
  .next (s.runGrain g (encA 0x00 dst src1 0 0x023) (scalarOp dst fun G => BitVec.ofNat 64 (popCount (G.x src1.toNat))))
def execClz (g : Nat) (dst src1 : Reg) (s : State) : Result :=
  .next (s.runGrain g (encA 0x00 dst src1 0 0x024) (scalarOp dst fun G => BitVec.ofNat 64 (leadingZeros (G.x src1.toNat))))

/-- Jump to a word index; X(dst) takes the index of the next instruction. -/
def jumpTo (dst : Reg) (target : Grain → Nat) : GrainOp :=
  fun _ G => .ok (G.setX dst.toNat (BitVec.ofNat 64 G.next), target G)

/-- JR reads X(SRC1) before it writes the link. -/
def execJr (g : Nat) (dst src1 : Reg) (s : State) : Result :=
  .next (s.runGrain g (encA 0x00 dst src1 0 0x028) (jumpTo dst fun G => (G.x src1.toNat).toNat))
def execJal (g : Nat) (dst : Reg) (target : BitVec 13) (s : State) : Result :=
  .next (s.runGrain g (encJ 0x1A dst target) (jumpTo dst fun _ => target.toNat))

/-! Immediates and wide moves (R122). -/

def execAddi (g : Nat) (dst src1 : Reg) (imm : Half) (s : State) : Result :=
  .next (s.runGrain g (encI 0x01 dst src1 imm) (scalarOp dst fun G => G.x src1.toNat + imm.signExtend 64))
def execAndi (g : Nat) (dst src1 : Reg) (imm : Half) (s : State) : Result :=
  .next (s.runGrain g (encI 0x02 dst src1 imm) (scalarOp dst fun G => G.x src1.toNat &&& imm.setWidth 64))
def execOri (g : Nat) (dst src1 : Reg) (imm : Half) (s : State) : Result :=
  .next (s.runGrain g (encI 0x03 dst src1 imm) (scalarOp dst fun G => G.x src1.toNat ||| imm.setWidth 64))
def execXori (g : Nat) (dst src1 : Reg) (imm : Half) (s : State) : Result :=
  .next (s.runGrain g (encI 0x04 dst src1 imm) (scalarOp dst fun G => G.x src1.toNat ^^^ imm.setWidth 64))

/-- The kinds of SHI: 0 SLL, 1 SRL, 2 SRA, 3 ROR. -/
def shiKind (kind : BitVec 2) : Nat := if kind = 3 then 4 else kind.toNat

def execShi (g : Nat) (dst src1 : Reg) (kind : BitVec 2) (w : Bool) (amount : BitVec 6) (s : State) : Result :=
  .next (s.runGrain g (encI 0x05 dst src1 (shiImm kind w amount)) (scalarOp dst fun G =>
    wordOp w (fun a b => shiftBy (shiKind kind) a (b.toNat % 64)) (fun a b => shiftBy (shiKind kind) a (b.toNat % 32))
      (G.x src1.toNat) (amount.setWidth 64)))
def execMovz (g : Nat) (dst : Reg) (hw : BitVec 2) (imm : Half) (s : State) : Result :=
  .next (s.runGrain g (encW 0x06 dst 0 hw imm) (scalarOp dst fun _ => imm.setWidth 64 <<< (16 * hw.toNat)))
def execMovk (g : Nat) (dst : Reg) (hw : BitVec 2) (imm : Half) (s : State) : Result :=
  .next (s.runGrain g (encW 0x06 dst 1 hw imm) (scalarOp dst fun G =>
    (G.x dst.toNat &&& ~~~((0xFFFF : W64) <<< (16 * hw.toNat))) ||| (imm.setWidth 64 <<< (16 * hw.toNat))))

/-! Loads and stores (R123). -/

/-- Load `n` bytes into X(dst), zero-extended. -/
def loadX (n : Nat) (dst src1 : Reg) (imm : Half) (ecc : Bool) : GrainOp := fun _ G => do
  let bs ← G.load (G.ea src1.toNat imm) n ecc
  .ok (G.setX dst.toNat (BitVec.ofNat 64 (leNat bs)), G.next)
/-- Store the low `n` bytes of a value. -/
def storeVal (n : Nat) (src1 : Reg) (imm : Half) (v : Grain → Nat) : GrainOp := fun _ G => do
  let G' ← G.save (G.ea src1.toNat imm) (leBytes n (v G))
  .ok (G', G.next)

def execLd (g : Nat) (dst src1 : Reg) (imm : Half) (ecc : Bool) (s : State) : Result :=
  .next (s.runGrain g (encI 0x08 dst src1 imm) (loadX 8 dst src1 imm ecc))
def execLw (g : Nat) (dst src1 : Reg) (imm : Half) (ecc : Bool) (s : State) : Result :=
  .next (s.runGrain g (encI 0x09 dst src1 imm) (loadX 4 dst src1 imm ecc))
def execLh (g : Nat) (dst src1 : Reg) (imm : Half) (ecc : Bool) (s : State) : Result :=
  .next (s.runGrain g (encI 0x0A dst src1 imm) (loadX 2 dst src1 imm ecc))
def execLb (g : Nat) (dst src1 : Reg) (imm : Half) (ecc : Bool) (s : State) : Result :=
  .next (s.runGrain g (encI 0x0B dst src1 imm) (loadX 1 dst src1 imm ecc))
def execSd (g : Nat) (data src1 : Reg) (imm : Half) (s : State) : Result :=
  .next (s.runGrain g (encI 0x0C data src1 imm) (storeVal 8 src1 imm fun G => (G.x data.toNat).toNat))
def execSw (g : Nat) (data src1 : Reg) (imm : Half) (s : State) : Result :=
  .next (s.runGrain g (encI 0x0D data src1 imm) (storeVal 4 src1 imm fun G => (G.x data.toNat).toNat))
def execSh (g : Nat) (data src1 : Reg) (imm : Half) (s : State) : Result :=
  .next (s.runGrain g (encI 0x0E data src1 imm) (storeVal 2 src1 imm fun G => (G.x data.toNat).toNat))
def execSb (g : Nat) (data src1 : Reg) (imm : Half) (s : State) : Result :=
  .next (s.runGrain g (encI 0x0F data src1 imm) (storeVal 1 src1 imm fun G => (G.x data.toNat).toNat))

def execFld (g : Nat) (dst src1 : Reg) (imm : Half) (ecc : Bool) (s : State) : Result :=
  .next (s.runGrain g (encI 0x10 dst src1 imm) fun _ G => do
    G.needFp
    let bs ← G.load (G.ea src1.toNat imm) 8 ecc
    .ok (G.setF dst.toNat (BitVec.ofNat 64 (leNat bs)), G.next))
def execFsd (g : Nat) (data src1 : Reg) (imm : Half) (s : State) : Result :=
  .next (s.runGrain g (encI 0x11 data src1 imm) fun _ G => do
    G.needFp
    let G' ← G.save (G.ea src1.toNat imm) (leBytes 8 (G.f data.toNat).toNat)
    .ok (G', G.next))
def execSld (g : Nat) (dst src1 : Reg) (imm : Half) (ecc : Bool) (s : State) : Result :=
  .next (s.runGrain g (encI 0x12 dst src1 imm) fun _ G => do
    G.needS [dst.toNat]
    let bs ← G.load (G.ea src1.toNat imm) 16 ecc
    .ok (G.setS dst.toNat (BitVec.ofNat 128 (leNat bs)), G.next))
def execSst (g : Nat) (data src1 : Reg) (imm : Half) (s : State) : Result :=
  .next (s.runGrain g (encI 0x13 data src1 imm) fun _ G => do
    G.needS [data.toNat]
    let G' ← G.save (G.ea src1.toNat imm) (leBytes 16 (G.sreg data.toNat).toNat)
    .ok (G', G.next))

/-! Branches (R124). -/

/-- Where a branch goes: its own index plus the sign-extended offset when taken. -/
def branchTarget (G : Grain) (taken : Bool) (off : Half) : Nat :=
  if taken then (BitVec.ofNat 64 G.pc + off.signExtend 64).toNat else G.next

/-- A branch on a comparison of X(src1) with X(src2). -/
def branchOp (src1 src2 : Reg) (off : Half) (c : W64 → W64 → Bool) : GrainOp :=
  fun _ G => .ok (G, branchTarget G (c (G.x src1.toNat) (G.x src2.toNat)) off)

def execBeq (g : Nat) (src1 src2 : Reg) (off : Half) (s : State) : Result :=
  .next (s.runGrain g (encI 0x14 src1 src2 off) (branchOp src1 src2 off fun a b => a == b))
def execBne (g : Nat) (src1 src2 : Reg) (off : Half) (s : State) : Result :=
  .next (s.runGrain g (encI 0x15 src1 src2 off) (branchOp src1 src2 off fun a b => a != b))
def execBlt (g : Nat) (src1 src2 : Reg) (off : Half) (s : State) : Result :=
  .next (s.runGrain g (encI 0x16 src1 src2 off) (branchOp src1 src2 off fun a b => a.slt b))
def execBge (g : Nat) (src1 src2 : Reg) (off : Half) (s : State) : Result :=
  .next (s.runGrain g (encI 0x17 src1 src2 off) (branchOp src1 src2 off fun a b => !a.slt b))
def execBltu (g : Nat) (src1 src2 : Reg) (off : Half) (s : State) : Result :=
  .next (s.runGrain g (encI 0x18 src1 src2 off) (branchOp src1 src2 off fun a b => a.ult b))
def execBgeu (g : Nat) (src1 src2 : Reg) (off : Half) (s : State) : Result :=
  .next (s.runGrain g (encI 0x19 src1 src2 off) (branchOp src1 src2 off fun a b => !a.ult b))

end Sys2Proof.Machine
end

