-- ==== Sys2Proof/Machine/LvArith.lean ====
section
/-!
DEFINITION. The long-vector instructions of LVA and LVM (R151, R152) and the predicate operations (R159).
-/
namespace Sys2Proof.Machine

/-- A long-vector instruction: its encoding is checked, VL = 0 then changes nothing (R148), and otherwise it has its
effect. -/
def lvInstr (legal : GCtx → Grain → Bool) (eff : GCtx → Grain → Except Stop Grain) : GrainOp := fun c G => do
  need (legal c G = true ∧ G.regs.vl * G.ew ≤ 8192) causeIllegal
  if G.regs.vl = 0 then .ok (G, G.next)
  else
    let G' ← eff c G
    .ok (G', G.next)

/-- A microcoded instruction: it meets the trouble of its hardware, and leaves the scratch of R168 as its microcode does. -/
def microcoded (t : GrainTrouble) (eff : GCtx → Grain → Except Stop Grain) (c : GCtx) (G : Grain) : Except Stop Grain := do
  noTrouble t
  let G' ← eff c G
  .ok { G' with micro := Config.freeMicro c.free }

/-- The planes that SH selects: 00 plane .a, 01 every plane, 10 every plane (R141). -/
def shPlanes (c : GCtx) (sh : BitVec 2) : List Pl := if sh = 0 then [.a] else planes c.order2

/-- Combine two vectors element by element. -/
def combine (f : Nat → Nat → Nat) (xs ys : List Nat) : List Nat := List.zipWith f xs ys

/-- A long register operand's number. -/
def lreg (n : BitVec 4) : Nat := n.toNat

/-- With SH 10 the second source is public (R141). -/
def publicSrc2 (G : Grain) (o : LvOps) : Bool := !decide (o.sh = 2) || G.allPublic (lreg o.src2) G.grp

/-- The checks of a two-source instruction with one output group. -/
def legalBinary (mods shs : List Nat) (o : LvOps) (c : GCtx) (G : Grain) : Bool :=
  mods.contains o.modulus.toNat && modOk G.ew o.modulus.toNat && shs.contains o.sh.toNat && publicSrc2 G o &&
  G.checkGroups c o.sh.toNat G.grp G.beats (lreg o.dst) G.grp [lreg o.src1, lreg o.src2]

/-- The checks of a one-source instruction with one output group. -/
def legalUnary (mods shs : List Nat) (o : LvUnary) (c : GCtx) (G : Grain) : Bool :=
  mods.contains o.modulus.toNat && modOk G.ew o.modulus.toNat && shs.contains o.sh.toNat &&
  G.checkGroups c o.sh.toNat G.grp G.beats (lreg o.dst) G.grp [lreg o.src1]

/-- A binary operation over the planes of SH. With SH 10 the public operand is read from plane .a: `linear` applies it to
every plane, otherwise it enters plane .a and the other planes carry s1 over. -/
def lvBinary (linear : Bool) (o : LvOps) (f : Nat → Nat → Nat) (c : GCtx) (G : Grain) : Grain :=
  (shPlanes c o.sh).foldl (fun acc p =>
    let x := G.vec p (lreg o.src1)
    let r :=
      if o.sh = 2 then
        (if linear || decide (p = .a) then combine f x (G.vec .a (lreg o.src2)) else combine (fun a _ => f a 0) x x)
      else combine f x (G.vec p (lreg o.src2))
    acc.writeVec o.pred.toNat p (lreg o.dst) r) G

/-- A unary operation over the planes of SH. -/
def lvMap (o : LvUnary) (f : Nat → Nat) (c : GCtx) (G : Grain) : Grain :=
  (shPlanes c o.sh).foldl (fun acc p => acc.writeVec o.pred.toNat p (lreg o.dst) ((G.vec p (lreg o.src1)).map f)) G

/-- The arithmetic of MOD on elements: the canonical residue (R146). -/
def modAdd (ew m a b : Nat) : Nat := (a + b) % modulusOf ew m
def modSub (ew m a b : Nat) : Nat := ((a : Int) - (b : Int)).emod (modulusOf ew m) |>.toNat
def modMul (ew m a b : Nat) : Nat := a * b % modulusOf ew m

/-- R^−1 mod q for the Montgomery forms, with R = 2^EW (R146): q is prime, so it is R^(q − 2). -/
def powMod (b e m : Nat) : Nat :=
  (List.range (Nat.log2 e + 1)).foldr (fun i acc => if e.testBit i then acc * acc % m * b % m else acc * acc % m) 1 % m
def montInv (ew m : Nat) : Nat := powMod (2 ^ ew) (modulusOf ew m - 2) (modulusOf ew m)
/-- The Montgomery product s1 · s2 · R^−1 mod q. -/
def montMul (ew m a b : Nat) : Nat := a * b * montInv ew m % modulusOf ew m

/-- A binary instruction of the tables of R151 and R152. -/
def lvBinaryInstr (mods shs : List Nat) (linear : Bool) (o : LvOps) (f : Grain → Nat → Nat → Nat) : GrainOp :=
  lvInstr (legalBinary mods shs o) fun c G => .ok (lvBinary linear o (f G) c G)

def execVadd (g : Nat) (o : LvOps) (s : State) : Result :=
  .next (s.runGrain g (encLv2 0x38 o 0x00) (lvBinaryInstr [0, 1, 2, 3] [0, 1, 2] false o fun G => modAdd G.ew o.modulus.toNat))
def execVsub (g : Nat) (o : LvOps) (s : State) : Result :=
  .next (s.runGrain g (encLv2 0x38 o 0x01) (lvBinaryInstr [0, 1, 2, 3] [0, 1, 2] false o fun G => modSub G.ew o.modulus.toNat))
def execVneg (g : Nat) (o : LvUnary) (s : State) : Result :=
  .next (s.runGrain g (encLv1 0x38 o 0x02) (lvInstr (legalUnary [0, 1, 2, 3] [0, 1] o) fun c G =>
    .ok (lvMap o (modSub G.ew o.modulus.toNat 0) c G)))

/-- min(s1, q − s1) on the canonical residue. -/
def cabs (q x : Nat) : Nat := min (x % q) (q - x % q)

def execVcabs (g : Nat) (o : LvUnary) (s : State) : Result :=
  .next (s.runGrain g (encLv1 0x38 o 0x03) (lvInstr (legalUnary [1, 2, 3] [0] o) fun c G =>
    .ok (lvMap o (cabs (modulusOf G.ew o.modulus.toNat)) c G)))
def execVand (g : Nat) (o : LvOps) (s : State) : Result :=
  .next (s.runGrain g (encLv2 0x38 o 0x04) (lvBinaryInstr [0] [0, 2] true o fun _ a b => a &&& b))
def execVor (g : Nat) (o : LvOps) (s : State) : Result :=
  .next (s.runGrain g (encLv2 0x38 o 0x05) (lvBinaryInstr [0] [0] true o fun _ a b => a ||| b))
def execVxor (g : Nat) (o : LvOps) (s : State) : Result :=
  .next (s.runGrain g (encLv2 0x38 o 0x06) (lvBinaryInstr [0] [0, 1, 2] false o fun _ a b => a ^^^ b))
def execVandn (g : Nat) (o : LvOps) (s : State) : Result :=
  .next (s.runGrain g (encLv2 0x38 o 0x07) (lvBinaryInstr [0] [0, 2] true o fun G a b => a &&& (2 ^ G.ew - 1 - b)))

/-- A shift by X(SRC2 field) mod EW; SRC2 names X0 to X15. -/
def lvShift (o : LvOps) (f : Grain → Nat → Nat → Nat) : GrainOp :=
  lvInstr (fun c G => decide (o.modulus = 0) && decide (o.sh.toNat ≤ 1) &&
      G.checkGroups c o.sh.toNat G.grp G.beats (lreg o.dst) G.grp [lreg o.src1]) fun c G =>
    let n := (G.x o.src2.toNat).toNat % G.ew
    .ok (lvMap ⟨o.dst, o.src1, o.pred, o.sh, o.modulus⟩ (fun a => f G a n) c G)

def execVsll (g : Nat) (o : LvOps) (s : State) : Result := .next (s.runGrain g (encLv2 0x38 o 0x08) (lvShift o fun _ a n => a <<< n))
def execVsrl (g : Nat) (o : LvOps) (s : State) : Result := .next (s.runGrain g (encLv2 0x38 o 0x09) (lvShift o fun _ a n => a >>> n))
def execVsra (g : Nat) (o : LvOps) (s : State) : Result :=
  .next (s.runGrain g (encLv2 0x38 o 0x0A) (lvShift o fun G a n => ofSigned G.ew (toSigned G.ew a / (2 ^ n : Nat))))

/-- A number whose bit i is set where `f i` holds, for i below n. -/
def bitsWhere (n : Nat) (f : Nat → Bool) : Nat :=
  (List.range n).foldl (fun acc i => if f i then acc + 2 ^ i else acc) 0

/-- A comparison into P(DST): bits of inactive elements and of elements at or above VL are cleared; VL above 128 and a DST
outside P1 to P7 are illegal. -/
def lvCompare (o : LvOps) (f : Nat → Nat → Bool) : GrainOp :=
  lvInstr (fun c G => decide (o.modulus = 0) && decide (o.sh = 0) && decide (G.regs.vl ≤ 128) &&
      decide (1 ≤ o.dst.toNat ∧ o.dst.toNat ≤ 7) && nameable c (lreg o.src1) && nameable c (lreg o.src2) &&
      decide (lreg o.src1 % G.grp = 0 ∧ lreg o.src2 % G.grp = 0)) fun _ G =>
    let r := combine (fun a b => if f a b then 1 else 0) (G.vec .a (lreg o.src1)) (G.vec .a (lreg o.src2))
    let v := bitsWhere G.regs.vl fun i => G.active o.pred.toNat i && decide ((r[i]?).getD 0 = 1)
    .ok (G.setP o.dst.toNat (BitVec.ofNat 128 v))

def execVcmpeq (g : Nat) (o : LvOps) (s : State) : Result := .next (s.runGrain g (encLv2 0x38 o 0x10) (lvCompare o fun a b => a == b))
def execVcmpltu (g : Nat) (o : LvOps) (s : State) : Result := .next (s.runGrain g (encLv2 0x38 o 0x11) (lvCompare o fun a b => decide (a < b)))
def execVcmpgeu (g : Nat) (o : LvOps) (s : State) : Result := .next (s.runGrain g (encLv2 0x38 o 0x12) (lvCompare o fun a b => decide (b ≤ a)))

/-- VSEL: P[i] ? s1 : s2, written for every element below VL. -/
def execVsel (g : Nat) (o : LvOps) (s : State) : Result :=
  .next (s.runGrain g (encLv2 0x38 o 0x14) (lvInstr (legalBinary [0] [0, 1] o) fun c G =>
    .ok ((shPlanes c o.sh).foldl (fun acc p =>
      let x := G.vec p (lreg o.src1)
      let y := G.vec p (lreg o.src2)
      acc.writeAll p (lreg o.dst) ((List.range G.regs.vl).map fun i =>
        if G.active o.pred.toNat i then (x[i]?).getD 0 else (y[i]?).getD 0)) G)))

/-- VSPLAT: the low EW bits of X(SRC1 field) in every element; SRC2 is reserved. -/
def execVsplat (g : Nat) (o : LvOps) (s : State) : Result :=
  .next (s.runGrain g (encLv2 0x38 o 0x18) (lvInstr (fun c G => decide (o.modulus = 0) && decide (o.sh = 0) && decide (o.src2 = 0) &&
      G.checkGroups c 0 G.grp G.beats (lreg o.dst) G.grp []) fun _ G =>
    .ok (G.writeVec o.pred.toNat .a (lreg o.dst) (List.replicate G.regs.vl ((G.x o.src1.toNat).toNat % 2 ^ G.ew)))))

/-! LVM (R152). -/

def execVmul (g : Nat) (o : LvOps) (s : State) : Result :=
  .next (s.runGrain g (encLv2 0x39 o 0x00) (lvBinaryInstr [0, 1, 2, 3] [0, 2] true o fun G => modMul G.ew o.modulus.toNat))
def execVmulm (g : Nat) (o : LvOps) (s : State) : Result :=
  .next (s.runGrain g (encLv2 0x39 o 0x01) (lvBinaryInstr [1, 2, 3] [0, 2] true o fun G => montMul G.ew o.modulus.toNat))

/-- A multiply-accumulate: each plane of the destination accumulates. -/
def lvAccumulate (mods : List Nat) (o : LvOps) (mul : Nat → Nat → Nat → Nat → Nat) : GrainOp :=
  lvInstr (fun c G => legalBinary mods [0, 2] o c G) fun c G =>
    .ok ((shPlanes c o.sh).foldl (fun acc p =>
      let prod := combine (mul G.ew o.modulus.toNat) (G.vec p (lreg o.src1)) (G.vec .a (lreg o.src2))
      acc.writeVec o.pred.toNat p (lreg o.dst) (combine (modAdd G.ew o.modulus.toNat) (G.vec p (lreg o.dst)) prod)) G)

def execVmac (g : Nat) (o : LvOps) (s : State) : Result := .next (s.runGrain g (encLv2 0x39 o 0x02) (lvAccumulate [0, 1, 2, 3] o modMul))
def execVmacm (g : Nat) (o : LvOps) (s : State) : Result := .next (s.runGrain g (encLv2 0x39 o 0x03) (lvAccumulate [1, 2, 3] o montMul))
def execVred (g : Nat) (o : LvUnary) (s : State) : Result :=
  .next (s.runGrain g (encLv1 0x39 o 0x04) (lvInstr (legalUnary [1, 2, 3] [0] o) fun c G =>
    .ok (lvMap o (· % modulusOf G.ew o.modulus.toNat) c G)))

/-- The bits of `v` below `n` in reverse order. -/
def bitRev (n v : Nat) : Nat := (List.range n).foldl (fun acc i => 2 * acc + (v >>> i) % 2) 0

/-- MultiplyNTTs of FIPS 203 on pairs, with γi = 17^(2·BitRev7(i) + 1). -/
def multiplyNtts (x y : List Nat) : List Nat :=
  (List.range 128).flatMap fun i =>
    let a0 := (x[2 * i]?).getD 0
    let a1 := (x[2 * i + 1]?).getD 0
    let b0 := (y[2 * i]?).getD 0
    let b1 := (y[2 * i + 1]?).getD 0
    [(a0 * b0 + a1 * b1 % 3329 * powMod 17 (2 * bitRev 7 i + 1) 3329) % 3329, (a0 * b1 + a1 * b0) % 3329]

def execVkbmul (g : Nat) (o : LvOps) (s : State) : Result :=
  .next (s.runGrain g (encLv2 0x39 o 0x05) (lvInstr (fun c G => legalBinary [1] [0, 2] o c G && decide (G.regs.vl = 256 ∨ G.regs.vl = 0))
      fun c G => .ok ((shPlanes c o.sh).foldl (fun acc p =>
        acc.writeVec o.pred.toNat p (lreg o.dst) (multiplyNtts (G.vec p (lreg o.src1)) (G.vec .a (lreg o.src2)))) G)))

/-- The carry-less product of `a` and the low `n` bits of `b`. -/
def clmul (n a b : Nat) : Nat := (List.range n).foldl (fun acc i => if b.testBit i then acc ^^^ (a <<< i) else acc) 0

def execVclmullo (g : Nat) (o : LvOps) (s : State) : Result :=
  .next (s.runGrain g (encLv2 0x39 o 0x08) (lvInstr (fun c G => legalBinary [0] [0, 2] o c G && decide (G.ew = 32)) fun c G =>
    .ok (lvBinary true o (fun a b => clmul 32 a b % 2 ^ 32) c G)))
def execVclmulhi (g : Nat) (o : LvOps) (s : State) : Result :=
  .next (s.runGrain g (encLv2 0x39 o 0x09) (lvInstr (fun c G => legalBinary [0] [0, 2] o c G && decide (G.ew = 32)) fun c G =>
    .ok (lvBinary true o (fun a b => clmul 32 a b / 2 ^ 32) c G)))

/-- The degree and the polynomial of a GF(2^m) of R146. -/
def gfDegree (m : Nat) : Nat := if m = 4 then 12 else 13
def gfPoly (m : Nat) : Nat := if m = 4 then 0x1009 else 0x201B
/-- Reduce a product modulo the polynomial. -/
def gfReduce (m v : Nat) : Nat :=
  (List.range (gfDegree m)).foldr (fun i acc =>
    if acc.testBit (gfDegree m + i) then acc ^^^ (gfPoly m <<< i) else acc) v
/-- The product in GF(2^m); the bits above m are ignored. -/
def gfMul (m a b : Nat) : Nat :=
  let k := gfDegree m
  gfReduce m (clmul k (a % 2 ^ k) (b % 2 ^ k))
/-- The inverse in GF(2^m), as the power 2^m − 2; 0 gives 0. -/
def gfInv (m a : Nat) : Nat :=
  (List.range (gfDegree m - 1)).foldl (fun (acc : Nat × Nat) _ =>
    let sq := gfMul m acc.1 acc.1
    (sq, gfMul m acc.2 sq)) (a % 2 ^ gfDegree m, 1) |>.2

def execVgfmul (g : Nat) (o : LvOps) (s : State) : Result :=
  .next (s.runGrain g (encLv2 0x39 o 0x0A) (lvBinaryInstr [4, 5] [0, 2] true o fun _ => gfMul o.modulus.toNat))
def execVgfinv (g : Nat) (o : LvUnary) (trouble : GrainTrouble) (s : State) : Result :=
  .next (s.runGrain g (encLv1 0x39 o 0x0B) (lvInstr (legalUnary [4, 5] [0] o) (microcoded trouble fun c G =>
    .ok (lvMap o (gfInv o.modulus.toNat) c G))))

/-! Predicates (R159). -/

/-- A predicate operation: the register fields are 0 to 7 and the destination is not P0. -/
def predOp (dst src1 src2 : BitVec 4) (f : W128 → W128 → W128) : GrainOp :=
  lvInstr (fun _ _ => decide (1 ≤ dst.toNat ∧ dst.toNat ≤ 7 ∧ src1.toNat ≤ 7 ∧ src2.toNat ≤ 7)) fun _ G =>
    .ok (G.setP dst.toNat (f (G.p src1.toNat) (G.p src2.toNat)))

def execPand (g : Nat) (dst src1 src2 : BitVec 4) (s : State) : Result :=
  .next (s.runGrain g (encP dst src1 src2 0x10) (predOp dst src1 src2 (· &&& ·)))
def execPor (g : Nat) (dst src1 src2 : BitVec 4) (s : State) : Result :=
  .next (s.runGrain g (encP dst src1 src2 0x11) (predOp dst src1 src2 (· ||| ·)))
def execPxor (g : Nat) (dst src1 src2 : BitVec 4) (s : State) : Result :=
  .next (s.runGrain g (encP dst src1 src2 0x12) (predOp dst src1 src2 (· ^^^ ·)))
def execPandn (g : Nat) (dst src1 src2 : BitVec 4) (s : State) : Result :=
  .next (s.runGrain g (encP dst src1 src2 0x13) (predOp dst src1 src2 fun a b => a &&& ~~~b))
/-- PSETN: bit i of P(DST) is set for i below min(X(SRC1 field), 128). -/
def execPsetn (g : Nat) (dst src1 : BitVec 4) (s : State) : Result :=
  .next (s.runGrain g (encP dst src1 0 0x14) (lvInstr (fun _ _ => decide (1 ≤ dst.toNat ∧ dst.toNat ≤ 7)) fun _ G =>
    .ok (G.setP dst.toNat (BitVec.ofNat 128 (2 ^ min (G.x src1.toNat).toNat 128 - 1)))))
def execPcnt (g : Nat) (dst src1 : BitVec 4) (s : State) : Result :=
  .next (s.runGrain g (encP dst src1 0 0x15) (lvInstr (fun _ _ => decide (src1.toNat ≤ 7)) fun _ G =>
    .ok (G.setX dst.toNat (BitVec.ofNat 64 (popCount (G.p src1.toNat))))))

end Sys2Proof.Machine
end

