-- ==== Sys2Proof/Machine/Bne.lean ====
section
/-!
DEFINITION. Big-number engines: the grain's access to them (R135, R238) and the commands of an engine program with their
checks and times (R239 to R247).
-/
namespace Sys2Proof.Machine

/-! Access from a grain (R135). -/

/-- The SQ register of a logical engine. -/
def State.engineEvent (s : State) (n mask : Nat) : State :=
  match (s.quad (n / 16)).position (n % 16) with
  | some pos => s.event (.bne (18 * (n / 16) + pos)) mask
  | none => s

/-- The engine belongs to the job's tenant, is present, lies in the grain's quadrant and was not released by the job, and the
program has FLAGS.BNE (R135). -/
def State.mayAccess (s : State) (g n j : Nat) (job : Job) : Bool :=
  (s.grain g).header.flags.testBit 3 && decide (n < 64 ∧ n / 16 = g / 256) && s.enginePresent n &&
  (s.tenant job.tenant).tpt.bne.testBit n && !(s.engine n).released.contains j

/-- An engine that a job may use now: its own, or one that nobody holds. -/
def Engine.openTo (e : Engine) (j : Nat) : Bool :=
  decide (e.holder = some j) || (decide (e.holder = none) && decide (e.state = .idle))

/-- The engine as the job holds it. -/
def Engine.heldBy (e : Engine) (j : Nat) : Engine :=
  { e with holder := some j, state := if e.state = .idle then .held else e.state }

/-- A grain instruction on engine X(SRC2). An engine that another job holds, or that scrubs, makes it wait; a known-answer
test stops and the engine scrubs first (R247). -/
def State.runAccess (s : State) (g : Nat) (w : W32) (src2 : Reg)
    (f : Grain → Engine → Except Stop (Grain × Nat × Engine)) : State :=
  match s.fetching g w with
  | none => s
  | some (j, job) =>
    let n := ((s.grain g).x src2.toNat).toNat
    let e := s.engine n
    if s.mayAccess g n j job = false then s.stopGrain g j (.fault causeIllegal)
    else if e.state = .test then s.modEngine n fun x => { x with state := .scrub }
    else if e.openTo j = false then s
    else match f (s.grain g) (e.heldBy j) with
      | .ok (G', pc, e') =>
        (s.spend.modGrain g fun _ => G'.retire (Config.cyclesTaken s.free) pc).modEngine n fun _ => e'
      | .error err => s.stopGrain g j err

/-- BNPUT, BNGET and BNCMD wait while the engine runs a program. -/
def idleEngine (e : Engine) : Except Stop Unit := if e.state = .running then .error .wait else .ok ()

/-- An operand word. -/
def Engine.word (e : Engine) (i : Nat) : Nat := (e.words.get i 0).toNat
/-- Write an operand word. -/
def Engine.setWord (e : Engine) (i v : Nat) : Engine := { e with words := e.words.set i (BitVec.ofNat 4096 v) 0 }

def execBnput (g : Nat) (src1 src2 : Reg) (index : BitVec 6) (s : State) : Result :=
  .next (s.runAccess g (encA 0x2D 0 src1 src2 (funcBn 0 index)) src2 fun G e => do
    idleEngine e
    let a := (G.x src1.toNat).toNat
    need (a % 64 = 0 ∧ canRead a 512 = true) causeDmBounds
    .ok (G, G.next, e.setWord index.toNat (leNat (G.bytes a 512))))
def execBnget (g : Nat) (src1 src2 : Reg) (index : BitVec 6) (s : State) : Result :=
  .next (s.runAccess g (encA 0x2D 0 src1 src2 (funcBn 1 index)) src2 fun G e => do
    idleEngine e
    let a := (G.x src1.toNat).toNat
    need (a % 64 = 0 ∧ canWrite a 512 = true) causeDmBounds
    .ok (G.store a (leBytes 512 (e.word index.toNat)), G.next, e))

/-- Write 64 command entries from entry `k`. -/
def loadCommands (m : Map W64) (k : Nat) (v : Nat) : Map W64 :=
  (List.range 64).foldl (fun m i => m.set (k + i) (BitVec.ofNat 64 (v >>> (64 * i))) 0) m

def execBncmd (g : Nat) (src1 src2 : Reg) (index : BitVec 6) (s : State) : Result :=
  .next (s.runAccess g (encA 0x2D 0 src1 src2 (funcBn 2 index)) src2 fun G e => do
    need (index.toNat ≤ 7) causeIllegal
    idleEngine e
    let a := (G.x src1.toNat).toNat
    need (a % 64 = 0 ∧ canRead a 512 = true) causeDmBounds
    .ok (G, G.next, { e with cmds := loadCommands e.cmds (64 * index.toNat) (leNat (G.bytes a 512)) }))
/-- BNGO: the program starts at entry X(SRC1); its status is clear. A program that runs makes it wait. -/
def execBngo (g : Nat) (src1 src2 : Reg) (s : State) : Result :=
  .next (s.runAccess g (encA 0x2D 0 src1 src2 0x003) src2 fun G e => do
    idleEngine e
    .ok (G, G.next, { e with
      state := .running
      pc := (G.x src1.toNat).toNat
      status := 0
      progs := satAdd 0xFFFFFFFF e.progs 1 }))
/-- BNWAIT: waits for the end of the program; X(DST) takes its status. -/
def execBnwait (g : Nat) (dst src2 : Reg) (s : State) : Result :=
  .next (s.runAccess g (encA 0x2D dst 0 src2 0x004) src2 fun G e => do
    idleEngine e
    .ok (G.setX dst.toNat (BitVec.ofNat 64 e.status), G.next, e))
/-- BNREL: waits for the program's end, then the engine is released and scrubs; the job may not reach it again. -/
def execBnrel (g : Nat) (src2 : Reg) (s : State) : Result :=
  .next (s.runAccess g (encA 0x2D 0 0 src2 0x005) src2 fun G e => do
    idleEngine e
    .ok (G, G.next, { e with
      state := .scrub
      holder := none
      reserved := if e.reserved = e.holder then none else e.reserved
      released := e.released ++ e.holder.toList }))

/-- The unit number of an engine in the tests of R464. -/
def engineUnit (n : Nat) : Nat := 1024 + n

/-- The engine has failed a known-answer test, which repeats at once (R466). -/
def State.engineRepeats (s : State) (n : Nat) : Bool := (s.obs.tests.get (engineUnit n) {}).repeated

/-- The end of an engine's scrub (R238): the command memory stays. A test that repeats starts again. -/
def execBneScrubDone (n : Nat) (s : State) : Result :=
  .next (if (s.engine n).state = .scrub then
    s.modEngine n fun e => { e with
      state := if s.engineRepeats n then .test else .idle
      holder := none, words := [], mods := [], acc := 0, counters := [], status := 0, secretRun := false }
  else s)

/-! Engine programs. -/

/-- Statuses of R244. -/
def bnInputInvalid : Nat := 0x0300
def bnNoncanonical : Nat := 0x0301
def bnInverseNone : Nat := 0x0302
def bnBadCommand : Nat := 0x0F01

/-- The status holds the first value set in program order. -/
def Engine.flag (e : Engine) (v : Nat) : Engine := if e.status = 0 then { e with status := v } else e

/-- An engine command: none is a bad command (R243). -/
abbrev EngineOp := Engine → Option Engine

/-- A bad command stops the program, with its status unless one is set, and its event. -/
def State.badCommand (s : State) (n : Nat) : State :=
  (s.modEngine n fun e => { e.flag bnBadCommand with state := .held }).engineEvent n 2

/-- Engine `n` runs the command of entry `w`: nothing happens unless its program runs and stands at this entry. -/
def State.runEngine (s : State) (n : Nat) (w : W64) (cycles : Engine → Nat) (f : EngineOp) : State :=
  let e := s.engine n
  if e.state = .running ∧ e.pc ≤ 511 ∧ e.cmds.get e.pc 0 = w then
    match f { e with pc := e.pc + 1 } with
    | some e' => s.modEngine n fun _ => { e' with busy := e'.busy + cycles e }
    | none => s.badCommand n
  else s

/-- A modulus with its class in bits and its form; `valid` is false for a register whose value failed R240. -/
structure Modul where
  m : Nat
  cls : Nat
  half : Bool
  valid : Bool
  mod : Bool
  deriving DecidableEq, Repr

/-- The length of a modulus in bits. -/
def Modul.len (m : Modul) : Nat := if m.half then m.cls / 2 else m.cls
/-- A full-form MOD register. -/
def Modul.full (m : Modul) : Bool := m.mod && !m.half

def p256 : Nat := 2 ^ 256 - 2 ^ 224 + 2 ^ 192 + 2 ^ 96 - 1
def n256 : Nat := 0xFFFFFFFF00000000FFFFFFFFFFFFFFFFBCE6FAADA7179E84F3B9CAC2FC632551
def p384 : Nat := 2 ^ 384 - 2 ^ 128 - 2 ^ 96 + 2 ^ 32 - 1
def n384 : Nat := 0xFFFFFFFFFFFFFFFFFFFFFFFFFFFFFFFFFFFFFFFFFFFFFFFFC7634D81F4372DDF581A0DB248B0A77AECEC196ACCC52973
def p521 : Nat := 2 ^ 521 - 1
def n521 : Nat :=
  2 ^ 521 - 2 ^ 260 + 0xA51868783BF2F966B7FCC0148F709A5D03BB5C9B8899C47AEBB6FB71E91386409
def p25519 : Nat := 2 ^ 255 - 19
def l25519 : Nat := 2 ^ 252 + 27742317777372353535851937790883648493
def p448 : Nat := 2 ^ 448 - 2 ^ 224 - 1
def l448 : Nat := 2 ^ 446 - 13818066809895115352007386748515426880336692474882178609894547503885

/-- The modulus of a PSET (R239); none where it is reserved or its register was never loaded. -/
def Engine.modul (e : Engine) (pset : BitVec 4) : Option Modul :=
  let fixed := fun m cls => some (⟨m, cls, false, true, false⟩ : Modul)
  match pset.toNat with
  | 0 => fixed p256 256
  | 1 => fixed n256 256
  | 2 => fixed p384 384
  | 3 => fixed n384 384
  | 4 => fixed p521 576
  | 5 => fixed n521 576
  | 6 => fixed p25519 256
  | 7 => fixed l25519 256
  | 8 => fixed p448 448
  | 9 => fixed l448 448
  | 10 | 11 => none
  | k => (e.mods.find? (k - 12)).map fun r => ⟨r.value, r.bits, r.half, r.valid, true⟩

/-- The column of R245: 0 to 3 for the curve classes, 4 to 6 for the RSA classes. -/
def timeColumn (cls : Nat) : Nat :=
  if cls ≤ 256 then 0 else if cls ≤ 384 then 1 else if cls ≤ 448 then 2 else if cls ≤ 576 then 3
  else if cls ≤ 2048 then 4 else if cls ≤ 3072 then 5 else 6

/-- A row of R245: the figures of the full form, and of the half form for the RSA classes. -/
def timeOf (full half : List Nat) (pset : BitVec 4) (e : Engine) : Nat :=
  match e.modul pset with
  | some m => ((if m.half then half else full)[timeColumn m.cls]?).getD 0
  | none => 0

def timeAdd := timeOf [3, 4, 4, 5, 12, 18, 24] [0, 0, 0, 0, 6, 9, 12]
def timeMul := timeOf [15, 28, 40, 66, 188, 390, 744] [0, 0, 0, 0, 94, 195, 372]
def timeRed := timeOf [31, 58, 82, 134, 380, 790, 1500] [0, 0, 0, 0, 190, 395, 750]
def timeInv := timeOf [4360, 10688, 19000, 35970, 0, 0, 0] [0, 0, 0, 0, 99000, 305000, 780000]
def timeExp := timeOf [6410, 17420, 26360, 49304, 153796, 468590, 1179440] [0, 0, 0, 0, 153796, 468590, 1179440]
def timeBlind := timeOf [6, 8, 8, 10, 20, 30, 40] [0, 0, 0, 0, 10, 15, 20]
/-- The time of a command without PSET. -/
def timeFixed (n : Nat) (_ : Engine) : Nat := n

/-- A modular command: a register that failed its check makes it write 0, an operand at or above its bound writes 0 and sets
NONCANONICAL, and otherwise `f` gives the result with the status it sets. -/
def modular (pset : BitVec 4) (d : BitVec 6) (operands : List Nat) (f : Modul → Nat × Nat) : EngineOp := fun e =>
  match e.modul pset with
  | none => none
  | some m =>
    if m.valid = false then some (e.setWord d.toNat 0)
    else if operands.any (fun x => decide (m.m ≤ x)) then some ((e.setWord d.toNat 0).flag bnNoncanonical)
    else
      let r := f m
      some (if r.2 = 0 then e.setWord d.toNat r.1 else (e.setWord d.toNat r.1).flag r.2)

def execModadd (n : Nat) (d a b : BitVec 6) (pset : BitVec 4) (s : State) : Result :=
  .next (s.runEngine n (encCmd 0x01 d a b pset false 0) (timeAdd pset) fun e =>
    let x := e.word a.toNat
    let y := e.word b.toNat
    modular pset d [x, y] (fun m => ((x + y) % m.m, 0)) e)
def execModsub (n : Nat) (d a b : BitVec 6) (pset : BitVec 4) (s : State) : Result :=
  .next (s.runEngine n (encCmd 0x02 d a b pset false 0) (timeAdd pset) fun e =>
    let x := e.word a.toNat
    let y := e.word b.toNat
    modular pset d [x, y] (fun m => ((x + m.m - y) % m.m, 0)) e)
def execModmul (n : Nat) (d a b : BitVec 6) (pset : BitVec 4) (s : State) : Result :=
  .next (s.runEngine n (encCmd 0x03 d a b pset false 0) (timeMul pset) fun e =>
    let x := e.word a.toNat
    let y := e.word b.toNat
    modular pset d [x, y] (fun m => (x * y % m.m, 0)) e)
def execModsqr (n : Nat) (d a : BitVec 6) (pset : BitVec 4) (s : State) : Result :=
  .next (s.runEngine n (encCmd 0x04 d a 0 pset false 0) (timeMul pset) fun e =>
    let x := e.word a.toNat
    modular pset d [x] (fun m => (x * x % m.m, 0)) e)
/-- MODINV is not permitted on a full-form MOD register; the inverse of 0 is 0 with INVERSE_NONE. -/
def execModinv (n : Nat) (d a : BitVec 6) (pset : BitVec 4) (s : State) : Result :=
  .next (s.runEngine n (encCmd 0x05 d a 0 pset false 0) (timeInv pset) fun e =>
    let x := e.word a.toNat
    if (e.modul pset).any Modul.full then none
    else modular pset d [x] (fun m => if x = 0 then (0, bnInverseNone) else (powMod x (m.m - 2) m.m, 0)) e)

/-- The primes of a CRT exponentiation: MOD(k + 1) and MOD(k + 2), both of the half form and of the class of MODk. -/
def Engine.crtPrimes (e : Engine) (pset : BitVec 4) : Option (Modul × Modul × Modul) :=
  match pset.toNat with
  | 12 | 13 =>
    match e.modul pset, e.modul (pset + 1), e.modul (pset + 2) with
    | some n, some p, some q =>
      if n.half = false ∧ p.half = true ∧ q.half = true ∧ p.cls = n.cls ∧ q.cls = n.cls then some (n, p, q) else none
    | _, _, _ => none
  | _ => none

/-- One half of an exponentiation: an exponent of 0 gives 1. -/
def expMod (b x m : Nat) : Nat := if x = 0 then 1 else powMod b x m

/-- MODEXP. The blinding word changes no result. With X = 0 a full-form MOD register is not permitted, and an exponent with a
bit above its length writes 0 and sets NONCANONICAL. -/
def execModexp (n : Nat) (d a b : BitVec 6) (pset : BitVec 4) (crt : Bool) (blind : BitVec 6) (s : State) : Result :=
  .next (s.runEngine n (encCmd 0x06 d a b pset crt (blind.setWidth 32)) (timeExp pset) fun e =>
    let x := e.word a.toNat
    let y := e.word b.toNat
    if crt then
      match e.crtPrimes pset with
      | none => none
      | some (nm, p, q) =>
        if (nm.valid && p.valid && q.valid) = false then some (e.setWord d.toNat 0)
        else if nm.m ≤ x ∨ 2 ^ p.len ≤ y % 2 ^ 2048 ∨ 2 ^ q.len ≤ y / 2 ^ 2048 then
          some ((e.setWord d.toNat 0).flag bnNoncanonical)
        else some (e.setWord d.toNat (expMod x (y % 2 ^ 2048) p.m + 2 ^ 2048 * expMod x (y / 2 ^ 2048) q.m))
    else if (e.modul pset).any Modul.full then none
    else modular pset d [x] (fun m => if 2 ^ m.len ≤ y then (0, bnNoncanonical) else (expMod x y m.m, 0)) e)

/-- MODRED: len is 1 to 2 × class and off + len at most 4,096, or the command is bad. -/
def execModred (n : Nat) (d a : BitVec 6) (pset : BitVec 4) (off len : Half) (s : State) : Result :=
  .next (s.runEngine n (encCmd 0x07 d a 0 pset false (len ++ off)) (timeRed pset) fun e =>
    if len.toNat = 0 ∨ (e.modul pset).any (fun m => decide (2 * m.cls < len.toNat)) ∨ 4096 < off.toNat + len.toNat then none
    else modular pset d [] (fun m => (e.word a.toNat / 2 ^ off.toNat % 2 ^ len.toNat % m.m, 0)) e)
/-- BLIND: A + c · m with c = 3 · 2^63 + 63 bits of B, not reduced. -/
def execBlind (n : Nat) (d a b : BitVec 6) (pset : BitVec 4) (off : Half) (s : State) : Result :=
  .next (s.runEngine n (encCmd 0x08 d a b pset false (off.setWidth 32)) (timeBlind pset) fun e =>
    if 4096 < off.toNat + 63 then none
    else modular pset d [] (fun m =>
      (e.word a.toNat + (3 * 2 ^ 63 + e.word b.toNat / 2 ^ off.toNat % 2 ^ 63) * m.m, 0)) e)

/-- The class of SETMOD: 2,048, 3,072 or 4,096 bits. -/
def setmodClass (cls : BitVec 2) : Nat := 2048 + 1024 * cls.toNat

/-- SETMOD: the value must be odd and exactly as long as its class and form say. -/
def execSetmod (n : Nat) (a : BitVec 6) (pset : BitVec 4) (cls : BitVec 2) (half : Bool) (s : State) : Result :=
  .next (s.runEngine n (encCmd 0x09 0 a 0 pset half (cls.setWidth 32)) (timeFixed (60 + 30 * cls.toNat)) fun e =>
    if pset.toNat < 12 ∨ cls = 3 then none
    else
      let v := e.word a.toNat
      let len := if half then setmodClass cls / 2 else setmodClass cls
      let good := v % 2 = 1 ∧ v / 2 ^ (len - 1) = 1
      let e' := { e with mods := e.mods.insert (pset.toNat - 12) ⟨v, setmodClass cls, half, good⟩ }
      some (if good then e' else e'.flag bnInputInvalid))

def execRawclr (n : Nat) (s : State) : Result :=
  .next (s.runEngine n (encCmd 0x10 0 0 0 0 false 0) (timeFixed 1) fun e => some { e with acc := 0 })

/-- Limb t of a word (R237). -/
def limb (w t : Nat) : Nat := w / 2 ^ (256 * t) % 2 ^ 256

/-- RAWMAC: k is 0 to 2. -/
def execRawmac (n : Nat) (a b : BitVec 6) (i j : BitVec 4) (k : BitVec 2) (s : State) : Result :=
  .next (s.runEngine n (encCmd 0x11 0 a b 0 false ((0 : BitVec 22) ++ k ++ j ++ i)) (timeFixed 4) fun e =>
    if k = 3 then none
    else
      let v := limb (e.word a.toNat) i.toNat * limb (e.word b.toNat) j.toNat * 2 ^ (256 * k.toNat)
      some { e with acc := e.acc + BitVec.ofNat 1024 v })
def execRawout (n : Nat) (d : BitVec 6) (t : BitVec 4) (s : State) : Result :=
  .next (s.runEngine n (encCmd 0x12 d 0 0 0 false (t.setWidth 32)) (timeFixed 2) fun e =>
    let w := e.word d.toNat
    let v := w - limb w t.toNat * 2 ^ (256 * t.toNat) + e.acc.toNat % 2 ^ 256 * 2 ^ (256 * t.toNat)
    some { e.setWord d.toNat v with acc := e.acc >>> 256 })
def execJoin (n : Nat) (d a b : BitVec 6) (x : Bool) (s : State) : Result :=
  .next (s.runEngine n (encCmd 0x18 d a b 0 x 0) (timeFixed 4) fun e =>
    let w := e.word a.toNat
    let v := (w % 2 ^ 2048) ^^^ (w / 2 ^ 2048)
    some (e.setWord d.toNat (if x then v ^^^ (e.word b.toNat % 2 ^ 2048) else v)))
def execCopy (n : Nat) (d a : BitVec 6) (s : State) : Result :=
  .next (s.runEngine n (encCmd 0x19 d a 0 0 false 0) (timeFixed 4) fun e => some (e.setWord d.toNat (e.word a.toNat)))
/-- REVB: n is 1 to 512. -/
def execRevb (n : Nat) (d a : BitVec 6) (len : BitVec 10) (s : State) : Result :=
  .next (s.runEngine n (encCmd 0x1A d a 0 0 false (len.setWidth 32)) (timeFixed 4) fun e =>
    if len = 0 ∨ 512 < len.toNat then none
    else some (e.setWord d.toNat (beNat (leBytes len.toNat (e.word a.toNat)))))
/-- A counter (R236). -/
def Engine.counter (e : Engine) (k : BitVec 2) : Nat := (e.counters.get k.toNat 0).toNat
/-- CSWAP: the bit of W(B) that the counter names decides the swap. -/
def execCswap (n : Nat) (d a b : BitVec 6) (counter : BitVec 2) (s : State) : Result :=
  .next (s.runEngine n (encCmd 0x1B d a b 0 false ((0 : BitVec 18) ++ counter ++ (0 : BitVec 12))) (timeFixed 2) fun e =>
    some (if (e.word b.toNat).testBit (e.counter counter) then
      (e.setWord d.toNat (e.word a.toNat)).setWord a.toNat (e.word d.toNat) else e))
def execSetc (n : Nat) (counter : BitVec 2) (value : BitVec 12) (s : State) : Result :=
  .next (s.runEngine n (encCmd 0x1C 0 0 0 0 false ((0 : BitVec 18) ++ counter ++ value)) (timeFixed 1) fun e =>
    some { e with counters := e.counters.set counter.toNat value 0 })
def execDjnz (n : Nat) (counter : BitVec 2) (target : BitVec 9) (s : State) : Result :=
  .next (s.runEngine n (encCmd 0x1D 0 0 0 0 false ((0 : BitVec 18) ++ counter ++ (0 : BitVec 3) ++ target)) (timeFixed 1)
    fun e =>
      some (if e.counter counter = 0 then e
        else { e with
          counters := e.counters.set counter.toNat (BitVec.ofNat 12 (e.counter counter - 1)) 0
          pc := target.toNat }))
/-- The statuses that a check command may set. -/
def checkStatus (v : Half) : Bool := decide (v.toNat = 0x0303 ∨ v.toNat = 0x0503 ∨ v.toNat = 0x0F00)
def execChkeq (n : Nat) (a b : BitVec 6) (value : Half) (s : State) : Result :=
  .next (s.runEngine n (encCmd 0x1E 0 a b 0 false (value.setWidth 32)) (timeFixed 3) fun e =>
    if checkStatus value = false then none
    else some (if e.word a.toNat ≠ e.word b.toNat then e.flag value.toNat else e))
def execChknz (n : Nat) (a : BitVec 6) (value : Half) (s : State) : Result :=
  .next (s.runEngine n (encCmd 0x1F 0 a 0 0 false (value.setWidth 32)) (timeFixed 3) fun e =>
    if checkStatus value = false then none
    else some (if e.word a.toNat = 0 then e.flag value.toNat else e))
def execLdi (n : Nat) (d : BitVec 6) (value : W32) (s : State) : Result :=
  .next (s.runEngine n (encCmd 0x20 d 0 0 0 false value) (timeFixed 4) fun e => some (e.setWord d.toNat value.toNat))
/-- END: the program ends and its status is there for BNWAIT. -/
def execBnEnd (n : Nat) (s : State) : Result :=
  .next (s.runEngine n (encCmd 0x00 0 0 0 0 false 0) (timeFixed 1) fun e => some { e with state := .held })

/-- The fixed bits of an entry: the opcode, the reserved bits 35:33, and the fields that the command does not use. -/
def cmdRow (opc vary : Nat) : Nat × Nat := ((2 ^ 64 - 1) ^^^ vary, opc * 2 ^ 58)
def cD : Nat := 0x3F * 2 ^ 52
def cA : Nat := 0x3F * 2 ^ 46
def cB : Nat := 0x3F * 2 ^ 40
def cP : Nat := 0xF * 2 ^ 36
def cX : Nat := 2 ^ 32

/-- The assigned command encodings (R241, R242). -/
def cmdRows : List (Nat × Nat) :=
  [cmdRow 0x00 0, cmdRow 0x01 (cD + cA + cB + cP), cmdRow 0x02 (cD + cA + cB + cP), cmdRow 0x03 (cD + cA + cB + cP),
   cmdRow 0x04 (cD + cA + cP), cmdRow 0x05 (cD + cA + cP), cmdRow 0x06 (cD + cA + cB + cP + cX + 0x3F),
   cmdRow 0x07 (cD + cA + cP + 0xFFFFFFFF), cmdRow 0x08 (cD + cA + cB + cP + 0xFFFF), cmdRow 0x09 (cA + cP + cX + 3),
   cmdRow 0x10 0, cmdRow 0x11 (cA + cB + 0x3FF), cmdRow 0x12 (cD + 0xF), cmdRow 0x18 (cD + cA + cB + cX),
   cmdRow 0x19 (cD + cA), cmdRow 0x1A (cD + cA + 0x3FF), cmdRow 0x1B (cD + cA + cB + 0x3000), cmdRow 0x1C 0x3FFF,
   cmdRow 0x1D 0x31FF, cmdRow 0x1E (cA + cB + 0xFFFF), cmdRow 0x1F (cA + 0xFFFF), cmdRow 0x20 (cD + 0xFFFFFFFF)]

/-- An entry with an assigned opcode and its reserved fields 0. -/
def assignedCommand (w : W64) : Bool := cmdRows.any fun r => decide (w.toNat &&& r.1 = r.2)

/-- BAD_COMMAND: the program stands past entry 511 or at an entry that is no command. -/
def execBadCommand (n : Nat) (s : State) : Result :=
  let e := s.engine n
  .next (if e.state = .running ∧ (511 < e.pc ∨ assignedCommand (e.cmds.get e.pc 0) = false) then s.badCommand n else s)

end Sys2Proof.Machine
end

