-- ==== Sys2Proof/Machine/OpTable.lean ====
section
/-!
DEFINITION. The operation codes (R59): which operation a code names (R196, R216, R248, R267, R294, R313, R321, R428), the
key forms and PARAM fields it takes (R197, R222, R248, R269), its lengths (R58, R204, R251, R271, R295, R313) and what it
asks of its keys (R198 to R201, R250, R267, R313, R364).
-/
namespace Sys2Proof.Machine

/-- The operations of a descriptor's OPCODE. -/
inductive OpKind where
  | nop | mctp
  | kemKeygen | kemEncaps | kemDecaps
  | dsaKeygen | dsaSign (hedged pre : Bool) | dsaVerify (pre : Bool)
  | fnKeygen | fnSign (pre : Bool) | fnVerify (pre : Bool)
  | compSign | compVerify
  | slhKeygen | slhSign (hedged pre : Bool) | slhVerify (pre : Bool)
  | hssKeygen | hssSign | hssVerify | lmsVerify
  | xmssKeygen | xmssSign | xmssVerify | xmssMtVerify
  | hqcKeygen | hqcEncaps | hqcDecaps | mceEncaps | mceDecaps
  | ecdsaKeygen | ecdsaSign (digest : Bool) | ecdsaVerify (digest : Bool)
  | eddsaKeygen | eddsaSign | eddsaVerify
  | kaKeygen | kaDerive
  | pssSign | oaepDecrypt | oaepEncrypt | pssVerify | v15Verify
  | hash | hmac (verify : Bool) | kmac (verify : Bool)
  | aes (decrypt : Bool) | tdes (decrypt : Bool) | cmac (verify : Bool) | wrap (unwrap : Bool)
  | pinTranslate | pinCompare | mac3 (verify : Bool)
  | dukptInitial | dukptPin | dukptCmac (verify : Bool)
  | blockImport | blockExport
  | random (predict : Bool) | entropy
  | slotPrepare | symGenerate | importPublic | importWrapped | importBlob | exportBlob | derive | readPublic
  | ctxOpen | ctxStep | ctxClose | ctxDiscard
  | extension
  deriving DecidableEq, Repr

/-- OPCODE[7:4]. -/
def setOf (code : Nat) : Nat := bits code 7 4

/-- The operation of a scheme's low nibble, if the set is one of `sets`. -/
def pickOp (code : Nat) (rows : List (Nat × List Nat × OpKind)) : Option OpKind :=
  (rows.find? fun r => decide (r.1 = bits code 3 0) && r.2.1.contains (setOf code)).map fun r => r.2.2

/-- Groups 0x1 to 0x3 (R196, R216, R217). -/
def opPq (code : Nat) : Option OpKind :=
  let upTo := fun n => (List.range n).map (· + 1)
  match bits code 15 8 with
  | 0x11 => pickOp code [(0, upTo 3, .kemKeygen), (1, upTo 3, .kemEncaps), (2, upTo 3, .kemDecaps)]
  | 0x12 => pickOp code [(0, upTo 3, .dsaKeygen), (1, upTo 3, .dsaSign true false), (2, upTo 3, .dsaSign false false),
      (3, upTo 3, .dsaSign true true), (4, upTo 3, .dsaSign false true), (5, upTo 3, .dsaVerify false),
      (6, upTo 3, .dsaVerify true)]
  | 0x13 => pickOp code [(0, upTo 2, .fnKeygen), (1, upTo 2, .fnSign false), (3, upTo 2, .fnSign true),
      (5, upTo 2, .fnVerify false), (6, upTo 2, .fnVerify true)]
  | 0x14 => pickOp code [(1, upTo 3, .compSign), (5, upTo 3, .compVerify)]
  | 0x21 =>
    let signing := [1, 2, 5, 6, 7, 8]
    pickOp code [(0, signing, .slhKeygen), (1, signing, .slhSign true false), (2, signing, .slhSign false false),
      (3, signing, .slhSign true true), (4, signing, .slhSign false true), (5, upTo 8, .slhVerify false),
      (6, upTo 8, .slhVerify true)]
  | 0x22 => pickOp code [(0, upTo 4, .hssKeygen), (1, upTo 4, .hssSign), (5, upTo 4, .hssVerify), (6, upTo 4, .lmsVerify)]
  | 0x23 => pickOp code [(0, upTo 4, .xmssKeygen), (1, upTo 4, .xmssSign), (5, upTo 4, .xmssVerify),
      (6, upTo 4, .xmssMtVerify)]
  | 0x31 => pickOp code [(0, upTo 3, .hqcKeygen), (1, upTo 3, .hqcEncaps), (2, upTo 3, .hqcDecaps)]
  | 0x32 => pickOp code [(1, upTo 4, .mceEncaps), (2, upTo 4, .mceDecaps)]
  | _ => none

/-- Groups 0x4 to 0x6 (R248, R267). -/
def opClassic (code : Nat) : Option OpKind :=
  let upTo := fun n => (List.range n).map (· + 1)
  match bits code 15 8 with
  | 0x41 => pickOp code [(0, upTo 3, .ecdsaKeygen), (1, upTo 3, .ecdsaSign false), (2, upTo 3, .ecdsaSign true),
      (5, upTo 3, .ecdsaVerify false), (6, upTo 3, .ecdsaVerify true)]
  | 0x42 => pickOp code [(0, upTo 2, .eddsaKeygen), (1, upTo 2, .eddsaSign), (5, upTo 2, .eddsaVerify)]
  | 0x43 => pickOp code [(0, upTo 5, .kaKeygen), (2, upTo 5, .kaDerive)]
  | 0x44 => pickOp code [(1, upTo 3, .pssSign), (3, upTo 3, .oaepDecrypt), (4, upTo 3, .oaepEncrypt),
      (5, upTo 3, .pssVerify), (6, upTo 3, .v15Verify)]
  | 0x51 => pickOp code [(0, upTo 11, .hash)]
  | 0x52 => pickOp code [(0, upTo 5, .hmac false), (1, upTo 5, .hmac true)]
  | 0x53 => pickOp code [(0, upTo 2, .kmac false), (1, upTo 2, .kmac true)]
  | 0x54 => pickOp code [(0, upTo 6, .aes false), (1, upTo 6, .aes true)]
  | 0x55 => pickOp code [(0, upTo 2, .tdes false), (1, upTo 2, .tdes true)]
  | 0x56 => pickOp code [(0, upTo 2, .cmac false), (1, upTo 2, .cmac true)]
  | 0x57 => pickOp code [(0, upTo 3, .wrap false), (1, upTo 3, .wrap true)]
  | 0x61 => pickOp code [(0, [1], .pinTranslate), (1, [1], .pinCompare)]
  | 0x62 => pickOp code [(0, [1], .mac3 false), (1, [1], .mac3 true)]
  | 0x63 => pickOp code [(0, [1], .dukptInitial), (1, [1], .dukptPin), (2, [1], .dukptCmac false), (3, [1], .dukptCmac true)]
  | 0x64 => pickOp code [(0, [1], .blockImport), (1, [1], .blockExport)]
  | _ => none

/-- Groups 0x0 and 0x7 to 0x9 (R59, R294, R313, R321, R428). -/
def opRest (code : Nat) : Option OpKind :=
  match code with
  | 0x0000 => some .nop
  | 0x0100 => some .mctp
  | 0x7100 => some (.random false)
  | 0x7101 => some (.random true)
  | 0x7200 => some .entropy
  | 0x8100 => some .slotPrepare
  | 0x8200 => some .symGenerate
  | 0x8300 => some .importPublic
  | 0x8301 => some .importWrapped
  | 0x8302 => some .importBlob
  | 0x8400 => some .exportBlob
  | 0x8500 => some .derive
  | 0x8600 => some .readPublic
  | 0x9100 => some .ctxOpen
  | 0x9101 => some .ctxStep
  | 0x9102 => some .ctxClose
  | 0x9103 => some .ctxDiscard
  | _ => none

/-- The operation a code names; group 0xF names the owner extensions of the tilth record (R364). -/
def Tilth.opKind (t : Tilth) (code : Nat) : Option OpKind :=
  match bits code 15 12 with
  | 0x1 | 0x2 | 0x3 => opPq code
  | 0x4 | 0x5 | 0x6 => opClassic code
  | 0xF => if t.extensions.any fun e => decide (e.1 = code) then some .extension else none
  | _ => opRest code

/-- The index and the program of the owner extension bound to a code (R364). -/
def Tilth.extensionOf (t : Tilth) (code : Nat) : Option (Nat × Program) :=
  match t.extensions.findIdx? fun e => decide (e.1 = code) with
  | some i => (t.extensions[i]?).map fun e => (i, e.2)
  | none => none

/-! PARAM (R197, R222, R248, R269). -/

def pCtxLen (p : Nat) : Nat := bits p 7 0
def pPh (p : Nat) : Nat := bits p 11 8
def pKeep (p : Nat) : Bool := bit p 12
def pSigLen (p : Nat) : Nat := bits p 27 16
def pAux (p : Nat) : Nat := bits p 15 0
def pPanLen (p : Nat) : Nat := bits p 20 16
def pOlen (p : Nat) : Nat := bits p 47 32
def pFmtIn (p : Nat) : Nat := bits p 51 48
def pFmtOut (p : Nat) : Nat := bits p 55 52
def pIvgen (p : Nat) : Bool := bit p 56
def pPad2 (p : Nat) : Bool := bit p 57
def pDkType (p : Nat) : Nat := bits p 59 58

/-- Only the bits of `mask` may be set. -/
def within (p mask : Nat) : Bool := decide (p &&& mask = p)

/-- The digest length of a PH value (R206). -/
def phBytes (ph : Nat) : Nat := match ph with | 0 | 3 | 6 => 32 | 1 | 4 => 48 | _ => 64

/-- The digest length of R257's ALG 0x00 to 0x08. -/
def algBytes (alg : Nat) : Nat :=
  match alg with | 0 => 28 | 1 => 32 | 2 => 48 | 3 => 64 | 4 => 32 | 5 => 28 | 6 => 32 | 7 => 48 | _ => 64

/-- A PIN block format (R269). -/
def pinFormat (f : Nat) : Bool := decide (f = 0 ∨ f = 1 ∨ f = 3 ∨ f = 4)

/-- The format pairs of R274. -/
def pinPair (i o : Nat) : Bool :=
  match i, o with
  | 0, 0 | 0, 3 | 0, 4 | 1, 0 | 1, 1 | 1, 3 | 1, 4 | 3, 0 | 3, 3 | 3, 4 | 4, 0 | 4, 3 | 4, 4 => true
  | _, _ => false

/-- PAN_LEN: 12 to 19, or 0 when both formats are 1 (R269). -/
def panOk (i o n : Nat) : Bool := decide ((12 ≤ n ∧ n ≤ 19) ∨ (n = 0 ∧ i = 1 ∧ o = 1))

/-- A class holds a key pair whose public key the device keeps (R311). -/
def pairClass (c : Nat) : Bool :=
  [0x11, 0x12, 0x13, 0x21, 0x22, 0x23, 0x31, 0x32, 0x41, 0x42, 0x43, 0x44, 0x45, 0x46, 0x47, 0x48, 0x51, 0x52, 0x53, 0x54,
   0x59, 0x5A, 0x5B, 0x5C, 0x61, 0x62, 0x63, 0x69, 0x6A, 0x6B, 0x6C, 0x71, 0x72, 0x73, 0x74, 0x75, 0x76, 0x77, 0x79, 0x7A,
   0x7B].contains c

/-- The classes 0x8c to 0xCc, by key kind (R311). -/
def cipherClasses (hi : Nat) : List Nat := [1, 2, 3, 5, 6].map fun c => 16 * hi + c

/-- The symmetric classes of R311, 0x8c to 0xF4. -/
def symClasses : List Nat :=
  [8, 9, 10, 11, 12].flatMap cipherClasses ++
  [0xD1, 0xD2, 0xD3, 0xE1, 0xE2, 0xE3, 0xE4, 0xE5, 0xE8, 0xE9, 0xF1, 0xF2, 0xF3, 0xF4]

/-- Every class of R311. -/
def classOk (c : Nat) : Bool := pairClass c || symClasses.contains c

/-- Stateful hash-based classes (R311). -/
def statefulClass (c : Nat) : Bool := decide ((0x51 ≤ c ∧ c ≤ 0x54) ∨ (0x59 ≤ c ∧ c ≤ 0x5C))

/-- The curve class of ECDSA, EdDSA or key agreement sets (R311). -/
def kaClass (s : Nat) : Nat := match s with | 4 => 0x76 | 5 => 0x77 | _ => 0x70 + s
def compClass (s : Nat) : Nat := if s = 3 then 0x72 else 0x71

/-- The bytes LEN of a class's slot secret; 0 where R311 gives a range. -/
def classLen (c : Nat) : Nat :=
  match c with
  | 0x21 | 0x22 | 0x23 => 32
  | 0x41 | 0x42 | 0x45 | 0x46 => 32
  | 0x43 | 0x47 => 48
  | 0x44 | 0x48 => 64
  | 0x51 | 0x53 => 48
  | 0x52 | 0x54 => 40
  | 0x59 | 0x5B => 64
  | 0x5A | 0x5C => 48
  | 0x71 | 0x74 | 0x76 => 32
  | 0x72 => 48
  | 0x75 => 57
  | 0x77 => 56
  | 0xD1 | 0xF1 => if c = 0xD1 then 16 else 32
  | 0xD2 => 24
  | 0xD3 => 32
  | 0xF2 => 64
  | 0xE1 | 0xE2 | 0xE3 | 0xE4 | 0xE5 | 0xE8 | 0xE9 | 0xF3 | 0xF4 => 0
  | _ =>
    if 0x81 ≤ c ∧ c < 0xD0 then
      match c % 16 with | 1 => 16 | 2 => 24 | 3 => 32 | 5 => 16 | _ => 24
    else 64

/-- LEN of an attribute word, where R311 lets SLOT_PREPARE give it. -/
def lenOk (c len : Nat) : Bool :=
  match c with
  | 0xE1 | 0xE2 | 0xE3 | 0xE4 | 0xE5 => decide (1 ≤ len ∧ len ≤ 64)
  | 0xE8 | 0xE9 => decide (16 ≤ len ∧ len ≤ 64)
  | 0xF3 => decide (len = 48 ∨ len = 56 ∨ len = 66)
  | 0xF4 => decide (len = 32 ∨ len = 64)
  | _ => true

/-- A class whose key material stands in the key cache (R311, R250). -/
def cacheClass (c : Nat) : Bool :=
  decide (c = 0x31 ∨ c = 0x32 ∨ (0x61 ≤ c ∧ c ≤ 0x6C) ∨ c = 0x73 ∨ (0x79 ≤ c ∧ c ≤ 0x7B) ∨ c = 0xF3)

/-- PARAM of an operation (R197, R222, R248, R269, R294, R313, R321). -/
def paramOk (k : OpKind) (s p : Nat) : Bool :=
  match k with
  | .kemEncaps | .kemDecaps | .hqcEncaps | .hqcDecaps | .mceEncaps | .mceDecaps | .kaDerive => within p 0x1000
  | .dsaSign _ pre | .slhSign _ pre | .dsaVerify pre | .slhVerify pre | .fnSign pre =>
    within p (if pre then 0xFFF else 0xFF) && decide (pPh p < 8)
  | .fnVerify pre =>
    within p (if pre then 0xFFF0FFF else 0xFFF00FF) && decide (pPh p < 8) &&
    decide (pSigLen p = 0 ∨ (41 ≤ pSigLen p ∧ pSigLen p ≤ if s = 1 then 666 else 1280))
  | .compSign | .compVerify => within p 0xFF
  | .hssKeygen => within p 0x1F && decide (1 ≤ bits p 3 0 ∧ bits p 3 0 ≤ 8)
  | .xmssKeygen => decide (p = 4 ∨ p = 8 ∨ p = 12)
  | .ecdsaSign _ | .ecdsaVerify _ => within p 0xF00 && decide (pPh p < 6)
  | .eddsaSign | .eddsaVerify => within p (if s = 2 then 0xFF else 0)
  | .pssSign | .pssVerify | .v15Verify => within p 0xF00 && decide (pPh p < 3)
  | .oaepEncrypt | .oaepDecrypt => within p 0xFFF && decide (pPh p < 3)
  | .hash => if s < 10 then decide (p = 0) else within p (0xFFFF * 2 ^ 32) && decide (1 ≤ pOlen p)
  | .hmac _ => within p (0xFFFF * 2 ^ 32) && decide (16 ≤ pOlen p ∧ pOlen p ≤ algBytes (s - 1))
  | .kmac _ => within p (0xFFFF * 2 ^ 32 + 0xFFFF) && decide (1 ≤ pOlen p ∧ pAux p ≤ 255)
  | .aes d =>
    if s = 6 then
      within p (0xFFFF * 2 ^ 32 + 0xFFFF + if d then 0 else 2 ^ 56) && decide (12 ≤ pOlen p ∧ pOlen p ≤ 16)
    else decide (p = 0)
  | .cmac _ =>
    within p (0xFFFF * 2 ^ 32) &&
    (if s = 1 then decide (8 ≤ pOlen p ∧ pOlen p ≤ 16) else decide (4 ≤ pOlen p ∧ pOlen p ≤ 8))
  | .mac3 _ => within p (2 ^ 57 + 0xFFFF * 2 ^ 32) && decide (4 ≤ pOlen p ∧ pOlen p ≤ 8)
  | .pinTranslate =>
    within p (0xFF * 2 ^ 48 + 0x1F * 2 ^ 16) && pinPair (pFmtIn p) (pFmtOut p) && panOk (pFmtIn p) (pFmtOut p) (pPanLen p)
  | .pinCompare =>
    within p (0xFF * 2 ^ 48 + 0x1F * 2 ^ 16) && pinFormat (pFmtIn p) && pinFormat (pFmtOut p) &&
    panOk (pFmtIn p) (pFmtOut p) (pPanLen p)
  | .dukptPin =>
    within p (3 * 2 ^ 58 + 0xF * 2 ^ 52 + 0x1F * 2 ^ 16) && pinPair 4 (pFmtOut p) && panOk 4 (pFmtOut p) (pPanLen p) &&
    decide (pDkType p < 3)
  | .dukptCmac _ =>
    within p (3 * 2 ^ 58 + 0xFFFF * 2 ^ 32) && decide (8 ≤ pOlen p ∧ pOlen p ≤ 16) && decide (pDkType p < 3)
  | .importWrapped => within p 1
  | .ctxOpen => within p 0x1FFFFFFF
  | .slotPrepare | .extension => true
  | _ => decide (p = 0)

/-- KEEP of an operation that takes it. -/
def keeps (k : OpKind) (p : Nat) : Bool :=
  match k with
  | .kemEncaps | .kemDecaps | .hqcEncaps | .hqcDecaps | .mceEncaps | .mceDecaps | .kaDerive => pKeep p
  | _ => false

/-- KEY_FORM and KEY2_FORM of an operation (R56, R196, R216, R248, R267, R313, R321, R364). -/
def formsOk (k : OpKind) (s p f1 f2 : Nat) (key2 : Bool) : Bool :=
  let one := decide (f1 = 1)
  let blob := decide (f1 = 1 ∨ f1 = 3)
  let pub := decide (f1 = 0 ∨ f1 = 1)
  let no2 := decide (f2 = 0)
  let keep2 := decide (f2 = ofBool (pKeep p))
  match k with
  | .nop | .mctp | .hash | .random _ | .entropy => decide (f1 = 0) && no2
  | .kemEncaps | .hqcEncaps | .mceEncaps => pub && keep2
  | .kemDecaps => blob && keep2
  | .kaDerive => (if s = 3 then one else blob) && keep2
  | .hqcDecaps | .mceDecaps => one && keep2
  | .dsaSign _ _ | .eddsaSign | .hmac _ | .kmac _ | .aes _ | .tdes _ | .cmac _ | .wrap _ | .mac3 _ => blob && no2
  | .ecdsaSign _ => (if s = 3 then one else blob) && no2
  | .compSign => blob && decide (f2 = 1)
  | .compVerify => pub && decide (f2 = f1)
  | .dsaVerify _ | .fnVerify _ | .slhVerify _ | .hssVerify | .lmsVerify | .xmssVerify | .xmssMtVerify | .ecdsaVerify _
  | .eddsaVerify | .oaepEncrypt | .pssVerify | .v15Verify => pub && no2
  | .pinTranslate | .pinCompare | .dukptInitial | .dukptPin | .blockImport | .blockExport | .importWrapped | .derive =>
    one && decide (f2 = 1)
  | .importBlob => decide (f1 = 3) && decide (f2 = 1)
  | .exportBlob => one && decide (f2 ≤ 1)
  | .ctxOpen => pub && no2
  | .ctxStep | .ctxClose | .ctxDiscard => decide (f1 = 2) && no2
  | .extension => decide (f1 = 0 ∨ f1 = 1 ∨ f1 = 3) && (if key2 then decide (f2 ≤ 1) else no2)
  | .kemKeygen | .dsaKeygen | .fnKeygen | .fnSign _ | .slhKeygen | .slhSign _ _ | .hssKeygen | .hssSign | .xmssKeygen
  | .xmssSign | .hqcKeygen | .ecdsaKeygen | .eddsaKeygen | .kaKeygen | .pssSign | .oaepDecrypt | .dukptCmac _
  | .slotPrepare | .symGenerate | .importPublic | .readPublic => one && no2

/-! Sizes (R195, R208, R217, R221, R231, R251). -/

def kemEk (s : Nat) : Nat := match s with | 1 => 800 | 2 => 1184 | _ => 1568
def kemCt (s : Nat) : Nat := match s with | 1 => 768 | 2 => 1088 | _ => 1568
def dsaPk (s : Nat) : Nat := match s with | 1 => 1312 | 2 => 1952 | _ => 2592
def dsaSig (s : Nat) : Nat := match s with | 1 => 2420 | 2 => 3309 | _ => 4627
def fnPk (s : Nat) : Nat := if s = 1 then 897 else 1793
def fnSig (s : Nat) : Nat := if s = 1 then 666 else 1280
def compEc (s : Nat) : Nat := if s = 3 then 97 else 65
def compSig (s : Nat) : Nat := dsaSig s + if s = 3 then 96 else 64
def slhN (s : Nat) : Nat := match s with | 3 | 7 => 24 | 4 | 8 => 32 | _ => 16
def slhSig (s : Nat) : Nat :=
  match s with | 1 | 5 => 7856 | 2 | 6 => 17088 | 3 | 7 => 16224 | _ => 29792
/-- n of the LMS and XMSS sets (R221). -/
def hbsN (s : Nat) : Nat := if s = 1 ∨ s = 3 then 32 else 24
/-- Chains of an LM-OTS signature (R222, RFC 8554). -/
def otsP (s : Nat) (w8 : Bool) : Nat := if s = 1 ∨ s = 3 then (if w8 then 34 else 67) else (if w8 then 26 else 51)
/-- An LMS signature of height 5. -/
def lmsSig (s : Nat) (w8 : Bool) : Nat := 4 + (4 + hbsN s + otsP s w8 * hbsN s) + 4 + 5 * hbsN s
/-- An HSS signature of L levels. -/
def hssSig (s levels : Nat) (w8 : Bool) : Nat := 4 + (levels - 1) * (lmsSig s w8 + 24 + hbsN s) + lmsSig s w8
/-- An XMSS^MT signature of d levels of height 5. -/
def xmssSig (s d : Nat) : Nat := (5 * d + 7) / 8 + hbsN s + (5 * d + d * otsP s false) * hbsN s
def hqcK (s : Nat) : Nat := match s with | 1 => 16 | 2 => 24 | _ => 32
def hqcEk (s : Nat) : Nat := match s with | 1 => 2249 | 2 => 4522 | _ => 7245
def hqcCt (s : Nat) : Nat := match s with | 1 => 4433 | 2 => 8978 | _ => 14421
def mceEk (s : Nat) : Nat := if s < 3 then 261120 else 524160
def mceCt (s : Nat) : Nat := if s < 3 then 96 else 156
/-- L of R249 by curve class. -/
def curveL (c : Nat) : Nat :=
  match c with | 0x71 | 0x74 | 0x76 => 32 | 0x72 => 48 | 0x73 => 66 | 0x75 => 57 | _ => 56
/-- The public key of a curve class. -/
def curvePub (c : Nat) : Nat := if c ≤ 0x73 then 1 + 2 * curveL c else curveL c
/-- n in bytes of an RSA set. -/
def rsaN (s : Nat) : Nat := 128 + 128 * s

/-- The class of the first key by scheme and set (R311). -/
def schemeClass (k : OpKind) (s : Nat) : Nat :=
  match k with
  | .kemKeygen | .kemEncaps | .kemDecaps => 0x10 + s
  | .dsaKeygen | .dsaSign _ _ | .dsaVerify _ | .compSign | .compVerify => 0x20 + s
  | .fnKeygen | .fnSign _ | .fnVerify _ => 0x30 + s
  | .slhKeygen | .slhSign _ _ | .slhVerify _ => 0x40 + s
  | .hssKeygen | .hssSign | .hssVerify | .lmsVerify => 0x50 + s
  | .xmssKeygen | .xmssSign | .xmssVerify | .xmssMtVerify => 0x58 + s
  | .hqcKeygen | .hqcEncaps | .hqcDecaps => 0x60 + s
  | .mceEncaps | .mceDecaps => 0x68 + s
  | .ecdsaKeygen | .ecdsaSign _ | .ecdsaVerify _ => 0x70 + s
  | .eddsaKeygen | .eddsaSign | .eddsaVerify => 0x73 + s
  | .kaKeygen | .kaDerive => kaClass s
  | .pssSign | .oaepDecrypt | .oaepEncrypt | .pssVerify | .v15Verify => 0x78 + s
  | .hmac _ => 0xE0 + s
  | .kmac _ => 0xE7 + s
  | _ => 0

/-- The public-key bytes of a key-pair class (R195, R217, R221, R231, R251, R313). -/
def pubLen (c : Nat) : Nat :=
  if c ≤ 0x13 then kemEk (c - 0x10)
  else if c ≤ 0x23 then dsaPk (c - 0x20)
  else if c ≤ 0x32 then fnPk (c - 0x30)
  else if c ≤ 0x48 then 2 * slhN (c - 0x40)
  else if c ≤ 0x54 then 28 + hbsN (c - 0x50)
  else if c ≤ 0x5C then 4 + 2 * hbsN (c - 0x58)
  else if c ≤ 0x63 then hqcEk (c - 0x60)
  else if c ≤ 0x6C then mceEk (c - 0x68)
  else if c ≤ 0x77 then curvePub c
  else rsaN (c - 0x78)

/-- The shared secret of KEEP (R201, R232, R251). -/
def secretLen (k : OpKind) (s : Nat) : Nat :=
  match k with
  | .hqcEncaps | .hqcDecaps => 64
  | .kaDerive => curveL (kaClass s)
  | _ => 32

/-- The verdict of R58 on a descriptor's lengths: LENGTH_RANGE, or the output length where it is known at admission. -/
inductive Lengths where
  | bad
  | out (n : Nat)
  | later
  deriving DecidableEq, Repr

def lenIf (p : Prop) [Decidable p] (n : Nat) : Lengths := if p then .out n else .bad

/-- The largest IN_LEN (R58, R204, R271). -/
def maxIn : Nat := 2 ^ 24

/-- The lengths of an operation: R58, R204, R251, R271, R295, R313, R428 and the layouts of R203, R251 and R270. -/
def lengths (k : OpKind) (s : Nat) (d : Descriptor) : Lengths :=
  let n := d.inLen
  let p := d.param
  let inline_ := d.keyForm = 0
  let ss := if keeps k p then 0 else secretLen k s
  let pub := pubLen (schemeClass k s)
  let pos := if inline_ then pub else 0
  let dig := phBytes (pPh p)
  let curve := curveL (schemeClass k s)
  if maxIn < n then .bad
  else match k with
  | .nop => lenIf (n = 0 ∧ d.outLen = 0) 0
  | .mctp => if 1 ≤ n ∧ n ≤ 8192 then .later else .bad
  | .kemKeygen | .dsaKeygen | .fnKeygen | .slhKeygen | .hssKeygen | .xmssKeygen | .hqcKeygen | .ecdsaKeygen | .eddsaKeygen
  | .kaKeygen => lenIf (n = 0) pub
  | .kemEncaps => lenIf (n = pos) (kemCt s + ss)
  | .hqcEncaps => lenIf (n = pos) (hqcCt s + ss)
  | .mceEncaps => lenIf (n = pos) (mceCt s + ss)
  | .kemDecaps => lenIf (n = kemCt s) ss
  | .hqcDecaps => lenIf (n = hqcCt s) ss
  | .mceDecaps => lenIf (n = mceCt s) ss
  | .dsaSign _ _ => lenIf (pCtxLen p ≤ n) (dsaSig s)
  | .fnSign _ => lenIf (pCtxLen p ≤ n) (fnSig s)
  | .compSign => lenIf (pCtxLen p ≤ n) (compSig s)
  | .slhSign _ _ => lenIf (pCtxLen p ≤ n) (slhSig s)
  | .hssSign | .xmssSign => .later
  | .ecdsaSign digest => lenIf (digest = false ∨ n = dig) (2 * curve)
  | .ecdsaVerify digest => lenIf (digest = false ∨ n < pos + 2 * curve ∨ n = pos + 2 * curve + dig) 0
  | .eddsaSign => lenIf (pCtxLen p ≤ n) (2 * curve)
  | .dsaVerify _ | .fnVerify _ | .compVerify | .slhVerify _ | .hssVerify | .lmsVerify | .xmssVerify | .xmssMtVerify
  | .eddsaVerify | .pssVerify | .v15Verify | .hmac true | .kmac true | .cmac true | .mac3 true => .out 0
  | .kaDerive => lenIf (n = pub) ss
  | .pssSign => .out (rsaN s)
  | .oaepEncrypt =>
    lenIf (0 < n ∧ pos + pCtxLen p ≤ n ∧ n - pos - pCtxLen p ≤ rsaN s - 2 * dig - 2) (rsaN s)
  | .oaepDecrypt => if n = pCtxLen p + rsaN s then .later else .bad
  | .hash => .out (if s < 10 then algBytes (s - 1) else pOlen p)
  | .hmac false | .cmac false | .mac3 false => .out (pOlen p)
  | .kmac false => lenIf (pAux p ≤ n) (pOlen p)
  | .aes dec =>
    match s with
    | 1 => lenIf (0 < n ∧ n % 16 = 0) n
    | 2 => lenIf (16 < n ∧ n % 16 = 0) (n - 16)
    | 6 =>
      let fixed := (if pIvgen p then 0 else 12) + pAux p + if dec then pOlen p else 0
      lenIf (fixed ≤ n) (if dec then n - fixed else (if pIvgen p then 12 else 0) + (n - fixed) + pOlen p)
    | _ => lenIf (16 < n) (n - 16)
  | .tdes _ => if s = 1 then lenIf (0 < n ∧ n % 8 = 0) n else lenIf (8 < n ∧ n % 8 = 0) (n - 8)
  | .wrap false => if s = 2 then lenIf (0 < n) (roundUp n 8 + 8) else lenIf (16 ≤ n ∧ n % 8 = 0) (n + 8)
  | .wrap true => if s = 2 then (if 16 ≤ n ∧ n % 8 = 0 then .later else .bad) else lenIf (24 ≤ n ∧ n % 8 = 0) (n - 8)
  | .pinTranslate => lenIf (n = (if pFmtIn p = 4 then 16 else 8) + pPanLen p) (if pFmtOut p = 4 then 16 else 8)
  | .pinCompare =>
    lenIf (n = (if pFmtIn p = 4 then 16 else 8) + (if pFmtOut p = 4 then 16 else 8) + pPanLen p) 0
  | .dukptInitial => if n = 8 then .later else .bad
  | .dukptPin => lenIf (n = 28 + pPanLen p) (if pFmtOut p = 4 then 16 else 8)
  | .dukptCmac false => lenIf (12 ≤ n) (pOlen p)
  | .dukptCmac true => .out 0
  | .blockImport => lenIf (0 < n) 0
  | .blockExport => if n = 0 then .later else .bad
  | .random _ => if 1 ≤ d.outLen ∧ d.outLen ≤ 2 ^ 20 ∧ n ≤ 256 then .later else .bad
  | .entropy => if 32 ≤ d.outLen ∧ d.outLen ≤ 4096 ∧ d.outLen % 32 = 0 ∧ n = 0 then .later else .bad
  | .slotPrepare => lenIf (n = 5) 0
  | .symGenerate | .importBlob => lenIf (n = 0) 0
  | .importPublic | .importWrapped => lenIf (0 < n) 0
  | .exportBlob | .readPublic => if n = 0 then .later else .bad
  | .derive => lenIf (1 ≤ n ∧ n ≤ 256) 0
  | .ctxOpen => lenIf (8 ≤ n) 0
  | .ctxDiscard => lenIf (n = 0) 0
  | .ctxStep | .ctxClose | .extension => .later

/-- Operations that take no grain: NOP, group 0x0, group 0x7, SLOT_PREPARE and Read public key (R59, R296, R313, R428). -/
def grainless (k : OpKind) : Bool :=
  match k with
  | .nop | .mctp | .random _ | .entropy | .slotPrepare | .readPublic => true
  | _ => false

/-- Operations that R60's check 8 asks a big-number engine of: group 0x4 and the composite operations. -/
def engineOp (k : OpKind) : Bool :=
  match k with
  | .compSign | .compVerify | .ecdsaKeygen | .ecdsaSign _ | .ecdsaVerify _ | .eddsaKeygen | .eddsaSign | .eddsaVerify
  | .kaKeygen | .kaDerive | .pssSign | .oaepDecrypt | .oaepEncrypt | .pssVerify | .v15Verify => true
  | _ => false

/-! What an operation asks of its keys. -/

/-- The OPS bits of R310. -/
def opsSign : Nat := 24
def opsVerify : Nat := 25
def opsEncaps : Nat := 26
def opsDecaps : Nat := 27
def opsDerive : Nat := 28
def opsWrap : Nat := 29
def opsUnwrap : Nat := 30
def opsEncrypt : Nat := 31
def opsDecrypt : Nat := 32
def opsMac : Nat := 33
def opsTranslate : Nat := 34

/-- What a key is used for: the classes it may have (none listed: any), the OPS bit it needs, whether the slot is claimed
instead of used, whether the secret is delivered, and any further attribute bits it must have. -/
structure KeyUse where
  classes : List Nat := []
  ops : Option Nat := none
  claim : Bool := false
  secret : Bool := true
  must : Nat := 0
  deriving DecidableEq, Repr

/-- A PIN key's classes by block format (R267, R311). -/
def pinClasses (f : Nat) : List Nat := if f = 4 then [0xC1, 0xC2, 0xC3] else [0xC5, 0xC6]

/-- The first key's use (R198, R199, R250, R267, R313, R321, R364). A context names its key itself. -/
def keyUse1 (k : OpKind) (s p : Nat) : KeyUse :=
  let c := [schemeClass k s]
  match k with
  | .kemKeygen | .hqcKeygen => { classes := c, ops := some opsDecaps, claim := true }
  | .dsaKeygen | .fnKeygen | .slhKeygen | .hssKeygen | .xmssKeygen | .ecdsaKeygen | .eddsaKeygen =>
    { classes := c, ops := some opsSign, claim := true }
  | .kaKeygen => { classes := c, ops := some opsDerive, claim := true }
  | .kemEncaps | .hqcEncaps | .mceEncaps => { classes := c, ops := some opsEncaps, secret := false }
  | .kemDecaps | .hqcDecaps | .mceDecaps => { classes := c, ops := some opsDecaps }
  | .dsaSign _ _ | .fnSign _ | .compSign | .slhSign _ _ | .hssSign | .xmssSign | .ecdsaSign _ | .eddsaSign | .pssSign =>
    { classes := c, ops := some opsSign }
  | .dsaVerify _ | .fnVerify _ | .compVerify | .slhVerify _ | .hssVerify | .lmsVerify | .xmssVerify | .xmssMtVerify
  | .ecdsaVerify _ | .eddsaVerify | .pssVerify | .v15Verify => { classes := c, ops := some opsVerify, secret := false }
  | .kaDerive => { classes := c, ops := some opsDerive }
  | .oaepDecrypt => { classes := c, ops := some opsDecrypt }
  | .oaepEncrypt => { classes := c, ops := some opsEncrypt, secret := false }
  | .hmac v | .kmac v => { classes := c, ops := some (if v then opsVerify else opsMac) }
  | .aes d => { classes := [0x81, 0x82, 0x83], ops := some (if d then opsDecrypt else opsEncrypt) }
  | .tdes d => { classes := [0x85, 0x86], ops := some (if d then opsDecrypt else opsEncrypt) }
  | .cmac v =>
    { classes := if s = 1 then [0x91, 0x92, 0x93] else [0x95, 0x96], ops := some (if v then opsVerify else opsMac) }
  | .wrap u =>
    { classes := if s = 3 then [0xA5, 0xA6] else [0xA1, 0xA2, 0xA3], ops := some (if u then opsUnwrap else opsWrap) }
  | .pinTranslate => { classes := pinClasses (pFmtIn p), ops := some opsTranslate }
  | .pinCompare => { classes := pinClasses (pFmtIn p), ops := some opsVerify }
  | .mac3 v => { classes := [0x95], ops := some (if v then opsVerify else opsMac) }
  | .dukptInitial | .dukptPin | .dukptCmac _ => { classes := [0xD1, 0xD2, 0xD3], ops := some opsDerive }
  | .blockImport => { classes := cipherClasses 0xB, ops := some opsUnwrap }
  | .blockExport => { classes := [0xB1, 0xB2, 0xB3], ops := some opsWrap }
  | .symGenerate => { classes := symClasses.filter (· ≠ 0xF3), claim := true }
  | .importPublic => { classes := (List.range 0x80).filter pairClass, claim := true }
  | .importWrapped => { classes := [0xA1, 0xA2, 0xA3], ops := some opsUnwrap }
  | .exportBlob => { must := 2 ^ 41 }
  | .derive => { classes := [0xF1, 0xF2, 0xF3, 0xF4], ops := some opsDerive }
  | _ => {}

/-- The class of KEEP's destination by the secret's length (R201). -/
def keepClass (n : Nat) : Nat := match n with | 32 => 0xF1 | 64 => 0xF2 | _ => 0xF3

/-- The second key's use. -/
def keyUse2 (k : OpKind) (s p : Nat) : KeyUse :=
  match k with
  | .kemEncaps | .kemDecaps | .hqcEncaps | .hqcDecaps | .mceEncaps | .mceDecaps | .kaDerive =>
    { classes := [keepClass (secretLen k s)], claim := true }
  | .compSign => { classes := [compClass s], ops := some opsSign }
  | .compVerify => { classes := [compClass s], ops := some opsVerify, secret := false }
  | .pinTranslate | .dukptPin => { classes := pinClasses (pFmtOut p), ops := some opsTranslate }
  | .pinCompare => { classes := pinClasses (pFmtOut p), ops := some opsVerify }
  | .dukptInitial => { classes := [0xB1, 0xB2, 0xB3], ops := some opsWrap }
  | .blockImport => { claim := true }
  | .blockExport => { must := 2 ^ 41 }
  | .importWrapped | .importBlob =>
    { classes := (List.range 256).filter (fun c => classOk c && !statefulClass c && decide (c ≠ 0xF3)), claim := true }
  | .exportBlob => { classes := [0xA3], ops := some opsWrap, must := 2 ^ 20 }
  | .derive => { classes := symClasses.filter (· ≠ 0xF3), claim := true }
  | _ => {}

/-- The random inputs an operation takes from its port's DRBG (R202, R218, R222, R232, R249, R270, R313); `len` is LEN of
the target of symmetric generation. -/
def drbgBytes (k : OpKind) (s p len : Nat) : Nat :=
  match k with
  | .kemKeygen => 64
  | .kemEncaps => 32
  | .dsaKeygen => 32
  | .fnKeygen => 48
  | .fnSign _ => 40
  | .slhKeygen => 3 * slhN s
  | .hssKeygen => hbsN s + 16
  | .xmssKeygen => 3 * hbsN s
  | .hqcKeygen => 80 + hqcK s
  | .hqcEncaps => hqcK s + 16
  | .mceEncaps => 32
  | .ecdsaKeygen => curveL (0x70 + s) + 8
  | .eddsaKeygen => curveL (0x73 + s)
  | .kaKeygen => if s ≤ 3 then curveL (kaClass s) + 8 else curveL (kaClass s)
  | .aes false => if s = 6 ∧ pIvgen p then 12 else 0
  | .exportBlob => 12
  | .symGenerate => len
  | _ => 0

end Sys2Proof.Machine
end

