-- ==== Sys2Proof/Machine/Sha2.lean ====
section
/-!
DEFINITION. SHA-2 (FIPS 180-4) and HMAC (FIPS 198-1), as R130, R256 and R270 name them.
A hash state is one number, word 0 in the highest bits.
-/
namespace Sys2Proof.Machine

/-- The SHA-256 round constants, 32 bits each, round 0 lowest. -/
def sha256K : Nat :=
  0xc67178f2bef9a3f7a4506ceb90befffa8cc7020884c8781478a5636f748f82ee682e6ff35b9cca4f4ed8aa4a391c0cb334b0bcb52748774c1e376c0819a4c116106aa070f40e3585d6990624d192e819c76c51a3c24b8b70a81a664ba2bfe8a192722c8581c2c92e766a0abb650a735453380d134d2c6dfc2e1b213827b70a851429296706ca6351d5a79147c6e00bf3bf597fc7b00327c8a831c66d983e515276f988da5cb0a9dc4a7484aa2de92c6f240ca1cc0fc19dc6efbe4786e49b69c1c19bf1749bdc06a780deb1fe72be5d74550c7dc3243185be12835b01d807aa98ab1c5ed5923f82a459f111f13956c25be9b5dba5b5c0fbcf71374491428a2f98

/-- The SHA-512 round constants, 64 bits each, round 0 lowest. -/
def sha512K : Nat :=
  0x6c44198c4a4758175fcb6fab3ad6faec597f299cfc657e2a4cc5d4becb3e42b6431d67c49c100d4c3c9ebe0a15c9bebc32caab7b40c7249328db77f523047d841b710b35131c471b113f9804bef90dae0a637dc5a2c898a606f067aa72176fbaf57d4f7fee6ed178eada7dd6cde0eb1ed186b8c721c0c207ca273eceea26619cc67178f2e372532bbef9a3f7b2c67915a4506cebde82bde990befffa23631e288cc702081a6439ec84c87814a1f0ab7278a5636f43172f60748f82ee5defb2fc682e6ff3d6b2b8a35b9cca4f7763e3734ed8aa4ae3418acb391c0cb3c5c95a6334b0bcb5e19b48a82748774cdf8eeb991e376c085141ab5319a4c116b8d2d0c8106aa07032bbd1b8f40e35855771202ad69906245565a910d192e819d6ef5218c76c51a30654be30c24b8b70d0f89791a81a664bbc423001a2bfe8a14cf1036492722c851482353b81c2c92e47edaee6766a0abb3c77b2a8650a73548baf63de53380d139d95b3df4d2c6dfc5ac42aed2e1b21385c26c92627b70a8546d22ffc142929670a0e6e7006ca6351e003826fd5a79147930aa725c6e00bf33da88fc2bf597fc7beef0ee4b00327c898fb213fa831c66d2db43210983e5152ee66dfab76f988da831153b55cb0a9dcbd41fbd44a7484aa6ea6e4832de92c6f592b0275240ca1cc77ac9c650fc19dc68b8cd5b5efbe4786384f25e3e49b69c19ef14ad2c19bf174cf6926949bdc06a725c7123580deb1fe3b1696b172be5d74f27b896f550c7dc3d5ffb4e2243185be4ee4b28c12835b0145706fbed807aa98a3030242ab1c5ed5da6d8118923f82a4af194f9b59f111f1b605d0193956c25bf348b538e9b5dba58189dbbcb5c0fbcfec4d3b2f7137449123ef65cd428a2f98d728ae22

/-- The parameters of one SHA-2 family: word bits, rounds, constants and the rotation amounts of FIPS 180-4. -/
structure Sha2Family where
  w : Nat
  rounds : Nat
  k : Nat
  bigS0 : List Nat
  bigS1 : List Nat
  smallS0 : List Nat
  smallS1 : List Nat

/-- SHA-224 and SHA-256. -/
def sha256Family : Sha2Family := ⟨32, 64, sha256K, [2, 13, 22], [6, 11, 25], [7, 18, 3], [17, 19, 10]⟩
/-- SHA-384, SHA-512 and SHA-512/256. -/
def sha512Family : Sha2Family := ⟨64, 80, sha512K, [28, 34, 39], [14, 18, 41], [1, 8, 7], [19, 61, 6]⟩

/-- Rotate a `w`-bit word right. -/
def rotrW (w v n : Nat) : Nat := (v >>> n) ||| ((v <<< (w - n)) % 2 ^ w)

/-- Σ of FIPS 180-4: three rotations. -/
def shaSigma (w v : Nat) : List Nat → Nat
  | [a, b, c] => rotrW w v a ^^^ rotrW w v b ^^^ rotrW w v c
  | _ => 0

/-- σ of FIPS 180-4: two rotations and a shift. -/
def shaSmallSigma (w v : Nat) : List Nat → Nat
  | [a, b, c] => rotrW w v a ^^^ rotrW w v b ^^^ (v >>> c)
  | _ => 0

/-- The message schedule, newest word first, with the given number of words still to be made. -/
def shaSchedule (F : Sha2Family) : Nat → List Nat → List Nat
  | 0, ws => ws
  | n + 1, ws =>
    let g i := (ws[i]?).getD 0
    let v := (shaSmallSigma F.w (g 1) F.smallS1 + g 6 + shaSmallSigma F.w (g 14) F.smallS0 + g 15) % 2 ^ F.w
    shaSchedule F n (v :: ws)

/-- One compression round on the eight working words. -/
def shaRound (F : Sha2Family) (s : List Nat) (kw : Nat × Nat) : List Nat :=
  match s with
  | [a, b, c, d, e, f, g, h] =>
    let m := 2 ^ F.w
    let ch := (e &&& f) ^^^ ((m - 1 - e) &&& g)
    let maj := (a &&& b) ^^^ (a &&& c) ^^^ (b &&& c)
    let t1 := (h + shaSigma F.w e F.bigS1 + ch + kw.1 + kw.2) % m
    let t2 := (shaSigma F.w a F.bigS0 + maj) % m
    [(t1 + t2) % m, a, b, c, (d + t1) % m, e, f, g]
  | _ => s

/-- The eight words of a state number. -/
def shaWords (F : Sha2Family) (st : Nat) : List Nat :=
  (List.range 8).map fun i => (st >>> (F.w * (7 - i))) % 2 ^ F.w

/-- The state number of eight words. -/
def shaPack (F : Sha2Family) (ws : List Nat) : Nat := ws.foldl (fun acc x => acc * 2 ^ F.w + x) 0

/-- Compress one block (R130 SHABLK). -/
def shaCompress (F : Sha2Family) (st : Nat) (block : List Byte) : Nat :=
  let bytes := F.w / 8
  let m := (List.range 16).map fun i => beNat (slice block (bytes * i) bytes)
  let ws := (shaSchedule F (F.rounds - 16) m.reverse).reverse
  let ks := (List.range F.rounds).map fun i => (F.k >>> (F.w * i)) % 2 ^ F.w
  let h := shaWords F st
  let h' := (ks.zip ws).foldl (shaRound F) h
  shaPack F (List.zipWith (fun a b => (a + b) % 2 ^ F.w) h h')

/-- The variants of SHAINIT (R130): 0 SHA-224, 1 SHA-256, 2 SHA-384, 3 SHA-512, 4 SHA-512/256. -/
def shaFamily (variant : Nat) : Sha2Family := if variant ≤ 1 then sha256Family else sha512Family

/-- The initial value of a variant. -/
def shaInitial (variant : Nat) : Nat :=
  match variant with
  | 0 => 0xc1059ed8367cd5073070dd17f70e5939ffc00b316858151164f98fa7befa4fa4
  | 1 => 0x6a09e667bb67ae853c6ef372a54ff53a510e527f9b05688c1f83d9ab5be0cd19
  | 2 =>
    0xcbbb9d5dc1059ed8629a292a367cd5079159015a3070dd17152fecd8f70e593967332667ffc00b318eb44a8768581511db0c2e0d64f98fa747b5481dbefa4fa4
  | 3 =>
    0x6a09e667f3bcc908bb67ae8584caa73b3c6ef372fe94f82ba54ff53a5f1d36f1510e527fade682d19b05688c2b3e6c1f1f83d9abfb41bd6b5be0cd19137e2179
  | _ =>
    0x22312194fc2bf72c9f555fa3c84c64c22393b86b6f53b151963877195940eabd96283ee2a88effe3be5e1e25538639922b0199fc2c85b8aa0eb72ddc81c52ca2

/-- Digest length of a variant in bytes. -/
def shaDigestLen (variant : Nat) : Nat :=
  match variant with
  | 0 => 28
  | 1 => 32
  | 2 => 48
  | 3 => 64
  | _ => 32

/-- Bytes in one block of a variant. -/
def shaBlockLen (variant : Nat) : Nat := if variant ≤ 1 then 64 else 128

/-- Bytes of the whole state of a variant (R130 SHAOUT). -/
def shaStateLen (variant : Nat) : Nat := if variant ≤ 1 then 32 else 64

/-- Compress the given number of blocks. -/
def shaBlocks (variant : Nat) : Nat → Nat → List Byte → Nat
  | 0, st, _ => st
  | n + 1, st, m =>
    shaBlocks variant n (shaCompress (shaFamily variant) st (m.take (shaBlockLen variant)))
      (m.drop (shaBlockLen variant))

/-- The padded message. -/
def shaPad (variant : Nat) (m : List Byte) : List Byte :=
  let b := shaBlockLen variant
  let lenBytes := b / 8
  let total := roundUp (m.length + 1 + lenBytes) b
  m ++ 0x80#8 :: List.replicate (total - m.length - 1 - lenBytes) 0#8 ++ beBytes lenBytes (8 * m.length)

/-- The SHA-2 digest of a message. -/
def sha2 (variant : Nat) (m : List Byte) : List Byte :=
  let p := shaPad variant m
  let st := shaBlocks variant (p.length / shaBlockLen variant) (shaInitial variant) p
  (beBytes (shaStateLen variant) st).take (shaDigestLen variant)

/-- HMAC over any hash with its block length. -/
def hmac (hash : List Byte → List Byte) (block : Nat) (key m : List Byte) : List Byte :=
  let k := padTo block (if block < key.length then hash key else key)
  hash (k.map (· ^^^ 0x5C#8) ++ hash (k.map (· ^^^ 0x36#8) ++ m))

end Sys2Proof.Machine
end

