-- ==== Sys2Proof/Machine/Keys.lean ====
section
/-!
DEFINITION. The key vault: derived keys (R304, R305), how the key port judges, charges and delivers keys (R17, R56, R95,
R96, R101, R190, R191, R198 to R202, R209, R224, R225, R268, R317, R319), the writing of a claimed slot (R199, R318) and
destruction (R323).
-/
namespace Sys2Proof.Machine

/-! Derived keys. -/

/-- The code words of R395. -/
def lcCode : LcState → Nat
  | .raw => 0x442288FF
  | .testUnlocked => 0x3C5AF087
  | .testLocked => 0xF0963C4B
  | .manufactured => 0x2244EE99
  | .owned => 0xEE882255
  | .returned => 0x96F05A2D
  | .scrapped => 0x88EE4433

/-- The owner key hash of R304. -/
def State.ownerHash (s : State) : List Byte :=
  if s.life.state = .owned ∨ s.life.state = .returned ∨ s.life.state = .scrapped then
    sha3_256 ((List.range 4).flatMap fun i => s.boot.keys.get (4 + i) [])
  else List.replicate 32 0#8

/-- A derived key of `bits` bits (R304). -/
def State.kdf (s : State) (label : String) (extra : List Byte) (bits : Nat) : List Byte :=
  kmac 256 (bits / 8) (s.vault.rootSecret ++ s.vault.fuseSecret)
    (ascii label ++ [0#8] ++ leBytes 4 (lcCode s.life.state) ++ s.ownerHash ++ leBytes 16 s.uid ++ extra) (ascii "IXL-KDF")

/-- The tenant root key (R305). -/
def State.tenantRootKey (s : State) (t : Nat) : List Byte :=
  s.kdf "TENANT" (leBytes 2 t ++ leBytes 4 (s.vault.tgen.get t 0)) 256

/-! Attribute words (R310). -/

def attrClass (a : Nat) : Nat := bits a 7 0
def attrLen (a : Nat) : Nat := bits a 14 8
def attrOrder2 (a : Nat) : Bool := bit a 40
def attrPersistent (a : Nat) : Bool := bit a 43
def attrPublicOnly (a : Nat) : Bool := bit a 45
/-- The OPS and ENGINES fields. -/
def attrUseMask : Nat := 0x7FF * 2 ^ 24 + 0x1F * 2 ^ 16
/-- The largest budget, which means unlimited (R190). -/
def unlimited : Nat := 2 ^ 40 - 1

/-- The slot belongs to the tenant (R56, R308). -/
def State.owns (s : State) (t k : Nat) : Bool :=
  decide ((s.slot k).state ≠ .unassigned) && !(s.slot k).system && decide ((s.slot k).owner = t)

/-- The material of a slot. -/
def Slot.mat (x : Slot) : KeyMat := ⟨x.attr, x.secret, x.cache, x.pub⟩

/-- The attribute checks of a use or a claim: class, OPS, ENGINES, public-only material and masking order (R17, R106, R198,
R199, R201). -/
def attrAllows (u : KeyUse) (engine : Nat) (order2 : Bool) (a : Nat) : Bool :=
  (u.classes = [] || u.classes.contains (attrClass a)) &&
  (match u.ops with | some b => bit a b | none => true) &&
  decide (a &&& u.must = u.must) &&
  (u.claim || bit a engine) &&
  (!attrPublicOnly a || !u.secret || u.claim) &&
  (!attrOrder2 a || order2)

/-- The key port's verdict on one slot: KEY_ABSENT, KEY_DENIED, KEY_BUDGET in that order, or OK (R17, R56, R60, R199). -/
def State.judgeSlot (s : State) (t k : Nat) (u : KeyUse) (order2 charged : Bool) : Nat :=
  let x := s.slot k
  if !s.owns t k then Status.keyAbsent
  else if u.claim ∧ (x.state ≠ .prepared ∨ x.destroying) then Status.keyDenied
  else if !u.claim ∧ (x.state ≠ .loaded ∨ x.destroying) then Status.keyAbsent
  else if !attrAllows u 16 order2 x.attr then Status.keyDenied
  else if !u.claim ∧ x.budget = 0 ∧ !charged then Status.keyBudget
  else Status.ok

/-! Blobs (R316, R317). -/

/-- A blob without its wrapping: tenant, attribute word, nonce, header bytes, ciphertext and tag. -/
structure Blob where
  tenant : Nat
  attr : Nat
  nonce : List Byte
  aad : List Byte
  body : List Byte
  tag : List Byte
  deriving DecidableEq, Repr

/-- Read a blob: MAGIC, VERSION and the reserved bytes are right, and it is whole. -/
def parseBlob (b : List Byte) : Option Blob :=
  let n := field b 0x10 4
  if b.take 4 = ascii "IXKB" ∧ field b 4 2 = 1 ∧ field b 6 2 < 1024 ∧ (slice b 0x20 32).all (fun x => decide (x = 0)) ∧
      b.length = 0x50 + n then
    some ⟨field b 6 2, field b 8 8, slice b 0x14 12, b.take 0x40, slice b 0x40 n, b.drop (0x40 + n)⟩
  else none

/-- The length of the public part of a class. -/
def pubPart (c : Nat) : Nat := if pairClass c then pubLen c else 0

/-- The payload of a blob or of a shelf record cut into secret, key-cache material and public key. -/
def splitPayload (attr : Nat) (p : List Byte) : KeyMat :=
  let n := attrLen attr
  let pub := pubPart (attrClass attr)
  ⟨attr, p.take n, (p.drop n).take (p.length - n - pub), p.drop (p.length - pub)⟩

/-- The wrapping key of a blob: a slot's, or the tenant root key for KEY_INDEX 0xFFFF. -/
def State.wrapKey (s : State) (t k : Nat) : List Byte :=
  if k = 0xFFFF then s.tenantRootKey t else padTo 32 (s.slot k).secret

/-- The key port's verdict on a blob and its material (R56, R60, R317). -/
def State.judgeBlob (s : State) (t k : Nat) (u : KeyUse) (order2 : Bool) (data : List Byte) : Nat × KeyMat :=
  if k ≠ 0xFFFF ∧ (!s.owns t k ∨ (s.slot k).state ≠ .loaded) then (Status.keyAbsent, {})
  else match parseBlob data with
    | none => (Status.blobInvalid, {})
    | some b =>
      let key := s.wrapKey t k
      if b.tenant ≠ t ∨ gcmTag key b.nonce b.aad b.body ≠ b.tag then (Status.blobInvalid, {})
      else if k ≠ 0xFFFF ∧ !attrAllows { classes := [0xA3], ops := some opsUnwrap } 20 true (s.slot k).attr then
        (Status.keyDenied, {})
      else if !attrAllows u 16 order2 b.attr then (Status.keyDenied, {})
      else (Status.ok, splitPayload b.attr (gcmCtr key b.nonce b.body))

/-! The keys of a job. -/

/-- The operation of a job. -/
def State.kindOf (s : State) (job : Job) : OpKind := (s.tilth.opKind job.desc.opcode).getD .nop

/-- What a job asks of its first key: a context asks what its underlying operation asks (R321). -/
def State.use1 (s : State) (job : Job) : KeyUse :=
  match s.kindOf job with
  | .ctxOpen =>
    let op := bits job.desc.param 15 0
    match opClassic op with | some k => keyUse1 k (setOf op) 0 | none => {}
  | .ctxStep | .ctxClose =>
    let op := (s.ctx job.desc.keyIndex).op
    match opClassic op with | some k => keyUse1 k (setOf op) 0 | none => {}
  | k => keyUse1 k (setOf job.desc.opcode) job.desc.param

/-- What a job asks of its second key. -/
def State.use2 (s : State) (job : Job) : KeyUse := keyUse2 (s.kindOf job) (setOf job.desc.opcode) job.desc.param

/-- The slot of the first key, if a slot or a keyed context holds it. -/
def State.slot1 (s : State) (job : Job) : Option Nat :=
  if job.desc.keyForm = 1 then some job.desc.keyIndex
  else if job.desc.keyForm = 2 ∧ s.kindOf job ≠ .ctxDiscard ∧ (s.ctx job.desc.keyIndex).keyed then
    some (s.ctx job.desc.keyIndex).slot
  else none

/-- The slot of the second key. -/
def Job.slot2 (job : Job) : Option Nat := if job.desc.key2Form = 1 then some job.desc.key2Index else none

/-- The further conditions of single operations on a slot: an exported blob's budget (R312), a kept secret's LEN (R201), and
the attributes of stateful generation (R222). -/
def State.extraDenies (s : State) (job : Job) : Bool :=
  let k := s.kindOf job
  let a1 := (s.slot job.desc.keyIndex).attr
  let a2 := (s.slot job.desc.key2Index).attr
  match k with
  | .exportBlob => decide ((s.slot job.desc.keyIndex).budget ≠ unlimited)
  | .hssKeygen | .xmssKeygen => !attrPersistent a1 || bit a1 41 || bit a1 42 || Config.freeBool s.free
  | .kaDerive => keeps k job.desc.param && decide (attrClass a2 = 0xF3) &&
      decide (attrLen a2 ≠ secretLen k (setOf job.desc.opcode))
  | _ => false

/-- The contexts a tenant holds (R321). -/
def State.ctxCount (s : State) (t : Nat) : Nat :=
  (s.vault.ctxs.filter fun (_, c) => decide (c.state ≠ .free ∧ c.owner = t)).length

/-- The context that an open names. -/
def openCtx (d : Descriptor) : Nat := bits d.param 27 16

/-- An open whose context is taken, or that is past the tenant's quota (R321). -/
def State.openRefused (s : State) (job : Job) : Bool :=
  decide (s.kindOf job = .ctxOpen) &&
  decide ((s.ctx (openCtx job.desc)).state ≠ .free ∨ (s.tenant job.tenant).tpt.ctxQuota ≤ s.ctxCount job.tenant)

/-- CONTEXT_INVALID comes after KEY_ABSENT and before every other failure of a key (R60). -/
def State.orContext (s : State) (job : Job) (v : Nat) : Nat :=
  if v ≠ Status.keyAbsent ∧ s.openRefused job then Status.contextInvalid else v

/-- The verdict on the first key, with its material. -/
def State.judge1 (s : State) (job : Job) (order2 : Bool) (blob : List Byte) : Nat × KeyMat :=
  let u := s.use1 job
  match job.desc.keyForm with
  | 0 => (s.orContext job Status.ok, {})
  | 2 =>
    let c := s.ctx job.desc.keyIndex
    if c.state = .free ∨ c.owner ≠ job.tenant then (Status.contextInvalid, {})
    else match s.slot1 job with
      | some k => if c.keyGone then (Status.keyAbsent, {}) else (s.judgeSlot job.tenant k u order2 job.charged, (s.slot k).mat)
      | none => (Status.ok, {})
  | 3 => s.judgeBlob job.tenant job.desc.keyIndex u order2 blob
  | _ =>
    let v := s.judgeSlot job.tenant job.desc.keyIndex u order2 job.charged
    (s.orContext job (if v = Status.ok ∨ v = Status.keyBudget then
      (if s.kindOf job ≠ .kaDerive ∧ s.extraDenies job then Status.keyDenied else v) else v),
     (s.slot job.desc.keyIndex).mat)

/-- The verdict on the second key: its own checks, and the masking order of the first (R179, R268), which is judged before
its budget. -/
def State.judge2 (s : State) (job : Job) (order2 : Bool) (first : KeyMat) : Nat :=
  match job.slot2 with
  | none => Status.ok
  | some k =>
    let u := s.use2 job
    let v := s.judgeSlot job.tenant k u order2 job.charged
    if v = Status.ok ∨ v = Status.keyBudget then
      if !u.claim ∧ attrOrder2 (s.slot k).attr ≠ attrOrder2 first.attr then Status.keyDenied
      else if s.kindOf job = .kaDerive ∧ s.extraDenies job then Status.keyDenied
      else v
    else v

/-- The slots a job is charged for, each once (R190, R268). -/
def State.chargedSlots (s : State) (job : Job) : List Nat :=
  let a := match s.slot1 job with
    | some k => if (s.use1 job).secret && !(s.use1 job).claim then [k] else []
    | none => []
  let b := match job.slot2 with
    | some k => if (s.use2 job).secret && !(s.use2 job).claim then [k] else []
    | none => []
  a ++ b.filter fun k => !a.contains k

/-- The slots a job claims. -/
def State.claimedSlot (s : State) (job : Job) : Option Nat :=
  if job.desc.keyForm = 1 ∧ (s.use1 job).claim then some job.desc.keyIndex
  else if job.desc.key2Form = 1 ∧ (s.use2 job).claim then some job.desc.key2Index
  else none

/-! Charging (R190, R191, R319). -/

/-- A charge would take a persistent slot's finite budget below its floor (R319). -/
def State.needsFloor (s : State) (k : Nat) : Bool :=
  let x := s.slot k
  match s.vault.shelf.find? k with
  | some r => decide (x.budget ≠ unlimited ∧ x.budget ≤ r.floor)
  | none => false

/-- A slot whose charges are held (R319). -/
def Slot.holdsCharges (x : Slot) : Bool := x.floorWrite || !x.lowering.isEmpty

/-- Charge one slot: the charge that brings the budget to 0 is logged (R191). -/
def State.charge (s : State) (k : Nat) : State :=
  let x := s.slot k
  let b := if x.budget = unlimited then unlimited else x.budget - 1
  let s := s.modSlot k fun y => { y with budget := b, uses := y.uses + 1 }
  if x.budget ≠ unlimited ∧ b = 0 then (s.event .key 2).logKeyEvent 1 k 0 else s

/-! Stateful keys (R224, R225, R227, R228). -/

/-- A job that takes a leaf. -/
def leafKind (k : OpKind) : Bool := match k with | .hssSign | .xmssSign => true | _ => false

/-- No other job holds a leaf that a tree start must wait for (R225). -/
def State.treeStart (s : State) (k q : Nat) : Bool :=
  decide (q % 32 ≠ 0) ||
  (s.jobs.all fun (_, x) =>
    match x.leaf with
    | some l => decide (x.desc.keyIndex ≠ k ∨ !(leafKind (s.kindOf x)) ∨ (q ≤ l + 128 ∧ l + 320 ≠ q))
    | none => true)

/-- What a signing job on a stateful key meets at the key stage. -/
inductive LeafTurn where
  | leaf (q : Nat)
  | exhausted
  | reserve
  | restore
  | wait

/-- The trees that a store holds around leaf `q`: 16 of the bottom level, three of each level between, and the top tree, where
they exist (R223). -/
def Stateful.trees (x : Stateful) (q : Nat) : Nat :=
  (List.range x.levels).foldl (fun n j =>
    let have_ := 32 ^ j - min (32 ^ j) (q / 32 ^ (x.levels - j))
    n + min have_ (if j = 0 then 1 else if j + 1 = x.levels then 16 else 3)) 0

/-- The first job that names a key starts the restoration of its store (R228). -/
def Stateful.startRestore (x : Stateful) : Stateful :=
  if x.built ∨ x.restoring ≠ 0 then x else { x with restoring := max 1 (x.trees x.next) }

/-- The turn of a job on the key in slot `k`. -/
def State.leafTurn (s : State) (k : Nat) : LeafTurn :=
  match (s.slot k).stateful with
  | none => .exhausted
  | some st =>
    if st.total ≤ st.hand then .exhausted
    else if !st.built then .restore
    else if st.reserving || st.interval then .wait
    else if st.next ≤ st.hand then .reserve
    else if s.treeStart k st.hand then .leaf st.hand
    else .wait

def State.modStateful (s : State) (k : Nat) (f : Stateful → Stateful) : State :=
  s.modSlot k fun x => { x with stateful := x.stateful.map f }

/-- Hand out the next leaf; the last one is logged (R227). -/
def State.handLeaf (s : State) (j k : Nat) : State :=
  match (s.slot k).stateful with
  | none => s
  | some st =>
    let s := s.modStateful k fun x => { x with hand := x.hand + 1, interval := true }
    let s := s.modJob j fun x => { x with leaf := some st.hand }
    if st.hand + 1 = st.total then s.logKeyEvent 3 k 0 else s

/-! Delivery (R95, R96, R101). -/

/-- Boolean shares of a secret: the further shares are free, the first makes their sum. -/
def State.shares (s : State) (i : Nat) (order2 : Bool) (x : List Byte) : List (List Byte) :=
  let b := (List.range x.length).map fun n => Config.freeByte s.free (65536 * i + n)
  let c := if order2 then (List.range x.length).map fun n => Config.freeByte s.free (65536 * (i + 1) + n) else []
  [xorBytes (xorBytes x b) (padTo x.length c), b, c]

/-- A secret's shares at a key area of DM (R95). -/
def putShares (m : Memory) (a : Nat) (xs : List (List Byte)) : Memory :=
  ((m.put a ((xs[0]?).getD [])).put (a + 0x100) ((xs[1]?).getD [])).put (a + 0x200) ((xs[2]?).getD [])

/-- Where the secret of a class is delivered in shares at 0x0100: it is a slot secret (R198, R250). -/
def inKeyArea (c : Nat) : Bool := !cacheClass c && !statefulClass c

/-- A 512-byte pair block: shares a and b, each from its first byte (R250). -/
def pairBlock (xs : List (List Byte)) : List Byte := padTo 256 ((xs[0]?).getD []) ++ padTo 256 ((xs[1]?).getD [])

/-- The pair blocks of RSA's components, then their third shares at MASK_ORDER 2 (R250). -/
def rsaBlocks (comps : List (List (List Byte))) (order2 : Bool) : List Byte :=
  comps.flatMap pairBlock ++ (if order2 then comps.flatMap fun x => padTo 512 ((x[2]?).getD []) else [])

/-- What the key port writes to KBUF, where the spec gives its layout: ek and H(ek), pk and tr, Q, A or u, n with the pair
blocks, or a public key alone (R198, R218, R250). -/
def State.kbufOf (s : State) (m : KeyMat) (order2 secret : Bool) : Option (List Byte) :=
  let c := attrClass m.attr
  if m.attr = 0 then some []
  else if attrPublicOnly m.attr || !secret then some m.pub
  else if 0x11 ≤ c ∧ c ≤ 0x13 then some (m.pub ++ sha3_256 m.pub)
  else if 0x21 ≤ c ∧ c ≤ 0x23 then some (m.pub ++ shake 256 64 m.pub)
  else if (0x41 ≤ c ∧ c ≤ 0x48) ∨ (0x71 ≤ c ∧ c ≤ 0x77 ∧ c ≠ 0x73) then some m.pub
  else if c = 0x73 then some (pairBlock (s.shares 8 order2 m.cache) ++ m.pub)
  else if 0x79 ≤ c ∧ c ≤ 0x7B then
    let n := rsaN (c - 0x78)
    let comps := (List.range 5).map fun i => s.shares (8 + 2 * i) order2 (slice m.cache (n + n / 2 * i) (n / 2))
    some (padTo 0x200 (m.cache.take n) ++ rsaBlocks comps order2)
  else if symClasses.contains c ∧ c ≠ 0xF3 then some []
  else none

/-- KEY_LEN (R96). -/
def keyLenOf (m : KeyMat) : Nat := if inKeyArea (attrClass m.attr) ∧ !attrPublicOnly m.attr then m.secret.length else 0

/-- The job block of R96. -/
def jobBlock (job : Job) (epoch kbufLen : Nat) (second : List Byte) : List Byte :=
  let d := job.desc
  leBytes 2 d.opcode ++ leBytes 2 d.flags ++ leBytes 2 job.tenant ++ leBytes 2 d.keyIndex ++
  leBytes 8 job.key1.attr ++ leBytes 8 job.key2.attr ++ leBytes 4 d.inLen ++ leBytes 4 d.outLen ++ leBytes 8 d.param ++
  leBytes 4 epoch ++ leBytes 2 (if job.secret then keyLenOf job.key1 else 0) ++ leBytes 2 second.length ++
  leBytes 4 kbufLen ++ leBytes 1 (if job.order2 then 2 else 1) ++ List.replicate 11 0#8 ++ leBytes 2 0xFFFF

/-- DM as the key port and the front end leave it (R95): job block, key areas, KBUF, over the scrubbed data memory. Where the
spec gives a class's KBUF no layout, KBUF and its length are free (log entry 22). -/
def State.deliver (s : State) (g : Nat) (job : Job) : State :=
  let G := s.grain g
  let h := G.header
  let epoch := (s.bed (g / 16)).epoch
  let second := if job.random ≠ [] then job.random
    else if (s.use2 job).claim then [] else if inKeyArea (attrClass job.key2.attr) then job.key2.secret else []
  let kbuf := match s.kbufOf job.key1 job.order2 job.secret with
    | some b => b
    | none => (List.range (s.freeBits 16 0 % (h.kbufSize + 1))).map fun i => Config.freeByte s.free (2 ^ 32 + i)
  let kbuf := kbuf.take h.kbufSize
  let dm := G.dm.put 0 (jobBlock job epoch kbuf.length second)
  let dm := if job.secret ∧ inKeyArea (attrClass job.key1.attr) then
    putShares dm 0x100 (s.shares 0 job.order2 job.key1.secret) else dm
  let dm := if second = [] then dm else putShares dm 0x400 (s.shares 2 job.order2 second)
  let dm := dm.put h.kbufOff kbuf
  s.spend.modGrain g fun x => { x with dm := dm }

/-! The end of the key stage. -/

/-- Claim a slot in one indivisible step (R199). -/
def State.claim (s : State) (j k : Nat) : State :=
  (s.modSlot k fun x => { x with state := .claimed }).modJob j fun x => { x with claim := some k }

/-- A job waits at the key stage. -/
def State.waitAtKey (s : State) (j : Nat) (forSeeds : Bool) : State :=
  s.modJob j fun x => { x with stage := .key, rngWait := forSeeds }

/-- The share words a job's secrets take from the key-port expander. -/
def shareWords (job : Job) (secrets : Nat) : Nat := (secrets + 31) / 32 * (if job.order2 then 2 else 1)

/-- Charges and claims are made, the keys are delivered, and the input stage follows. -/
def State.passKeys (s : State) (j g : Nat) (job : Job) (m1 : KeyMat) (random : List Byte) : State :=
  let slots := s.chargedSlots job
  let s := if job.charged then s else slots.foldl State.charge s
  let m2 := match job.slot2 with | some k => (s.slot k).mat | none => {}
  let secret := decide (slots ≠ []) || (decide (job.desc.keyForm = 3) && (s.use1 job).secret)
  let c := s.claimedSlot job
  let s := match c with | some k => s.claim j k | none => s
  let s := s.modJob j fun x => { x with
    stage := .input, rngWait := false, charged := true, secret := secret, slots := slots, key1 := m1, key2 := m2,
    random := random, retryBlob := bit m1.attr 44, order2 := attrOrder2 m1.attr }
  match s.job j with
  | some x => s.deliver g x
  | none => s

/-- The random inputs and the expander words of a job's delivery; a shortage leaves it waiting (R202, R289). -/
def State.supplyKeys (s : State) (j g : Nat) (job : Job) (m1 : KeyMat) : State :=
  let k := s.kindOf job
  let n := drbgBytes k (setOf job.desc.opcode) job.desc.param (attrLen m1.attr)
  let p := match s.pairOwner job.pair with | some o => o.port | none => 0
  match s.drawPort (g / 256) p n with
  | (s, .notReady) => s.endExecution j g Status.rngNotReady 0 0
  | (s, .wait) => s.waitAtKey j true
  | (s', .bytes b) =>
    match s'.drawKeyPort (g / 256) (shareWords { job with order2 := attrOrder2 m1.attr } (m1.secret.length + b.length)) with
    | some s => s.passKeys j g job m1 b
    | none => s.waitAtKey j true

/-- The key stage of a placed job (R17, R60, R191, R209): both keys are judged, the first key's failure before the second's;
a held charge, a leaf in preparation or a shortage leaves the job waiting. -/
def State.keyStage (s : State) (j g : Nat) (job : Job) (blob : List Byte) : State :=
  let order2 := (s.grain g).header.flags.testBit 4
  let v1 := s.judge1 job order2 blob
  if v1.1 ≠ Status.ok then s.endExecution j g v1.1 0 0
  else
    let v2 := s.judge2 job order2 v1.2
    if v2 ≠ Status.ok then s.endExecution j g v2 0 0
    else
      let slots := s.chargedSlots job
      if !job.charged && slots.any fun k => (s.slot k).holdsCharges then s.waitAtKey j false
      else match (if job.charged then none else slots.find? s.needsFloor) with
        | some k => (s.modSlot k fun x => { x with floorWrite := true }).waitAtKey j false
        | none =>
          if leafKind (s.kindOf job) ∧ job.leaf = none then
            let k := job.desc.keyIndex
            match s.leafTurn k with
            | .exhausted => (s.modJob j fun x => { x with exhausted := true, stage := .input, key1 := {} }).deliver g job
            | .wait => s.waitAtKey j false
            | .restore => (s.modStateful k Stateful.startRestore).waitAtKey j false
            | .reserve => (s.modStateful k fun x => { x with reserving := true }).waitAtKey j false
            | .leaf _ => (s.handLeaf j k).supplyKeys j g job v1.2
          else s.supplyKeys j g job v1.2

end Sys2Proof.Machine
end

