-- ==== Sys2Proof/Machine/Digest.lean ====
section
/-!
DEFINITION. The digest engines (R255 to R266): feeding, key loading, results and the events that end a message.
-/
namespace Sys2Proof.Machine

def State.digest (s : State) (e : Nat) : Digest := s.digests.get e {}
def State.modDigest (s : State) (e : Nat) (f : Digest → Digest) : State := { s with digests := s.digests.modify e {} f }

/-- A requester reaches the registers of engine `e` for a write: the PF that owns it, or a loam core (R255, R258). -/
def State.digOwned (s : State) (r : Requester) (e : Nat) : Bool :=
  match r with
  | .pf p => decide (e < 16 ∧ s.tilth.digest.find? e = some p)
  | .vf _ _ => false
  | .loam _ => decide (e < 18 ∧ (s.tilth.digest.find? e = none ∨ 16 ≤ e))

/-! Algorithms (R257). -/

/-- ALG, OLEN, SRC, CMP and KEYSRC of DIG_CTL. -/
def Digest.alg (d : Digest) : Nat := bits d.ctl 4 0
def Digest.olen (d : Digest) : Nat := bits d.ctl 23 16
def Digest.dmaFed (d : Digest) : Bool := bit d.ctl 5
def Digest.cmp (d : Digest) : Bool := bit d.ctl 6
def Digest.keySrc (d : Digest) : Bool := bit d.ctl 8
def Digest.klen (d : Digest) : Nat := bits d.param 31 24
def Digest.clen (d : Digest) : Nat := bits d.param 22 16

/-- ALG values that exist. -/
def digAlgOk (a : Nat) : Bool := decide (a ≤ 0x0C ∨ (0x10 ≤ a ∧ a ≤ 0x14) ∨ a = 0x18 ∨ a = 0x19)
/-- Output length by OLEN. -/
def digXof (a : Nat) : Bool := decide ((0x09 ≤ a ∧ a ≤ 0x0C) ∨ a = 0x18 ∨ a = 0x19)
/-- Keyed algorithms. -/
def digKeyed (a : Nat) : Bool := decide (0x10 ≤ a)

/-- The output bytes of a message. -/
def Digest.outLen (d : Digest) : Nat :=
  let a := d.alg
  if digXof a then d.olen else algBytes (if digKeyed a then a - 0x10 else a)

/-- The ranges of R257 and of the register tables. -/
def Digest.configOk (d : Digest) : Bool :=
  let a := d.alg
  digAlgOk a && decide (d.clen ≤ 64) &&
  (if digXof a then decide (1 ≤ d.olen ∧ d.olen ≤ 64) else decide (d.olen = 0)) &&
  (if digKeyed a && !d.keySrc then decide (1 ≤ d.klen ∧ d.klen ≤ 128) else decide (d.klen = 0))

/-- The output over the message. -/
def Digest.compute (d : Digest) : List Byte :=
  let m := d.message
  match d.alg with
  | 0x05 => sha3 28 m
  | 0x06 => sha3 32 m
  | 0x07 => sha3 48 m
  | 0x08 => sha3 64 m
  | 0x09 => shake 128 d.olen m
  | 0x0A => shake 256 d.olen m
  | 0x0B => cshake 128 d.olen m [] d.cust
  | 0x0C => cshake 256 d.olen m [] d.cust
  | 0x18 => kmac 128 d.olen d.key m d.cust
  | 0x19 => kmac 256 d.olen d.key m d.cust
  | a => if a < 0x05 then sha2 a m else hmac (sha2 (a - 0x10)) (shaBlockLen (a - 0x10)) d.key m

/-- Bytes held in 32-bit registers. -/
def regBytes (m : Map W32) (n : Nat) : List Byte := (List.range n).flatMap fun i => leBytes 4 (m.get i 0).toNat

/-! Ends of a message. -/

/-- A message ends with an error: output and result read 0, the key is zeroed (R263, R264). -/
def State.digError (s : State) (e : Nat) (err : DigError) : State :=
  (s.modDigest e fun d => { d with
    state := .error, error := err, result := 0, out := [], key := [], slot := none, message := [], paused := false }).event
      (.dig e) 2

/-- An engine has a message in progress. -/
def Digest.busy (d : Digest) : Bool := decide (d.state ∈ [DigState.feed, .armed, .dma, .final])

/-- The engine is zeroed, and a message in progress ends with an error (R265). -/
def State.digStop (s : State) (e : Nat) (err : DigError) : State :=
  let d := s.digest e
  if d.busy then
    (s.modDigest e fun _ => { state := .error, error := err, ctl := d.ctl, param := d.param }).event (.dig e) 2
  else if d.state = .idle then s
  else s.modDigest e fun x => { x with
    key := [], cust := [], expect := [], keyReg := [], custReg := [], expectReg := [], message := [], out := [], result := 0 }

/-! Keys (R263). -/

/-- The class of a MAC key for an ALG (R311). -/
def macClass (a : Nat) : Nat := if a < 0x18 then 0xE1 + (a - 0x10) else 0xE8 + (a - 0x18)

/-- The verdict on the slot of a message: its owner, its attributes and its budget. The Secure Executive's engines take
system slots. -/
def State.digKey (s : State) (e : Nat) (d : Digest) : DigError :=
  let k := bits d.param 11 0
  let x := s.slot k
  let owned := match s.tilth.digest.find? e with
    | some p => match s.funcTenant p 0 with | some t => s.owns t k | none => false
    | none => x.system
  if !owned ∨ x.state ≠ .loaded then .keyAbsent
  else if !(bit x.attr (if 16 ≤ e then 19 else 18) && bit x.attr opsMac && digKeyed d.alg &&
      decide (attrClass x.attr = macClass d.alg)) then .keyDenied
  else if x.budget = 0 then .keyBudget
  else .none

/-- DIG_CTL_WRITE: a new message begins (R261). -/
def execDigCtlWrite (r : Requester) (e : Nat) (value : W32) (s : State) : Result :=
  .next (
    if !s.live r then s
    else
      let s := s.noteWrite r
      if !s.digOwned r e then s
      else
        let old := s.digest e
        let d : Digest := { old with
          ctl := value.toNat &&& 0x00FF017F, out := [], result := 0, error := .none, message := [], keyReg := [], slot := none
          lenSet := false, paused := s.power.holdActive && decide (e < 16)
          key := (regBytes old.keyReg 32).take old.klen, cust := (regBytes old.custReg 16).take old.clen
          expect := regBytes old.expectReg 16 }
        let s := s.modDigest e fun _ => d
        if !d.configOk then s.digError e .config
        else
          let go := fun (s : State) => s.modDigest e fun x => { x with state := if x.dmaFed then .armed else .feed }
          if !d.keySrc then go s
          else match s.digKey e d with
            | .none =>
              let k := bits d.param 11 0
              go ((s.charge k).modDigest e fun x => { x with key := (s.slot k).secret, slot := some k })
            | err => s.digError e err)

/-! Feeding (R262). -/

/-- Software feeding: bytes are absorbed in FEED; in another mode, or before or after a message, the write is out of
sequence. -/
def State.digFeed (s : State) (e : Nat) (bs : List Byte) (last : Bool) : State :=
  let d := s.digest e
  match d.state with
  | .feed =>
    if 2 ^ 61 - 1 < d.message.length + bs.length then s.digError e .length
    else s.modDigest e fun x => { x with message := x.message ++ bs, state := if last then .final else .feed }
  | .final => s
  | _ => s.digError e .sequence

/-- DIG_DATA_WRITE: DIG_DATA_HI absorbs the 8 bytes of DIG_DATA. -/
def execDigDataWrite (r : Requester) (e : Nat) (value : W32) (s : State) : Result :=
  .next (
    if !s.live r then s
    else
      let s := s.noteWrite r
      if !s.digOwned r e then s else s.digFeed e (leBytes 4 (s.digest e).dataLo ++ leBytes 4 value.toNat) false)

/-- DIG_LAST_WRITE: DIG_LAST_HI absorbs the first DIG_LCNT bytes of DIG_LAST and finishes the message. -/
def execDigLastWrite (r : Requester) (e : Nat) (value : W32) (s : State) : Result :=
  .next (
    if !s.live r then s
    else
      let s := s.noteWrite r
      if !s.digOwned r e then s
      else s.digFeed e ((leBytes 4 (s.digest e).lastLo ++ leBytes 4 value.toNat).take (s.digest e).lcnt) true)

/-- DIG_LEN_WRITE: the length of a DMA-fed message; 0 finishes it at once. -/
def execDigLenWrite (r : Requester) (e : Nat) (value : W32) (s : State) : Result :=
  .next (
    if !s.live r then s
    else
      let s := s.noteWrite r
      if !s.digOwned r e then s
      else match (s.digest e).state with
        | .armed => s.modDigest e fun d =>
            { d with len := value.toNat, lenSet := true, state := if value.toNat = 0 then .final else .armed }
        | .dma | .final => s
        | _ => s.digError e .sequence)

/-- DIG_ADDR_HI_WRITE: the read of a DMA-fed message starts; a range past 2^64 starts none (R504). After a length of 0 the
address writes are ignored. -/
def execDigAddrHiWrite (r : Requester) (e : Nat) (value : W32) (s : State) : Result :=
  .next (
    if !s.live r then s
    else
      let s := s.noteWrite r
      let d := s.digest e
      if !s.digOwned r e then s
      else match d.state with
        | .armed =>
          if !d.lenSet then s
          else if 2 ^ 64 < value.toNat * 2 ^ 32 + d.addrLo + d.len then
            (s.modDigest e fun x => { x with addrHi := value.toNat }).digError e .length
          else s.modDigest e fun x => { x with addrHi := value.toNat, state := .dma }
        | .dma | .final => s
        | _ => if d.lenSet ∧ d.len = 0 ∧ d.dmaFed then s else s.digError e .sequence)

/-- DIG_DMA_DONE: the last byte is absorbed; a refused read ends the message. -/
def execDigDmaDone (e : Nat) (data : Option (List Byte)) (s : State) : Result :=
  .next (
    let d := s.digest e
    if d.state ≠ .dma ∨ d.paused then s
    else match data with
      | none => s.digError e .dmaError
      | some b => s.modDigest e fun x => { x with message := padTo x.len b, state := .final })

/-- DIG_RESULT_READY: the output or the outcome of the compare stands, and the key is zeroed (R263, R264). Keyed work on DS0
and DS1 waits for the first seed (R256). -/
def execDigResultReady (e : Nat) (s : State) : Result :=
  .next (
    let d := s.digest e
    if d.state ≠ .final ∨ d.paused ∨ (16 ≤ e ∧ digKeyed d.alg ∧ !s.rng.firstSeed) then s
    else
      let out := d.compute
      let equal := decide (out = d.expect.take d.outLen)
      (s.modDigest e fun x => { x with
        state := .done, key := [], slot := none, message := []
        out := if d.cmp then [] else out, result := if !d.cmp then 0 else if equal then 1 else 2 }).event (.dig e) 1)

/-- A write to a digest register that has no row of its own: DIG_PARAM, DIG_ADDR_LO, DIG_LCNT, DIG_DATA_LO, DIG_LAST_LO,
DIG_EXPECT, DIG_KEY and DIG_CUST (R258). -/
def State.digRegister (s : State) (e off : Nat) (value : W32) : State :=
  s.modDigest e fun d =>
    match off with
    | 0x00C => { d with param := value.toNat &&& 0xFF7F0FFF }
    | 0x024 => { d with addrLo := value.toNat }
    | 0x030 => { d with lcnt := bits value.toNat 2 0 }
    | 0x040 => { d with dataLo := value.toNat }
    | 0x048 => { d with lastLo := value.toNat }
    | _ =>
      if off % 4 ≠ 0 then d
      else if 0x0C0 ≤ off ∧ off < 0x100 then { d with expectReg := d.expectReg.set ((off - 0x0C0) / 4) value 0 }
      else if 0x100 ≤ off ∧ off < 0x180 then { d with keyReg := d.keyReg.set ((off - 0x100) / 4) value 0 }
      else if 0x180 ≤ off ∧ off < 0x1C0 then { d with custReg := d.custReg.set ((off - 0x180) / 4) value 0 }
      else d

end Sys2Proof.Machine
end

