-- ==== Sys2Proof/Machine/KeyWrite.lean ====
section
/-!
DEFINITION. What changes a slot after its key stage: the write of a claimed slot with its shelf record (R199, R318), and
destruction (R215, R323).
-/
namespace Sys2Proof.Machine

/-- The room of a shelf record (R318). -/
def ShelfRecord.room (r : ShelfRecord) : Nat := roundUp (144 + r.cache.length + r.pub.length) 64

/-- The free bytes of the 1 MiB shelf. -/
def Vault.shelfFree (v : Vault) : Nat := 2 ^ 20 - v.shelf.foldl (fun n (_, r) => n + r.room) 0

/-- The floor written at creation (R319). -/
def floorOf (budget : Nat) : Nat := if budget = unlimited then unlimited else budget - 1024

/-- The shelf record of a slot. -/
def Slot.record (x : Slot) : ShelfRecord :=
  { owner := x.owner, system := x.system, attr := x.attr, floor := floorOf x.budget, secret := x.secret, cache := x.cache,
    pub := x.pub, stateful := x.stateful, uses := x.uses, createSeq := x.createSeq }

/-- The entry of type KEY_CREATED (R437, R505). -/
def State.logCreated (s : State) (k path : Nat) : State :=
  let x := s.slot k
  s.log 0x2001 (leBytes 2 k ++ leBytes 2 x.owner ++ leBytes 1 (attrClass x.attr) ++ leBytes 1 path ++ leBytes 6 x.uses)

/-- The entry of type KEY_DESTROYED. -/
def State.logDestroyed (s : State) (k path : Nat) : State :=
  let x := s.slot k
  s.log 0x2002 (leBytes 2 k ++ leBytes 2 x.owner ++ leBytes 1 (attrClass x.attr) ++ leBytes 1 path ++ leBytes 6 x.uses)

/-- Write a key into a claimed slot: the shelf record of a persistent slot first, and nothing when the shelf lacks room
(R199, R318). The answer says whether the key was written. -/
def State.writeKey (s : State) (j k : Nat) (m : KeyMat) (st : Option Stateful) (path : Nat) : State × Bool :=
  let x := s.slot k
  let attr := x.attr &&& (2 ^ 64 - 1 - attrUseMask) ||| (m.attr &&& attrUseMask) ||| (m.attr &&& 2 ^ 45)
  let attr := if m.attr &&& 2 ^ 41 = 0 then attr &&& (2 ^ 64 - 1 - 2 ^ 41) else attr
  let y := { x with
    state := .loaded, secret := m.secret, cache := m.cache, pub := m.pub, attr := attr, stateful := st, uses := 0,
    createSeq := s.hzn.next }
  if attrPersistent attr ∧ s.vault.shelfFree < y.record.room then ((s.event .key 4), false)
  else
    let s := if attrPersistent attr then
      { s with vault := { s.vault with shelf := s.vault.shelf.insert k y.record } } else s
    let s := (s.modSlot k fun _ => y).modJob j fun z => { z with claim := none }
    (s.logCreated k path, true)

/-- Jobs that hold the delivered secret of a slot, or a claim of it, are aborted (R215, R323). -/
def State.abortHolders (s : State) (k : Nat) : State :=
  (s.jobsWhere fun x => decide (x.claim = some k) || (x.charged && x.slots.contains k)).foldl
    (fun s j => s.abortJob j Status.aborted) s

/-- Destroy the key of a slot: secret, cache lines and shelf record go, its ownership stays (R323); contexts on it lose their
key for good (R322). -/
def State.destroySlot (s : State) (k path : Nat) : State :=
  let x := s.slot k
  if x.state = .unassigned ∨ x.state = .empty then s
  else
    let s := s.abortHolders k
    let s := if x.state = .loaded then s.logDestroyed k path else s
    { s with vault := { s.vault with
      ctxs := s.vault.ctxs.mapVals fun _ c => if c.keyed ∧ c.slot = k then { c with keyGone := true } else c
      slots := s.vault.slots.insert k { state := .empty, owner := x.owner, system := x.system }
      shelf := s.vault.shelf.erase k } }

end Sys2Proof.Machine
end

