-- ==== Sys2Proof/Machine/GrainEnd.lean ====
section
/-!
DEFINITION. Streams, the end of a job on a grain, and the events of a grain: program load, scrub, exceptions that no
instruction raises, seeds and timeouts, and the control store (R97, R102, R103, R107 to R111, R119, R124, R134, R174 to R176).
-/
namespace Sys2Proof.Machine

/-! Streams (R134). -/

/-- The length of a job's input stream: the cached public key of a Classic McEliece encapsulation leads it (R233). -/
def State.streamHead (s : State) (job : Job) : List Byte :=
  if s.kindOf job = .mceEncaps ∧ job.desc.keyForm = 1 then job.key1.pub else []

/-- The bytes of the stream from `off`, where the host's part is `data` and begins at the stream's offset `off` or at the
end of its head. -/
def streamChunk (head data : List Byte) (off n : Nat) : List Byte :=
  let a := slice head off n
  a ++ padTo (n - a.length) data

/-- INPULL: the next input bytes fill the IN window; a refused read ends the job with DMA_ERROR. -/
def execInpull (g : Nat) (dst : Reg) (data : Option (List Byte)) (s : State) : Result :=
  let w := encA 0x2C 0 dst 0 0
  .next (match s.fetching g w with
    | none => s
    | some (j, job) =>
      let G := s.grain g
      let head := s.streamHead job
      let n := min G.header.inSize (head.length + job.desc.inLen - job.delivered)
      match data with
      | none => if n ≤ head.length - job.delivered then
          (s.runGrain g w fun _ G =>
            .ok ((G.store G.header.inOff (slice head job.delivered n)).setX dst.toNat (BitVec.ofNat 64 n), G.next)).modJob j
              fun x => { x with delivered := x.delivered + n }
        else s.endExecution j g Status.dmaError 0 0
      | some d =>
        (s.runGrain g w fun _ G =>
          .ok ((G.store G.header.inOff (streamChunk head d job.delivered n)).setX dst.toNat (BitVec.ofNat 64 n),
            G.next)).modJob j fun x => { x with delivered := x.delivered + n })

/-- The output list of a job from the list bytes the device read (R57, R504). -/
def sglEntries (raw : List Byte) (count : Nat) : List (Nat × Nat × Nat) :=
  (List.range count).map fun i => (field raw (16 * i) 8, field raw (16 * i + 8) 4, field raw (16 * i + 12) 4)

/-- A list that R57 and R504 accept, as (address, length) pairs. -/
def readSgl (raw : List Byte) (addr count total : Nat) : Option (List (Nat × Nat)) :=
  let es := sglEntries raw count
  if count ≤ 256 ∧ addr % 16 = 0 ∧ (es.all fun e => decide (e.2.2 = 0 ∧ e.1 + e.2.1 ≤ 2 ^ 64)) ∧
      (es.foldl (fun n e => n + e.2.1) 0) = total then
    some ((es.filter fun e => decide (e.2.1 ≠ 0)).map fun e => (e.1, e.2.1))
  else none

/-- The entries of a list from byte `off` on. -/
def dropBytes : List (Nat × Nat) → Nat → List (Nat × Nat)
  | [], _ => []
  | (a, n) :: es, off => if n ≤ off then dropBytes es (off - n) else (a + off, n - off) :: es

/-- OUTPUSH: OUT window bytes go to the host at the running offset. The first push begins the output stage, reads the
output list where there is one, and fails with SGL_FORMAT as that stage does. -/
def execOutpush (g : Nat) (dst src1 : Reg) (list : List Byte) (accepted : Bool) (s : State) : Result :=
  let w := encA 0x2C 1 dst src1 0
  .next (match s.fetching g w with
    | none => s
    | some (j, job) =>
      let G := s.grain g
      let n := (G.x src1.toNat).toNat
      let d := job.desc
      let total := job.pushed + n
      if n = 0 then s.runGrain g w fun _ G => .ok (G, G.next)
      else if G.header.outSize < n then s.stopGrain g j (.fault causeDmBounds)
      else if d.outLen < total then s.runGrain g w fun _ G => .ok (G.setX dst.toNat (BitVec.allOnes 64), G.next)
      else
        let ranges := if !d.flags.testBit 1 then some [(d.outAddr, d.outLen)]
          else if job.streamed then some job.outList else readSgl list d.outAddr d.outSgl d.outLen
        match ranges with
        | none => s.endExecution j g Status.sglFormat 0 0
        | some es =>
          if !accepted then s.endExecution j g Status.dmaError 0 0
          else
            let bytes := G.bytes G.header.outOff n
            let s := match s.pairOwner job.pair with
              | some o => s.dmaScatter o.port o.func (dropBytes es job.pushed) bytes
              | none => s
            let s := s.runGrain g w fun _ G => .ok (G.setX dst.toNat (BitVec.ofNat 64 total), G.next)
            s.modJob j fun x => { x with
              pushed := total, streamed := true, outList := if d.flags.testBit 1 then es else [] })

/-! END (R97, R124). -/

/-- The result statuses that a program may report (R97). -/
def acceptedStatus (v : Nat) : Bool :=
  [Status.ok, Status.verifyFail, Status.outputShort, Status.inputInvalid, Status.noncanonical, Status.inverseNone,
   Status.pointInvalid, Status.keyExhausted, Status.faultDetected].contains v

/-- Some engine still runs a program of the job. -/
def State.engineBusy (s : State) (j : Nat) : Bool := s.engines.any fun (_, e) => decide (e.holder = some j ∧ e.state = .running)

/-- What a program that claims a slot leaves there: the spec does not say where the program leaves it, so secret and cache
material are free; the public key of a generated pair is the output (log entry 23). -/
def State.generated (s : State) (job : Job) (k : Nat) (out : List Byte) : KeyMat :=
  let a := (s.slot k).attr
  let c := attrClass a
  { attr := a
    secret := s.freeBytes (if attrLen a = 0 then classLen c else attrLen a)
    cache := if cacheClass c then (List.range 1024).map fun i => Config.freeByte s.free (2 ^ 20 + i) else []
    pub := if pairClass c then (if job.desc.keyForm = 1 ∧ job.desc.keyIndex = k then out else s.freeBytes (pubLen c)) else [] }

/-- The path of KEY_CREATED (R505). -/
def createPath (k : OpKind) : Nat :=
  match k with
  | .symGenerate => 2
  | .importPublic => 3
  | .importWrapped => 4
  | .importBlob => 5
  | .derive => 6
  | .kemEncaps | .kemDecaps | .hqcEncaps | .hqcDecaps | .mceEncaps | .mceDecaps | .kaDerive => 7
  | .blockImport => 8
  | _ => 1

/-- A job on a grain ended OK: its claimed slot is written before the output stage begins (R199), and the claim is lost
with KEY_DENIED when the shelf lacks room (R318). -/
def State.finishOk (s : State) (j g : Nat) (job : Job) (mat : KeyMat) (st : Option Stateful) (out : List Byte)
    (written detail : Nat) : State :=
  match job.claim with
  | none => (s.modJob j fun x => { x with out := out }).endExecution j g Status.ok written detail
  | some k =>
    let r := s.writeKey j k mat st (createPath (s.kindOf job))
    if r.2 then (r.1.modJob j fun x => { x with out := out }).endExecution j g Status.ok written detail
    else r.1.endExecution j g Status.keyDenied 0 0

/-- The completion status from the result fields (R97). -/
def State.judgeEnd (s : State) (j g : Nat) (job : Job) : State :=
  let G := s.grain g
  let status := leNat (G.bytes 0x40 2)
  let len := leNat (G.bytes 0x44 4)
  let detail := leNat (G.bytes 0x48 4)
  if !acceptedStatus status then s.stopGrain g j (.fault causeResultStatus)
  else if status = Status.ok ∧ !job.streamed ∧ G.header.outSize < len then s.stopGrain g j (.fault causeDmBounds)
  else if status = Status.ok ∧ job.desc.outLen < len then s.endExecution j g Status.outputShort len detail
  else if status = Status.ok then
    let out := if job.streamed then [] else G.bytes G.header.outOff len
    match job.claim with
    | some k => s.spend.finishOk j g job (s.generated job k out) none out (if job.streamed then job.pushed else len) detail
    | none => s.finishOk j g job {} none out (if job.streamed then job.pushed else len) detail
  else if status = Status.faultDetected then s.endExecution j g status 0 (causeSelfVerify * 2 ^ 24)
  else s.endExecution j g status (if status = Status.outputShort then len else 0) detail

/-- END: it waits while an engine runs a program of the job. -/
def execEndJob (g : Nat) (s : State) : Result :=
  .next (match s.fetching g (encJ 0x1F 0 0) with
    | none => s
    | some (j, job) => if s.engineBusy j then s else s.judgeEnd j g job)

/-! Exceptions that no instruction raises (R109). -/

/-- A word with no assigned encoding is fetched. -/
def execIllegalEncoding (g : Nat) (s : State) : Result :=
  .next (match s.executing g, (s.grain g).fetched with
    | some (j, _), some w => if assignedWord w then s else s.stopGrain g j (.fault causeIllegal)
    | _, _ => s)

/-- A fetch at or past TEXT_WORDS. -/
def execPmRangeFetch (g : Nat) (s : State) : Result :=
  .next (match s.executing g with
    | some (j, _) => if (s.grain g).header.textWords ≤ (s.grain g).pc then s.stopGrain g j (.fault causePmRange) else s
    | none => s)

/-- The execute cycles reach CYCLE_BOUND: the job ends at the boundary it stands at. -/
def execCycleBoundReached (g : Nat) (s : State) : Result :=
  .next (match s.executing g with
    | some (j, _) => s.stopGrain g j (.fault causeCycleBound)
    | none => s)

/-! Program load and scrub. -/

/-- PM and the data region take a program (R107). -/
def Grain.loadProgram (G : Grain) (p : Program) : Grain :=
  { G with
    prog := some p.header
    pm := (p.text.zipIdx).foldl (fun m x => m.set x.2 x.1 0) []
    dm := Memory.put G.dm p.header.dataOff p.data }

/-- The program of a code in the shelf of a bed, by its key: PROG_ID, or the owner extension's index past them (R107, R364). -/
def State.progKey (s : State) (code : Nat) : Option Nat :=
  match s.tilth.extensionOf code with
  | some (i, _) => some (2 ^ 32 + i)
  | none => (s.boot.directory.find? fun e => decide (e.1 = code)).map Prod.snd

/-- The staged program bound to a code in a bed. -/
def State.shelved (s : State) (b code : Nat) : Option Program := (s.progKey code).bind fun k => (s.bed b).shelf.find? k

/-- A free grain of a tenant: idle, in the given bed. -/
def State.freeGrains (s : State) (t : Nat) : List Nat :=
  (List.range 1024).filter fun g =>
    decide (s.grainTenant g = some t ∧ (s.grain g).state = .idle) && s.grainPresent g

/-- PROGRAM_LOAD_DONE: the load writes PM and the data region of the job's grain and of every free grain of the same tenant
in its bed (R107). -/
def execProgramLoadDone (g : Nat) (s : State) : Result :=
  .next (match (s.grain g).job.bind s.job with
    | none => s
    | some job =>
      if (s.grain g).state ≠ .load then s
      else match s.shelved (g / 16) job.desc.opcode with
        | none => s
        | some p =>
          let others := (s.freeGrains job.tenant).filter fun x => decide (x / 16 = g / 16)
          let s := others.foldl (fun s x => s.modGrain x fun G => G.loadProgram p) s
          s.modGrain g fun G => { G.loadProgram p with state := .running })

/-- The grain's program as its bed's shelf holds it, for the data region that a scrub restores. -/
def State.dataOf (s : State) (g : Nat) : Option Program :=
  match (s.grain g).prog with
  | none => none
  | some h => (List.find? (fun (e : Nat × Program) => decide (e.2.header = h)) (s.bed (g / 16)).shelf).map Prod.snd

/-- PM of grain `g` holds the program of its job (R107). -/
def State.holdsProgram (s : State) (g : Nat) : Bool :=
  match (s.grain g).job.bind s.job with
  | none => false
  | some job =>
    match s.shelved (g / 16) job.desc.opcode with
    | some p => decide ((s.grain g).prog = some p.header)
    | none => false

/-- The scrub is the one that a known-answer test needs before a job that was placed on its grain (R465). -/
def State.startsAfterScrub (s : State) (g : Nat) : Bool :=
  match (s.grain g).job.bind s.job with
  | none => false
  | some job => decide (job.stage = Stage.placed ∧ job.grain = some g)

/-- A grain that no tenant holds is cleared: registers, DM, PM and scratch, and its expander reseeds (R25). -/
def State.clearGrain (s : State) (g : Nat) : State :=
  let G := s.grain g
  let e := G.expander
  let fresh : Expander := if e.delivered = 0 ∨ e.seedHeld then {} else { e with delivered := expanderSpan, pending := true }
  let s := s.modGrain g fun _ => { expander := fresh, patrol := G.patrol, busy := G.busy, tested := G.tested }
  if e.delivered = 0 ∨ e.seedHeld ∨ e.pending then s else s.requestSeed (.grain g)

/-- What the end of a scrub leaves (R25, R108, R111, R465). -/
def State.scrubDone (s : State) (g : Nat) : State :=
  let G := s.grain g
  let clean : Grain :=
    { prog := G.prog, pm := G.pm, expander := G.expander, patrol := G.patrol, busy := G.busy, tested := G.tested }
  let clean := match s.dataOf g with | some p => { clean with dm := Memory.put [] p.header.dataOff p.data } | none => clean
  let s := match G.job.bind s.job, G.job with
    | some job, some j => if job.stage = Stage.ending then s.complete j job.status true else s
    | _, _ => s
  if (s.grainTenant g).isNone then s.clearGrain g
  else if s.startsAfterScrub g then s.modGrain g fun _ => { clean with
    job := G.job, regs := { x := G.regs.x }, state := if s.holdsProgram g then .running else .load }
  else if (s.quad (g / 256)).reloads.contains g then s.modGrain g fun _ => { clean with state := .reload }
  else s.modGrain g fun _ => { clean with state := .idle }

/-- GRAIN_SCRUB_DONE: registers, scratch, units and DM are cleared and the data region is restored; a stopped job completes
with its status, and a grain without a tenant is cleared whole (R25, R108). A bed that becomes free begins to apply a raised
epoch (R89). -/
def execGrainScrubDone (g : Nat) (s : State) : Result :=
  .next (if (s.grain g).state ≠ .scrub then s else (s.scrubDone g).startApply (g / 16))

/-! Seeds and timeouts (R102, R103). -/

/-- EXPANDER_SEED_ARRIVAL: a seed that the arbiter has delivered reaches the expander; a grain that stalled for it goes on. -/
def execExpanderSeedArrival (g : Nat) (s : State) : Result :=
  let G := s.grain g
  .next (if !G.expander.coming then s
    else s.modGrain g fun x => { x with
      expander := x.expander.arrive
      state := if x.state = .stalled then .running else x.state
      rngWait := false })

/-- A random-bytes job whose reservation has been accepted, and which waits for no seeds of its own, is not starved (R295). -/
def State.hasReserved (s : State) (j : Nat) : Bool :=
  s.rng.drbgs.any fun (_, d) => d.requests.any fun r => decide (r.user = DrbgUser.job j ∧ r.predict = false)

/-- The reservations and seed requests of a job that ends are given up; the reservations behind them move up. -/
def State.dropReservation (s : State) (j : Nat) : State :=
  s.modRng fun r => { r with
    waiting := r.waiting.filter fun x => decide (x ≠ .entropy j)
    drbgs := r.drbgs.mapVals fun _ d =>
      let d := { d with waiting := d.waiting.filter fun w => !w.any fun x => decide (x.user = DrbgUser.job j) }
      (d.acceptAll d.waiting.length).advance }

/-- RNG_TIMEOUT: a job that waits for randomness, on its grain, at the key stage or in group 0x7, ends with RNG_STARVED
(R103, R202, R295). The clock pauses during a settle hold. -/
def execRngTimeout (j : Nat) (s : State) : Result :=
  .next (match s.job j with
    | none => s
    | some job =>
      if s.power.holdActive ∨ job.held then s
      else match job.grain with
        | none =>
          if job.rngWait ∧ !s.hasReserved j then (s.dropReservation j).complete j Status.rngStarved true else s
        | some g => if job.rngWait ∨ (s.grain g).state = .stalled then s.endExecution j g Status.rngStarved 0 0 else s)

/-! The control store (R174 to R176). -/

/-- The parity of a microword: bits 48, 49 and 50 make bits 15:0, 31:16 and 47:32 odd (R162, R164). -/
def microParity (w : BitVec 51) : Bool :=
  (List.range 3).all fun k =>
    decide (((List.range 16).foldl (fun n i => n + ofBool (w.getLsbD (16 * k + i))) (ofBool (w.getLsbD (48 + k)))) % 2 = 1)

/-- The parity of a dispatch entry: odd over bits 12:0 (R172). -/
def dispatchParity (w : BitVec 51) : Bool :=
  decide ((List.range 13).foldl (fun n i => n + ofBool (w.getLsbD i)) 0 % 2 = 1)

/-- CS_PATROL_READ: an idle grain reads the next word of its control store or dispatch table. A parity error is a machine
check, and the grain goes to RELOAD or is retired (R174, R175). -/
def execCsPatrolRead (g : Nat) (word : BitVec 51) (s : State) : Result :=
  .next (
    let G := s.grain g
    if G.state ≠ .idle ∨ (s.bed (g / 16)).state ≠ .awake then s
    else
      let good := if G.patrol < 4096 then microParity word else dispatchParity word
      let s := s.modGrain g fun x => { x with patrol := (x.patrol + 1) % 4608 }
      if good then s
      else
        let s := s.machineCheck g causeCsParity
        if (s.quad (g / 256)).reloads.contains g then s.modGrain g fun x => { x with state := .reload } else s)

/-- CS_RELOAD_DONE: the first reload of the quadrant ends. A read-back error repeats it once, and a second one retires the
grain (R176). A grain whose known-answer test repeats stays out of service until its end (R466). -/
def execCsReloadDone (g : Nat) (readBackOk : Bool) (s : State) : Result :=
  .next (
    let q := s.quad (g / 256)
    if q.reloads.head? ≠ some g then s
    else if readBackOk then
      let s := s.modQuad (g / 256) fun x => { x with reloads := x.reloads.tail, reloadTry := 0 }
      let s := s.modBed (g / 16) fun x => { x with reloads := satAdd 0xFFFF x.reloads 1 }
      s.modGrain g fun x => { x with state := if x.state = .reload ∧ !x.test then .idle else x.state }
    else if q.reloadTry = 0 then s.modQuad (g / 256) fun x => { x with reloadTry := 1 }
    else (s.modQuad (g / 256) fun x => { x with reloads := x.reloads.tail, reloadTry := 0 }).retireGrain g)

end Sys2Proof.Machine
end

