-- ==== Sys2Proof/Machine/Flags.lean ====
section
/-!
DEFINITION. Every flag computation of the spec: the binary64 unit of R126 and R127 with the sticky flags of FCSR (R136).
A value is a 64-bit number; a flag set is a number in the places of FCSR: NV 8, DZ 7, OF 6, UF 5, NX 4.
-/
namespace Sys2Proof.Machine

/-- Invalid operation. -/
def fpNV : Nat := 2 ^ 8
/-- Division by zero. -/
def fpDZ : Nat := 2 ^ 7
/-- Overflow. -/
def fpOF : Nat := 2 ^ 6
/-- Underflow. -/
def fpUF : Nat := 2 ^ 5
/-- Inexact. -/
def fpNX : Nat := 2 ^ 4

/-- The NaN every NaN result is (R126). -/
def fpNaN : Nat := 0x7FF8000000000000
/-- Positive infinity. -/
def fpInf : Nat := 0x7FF0000000000000
/-- The sign bit in its place. -/
def fpSign (s : Bool) : Nat := if s then 2 ^ 63 else 0

/-- Bit 63. -/
def fpNeg (v : Nat) : Bool := v.testBit 63
/-- The biased exponent. -/
def fpExp (v : Nat) : Nat := bits v 62 52
/-- The fraction field. -/
def fpFrac (v : Nat) : Nat := bits v 51 0
/-- A NaN. -/
def fpIsNaN (v : Nat) : Bool := decide (fpExp v = 0x7FF ∧ fpFrac v ≠ 0)
/-- A signalling NaN: the quiet bit is clear. -/
def fpIsSNaN (v : Nat) : Bool := fpIsNaN v && !v.testBit 51
/-- An infinity. -/
def fpIsInf (v : Nat) : Bool := decide (fpExp v = 0x7FF ∧ fpFrac v = 0)
/-- A zero of either sign. -/
def fpIsZero (v : Nat) : Bool := decide (v % 2 ^ 63 = 0)

/-- The significand of a finite value, an integer. -/
def fpMant (v : Nat) : Nat := if fpExp v = 0 then fpFrac v else 2 ^ 52 + fpFrac v
/-- The exponent of that integer: the value is ±fpMant · 2 ^ fpScale. -/
def fpScale (v : Nat) : Int := if fpExp v = 0 then -1074 else (fpExp v : Int) - 1075

/-- Rounding modes of R136 FCSR.RM: 0 RNE, 1 RTZ, 2 RDN, 3 RUP. Whether a magnitude is rounded up, from the sign, the
parity of the kept part, the comparison of the rest with one half, and whether anything is dropped. -/
def fpRoundUp (rm : Nat) (neg odd : Bool) (half : Ordering) (inexact : Bool) : Bool :=
  match rm with
  | 0 => half == .gt || (half == .eq && odd)
  | 1 => false
  | 2 => neg && inexact
  | _ => !neg && inexact

/-- `m` (and a non-zero rest below its last bit when `sticky`) rounded to a multiple of 2 ^ `sh`: the count and inexact. -/
def fpRoundMant (rm : Nat) (neg : Bool) (m : Nat) (sh : Int) (sticky : Bool) : Nat × Bool :=
  if sh ≤ 0 then (m <<< (-sh).toNat, sticky)
  else
    let n := sh.toNat
    let kept := m >>> n
    let rest := m % 2 ^ n
    let half := if rest = 2 ^ (n - 1) then (if sticky then .gt else .eq) else compare rest (2 ^ (n - 1))
    let inexact := decide (rest ≠ 0) || sticky
    (kept + ofBool (fpRoundUp rm neg (kept % 2 = 1) half inexact), inexact)

/-- Round ±(m + rest) · 2 ^ e to binary64: the value and the flags it sets. `m` holds at least 55 bits when `sticky`. -/
def fpRound (rm : Nat) (neg : Bool) (m : Nat) (e : Int) (sticky : Bool) : Nat × Nat :=
  if m = 0 then (fpSign neg, if sticky then fpNX + fpUF else 0)
  else
    let top : Int := Nat.log2 m + e
    let q := if top - 52 < -1074 then -1074 else top - 52
    let (k, inexact) := fpRoundMant rm neg m (q - e) sticky
    let carried := decide (2 ^ 53 ≤ k)
    let mant := if carried then k / 2 else k
    let q' := if carried then q + 1 else q
    if 2 ^ 52 ≤ mant ∧ 1023 < q' + 52 then
      let toInf := match rm with
        | 0 => true
        | 1 => false
        | 2 => neg
        | _ => !neg
      (fpSign neg + (if toInf then fpInf else fpInf - 1), fpOF + fpNX)
    else
      let unbounded := (fpRoundMant rm neg m (top - 52 - e) sticky).1
      let tiny := decide (top < -1022) &&
        (Config.tininessBeforeRounding || !(decide (top = -1023) && decide (unbounded = 2 ^ 53)))
      let v := if mant < 2 ^ 52 then mant else (q' + 1075).toNat * 2 ^ 52 + (mant - 2 ^ 52)
      (fpSign neg + v, (if inexact then fpNX else 0) + (if tiny && inexact then fpUF else 0))

/-- The NaN result of an operation on NaNs: NV for a signalling one. -/
def fpNaNResult (a b : Nat) : Nat × Nat := (fpNaN, if fpIsSNaN a || fpIsSNaN b then fpNV else 0)

/-- The sum of two finite values given as sign, integer and exponent. -/
def fpSum (rm : Nat) (sa : Bool) (ma : Nat) (ea : Int) (sb : Bool) (mb : Nat) (eb : Int) : Nat × Nat :=
  let e := if ea ≤ eb then ea else eb
  let x : Int := (ma <<< (ea - e).toNat : Nat)
  let y : Int := (mb <<< (eb - e).toNat : Nat)
  let v := (if sa then -x else x) + (if sb then -y else y)
  if v = 0 then (fpSign (if sa = sb then sa else rm == 2), 0)
  else fpRound rm (decide (v < 0)) v.natAbs e false

/-- FADD. -/
def fpAdd (rm a b : Nat) : Nat × Nat :=
  if fpIsNaN a || fpIsNaN b then fpNaNResult a b
  else if fpIsInf a then (if fpIsInf b && fpNeg a != fpNeg b then (fpNaN, fpNV) else (a, 0))
  else if fpIsInf b then (b, 0)
  else fpSum rm (fpNeg a) (fpMant a) (fpScale a) (fpNeg b) (fpMant b) (fpScale b)

/-- The value with its sign bit inverted (FNEG). -/
def fpNegate (a : Nat) : Nat := a ^^^ 2 ^ 63

/-- FSUB: a NaN keeps its class under the change of sign. -/
def fpSub (rm a b : Nat) : Nat × Nat := fpAdd rm a (fpNegate b)

/-- FMUL. -/
def fpMul (rm a b : Nat) : Nat × Nat :=
  let s := fpNeg a != fpNeg b
  if fpIsNaN a || fpIsNaN b then fpNaNResult a b
  else if fpIsInf a || fpIsInf b then
    (if fpIsZero a || fpIsZero b then (fpNaN, fpNV) else (fpSign s + fpInf, 0))
  else fpRound rm s (fpMant a * fpMant b) (fpScale a + fpScale b) false

/-- FDIV. -/
def fpDiv (rm a b : Nat) : Nat × Nat :=
  let s := fpNeg a != fpNeg b
  if fpIsNaN a || fpIsNaN b then fpNaNResult a b
  else if fpIsInf a then (if fpIsInf b then (fpNaN, fpNV) else (fpSign s + fpInf, 0))
  else if fpIsInf b then (fpSign s, 0)
  else if fpIsZero b then (if fpIsZero a then (fpNaN, fpNV) else (fpSign s + fpInf, fpDZ))
  else
    let n := fpMant a <<< 120
    let d := fpMant b
    fpRound rm s (n / d) (fpScale a - fpScale b - 120) (decide (n % d ≠ 0))

/-- The integer square root, by its bits from the given place down. -/
def natSqrt : Nat → Nat → Nat → Nat
  | 0, n, r => if (r + 1) * (r + 1) ≤ n then r + 1 else r
  | i + 1, n, r =>
    let t := r + 2 ^ (i + 1)
    natSqrt i n (if t * t ≤ n then t else r)

/-- FSQRT. -/
def fpSqrt (rm a : Nat) : Nat × Nat :=
  if fpIsNaN a then fpNaNResult a 0
  else if fpIsZero a then (a, 0)
  else if fpNeg a then (fpNaN, fpNV)
  else if fpIsInf a then (a, 0)
  else
    let odd := fpScale a % 2 ≠ 0
    let e := if odd then fpScale a - 1 else fpScale a
    let n := (fpMant a * (if odd then 2 else 1)) <<< 120
    let r := natSqrt 88 n 0
    fpRound rm false r (e / 2 - 60) (decide (r * r ≠ n))

/-- FMA: a · b + c with one rounding. -/
def fpFma (rm a b c : Nat) : Nat × Nat :=
  let s := fpNeg a != fpNeg b
  let infZero := (fpIsInf a && fpIsZero b) || (fpIsZero a && fpIsInf b)
  let signalling := fpIsSNaN a || fpIsSNaN b || fpIsSNaN c
  if fpIsNaN a || fpIsNaN b || fpIsNaN c then
    (fpNaN, if signalling || (infZero && Config.fmaInfZeroNaNInvalid) then fpNV else 0)
  else if infZero then (fpNaN, fpNV)
  else if fpIsInf a || fpIsInf b then
    (if fpIsInf c && fpNeg c != s then (fpNaN, fpNV) else (fpSign s + fpInf, 0))
  else if fpIsInf c then (c, 0)
  else fpSum rm s (fpMant a * fpMant b) (fpScale a + fpScale b) (fpNeg c) (fpMant c) (fpScale c)

/-- A key that orders the non-NaN values, the two zeros alike. -/
def fpOrder (a : Nat) : Int := if fpNeg a then -((a % 2 ^ 63 : Nat) : Int) else (a % 2 ^ 63 : Nat)

/-- FMIN: minimumNumber of IEEE 754; −0 counts below +0. -/
def fpMin (a b : Nat) : Nat × Nat :=
  let fl := if fpIsSNaN a || fpIsSNaN b then fpNV else 0
  if fpIsNaN a && fpIsNaN b then (fpNaN, fl)
  else if fpIsNaN a then (b, fl)
  else if fpIsNaN b then (a, fl)
  else if fpOrder a < fpOrder b then (a, fl)
  else if fpOrder b < fpOrder a then (b, fl)
  else (if fpNeg a then a else b, fl)

/-- FMAX: maximumNumber of IEEE 754; +0 counts above −0. -/
def fpMax (a b : Nat) : Nat × Nat :=
  let fl := if fpIsSNaN a || fpIsSNaN b then fpNV else 0
  if fpIsNaN a && fpIsNaN b then (fpNaN, fl)
  else if fpIsNaN a then (b, fl)
  else if fpIsNaN b then (a, fl)
  else if fpOrder b < fpOrder a then (a, fl)
  else if fpOrder a < fpOrder b then (b, fl)
  else (if fpNeg a then b else a, fl)

/-- FEQ, a quiet comparison. -/
def fpEq (a b : Nat) : Nat × Nat :=
  if fpIsNaN a || fpIsNaN b then (0, if fpIsSNaN a || fpIsSNaN b then fpNV else 0)
  else (ofBool (decide (fpOrder a = fpOrder b)), 0)

/-- FLT, the signalling comparison of IEEE 754 (PRESUMED, log entry 12). -/
def fpLt (a b : Nat) : Nat × Nat :=
  if fpIsNaN a || fpIsNaN b then (0, fpNV) else (ofBool (decide (fpOrder a < fpOrder b)), 0)

/-- FLE, the signalling comparison of IEEE 754 (PRESUMED, log entry 12). -/
def fpLe (a b : Nat) : Nat × Nat :=
  if fpIsNaN a || fpIsNaN b then (0, fpNV) else (ofBool (decide (fpOrder a ≤ fpOrder b)), 0)

/-- FCVTLD: binary64 to a 64-bit pattern of an int64, saturating (R127). -/
def fpToInt (rm a : Nat) : Nat × Nat :=
  let high := 2 ^ 63 - 1
  let low := 2 ^ 63
  if fpIsNaN a then (high, fpNV)
  else if fpIsInf a then (if fpNeg a then low else high, fpNV)
  else
    let (k, inexact) := fpRoundMant rm (fpNeg a) (fpMant a) (-fpScale a) false
    if fpNeg a then
      (if 2 ^ 63 < k then (low, fpNV) else (ofSigned 64 (-(k : Int)), if inexact then fpNX else 0))
    else (if high < k then (high, fpNV) else (k, if inexact then fpNX else 0))

/-- FCVTDL: a 64-bit pattern of an int64 to binary64. -/
def fpOfInt (rm v : Nat) : Nat × Nat :=
  let i := toSigned 64 v
  if i = 0 then (0, 0) else fpRound rm (decide (i < 0)) i.natAbs 0 false

/-- FCSR with the flags of a result added; the flags are sticky (R126). -/
def fcsrAdd (fcsr : W64) (flags : Nat) : W64 := fcsr ||| BitVec.ofNat 64 flags

end Sys2Proof.Machine
end

