-- ==== Sys2Proof/Machine/GrainFp.lean ====
section
/-!
DEFINITION. The floating-point instructions of a grain (R126, R127).
-/
namespace Sys2Proof.Machine

/-- The rounding mode of an instruction: field 0 takes FCSR.RM, 1 to 4 select RNE, RTZ, RDN and RUP (R127). -/
def Grain.rounding (G : Grain) (rm : BitVec 3) : Nat := if rm = 0 then bits G.regs.fcsr.toNat 2 0 else rm.toNat - 1

/-- FLAGS.FP is set and the rounding field is not 5 to 7. -/
def Grain.fpReady (G : Grain) (rm : BitVec 3) : Except Stop Unit := do
  G.needFp
  need (rm.toNat ≤ 4) causeIllegal

/-- Add sticky flags to FCSR. -/
def Grain.raise (G : Grain) (flags : Nat) : Grain :=
  { G with regs := { G.regs with fcsr := fcsrAdd G.regs.fcsr flags } }

/-- A floating-point result in F(dst) with its flags. -/
def fpToF (rm : BitVec 3) (dst : Reg) (f : Nat → Grain → Nat × Nat) : GrainOp := fun _ G => do
  G.fpReady rm
  let r := f (G.rounding rm) G
  .ok ((G.setF dst.toNat (BitVec.ofNat 64 r.1)).raise r.2, G.next)

/-- A floating-point result in X(dst) with its flags. -/
def fpToX (rm : BitVec 3) (dst : Reg) (f : Nat → Grain → Nat × Nat) : GrainOp := fun _ G => do
  G.fpReady rm
  let r := f (G.rounding rm) G
  .ok ((G.setX dst.toNat (BitVec.ofNat 64 r.1)).raise r.2, G.next)

/-- A sign operation: of a NaN the result is a NaN, which R126 makes the one quiet NaN (DEDUCED, log entry 12). -/
def fpSigned (a r : Nat) : Nat := if fpIsNaN a then fpNaN else r

/-- F(r) as a number. -/
def Grain.fnat (G : Grain) (r : Reg) : Nat := (G.f r.toNat).toNat

def execFadd (g : Nat) (rm : BitVec 3) (dst src1 src2 : Reg) (s : State) : Result :=
  .next (s.runGrain g (encA 0x20 dst src1 src2 (funcFp rm 0x00)) (fpToF rm dst fun m G => fpAdd m (G.fnat src1) (G.fnat src2)))
def execFsub (g : Nat) (rm : BitVec 3) (dst src1 src2 : Reg) (s : State) : Result :=
  .next (s.runGrain g (encA 0x20 dst src1 src2 (funcFp rm 0x01)) (fpToF rm dst fun m G => fpSub m (G.fnat src1) (G.fnat src2)))
def execFmul (g : Nat) (rm : BitVec 3) (dst src1 src2 : Reg) (s : State) : Result :=
  .next (s.runGrain g (encA 0x20 dst src1 src2 (funcFp rm 0x02)) (fpToF rm dst fun m G => fpMul m (G.fnat src1) (G.fnat src2)))
def execFdiv (g : Nat) (rm : BitVec 3) (dst src1 src2 : Reg) (s : State) : Result :=
  .next (s.runGrain g (encA 0x20 dst src1 src2 (funcFp rm 0x03)) (fpToF rm dst fun m G => fpDiv m (G.fnat src1) (G.fnat src2)))
def execFsqrt (g : Nat) (rm : BitVec 3) (dst src1 : Reg) (s : State) : Result :=
  .next (s.runGrain g (encA 0x20 dst src1 0 (funcFp rm 0x04)) (fpToF rm dst fun m G => fpSqrt m (G.fnat src1)))
/-- FMA: DST ← SRC1 × SRC2 + DST, one rounding. -/
def execFma (g : Nat) (rm : BitVec 3) (dst src1 src2 : Reg) (s : State) : Result :=
  .next (s.runGrain g (encA 0x20 dst src1 src2 (funcFp rm 0x05)) (fpToF rm dst fun m G => fpFma m (G.fnat src1) (G.fnat src2) (G.fnat dst)))
def execFmin (g : Nat) (rm : BitVec 3) (dst src1 src2 : Reg) (s : State) : Result :=
  .next (s.runGrain g (encA 0x20 dst src1 src2 (funcFp rm 0x08)) (fpToF rm dst fun _ G => fpMin (G.fnat src1) (G.fnat src2)))
def execFmax (g : Nat) (rm : BitVec 3) (dst src1 src2 : Reg) (s : State) : Result :=
  .next (s.runGrain g (encA 0x20 dst src1 src2 (funcFp rm 0x09)) (fpToF rm dst fun _ G => fpMax (G.fnat src1) (G.fnat src2)))
def execFneg (g : Nat) (rm : BitVec 3) (dst src1 : Reg) (s : State) : Result :=
  .next (s.runGrain g (encA 0x20 dst src1 0 (funcFp rm 0x0A)) (fpToF rm dst fun _ G => (fpSigned (G.fnat src1) (fpNegate (G.fnat src1)), 0)))
def execFabs (g : Nat) (rm : BitVec 3) (dst src1 : Reg) (s : State) : Result :=
  .next (s.runGrain g (encA 0x20 dst src1 0 (funcFp rm 0x0B)) (fpToF rm dst fun _ G => (fpSigned (G.fnat src1) (G.fnat src1 % 2 ^ 63), 0)))
def execFeq (g : Nat) (rm : BitVec 3) (dst src1 src2 : Reg) (s : State) : Result :=
  .next (s.runGrain g (encA 0x20 dst src1 src2 (funcFp rm 0x10)) (fpToX rm dst fun _ G => fpEq (G.fnat src1) (G.fnat src2)))
def execFlt (g : Nat) (rm : BitVec 3) (dst src1 src2 : Reg) (s : State) : Result :=
  .next (s.runGrain g (encA 0x20 dst src1 src2 (funcFp rm 0x11)) (fpToX rm dst fun _ G => fpLt (G.fnat src1) (G.fnat src2)))
def execFle (g : Nat) (rm : BitVec 3) (dst src1 src2 : Reg) (s : State) : Result :=
  .next (s.runGrain g (encA 0x20 dst src1 src2 (funcFp rm 0x12)) (fpToX rm dst fun _ G => fpLe (G.fnat src1) (G.fnat src2)))
def execFcvtld (g : Nat) (rm : BitVec 3) (dst src1 : Reg) (s : State) : Result :=
  .next (s.runGrain g (encA 0x20 dst src1 0 (funcFp rm 0x18)) (fpToX rm dst fun m G => fpToInt m (G.fnat src1)))
def execFcvtdl (g : Nat) (rm : BitVec 3) (dst src1 : Reg) (s : State) : Result :=
  .next (s.runGrain g (encA 0x20 dst src1 0 (funcFp rm 0x19)) (fpToF rm dst fun m G => fpOfInt m (G.x src1.toNat).toNat))
def execFmvxd (g : Nat) (rm : BitVec 3) (dst src1 : Reg) (s : State) : Result :=
  .next (s.runGrain g (encA 0x20 dst src1 0 (funcFp rm 0x1A)) (fpToX rm dst fun _ G => (G.fnat src1, 0)))
def execFmvdx (g : Nat) (rm : BitVec 3) (dst src1 : Reg) (s : State) : Result :=
  .next (s.runGrain g (encA 0x20 dst src1 0 (funcFp rm 0x1B)) (fpToF rm dst fun _ G => ((G.x src1.toNat).toNat, 0)))

end Sys2Proof.Machine
end

