-- ==== Sys2Proof/Machine/GrainShort.lean ====
section
/-!
DEFINITION. The short-vector instructions of a grain (R128), with the COMPAT overlay of R129 in their register access.
-/
namespace Sys2Proof.Machine

/-- The element width in bits of a width field. -/
def svWidth (ew : BitVec 2) : Nat := 8 * 2 ^ ew.toNat

/-- The elements of an S register at width `w`. -/
def svElems (w : Nat) (v : W128) : List Nat := (List.range (128 / w)).map fun i => (v.toNat >>> (w * i)) % 2 ^ w
/-- The S register whose elements are the list. -/
def svPack (w : Nat) (xs : List Nat) : W128 := BitVec.ofNat 128 (xs.foldr (fun x acc => x % 2 ^ w + acc * 2 ^ w) 0)

/-- An instruction that writes S(dst) from S registers, at a width its table allows. -/
def svOp (ok : Bool) (dst : Reg) (srcs : List Reg) (f : Grain → W128) : GrainOp := fun _ G => do
  need (ok = true) causeIllegal
  G.needS (dst.toNat :: srcs.map BitVec.toNat)
  .ok (G.setS dst.toNat (f G), G.next)

/-- An element-wise operation on S(src1) and S(src2). -/
def svBinary (ok : Bool) (ew : BitVec 2) (dst src1 src2 : Reg) (f : Nat → Nat → Nat) : GrainOp :=
  svOp ok dst [src1, src2] fun G =>
    let w := svWidth ew
    svPack w (List.zipWith f (svElems w (G.sreg src1.toNat)) (svElems w (G.sreg src2.toNat)))

/-- A shift of every element by X(src2) mod the width; widths 16, 32 and 64. -/
def svShift (ew : BitVec 2) (dst src1 src2 : Reg) (f : Nat → Nat → Nat) : GrainOp :=
  svOp (decide (ew ≠ 0)) dst [src1] fun G =>
    let w := svWidth ew
    svPack w ((svElems w (G.sreg src1.toNat)).map fun a => f a ((G.x src2.toNat).toNat % w))

def execSvVadd (g : Nat) (ew : BitVec 2) (dst src1 src2 : Reg) (s : State) : Result :=
  .next (s.runGrain g (encA 0x24 dst src1 src2 (funcSv ew 0x00)) (svBinary true ew dst src1 src2 (· + ·)))
def execSvVsub (g : Nat) (ew : BitVec 2) (dst src1 src2 : Reg) (s : State) : Result :=
  .next (s.runGrain g (encA 0x24 dst src1 src2 (funcSv ew 0x01)) (svBinary true ew dst src1 src2 fun a b => a + 2 ^ svWidth ew - b))
def execSvVand (g : Nat) (ew : BitVec 2) (dst src1 src2 : Reg) (s : State) : Result :=
  .next (s.runGrain g (encA 0x24 dst src1 src2 (funcSv ew 0x02)) (svBinary true ew dst src1 src2 (· &&& ·)))
def execSvVor (g : Nat) (ew : BitVec 2) (dst src1 src2 : Reg) (s : State) : Result :=
  .next (s.runGrain g (encA 0x24 dst src1 src2 (funcSv ew 0x03)) (svBinary true ew dst src1 src2 (· ||| ·)))
def execSvVxor (g : Nat) (ew : BitVec 2) (dst src1 src2 : Reg) (s : State) : Result :=
  .next (s.runGrain g (encA 0x24 dst src1 src2 (funcSv ew 0x04)) (svBinary true ew dst src1 src2 (· ^^^ ·)))
def execSvVandn (g : Nat) (ew : BitVec 2) (dst src1 src2 : Reg) (s : State) : Result :=
  .next (s.runGrain g (encA 0x24 dst src1 src2 (funcSv ew 0x05)) (svBinary true ew dst src1 src2 fun a b => a &&& (2 ^ svWidth ew - 1 - b)))
def execSvVshl (g : Nat) (ew : BitVec 2) (dst src1 src2 : Reg) (s : State) : Result :=
  .next (s.runGrain g (encA 0x24 dst src1 src2 (funcSv ew 0x08)) (svShift ew dst src1 src2 fun a n => a <<< n))
def execSvVsrl (g : Nat) (ew : BitVec 2) (dst src1 src2 : Reg) (s : State) : Result :=
  .next (s.runGrain g (encA 0x24 dst src1 src2 (funcSv ew 0x09)) (svShift ew dst src1 src2 fun a n => a >>> n))
def execSvVsra (g : Nat) (ew : BitVec 2) (dst src1 src2 : Reg) (s : State) : Result :=
  .next (s.runGrain g (encA 0x24 dst src1 src2 (funcSv ew 0x0A)) (svShift ew dst src1 src2 fun a n =>
    ofSigned (svWidth ew) (toSigned (svWidth ew) a / (2 ^ n : Nat))))
def execSvVcmpeq (g : Nat) (ew : BitVec 2) (dst src1 src2 : Reg) (s : State) : Result :=
  .next (s.runGrain g (encA 0x24 dst src1 src2 (funcSv ew 0x10)) (svBinary true ew dst src1 src2 fun a b => if a = b then 2 ^ svWidth ew - 1 else 0))
def execSvVcmpgt (g : Nat) (ew : BitVec 2) (dst src1 src2 : Reg) (s : State) : Result :=
  .next (s.runGrain g (encA 0x24 dst src1 src2 (funcSv ew 0x11)) (svBinary true ew dst src1 src2 fun a b =>
    if toSigned (svWidth ew) b < toSigned (svWidth ew) a then 2 ^ svWidth ew - 1 else 0))
def execSvVsel (g : Nat) (ew : BitVec 2) (dst src1 src2 : Reg) (s : State) : Result :=
  .next (s.runGrain g (encA 0x24 dst src1 src2 (funcSv ew 0x12)) (svOp true dst [src1, src2] fun G =>
    (G.sreg dst.toNat &&& G.sreg src1.toNat) ||| (~~~G.sreg dst.toNat &&& G.sreg src2.toNat)))

/-- The low or high half of the signed product of two elements. -/
def svProduct (w : Nat) (high : Bool) (a b : Nat) : Nat :=
  let p := toSigned w a * toSigned w b
  ofSigned w (if high then p / (2 ^ w : Nat) else p)

def execSvVmullo (g : Nat) (ew : BitVec 2) (dst src1 src2 : Reg) (s : State) : Result :=
  .next (s.runGrain g (encA 0x24 dst src1 src2 (funcSv ew 0x18)) (svBinary (decide (ew = 1 ∨ ew = 2)) ew dst src1 src2 (svProduct (svWidth ew) false)))
def execSvVmulhi (g : Nat) (ew : BitVec 2) (dst src1 src2 : Reg) (s : State) : Result :=
  .next (s.runGrain g (encA 0x24 dst src1 src2 (funcSv ew 0x19)) (svBinary (decide (ew = 1 ∨ ew = 2)) ew dst src1 src2 (svProduct (svWidth ew) true)))
/-- VPERMB: byte i of the result is the byte of S(SRC1) that byte i of S(SRC2) names modulo 16. -/
def execSvVpermb (g : Nat) (ew : BitVec 2) (dst src1 src2 : Reg) (s : State) : Result :=
  .next (s.runGrain g (encA 0x24 dst src1 src2 (funcSv ew 0x20)) (svOp (decide (ew = 0)) dst [src1, src2] fun G =>
    svPack 8 ((svElems 8 (G.sreg src2.toNat)).map fun k => ((svElems 8 (G.sreg src1.toNat))[k % 16]?).getD 0)))
def execSvVsplat (g : Nat) (ew : BitVec 2) (dst src1 : Reg) (s : State) : Result :=
  .next (s.runGrain g (encA 0x24 dst src1 0 (funcSv ew 0x28)) (svOp true dst [] fun G =>
    svPack (svWidth ew) (List.replicate (128 / svWidth ew) (G.x src1.toNat).toNat)))
/-- VINS: an element index at or above 128 / width is illegal. -/
def execSvVins (g : Nat) (ew : BitVec 2) (dst src1 index : Reg) (s : State) : Result :=
  .next (s.runGrain g (encA 0x24 dst src1 index (funcSv ew 0x29)) (svOp (decide (index.toNat < 128 / svWidth ew)) dst [] fun G =>
    svPack (svWidth ew) ((svElems (svWidth ew) (G.sreg dst.toNat)).set index.toNat (G.x src1.toNat).toNat)))
def execSvVext (g : Nat) (ew : BitVec 2) (dst src1 index : Reg) (s : State) : Result :=
  .next (s.runGrain g (encA 0x24 dst src1 index (funcSv ew 0x2A)) fun _ G => do
    need (index.toNat < 128 / svWidth ew) causeIllegal
    G.needS [src1.toNat]
    .ok (G.setX dst.toNat (BitVec.ofNat 64 (((svElems (svWidth ew) (G.sreg src1.toNat))[index.toNat]?).getD 0)), G.next))

end Sys2Proof.Machine
end

