-- ==== Sys2Proof/Machine/GrainUnits.lean ====
section
/-!
DEFINITION. The SHA-2, AES/TDES and Keccak units of a grain (R130 to R133) and its control registers (R136).
-/
namespace Sys2Proof.Machine

/-- Source bytes of a unit: aligned, and readable under R93. -/
def Grain.unitRead (G : Grain) (a align n : Nat) : Except Stop (List Byte) := do
  need (a % align = 0 ∧ canRead a n = true) causeDmBounds
  .ok (G.bytes a n)

/-- SHAINIT: the initial value of a variant; variants 5 to 31 are illegal. -/
def execShainit (g : Nat) (variant : Reg) (s : State) : Result :=
  .next (s.runGrain g (encA 0x28 0 0 variant 0x000) fun _ G => do
    need (variant.toNat ≤ 4) causeIllegal
    .ok ({ G with units := { G.units with shaVariant := variant.toNat, shaState := shaInitial variant.toNat } }, G.next))

/-- SHABLK: compress the block at X(SRC1), 64-byte aligned. -/
def execShablk (g : Nat) (src1 : Reg) (s : State) : Result :=
  .next (s.runGrain g (encA 0x28 0 src1 0 0x001) fun _ G => do
    let v := G.units.shaVariant
    let blk ← G.unitRead (G.x src1.toNat).toNat 64 (shaBlockLen v)
    .ok ({ G with units := { G.units with shaState := shaCompress (shaFamily v) G.units.shaState blk } }, G.next))

/-- SHAOUT: write the whole state, most significant byte of each word first (DEDUCED, log entry 15). -/
def execShaout (g : Nat) (src1 : Reg) (s : State) : Result :=
  .next (s.runGrain g (encA 0x28 0 src1 0 0x002) fun _ G => do
    let n := shaStateLen G.units.shaVariant
    let a := (G.x src1.toNat).toNat
    need (a % 8 = 0 ∧ canWrite a n = true) causeDmBounds
    .ok (G.store a (beBytes n G.units.shaState), G.next))

/-- SHALD: load the state. -/
def execShald (g : Nat) (src1 : Reg) (s : State) : Result :=
  .next (s.runGrain g (encA 0x28 0 src1 0 0x003) fun _ G => do
    let bs ← G.unitRead (G.x src1.toNat).toNat 1 (shaStateLen G.units.shaVariant)
    .ok ({ G with units := { G.units with shaState := beNat bs } }, G.next))

/-- An unmasked key load; its source may not overlap the key port's region (R132). -/
def keyLoad (n : Nat) (ok : Bool) (src1 : Reg) (put : Units → List Byte → Units) : GrainOp := fun _ G => do
  let a := (G.x src1.toNat).toNat
  need (ok = true ∧ keyRegion a n = false) causeIllegal
  let k ← G.unitRead a 1 n
  .ok ({ G with units := put G.units k }, G.next)

/-- A masked key load: share a at X(SRC1) and share b 0x100 above it; illegal at MASK_ORDER 2 (R132). -/
def keyLoadMasked (n : Nat) (ok : Bool) (src1 : Reg) (put : Units → List Byte → Units) : GrainOp := fun c G => do
  let a := (G.x src1.toNat).toNat
  need (ok = true ∧ c.order2 = false) causeIllegal
  let ka ← G.unitRead a 1 n
  let kb ← G.unitRead (a + 0x100) 1 n
  .ok ({ G with units := put G.units (xorBytes ka kb) }, G.next)

def setAesKey (u : Units) (k : List Byte) : Units := { u with aesKey := some k }
def setTdesKey (u : Units) (k : List Byte) : Units := { u with tdesKey := some k }
/-- Key bytes of an AES kind: 0, 1, 2 for 128, 192 and 256 bits. -/
def aesKeyLen (kind : Reg) : Nat := 16 + 8 * kind.toNat
/-- Key bytes of a TDES kind: 0 two-key, 1 three-key. -/
def tdesKeyLen (kind : Reg) : Nat := 16 + 8 * kind.toNat

def execAeskey (g : Nat) (src1 kind : Reg) (s : State) : Result :=
  .next (s.runGrain g (encA 0x29 0 src1 kind 0x000) (keyLoad (aesKeyLen kind) (decide (kind.toNat ≤ 2)) src1 setAesKey))
def execAeskeym (g : Nat) (src1 kind : Reg) (s : State) : Result :=
  .next (s.runGrain g (encA 0x29 0 src1 kind 0x001) (keyLoadMasked (aesKeyLen kind) (decide (kind.toNat ≤ 2)) src1 setAesKey))
def execTdeskey (g : Nat) (src1 kind : Reg) (s : State) : Result :=
  .next (s.runGrain g (encA 0x29 0 src1 kind 0x008) (keyLoad (tdesKeyLen kind) (decide (kind.toNat ≤ 1)) src1 setTdesKey))
def execTdeskeym (g : Nat) (src1 kind : Reg) (s : State) : Result :=
  .next (s.runGrain g (encA 0x29 0 src1 kind 0x009) (keyLoadMasked (tdesKeyLen kind) (decide (kind.toNat ≤ 1)) src1 setTdesKey))

/-- The cipher under a loaded key; with no key loaded since the last scrub the result is free (log entry 15). -/
def underKey (key : Option (List Byte)) (free n : Nat) (f : List Byte → List Byte → List Byte) (block : List Byte) :
    List Byte :=
  match key with
  | some k => f k block
  | none => (List.range n).map (Config.freeByte free)

/-- The bytes of an S register, byte 0 first. -/
def sBytes (v : W128) : List Byte := leBytes 16 v.toNat
def ofSBytes (bs : List Byte) : W128 := BitVec.ofNat 128 (leNat bs)

/-- An unmasked AES block from S(SRC1) to S(DST). -/
def aesBlock (dst src1 : Reg) (f : List Byte → List Byte → List Byte) : GrainOp := fun c G => do
  G.needS [dst.toNat, src1.toNat]
  .ok (G.setS dst.toNat (ofSBytes (underKey G.units.aesKey c.free 16 f (sBytes (G.sreg src1.toNat)))), G.next)

/-- A masked AES block: shares in S(SRC1), S(SRC1 + 1) and S(DST), S(DST + 1); odd numbers are illegal, and so is a job of
MASK_ORDER 2. The result is split with a free share. -/
def aesBlockMasked (dst src1 : Reg) (f : List Byte → List Byte → List Byte) : GrainOp := fun c G => do
  need (dst.toNat % 2 = 0 ∧ src1.toNat % 2 = 0 ∧ c.order2 = false) causeIllegal
  G.needS [dst.toNat, src1.toNat]
  let x := G.sreg src1.toNat ^^^ G.sreg (src1.toNat + 1)
  let y := ofSBytes (underKey G.units.aesKey c.free 16 f (sBytes x))
  let r := BitVec.ofNat 128 (Config.freeNat c.free 0)
  .ok ((G.setS dst.toNat (y ^^^ r)).setS (dst.toNat + 1) r, G.next)

/-- TDES on bits 63:0, byte 0 of the register first; the upper bits of the destination stay (log entry 15). -/
def tdesValue (G : Grain) (free : Nat) (f : List Byte → List Byte → List Byte) (x : Nat) : Nat :=
  leNat (underKey G.units.tdesKey free 8 f (leBytes 8 x))
/-- Replace bits 63:0. -/
def lowHalf (old : W128) (v : Nat) : W128 := BitVec.append (old.extractLsb' 64 64) (BitVec.ofNat 64 v)

def tdesBlock (dst src1 : Reg) (f : List Byte → List Byte → List Byte) : GrainOp := fun c G => do
  G.needS [dst.toNat, src1.toNat]
  let v := tdesValue G c.free f (G.sreg src1.toNat).toNat
  .ok (G.setS dst.toNat (lowHalf (G.sreg dst.toNat) v), G.next)

def tdesBlockMasked (dst src1 : Reg) (f : List Byte → List Byte → List Byte) : GrainOp := fun c G => do
  need (dst.toNat % 2 = 0 ∧ src1.toNat % 2 = 0 ∧ c.order2 = false) causeIllegal
  G.needS [dst.toNat, src1.toNat]
  let v := tdesValue G c.free f (G.sreg src1.toNat ^^^ G.sreg (src1.toNat + 1)).toNat
  let r := Config.freeNat c.free 0 % 2 ^ 64
  let G1 := G.setS dst.toNat (lowHalf (G.sreg dst.toNat) (v ^^^ r))
  .ok (G1.setS (dst.toNat + 1) (lowHalf (G1.sreg (dst.toNat + 1)) r), G.next)

def execAesenc (g : Nat) (dst src1 : Reg) (s : State) : Result := .next (s.runGrain g (encA 0x29 dst src1 0 0x002) (aesBlock dst src1 aesEncrypt))
def execAesdec (g : Nat) (dst src1 : Reg) (s : State) : Result := .next (s.runGrain g (encA 0x29 dst src1 0 0x003) (aesBlock dst src1 aesDecrypt))
def execAesencm (g : Nat) (dst src1 : Reg) (s : State) : Result :=
  .next (s.runGrain g (encA 0x29 dst src1 0 0x004) (aesBlockMasked dst src1 aesEncrypt))
def execAesdecm (g : Nat) (dst src1 : Reg) (s : State) : Result :=
  .next (s.runGrain g (encA 0x29 dst src1 0 0x005) (aesBlockMasked dst src1 aesDecrypt))
def execTdesenc (g : Nat) (dst src1 : Reg) (s : State) : Result := .next (s.runGrain g (encA 0x29 dst src1 0 0x00A) (tdesBlock dst src1 tdesEncrypt))
def execTdesdec (g : Nat) (dst src1 : Reg) (s : State) : Result := .next (s.runGrain g (encA 0x29 dst src1 0 0x00B) (tdesBlock dst src1 tdesDecrypt))
def execTdesencm (g : Nat) (dst src1 : Reg) (s : State) : Result :=
  .next (s.runGrain g (encA 0x29 dst src1 0 0x00C) (tdesBlockMasked dst src1 tdesEncrypt))
def execTdesdecm (g : Nat) (dst src1 : Reg) (s : State) : Result :=
  .next (s.runGrain g (encA 0x29 dst src1 0 0x00D) (tdesBlockMasked dst src1 tdesDecrypt))

/-- KPERM: Keccak-f[1600] in place on the 200 bytes at X(SRC1), 8-byte aligned (R133). -/
def execKperm (g : Nat) (src1 : Reg) (s : State) : Result :=
  .next (s.runGrain g (encA 0x2A 0 src1 0 0x000) fun _ G => do
    let a := (G.x src1.toNat).toNat
    need (a % 8 = 0 ∧ canWrite a 200 = true) causeDmBounds
    .ok (G.store a (leBytes 200 (keccakF (leNat (G.bytes a 200)))), G.next))

/-! Control registers (R136). -/

/-- The value of a control register, or none for a number that is not in the map. -/
def csrRead (c : GCtx) (G : Grain) (n : Nat) : Option W64 :=
  match n with
  | 0x000 => some (BitVec.ofNat 64 G.regs.cycle)
  | 0x001 => some (BitVec.ofNat 64 G.regs.instret)
  | 0x002 => some G.regs.fcsr
  | 0x010 => some (BitVec.ofNat 64 G.regs.vl)
  | 0x011 => some (BitVec.ofNat 64 (ofBool G.regs.ew32))
  | 0x012 => some (BitVec.ofNat 64 G.regs.lpub)
  | 0x020 => some (BitVec.ofNat 64 c.gid)
  | 0x021 => some (BitVec.ofNat 64 c.tenant)
  | 0x022 => some (BitVec.ofNat 64 (ofBool G.compat + 2 * ofBool c.order2))
  | 0x023 => some (BitVec.ofNat 64 (c.gid / 256))
  | 0x030 => some (BitVec.ofNat 64 G.expander.count)
  | 0x040 => some (BitVec.ofNat 64 c.bnstat)
  | _ => none

def execCsrr (g : Nat) (dst : Reg) (csr : Half) (s : State) : Result :=
  .next (s.runGrain g (encI 0x30 dst 0 csr) fun c G =>
    match csrRead c G csr.toNat with
    | some v => .ok (G.setX dst.toNat v, G.next)
    | none => .error (.fault causeIllegal))

/-- A write of LPUB: a bit that becomes set clears every plane of its register (R142). -/
def Grain.setLpub (G : Grain) (order2 : Bool) (v : Nat) : Grain :=
  let fresh := (List.range 16).filter fun n => v.testBit n && !G.regs.lpub.testBit n
  let G := fresh.foldl (fun G n => (planes (order2 && decide (n < 8))).foldl (fun G p => G.setPlane p n 0) G) G
  { G with regs := { G.regs with lpub := v } }

/-- A write of a control register under its rules: RO registers, unmapped numbers and refused values are illegal. -/
def csrWrite (c : GCtx) (G : Grain) (n v : Nat) : Except Stop Grain :=
  match n with
  | 0x002 => do
    need (bits v 2 0 < 4) causeIllegal
    .ok { G with regs := { G.regs with fcsr := BitVec.ofNat 64 (bits v 8 4 * 16 + bits v 2 0) } }
  | 0x010 => do
    need (v * G.ew ≤ 8192) causeIllegal
    .ok { G with regs := { G.regs with vl := v } }
  | 0x011 => .ok { G with regs := { G.regs with ew32 := bit v 0 } }
  | 0x012 => do
    need (v &&& G.header.pubLregs = v) causeIllegal
    .ok (G.setLpub c.order2 v)
  | _ => .error (.fault causeIllegal)

def execCsrw (g : Nat) (src1 : Reg) (csr : Half) (s : State) : Result :=
  .next (s.runGrain g (encI 0x31 0 src1 csr) fun c G => do
    let G' ← csrWrite c G csr.toNat (G.x src1.toNat).toNat
    .ok (G', G.next))

end Sys2Proof.Machine
end

