-- ==== Sys2Proof/Machine/I3c.lean ====
section
/-!
DEFINITION. The I3C target (R500): addressing, common command codes and private transfers. It serves while the output gate is
open or a service of the immutable boot code has released its pins (R345, R369, R400, R419).
-/
namespace Sys2Proof.Config

/-- DCR, and bit 32 of the PID, which R500 does not give (log entry 42). -/
opaque i3cDcr : Byte
opaque i3cPidType : Bool

end Sys2Proof.Config

namespace Sys2Proof.Machine

def State.modI3c (s : State) (f : I3c → I3c) : State := { s with i3c := f s.i3c }

/-- The target answers on its pins. -/
def State.i3cOn (s : State) : Bool :=
  s.boot.gateOpen || decide (s.power.phase ∈ [Phase.fallow, .lockService, .factory, .scrapped])

/-- The static address. -/
def i3cStatic : Nat := 0x2E
/-- BCR. -/
def i3cBcr : Byte := 0x06
/-- The maximum read and write lengths. -/
def i3cMax : Nat := 69

/-- The PID: manufacturer ID in bits 47:33, and bits 31:0 of GLB_UID0. -/
def State.i3cPid (s : State) : Nat := 0x06B1 * 2 ^ 33 + ofBool Config.i3cPidType * 2 ^ 32 + s.uid % 2 ^ 32

/-- Answer a directed code at the dynamic address; common codes travel most significant byte first (log entry 42). -/
def State.i3cAnswer (s : State) (addr : Nat) (bytes : List Byte) : State :=
  if s.i3cOn ∧ s.i3c.addr = some addr then s.emit (.i3c bytes) else s

/-- ENTDAA: a target without a dynamic address shows its identity and takes one. -/
def execEntdaa (addr : Nat) (s : State) : Result :=
  .next (
    if !s.i3cOn ∨ s.i3c.addr.isSome then s
    else (s.emit (.i3c (beBytes 6 s.i3cPid ++ [i3cBcr, Config.i3cDcr]))).modI3c fun x => { x with addr := some addr })

/-- SETDASA: the dynamic address is set from the static one. -/
def execSetdasa (static addr : Nat) (s : State) : Result :=
  .next (
    if s.i3cOn ∧ static = i3cStatic ∧ s.i3c.addr = none then s.modI3c fun x => { x with addr := some addr } else s)

/-- SETNEWDA. -/
def execSetnewda (old addr : Nat) (s : State) : Result :=
  .next (if s.i3cOn ∧ s.i3c.addr = some old then s.modI3c fun x => { x with addr := some addr } else s)

/-- RSTDAA. -/
def execRstdaa (s : State) : Result := .next (if s.i3cOn then s.modI3c fun x => { x with addr := none } else s)

/-- GETPID. -/
def execGetpid (addr : Nat) (s : State) : Result := .next (s.i3cAnswer addr (beBytes 6 s.i3cPid))

/-- GETBCR. -/
def execGetbcr (addr : Nat) (s : State) : Result := .next (s.i3cAnswer addr [i3cBcr])

/-- GETDCR. -/
def execGetdcr (addr : Nat) (s : State) : Result := .next (s.i3cAnswer addr [Config.i3cDcr])

/-- GETSTATUS: R500 does not give the status word, which is free. -/
def execGetstatus (addr : Nat) (s : State) : Result := .next (s.spend.i3cAnswer addr (s.freeBytes 2))

/-- GETMRL. -/
def execGetmrl (addr : Nat) (s : State) : Result := .next (s.i3cAnswer addr (beBytes 2 i3cMax))

/-- GETMWL. -/
def execGetmwl (addr : Nat) (s : State) : Result := .next (s.i3cAnswer addr (beBytes 2 i3cMax))

/-- A code that reaches the target: broadcast, or at its dynamic address. -/
def State.i3cReached (s : State) (addr : Option Nat) : Bool :=
  s.i3cOn && match addr with | none => true | some a => decide (s.i3c.addr = some a)

/-- ENEC: target events are enabled; bit 0 is the interrupt (log entry 42). -/
def execEnec (addr : Option Nat) (events : Byte) (s : State) : Result :=
  .next (if s.i3cReached addr ∧ events.getLsbD 0 then s.modI3c fun x => { x with events := true } else s)

/-- DISEC: target events are disabled. -/
def execDisec (addr : Option Nat) (events : Byte) (s : State) : Result :=
  .next (if s.i3cReached addr ∧ events.getLsbD 0 then s.modI3c fun x => { x with events := false } else s)

/-- RSTACT: only the I3C target is reset, never the device. -/
def execRstact (s : State) : Result := .next (if s.i3cOn then s.modI3c fun _ => {} else s)

/-- I3C_PRIVATE_TRANSFER: a write of at most 69 bytes carries a packet of a message, which is a command of its own when it is whole;
a read takes a response that is ready. -/
def execI3cPrivateTransfer (addr : Nat) (read : Bool) (bytes : List Byte) (s : State) : Result :=
  .next (
    if !s.i3cOn ∨ s.i3c.addr ≠ some addr ∨ i3cMax < bytes.length then s
    else if read then s.modI3c fun x => { x with waiting := x.waiting - 1 }
    else s)

end Sys2Proof.Machine
end

