-- ==== Sys2Proof/Machine/Reply.lean ====
section
/-!
DEFINITION. How a manager's request is answered (R80, R428, R444) and how an arming request arms, or is applied at once
(R36, R38).
-/
namespace Sys2Proof.Machine

def State.modSpdm (s : State) (f : Spdm → Spdm) : State := { s with spdm := f s.spdm }

/-- What a request answers: a status of R68 and the response's bytes, or later. -/
inductive Answer where
  | now (status : Nat) (payload : List Byte)
  | later
  deriving DecidableEq, Repr

def Answer.ok : Answer := .now Status.ok []
def Answer.no (status : Nat) : Answer := .now status []

/-- The job of an admin queue that waits for core 0's answer (R428). -/
def State.adminJob (s : State) (p : Nat) : Option Nat :=
  (s.jobsWhere fun x => decide (s.pairOf p 0 0 = some x.pair) && decide (s.tilth.opKind x.desc.opcode = some .mctp) &&
    decide (x.stage = Stage.execute ∧ x.delivered = 1)).head?

/-- The answer to an admin job: the body goes out, and STATUS is the request's result (R428). -/
def State.answerJob (s : State) (j status : Nat) (body : List Byte) : State :=
  match s.job j with
  | none => s
  | some job =>
    if job.desc.outLen < body.length then
      (s.modJob j fun x => { x with outWritten := body.length }).complete j Status.outputShort true
    else s.modJob j fun x =>
      { x with stage := .output, status := status, out := body, outWritten := body.length }

/-- Send a response. Its session may have ended, and the response is discarded then (R444). -/
def State.respond (s : State) (v : Via) (status : Nat) (payload : List Byte) : State :=
  let gone := match v.session with
    | some n => (s.spdm.sessions.find? n).isNone
    | none => false
  if gone then s
  else match v.transport with
    | .admin p => match s.adminJob p with
      | some j => s.answerJob j status (leBytes 2 status ++ payload)
      | none => s.send v (.response v status payload)
    | _ => s.send v (.response v status payload)

/-- Send an SPDM or MCTP response. On an admin queue it ends the waiting job, whose body has the standard's layout (R428; log entry
43). -/
def State.sendSpdm (s : State) (v : Via) (r : SpdmReply) : State :=
  let s := s.send v (.spdm v r)
  match v.transport with
  | .admin p => match s.adminJob p with
    | some j =>
      let body := s.freeBytes (1 + s.freeBits 13 0)
      s.spend.answerJob j Status.ok body
    | none => s
  | _ => s

/-- The PF that a transport is on. -/
def viaPf (v : Via) : Option Nat :=
  match v.transport with
  | .vdm p => some p
  | .admin p => some p
  | _ => none

/-- The port field and the transport field of PRIV_REQUEST (R505). -/
def viaPort (v : Via) : Nat := (viaPf v).getD 0xFF
def viaTransport (v : Via) : Nat :=
  match v.transport with | .admin _ => 0 | .vdm _ => 1 | .i3c | .tap => 2 | .uncel => 3

/-- An arming request arms its register for the PF that carried it, or forms the pair at once (R36, R38). -/
def State.arm (s : State) (v : Via) (off : Nat) (value : W32) (apply : Nat → W32 → State → State × GuardResult) :
    State × Answer :=
  match viaPf v with
  | some p => (s.armFor p off, .ok)
  | none =>
    let x := s.loamPair off value apply
    (x.1, .no x.2.status)

end Sys2Proof.Machine
end

