-- ==== Sys2Proof/Machine/JobPath.lean ====
section
/-!
DEFINITION. The path of a job outside its grain's program: fetch and admission (R20, R53 to R60), placement (R21, R61 to R63,
R79, R107, R209, R248), the key, input and output stages (R57, R60, R65, R66, R504), and interrupt coalescing (R44, R67).
-/
namespace Sys2Proof.Machine

/-! Descriptors (R54, R55). -/

/-- Read a descriptor from its 64 bytes. -/
def parseDescriptor (b : List Byte) : Descriptor where
  opcode := field b 0x00 2
  flags := field b 0x02 2
  tag := field b 0x04 4
  keyForm := field b 0x08 1
  key2Form := field b 0x09 1
  keyIndex := field b 0x0A 2
  key2Index := field b 0x0C 2
  reserved := field b 0x0E 2
  blobAddr := field b 0x10 8
  minEpoch := field b 0x18 4
  inSgl := field b 0x1C 2
  outSgl := field b 0x1E 2
  inAddr := field b 0x20 8
  inLen := field b 0x28 4
  outLen := field b 0x2C 4
  outAddr := field b 0x30 8
  param := field b 0x38 8

/-- FLAGS.IN_SGL. -/
def Descriptor.inList (d : Descriptor) : Bool := d.flags.testBit 0
/-- FLAGS.OUT_SGL. -/
def Descriptor.outList (d : Descriptor) : Bool := d.flags.testBit 1
/-- FLAGS.FENCE. -/
def Descriptor.fence (d : Descriptor) : Bool := d.flags.testBit 4

/-- The indices of R56: 0 without a key, a slot or context to 4,095, or the tenant root key for a blob. -/
def Descriptor.indicesOk (d : Descriptor) : Bool :=
  (match d.keyForm with
   | 0 => decide (d.keyIndex = 0)
   | 3 => decide (d.keyIndex ≤ 4095 ∨ d.keyIndex = 0xFFFF)
   | _ => decide (d.keyIndex ≤ 4095)) &&
  (if d.key2Form = 0 then decide (d.key2Index = 0) else decide (d.key2Index ≤ 4095))

/-- No host range of the descriptor ends past 2^64 (R504). -/
def Descriptor.rangesOk (d : Descriptor) : Bool :=
  decide (d.inAddr + (if d.inList then 16 * d.inSgl else d.inLen) ≤ 2 ^ 64) &&
  decide (d.outAddr + (if d.outList then 16 * d.outSgl else d.outLen) ≤ 2 ^ 64)

/-- The reserved bits and the fields that must be 0 where a form does not use them (R54, R55). -/
def Descriptor.fieldsOk (d : Descriptor) : Bool :=
  decide (d.reserved = 0) && within d.flags 0x17 &&
  decide (d.keyForm = 3 ∨ d.blobAddr = 0) && (d.inList || decide (d.inSgl = 0)) && (d.outList || decide (d.outSgl = 0))

/-- What NOP asks beyond the rest (R59). -/
def Descriptor.nopOk (d : Descriptor) : Bool :=
  decide (d.inAddr = 0 ∧ d.outAddr = 0 ∧ d.inSgl = 0 ∧ d.outSgl = 0) && !d.inList && !d.outList

/-- The operation of a context's open: group 0x5 but wrap and unwrap, with a key where it takes one (R321). -/
def openOk (d : Descriptor) : Bool :=
  let op := bits d.param 15 0
  match opClassic op with
  | some (.wrap _) => false
  | some k => decide (op / 2 ^ 12 = 5) && decide (d.keyForm = if k = OpKind.hash then 0 else 1)
  | none => false

/-- The bits of a working key by DKTYPE (R269). -/
def dkBits (d : Descriptor) : Nat := 128 + 64 * pDkType d.param

/-- The bits of a BDK by its class (R311). -/
def bdkBits (c : Nat) : Nat := match c with | 0xD1 => 128 | 0xD2 => 192 | _ => 256

/-- DKTYPE is not longer than the BDK, where the slot holds one (R269). -/
def State.dkOk (s : State) (t : Nat) (k : OpKind) (d : Descriptor) : Bool :=
  let c := attrClass (s.slot d.keyIndex).attr
  match k with
  | .dukptPin | .dukptCmac _ => !s.owns t d.keyIndex || !(0xD1 ≤ c && c ≤ 0xD3) || decide (dkBits d ≤ bdkBits c)
  | _ => true

/-- FLAGS of the program behind an owner extension (R364). -/
def State.extFlags (s : State) (code : Nat) : Nat :=
  match s.tilth.extensionOf code with | some (_, p) => p.header.flags | none => 0

/-- Check 5 of R60. -/
def State.formatOk (s : State) (t : Nat) (k : OpKind) (d : Descriptor) : Bool :=
  let set := setOf d.opcode
  d.fieldsOk && formsOk k set d.param d.keyForm d.key2Form ((s.extFlags d.opcode).testBit 5) && d.indicesOk && d.rangesOk &&
  paramOk k set d.param && (decide (k ≠ .nop) || d.nopOk) && (decide (k ≠ .ctxOpen) || openOk d) && s.dkOk t k d

/-- The class of the slot that an import names as its target (R313). -/
def State.importClass (s : State) (t : Nat) (k : OpKind) (d : Descriptor) : Option Nat :=
  let of_ := fun n => if s.owns t n then some (attrClass (s.slot n).attr) else none
  match k with
  | .importPublic => of_ d.keyIndex
  | .importWrapped | .importBlob => of_ d.key2Index
  | _ => none

/-- The operation takes a big-number engine: group 0x4 and the composites, an extension whose program has FLAGS.BNE, and the
imports of RSA keys (R60 check 8, R313, R364). -/
def State.needsEngine (s : State) (t : Nat) (k : OpKind) (d : Descriptor) : Bool :=
  engineOp k || (decide (k = .extension) && (s.extFlags d.opcode).testBit 3) ||
  (match s.importClass t k d with | some c => decide (0x79 ≤ c ∧ c ≤ 0x7B) | none => false)

/-- Present grains of a tenant. -/
def State.presentGrains (s : State) (t : Nat) : List Nat :=
  (List.range 1024).filter fun g => (s.tenant t).tpt.grains.testBit g && s.grainPresent g && !(s.quad (g / 256)).failed

/-- Present engines of a tenant in a quadrant. -/
def State.quadEngines (s : State) (t q : Nat) : List Nat :=
  ((List.range 16).map fun k => 16 * q + k).filter fun n => (s.tenant t).tpt.bne.testBit n && s.enginePresent n

/-- The directions of DMA that a job's data needs: read and write. -/
def directions (d : Descriptor) (l : Lengths) : Bool × Bool :=
  (decide (0 < d.inLen ∨ d.keyForm = 3) || (d.inList && decide (0 < d.inSgl)),
   match l with | .out n => decide (0 < n) | _ => decide (0 < d.outLen))

/-- Check 8 of R60, with R79. -/
def State.resourceOk (s : State) (t : Nat) (k : OpKind) (d : Descriptor) (l : Lengths) : Bool :=
  let e := (s.tenant t).tpt
  let gs := s.presentGrains t
  let dir := directions d l
  decide (gs ≠ []) && (!s.needsEngine t k d || gs.any fun g => decide (s.quadEngines t (g / 256) ≠ [])) &&
  (!e.isolated || ((!dir.1 || decide (0 < e.slotsRd)) && (!dir.2 || decide (0 < e.slotsWr))))

/-- The verdict of admission: a status with the required length of OUTPUT_SHORT, or nothing when every check passes (R12,
R60). -/
def State.admission (s : State) (o : PairOwner) (d : Descriptor) : Option (Nat × Nat) :=
  let t := o.tenant
  if s.glb.linkDown then some (Status.linkFault, 0)
  else if s.glb.locked then some (Status.deviceLocked, 0)
  else if (s.tenant t).state ≠ .active then some (Status.tenantQuiesced, 0)
  else match s.tilth.opKind d.opcode with
    | none => some (Status.opcodeUnknown, 0)
    | some k =>
      let l := lengths k (setOf d.opcode) d
      let short := match l with | .out n => if d.outLen < n then some n else none | _ => none
      if d.opcode / 2 ^ 12 = 0 ∧ d.opcode ≠ 0 ∧ (o.func ≠ 0 ∨ o.local_ ≠ 0) then some (Status.opcodeDenied, 0)
      else if k = .extension ∧ !(match s.tilth.extensionOf d.opcode with
          | some (i, _) => (s.tenant t).tpt.ext.testBit i | none => false) then some (Status.opcodeDenied, 0)
      else if !s.formatOk t k d then some (Status.descFormat, 0)
      else match l, short with
        | .bad, _ => some (Status.lengthRange, 0)
        | _, some n => some (Status.outputShort, n)
        | _, none =>
          if s.glb.epoch < d.minEpoch then some (Status.epochAhead, 0)
          else if k ≠ .nop ∧ !s.resourceOk t k d l then some (Status.noResource, 0)
          else none

/-! Fetch. -/

/-- The descriptors a pair may fetch now: at most 8, as many as wait, within the room of its completion ring (R53). -/
def Queue.fetchable (qu : Queue) : Nat :=
  let waiting := (qu.sqTail + 2 ^ qu.sqLog2 - qu.sqHead) % 2 ^ qu.sqLog2
  let unread := (qu.cqTail + 2 ^ qu.cqLog2 - qu.cqHead) % 2 ^ qu.cqLog2
  min 8 (min waiting (2 ^ qu.cqLog2 - 1 - qu.inflight - unread))

/-- The device fetches for the pair: it is enabled, its tenant is not quiesced, and its function is in D0 and not under
reset (R20, R69, R82, R83). -/
def State.mayFetch (s : State) (q : Nat) (o : PairOwner) : Bool :=
  let fn := s.func (fnKey o.port o.func)
  let e := s.tenant o.tenant
  decide ((s.queue q).state = .enabled) && decide (e.state = .active) && !fn.flr && !fn.d3hot && decide (fn.tdisp ≠ .error) &&
  !(e.tpt.isolated && decide (0 < e.tpt.slotsRd ∧ e.slotsLive.2 = 0))

/-- One descriptor is fetched and admitted, or completes with the status of the first check that fails; a NOP that needs no
fence completes (R59, R60). -/
def State.fetchOne (s : State) (q : Nat) (o : PairOwner) (raw : List Byte) : State :=
  let d := parseDescriptor raw
  let qu := s.queue q
  let j := s.nextJob
  let job : Job := { pair := q, index := qu.sqHead, desc := d, tenant := o.tenant }
  let s := { s with nextJob := j + 1, jobs := s.jobs.insert j job }
  let s := s.modQueue q fun x => { x with sqHead := (x.sqHead + 1) % 2 ^ x.sqLog2, inflight := x.inflight + 1 }
  match s.admission o d with
  | some (status, n) => (s.modJob j fun x => { x with outWritten := n }).complete j status true
  | none => if s.tilth.opKind d.opcode = some .nop ∧ !d.fence then s.complete j Status.ok true else s

/-- DESCRIPTOR_FETCH: up to 8 consecutive descriptors are read; a refused read stops the pair (R52, R53). -/
def execDescriptorFetch (q : Nat) (data : Option (List Byte)) (s : State) : Result :=
  .next (match s.pairOwner q with
    | none => s
    | some o =>
      let n := (s.queue q).fetchable
      if n = 0 ∨ !s.mayFetch q o then s
      else match data with
        | none => s.stopPair q Status.dmaError
        | some d => (List.range (min n (d.length / 64))).foldl
            (fun s i => if (s.queue q).state = .enabled then s.fetchOne q o (slice d (64 * i) 64) else s) s)

/-! Placement. -/

/-- The context that a job names (R62). -/
def State.ctxNamed (s : State) (job : Job) : Option Nat :=
  if job.desc.keyForm = 2 then some job.desc.keyIndex
  else if s.kindOf job = .ctxOpen then some (openCtx job.desc) else none

/-- An older job of the pair is in flight (R55), or an older job on the same context (R62). -/
def State.heldBack (s : State) (j : Nat) (job : Job) : Bool :=
  let older := s.jobs.filter fun (i, _) => decide (i < j)
  (job.desc.fence && older.any fun (_, x) => decide (x.pair = job.pair)) ||
  (match s.ctxNamed job with
   | some c => older.any fun (_, x) => decide (s.ctxNamed x = some c)
   | none => false)

/-- A bed that may run jobs: awake or Dormant, at GLB_EPOCH and at MIN_EPOCH or above (R21, R63, R89). -/
def State.bedServes (s : State) (b minEpoch : Nat) : Bool :=
  let x := s.bed b
  decide (x.state = .awake ∨ x.state = .dormant ∨ x.state = .entering) && x.applied && decide (x.epoch = s.glb.epoch ∧ minEpoch ≤ x.epoch)

/-- The bed holds the program of a code for a tenant: all its free grains of that tenant hold it in PM (R107). -/
def State.bedHolds (s : State) (t b code : Nat) : Bool :=
  match s.shelved b code with
  | none => false
  | some p => (s.freeGrains t).all fun g => decide (g / 16 ≠ b ∨ (s.grain g).prog = some p.header)

/-- The free engines of a quadrant for a composite job (R209). -/
def State.freeEngines (s : State) (t q : Nat) : List Nat :=
  (s.quadEngines t q).filter fun n => decide ((s.engine n).reserved = none ∧ (s.engine n).assigned = [])

/-- A composite operation. -/
def isComposite (k : OpKind) : Bool := decide (k = .compSign ∨ k = .compVerify)

/-- The engine that a job placed in quadrant `q` gets: the lowest free one for a composite job (R209), otherwise the one with
the fewest placed jobs, lowest number first (R248). -/
def State.chooseEngine (s : State) (t q : Nat) (k : OpKind) : Option Nat :=
  if isComposite k then (s.freeEngines t q).head?
  else
    let load := fun n => (s.engine n).assigned.length + ofBool (s.engine n).reserved.isSome
    (s.quadEngines t q).foldl (fun best n =>
      match best with
      | none => some n
      | some m => if load n < load m then some n else some m) none

/-- The grains on which a job may be placed now (R63, R89, R111, R209, R248). -/
def State.candidates (s : State) (job : Job) : List Nat :=
  let k := s.kindOf job
  let eng := s.needsEngine job.tenant k job.desc
  let only := decide ((s.presentGrains job.tenant).length ≤ 1)
  (s.freeGrains job.tenant).filter fun g =>
    s.bedServes (g / 16) job.desc.minEpoch && !(s.quad (g / 256)).failed && !(s.quad (g / 256)).unlocked && (only || decide (job.faulted ≠ some g)) &&
    (!eng || (s.chooseEngine job.tenant (g / 256) k).isSome)

/-- The order of R21: awake and holding the program, awake, Dormant; the lowest number within a class. -/
def State.chooseGrain (s : State) (job : Job) : Option Nat :=
  let c := s.candidates job
  let awake := fun g => decide ((s.bed (g / 16)).state = .awake)
  match c.find? fun g => awake g && s.bedHolds job.tenant (g / 16) job.desc.opcode with
  | some g => some g
  | none => match c.find? awake with
    | some g => some g
    | none => c.head?

/-- Place a job on a grain: it runs, loads its program, or scrubs first after a known-answer test; its engine's number stands
in X1, and a Dormant bed is woken (R20, R107, R209, R248, R465). -/
def State.placeJob (s : State) (j g : Nat) (job : Job) (p : Program) : State :=
  let k := s.kindOf job
  let G := s.grain g
  let eng := if s.needsEngine job.tenant k job.desc then s.chooseEngine job.tenant (g / 256) k else none
  let s := match eng with
    | some n => s.modEngine n fun e =>
        if isComposite k then { e with reserved := some j } else { e with assigned := e.assigned ++ [j] }
    | none => s
  let s := s.modGrain g fun x =>
    { x with
      job := some j
      test := false
      regs := { x := match eng with | some n => Map.set [] 1 (BitVec.ofNat 64 n) 0 | none => [] }
      state := if G.test then .scrub else if G.prog = some p.header then .running else .load }
  let s := s.modJob j fun x => { x with stage := .placed, grain := some g, epoch := (s.bed (g / 16)).epoch, ctx := s.ctxNamed job }
  let s := match s.ctxNamed job with
    | some c => s.modCtx c fun x => if x.state = .opened ∧ x.owner = job.tenant then { x with state := .busy } else x
    | none => s
  if (s.bed (g / 16)).state = .awake then s else s.modBed (g / 16) fun b => { b with wakeWanted := true }

/-- A job that takes no grain starts: its input stage, or its work when it has no input (R296, R428). -/
def State.startDirect (s : State) (j : Nat) (job : Job) : State :=
  s.modJob j fun x => { x with stage := if 0 < job.desc.inLen ∨ job.desc.inList then .input else .execute }

/-- JOB_PLACEMENT: the oldest admitted job of the pair is placed, or waits and holds back the later ones (R61); a NOP is
never placed. -/
def execJobPlacement (q : Nat) (s : State) : Result :=
  .next (match (s.jobsWhere fun x => decide (x.pair = q ∧ x.stage = Stage.admitted)).head? with
    | none => s
    | some j => match s.job j with
      | none => s
      | some job =>
        if s.heldBack j job ∨ s.power.holdActive ∨ s.kindOf job = .nop then s
        else if grainless (s.kindOf job) then s.startDirect j job
        else match s.chooseGrain job with
          | none => s
          | some g => match s.shelved (g / 16) job.desc.opcode with
            | none => s.complete j Status.algRevoked true
            | some p => s.placeJob j g job p)

/-- NOP: a fenced NOP completes once every earlier job of its pair has; it holds back the later ones until then (R59). A NOP
without FENCE has completed at admission. -/
def execNop (j : Nat) (s : State) : Result :=
  .next (match s.job j with
    | none => s
    | some job =>
      if s.kindOf job ≠ .nop ∨ job.stage ≠ Stage.admitted ∨ s.heldBack j job then s else s.complete j Status.ok true)

/-! Key, input and output stages. -/

/-- The slots a job waits for while the key shelf is restored (R320). -/
def State.waitsForShelf (s : State) (job : Job) : Bool :=
  s.vault.shelfLoading && ((s.slot1 job).toList ++ job.slot2.toList).any fun k =>
    (s.vault.shelf.find? k).isSome && decide ((s.slot k).state ≠ .loaded)

/-- A blob that ends past 2^64 (R504). -/
def blobWraps (d : Descriptor) (blob : List Byte) : Bool := decide (2 ^ 64 < d.blobAddr + 0x40 + field blob 0x10 4 + 16)

/-- KEY_STAGE: a placed job on an awake bed with its program in PM is judged, charged and given its keys; a refused read of a
blob ends it with DMA_ERROR (R17, R56, R60). -/
def execKeyStage (j : Nat) (blob : Option (List Byte)) (s : State) : Result :=
  .next (match s.job j with
    | none => s
    | some job => match job.grain with
      | none => s
      | some g =>
        if (job.stage ≠ Stage.placed ∧ job.stage ≠ Stage.key) ∨ (s.bed (g / 16)).state ≠ .awake ∨
            (s.grain g).state ≠ .running ∨ s.power.holdActive ∨ (s.quad (g / 256)).unlocked ∨ s.waitsForShelf job then s
        else if job.desc.keyForm ≠ 3 then s.keyStage j g job []
        else match blob with
          | none => s.endExecution j g Status.dmaError 0 0
          | some b => if blobWraps job.desc b then s.endExecution j g Status.blobInvalid 0 0 else s.keyStage j g job b)

/-- The input's bytes, or the status that ends the job (R57, R58, R60). -/
def inputOf (d : Descriptor) (list data : Option (List Byte)) : Except Nat (List Byte) :=
  let whole := match data with
    | some x => .ok (padTo d.inLen x)
    | none => if d.inLen = 0 then .ok [] else .error Status.dmaError
  if !d.inList then whole
  else if d.inSgl = 0 then (if d.inLen = 0 then .ok [] else .error Status.sglFormat)
  else if 256 < d.inSgl then .error Status.sglFormat
  else match list with
    | none => .error Status.dmaError
    | some l => if (readSgl l d.inAddr d.inSgl d.inLen).isSome then whole else .error Status.sglFormat

/-- The execute stage of a job begins on its grain: the head of its stream stands in the IN window, the program counter at
ENTRY (R20, R95, R97, R134). -/
def State.startProgram (s : State) (j g : Nat) (job : Job) (data : List Byte) : State :=
  let h := (s.grain g).header
  let head := s.streamHead job
  let n := min h.inSize (head.length + job.desc.inLen)
  let s := s.modGrain g fun G =>
    { G.store h.inOff (streamChunk head data 0 n) with pc := h.entry }
  s.modJob j fun x => { x with stage := .execute, input := data, delivered := n }

/-- INPUT_DMA_DONE: the input stands in the grain, or with a unit that takes no grain; a bad list or a refused read ends the
job (R20, R57, R60). -/
def execInputDmaDone (j : Nat) (inList data : Option (List Byte)) (s : State) : Result :=
  .next (match s.job j with
    | none => s
    | some job =>
      if job.stage ≠ Stage.input ∨ job.held ∨ s.power.holdActive then s
      else match inputOf job.desc inList data, job.grain with
        | .error e, some g => s.endExecution j g e 0 0
        | .error e, none => s.endDirect j e []
        | .ok d, some g => s.startProgram j g job d
        | .ok d, none => s.modJob j fun x => { x with stage := .execute, input := d })

/-- The ranges that the output goes to, or the status that ends the job (R57, R58). -/
def outputRanges (job : Job) (list : Option (List Byte)) : Except Nat (List (Nat × Nat)) :=
  let d := job.desc
  if !d.outList then .ok [(d.outAddr, d.outLen)]
  else if job.streamed then .ok job.outList
  else if d.outSgl = 0 then (if d.outLen = 0 then .ok [] else .error Status.sglFormat)
  else if 256 < d.outSgl then .error Status.sglFormat
  else match list with
    | none => .error Status.dmaError
    | some l => match readSgl l d.outAddr d.outSgl d.outLen with
      | some es => .ok es
      | none => .error Status.sglFormat

/-- A job leaves its grain, which scrubs (R108). -/
def State.leaveGrain (s : State) (job : Job) : State :=
  match job.grain with
  | some g => s.modGrain g fun x => { x with state := .scrub, job := none, rngWait := false }
  | none => s

/-- OUTPUT_STAGE_DONE: the output is written and the completion after it (R64 to R67). A bad list leaves no output; a
refused write ends the job with DMA_ERROR, and a refused ring access stops the pair. -/
def execOutputStageDone (j : Nat) (outList : Option (List Byte)) (accepted ring : Bool) (s : State) : Result :=
  .next (match s.job j with
    | none => s
    | some job =>
      if job.stage ≠ Stage.output ∨ job.held then s
      else match outputRanges job outList with
        | .error e => (s.leaveGrain job).complete j e ring
        | .ok es =>
          if !accepted then (s.leaveGrain job).complete j Status.dmaError ring
          else
            let s := match s.pairOwner job.pair with
              | some o => s.dmaScatter o.port o.func es job.out
              | none => s
            (s.leaveGrain job).complete j job.status ring)

/-- IRQ_COALESCE_TIMEOUT: TIME_US has passed since the first counted completion (R67). -/
def execIrqCoalesceTimeout (q : Nat) (s : State) : Result :=
  .next (match s.pairOwner q with
    | none => s
    | some o =>
      if (s.queue q).counted = 0 ∨ (s.queue q).timeUs = 0 then s
      else (s.modQueue q fun x => { x with counted := 0 }).raiseVector o.port o.func (completionVector o))

/-- MSIX_VECTOR_UNMASK: the vector is unmasked, and a message that was pending is sent (R44). -/
def execMsixVectorUnmask (p f v : Nat) (s : State) : Result :=
  .next (
    let fn := s.func (fnKey p f)
    let s := s.modFunc (fnKey p f) fun x =>
      { x with
        msixMasked := if x.msixMasked.testBit v then x.msixMasked - 2 ^ v else x.msixMasked
        msixPending := if x.msixPending.testBit v then x.msixPending - 2 ^ v else x.msixPending }
    if fn.msixPending.testBit v ∧ !(s.port p).perstLow then s.emit (.msix p f v) else s)

end Sys2Proof.Machine
end

