-- ==== Sys2Proof/Machine/Hold.lean ====
section
/-!
DEFINITION. Stopping and resuming work: what a settle hold, or the loss of a quadrant's clock, does to jobs, grains, engines
and digest engines, and what its end does (R110, R192, R193, R246, R265, R331, R334).
-/
namespace Sys2Proof.Machine

/-- The jobs placed on the grains of which `sel` holds. -/
def State.placedOn (s : State) (sel : Nat → Bool) : List Nat :=
  s.jobsWhere fun x => match x.grain with | some g => sel g && decide (x.stage ≠ Stage.ending) | none => false

/-- A job stops: at its grain's instruction boundary, or with its output DMA paused. A job before the key stage only waits. -/
def State.holdJob (s : State) (j : Nat) : State :=
  match s.job j with
  | none => s
  | some job =>
    if job.stage = Stage.placed then s
    else
      let s := s.modJob j fun x => { x with held := true }
      match job.grain with
      | some g => if job.stage = Stage.output then s else s.modGrain g fun G =>
          { G with state := if G.state = .running ∨ G.state = .stalled then .held else G.state }
      | none => s

/-- The engines of which `sel` holds stop after their command step. -/
def State.holdEngines (s : State) (sel : Nat → Bool) : State :=
  { s with
    engines := s.engines.mapVals fun n e =>
    if sel n ∧ e.state = .running then
      { e with state := .stopped, secretRun := match e.holder.bind s.job with | some job => job.secret | none => false }
    else e }

/-- Known-answer tests that run on units of which `sel` holds restart after the hold; their unit keeps its test. -/
def State.holdWork (s : State) (grains engines : Nat → Bool) : State :=
  ((s.placedOn grains).foldl State.holdJob s).holdEngines engines

/-- A stopped engine goes on, or scrubs when its job used a secret key or has gone (R246). -/
def State.releaseEngines (s : State) (sel : Nat → Bool) : State :=
  { s with
    engines := s.engines.mapVals fun n e =>
    if sel n ∧ e.state = .stopped then
      if e.secretRun || e.holder.isNone then { e with state := .scrub, holder := none, secretRun := false }
      else { e with state := .running }
    else e }

/-- A held secret-key job runs again from the start on its grain, at most three times, or ends with SUPPLY_FAULT (R192,
R193). -/
def State.rerunJob (s : State) (j g : Nat) (job : Job) : State :=
  if s.mayRetry job ∧ job.reruns < 3 then
    let s := (s.releaseClaim job).dropEngines j
    let s := s.modGrain g fun G => { G with state := .scrub, rngWait := false, regs := { x := G.regs.x } }
    s.modJob j fun x => { x with
      stage := .placed, retried := true, reruns := x.reruns + 1, held := false, claim := none, delivered := 0, pushed := 0
      streamed := false, out := [], input := [], outWritten := 0, detail := 0, cycles := 0, rngWait := false }
  else (s.modJob j fun x => { x with held := false }).endExecution j g Status.supplyFault 0 0

/-- A held job goes on after the hold. -/
def State.releaseJob (s : State) (j : Nat) : State :=
  match s.job j with
  | none => s
  | some job => match job.grain with
    | none => s.modJob j fun x => { x with held := false }
    | some g =>
      if !job.held then s
      else if job.secret ∧ (job.stage = Stage.execute ∨ job.stage = Stage.input) then s.rerunJob j g job
      else
        let s := s.modJob j fun x => { x with held := false }
        s.modGrain g fun G =>
          { G with state := if G.state = .held then (if G.rngWait then .stalled else .running) else G.state }

/-- Held work resumes. -/
def State.releaseWork (s : State) (grains engines : Nat → Bool) : State :=
  (s.placedOn grains).foldl State.releaseJob (s.releaseEngines engines)

/-- D0 to D15 pause, or go on (R265). -/
def State.pauseDigests (s : State) (on : Bool) : State :=
  (List.range 16).foldl (fun s e => s.modDigest e fun d => { d with paused := on && d.busy }) s

end Sys2Proof.Machine
end

