-- ==== Sys2Proof/Machine/Rng.lean ====
section
/-!
DEFINITION. The random number generator: noise sources and their health tests (R281 to R284), conditioning (R285, R287),
the port DRBGs (R291 to R293), the random operations (R294 to R296), factory test access (R297), retirement by a pair (R299)
and what a zeroize and a subsoil clock start do to it (R282, R300).
-/
namespace Sys2Proof.Machine

def Rng.source (r : Rng) (k : Nat) : Source := r.sources.get k {}
def State.modSource (s : State) (k : Nat) (f : Source → Source) : State :=
  s.modRng fun r => { r with sources := r.sources.modify k {} f }

/-! Health tests (R283). -/

/-- The longest run of equal samples, from the samples in order. -/
def longestRun (samples : List Bool) : Nat :=
  (samples.foldl (fun (acc : Option Bool × Nat × Nat) b =>
    let n := if acc.1 = some b then acc.2.1 + 1 else 1
    (some b, n, max acc.2.2 n)) (none, 0, 0)).2.2

/-- The samples of a block in order: sample k is bit k (R285). -/
def blockSamples (b : BitVec 1024) : List Bool := (List.range 1024).map b.getLsbD

/-- The repetition count test and the adaptive proportion test both pass. -/
def blockPasses (b : BitVec 1024) : Bool :=
  let xs := blockSamples b
  let same := (xs.filter fun x => decide (some x = xs.head?)).length
  decide (longestRun xs < 41) && decide (same < 795)

/-- One step of the substitution register: its output bit and its next value. -/
def lfsrStep (x : W64) : Bool × W64 :=
  let fb := x.getLsbD 63 ^^ x.getLsbD 62 ^^ x.getLsbD 60 ^^ x.getLsbD 59
  (x.getLsbD 63, x <<< 1 ||| (if fb then 1 else 0))

/-- `n` samples of the substitution register, sample 0 first, and its next value. -/
def lfsrRun : Nat → W64 → List Bool × W64
  | 0, x => ([], x)
  | n + 1, x => let a := lfsrStep x; let r := lfsrRun n a.2; (a.1 :: r.1, r.2)

/-- The block a source delivers: its own samples, or the register's under substitution (R297). -/
def Source.samples (x : Source) (raw : BitVec 1024) : BitVec 1024 × W64 :=
  if x.subst then
    let r := lfsrRun 1024 x.lfsr
    (BitVec.ofNat 1024 (r.1.zipIdx.foldl (fun n b => n + (if b.1 then 2 ^ b.2 else 0)) 0), r.2)
  else (raw, x.lfsr)

/-! Retirement (R281, R284, R299). -/

/-- The RNG enters FAILED (R284, R286, R287). -/
def State.rngFail (s : State) : State :=
  if s.rng.state = .failed then s else (s.modRng fun r => { r with state := .failed }).event .rng 4

/-- The sources of the active set. -/
def Rng.working (r : Rng) : List Nat :=
  (List.range 20).filter fun k => decide ((r.source k).role = .active ∨ (r.source k).role = .warming)

/-- The lowest-numbered spare. -/
def Rng.nextSpare (r : Rng) : Option Nat := (List.range 20).find? fun k => decide ((r.source k).role = .spare)

/-- A source is retired: the lowest working spare takes the place of one of the active set, or the set shrinks. A pair of passed
blocks that stands ready is still conditioned, and an unpaired block is discarded (R284, R300). -/
def State.retireSource (s : State) (k : Nat) : State :=
  let x := s.rng.source k
  if x.role = .retired then s
  else
    let s := s.modSource k fun y => { y with role := .retired, half := none, subst := false }
    let s := s.modRng fun r => { r with test := r.test &&& ~~~BitVec.ofNat 32 (2 ^ k) }
    let spare := if x.role = .spare then none else s.rng.nextSpare
    let s := match spare with
      | some n => s.modSource n fun y => { y with role := .warming, calibrated := false, consec := 0 }
      | none => s
    let dest := match spare with | some n => 1160 + n | none => 0xFFFF
    let s := (s.log 0x6002 (leBytes 1 3 ++ leBytes 2 (1160 + k) ++ leBytes 2 dest)).event .rng 2
    if s.rng.working = [] then s.rngFail else s

/-- A block fails: it is counted, and the eighth in a row retires the source. -/
def State.blockFailed (s : State) (k : Nat) : State :=
  let s := s.modSource k fun y =>
    { y with consec := min 8 (y.consec + 1), hfail := satAdd 0xFFFFFFFF y.hfail 1 }
  if 8 ≤ (s.rng.source k).consec then s.retireSource k else s

/-- A block passes: a start-up block brings the source into conditioning and is discarded, any other completes a pair or waits
for the next (R282, R285). -/
def State.blockPassed (s : State) (k : Nat) (b : BitVec 1024) : State :=
  s.modSource k fun y =>
    if y.role = .warming then { y with role := .active, consec := 0 }
    else match y.half with
      | some a => { y with consec := 0, half := none, pairs := y.pairs ++ [b ++ a] }
      | none => { y with consec := 0, half := some b }

/-- NOISE_BLOCK_DONE: a calibrated source of the active set completes a block of 1,024 samples. -/
def execNoiseBlockDone (src : Nat) (samples : BitVec 1024) (s : State) : Result :=
  .next (
    let x := s.rng.source src
    if !s.rng.working.contains src ∨ !x.calibrated then s
    else
      let r := x.samples samples
      let s := s.modSource src fun y => { y with lfsr := r.2 }
      if blockPasses r.1 then s.blockPassed src r.1 else s.blockFailed src)

/-- SOURCE_CALIBRATION_DONE: the source takes its start-up block (R282). -/
def execSourceCalibrationDone (src : Nat) (s : State) : Result :=
  .next (
    if (s.rng.source src).role = .warming then s.modSource src fun y => { y with calibrated := true } else s)

/-- The pair on RNG_SRC_SEL: every named source is retired (R299). -/
def srcSelPair (_off : Nat) (v : W32) (s : State) : State × GuardResult :=
  (((List.range 20).filter fun k => v.getLsbD k).foldl State.retireSource s, .applied)

/-- RNG_SRC_SEL: the second write of the pair. -/
def execRngSrcSel (r : Requester) (off : Nat) (complement : W32) (s : State) : Result :=
  .next (s.guardPair r [gdSrcSel] off complement srcSelPair)

/-! Conditioning (R285, R287). -/

/-- The source whose pair is taken next: round robin from `turn`, sources without a pair skipped. -/
def Rng.nextPair (r : Rng) : Option Nat :=
  ((List.range 20).map fun i => (r.turn + i) % 20).find? fun k => decide ((r.source k).pairs ≠ [])

/-- The first seed: READY, its event, and RNG_READY where the topsoil is powered (R287, R298). -/
def State.rngFirst (s : State) : State :=
  if s.rng.firstSeed then s
  else
    let s := (s.modRng fun r => { r with state := .ready, firstSeed := true }).event .rng 1
    if s.power.topsoilUp then { s with glb := { s.glb with rngReady := true } } else s

/-- CONDITIONER_SEED_OUT: SHA3-256 of the next pair enters the queue while it holds fewer than 64 seeds, and the arbiter serves
the requests that wait (R285, R288, R289). -/
def execConditionerSeedOut (s : State) : Result :=
  .next (
    if s.rng.state = .failed ∨ 64 ≤ s.rng.queue.length then s
    else match s.rng.nextPair with
      | none => s
      | some k => match (s.rng.source k).pairs with
        | [] => s
        | pair :: rest =>
          let seed := sha3_256 (leBytes 256 pair.toNat)
          let s := s.modSource k fun y => { y with pairs := rest }
          let s := s.modRng fun r =>
            { r with
              turn := (k + 1) % 20, queue := r.queue ++ [seed], seeds := r.seeds + 1
              instantiated := r.instantiated || decide (15 ≤ r.queue.length) }
          s.rngFirst.serve)

/-- RNG_FIRST_SEED_TIMEOUT: no seed exists tRNGFAIL after the subsoil clock started (R287). The start that waits for a seed then
never becomes healthy, and counts as failed (R342). -/
def execRngFirstSeedTimeout (s : State) : Result :=
  .next (if s.rng.firstSeed then s else s.rngFail)

/-! Host DRBGs (R291 to R293). -/

/-- DRBG_INSTANTIATE: once the queue has held 16 seeds, core 1 tests the DRBG of an enabled port and instantiates it from two
seeds, which it takes at priority 3, with a reserve of 8 (R288, R291). -/
def execDrbgInstantiate (p : Nat) (katOk : Bool) (s : State) : Result :=
  .next (
    if s.rng.state ≠ .ready ∨ !s.rng.instantiated ∨ s.rng.queue.length < 8 ∨ s.boot.tilth = none ∨ s.portCount ≤ p ∨
        (s.drbg p).state ≠ .uninstantiated then s
    else if !katOk then (s.modDrbg p fun d => { d with state := .failed }).event .rng 8
    else
      let kv := drbgInstantiate (s.rng.queue.take 2).flatten (drbgPers s.uid p)
      let s := s.modRng fun r => { r with queue := r.queue.drop 2 }
      s.modDrbg p fun d => { requests := d.requests, waiting := d.waiting, state := .ready, key := kv.1, v := kv.2 })

/-- The DRBG can run its front request: it is instantiated, no reseed runs, and the request stands at no reseed point. -/
def Drbg.ready (d : Drbg) (r : DrbgReq) : Bool :=
  decide (d.state = .ready) && !d.reseeding && !r.predict && decide (d.count < 65536)

/-- One part of a random-bytes job: it is written as its request completes, and the last one ends the job. The parts of a job
with an output list are written together at the end. -/
def State.randomPart (s : State) (j : Nat) (bytes : List Byte) : State :=
  match s.job j with
  | none => s
  | some job =>
    let done := job.outWritten + bytes.length
    let s := s.modJob j fun x => { x with outWritten := done, out := if job.desc.outList then x.out ++ bytes else [] }
    let s := if job.desc.outList then s
      else match s.pairOwner job.pair with
        | some o => s.dmaWrite o.port o.func (job.desc.outAddr + job.outWritten) bytes true
        | none => s
    if job.desc.outLen ≤ done then s.modJob j fun x => { x with stage := .output, rngWait := false } else s

/-- A key-port buffer takes a refill (R292). -/
def State.refill (s : State) (q p : Nat) (bytes : List Byte) : State :=
  s.modRng fun x => { x with buffers := x.buffers.modify (bufKey q p) [] fun b => b ++ bytes }

/-- The front request of a DRBG runs, where its user is one of `who`: its output is handed over, COUNT moves, and the DRBG goes
on. -/
def State.generate (s : State) (p : Nat) (who : DrbgUser → Bool) : State :=
  let d := s.drbg p
  match d.requests with
  | [] => s
  | r :: rest =>
    if !d.ready r ∨ !who r.user then s
    else
      let x := drbgGenerate r.bytes r.input (d.key, d.v)
      let s := s.modDrbg p fun y => { y with requests := rest, key := x.2.1, v := x.2.2, count := y.count + 1 }
      let s := match r.user with
        | .job j => s.randomPart j x.1
        | .buffer q => s.refill q p x.1
        | .discard => s
      (s.modDrbg p fun y => (y.acceptAll y.waiting.length).advance).askForDrbg p

/-- A request of a job, or one whose output is discarded. -/
def DrbgUser.isBuffer : DrbgUser → Bool
  | .buffer _ => true
  | _ => false

/-- DRBG_GENERATE_DONE: the front request of the port's DRBG completes, for a job (R292, R296). -/
def execDrbgGenerateDone (p : Nat) (s : State) : Result := .next (s.generate p fun u => !u.isBuffer)

/-- KEY_PORT_BUFFER_REFILL: the front request of the port's DRBG completes, for the buffer of quadrant `q` (R292). -/
def execKeyPortBufferRefill (q p : Nat) (s : State) : Result := .next (s.generate p fun u => decide (u = .buffer q))

/-- DRBG_RESEED_DONE (R292, R293). -/
def execDrbgReseedDone (p : Nat) (s : State) : Result :=
  .next (if (s.drbg p).reseeding then (s.modDrbg p fun d => d.reseed.advance).askForDrbg p else s)

/-! Random operations (R294 to R296). -/

/-- The requests of a random-bytes job: one for each 64 KiB, the last one shorter. -/
def randomRequests (j n : Nat) (input : List Byte) (predict : Bool) : List DrbgReq :=
  (List.range ((n + 65535) / 65536)).map fun i =>
    { user := .job j, bytes := min 65536 (n - 65536 * i), input := input, predict := predict && decide (i = 0) }

/-- A random-bytes job reserves its requests, once (R292, R293, R295). -/
def State.randomJob (s : State) (j : Nat) (predict : Bool) : State :=
  match s.job j with
  | none => s
  | some job =>
    if s.kindOf job ≠ .random predict ∨ job.stage ≠ Stage.execute ∨ job.rngWait then s
    else match s.pairOwner job.pair with
      | none => s
      | some o =>
        let d := s.drbg o.port
        if s.rng.state ≠ .ready ∨ d.state = .uninstantiated ∨ d.state = .failed then s.endDirect j Status.rngNotReady []
        else
          let s := s.modJob j fun x => { x with rngWait := true, outWritten := 0 }
          let s := s.reserveDrbg o.port (randomRequests j job.desc.outLen job.input predict)
          let s := if predict then s.requestSeed (.predict o.port) else s
          s.askForDrbg o.port

/-- RANDOM_BYTES: operation 0x7100. -/
def execRandomBytes (j : Nat) (s : State) : Result := .next (s.randomJob j false)

/-- RANDOM_BYTES_PR: operation 0x7101, with a reseed before its first request (R293). -/
def execRandomBytesPr (j : Nat) (s : State) : Result := .next (s.randomJob j true)

/-- CONDITIONED_ENTROPY: operation 0x7200 gathers seeds at priority 4 (R294, R295). -/
def execConditionedEntropy (j : Nat) (s : State) : Result :=
  .next (match s.job j with
    | none => s
    | some job =>
      if s.kindOf job ≠ .entropy ∨ job.stage ≠ Stage.execute ∨ job.rngWait then s
      else if s.rng.state ≠ .ready then s.endDirect j Status.rngNotReady []
      else (s.modJob j fun x => { x with rngWait := true }).requestSeed (.entropy j))

/-! Factory test access (R297). -/

/-- A capture starts, in TEST_UNLOCKED only. -/
def State.captureStart (s : State) (src : Nat) : State :=
  if s.life.state ≠ .testUnlocked ∨ 19 < src ∨ s.rng.capturing.isSome then s
  else s.modRng fun r =>
    { r with
      capturing := some src
      test := BitVec.ofNat 32 (bits r.test.toNat 19 0 + src * 2 ^ 24 + 2 ^ 29) }

/-- A write to RNG_TEST takes effect: substitution starts or stops by source, and CAPGO starts a capture. -/
def State.writeRngTest (s : State) (v : W32) : State :=
  if s.life.state ≠ .testUnlocked then s
  else
    let s := s.modRng fun r =>
      { r with
        test := BitVec.ofNat 32 (bits v.toNat 19 0 + bits v.toNat 28 24 * 2 ^ 24 + if r.capturing.isSome then 2 ^ 29 else 0)
        sources := (List.range 20).foldl (fun m k => m.modify k {} fun y =>
          let on := v.getLsbD k && decide (y.role ≠ .retired)
          { y with
            subst := on
            lfsr := if on && !y.subst then r.testSeed ^^^ BitVec.ofNat 64 k else y.lfsr }) r.sources }
    if v.getLsbD 29 then s.captureStart (bits v.toNat 28 24) else s

/-- RNG_CAPTURE_START: CAPGO is written for a source. -/
def execRngCaptureStart (src : Nat) (s : State) : Result := .next (s.captureStart src)

/-- RNG_CAPTURE_DONE: 32,768 samples stand in the capture buffer, packed as in R285, and CAPGO clears. -/
def execRngCaptureDone (samples : List Byte) (s : State) : Result :=
  .next (match s.rng.capturing with
    | none => s
    | some _ => s.modRng fun r =>
      { r with
        capturing := none
        test := BitVec.ofNat 32 (bits r.test.toNat 28 0)
        capture := ((padTo 4096 samples).zipIdx.foldl (fun m b => m.set b.2 b.1 0) []) })

/-! Resets and zeroize. -/

/-- The generator when the subsoil clock starts: of the former one only the retirements remain (R281, R282). -/
def Rng.restart (r : Rng) : Rng :=
  let working := ((List.range 20).filter fun k => decide ((r.source k).role ≠ .retired)).take 16
  { sources := (List.range 20).map fun k =>
      (k, { role :=
              if (r.source k).role = .retired then .retired else if working.contains k then .warming else .spare : Source }) }

/-- An expander whose count is set to 4,096: it reseeds before its next word (R300). -/
def Expander.spent : Expander := { delivered := expanderSpan, pending := true }

/-- A zeroize in the generator (R300): queue, DRBGs, expanders and buffers; the group-0x7 jobs that wait complete with
ZEROIZED. -/
def State.zeroizeRng (s : State) : State :=
  let waiting := s.jobsWhere fun x =>
    (match s.kindOf x with | .random _ | .entropy => true | _ => false) && decide (x.stage = Stage.execute)
  let grains := (List.range 1024).filter s.grainPresent
  let s := s.modRng fun r => { r with
    queue := [], instantiated := false, drbgs := r.drbgs.mapVals fun _ d => if d.state = .failed then { state := .failed } else {}
    buffers := [], keyPorts := (List.range 4).map fun q => (q, Expander.spent)
    waiting := grains.map SeedReq.grain ++ (List.range 4).map SeedReq.keyPort }
  let s := grains.foldl (fun s g => s.modGrain g fun G => { G with expander := Expander.spent }) s
  waiting.foldl (fun s j => s.endDirect j Status.zeroized []) s

/-- What PERST_N of a port, or a reset of the topsoil fabric, clears in the key ports' buffers (R292). -/
def State.clearBuffers (s : State) (sel : Nat → Bool) : State :=
  s.modRng fun r => { r with buffers := r.buffers.filter fun (k, _) => !sel (k % 4) }

end Sys2Proof.Machine
end

