-- ==== Sys2Proof/Machine/Resets.lean ====
section
/-!
DEFINITION. What resets clear (R323, R332, R336, R337, R339): the topsoil fabric, and everything below the subsoil core domain.
-/
namespace Sys2Proof.Machine

def State.modPower (s : State) (f : Power → Power) : State := { s with power := f s.power }
def State.modBoot (s : State) (f : Boot → Boot) : State := { s with boot := f s.boot }
def State.modVault (s : State) (f : Vault → Vault) : State := { s with vault := f s.vault }
def State.modGlb (s : State) (f : Glb → Glb) : State := { s with glb := f s.glb }
def State.modPgd (s : State) (f : Pgd → Pgd) : State := { s with pgd := f s.pgd }
def State.modTamper (s : State) (f : Tamper → Tamper) : State := { s with tamper := f s.tamper }
def State.modLife (s : State) (f : Life → Life) : State := { s with life := f s.life }
def State.modHzn (s : State) (f : Horizon → Horizon) : State := { s with hzn := f s.hzn }
def State.modObs (s : State) (f : Obs → Obs) : State := { s with obs := f s.obs }

/-! BOOT_RST_CAUSE bits (R347). -/

def causeLcTrans : Nat := 2 ^ 23
def causeLoamMchk : Nat := 2 ^ 22
def causeSoftware : Nat := 2 ^ 21
def causeBringup : Nat := 2 ^ 20
def causeSysReset : Nat := 2 ^ 19
def causePor : Nat := 2 ^ 18

/-! The topsoil fabric. -/

/-- A slot after a reset that clears the topsoil fabric: EMPTY in its owner's hands (R323). -/
def Slot.emptied (x : Slot) : Slot :=
  if x.state = .unassigned then x else { state := .empty, owner := x.owner, system := x.system }

/-- The non-persistent keys that such a reset destroys. -/
def State.volatileKeys (s : State) : List Nat :=
  (s.vault.slots.filter fun (_, x) => decide (x.state = .loaded) && !attrPersistent x.attr).map Prod.fst

/-- A bed after the fabric's reset: OFF, with its retirements and its machine-check record (R332). -/
def Bed.off (b : Bed) : Bed := { retired := b.retired, spareOf := b.spareOf, mchk := b.mchk, lastMchk := b.lastMchk }

/-- A quadrant after the fabric's reset: no PLL runs. -/
def Quadrant.off (q : Quadrant) : Quadrant := { bneRetired := q.bneRetired, bneMoved := q.bneMoved }

/-- An SQ register of the topsoil. -/
def sqTopsoil (k : Nat) : Bool := decide (k < 131216 ∨ k = 131301 ∨ k = 131309)

/-- The subsoil's part of the RNG keeps running: requests that the topsoil reserved run and are discarded (R300), and the key
ports' buffers and expanders are gone (R292, R332). -/
def Rng.topsoilLost (r : Rng) : Rng :=
  { r with
    buffers := [], keyPorts := []
    waiting := r.waiting.filter fun x => decide (x.cls = 3)
    drbgs := r.drbgs.mapVals fun _ d =>
      { d with requests := d.requests.map fun x => { x with user := .discard }, waiting := [] } }

/-- The entry that a tenant's reinstallation takes: its accepted changes stand in force (R80, R337). -/
def Tenant.reinstalled (t : Tenant) : TptFields := t.later.getD t.tpt

/-- The topsoil fabric, the PCIe PHY and all beds are cleared: jobs write no completions, non-persistent slots and all contexts
are destroyed, the key-encryption keys are gone, and the TPT in force is kept for its reinstallation (R337). -/
def State.clearTopsoil (s : State) (logged : Bool) : State :=
  let s := if logged then s.volatileKeys.foldl (fun s k => s.logDestroyed k 6) s else s
  let s := s.modVault fun v => { v with
    slots := v.slots.mapVals fun _ x => x.emptied
    ctxs := [], slotKekValid := false, cacheKekValid := false, ctxKekValid := false, shelfLoading := false
    scrubSlots := false, scrubCtxs := false, scrubCache := false }
  { s with
    jobs := [], queues := [], funcs := [], engines := [], guard := [], posted := []
    sq := s.sq.filter fun (k, _) => !sqTopsoil k
    glbPf := s.glbPf.mapVals fun _ x => { arm := x.arm }
    ports := s.ports.mapVals fun _ x => { perstLow := x.perstLow }
    tenants := s.tenants.mapVals fun _ t => { state := t.state, exported := t.exported, tpt := t.reinstalled, quiescers := t.quiescers }
    beds := s.beds.mapVals fun _ b => b.off
    grains := s.grains.filter fun (_, g) => decide (g.state = .retired)
    quads := s.quads.mapVals fun _ q => q.off
    digests := s.digests.filter fun (e, _) => decide (16 ≤ e)
    rng := s.rng.topsoilLost
    obs := { s.obs with counters := [], latched := [], katRun := 0, tests := [], trcCtl := 0, trcDrop := 0 }
    glb := { s.glb with rngReady := false, startOk := false, lastSettled := true }
    power := { s.power with topsoilUp := false, pciePermitted := false, holdActive := false, holdBy := 0 } }

/-! The full reset. -/

/-- A full reset whose sequence has not ended yet (R339). -/
def State.resetRunning (s : State) : Bool :=
  decide (s.power.phase ∈ [Phase.porHeld, .pinHeld, .pllLocking, .booting, .renewing, .chosen, .sealing, .gateOpen]) &&
  !s.glb.startOk

/-- The counter has reached 4,096, or every position has been programmed or tried (R421). -/
def Tamper.saturated (t : Tamper) : Bool := decide (4096 ≤ t.count ∨ 4096 ≤ t.next)

/-- Saturation locks in MANUFACTURED and OWNED (R417, R421). -/
def State.saturationLocks (s : State) : Bool :=
  s.tamper.saturated && decide (s.life.state = .manufactured ∨ s.life.state = .owned)

/-- The device is locked: latch, flag or saturation, in a state that knows the lock (R417, R418). -/
def State.lockHeld (s : State) : Bool :=
  (s.tamper.latch || s.tamper.flag || s.saturationLocks) && decide (s.life.state = .manufactured ∨ s.life.state = .owned)

/-- What the tamper system keeps across a full reset: the always-on domain, the state area and OTP (R426). -/
def Tamper.kept (t : Tamper) : Tamper :=
  { latch := t.latch, flag := t.flag, batt := t.batt, transferred := t.transferred, count := t.count, next := t.next
    due := t.due, live := t.live, out := t.out, outFor := t.outFor, vbatLow := t.vbatLow, unlocked := t.unlocked
    outLock := t.outLock, battCfg := t.battCfg, battWindow := t.battWindow }

/-- What the boot store keeps: contents, control pages, state area and OTP; nothing runs and the gate is closed (R337, R362). -/
def Boot.kept (b : Boot) : Boot :=
  { b with
    install := none, running := 3, gateOpen := false, tilthCopy := 0, otherValid := false, tilth := none, fwVersion := 0
    directory := [], programs := [], ucode := [], ucodeVersion := 0, ucodeBad := false }

/-- The retirements outlive every reset (R468). -/
def Rng.off (r : Rng) : Rng :=
  { sources := (r.sources.filter fun (_, x) => decide (x.role = .retired)).map fun (k, _) => (k, { role := .retired }) }

/-- A full reset with its cause bits: the subsoil core domain and everything below it are cleared, every link is re-keyed, the
holds are asserted, and the sequence starts again at step 2 of R338. Causes of one sequence accumulate (R337, R339). A
reset that takes power away, or stops the loam cores, logs nothing. -/
def State.fullReset (s : State) (cause : Nat) (phase : Phase) (logged : Bool) : State :=
  let again := s.resetRunning
  let s := s.clearTopsoil logged
  let keepGlb : Glb := { epoch := s.glb.epoch, logFull := decide (16128 ≤ s.hzn.unacked) }
  { s with
    sq := [], glbPf := [], posted := [], tenants := [], digests := [], spdm := {}, tamperCfg := [], pgd := {}, i3c := {}
    glb := { keepGlb with locked := s.lockHeld }
    rng := s.rng.off
    tamper := { s.tamper.kept with locked := s.lockHeld }
    uncel := { gen := s.uncel.gen, genPrev := s.uncel.genPrev }
    life := { s.life with staged := none }
    boot := s.boot.kept
    hzn := { s.hzn with waiting := [], issued := [], win := 0, dropped := 0, droppedTime := 0 }
    vault := { s.vault with aliasKey := false, rootRenewed := false }
    power := { s.power with
      phase := phase, cause := if again then s.power.cause ||| cause else cause, localCause := 0, settleCount := 0
      resetDue := 0 } }

/-- A full reset raised from inside: the straps are kept and the PLL locks anew. -/
def State.innerReset (s : State) (cause : Nat) : State :=
  s.fullReset cause .pllLocking (decide (cause = causeSoftware ∨ cause = causeLcTrans))

/-- A narrower source before START_OK becomes a full reset with BRINGUP and the source's own cause (R341). The event bit of a
narrower source stands in BOOT_RST_EVT after the reset. -/
def State.escalated (s : State) (own event : Nat) : State :=
  let s := s.innerReset (causeBringup ||| own)
  if event = 0 then s else s.event .rst event

/-- Start the full reset that a command has called for, after its own effects. -/
def State.runDue (s : State) : State :=
  if s.power.resetDue = 0 then s
  else if s.glb.startOk || !s.resetRunning then s.innerReset s.power.resetDue
  else s.escalated s.power.resetDue 0

/-- Call for a full reset. -/
def State.callReset (s : State) (cause : Nat) : State := s.modPower fun p => { p with resetDue := p.resetDue ||| cause }

/-! The pair on GLB_RESET (R45). -/

/-- 0x5EED_0001 starts a software full reset; any other value is refused. -/
def resetPair (_off : Nat) (v : W32) (s : State) : State × GuardResult :=
  if v = 0x5EED0001 then (s.callReset causeSoftware, .applied) else (s, .inputInvalid)

/-- GLB_RESET: the second write of the pair. -/
def execGlbReset (r : Requester) (off : Nat) (complement : W32) (s : State) : Result :=
  .next ((s.guardPair r [gdReset] off complement resetPair).runDue)

end Sys2Proof.Machine
end

