-- ==== Sys2Proof/Machine/SigBlock.lean ====
section
/-!
DEFINITION. The hybrid signature block of images, tilth records, life-cycle and unlock requests (R354, R402, R420).
-/
namespace Sys2Proof.Machine

/-- Schemes of `Config.sigOk`, by the key class of R311: ML-DSA-87, HSS and ECDSA P-384. -/
def schemeMl : Nat := 0x23
def schemeHss : Nat := 0x50
def schemeP384 : Nat := 0x72

/-- A pure ML-DSA-87 signature with an empty context, over its representative (R206). -/
def mlOk (key message signature : List Byte) : Bool := Config.sigOk schemeMl key (0#8 :: 0#8 :: message) signature

/-- An ECDSA P-384 signature over the SHA-384 digest. -/
def p384Ok (key message signature : List Byte) : Bool := Config.sigOk schemeP384 key (sha2 2 message) signature

/-- The fields of a signature block. -/
structure SigBlock where
  mlKey : List Byte
  hssKey : List Byte
  mlSig : List Byte
  hssSig : List Byte
  deriving DecidableEq, Repr

/-- Read a signature block, which fills its bytes exactly. -/
def parseSigBlock (b : List Byte) : Option SigBlock :=
  let p := field b 2592 4
  let at_ := 2596 + p
  let n := field b (at_ + 4627) 4
  if b.length = at_ + 4627 + 4 + n then
    some ⟨b.take 2592, slice b 2596 p, slice b at_ 4627, b.drop (at_ + 4631)⟩
  else none

/-- Both signatures verify under the key pair that a digest names. -/
def SigBlock.ok (x : SigBlock) (digest message : List Byte) : Bool :=
  decide (sha3_256 (x.mlKey ++ x.hssKey) = digest) && mlOk x.mlKey message x.mlSig &&
  Config.sigOk schemeHss x.hssKey message x.hssSig

/-- The message of a signed object: a label and SHA3-512 of its bytes. -/
def signedMessage (label : String) (b : List Byte) : List Byte := ascii label ++ sha3 64 b

end Sys2Proof.Machine
end

