-- ==== Sys2Proof/Machine/LifeCycle.lean ====
section
/-!
DEFINITION. The life cycle: OTP entries and the decision (R396, R397), the debug latch (R398, R399), transition requests and
their signers (R401, R402), staging and application (R403), commit and wipes (R403, R404).
-/
namespace Sys2Proof.Machine

/-! OTP entries. -/

/-- The states with their code words (R395). -/
def lcStates : List LcState := [.raw, .testUnlocked, .testLocked, .manufactured, .owned, .returned, .scrapped]

/-- The index of a state (R395). -/
def lcIndex : LcState → Nat
  | .raw => 0 | .testUnlocked => 1 | .testLocked => 2 | .manufactured => 3 | .owned => 4 | .returned => 5 | .scrapped => 6

/-- The state of a code word. -/
def lcOfCode (w : Nat) : Option LcState := lcStates.find? fun x => decide (lcCode x = w)

/-- At least 5 of the 8 bits of a mark read 1 (R396). -/
def markSet (b : Nat) : Bool := decide (5 ≤ ((List.range 8).filter fun i => b.testBit i).length)

def entryCommitted (e : BitVec 128) : Bool := markSet (bits e.toNat 103 96)
def entryWiped (e : BitVec 128) : Bool := markSet (bits e.toNat 111 104)

/-- The majority of the three copies. -/
def entryState (e : BitVec 128) : Option LcState :=
  let a := bits e.toNat 31 0
  let b := bits e.toNat 63 32
  let c := bits e.toNat 95 64
  if a = b ∨ a = c then lcOfCode a else if b = c then lcOfCode b else none

/-- Used entries, committed or abandoned: LCS_STAT.COUNT (R397). -/
def Life.count (l : Life) : Nat := ((List.range 64).filter fun n => decide (l.entries.get n 0 ≠ 0)).length

/-- The highest-numbered committed entry. -/
def Life.inForce (l : Life) : Option (BitVec 128) :=
  (((List.range 64).reverse.map fun n => l.entries.get n 0).find? entryCommitted)

/-- An abandoned entry stands in OTP (R396). -/
def Life.abandoned (l : Life) : Bool :=
  (List.range 64).any fun n => decide (l.entries.get n 0 ≠ 0) && !entryCommitted (l.entries.get n 0)

/-- The decision of R397: without a majority the device behaves as SCRAPPED. -/
def Life.decide_ (l : Life) : Life :=
  match l.inForce with
  | none => { l with state := .raw, wiped := false, decideFail := false }
  | some e => match entryState e with
    | some st => { l with state := st, wiped := entryWiped e, decideFail := false }
    | none => { l with state := .scrapped, wiped := entryWiped e, decideFail := true }

/-- The lowest unused entry. -/
def Life.nextEntry (l : Life) : Nat := ((List.range 64).find? fun n => decide (l.entries.get n 0 = 0)).getD 63

/-- Program the three copies of a state, with or without COMMIT (R396). -/
def Life.program (l : Life) (st : LcState) (commit : Bool) : Life :=
  let w := lcCode st
  let v := w + w * 2 ^ 32 + w * 2 ^ 64 + if commit then 0xFF * 2 ^ 96 else 0
  { l with entries := l.entries.set l.nextEntry (BitVec.ofNat 128 v) 0 }

/-- Program WIPED of the entry in force. -/
def Life.markWiped (l : Life) : Life :=
  match (List.range 64).reverse.find? fun n => entryCommitted (l.entries.get n 0) with
  | some n => { l with entries := l.entries.modify n 0 fun e => e ||| BitVec.ofNat 128 (0xFF * 2 ^ 104), wiped := true }
  | none => l

/-- The permissions of R398 as LCS_DEBUG shows them (R399, R406): trace level, factory service, memory test, boundary scan and
RNG test. -/
def Life.permissions (l : Life) : Nat :=
  let v (trace : Nat) (factory memtest bscan rng : Bool) : Nat :=
    16 * trace + 8 * ofBool factory + 4 * ofBool memtest + 2 * ofBool bscan + ofBool rng
  match l.state with
  | .raw => v 3 true true false false
  | .testUnlocked => v 3 true true true true
  | .testLocked => v 1 true false true false
  | .manufactured | .owned => v 1 false false false false
  | .returned => v 2 l.wiped l.wiped false false
  | .scrapped => v 0 false false false false

/-! Transition requests. -/

/-- The transitions of R401: 0 the vendor life-cycle key signs, 1 an owner signer. -/
def lcSigner (from_ dest : LcState) : Option Nat :=
  match from_, dest with
  | .raw, .testUnlocked | .testUnlocked, .testLocked | .testLocked, .testUnlocked | .testLocked, .manufactured
  | .manufactured, .owned | .manufactured, .returned => some 0
  | .owned, .returned | .owned, .scrapped => some 1
  | .raw, .scrapped | .testUnlocked, .scrapped | .testLocked, .scrapped | .manufactured, .scrapped
  | .returned, .scrapped => some 0
  | _, _ => none

/-- The target state of a request. -/
def lcTarget (r : List Byte) : Option LcState := lcOfCode (field r 0x0C 4)

/-- Every byte of a range is 0. -/
def zeros (b : List Byte) (off n : Nat) : Bool := decide (slice b off n = List.replicate n 0#8)

/-- Format, transition, COUNTER and UID of a request (R402). -/
def State.lcFormat (s : State) (r : List Byte) : Bool :=
  decide (0xC0 ≤ r.length ∧ r.take 4 = ascii "IXLT" ∧ field r 4 2 = 1) && zeros r 0x14 12 && zeros r 0x30 16 &&
  (match lcTarget r with
   | some dest =>
     decide (field r 8 4 = lcCode s.life.state ∧ lcSigner s.life.state dest = some (field r 6 1)) &&
     (if field r 6 1 = 0 then decide (field r 7 1 = 0) else decide (4 ≤ field r 7 1 ∧ field r 7 1 ≤ 7)) &&
     decide (field r 0x10 4 = s.life.count) &&
     decide (field r 0x10 4 < 63 ∨ (field r 0x10 4 = 63 ∧ dest = .scrapped)) &&
     (decide (dest = .manufactured ∨ dest = .owned) || zeros r 0x40 128)
   | none => false) &&
  decide (slice r 0x20 16 = leBytes 16 s.uid) && (parseSigBlock (r.drop 0xC0)).isSome && !s.life.decideFail

/-- An image-key entry is programmed and not revoked. -/
def State.keyLive (s : State) (k : Nat) : Bool := (s.boot.keys.find? k).isSome && !s.boot.revoked.testBit k

/-- The verdict on a request (R402, R403): OK, INPUT_INVALID, KEY_DENIED or VERIFY_FAIL. -/
def State.lcVerdict (s : State) (r : List Byte) : Nat :=
  if !s.lcFormat r then Status.inputInvalid
  else
    let owner := decide (field r 6 1 = 1)
    if owner && !s.keyLive (field r 7 1) then Status.keyDenied
    else
      let digest := if owner then s.boot.keys.get (field r 7 1) [] else Config.vendorLcKey
      match parseSigBlock (r.drop 0xC0) with
      | none => Status.inputInvalid
      | some b => if b.ok digest (signedMessage "IXLT-SIGN" (r.take 0xC0)) then Status.ok else Status.verifyFail

/-- The pair on LCS_REQ (step 2 of R403): the staged TO code word stores the request, logs it and calls for the reset. -/
def lcsPair (_off : Nat) (v : W32) (s : State) : State × GuardResult :=
  match s.life.staged with
  | none => (s, .inputInvalid)
  | some r =>
    if v.toNat ≠ field r 0x0C 4 then (s, .inputInvalid)
    else
      let s := s.modLife fun l => { l with staged := none, request := some r }
      let s := s.log 0x3001 (leBytes 4 (field r 8 4) ++ leBytes 4 v.toNat ++ leBytes 1 (field r 0x10 4) ++ leBytes 1 2)
      (s.callReset causeLcTrans, .applied)

/-- LCS_REQ: the second write of the pair. -/
def execLcsReq (r : Requester) (off : Nat) (complement : W32) (s : State) : Result :=
  .next ((s.guardPair r [gdLcsReq] off complement lcsPair).runDue)

/-- LC_STAGE (step 1 of R403): the request is checked and kept, and LCS_REQ armed. -/
def State.lcStage (s : State) (v : Via) (r : List Byte) : State × Answer :=
  let verdict := s.lcVerdict r
  if verdict ≠ Status.ok then (s, .no verdict)
  else
    let s := s.modLife fun l => { l with staged := some r }
    s.arm v gdLcsReq (BitVec.ofNat 32 (field r 0x0C 4)) lcsPair

/-! Commit and wipe. -/

/-- Where a power loss cuts a transition short (R405). -/
def State.cutPower (s : State) : State := s.fullReset 0 .unpowered false

/-- The boot store outside the immutable boot code is erased, the retirements apart, which OTP keeps (R404, R468). -/
def State.eraseStateArea (s : State) : State :=
  { s with
    boot := { s.boot with
      primary := 0, failCount := 0, limitN := 3, tilthFloor := 0, ownerTilth := false, reseal := false, svnRaise := false }
    vault := { s.vault with owned := [], tgen := [], deviceCert := [] }
    tamper := { s.tamper with flag := false }
    life := { s.life with request := none }
    glb := { s.glb with epoch := 0 } }

/-- Slots, tilth copies, state area, log and shelf. -/
def State.eraseStore (s : State) : State :=
  { s.eraseStateArea with
    boot := { s.eraseStateArea.boot with regions := [] }
    hzn := { s.hzn with entries := [], next := 0, chain := [], floor := none, offset := 0 } }

/-- What every transition destroys (R323, R404): keys on the shelf are logged with path 5. -/
def State.wipeKeys (s : State) : State :=
  let s := s.vault.shelf.foldl (fun s e =>
    s.log 0x2002 (leBytes 2 e.1 ++ leBytes 2 e.2.owner ++ leBytes 1 (attrClass e.2.attr) ++ leBytes 1 5 ++
      leBytes 6 e.2.uses)) s
  s.modVault fun v => { v with slots := [], ctxs := [], shelf := [], owned := [], tgen := [] }

/-- A root secret of two priority-2 seeds (R303). -/
def State.newRoot (s : State) : State :=
  let a := s.takeSeed
  let b := a.1.takeSeed
  b.1.modVault fun v => { v with rootSecret := a.2 ++ b.2, rootValid := true }

/-- The root secret is gone. -/
def State.clearRoot (s : State) : State := s.modVault fun v => { v with rootSecret := [], rootValid := false }

/-- Image-key entries from KEYS: an all-zero digest leaves its entry unprogrammed. -/
def State.programKeys (s : State) (base : Nat) (keys : List Byte) : State :=
  s.modBoot fun b => { b with
    keys := (List.range 4).foldl (fun m i =>
      if zeros keys (32 * i) 32 then m else m.insert (base + i) (slice keys (32 * i) 32)) b.keys }

/-- The wipes and programming of a transition to `to`, with the KEYS field of its request (R404). -/
def State.wipe (s : State) (dest : LcState) (keys : List Byte) : State :=
  let s := s.wipeKeys
  let s := match dest with
    | .manufactured =>
      let seed := s.takeSeed
      let s := (seed.1.eraseStore).programKeys 0 keys
      (s.modVault fun v => { v with fuseSecret := seed.2 }).newRoot
    | .owned => (s.programKeys 4 keys).modBoot fun b => { b with ownerTilth := false }
    | .returned =>
      let s := s.clearRoot.eraseStateArea
      s.modBoot fun b => { b with failCount := 3, regions := (b.regions.erase 3).erase 4 }
    | .scrapped =>
      let s := s.clearRoot.eraseStore
      let s := s.modVault fun v => { v with fuseSecret := List.replicate 32 0xFF#8 }
      s.modBoot fun b => { b with
        keys := (List.range 8).map fun k => (k, List.replicate 32 0xFF#8)
        revoked := 0xFF, svnFloor := 127 }
    | _ => s
  let s := s.modLife fun l => { l with request := none }
  if dest = .manufactured ∨ dest = .owned ∨ dest = .returned then s.modBoot fun b => { b with reseal := true } else s

/-- The entry is programmed up to COMMIT, and the state decided again (step 4). -/
def State.lcCommit (s : State) (dest : LcState) : State :=
  (s.modLife fun l => (l.program dest true).decide_).event .lcs 1

/-- The wipe and WIPED (step 5). -/
def State.lcWipe (s : State) (keys : List Byte) : State :=
  (s.wipe s.life.state keys).modLife Life.markWiped

/-- Steps 4 and 5 of a checked request, cut short before COMMIT or before WIPED by a power loss. -/
def State.transition (s : State) (r : List Byte) (cut : Option Bool) : State :=
  match lcTarget r with
  | none => s
  | some dest => match cut with
    | some false => ((s.modLife fun l => { l.program dest false with request := none }).cutPower)
    | some true => (s.lcCommit dest).cutPower
    | none => (s.lcCommit dest).lcWipe (slice r 0x40 128)

end Sys2Proof.Machine
end

