-- ==== Sys2Proof/Machine/KeyEvents.lean ====
section
/-!
DEFINITION. What happens to slots outside jobs: destruction by a pair (R323), budget floors (R319), the restoration of the
key shelf (R320), stateful keys (R224, R228) and the manager's requests on slots (R315).
-/
namespace Sys2Proof.Machine

/-! Destruction by a pair. -/

/-- An applied destroy pair: secret, cache lines and shelf record go, holders are aborted, a floor write and a lowering that
wait are given up (R323, R324). The slot keeps its state until the destroy has finished. -/
def State.startDestroy (s : State) (k : Nat) : State :=
  let x := s.slot k
  if x.state = .unassigned ∨ x.state = .empty ∨ x.destroying then s
  else
    let s := x.lowering.foldl (fun s e => s.respond e.2 Status.keyAbsent []) s
    let s := s.destroySlot k 1
    s.modSlot k fun y => { y with state := if x.state = .claimed then .prepared else x.state, destroying := true }

/-- The pair on KEY_SLOT_DESTROY. -/
def destroyPair (_off : Nat) (v : W32) (s : State) : State × GuardResult := (s.startDestroy (bits v.toNat 11 0), .applied)

/-- KEY_SLOT_DESTROY: the second write of the pair. -/
def execKeySlotDestroy (r : Requester) (off : Nat) (complement : W32) (s : State) : Result :=
  .next (s.guardPair r [gdDestroy] off complement destroyPair)

/-- SLOT_DESTROY_DONE: nothing of the key remains, and the slot is EMPTY. -/
def execSlotDestroyDone (slot : Nat) (s : State) : Result :=
  .next (
    if (s.slot slot).destroying then
      (s.modSlot slot fun x => { state := .empty, owner := x.owner, system := x.system }).event .key 1
    else s)

/-! Budget floors. -/

/-- Change the shelf record of a slot, if it has one. -/
def State.modRecord (s : State) (k : Nat) (f : ShelfRecord → ShelfRecord) : State :=
  match s.vault.shelf.find? k with
  | some r => { s with vault := { s.vault with shelf := s.vault.shelf.insert k (f r) } }
  | none => s

/-- A budget takes a lower value. -/
def State.lowerBudget (s : State) (k b : Nat) : State :=
  let was := (s.slot k).budget
  let s := s.modSlot k fun x => { x with budget := min x.budget b }
  if (s.slot k).budget = 0 ∧ was ≠ 0 then s.event .key 2 else s

/-- BUDGET_FLOOR_WRITE_DONE: the floor of a held charge moves by 1,024; a BUDGET_LOWER takes effect, and the manager has its
answer (R319). No MRAM write ends while VDD_SM is low (R335). -/
def execBudgetFloorWriteDone (slot : Nat) (s : State) : Result :=
  .next (
    let x := s.slot slot
    if !s.mramOk then s
    else if x.floorWrite then
      (s.modRecord slot fun r => { r with floor := r.floor - 1024 }).modSlot slot fun y => { y with floorWrite := false }
    else match x.lowering with
      | [] => s
      | (b, v) :: rest =>
        let s := s.modRecord slot fun r => { r with floor := min r.floor (b - 1024) }
        let s := (s.modSlot slot fun y => { y with lowering := rest }).lowerBudget slot b
        s.respond v Status.ok [])

/-! The key shelf. -/

/-- A slot as its record restores it: b is F, the key cache is filled, and a stateful key restarts at NEXT (R228, R319,
R320). -/
def ShelfRecord.restore (r : ShelfRecord) (seq : Nat) : Slot :=
  { state := .loaded, secret := r.secret, attr := r.attr, owner := r.owner, system := r.system, budget := r.floor
    cache := r.cache, pub := r.pub, createSeq := seq
    stateful := r.stateful.map fun x =>
      { x with hand := x.next, built := false, restoring := 0, reserving := false, interval := false } }

/-- A record that fails authentication is erased and logged; any other fills its slot. -/
def State.restoreRecord (s : State) (bad : List Nat) (k : Nat) (r : ShelfRecord) : State :=
  if bad.contains k then
    { s with vault := { s.vault with shelf := s.vault.shelf.erase k } }.logKeyEvent 4 k 0
  else (s.modSlot k fun _ => r.restore s.hzn.next).logCreated k 9

/-- SHELF_RESTORE_DONE: every valid record stands in its slot (R320); `bad` lists the records whose check failed. -/
def execShelfRestoreDone (bad : List Nat) (s : State) : Result :=
  .next (
    if !s.vault.shelfLoading then s
    else
      let s := s.vault.shelf.foldl (fun s e => s.restoreRecord bad e.1 e.2) s
      { s with vault := { s.vault with shelfLoading := false } })

/-! Stateful keys. -/

/-- NEXT rises by 1,024, to at most the total leaves (R224). -/
def Stateful.reserve (x : Stateful) : Stateful := { x with next := min x.total (x.next + 1024), reserving := false }

/-- LEAF_RESERVATION_DONE: both copies of NEXT have been read back. -/
def execLeafReservationDone (slot : Nat) (s : State) : Result :=
  .next (match (s.slot slot).stateful with
    | none => s
    | some st =>
      if !st.reserving ∨ !s.mramOk then s
      else
        let s := s.modStateful slot Stateful.reserve
        s.modRecord slot fun r => { r with stateful := r.stateful.map fun x => { x with next := st.reserve.next } })

/-- LEAF_HANDOUT_INTERVAL: 4.8 µs have passed since the key's last leaf (R224). -/
def execLeafHandoutInterval (slot : Nat) (s : State) : Result :=
  .next (s.modStateful slot fun x => { x with interval := false })

/-- TREE_RESTORATION_JOB: an internal job has rebuilt one tree; with the last one the store stands (R228). -/
def execTreeRestorationJob (slot : Nat) (s : State) : Result :=
  .next (s.modStateful slot fun x =>
    if x.restoring = 0 then x else { x with restoring := x.restoring - 1, built := decide (x.restoring = 1) })

/-! Requests (R315). -/

/-- The slots that a tenant owns. -/
def State.slotCount (s : State) (t : Nat) : Nat :=
  (s.vault.slots.filter fun (_, x) => decide (x.state ≠ .unassigned ∧ !x.system ∧ x.owner = t)).length

/-- A slot that SLOT_ASSIGN may take. -/
def SlotState.unused (x : SlotState) : Bool := decide (x = .unassigned ∨ x = .empty)

/-- SLOT_ASSIGN: the owner tenant or the system flag of an unused slot, recorded in the state area (R309). -/
def State.slotAssign (s : State) (k owner : Nat) (system : Bool) : State × Answer :=
  let x := s.slot k
  if 4096 ≤ k ∨ 1024 ≤ owner then (s, .no Status.inputInvalid)
  else if !x.state.unused then (s, .no Status.tenantBusy)
  else if !system ∧ !s.owns owner k ∧ (s.tenant owner).tpt.slotQuota ≤ s.slotCount owner then (s, .no Status.inputInvalid)
  else
    let o := if system then 0 else owner
    let s := s.modSlot k fun _ => { state := .empty, owner := o, system := system }
    ({ s with vault := { s.vault with owned := s.vault.owned.insert k (o, system) } }, .ok)

/-- BUDGET_LOWER: on a persistent slot the floor is written first, and the answer follows it (R319). -/
def State.budgetLower (s : State) (v : Via) (k b : Nat) : State × Answer :=
  let x := s.slot k
  if x.state.unused then (s, .no Status.keyAbsent)
  else if x.budget < b then (s, .no Status.inputInvalid)
  else if (s.vault.shelf.find? k).isSome ∧ b ≠ unlimited then
    (s.modSlot k fun y => { y with lowering := y.lowering ++ [(b, v)] }, .later)
  else (s.lowerBudget k b, .ok)

/-- DESTROY_ARM. -/
def State.destroyArm (s : State) (v : Via) (k : Nat) (value : W32) : State × Answer :=
  if (s.slot k).state = .unassigned then (s, .no Status.keyAbsent) else s.arm v gdDestroy value destroyPair

end Sys2Proof.Machine
end

