-- ==== Sys2Proof/Machine/Queues.lean ====
section
/-!
DEFINITION. Queue pairs and doorbells (R47 to R52): the writes of a pair's registers, enabling, stopping and draining.
-/
namespace Sys2Proof.Machine

/-- A PF of port `p` may write the registers of pair `q`: its port owns the pair, whose VF is not locked under TDISP (R48,
R75). -/
def State.pairWritable (s : State) (p q : Nat) : Bool :=
  match s.pairOwner q with
  | none => false
  | some o =>
    let t := (s.func (fnKey p o.func)).tdisp
    decide (o.port = p) && decide (t ≠ .configLocked ∧ t ≠ .run)

/-- WEIGHT and IRQ_EN of QUE_CTL. -/
def Queue.setCtl (x : Queue) (v : Nat) : Queue := { x with weight := bits v 7 4, irqEn := bit v 1 }

/-- The conditions of R49 on a pair that is assigned. -/
def Queue.enableOk (x : Queue) : Bool :=
  decide (x.state = .disabled ∧ 4 ≤ x.sqLog2 ∧ x.sqLog2 ≤ 16 ∧ 4 ≤ x.cqLog2 ∧ x.cqLog2 ≤ 16 ∧
    x.sqb.toNat + 64 * 2 ^ x.sqLog2 ≤ 2 ^ 64 ∧ x.cqb.toNat + 32 * 2 ^ x.cqLog2 ≤ 2 ^ 64)

/-- An enabled pair: both indices 0, the first pass of the completion ring carries PHASE 1. -/
def Queue.start (x : Queue) : Queue :=
  { x with
    en := true, state := .enabled, sqHead := 0, sqTail := 0, cqTail := 0, cqHead := 0, phase := true, counted := 0 }

/-- QUEUE_ENABLE: a QUE_CTL write that sets EN from 0 to 1 (R49). ERROR keeps the status of the last
refusal or stop. -/
def execQueueEnable (p q : Nat) (ctl : W32) (s : State) : Result :=
  .next (
    if !s.pfLive p then s
    else
      let s := s.noteWrite (.pf p)
      let x := s.queue q
      if !s.pairWritable p q ∨ x.en ∨ !bit ctl.toNat 0 then s
      else
        let s := s.modQueue q fun y => y.setCtl ctl.toNat
        if x.enableOk then s.modQueue q Queue.start
        else s.modQueue q fun y => { y with error := Status.queueConfig })

/-- The jobs of a pair that are in flight. -/
def State.pairJobs (s : State) (q : Nat) : List Nat := s.jobsWhere fun x => decide (x.pair = q)

/-- A STOPPING pair without jobs in flight becomes DISABLED (R50). -/
def State.drainQueue (s : State) (q : Nat) : State :=
  let x := s.queue q
  if x.state = .stopping ∧ x.inflight = 0 then s.modQueue q fun y => { y with state := .disabled } else s

/-- QUEUE_DISABLE: a QUE_CTL write that clears EN of a pair: it enters STOPPING, and its fetched and placed jobs are aborted
(R50, R52). -/
def execQueueDisable (p q : Nat) (ctl : W32) (s : State) : Result :=
  .next (
    if !s.pfLive p then s
    else
      let s := s.noteWrite (.pf p)
      let x := s.queue q
      if !s.pairWritable p q ∨ !x.en ∨ bit ctl.toNat 0 then s
      else
        let s := s.modQueue q fun y => { y.setCtl ctl.toNat with en := false, state := .stopping }
        (s.pairJobs q).foldl (fun s j => s.abortJob j Status.aborted) s)

/-- QUEUE_DRAIN_DONE: QUE_INFLIGHT of a STOPPING pair has reached 0 (R50). -/
def execQueueDrainDone (q : Nat) (s : State) : Result := .next (s.drainQueue q)

/-! Doorbells (R51, R52). -/

/-- Who writes a function's doorbells. -/
def doorbellWriter (p f : Nat) : Requester := if f = 0 then .pf p else .vf p (f - 1)

/-- A doorbell write of function `f` for its pair `k`: nothing unless the pair is assigned and ENABLED, or its tenant is
quiesced (R51, R82). -/
def State.doorbell (s : State) (p f k : Nat) (act : Nat → State → State) : State :=
  if !s.live (doorbellWriter p f) then s
  else
    let s := s.noteWrite (doorbellWriter p f)
    match s.pairOf p f k with
    | none => s
    | some q => if (s.queue q).state = .enabled ∨ (s.queue q).state = .quiesced then act q s else s

/-- SQ_TAIL_DOORBELL: descriptors up to the written index are ready; a tail of size or more stops the pair, as does a ring
access that the link refuses. -/
def execSqTailDoorbell (p f k : Nat) (value : W32) (accepted : Bool) (s : State) : Result :=
  .next (s.doorbell p f k fun q s =>
    let t := bits value.toNat 15 0
    if !accepted then s.stopPair q Status.dmaError
    else if 2 ^ (s.queue q).sqLog2 ≤ t then s.stopPair q Status.doorbellRange
    else s.modQueue q fun x => { x with sqTail := t })

/-- CQ_HEAD_DOORBELL: completions up to the written index are consumed; a head outside the range from the current head to the
completion tail stops the pair. -/
def execCqHeadDoorbell (p f k : Nat) (value : W32) (accepted : Bool) (s : State) : Result :=
  .next (s.doorbell p f k fun q s =>
    let h := bits value.toNat 15 0
    let x := s.queue q
    let n := 2 ^ x.cqLog2
    if !accepted then s.stopPair q Status.dmaError
    else if n ≤ h ∨ (x.cqTail + n - x.cqHead) % n < (h + n - x.cqHead) % n then s.stopPair q Status.doorbellRange
    else s.modQueue q fun y => { y with cqHead := h })

/-- A write to a register of a pair that neither enables nor disables it (R48). -/
def State.queueRegister (s : State) (p q off : Nat) (value : W32) : State :=
  let v := value.toNat
  let x := s.queue q
  if !s.pairWritable p q then s
  else match off with
    | 0x14 => if bit v 0 = x.en then s.modQueue q fun y => y.setCtl v else s
    | 0x18 => s.modQueue q fun y => { y with timeUs := bits v 23 8, count := bits v 7 0 }
    | _ =>
      if x.state ≠ .disabled then s
      else match off with
        | 0x00 => s.modQueue q fun y => { y with sqb := BitVec.ofNat 64 (y.sqb.toNat / 2 ^ 32 * 2 ^ 32 + v / 4096 * 4096) }
        | 0x04 => s.modQueue q fun y => { y with sqb := BitVec.ofNat 64 (v * 2 ^ 32 + y.sqb.toNat % 2 ^ 32) }
        | 0x08 => s.modQueue q fun y => { y with cqb := BitVec.ofNat 64 (y.cqb.toNat / 2 ^ 32 * 2 ^ 32 + v / 4096 * 4096) }
        | 0x0C => s.modQueue q fun y => { y with cqb := BitVec.ofNat 64 (v * 2 ^ 32 + y.cqb.toNat % 2 ^ 32) }
        | 0x10 => s.modQueue q fun y => { y with sqLog2 := bits v 4 0, cqLog2 := bits v 20 16 }
        | _ => s

end Sys2Proof.Machine
end

