-- ==== Sys2Proof/Machine/Ports.lean ====
section
/-!
DEFINITION. Ports and functions: function-level reset and PERST_N (R71, R83), TDISP states (R75, R434), IDE keys (R74), the
link's width and rate (R78) and the dirty-page log (R84, R85).
-/
namespace Sys2Proof.Machine

/-! Function-level reset (R83). -/

/-- The functions of a port: the PF and its VFs. -/
def State.functions (s : State) (p : Nat) : List Nat := List.range (s.vfCount p + 1)

/-- The jobs of a function. -/
def State.functionJobs (s : State) (p f : Nat) : List Nat :=
  s.jobsWhere fun x => match s.pairOwner x.pair with | some o => decide (o.port = p ∧ o.func = f) | none => false

/-- The pairs of a function. -/
def State.functionPairs (s : State) (p f : Nat) : List Nat :=
  match s.funcTenant p f with
  | none => []
  | some t => (List.range (s.tenant t).tpt.qpPerFunc).filterMap fun k => s.pairOf p f k

/-- A function stops: its work is discarded without completions. -/
def State.stopFunction (s : State) (p f : Nat) : State := (s.functionJobs p f).foldl State.discardJob s

/-- A pair after an FLR: DISABLED with both indices 0, its bases, sizes, weight and interrupt settings kept. -/
def Queue.flr (x : Queue) : Queue :=
  { x with
    en := false, state := .disabled, sqHead := 0, sqTail := 0, cqTail := 0, cqHead := 0, phase := true, inflight := 0
    counted := 0 }

/-- A function's registers after an FLR: pairs DISABLED, MSI-X entries masked, VF_EVT 0; the dirty-page log is kept. -/
def State.clearFunction (s : State) (p f : Nat) : State :=
  let s := (s.functionPairs p f).foldl (fun s q => s.modQueue q Queue.flr) s
  let s := s.modFunc (fnKey p f) fun x => { x with msixMasked := 2 ^ 64 - 1, msixPending := 0 }
  if f = 0 then s else s.modSq (.vf p (f - 1)) fun x => { x with evt := 0 }

/-- FLR of one function at its receipt. -/
def State.flrStart (s : State) (p f : Nat) : State :=
  (s.stopFunction p f).modFunc (fnKey p f) fun x => { x with flr := true }

/-- FUNCTION_LEVEL_RESET: an FLR of a VF, or of a PF and every VF of its port, which clears VF Enable. -/
def execFunctionLevelReset (p f : Nat) (s : State) : Result :=
  .next (
    if f ≠ 0 then s.flrStart p f
    else ((s.functions p).foldl (fun s g => s.flrStart p g) s).modPort p fun x => { x with vfEnable := false })

/-- The end of one function's FLR: CONFIG_UNLOCKED under TDISP (R75). -/
def State.flrEnd (s : State) (p f : Nat) : State :=
  (s.clearFunction p f).modFunc (fnKey p f) fun x => { x with flr := false, tdisp := .configUnlocked }

/-- FLR_COMPLETE. -/
def execFlrComplete (p f : Nat) (s : State) : Result :=
  .next (
    if !(s.func (fnKey p f)).flr then s
    else if f ≠ 0 then s.flrEnd p f
    else (s.functions p).foldl (fun s g => s.flrEnd p g) s)

/-- What PERST_N does to its port: the link is down, the functions are reset as by a PF FLR, the configuration space and the
IDE keys are cleared (R71, R337). -/
def State.perst (s : State) (p : Nat) : State :=
  let s := (s.functions p).foldl (fun s g => (s.flrStart p g).flrEnd p g) s
  let s := (s.functions p).foldl (fun s g => s.modFunc (fnKey p g) fun x => { x with d3hot := false }) s
  s.modPort p fun x => { x with
    linkUp := false, width := 0, rate := 0, pendingLink := none, numVFs := 0, vfEnable := false, ideKeys := [] }

/-- PERST_ASSERT: the port goes down, its key-port buffers are cleared (R292), and the assertion is recorded (R336, R347). -/
def execPerstAssert (p : Nat) (s : State) : Result :=
  .next (
    if 4 ≤ p then s
    else
      let s := ((s.perst p).modPort p fun x => { x with perstLow := true }).clearBuffers fun x => decide (x = p)
      { s with power := { s.power with localCause := s.power.localCause ||| 2 ^ p } }.event .rst 2)

/-- PERST_RELEASE. -/
def execPerstRelease (p : Nat) (s : State) : Result := .next (s.modPort p fun x => { x with perstLow := false })

/-! The link. -/

/-- LINK_RETRAIN: a link that was down comes up when step 5 of R338 permits; a change of width or rate changes the slot
length at the next frame (R78). -/
def execLinkRetrain (p width rate : Nat) (s : State) : Result :=
  .next (
    let x := s.port p
    if x.perstLow ∨ !s.power.pciePermitted ∨ s.portCount ≤ p then s
    else if !x.linkUp then s.modPort p fun y => { y with linkUp := true, width := width, rate := rate }
    else s.modPort p fun y => { y with pendingLink := some (width, rate) })

/-! TDISP (R75, R434). -/

/-- The entry of type TDISP; the spec does not code its message, which is free (log entry 30). -/
def State.logTdisp (s : State) (p v : Nat) : State :=
  s.spend.log 0x6003 (leBytes 2 v ++ leBytes 1 p ++ s.freeBytes 1)

/-- A VF enters ERROR: it is treated as under FLR, but stays in ERROR. -/
def State.tdispError (s : State) (p v : Nat) : State :=
  let s := (s.stopFunction p (v + 1)).clearFunction p (v + 1)
  (s.modFunc (fnKey p (v + 1)) fun x => { x with tdisp := .error }).logTdisp p v

/-- A manager's change of a tenant's TPT entry first moves its VFs in CONFIG_LOCKED or RUN to ERROR. -/
def State.breakTdisp (s : State) (t : Nat) : State :=
  let e := (s.tenant t).tpt
  (List.range e.vfNum).foldl (fun s i =>
    let x := (s.func (fnKey e.port (e.vfFirst + i + 1))).tdisp
    if x = .configLocked ∨ x = .run then s.tdispError e.port (e.vfFirst + i) else s) s

/-- A TDISP message inside a session on the PF of the VF's port: a VF that exists, and its port. -/
def State.tdispPort (s : State) (v : Via) (vf : Nat) : Option Nat :=
  match viaPf v, v.session with
  | some p, some n =>
    if (s.spdm.sessions.find? n).isSome ∧ vf < (s.port p).numVFs ∧ (s.port p).vfEnable ∧ s.pfLive p then some p else none
  | _, _ => none

/-- The states that TDISP lets a message act in; the TDISP standard gives them (log entry 31). -/
def State.tdispMessage (s : State) (v : Via) (vf : Nat) (ok : Tdisp → Bool) (next : Tdisp) : State :=
  match s.tdispPort v vf with
  | none => s.sendSpdm v (.error .unexpectedRequest)
  | some p =>
    if !ok (s.func (fnKey p (vf + 1))).tdisp then s.sendSpdm v (.error .invalidRequest)
    else
      let s := s.modFunc (fnKey p (vf + 1)) fun x => { x with tdisp := next }
      (s.logTdisp p vf).sendSpdm v .tdisp

/-- LOCK_INTERFACE: CONFIG_UNLOCKED to CONFIG_LOCKED. -/
def execLockInterface (v : Via) (vf : Nat) (s : State) : Result :=
  .next (s.tdispMessage v vf (fun x => decide (x = .configUnlocked)) .configLocked)

/-- START_INTERFACE: CONFIG_LOCKED to RUN. -/
def execStartInterface (v : Via) (vf : Nat) (s : State) : Result :=
  .next (s.tdispMessage v vf (fun x => decide (x = .configLocked)) .run)

/-- STOP_INTERFACE: any state to CONFIG_UNLOCKED. -/
def execStopInterface (v : Via) (vf : Nat) (s : State) : Result :=
  .next (s.tdispMessage v vf (fun _ => true) .configUnlocked)

/-- IDE_KM_KEY_PROG: a stream's key inside a session on the port's PF (R74). Only the key's presence can be seen; which one
stands there is its last programming. -/
def execIdeKmKeyProg (v : Via) (stream keySet : Nat) (key : List Byte) (s : State) : Result :=
  .next (match viaPf v, v.session with
    | some p, some n =>
      if (s.spdm.sessions.find? n).isSome ∧ stream < 8 ∧ s.pfLive p then
        (s.modPort p fun x => { x with ideKeys := x.ideKeys.insert stream (keySet, leNat key) }).sendSpdm v .ideKm
      else s.sendSpdm v (.error .invalidRequest)
    | _, _ => s.sendSpdm v (.error .unexpectedRequest))

/-! The dirty-page log (R84, R85). -/

/-- EN with LIMIT and the bases valid. -/
def Func.dlogOk (x : Func) (limit : Nat) : Bool :=
  decide (32 ≤ limit ∧ limit ≤ 52 ∧ x.dlogBase0.toNat % 4096 = 0 ∧ x.dlogBase1.toNat % 4096 = 0)

/-- A PF may write the dirty-log registers of VF `v`: its own, which is not locked under TDISP (R75). -/
def State.dlogWritable (s : State) (p v : Nat) : Bool :=
  let t := (s.func (fnKey p (v + 1))).tdisp
  decide (t ≠ .configLocked ∧ t ≠ .run)

/-- Writing FLIP switches the active buffer. -/
def Func.flip (x : Func) : Func := { x with dlogFlipDone := false, dlogActive := !x.dlogActive }

/-- A write to GLB_DLOG_CTL. -/
def Func.dlogCtl (x : Func) (v : Nat) : Func :=
  let en := bit v 0 && x.dlogOk (bits v 9 4)
  let y := { x with dlogLimit := bits v 9 4, dlogEn := en, dlogOverflow := x.dlogOverflow && !(en && !x.dlogEn) }
  if bit v 2 then y.flip else y

/-- A write to a dirty-log register of VF `v`, `reg` its offset. -/
def State.dlogRegister (s : State) (p v reg : Nat) (value : W32) : State :=
  if !s.dlogWritable p v then s
  else s.modFunc (fnKey p (v + 1)) fun x =>
    match reg with
    | 0x0 => { x with dlogBase0 := BitVec.ofNat 64 (x.dlogBase0.toNat / 2 ^ 32 * 2 ^ 32 + value.toNat) }
    | 0x4 => { x with dlogBase0 := BitVec.ofNat 64 (value.toNat * 2 ^ 32 + x.dlogBase0.toNat % 2 ^ 32) }
    | 0x8 => { x with dlogBase1 := value }
    | 0xC => x.dlogCtl value.toNat
    | _ => x

/-- DLOG_FLIP: a write to GLB_DLOG_CTL whose FLIP is 1. -/
def execDlogFlip (p v : Nat) (value : W32) (s : State) : Result :=
  .next (if !s.pfLive p ∨ !bit value.toNat 2 then s else (s.noteWrite (.pf p)).dlogRegister p v 0xC value)

/-- The address of a dirty-page buffer. -/
def Func.dlogBase (x : Func) (second : Bool) : Nat :=
  if second then x.dlogBase0.toNat / 2 ^ 32 * 2 ^ 32 + x.dlogBase1.toNat else x.dlogBase0.toNat

/-- DLOG_FLIP_DONE: the lines of the old buffer are in host memory. -/
def execDlogFlipDone (p v : Nat) (s : State) : Result :=
  .next (
    let x := s.func (fnKey p (v + 1))
    let old := !x.dlogActive
    let pages := (if old then x.dlogPages1 else x.dlogPages0).map Prod.fst
    if x.dlogFlipDone then s
    else
      let s := s.modFunc (fnKey p (v + 1)) fun y =>
        { y with
          dlogFlipDone := true
          dlogPages0 := if old then y.dlogPages0 else []
          dlogPages1 := if old then [] else y.dlogPages1 }
      s.emit (.dirty p v (x.dlogBase old) pages))

end Sys2Proof.Machine
end

