-- ==== Sys2Proof/Machine/Tenancy.lean ====
section
/-!
DEFINITION. The tenant partition table: changes by the manager (R76, R77, R80), quiesce, resume and remove (R81, R82), the
frame boundary (R78), and migration (R86 to R88).
-/
namespace Sys2Proof.Machine

/-! TENANT_SET. -/

/-- The fields that change at the next frame boundary, taken from `b` (R80). -/
def TptFields.withSlow (a b : TptFields) : TptFields :=
  { a with
    isolated := b.isolated, slotsWr := b.slotsWr, slotsRd := b.slotsRd, ctxQuota := b.ctxQuota, slotQuota := b.slotQuota
    rngMs := b.rngMs, ext := b.ext }

/-- The entry of a tenant with its accepted changes. -/
def Tenant.target (x : Tenant) : TptFields := match x.later with | some f => x.tpt.withSlow f | none => x.tpt

/-- The other tenants in use. -/
def State.others (s : State) (t : Nat) : List Nat := s.tenantList.filter fun u => decide (u ≠ t)

/-- The ranges of the fields (R76). -/
def TptFields.inRange (f : TptFields) : Bool :=
  decide (f.qpPerFunc ≤ 32 ∧ f.slotsWr ≤ 1024 ∧ f.slotsRd ≤ 1024 ∧ f.ctxQuota ≤ 4096 ∧ f.slotQuota ≤ 4096 ∧
    1 ≤ f.rngMs ∧ f.rngMs ≤ 100 ∧ f.ext < 2 ^ 256 ∧ f.grains < 2 ^ 1024 ∧ f.bne < 2 ^ 64)

/-- Every engine lies in a quadrant with a grain of the entry. -/
def TptFields.enginesOk (f : TptFields) : Bool :=
  (List.range 4).all fun q => decide (bits f.bne (16 * q + 15) (16 * q) = 0 ∨ bits f.grains (256 * q + 255) (256 * q) ≠ 0)

/-- The conditions of R77 and R73 on an entry for tenant `t`. -/
def State.tptOk (s : State) (t : Nat) (f : TptFields) : Bool :=
  let us := (s.others t).map fun u => (s.tenant u).target
  let same := us.filter fun e => decide (e.port = f.port)
  f.inRange && f.enginesOk && decide (t < 1024) &&
  us.all (fun e => decide (e.grains &&& f.grains = 0 ∧ e.bne &&& f.bne = 0)) &&
  decide (same.foldl (fun n e => n + e.slotsWr) f.slotsWr ≤ 1024 ∧ same.foldl (fun n e => n + e.slotsRd) f.slotsRd ≤ 1024) &&
  f.pairs.all (fun q => decide (q < 8192)) && us.all (fun e => e.pairs.all fun q => !f.pairs.contains q) &&
  decide (f.port < s.portCount ∧ (f.vfNum = 0 ∨ f.vfFirst + f.vfNum ≤ s.vfCount f.port)) &&
  same.all (fun e => e.funcList.all fun g => !f.funcList.contains g)

/-- The bits of `a` that are not in `b`. -/
def without (a b : Nat) : Nat := a - (a &&& b)

/-- The entry takes a grain, an engine or a pair from tenant `u`, whose entry is `e`. -/
def TptFields.takesFrom (f : TptFields) (own : Bool) (u : Nat) (e : TptFields) : Bool :=
  if own then
    decide (without e.grains f.grains ≠ 0 ∨ without e.bne f.bne ≠ 0) ||
    e.pairs.any fun q => decide (e.pairOwner u q ≠ f.pairOwner u q)
  else decide (e.grains &&& f.grains ≠ 0 ∨ e.bne &&& f.bne ≠ 0) || e.pairs.any fun q => f.pairs.contains q

/-- TENANT_BUSY of R80: a unit is taken from a tenant that is not QUIESCED. -/
def State.takesBusy (s : State) (t : Nat) (f : TptFields) : Bool :=
  s.tenantList.any fun u => decide ((s.tenant u).state ≠ .quiesced) && f.takesFrom (decide (u = t)) u (s.tenant u).tpt

/-- The bits set in a mask of `n` units. -/
def unitsOf (n mask : Nat) : List Nat := (List.range n).filter fun i => mask.testBit i

/-- An engine without a tenant is cleared: operand words and command memory (R25). -/
def State.clearEngine (s : State) (n : Nat) : State := s.modEngine n fun e => { progs := e.progs, busy := e.busy }

/-- Units that come to a tenant are idle; units that leave it are cleared (R25, R80). -/
def State.moveUnits (s : State) (old new : TptFields) : State :=
  let s := (unitsOf 1024 (without old.grains new.grains)).foldl State.clearGrain s
  let s := (unitsOf 64 (without old.bne new.bne)).foldl State.clearEngine s
  (unitsOf 1024 (without new.grains old.grains)).foldl
    (fun s g => s.modGrain g fun G => { G with state := if G.state = .unowned then .idle else G.state }) s

/-- The VFs of an entry, by port and number. -/
def TptFields.vfs (f : TptFields) : List (Nat × Nat) := (List.range f.vfNum).map fun i => (f.port, f.vfFirst + i)

/-- VF_GRAINS of a VF (R43, R73). -/
def State.vfPresent (s : State) (x : Nat × Nat) : Nat :=
  match s.funcTenant x.1 (x.2 + 1) with | some t => (s.presentGrains t).length | none => 0

/-- The VFs of two entries whose VF_GRAINS a change of the TPT has changed take the event (R43). -/
def State.noteGrains (s before : State) (a b : TptFields) : State :=
  ((a.vfs ++ b.vfs.filter fun x => !a.vfs.contains x).filter fun x => decide (s.vfPresent x ≠ before.vfPresent x)).foldl
    (fun s x => s.event (.vf x.1 x.2) vfCapacity) s

/-- TENANT_SET (R80). -/
def State.tenantSet (s : State) (t : Nat) (f : TptFields) : State × Answer :=
  let x := s.tenant t
  if x.state = .removing ∨ s.takesBusy t f then (s, .no Status.tenantBusy)
  else if !s.tptOk t f then (s, .no Status.inputInvalid)
  else
    let s := if x.state = .free ∨ f = x.target then s else s.breakTdisp t
    if x.state = .free then
      let made := s.modTenant t fun _ => { state := .active, tpt := f }
      ((made.moveUnits {} f).noteGrains s {} f, .ok)
    else
      let before := s
      let s := s.moveUnits x.tpt f
      let s := (x.tpt.pairs.filter fun q => decide (x.tpt.pairOwner t q ≠ f.pairOwner t q)).foldl
        (fun s q => s.modQueue q fun _ => {}) s
      ((s.modTenant t fun y => { y with tpt := f.withSlow y.tpt, later := some f }).noteGrains before x.tpt f, .ok)

/-! Quiesce, resume and remove. -/

/-- The pairs of a tenant. -/
def State.tenantPairs (s : State) (t : Nat) : List Nat := (s.tenant t).tpt.pairs

/-- QUIESCE: fetching stops, and jobs that are not placed complete with TENANT_QUIESCED (R82). The answer follows the drain
(R81). -/
def State.quiesce (s : State) (v : Via) (t : Nat) : State × Answer :=
  match (s.tenant t).state with
  | .free | .removing => (s, .no Status.inputInvalid)
  | .quiesced => (s, .ok)
  | .quiescing => (s.modTenant t fun x => { x with quiescers := x.quiescers ++ [v] }, .later)
  | .active =>
    let s := s.breakTdisp t
    let s := s.modTenant t fun x => { x with state := .quiescing, quiescers := [v] }
    let waiting := s.jobsWhere fun x => decide (x.tenant = t ∧ x.stage = Stage.admitted)
    (waiting.foldl (fun s j => s.complete j Status.tenantQuiesced true) s, .later)

/-- TENANT_DRAINED: no pair of a QUIESCING tenant has a job in flight, and the tenant is QUIESCED. -/
def execTenantDrained (t : Nat) (s : State) : Result :=
  .next (
    let x := s.tenant t
    if x.state ≠ .quiescing ∨ !(s.tenantPairs t).all (fun q => decide ((s.queue q).inflight = 0)) then s
    else
      let s := (s.tenantPairs t).foldl (fun s q =>
        s.modQueue q fun y => { y with state := if y.state = .enabled then .quiesced else y.state }) s
      let s := s.modTenant t fun y => { y with state := .quiesced, quiescers := [] }
      let s := s.vfEventOf t vfQuiesced
      x.quiescers.foldl (fun s v => s.respond v Status.ok []) s)

/-- RESUME: fetching goes on at QUE_SQ_HEAD. -/
def State.resume (s : State) (t : Nat) : State × Answer :=
  if (s.tenant t).state ≠ .quiesced then (s, .no Status.inputInvalid)
  else
    let s := s.breakTdisp t
    let s := (s.tenantPairs t).foldl (fun s q =>
      s.modQueue q fun y => { y with state := if y.state = .quiesced then .enabled else y.state }) s
    (s.modTenant t fun x => { x with state := .active }, .ok)

/-- The slots of a tenant. -/
def State.tenantSlots (s : State) (t : Nat) : List Nat :=
  (s.vault.slots.filter fun (_, x) => decide (x.state ≠ .unassigned ∧ !x.system ∧ x.owner = t)).map Prod.fst

/-- A slot returns to UNASSIGNED. -/
def State.unassignSlot (s : State) (k : Nat) : State :=
  { s with vault := { s.vault with slots := s.vault.slots.erase k, owned := s.vault.owned.erase k } }

/-- TGEN of a tenant (R305). -/
def State.tgen (s : State) (t : Nat) : Nat := s.vault.tgen.get t 0

/-- The remove pair (R82, R305, R323). -/
def State.removeTenant (s : State) (t : Nat) : State × GuardResult :=
  if (s.tenant t).state ≠ .quiesced then (s, .tenantBusy)
  else if s.tgen t = 0xFFFFFFFF then (s, .inputInvalid)
  else
    let s := s.breakTdisp t
    let s := (s.tenantSlots t).foldl (fun s k => (s.destroySlot k 2).unassignSlot k) s
    let s := { s with vault := { s.vault with
      ctxs := s.vault.ctxs.filter fun (_, c) => decide (c.owner ≠ t)
      tgen := s.vault.tgen.insert t (s.tgen t + 1) } }
    (s.modTenant t fun x => { x with state := .removing }, .applied)

/-- The pair on GLB_TENANT_REMOVE. -/
def removePair (_off : Nat) (v : W32) (s : State) : State × GuardResult := s.removeTenant (bits v.toNat 9 0)

/-- GLB_TENANT_REMOVE: the second write of the pair. -/
def execGlbTenantRemove (r : Requester) (off : Nat) (complement : W32) (s : State) : Result :=
  .next (s.guardPair r [gdRemove] off complement removePair)

/-- TENANT_REMOVE_DONE: grains and engines are cleared, the pairs are released, and the entry is FREE with every field 0
(R81, R82). -/
def execTenantRemoveDone (t : Nat) (s : State) : Result :=
  .next (
    let x := s.tenant t
    if x.state ≠ .removing then s
    else
      let pairs := x.tpt.pairs
      let before := s
      let s := pairs.foldl (fun s q => s.modQueue q fun _ => {}) s
      let s := (s.moveUnits x.tpt {}).modCounters t fun _ => {}
      (s.modTenant t fun _ => {}).noteGrains before x.tpt {})

/-- REMOVE_ARM (R80, R305). -/
def State.removeArm (s : State) (v : Via) (t : Nat) (value : W32) : State × Answer :=
  if (s.tenant t).state ≠ .quiesced then (s, .no Status.tenantBusy)
  else if s.tgen t = 0xFFFFFFFF then (s, .no Status.inputInvalid)
  else s.arm v gdRemove value removePair

/-! The frame boundary. -/

/-- DMA_FRAME_BOUNDARY: the changes of the port's tenants take effect, the slots take their positions, and a retrained link's
slot length applies; the log entry of that change has no type in the spec, so its content is free (log entry 25). -/
def execDmaFrameBoundary (p : Nat) (s : State) : Result :=
  .next (
    let s := (s.tenantList.filter fun t => decide ((s.tenant t).tpt.port = p)).foldl (fun s t =>
      s.modTenant t fun x =>
        let e := x.target
        { x with tpt := e, later := none, slotsLive := (e.slotsWr, e.slotsRd) }) s
    match (s.port p).pendingLink with
    | none => s
    | some (w, r) =>
      let s := s.modPort p fun x => { x with width := w, rate := r, pendingLink := none }
      s.spend.log (s.freeBits 16 0) (s.freeBytes 16))

/-! Migration. -/

/-- The migration key of a domain generation. -/
def State.migrationKey (s : State) (gen : Nat) : Option (List Byte) :=
  (s.domainSecret gen).map fun x => Config.domainKey 0 gen x

/-- The enabled pairs of a quiesced tenant. -/
def State.exportPairs (s : State) (t : Nat) : List Nat := (s.tenantPairs t).filter fun q => (s.queue q).en

/-- The slots that an export takes; stateful keys are never among them. -/
def State.exportSlots (s : State) (t : Nat) : List Nat :=
  (s.tenantSlots t).filter fun k =>
    let x := s.slot k
    decide (x.state = .loaded) && bit x.attr 42 && !statefulClass (attrClass x.attr) && !x.destroying

/-- The contexts that an export takes. -/
def State.exportCtxs (s : State) (t : Nat) : List Nat :=
  (s.vault.ctxs.filter fun (_, c) => decide (c.state ≠ .free ∧ c.owner = t) && c.migratable).map Prod.fst

/-- The fields of a pair record. -/
def State.pairNumbers (s : State) (base q : Nat) : List Nat :=
  let x := s.queue q
  [q - base, x.sqb.toNat, x.cqb.toNat, x.sqLog2, x.cqLog2, x.weight, ofBool x.irqEn, x.timeUs, x.count, x.sqHead, x.sqTail,
   x.cqTail, x.cqHead, ofBool x.phase]

/-- The fields of a context record. -/
def State.ctxNumbers (s : State) (c : Nat) : List Nat :=
  let x := s.ctx c
  [c, x.kind, ofBool x.keyed, x.slot, x.op, x.attr, x.param, x.head.length]

/-- The records of an export, in order (R88). -/
def State.exportRecords (s : State) (t : Nat) : List Byte :=
  let base := (s.tenant t).tpt.qpBase
  (s.exportPairs t).flatMap (fun q => padTo 64 (Config.migrationRecord 0 (s.pairNumbers base q) [])) ++
  (s.exportSlots t).flatMap (fun k =>
    let x := s.slot k
    padTo 128 (Config.migrationRecord 1 [k, x.attr, x.budget] x.secret)) ++
  (s.exportCtxs t).flatMap (fun c =>
    let x := s.ctx c
    padTo 1040 (Config.migrationRecord 2 (s.ctxNumbers c) (x.head ++ x.data)))

/-- The header of a migration blob; the nonce is free. -/
def State.exportHeader (s : State) (t : Nat) : List Byte :=
  ascii "IXMG" ++ leBytes 2 1 ++ leBytes 2 (s.exportPairs t).length ++ leBytes 2 (s.exportSlots t).length ++
  leBytes 2 (s.exportCtxs t).length ++ leBytes 4 s.glb.epoch ++ leBytes 16 s.uid ++ leBytes 4 s.uncel.gen ++
  s.freeBytes 12 ++ List.replicate 16 0#8

/-- Header, ciphertext and tag. -/
def State.exportBlob (s : State) (t : Nat) (key : List Byte) : List Byte :=
  let head := s.exportHeader t
  let nonce := slice head 0x24 12
  let ct := gcmCtr key nonce (s.exportRecords t)
  head ++ ct ++ gcmTag key nonce head ct

/-- MIGRATE_EXPORT: the blob goes to the host buffer of the port's PF, and the exported slots and contexts go (R86, R87). -/
def State.migrateExport (s : State) (t addr len : Nat) (accepted : Bool) : State × Answer :=
  let x := s.tenant t
  if x.state ≠ .quiesced ∨ x.exported then (s, .no Status.tenantBusy)
  else match s.migrationKey s.uncel.gen with
    | none => (s, .no Status.keyAbsent)
    | some key =>
      let blob := s.exportBlob t key
      if len < blob.length then (s, .no Status.outputShort)
      else if !accepted then (s, .no Status.dmaError)
      else
        let slots := s.exportSlots t
        let ctxs := s.exportCtxs t
        let s := (s.breakTdisp t).spend.dmaWrite x.tpt.port 0 addr blob true
        let s := slots.foldl (fun s k => s.destroySlot k 7) s
        let s := { s with vault := { s.vault with ctxs := s.vault.ctxs.filter fun (c, _) => !ctxs.contains c } }
        (s.modTenant t fun y => { y with exported := true }, .ok)

/-- The records of an imported blob: numbers and byte strings by kind. -/
structure Imported where
  pairs : List (List Nat)
  slots : List (List Nat × List Byte)
  ctxs : List (List Nat × List Byte)

/-- Cut `n` records of `size` bytes from offset `off`. -/
def cutRecords (bs : List Byte) (off size n : Nat) : List (List Byte) :=
  (List.range n).map fun i => slice bs (off + size * i) size

/-- Number `i` of a record. -/
def nth (xs : List Nat) (i : Nat) : Nat := (xs[i]?).getD 0

/-- Read a blob: the tag must hold under the key of its generation (R86, R88). -/
def State.readMigration (s : State) (b : List Byte) : Option Imported :=
  let n := field b 6 2
  let m := field b 8 2
  let k := field b 0xA 2
  match s.migrationKey (field b 0x20 4) with
  | none => none
  | some key =>
    let body := slice b 0x40 (64 * n + 128 * m + 1040 * k)
    if b.take 4 ≠ ascii "IXMG" ∨ field b 4 2 ≠ 1 ∨ b.length ≠ 0x50 + 64 * n + 128 * m + 1040 * k ∨
        gcmTag key (slice b 0x24 12) (b.take 0x40) body ≠ b.drop (b.length - 16) then none
    else
      let p := gcmCtr key (slice b 0x24 12) body
      some {
        pairs := (cutRecords p 0 64 n).map (Config.migrationNumbers 0)
        slots := (cutRecords p (64 * n) 128 m).map fun r => (Config.migrationNumbers 1 r, Config.migrationBytes 1 r)
        ctxs := (cutRecords p (64 * n + 128 * m) 1040 k).map fun r =>
          (Config.migrationNumbers 2 r, Config.migrationBytes 2 r) }

/-- Every exported number is free in the tenant's ranges and quotas (R86). -/
def State.importFits (s : State) (t : Nat) (x : Imported) : Bool :=
  let e := (s.tenant t).tpt
  x.pairs.all (fun r => e.pairs.contains (e.qpBase + nth r 0) && decide ((s.queue (e.qpBase + nth r 0)).state = .disabled)) &&
  x.slots.all (fun r =>
    let y := s.slot (nth r.1 0)
    decide (nth r.1 0 < 4096) && (decide (y.state = .unassigned) || (decide (y.state = .empty) && s.owns t (nth r.1 0)))) &&
  x.ctxs.all (fun r => decide (nth r.1 0 < 4096 ∧ (s.ctx (nth r.1 0)).state = .free)) &&
  decide (s.slotCount t + (x.slots.filter fun r => !s.owns t (nth r.1 0)).length ≤ e.slotQuota) &&
  decide (s.ctxCount t + x.ctxs.length ≤ e.ctxQuota)

/-- A pair as its record gives it. -/
def queueOf (r : List Nat) : Queue :=
  { sqb := BitVec.ofNat 64 (nth r 1), cqb := BitVec.ofNat 64 (nth r 2), sqLog2 := nth r 3, cqLog2 := nth r 4
    weight := nth r 5, irqEn := decide (nth r 6 = 1), timeUs := nth r 7, count := nth r 8, sqHead := nth r 9
    sqTail := nth r 10, cqTail := nth r 11, cqHead := nth r 12, phase := decide (nth r 13 = 1), en := true
    state := .quiesced }

/-- A slot as its record gives it. Key-cache material and the public key are not in the record, and are free here (log entry
29). -/
def State.importSlot (s : State) (t : Nat) (r : List Nat × List Byte) : State :=
  let k := nth r.1 0
  let a := nth r.1 1
  let x : Slot :=
    { state := .loaded, owner := t, attr := a, budget := nth r.1 2, secret := r.2, createSeq := s.hzn.next
      cache := if cacheClass (attrClass a) then s.freeBytes 1024 else []
      pub := if pairClass (attrClass a) then s.freeBytes (pubLen (attrClass a)) else [] }
  let s := s.spend.modSlot k fun _ => x
  let s := { s with vault := { s.vault with
    owned := s.vault.owned.insert k (t, false)
    shelf := if attrPersistent a then s.vault.shelf.insert k x.record else s.vault.shelf } }
  s.logCreated k 10

/-- A context as its record gives it. -/
def ctxOf (t : Nat) (r : List Nat × List Byte) : Ctx :=
  { state := .opened, migratable := true, kind := nth r.1 1, owner := t, keyed := decide (nth r.1 2 = 1), slot := nth r.1 3
    op := nth r.1 4, attr := nth r.1 5, param := nth r.1 6, head := r.2.take (nth r.1 7), data := r.2.drop (nth r.1 7) }

/-- MIGRATE_IMPORT (R86, R87). -/
def State.migrateImport (s : State) (t : Nat) (blob : List Byte) : State × Answer :=
  if (s.tenant t).state ≠ .quiesced then (s, .no Status.tenantBusy)
  else match s.readMigration blob with
    | none => (s, .no Status.blobInvalid)
    | some x =>
      if s.glb.epoch < field blob 0xC 4 then (s, .no Status.epochAhead)
      else if !s.importFits t x then (s, .no Status.noResource)
      else
        let base := (s.tenant t).tpt.qpBase
        let s := s.breakTdisp t
        let s := x.pairs.foldl (fun s r => s.modQueue (base + nth r 0) fun _ => queueOf r) s
        let s := x.slots.foldl (fun s r => s.importSlot t r) s
        let s := x.ctxs.foldl (fun s r => s.modCtx (nth r.1 0) fun _ => ctxOf t r) s
        (s.modTenant t fun y => { y with exported := false }, .ok)

end Sys2Proof.Machine
end

