-- ==== Sys2Proof/Machine/Images.lean ====
section
/-!
DEFINITION. Images and tilth records: their headers and checks (R352 to R354, R359, R363 to R365), grain programs and microcode
in an image (R104, R172, R173), signers (R351) and seals (R355, R356).
-/
namespace Sys2Proof.Config

/-- What the sections of a tilth record set whose layout the spec does not give (LINK, SLOTS, DIGEST, CLOCK, BOOT, TAMPER, SIEVE,
REGIONS and UNCEL), from the sections by type; none where their contents are invalid (log entry 33). -/
opaque tilthFields : List (Nat × List Byte) → Option Machine.Tilth

end Sys2Proof.Config

namespace Sys2Proof.Machine

/-! Regions of the boot store. -/

def State.region (s : State) (i : Nat) : Region := s.boot.regions.get i {}
def State.modRegion (s : State) (i : Nat) (f : Region → Region) : State :=
  { s with boot := { s.boot with regions := s.boot.regions.modify i {} f } }

/-- `n` bytes of a region from `off`; a byte that nothing has written reads 0 (log entry 34). -/
def Region.read (r : Region) (off n : Nat) : List Byte := (List.range n).map fun i => r.bytes.get (off + i) 0

/-- The largest SEALED_LEN of a region (R352, R363). -/
def regionRoom (i : Nat) : Nat := match i with | 0 | 1 => 5238784 | 2 => 3141632 | _ => 258048

/-- The region is a tilth copy. -/
def isTilth (i : Nat) : Bool := decide (3 ≤ i)

/-! Headers (R352, R363). -/

/-- A section of the directory: type, offset and length. -/
structure SectionEntry where
  type : Nat
  off : Nat
  len : Nat
  deriving DecidableEq, Repr

/-- The header of an image or a tilth record: `number` is FW_VERSION or SEQUENCE. -/
structure ImgHeader where
  flags : Nat
  len : Nat
  sigLen : Nat
  number : Nat
  svn : Nat
  signer : Nat
  uidBind : Nat
  sections : List SectionEntry
  deriving DecidableEq, Repr

/-- Read a header: MAGIC and VERSION are right. -/
def parseHeader (magic : String) (b : List Byte) : Option ImgHeader :=
  if b.take 4 = ascii magic ∧ field b 4 2 = 1 then
    some { flags := field b 6 2, len := field b 8 4, sigLen := field b 0xC 4, number := field b 0x10 4, svn := field b 0x14 1
           signer := field b 0x15 1, uidBind := field b 0x20 16
           sections := (List.range (field b 0x16 2)).map fun i =>
             ⟨field b (0x40 + 16 * i) 2, field b (0x44 + 16 * i) 4, field b (0x48 + 16 * i) 4⟩ }
  else none

/-- SEALED_LEN of a header. -/
def ImgHeader.sealedLen (h : ImgHeader) : Nat := h.len + h.sigLen

/-- Sections are 64-byte aligned, lie within the image behind its directory and do not overlap (R353). -/
def sectionsOk (h : ImgHeader) : Bool :=
  let dir := 0x40 + 16 * h.sections.length
  decide (1 ≤ h.sections.length ∧ h.sections.length ≤ 16) &&
  h.sections.all (fun x => decide (x.off % 64 = 0 ∧ dir ≤ x.off ∧ x.off + x.len ≤ h.len)) &&
  h.sections.zipIdx.all fun x => h.sections.zipIdx.all fun y =>
    decide (x.2 = y.2) || !overlap x.1.off x.1.len y.1.off y.1.len

/-- The reserved bytes of the header and its directory are 0. -/
def headerReservedOk (b : List Byte) (tilth : Bool) : Bool :=
  (if tilth then zeros b 0x14 1 && zeros b 0x18 8 else zeros b 0x1C 4) && zeros b 0x30 16 &&
  (List.range (field b 0x16 2)).all fun i => zeros b (0x42 + 16 * i) 2 && zeros b (0x4C + 16 * i) 4

def ImgHeader.countOf (h : ImgHeader) (type : Nat) : Nat := (h.sections.filter fun x => decide (x.type = type)).length

/-- The bytes of a section. -/
def sectionBytes (b : List Byte) (x : SectionEntry) : List Byte := slice b x.off x.len

/-- The first section of a type. -/
def ImgHeader.section_ (h : ImgHeader) (b : List Byte) (type : Nat) : List Byte :=
  match h.sections.find? fun x => decide (x.type = type) with | some x => sectionBytes b x | none => []

/-! Programs and microcode. -/

/-- Read a grain program from its first byte (R104), with its length. -/
def parseProgram (b : List Byte) : Option (Program × Nat) :=
  let words := field b 0xC 2
  let dataLen := field b 0x12 2
  let n := 96 + 4 * words + dataLen
  if b.take 4 ≠ ascii "IXGP" ∨ b.length < n then none
  else some ({
    header := { version := field b 4 2, flags := field b 6 2, progId := field b 8 4, textWords := words, entry := field b 0xE 2
                dataOff := field b 0x10 2, dataLen := dataLen, inOff := field b 0x14 2, inSize := field b 0x16 2
                outOff := field b 0x18 2, outSize := field b 0x1A 2, kbufOff := field b 0x1C 2, kbufSize := field b 0x1E 2
                pubLregs := field b 0x20 2, minMicrocode := field b 0x22 2, cycleBound := field b 0x24 4 }
    text := (List.range words).map fun i => BitVec.ofNat 32 (field b (96 + 4 * i) 4)
    data := slice b (96 + 4 * words) dataLen
    digest := slice b 0x40 32 }, n)

/-- The programs of GRAIN_PROGRAMS, each 64-byte aligned (R353). -/
def parsePrograms : Nat → List Byte → List Program
  | 0, _ => []
  | n + 1, b => match parseProgram b with
    | some (p, k) => p :: parsePrograms n (b.drop (roundUp k 64))
    | none => []

/-- The entries of PROGRAM_DIRECTORY: operation code and PROG_ID. -/
def parseDirectory (b : List Byte) : List (Nat × Nat) :=
  (List.range (b.length / 8)).map fun i => (field b (8 * i) 2, field b (8 * i + 4) 4)

/-- The checks of R173 on a microcode section. -/
def microcodeOk (b : List Byte) : Bool :=
  decide (b.length = 0x8430 ∧ b.take 4 = ascii "IXMC" ∧ field b 8 4 = 4096 ∧ slice b 0x8410 32 = sha3_256 (b.take 0x8410)) &&
  zeros b 6 2 && zeros b 0xC 4 &&
  ((List.range 512).all fun i =>
    decide (field b (0x10 + 2 * i) 2 < 2 ^ 13) && dispatchParity (BitVec.ofNat 51 (field b (0x10 + 2 * i) 2))) &&
  (List.range 4096).all fun i =>
    decide (field b (0x410 + 8 * i) 8 < 2 ^ 51) && microParity (BitVec.ofNat 51 (field b (0x410 + 8 * i) 8))

/-! Signers and seals. -/

/-- An entry may sign images in this state (R351). -/
def State.imageSigner (s : State) (k : Nat) : Bool :=
  s.keyLive k && (match s.life.state with
    | .manufactured | .returned => decide (k < 4)
    | .owned => decide (k < 8)
    | _ => false)

/-- An entry may sign tilth records in this state (R351). -/
def State.tilthSigner (s : State) (k : Nat) : Bool :=
  s.keyLive k && (match s.life.state with
    | .manufactured | .returned => decide (k < 4)
    | .owned => decide (4 ≤ k ∧ k < 8) || (decide (k < 4) && !s.boot.ownerTilth)
    | _ => false)

/-- An entry may sign what stands in a region. -/
def State.signerOk (s : State) (i k : Nat) : Bool := if isTilth i then s.tilthSigner k else s.imageSigner k

/-- SEAL of R356 over the first bytes of a region. -/
def State.sealOf (s : State) (i signer svn : Nat) (bytes : List Byte) : List Byte :=
  kmac 256 32 (s.kdf "SEAL" [] 256) (leBytes 1 signer ++ leBytes 1 svn ++ leBytes 4 bytes.length ++ bytes)
    (ascii (if isTilth i then "IXL-TILTH" else "IXL-SEAL"))

/-- The seal in a control page checks against its region (R356). -/
def State.sealChecks (s : State) (i : Nat) : Bool :=
  let r := s.region i
  decide (r.page.sealVal = s.sealOf i r.page.signer r.page.svn (r.read 0 r.page.sealedLen))

/-- A UID_BIND that this unit accepts. -/
def State.uidOk (s : State) (bind : Nat) : Bool := decide (bind = 0 ∨ bind = s.uid)

/-- The header of the bytes in a region. -/
def Region.header (r : Region) (i : Nat) : Option ImgHeader :=
  let n := field (r.read 0 0x40) 0x16 2
  parseHeader (if isTilth i then "IXTR" else "IXSE") (r.read 0 (0x40 + 16 * n))

/-- The header check of a slot (R359). -/
def State.slotPasses (s : State) (i : Nat) : Bool :=
  let r := s.region i
  match r.header i with
  | none => false
  | some h =>
    decide (r.page.state = .sealedPage ∧ r.page.sealedLen = h.sealedLen ∧ h.sealedLen ≤ regionRoom i) &&
    s.imageSigner h.signer && decide (s.boot.svnFloor ≤ h.svn) && s.uidOk h.uidBind &&
    (decide (i ≠ 2) || h.flags.testBit 0)

/-- Both signatures of what stands in a region verify under its signer's entry (R354, R363). -/
def State.signaturesOk (s : State) (i : Nat) (h : ImgHeader) (bytes : List Byte) : Bool :=
  match parseSigBlock (slice bytes h.len h.sigLen) with
  | none => false
  | some b => b.ok (s.boot.keys.get h.signer [])
      (signedMessage (if isTilth i then "IXTR-SIGN" else "IXSE-SIGN") (bytes.take h.len))

/-! Tilth records (R363 to R365, R380). -/

/-- TENANTS: a tenant's number and bytes 0x000 to 0x0FF of R76. -/
def parseTenants (b : List Byte) : List (Nat × TptFields) :=
  (List.range (b.length / 258)).map fun i =>
    let e := slice b (258 * i + 2) 256
    let func := field e 4 4
    (field b (258 * i) 2,
      { isolated := bit (field e 0 4) 3, pfOwned := bit func 31, port := bits func 25 24, vfNum := bits func 22 12
        vfFirst := bits func 10 0, qpPerFunc := bits (field e 8 4) 21 16, qpBase := bits (field e 8 4) 12 0
        slotsWr := bits (field e 0xC 4) 26 16, slotsRd := bits (field e 0xC 4) 10 0
        ctxQuota := bits (field e 0x10 4) 28 16, slotQuota := bits (field e 0x10 4) 12 0
        rngMs := bits (field e 0x18 4) 6 0, bne := field e 0x20 8, ext := field e 0x28 32, grains := field e 0x80 128 })

/-- EXTENSIONS: OPCODE, LEN and the program of each entry (R364); none where an entry is not whole. -/
def parseExtensions : Nat → List Byte → Option (List (Nat × Program))
  | 0, b => if b = [] then some [] else none
  | n + 1, b =>
    if b = [] then some []
    else
      let len := field b 4 4
      match parseProgram (slice b 8 len) with
      | some (p, k) =>
        if k ≠ len ∨ b.length < 8 + len ∨ !zeros b 2 2 ∨ field b 0 2 < 0xF000 then none
        else (parseExtensions n (b.drop (8 + len))).map fun r => (field b 0 2, p) :: r
      | none => none

/-- No operation code is bound twice. -/
def distinctCodes (x : List (Nat × Program)) : Bool := decide ((x.map Prod.fst).Nodup)

/-- The bytes of a hybrid signature block (R383). -/
def hybridBlock : Nat := 2592 + 97 + 4627 + 96

/-- The bytes of an image region and its manifest, whose length is that of a hybrid manifest here, in whole 4 KiB blocks (R380, R382;
log entry 37). -/
def FlashPlan.span (f : FlashPlan) : Nat := 4096 * f.blocks + roundUp (0x40 + 32 * f.blocks + hybridBlock) 4096

/-- The rules of R380 on one channel: ranges aligned, inside the flash and disjoint. -/
def FlashPlan.ok (f : FlashPlan) : Bool :=
  let regions := f.bases.map fun b => (b, f.span)
  let all := (f.hostBase, 4096 * f.blocks) :: regions
  decide (f.blocks = 0) ||
  (decide (f.blocks ≤ 32768 ∧ f.bases.length = 3 ∧ f.size ≤ 2 ^ 29 ∧ 8 ≤ f.dummy ∧ f.dummy ≤ 30 ∧ f.modes.length ≤ 32 ∧
    1 ≤ f.winTimeout ∧ f.winTimeout ≤ 86400) &&
  all.all (fun x => decide (x.1 % 4096 = 0 ∧ x.1 + x.2 ≤ f.size)) &&
  all.zipIdx.all fun x => all.zipIdx.all fun y => decide (x.2 = y.2) || !overlap x.1.1 x.1.2 y.1.1 y.1.2)

/-- The mode of an image block: 0 open, 1 mirrored, 2 watched; a block that no range names is watched (R380). -/
def FlashPlan.modeOf (f : FlashPlan) (k : Nat) : Nat :=
  match f.modes.find? fun m => decide (m.1 ≤ k ∧ k < m.1 + m.2.1) with | some m => m.2.2 | none => 2

/-- The blocks of a channel's image in a mode. -/
def FlashPlan.countMode (f : FlashPlan) (m : Nat) : Nat := ((List.range f.blocks).filter fun k => decide (f.modeOf k = m)).length

/-- The rules of R380 on both channels together. -/
def Tilth.flashOk (t : Tilth) : Bool :=
  let fs := t.flash.map Prod.snd
  fs.all FlashPlan.ok && decide ((fs.map fun f => f.countMode 1).sum ≤ 2048 ∧
    (fs.map fun f => f.countMode 1 + f.countMode 2).sum ≤ 32768)

/-- The tenants of a record are taken one after the other, and R77 holds throughout. -/
def State.tenantsOk (s : State) (t : Tilth) : Bool :=
  let s := { s with tenants := [], boot := { s.boot with tilth := some t } }
  (t.tenants.foldl (fun (x : State × Bool) e =>
    (x.1.modTenant e.1 fun _ => { state := .active, tpt := e.2 }, x.2 && x.1.tptOk e.1 e.2)) (s, true)).2

/-- The contents of a tilth record, where they are valid (R363, R364, R380). -/
def State.readTilth (s : State) (b : List Byte) (h : ImgHeader) : Option Tilth :=
  match Config.tilthFields (h.sections.map fun x => (x.type, sectionBytes b x)),
      parseExtensions 257 (h.section_ b 0xA) with
  | some f, some ext =>
    let t := { f with sequence := h.number, tenants := parseTenants (h.section_ b 2), extensions := ext }
    if distinctCodes ext ∧ ext.length ≤ 256 ∧ t.flashOk ∧ s.tenantsOk t ∧ 2 ≤ t.limitN ∧ t.limitN ≤ 15 ∧
        t.uncel.officers.length ≤ 8 ∧ t.uncel.approvals ≤ t.uncel.officers.length then some t
    else none
  | _, _ => none

/-- Each section type of a record stands at most once, and LINK and BOOT stand (R363). -/
def tilthSectionsOk (h : ImgHeader) : Bool :=
  h.sections.all (fun x => decide (1 ≤ x.type ∧ x.type ≤ 0xB ∧ h.countOf x.type = 1)) && decide (h.countOf 1 = 1 ∧ h.countOf 6 = 1)

/-- A tilth copy is valid (R365). -/
def State.tilthValid (s : State) (i : Nat) : Bool :=
  let r := s.region i
  match r.header i with
  | none => false
  | some h =>
    decide (r.page.state = .sealedPage ∧ r.page.sealedLen = h.sealedLen ∧ h.sealedLen ≤ regionRoom i) && s.sealChecks i &&
    s.tilthSigner h.signer && s.uidOk h.uidBind && decide (s.boot.tilthFloor ≤ h.number)

end Sys2Proof.Machine
end

