-- ==== Sys2Proof/Machine/Identity.lean ====
section
/-!
DEFINITION. The DICE identities (R306, R307): the layer values, the identity keys, the certificates and their chain (R432), and
hybrid signatures by the Alias key (R431).
-/
namespace Sys2Proof.Config

/-- A layer value from its key and message: R306 does not give its length or S (log entry 44). -/
opaque cdi : List Byte → List Byte → List Byte
/-- An Alias certificate that DeviceID signs, at a use, from both identity keys (log entry 26). -/
opaque aliasCert : Nat → List Byte → List Byte → List Byte
/-- The bytes of the chain vendor CA root, DeviceID, Alias, from the DeviceID certificate and the Alias certificate (log entry 26). -/
opaque certChain : List Byte → List Byte → List Byte
/-- A chain of certificates certifies a DeviceID key, with both signatures valid (log entry 26). -/
opaque certifies : List Byte → List Byte → Bool
/-- The P-384 and the ML-DSA-87 signature of an identity key, at a use, over a message that the SPDM standard or R436 lays out (log
entry 26). -/
opaque hybridSign : Nat → List Byte → List Byte

end Sys2Proof.Config

namespace Sys2Proof.Machine

/-- The unique device secret (R305). -/
def State.uds (s : State) : List Byte := s.kdf "UDS" [] 512

/-- CDI0 of R306. -/
def State.cdi0 (s : State) : List Byte := Config.cdi s.uds (ascii "CDI0" ++ sha3_256 Config.bootCode)

/-- The bytes that a seal covers in a region. -/
def State.sealedBytes (s : State) (i : Nat) : List Byte := (s.region i).read 0 (s.region i).page.sealedLen

/-- The bytes of the tilth record in force; none while there is none. -/
def State.tilthBytes (s : State) : List Byte := if s.boot.tilth.isSome then s.sealedBytes (3 + s.boot.tilthCopy) else []

/-- CDI1 of R306. -/
def State.cdi1 (s : State) : List Byte :=
  Config.cdi s.cdi0 (ascii "CDI1" ++ sha3_256 (s.sealedBytes s.boot.running) ++ sha3_256 s.tilthBytes ++
    leBytes 1 (s.region s.boot.running).page.signer)

/-- The 64 bytes from which an identity's two key pairs come. -/
def idKey (cdi : List Byte) : List Byte := kmac 256 64 cdi (ascii "IDKEY") (ascii "IXL-KDF")

/-- ξ of an identity's ML-DSA-87 part. -/
def idXi (key : List Byte) : List Byte := key.take 32

/-- The order of P-384. -/
def p384Order : Nat :=
  0xFFFFFFFFFFFFFFFFFFFFFFFFFFFFFFFFFFFFFFFFFFFFFFFFC7634D81F4372DDF581A0DB248B0A77AECEC196ACCC52973

/-- The scalar d of an identity's P-384 part. -/
def idScalar (key : List Byte) : Nat := leNat (key.drop 16).reverse % (p384Order - 1) + 1

/-- DeviceID and Alias. -/
def State.deviceId (s : State) : List Byte := idKey s.cdi0
def State.aliasId (s : State) : List Byte := idKey s.cdi1

/-- DeviceID certifies a fresh Alias (R307, R432). -/
def State.newAlias (s : State) : State :=
  let s := s.spend
  s.modVault fun v =>
    { v with aliasKey := v.rootValid, aliasCert := if v.rootValid then Config.aliasCert s.free s.deviceId s.aliasId else [] }

/-- The chain of certificate slot 0. -/
def State.chain0 (s : State) : List Byte := Config.certChain s.vault.deviceCert s.vault.aliasCert

/-- A hybrid signature by the Alias key, over a message that the standard lays out. -/
def State.aliasSign (s : State) : List Byte := Config.hybridSign s.free s.aliasId

end Sys2Proof.Machine
end

