-- ==== Sys2Proof/Machine/Tamper.lean ====
section
/-!
DEFINITION. The tamper system: zeroize (R13, R300, R323), sources and their conditions (R407 to R412), responses (R413 to R417),
lock and unlock (R418 to R420), the evidence counter (R421), battery operation (R422, R423), and the die-link integrity event
(R12).
-/
namespace Sys2Proof.Machine

/-! Zeroize. -/

/-- The slots whose keys a zeroize destroys are logged with path 3 (R323, R505). -/
def State.logZeroized (s : State) : State :=
  ((s.vault.slots.filter fun (_, x) => decide (x.state = .loaded)).map Prod.fst).foldl (fun s k => s.logDestroyed k 3) s

/-- A zeroize: in one clock the three key-encryption keys and the root secret clear, so that slots, contexts, key cache and shelf
are unreadable; the store scrubs start, every job in flight is stopped for ZEROIZED, and the digest engines and the RNG
follow R265 and R300. -/
def State.zeroize (s : State) : State :=
  let s := s.logZeroized
  let s := s.clearRoot.modVault fun v => { v with
    slots := v.slots.mapVals fun _ x => x.emptied
    ctxs := [], slotKekValid := false, cacheKekValid := false, ctxKekValid := false, aliasKey := false
    shelfLoading := false, scrubSlots := true, scrubCtxs := true, scrubCache := true }
  let s := s.zeroizeRng
  let s := (s.jobsWhere fun x => decide (x.stage ≠ Stage.ending)).foldl (fun s j => s.abortJob j Status.zeroized) s
  let s := (List.range 18).foldl (fun s e => s.digStop e .zeroized) s
  s.event .key 16

/-- ZEROIZE_REQUEST: the line leaves (1, 0) (R13). -/
def execZeroizeRequest (s : State) : Result := .next s.zeroize

/-- ZEROIZE_SCRUB_DONE: the scrub of one store ends. A job that was stopped completes with ZEROIZED when its own grain has been
scrubbed. -/
def execZeroizeScrubDone (store : Store) (s : State) : Result :=
  .next (s.modVault fun v => match store with
    | .slotSram => { v with scrubSlots := false }
    | .contextStore => { v with scrubCtxs := false }
    | .keyCache => { v with scrubCache := false })

/-! Sources and responses. -/

/-- Bits of TMP_CFGs (R426). -/
def tmpArmed : Nat := 1
def tmpLog : Nat := 2
def tmpZeroize : Nat := 4
def tmpLock : Nat := 8
def tmpHold : Nat := 16
def tmpOut : Nat := 32

/-- The default response of a source (R407). -/
def tamperDefault (src : Nat) : TamperCfg :=
  if src < 12 then {} else { bits := tmpArmed + tmpLog + tmpZeroize + tmpLock + tmpOut }

/-- TMP_CFGs. -/
def State.tamperOf (s : State) (src : Nat) : TamperCfg := s.tamperCfg.get src (tamperDefault src)

/-- Set TMP_CFGs, which the always-on domain keeps too. -/
def State.setTamper (s : State) (src : Nat) (c : TamperCfg) : State :=
  { s with
    tamperCfg := s.tamperCfg.insert src c
    tamper := { s.tamper with battCfg := s.tamper.battCfg.insert src c } }

/-- A mask with some of its bits. -/
def keepBits (mask x : Nat) : Nat := x &&& mask

/-- The responses of a source in force, ARMED among them, under the life-cycle state (R417). -/
def State.responses (s : State) (src : Nat) : Nat :=
  match s.life.state with
  | .raw | .testUnlocked | .testLocked => keepBits (tmpArmed + tmpOut) (tamperDefault src).bits
  | .manufactured | .owned => (s.tamperOf src).bits
  | .returned => keepBits (tmpArmed + tmpLog + tmpOut) (tamperDefault src).bits
  | .scrapped => 0

/-- The response byte of a log entry and of a TAMPER frame: bits 5:1 of TMP_CFGs (R458, R505). -/
def responseByte (b : Nat) : Nat := bits b 5 1

/-- Every hold of mode AUTO or MANUAL (R374). -/
def State.plannedHolds (s : State) : Nat :=
  (List.range 8).foldl (fun n k => if (s.tilth.holds.get k {}).mode = 0 then n else n ||| 2 ^ k) 0

/-- Every hold of mode AUTO. -/
def State.autoHolds (s : State) : Nat :=
  (List.range 8).foldl (fun n k => if (s.tilth.holds.get k {}).mode = 1 then n ||| 2 ^ k else n) 0

/-- The hold-platform response: the holds stay asserted until the next full reset. -/
def State.tamperHolds (s : State) : State :=
  s.modPgd fun g => { g with level := g.level ||| s.plannedHolds, byTamper := g.byTamper ||| s.plannedHolds }

/-- The lock service runs: what the loam cores held is gone, and the lock flag is written unless MRAM writes are deferred (R335,
R337, R418, R419). -/
def State.enterLockService (s : State) : State :=
  { s with
    power := { s.power with phase := .lockService }
    spdm := {}
    life := { s.life with staged := none }
    hzn := { s.hzn with issued := [] }
    boot := { s.boot with install := none }
    tamper := { s.tamper with flag := s.tamper.flag || s.mramOk } }

/-- The device becomes LOCKED (R418). -/
def State.becomeLocked (s : State) : State :=
  if s.tamper.locked then s
  else
    let s := (s.modTamper fun t => { t with locked := true }).event .tmp 2
    let s := { s with glb := { s.glb with locked := true } }
    (s.glbEvent evLockChanged).vfEvent vfLocked

/-- The loam cores run and are reset by a lock: an earlier phase comes to the lock service by itself. -/
def runsCores (p : Phase) : Bool := decide (p ∈ [Phase.chosen, .sealing, .gateOpen, .fallow, .lockService])

/-- A lock before START_OK: the reset of the cores becomes a full one, whose start finds the device locked (R341, R419). -/
def State.lockEscalates (s : State) : Bool :=
  decide (s.power.phase ∈ [Phase.booting, .renewing, .chosen, .sealing, .gateOpen]) && !s.glb.startOk && !s.tamper.locked

/-- A lock response: the latch at once, then the reset of the loam cores into the lock service, or the full reset that it becomes
(R341, R418, R419). -/
def State.lockResponse (s : State) : State :=
  let full := s.lockEscalates
  let s := (s.modTamper fun t => { t with latch := true }).becomeLocked
  if full then s.escalated 0 8 else if runsCores s.power.phase then (s.event .rst 8).enterLockService else s

/-- Drive TAMPER_OUT_N low (R415). -/
def State.driveOut (s : State) (srcs : Nat) (lock : Bool) : State :=
  s.modTamper fun t => { t with out := true, outFor := t.outFor ||| srcs, outLock := t.outLock || lock }

/-- A response that qualifies for the evidence counter and for the broadcast (R413, R458). -/
def qualifies (b : Nat) : Bool := decide (keepBits (tmpZeroize + tmpLock + tmpHold) b ≠ 0)

/-- The TAMPER frame of an alarm, tagged before the zeroize clears its key (R458). -/
def State.broadcastTamper (s : State) (srcs responses : Nat) : State :=
  if s.tilth.uncel.tamperTx && qualifies responses then
    s.originateAuth dstDomain 0x40 (leBytes 2 srcs ++ leBytes 1 (responseByte responses) ++ leBytes 1 0)
  else s

/-- The mask of a list of sources. -/
def maskOf (xs : List Nat) : Nat := xs.foldl (fun n k => n ||| 2 ^ k) 0

/-- The TAMPER entry of a source (R437). -/
def State.logTamper (s : State) (time src responses : Nat) (battery : Bool) : State :=
  s.logAt time 0x4001 (leBytes 2 (2 ^ src) ++ leBytes 1 (responseByte responses) ++ leBytes 2 s.tamper.count ++
    leBytes 1 (ofBool battery))

/-- Alarms of one cycle: the union of their responses in the order zeroize, hold platform, lock, log (R413, R414). -/
def State.alarm (s : State) (srcs : List Nat) : State :=
  let srcs := srcs.filter fun k => (s.responses k).testBit 0
  if srcs = [] then s
  else
    let rs := srcs.map fun k => (k, s.responses k)
    let all := rs.foldl (fun n r => n ||| r.2) 0
    let counted := decide (s.life.state = .manufactured ∨ s.life.state = .owned)
    let s := s.broadcastTamper (maskOf srcs) all
    let s := (s.modTamper fun t => { t with last := maskOf srcs }).event .tmp 1
    let s := if all.testBit 2 then s.zeroize else s
    let s := if all.testBit 4 then s.tamperHolds else s
    let s := if all.testBit 5 then
      s.driveOut (maskOf ((rs.filter fun r => r.2.testBit 5).map Prod.fst)) (all.testBit 3) else s
    let s := if all.testBit 3 then s.lockResponse else s
    let s := if counted then
      s.modTamper fun t => { t with due := t.due + (rs.filter fun r => qualifies r.2).length } else s
    let s := s.tick
    let logged := rs.filter fun r => r.2.testBit 1
    let s := logged.foldl (fun s r => s.logTamper s.rtc r.1 r.2 false) s
    if logged = [] then s else s.glbEvent evTamper

/-! Battery operation (R422). -/

/-- Only VBAT powers the device. -/
def State.onBattery (s : State) : Bool := decide (s.power.phase = .unpowered) && s.power.vbat

/-- The responses of a source as the always-on domain knows them. -/
def State.battResponses (s : State) (src : Nat) : Nat :=
  { s with tamperCfg := s.tamper.battCfg }.responses src

/-- An alarm on battery: the latch records it; a response beyond log and TAMPER_OUT_N clears the root secret and sets the LOCK
latch. -/
def State.battAlarm (s : State) (src : Nat) : State :=
  let r := s.battResponses src
  if !r.testBit 0 then s
  else
    let s := s.tick
    let s := s.modTamper fun t => { t with
      batt := { t.batt with
        sources := t.batt.sources ||| 2 ^ src, count := satAdd 15 t.batt.count 1
        first := if t.batt.count = 0 then s.rtc else t.batt.first } }
    let s := if qualifies r then s.clearRoot.modTamper fun t => { t with latch := true } else s
    if r.testBit 5 then s.driveOut (2 ^ src) false else s

/-- Alarms, on main power or on battery. -/
def State.raise (s : State) (srcs : List Nat) : State :=
  if s.onBattery then srcs.foldl State.battAlarm s
  else if s.power.phase = .unpowered then s
  else s.alarm srcs

/-- Count an abnormal sample of a key, or a normal one. -/
def State.sample (s : State) (key : Nat) (abnormal : Bool) : State :=
  s.modTamper fun t => { t with abnormal := if abnormal then t.abnormal.modify key 0 fun n => min 4 (n + 1) else t.abnormal.erase key }

/-- The third consecutive abnormal sample has just come: a condition that persists raises no further alarm. -/
def State.third (s : State) (key : Nat) : Bool := decide (s.tamper.abnormal.get key 0 = 3)

/-- MODE of a source, as far as the domain in charge knows it. -/
def State.modeOf (s : State) (src : Nat) : Nat :=
  if s.onBattery then (s.tamper.battCfg.get src (tamperDefault src)).mode else (s.tamperOf src).mode

/-- A loop runs pseudo-random: MODE 1, on main power, once the first seed exists (R409). -/
def State.loopRandom (s : State) (k : Nat) : Bool :=
  decide (s.modeOf (8 + k) = 1) && !s.onBattery && s.rng.firstSeed

/-- The condition of a switch or a static loop in one sample (R408, R409). -/
def State.inputAbnormal (s : State) (switches : BitVec 8) (loops : BitVec 4) (src : Nat) : Bool :=
  if src < 8 then switches.getLsbD src != decide (s.modeOf src = 1)
  else !loops.getLsbD (src - 8) && !s.loopRandom (src - 8)

/-- TAMPER_SAMPLE_TICK: the 1 ms sample of the inputs. -/
def execTamperSampleTick (switches : BitVec 8) (loops : BitVec 4) (s : State) : Result :=
  .next (
    let srcs := List.range 12
    let bad := s.inputAbnormal switches loops
    let s := srcs.foldl (fun s k => s.sample k (bad k)) s
    let s := s.modTamper fun t => { t with live := t.live / 2 ^ 12 * 2 ^ 12 + maskOf (srcs.filter bad) }
    s.raise (srcs.filter s.third))

/-- LOOP_MISMATCH: four mismatching bits in 64 on a pseudo-random loop (R409). -/
def execLoopMismatch (k : Nat) (s : State) : Result :=
  .next (if k < 4 ∧ s.loopRandom k then s.raise [8 + k] else s)

/-- VOLTAGE_TAMPER: a monitored supply goes over its level or leaves its glitch window (R410). -/
def execVoltageTamper (supply : Nat) (s : State) : Result :=
  .next (if s.onBattery ∨ !([0, 1, 4, 5].contains supply) then s else s.raise [12])

/-- The widest window of a grade: -20 to 120 °C for CB (grade 0), -60 to 125 °C for EB (R411). -/
def widestWindow (grade : Nat) : BitVec 16 × BitVec 16 :=
  if grade = 0 then (BitVec.ofInt 16 (-80), BitVec.ofInt 16 480) else (BitVec.ofInt 16 (-240), BitVec.ofInt 16 500)

/-- The window in force: low and high limit. -/
def State.tempWindow (s : State) : BitVec 16 × BitVec 16 :=
  ((if s.onBattery then s.tamper.battWindow else s.tilth.tempWindow)).getD (widestWindow s.grade)

/-- The sensors that are read now: 0 and 1 with the topsoil powered, 2 and 3 always (R411, R422). -/
def State.sensors (s : State) : List Nat := (if s.power.topsoilUp && !s.onBattery then [0, 1] else []) ++ [2, 3]

/-- TEMPERATURE_READING: a sensor out of the window, or two of one die more than 15 °C apart, three times in a row (R411). -/
def execTemperatureReading (readings : List (BitVec 16)) (s : State) : Result :=
  .next (
    let w := s.tempWindow
    let read : Nat → BitVec 16 := fun i => (readings[i]?).getD 0
    let sensors := s.sensors
    let outside := fun i => decide ((read i).toInt < w.1.toInt ∨ w.2.toInt < (read i).toInt)
    let apart := fun d => decide (60 < ((read (2 * d)).toInt - (read (2 * d + 1)).toInt).natAbs)
    let dies := (List.range 2).filter fun d => sensors.contains (2 * d)
    let s := s.modTamper fun t => { t with temps := sensors.foldl (fun m i => m.set i (read i).toNat 0) t.temps }
    let s := sensors.foldl (fun s i => s.sample (16 + i) (outside i)) s
    let s := dies.foldl (fun s d => s.sample (20 + d) (apart d)) s
    let now := sensors.any outside || dies.any apart
    let s := s.modTamper fun t => { t with live := (t.live &&& (0xFFFF - 2 ^ 13)) + (if now then 2 ^ 13 else 0) }
    let s := if dies.any fun d => s.third (20 + d) then s.event .tmp 64 else s
    if (sensors.any fun i => s.third (16 + i)) || dies.any fun d => s.third (20 + d) then s.raise [13] else s)

/-- CLOCK_MONITOR_WINDOW: three windows out of range, or a clock that stops; clocks 0 subsoil reference, 1 subsoil PLL, 2 fabric
PLL, 3 the 32.768 kHz oscillator (R412). A quadrant PLL comes here only through R331. -/
def execClockMonitorWindow (clock : Nat) (abnormal stopped : Bool) (s : State) : Result :=
  .next (
    if s.onBattery ∨ 3 < clock ∨ (clock = 2 ∧ !s.power.topsoilUp) then s
    else
      let s := s.sample (32 + clock) (abnormal || stopped)
      let s := s.modTamper fun t =>
        { t with live := (t.live &&& (0xFFFF - 2 ^ 14)) + (if abnormal || stopped then 2 ^ 14 else 0) }
      if stopped || s.third (32 + clock) then s.raise [14] else s)

/-- OSCILLATOR_FALLBACK: on battery the 1 kHz oscillator takes over, and the latch records CLOCK_STOP (R422). -/
def execOscillatorFallback (s : State) : Result :=
  .next (
    if s.onBattery then s.modTamper fun t => { t with batt := { t.batt with clockStop := true } } else s)

/-- TAMPER_OUT_RELEASE: tOUT has passed; the output is released when no condition that drives it persists and no lock keeps it
(R415). On battery it is released whatever the condition. -/
def execTamperOutRelease (s : State) : Result :=
  .next (
    let t := s.tamper
    if s.onBattery ∨ (t.outFor &&& t.live = 0 ∧ !(t.outLock && t.locked)) then
      s.modTamper fun t => { t with out := false, outFor := 0, outLock := false }
    else s)

/-! The evidence counter (R421). -/

/-- The position is used up: a filled bank moves counting to the next, and the last one saturates the counter. -/
def State.positionDone (s : State) (old : Nat) : State :=
  if s.tamper.next % 1024 ≠ 0 then s
  else
    let dest := if s.tamper.next < 4096 then old + 1 else 0xFFFF
    let s := s.log 0x6002 (leBytes 1 4 ++ leBytes 2 old ++ leBytes 2 dest)
    if s.tamper.next < 4096 then s.event .tmp 16 else s

/-- Program one position: a bit that reads 1 counts, one that stays 0 after its retry is passed over. -/
def State.increment (s : State) (ok : Bool) : State :=
  if s.tamper.saturated then s
  else
    let old := s.tamper.next / 1024
    let s := s.modTamper fun t => { t with next := t.next + 1, count := if ok then t.count + 1 else t.count }
    s.positionDone old

/-- A counter that has just saturated locks the device in MANUFACTURED and OWNED. -/
def State.saturate (s : State) (before : Bool) : State :=
  if before ∨ !s.saturationLocks then s else (s.event .tmp 32).lockResponse

/-- EVIDENCE_INCREMENT_DONE: one position of an increment that is due has been programmed and read back. -/
def execEvidenceIncrementDone (readBackOk : Bool) (s : State) : Result :=
  .next (
    if s.tamper.due = 0 then s
    else
      let before := s.tamper.saturated
      let s := s.increment readBackOk
      let s := s.modTamper fun t => { t with due := if readBackOk ∨ t.saturated then t.due - 1 else t.due }
      s.saturate before)

/-! Arming and pairs (R416). -/

/-- The source of a TMP_CFG register. -/
def tmpSource (off : Nat) : Nat := (off - gdTamper 0) / 4

/-- The pair on TMP_CFGs: bits 5:0 are ORed into the register. -/
def tamperPair (off : Nat) (v : W32) (s : State) : State × GuardResult :=
  let c := s.tamperOf (tmpSource off)
  (s.setTamper (tmpSource off) { c with bits := c.bits ||| bits v.toNat 5 0 }, .applied)

/-- TMP_CFGS: the second write of the pair. -/
def execTmpCfgs (r : Requester) (off : Nat) (complement : W32) (s : State) : Result :=
  .next (s.guardPair r ((List.range 16).map gdTamper) off complement tamperPair)

/-- TAMPER_ARM (R416). -/
def State.tamperArm (s : State) (v : Via) (off : Nat) (value : W32) : State × Answer :=
  if ((List.range 16).map gdTamper).contains off then s.arm v off value tamperPair else (s, .no Status.inputInvalid)

/-! The lock service (R419, R420). -/

/-- TMP_BATT. -/
def State.tmpBatt (s : State) : Nat :=
  let b := s.tamper.transferred
  b.sources * 2 ^ 16 + ofBool b.clockStop * 2 ^ 15 + b.count

/-- LOCK_STATUS: the UID, the life-cycle state, TMP_COUNT and TMP_BATT. -/
def execLockStatus (v : Via) (s : State) : Result :=
  .next (
    if s.power.phase = .lockService then
      s.send v (.service v Status.ok
        (Config.serviceReport [s.uid, lcIndex s.life.state, s.tamper.count, s.tmpBatt]))
    else s)

/-- The verdict on an UNLOCK request (R420). -/
def State.unlockVerdict (s : State) (r : List Byte) : Nat :=
  let signer := field r 6 1
  let range := match s.life.state with
    | .owned => decide (4 ≤ signer ∧ signer ≤ 7)
    | .manufactured => decide (signer ≤ 3)
    | _ => false
  match parseSigBlock (r.drop 0x40) with
  | none => Status.inputInvalid
  | some b =>
    if r.take 4 ≠ ascii "IXUL" ∨ field r 4 2 ≠ 1 ∨ !zeros r 7 9 ∨ !zeros r 0x24 28 ∨ !range ∨ s.tamper.saturated ∨
        slice r 0x10 16 ≠ leBytes 16 s.uid ∨ field r 0x20 4 ≠ s.tamper.count then Status.inputInvalid
    else if !s.keyLive signer then Status.keyDenied
    else if b.ok (s.boot.keys.get signer []) (signedMessage "IXUL-SIGN" (r.take 0x40)) then Status.ok
    else Status.verifyFail

/-- UNLOCK: latch and flag clear, the unlock is logged, and a software full reset follows; a request that fails is refused and
logged. -/
def execUnlock (v : Via) (request : List Byte) (s : State) : Result :=
  .next (
    if s.power.phase ≠ .lockService then s
    else
      let verdict := s.unlockVerdict request
      if verdict ≠ Status.ok then (s.log 0x4002 (leBytes 2 2)).send v (.service v verdict [])
      else
        let s := s.modTamper fun t => { t with latch := false, flag := false, unlocked := true }
        ((s.log 0x4002 (leBytes 2 1)).send v (.service v Status.ok [])).innerReset causeSoftware)

/-! The transfer of the battery latch (R423). -/

/-- Core 1 transfers the latch: COUNT is added to the evidence counter, with `bad` positions that fail their read-back on the
way, the LOCK latch goes to the flag, the sources are logged with FIRST_TIME, and the latch is cleared. -/
def State.transferLatch (s : State) (bad : Nat) : State :=
  let b := s.tamper.batt
  let counted := decide (s.life.state = .manufactured ∨ s.life.state = .owned)
  let before := s.tamper.saturated
  let s := if counted then
    (List.range (b.count + bad)).foldl (fun s i => if b.count = 0 then s else s.increment (decide (bad ≤ i))) s else s
  let s := s.modTamper fun t => { t with flag := t.flag || t.latch, latch := false }
  if b.sources = 0 ∧ !b.clockStop then s
  else
    let s := ((List.range 16).filter fun k => b.sources.testBit k).foldl
      (fun s k => s.logTamper b.first k (s.battResponses k) true) s
    let s := if b.clockStop then s.logFree else s
    let s := (s.modTamper fun t => { t with transferred := b, batt := {} }).event .tmp 8
    if s.saturationLocks && !before then s.event .tmp 32 else s

/-! The die link (R12). -/

/-- DIE_LINK_INTEGRITY_EVENT: no further frames cross, jobs in flight end with LINK_FAULT, and source 15 is raised. -/
def execDieLinkIntegrityEvent (s : State) : Result :=
  .next (
    if s.glb.linkDown ∨ !s.power.topsoilUp then s
    else
      let s := { s with glb := { s.glb with linkDown := true } }
      let s := s.glbEvent evLinkFault
      let s := (s.jobsWhere fun x => decide (x.stage ≠ Stage.ending)).foldl (fun s j => s.abortJob j Status.linkFault) s
      let s := (List.range 16).foldl (fun s e => s.digStop e .linkFault) s
      let s := s.logHealth 4 0
      let s := s.modTamper fun t => { t with live := t.live ||| 2 ^ 15 }
      s.raise [15])

end Sys2Proof.Machine
end

