-- ==== Sys2Proof/Machine/Start.lean ====
section
/-!
DEFINITION. The start of the device (R338): the immutable boot code's duties (R358), fallow mode (R342, R343), the root secret
(R303), slot selection (R359), the seal check and the output gate (R360, R362), the tilth record (R365), topsoil power-up
(R11, R116, R305, R332), and START_OK (R338, R361, R366).
-/
namespace Sys2Proof.Machine

/-! Straps (R330, R342, R344). -/

/-- Effective BOOT_SEL. -/
def State.bootSel (s : State) : Nat := bits s.power.strapEff 3 2

/-- The golden slot alone is tried: BOOT_SEL 01 or FORCE_GOLDEN_N low. -/
def State.goldenOnly (s : State) : Bool := decide (s.bootSel = 1) || s.power.strapEff.testBit 9

/-! Ways a start can go. -/

/-- The START entry (R437). -/
def State.logStart (s : State) : State :=
  s.log 0x3002 (leBytes 4 s.power.cause ++ leBytes 1 s.boot.running ++ leBytes 1 s.boot.failCount ++ leBytes 1 s.boot.fallowWhy)

/-- Fallow mode (R343). -/
def State.enterFallow (s : State) (why : Nat) : State :=
  let s := s.modPower fun p => { p with phase := .fallow }
  let s := (s.modBoot fun b => { b with fallowWhy := why }).modGlb fun g => { g with fallow := true }
  s.logFlush.logStart

/-- A start that finds the device locked runs the lock service (R419). -/
def State.startLocked (s : State) : State := (s.enterLockService).becomeLocked.logFlush

/-- One artefact of the RESEAL pass (R357). -/
def State.resealOne (s : State) (i : Nat) : State :=
  let r := s.region i
  if r.page.state ≠ .sealedPage then s
  else
    let bytes := r.read 0 r.page.sealedLen
    let good := match r.header i with
      | some h => s.signerOk i h.signer && s.signaturesOk i h bytes
      | none => false
    if good then s.modRegion i fun x => { x with page := { x.page with sealVal := s.sealOf i x.page.signer x.page.svn bytes } }
    else if isTilth i then s.modRegion i fun x => { x with page := {} }
    else s.modRegion i fun x => { x with page := { x.page with state := .bad } }

/-- The RESEAL pass, with its event (R357, R371). -/
def State.resealPass (s : State) : State :=
  if !s.boot.reseal then s
  else ((List.range 5).foldl State.resealOne s |>.modBoot fun b => { b with reseal := false }).event .boot 32

/-- The list of R359. -/
def State.slotList (s : State) : List Nat := if s.goldenOnly then [2] else [s.boot.primary, 1 - s.boot.primary, 2]

/-- The slot of R359 for a count, if one passes. -/
def State.selectSlot (s : State) (count : Nat) : Option Nat :=
  let list := s.slotList
  let i := min count list.length - 1
  ((list.drop i) ++ (list.take i)).find? s.slotPasses

/-- The selected slot runs: what its image gives the device is read (R173, R353). -/
def State.runSlot (s : State) (i : Nat) : State :=
  let r := s.region i
  let bytes := r.read 0 r.page.sealedLen
  match r.header i with
  | none => s
  | some h =>
    let ucode := h.section_ bytes 2
    s.modBoot fun b =>
      { b with
        running := i, fwVersion := h.number, directory := parseDirectory (h.section_ bytes 4)
        programs := parsePrograms (h.section_ bytes 3).length (h.section_ bytes 3)
        ucode := ucode, ucodeVersion := field ucode 4 2, ucodeBad := !microcodeOk ucode }

/-- The failed-start decision and the selection (R342, R359); straps that are taken otherwise are logged under entries the spec
does not name (R330, R344; log entry 25). -/
def State.decideStart (s : State) : State :=
  let s := if bits s.power.strapRaw 1 0 = 3 then s.logFree else s
  let s := if bits s.power.strapRaw 3 2 = 3 ∧ s.life.state ≠ .testUnlocked ∧ s.life.state ≠ .testLocked then s.logFree else s
  if s.bootSel = 2 then s.enterFallow 2
  else if s.boot.limitN ≤ s.boot.failCount then s.enterFallow 1
  else if !s.slotList.any s.slotPasses then s.enterFallow 3
  else
    let s := s.modBoot fun b => { b with failCount := b.failCount + 1, fallowWhy := 0 }
    match s.selectSlot s.boot.failCount with
    | some i => ((s.runSlot i).modPower fun p => { p with phase := .chosen }).logStart
    | none => s.enterFallow 3

/-- After the root-secret check: the lock service, or the RESEAL pass and the rest of the start (R357, R419). -/
def State.continueStart (s : State) : State := if s.lockHeld then s.startLocked else s.resealPass.decideStart

/-- The root secret is checked in the states that have one (R303). -/
def State.checkRoot (s : State) : State :=
  if (s.life.state = .manufactured ∨ s.life.state = .owned ∨ s.life.state = .returned) ∧ !s.vault.rootValid then
    s.modPower fun p => { p with phase := .renewing }
  else s.continueStart

/-- The states that run no image: the factory service and the reporting of a scrapped device (R400). -/
def State.dispatchStart (s : State) : State :=
  let factory := decide (s.life.state = .raw ∨ s.life.state = .testUnlocked ∨ s.life.state = .testLocked) ||
    (decide (s.life.state = .returned) && s.life.wiped && s.life.tapFactory)
  if factory then s.modPower fun p => { p with phase := .factory }
  else if s.life.state = .scrapped then s.modPower fun p => { p with phase := .scrapped }
  else s.checkRoot

/-- The scan of the log ring: a torn entry is discarded and reported (R438). -/
def State.scanLog (s : State) (torn : Bool) : State :=
  if torn then (s.log 0x7005 (leBytes 8 s.hzn.next)).event .hzn 4 else s

/-- TIME of the last entry. -/
def Horizon.lastTime (h : Horizon) : Nat :=
  if h.next = 0 then 0 else match h.entries.find? (h.next - 1) with | some e => e.time | none => 0

/-- The life-cycle duties: an unfinished wipe is repeated before anything else, and a stored request is checked again, then
carried out or discarded (R403, R405). -/
def State.lifeDuties (s : State) (cut : Option Bool) : State :=
  let s := s.modLife Life.decide_
  let s := if s.life.abandoned then s.event .lcs 4 else s
  let keys := match s.life.request with | some r => slice r 0x40 128 | none => []
  let s := if s.life.inForce.isSome ∧ !s.life.wiped ∧ !s.life.decideFail then s.lcWipe keys else s
  match s.life.request with
  | none => s
  | some r =>
    if s.lcVerdict r = Status.ok then s.transition r cut
    else (s.modLife fun l => { l with request := none }).event .lcs 2

/-- FULL_RESET_START: the loam cores run the immutable duties. `torn` says whether the log's last write was cut short, `condKat`
whether the conditioner passes its known-answer test (R286), `cut` where a power loss stops a transition (R405), and `bad`
how many OTP positions fail during the latch transfer. -/
def execFullResetStart (torn condKat : Bool) (cut : Option Bool) (bad : Nat) (s : State) : Result :=
  .next (
    if s.power.phase ≠ .booting then s
    else
      let s := if condKat then s else s.rngFail
      let s := s.scanLog torn
      let s := if s.power.rtcLost then
        (s.log 0x7001 (leBytes 6 s.hzn.lastTime)).modPower fun p => { p with rtcLost := false } else s
      let s := s.lifeDuties cut
      if s.power.phase ≠ .booting then s
      else
        let s := s.transferLatch bad
        let s := s.modLife fun l => { l with latch := l.permissions }
        let s := if s.tamper.unlocked then
          (s.event .tmp 4).modTamper fun t => { t with unlocked := false } else s
        s.dispatchStart)

/-- ROOT_SECRET_RENEWAL: with the first seed, a new root secret; the shelf is erased, the DeviceID certificate discarded, and
every artefact is due for resealing (R303, R357). -/
def execRootSecretRenewal (s : State) : Result :=
  .next (
    if s.power.phase ≠ .renewing ∨ !s.rng.firstSeed then s
    else
      let s := s.newRoot.modVault fun v => { v with shelf := [], rootRenewed := true, deviceCert := [] }
      let s := (s.event .key 8).log 0x3003 []
      (s.modBoot fun b => { b with reseal := true }).continueStart)

/-- SEAL_CHECK_START: the seal check of the running slot starts on DS0, whose masking takes a priority-2 seed (R256, R287, R338). -/
def execSealCheckStart (s : State) : Result :=
  .next (
    if s.power.phase = .chosen ∧ s.rng.firstSeed then (s.takeSeed.1).modPower fun p => { p with phase := .sealing } else s)

/-! The tilth record (R363, R365). -/

/-- The slots that the record gives an owner or the system: those UNASSIGNED in the state area (R309). -/
def State.assignSlots (s : State) (t : Tilth) : State :=
  t.slots.foldl (fun s e =>
    if (s.vault.owned.find? e.1).isSome then s
    else s.modSlot e.1 fun _ => { state := .empty, owner := if e.2.2 then 0 else e.2.1, system := e.2.2 }) s

/-- The slots of the state area (R309). -/
def State.ownedSlots (s : State) : State :=
  s.vault.owned.foldl (fun s e => s.modSlot e.1 fun _ => { state := .empty, owner := e.2.1, system := e.2.2 }) s

/-- The tamper settings of the record: every source, and the window (R411, R416). -/
def State.applyTamper (s : State) (t : Tilth) : State :=
  let s := match t.tamper with
    | some m => (List.range 16).foldl (fun (s : State) k => s.setTamper k (m.get k (tamperDefault k))) s
    | none => (List.range 16).foldl (fun (s : State) k => s.setTamper k (tamperDefault k)) s
  s.modTamper fun x => { x with battWindow := t.tempWindow }

/-- The guard takes the record: sieve, release plan, and the channels that hold an image (R373, R381, R386). Holds of mode UNUSED
go low (R372). -/
def State.applyGuard (s : State) (t : Tilth) : State :=
  let unused := maskOf ((List.range 8).filter fun k => decide ((t.holds.get k {}).mode = 0))
  s.modPgd fun g => { g with
    ops := t.sieveOps.getD [], rules := t.sieveRules, sieveEn := t.sieveEn
    level := g.level &&& (0xFF - unused), autoDue := s.autoHolds
    chans := ((t.flash.filter fun (_, f) => decide (0 < f.blocks)).map fun (c, _) => (c, { state := .init : Chan })) }

/-- Apply a valid copy. -/
def State.applyTilth (s : State) (i : Nat) (t : Tilth) : State :=
  let s := s.modBoot fun b =>
    { b with
      tilth := some t, tilthCopy := i - 3, otherValid := s.tilthValid (7 - i), tilthFloor := t.sequence, limitN := t.limitN }
  let s := t.tenants.foldl (fun s e => s.modTenant e.1 fun _ => { state := .active, tpt := e.2 }) s
  ((s.ownedSlots.assignSlots t).applyTamper t).applyGuard t

/-- The SEQUENCE of a copy. -/
def State.tilthSequence (s : State) (i : Nat) : Nat := match (s.region i).header i with | some h => h.number | none => 0

/-- The contents of a copy. -/
def State.tilthContents (s : State) (i : Nat) : Option Tilth :=
  let r := s.region i
  (r.header i).bind fun h => s.readTilth (r.read 0 r.page.sealedLen) h

/-- The valid copies, contents included. -/
def State.goodTilths (s : State) : List Nat := [3, 4].filter fun i => s.tilthValid i && (s.tilthContents i).isSome

/-- The valid copy with the greater SEQUENCE (R365). -/
def State.bestTilth (s : State) : Option Nat :=
  match s.goodTilths with
  | [a, b] => some (if s.tilthSequence a < s.tilthSequence b then b else a)
  | [a] => some a
  | _ => none

/-- Core 0 reads the record: the valid copy with the greater SEQUENCE is applied; a copy that fails is reported. Without one the
start never becomes healthy (R365). -/
def State.readTilthCopies (s : State) : State :=
  let valid := s.goodTilths
  let failed := [3, 4].any fun i => decide ((s.region i).page.state ≠ .empty) && !valid.contains i
  let s := if failed then s.event .boot 8 else s
  match s.bestTilth with
  | some i => match s.tilthContents i with | some t => s.applyTilth i t | none => s
  | none => s

/-- SEAL_CHECK_DONE: on a match the output gate opens, entries that waited are written, the Alias identity exists, and the tilth
record is read; on a mismatch the slot is BAD and a full reset follows (R360, R362, R365). -/
def execSealCheckDone (s : State) : Result :=
  .next (
    if s.power.phase ≠ .sealing then s
    else if !s.sealChecks s.boot.running then
      let s := s.modRegion s.boot.running fun r => { r with page := { r.page with state := .bad } }
      (s.innerReset causeBringup).event .boot 1
    else
      let s := (s.modPower fun p => { p with phase := .gateOpen }).modBoot fun b => { b with gateOpen := true }
      s.logFlush.readTilthCopies.newAlias)

/-! Topsoil power-up. -/

/-- Step 3 is done, or a service of the immutable boot code powers the topsoil (R338, R343, R400, R419). -/
def State.topsoilWanted (s : State) : Bool :=
  match s.power.phase with
  | .gateOpen => s.boot.tilth.isSome && !s.boot.ucodeBad
  | .fallow | .lockService | .scrapped => true
  | _ => false

/-- Two link keys and three key-encryption keys, each a priority-2 seed (R11, R305). -/
def State.drawKeys (s : State) : State :=
  let s := (List.range 5).foldl (fun s _ => s.takeSeed.1) s
  s.modVault fun v => { v with slotKekValid := true, cacheKekValid := true, ctxKekValid := true }

/-- The topsoil's units after its release: grains of tenants IDLE with expanders that reseed first, and all present beds wanted
where jobs can run (R116, R332, R337). -/
def State.releaseUnits (s : State) : State :=
  let s := { s with
    grains := ((List.range 1024).filter fun g => s.grainPresent g).map fun g =>
      (g, { state := if (s.grainTenant g).isSome then .idle else .unowned, expander := Expander.spent : Grain }) }
  if s.power.phase ≠ .gateOpen then s
  else
    let s := (List.range 64).foldl (fun s b => if s.bedPresent b then s.modBed b fun x => { x with wakeWanted := true } else s) s
    let s := (List.range 4).foldl (fun s q => if s.tilth.keepPll.testBit q then s.modQuad q fun x => { x with pllRun := true } else s) s
    let s := s.modRng fun r => { r with
      keyPorts := (List.range 4).map fun q => (q, Expander.spent)
      waiting := r.waiting ++ ((List.range 1024).filter fun g => s.grainPresent g).map SeedReq.grain ++
        (List.range 4).map SeedReq.keyPort }
    s.serve.logUnstaged

/-- TOPSOIL_POWER_UP: with every topsoil supply valid and PCIE_REFCLK 0 present, after the first seed, the fabric is released with
fresh link keys, and link training is permitted (R11, R327, R338). -/
def execTopsoilPowerUp (supplies : Nat) (refclk0 : Bool) (s : State) : Result :=
  .next (
    let s := s.modPower fun p => { p with valid := p.valid / 16 * 16 + supplies % 16, refclk0 := refclk0 }
    if !s.topsoilWanted ∨ s.power.topsoilUp ∨ s.power.valid % 16 ≠ 15 ∨ !refclk0 ∨ !s.rng.firstSeed then s
    else
      let s := s.drawKeys.modPower fun p => { p with topsoilUp := true, pciePermitted := true }
      let s := s.modGlb fun g => { g with linkDown := false, rngReady := decide (s.rng.state = .ready), lastSettled := true }
      let s := s.modVault fun v => { v with shelfLoading := decide (s.power.phase = .gateOpen) && !v.shelf.isEmpty }
      s.releaseUnits)

/-- START_OK: link training is permitted and the shelf restored; the count returns to 0, a fallback is recorded, and a pending
SVN raise is carried out at the activated image's first healthy start (R338, R342, R361, R366). -/
def execStartOk (s : State) : Result :=
  .next (
    if s.power.phase ≠ .gateOpen ∨ !s.power.topsoilUp ∨ s.boot.tilth = none ∨ s.vault.shelfLoading ∨ s.glb.startOk ∨ !s.mramOk then s
    else
      let run := s.boot.running
      let svn := match (s.region run).header run with | some h => h.svn | none => 0
      let activated := s.boot.svnRaise ∧ run = s.boot.primary
      let fallback := run ≠ s.boot.primary
      let s := s.modGlb fun g => { g with startOk := true }
      let s := s.modBoot fun b => { b with
        failCount := 0
        primary := if run < 2 then run else b.primary
        svnFloor := if activated then max b.svnFloor svn else b.svnFloor
        svnRaise := if activated then false else b.svnRaise }
      if fallback then s.event .boot 16 else s)

end Sys2Proof.Machine
end

