-- ==== Sys2Proof/Machine/Install.lean ====
section
/-!
DEFINITION. Installing, activating and revoking images and tilth records (R361, R366 to R370).
-/
namespace Sys2Proof.Machine

/-! Targets. -/

/-- The tilth copy that a commit may replace: the one not in force. While none is in force, as in fallow mode, it is the one that
a start would not apply (log entry 36). -/
def State.spareTilth (s : State) : Nat :=
  if s.boot.tilth.isSome then 4 - s.boot.tilthCopy
  else match s.bestTilth with | some i => 7 - i | none => 3

/-- The region of a TARGET: slot A, B or golden, or a tilth copy. -/
def State.targetRegion (s : State) (target : Nat) : Nat := if target < 3 then target else s.spareTilth

/-- A slot is SEALED under a programmed, unrevoked signer. -/
def State.slotSigned (s : State) (i : Nat) : Bool :=
  decide ((s.region i).page.state = .sealedPage) && s.keyLive (s.region i).page.signer

/-- IMAGE_BEGIN (R367). -/
def State.imageBegin (s : State) (target len : Nat) : State × Answer :=
  let i := s.targetRegion target
  if 3 < target ∨ (target < 3 ∧ target = s.boot.running) ∨ regionRoom i < len ∨ s.boot.install.isSome then
    (s, .no Status.inputInvalid)
  else if target < 3 ∧ s.slotSigned i ∧ !([0, 1, 2].any fun k => decide (k ≠ i) && s.slotSigned k) then
    (s, .no Status.revokeStrands)
  else
    let s := s.modRegion i fun r => { r with page := { r.page with state := .writing } }
    (s.modBoot fun b => { b with install := some ⟨target, len⟩ }, .ok)

/-- Bytes written to a region from `off`. -/
def Region.write (r : Region) (off : Nat) (bytes : List Byte) : Region :=
  { r with bytes := (bytes.zipIdx off).foldl (fun m x => m.set x.2 x.1 0) r.bytes }

/-- IMAGE_DATA (R367). -/
def State.imageData (s : State) (off : Nat) (bytes : List Byte) : State × Answer :=
  match s.boot.install with
  | none => (s, .no Status.inputInvalid)
  | some x =>
    if bytes.length = 0 ∨ 1024 < bytes.length ∨ x.len < off + bytes.length then (s, .no Status.inputInvalid)
    else (s.modRegion (s.targetRegion x.target) fun r => r.write off bytes, .ok)

/-! Commit. -/

/-- Format and sections of an image (R352, R353). -/
def imageFormat (h : ImgHeader) (b : List Byte) (golden : Bool) : Bool :=
  decide (h.len % 64 = 0 ∧ h.svn < 128 ∧ h.flags < 2 ∧ h.countOf 1 = 1 ∧ h.countOf 2 = 1) && headerReservedOk b false &&
  sectionsOk h && h.sections.all (fun x => decide (1 ≤ x.type ∧ x.type ≤ 5)) && (!golden || h.flags.testBit 0)

/-- Format and sections of a record (R363). -/
def recordFormat (h : ImgHeader) (b : List Byte) : Bool :=
  decide (h.len % 64 = 0 ∧ h.flags = 0) && headerReservedOk b true && sectionsOk h && tilthSectionsOk h

/-- The verdict on the bytes that an install has delivered to region `i`: OK, INPUT_INVALID, KEY_DENIED or VERIFY_FAIL. -/
def State.commitVerdict (s : State) (i len : Nat) : Nat :=
  let b := (s.region i).read 0 len
  match (s.region i).header i with
  | none => Status.inputInvalid
  | some h =>
    let inForce := match s.boot.tilth with
      | some t => some t.sequence
      | none => s.bestTilth.map s.tilthSequence
    let good := if isTilth i then
        recordFormat h b && (match inForce with | some n => decide (n < h.number) | none => true) && (s.readTilth b h).isSome
      else imageFormat h b (decide (i = 2)) && decide (s.boot.svnFloor ≤ h.svn)
    if !good ∨ h.sealedLen ≠ len ∨ !s.uidOk h.uidBind then Status.inputInvalid
    else if !s.signerOk i h.signer then Status.keyDenied
    else if s.signaturesOk i h b then Status.ok
    else Status.verifyFail

/-- IMAGE_COMMIT (R367): the control page is written last, with the seal. A refused commit leaves the target WRITING and the
install open. -/
def State.imageCommit (s : State) : State × Answer :=
  match s.boot.install with
  | none => (s, .no Status.inputInvalid)
  | some x =>
    let i := s.targetRegion x.target
    let verdict := s.commitVerdict i x.len
    if verdict ≠ Status.ok then (s, .no verdict)
    else match (s.region i).header i with
      | none => (s, .no Status.inputInvalid)
      | some h =>
        let s := s.tick
        let svn := if isTilth i then 0 else h.svn
        let page : CtrlPage :=
          { state := .sealedPage, signer := h.signer, svn := svn, sealedLen := x.len
            installs := satAdd 0xFFFFFFFF (s.region i).page.installs 1
            sealVal := s.sealOf i h.signer svn ((s.region i).read 0 x.len), installTime := s.rtc }
        let s := s.modRegion i fun r => { r with page := page }
        let owner := isTilth i && decide (4 ≤ h.signer)
        let s := s.modBoot fun b => { b with install := none, ownerTilth := b.ownerTilth || owner }
        (s.event .boot 2, .ok)

/-! Activation (R366, R367). -/

/-- SVN of what stands SEALED in a slot. -/
def State.slotSvn (s : State) (i : Nat) : Nat := (s.region i).page.svn

/-- IMAGE_ACTIVATE. -/
def State.imageActivate (s : State) (primary : Nat) (raiseSvn : Bool) : State × Answer :=
  if 1 < primary ∨ (s.region primary).page.state ≠ .sealedPage then (s, .no Status.inputInvalid)
  else if raiseSvn ∧ ((s.region 2).page.state ≠ .sealedPage ∨ s.slotSvn 2 < s.slotSvn primary) then
    (s, .no Status.revokeStrands)
  else (s.modBoot fun b => { b with primary := primary, svnRaise := b.svnRaise || raiseSvn }, .ok)

/-! Revocation (R368). -/

/-- What stands in the store under a revoked entry is no longer accepted. -/
def State.dropSigned (s : State) (k : Nat) : State :=
  (List.range 5).foldl (fun s i =>
    let p := (s.region i).page
    if p.state ≠ .sealedPage ∨ p.signer ≠ k then s
    else if isTilth i then s.modRegion i fun r => { r with page := {} }
    else s.modRegion i fun r => { r with page := { r.page with state := .bad } }) s

/-- A slot and a tilth copy with an accepted signer stand. -/
def State.startable (s : State) : Bool :=
  ([0, 1, 2].any fun i => decide ((s.region i).page.state = .sealedPage) && s.imageSigner (s.region i).page.signer) &&
  [3, 4].any s.tilthValid

/-- The pair on BOOT_REVOKE. -/
def revokePair (_off : Nat) (v : W32) (s : State) : State × GuardResult :=
  let k := bits v.toNat 2 0
  if !s.keyLive k then (s, .applied)
  else
    let t := s.modBoot fun b => { b with revoked := b.revoked ||| 2 ^ k }
    if !t.startable then (s, .revokeStrands) else ((t.dropSigned k).event .boot 4, .applied)

/-- BOOT_REVOKE: the second write of the pair. -/
def execBootRevoke (r : Requester) (off : Nat) (complement : W32) (s : State) : Result :=
  .next (s.guardPair r [gdRevoke] off complement revokePair)

/-- REVOKE_ARM (R367). -/
def State.revokeArm (s : State) (v : Via) (entry : Nat) (value : W32) : State × Answer :=
  if !s.keyLive entry ∨ 7 < entry then (s, .no Status.inputInvalid) else s.arm v gdRevoke value revokePair

end Sys2Proof.Machine
end

