-- ==== Sys2Proof/Machine/LvNtt.lean ====
section
/-!
DEFINITION. The NTT stages and butterflies of LVB (R153).
-/
namespace Sys2Proof.Machine

/-- The twiddle ζk of the forward table of a modulus (R153). -/
def zeta (m : Nat) (n1024 : Bool) (k : Nat) : Nat :=
  match m with
  | 1 => powMod 17 (bitRev 7 k) 3329
  | 2 => powMod 1753 (bitRev 8 k) 8380417
  | _ => if n1024 then powMod 7 (bitRev 10 k) 12289 else powMod 49 (bitRev 9 k) 12289

/-- The number of coefficients that a stage works on. -/
def nttSize (m : Nat) : Nat := if m = 3 then 512 else 256

/-- Element `i` of a vector. -/
def at0 (xs : List Nat) (i : Nat) : Nat := (xs[i]?).getD 0

/-- A forward stage: block by block of 2·len, the top gets s1[j] + t and the bottom s1[j] − t. -/
def nttStage (m : Nat) (n1024 : Bool) (h l : Nat) (xs : List Nat) : List Nat :=
  let q := modulusOf 0 m
  let n := nttSize m
  let len := if m = 3 ∧ n1024 then 512 >>> l else (n / 2) >>> l
  let k0 := 2 ^ l + (if n1024 then h <<< (l - 1) else 0)
  (List.range n).map fun i =>
    let blk := i / (2 * len)
    let j := i % (2 * len)
    let z := zeta m n1024 (k0 + blk)
    if j < len then (at0 xs i + z * at0 xs (i + len)) % q
    else (at0 xs (i - len) + q * (at0 xs i + 1) - z * at0 xs i % q) % q

/-- An inverse stage. -/
def invNttStage (m : Nat) (n1024 : Bool) (h l : Nat) (xs : List Nat) : List Nat :=
  let q := modulusOf 0 m
  let n := nttSize m
  let nt := if m = 3 then (if n1024 then 1024 else 512) else 256
  let len := if m = 1 then 2 <<< l else 1 <<< l
  (List.range n).map fun i =>
    let blk := i / (2 * len)
    let j := i % (2 * len)
    let z := zeta m n1024 (nt / len - 1 - blk - (if n1024 then h * (512 / len) / 2 else 0))
    if j < len then (at0 xs i + at0 xs (i + len)) % q
    else z * ((at0 xs i + q * (at0 xs (i - len) + 1) - at0 xs (i - len)) % q) % q

/-- The fixed VL and EW of a stage. -/
def nttShape (m vl ew : Nat) : Bool :=
  match m with
  | 1 => decide (vl = 256 ∧ ew = 16)
  | 2 => decide (vl = 256 ∧ ew = 32)
  | 3 => decide (vl = 512 ∧ ew = 16)
  | _ => false

/-- The layers of a stage: 0 to 6, 0 to 7, 0 to 8, and for a half of n = 1,024 1 to 9 forward or 0 to 8 inverse. -/
def nttLayerOk (m : Nat) (src2 : BitVec 4) (inverse : Bool) (l : Nat) : Bool :=
  match m with
  | 1 => decide (src2 = 0 ∧ l ≤ 6)
  | 2 => decide (src2 = 0 ∧ l ≤ 7)
  | 3 =>
    match src2.toNat with
    | 0 => decide (l ≤ 8)
    | 2 | 3 => if inverse then decide (l ≤ 8) else decide (1 ≤ l ∧ l ≤ 9)
    | _ => false
  | _ => false

/-- The checks of a stage; with VL = 0 the fixed VL does not count (R148). -/
def legalNtt (o : LvOps) (inverse : Bool) (layer : BitVec 4) (c : GCtx) (G : Grain) : Bool :=
  let m := o.modulus.toNat
  decide (o.sh.toNat ≤ 1) && decide (o.pred = 0) && modOk G.ew m &&
  (nttShape m G.regs.vl G.ew || decide (G.regs.vl = 0)) && nttLayerOk m o.src2 inverse layer.toNat &&
  G.checkGroups c o.sh.toNat G.grp G.beats (lreg o.dst) G.grp [lreg o.src1]

/-- A stage over the planes of SH: every stage is linear. -/
def nttEffect (stage : Nat → Bool → Nat → Nat → List Nat → List Nat) (o : LvOps) (layer : BitVec 4) (c : GCtx)
    (G : Grain) : Grain :=
  (shPlanes c o.sh).foldl (fun acc p =>
    acc.writeAll p (lreg o.dst)
      (stage o.modulus.toNat (o.src2.getLsbD 1) (o.src2.toNat % 2) layer.toNat (G.vec p (lreg o.src1)))) G

def execVntts (g : Nat) (o : LvOps) (layer : BitVec 4) (trouble : GrainTrouble) (s : State) : Result :=
  .next (s.runGrain g (encLv2 0x3A o (0x00 + layer.toNat)) (lvInstr (legalNtt o false layer) (microcoded trouble fun c G =>
    .ok (nttEffect nttStage o layer c G))))
def execVintts (g : Nat) (o : LvOps) (layer : BitVec 4) (trouble : GrainTrouble) (s : State) : Result :=
  .next (s.runGrain g (encLv2 0x3A o (0x10 + layer.toNat)) (lvInstr (legalNtt o true layer) (microcoded trouble fun c G =>
    .ok (nttEffect invNttStage o layer c G))))

/-- The checks of a butterfly: two output groups from DST, sources SRC1, SRC2 and the W register. -/
def legalButterfly (o : LvOps) (wreg : BitVec 4) (c : GCtx) (G : Grain) : Bool :=
  let m := o.modulus.toNat
  decide (1 ≤ m ∧ m ≤ 3) && modOk G.ew m && decide (o.sh.toNat ≤ 1) && decide (o.pred = 0) &&
  G.checkGroups c o.sh.toNat G.grp G.beats (lreg o.dst) (2 * G.grp) [lreg o.src1, lreg o.src2, lreg wreg]

/-- A butterfly over the planes of SH: `f q a b w` gives the top and the bottom. -/
def butterfly (o : LvOps) (wreg : BitVec 4) (f : Nat → Nat → Nat → Nat → Nat × Nat) (c : GCtx) (G : Grain) : Grain :=
  (shPlanes c o.sh).foldl (fun acc p =>
    let a := G.vec p (lreg o.src1)
    let b := G.vec p (lreg o.src2)
    let w := G.vec .a (lreg wreg)
    let r := (List.range G.regs.vl).map fun i => f G.ew (at0 a i) (at0 b i) (at0 w i)
    (acc.writeAll p (lreg o.dst) (r.map Prod.fst)).writeAll p (lreg o.dst + G.grp) (r.map Prod.snd)) G

def execVbfct (g : Nat) (o : LvOps) (wreg : BitVec 4) (s : State) : Result :=
  .next (s.runGrain g (encLv2 0x3A o (0x20 + wreg.toNat)) (lvInstr (legalButterfly o wreg) fun c G =>
    .ok (butterfly o wreg (fun ew a b w =>
      let m := o.modulus.toNat
      let t := montMul ew m w b
      (modAdd ew m a t, modSub ew m a t)) c G)))
def execVbfgs (g : Nat) (o : LvOps) (wreg : BitVec 4) (s : State) : Result :=
  .next (s.runGrain g (encLv2 0x3A o (0x30 + wreg.toNat)) (lvInstr (legalButterfly o wreg) fun c G =>
    .ok (butterfly o wreg (fun ew a b w =>
      let m := o.modulus.toNat
      (modAdd ew m a b, montMul ew m (modSub ew m b a) w)) c G)))

end Sys2Proof.Machine
end

