-- ==== Sys2Proof/Machine/LvMem.lean ====
section
/-!
DEFINITION. Long-vector loads, stores and the LVP unit (R154, R155).
-/
namespace Sys2Proof.Machine

/-- EA = X(XBASE) + 64 · OFF (R154). -/
def lmAddress (G : Grain) (xbase : Reg) (off : BitVec 11) : Nat :=
  (G.x xbase.toNat + (off.signExtend 64 <<< 6)).toNat

/-- The elements of a block of DM. -/
def blockElems (ew vl : Nat) (bs : List Byte) : List Nat := elems ew vl (leNat bs)

/-- The planes a load or store moves, with the distance of each from EA in blocks (R154). -/
def lmPlanes (sh : BitVec 2) : List (Pl × Nat) :=
  match sh.toNat with
  | 0 => [(.a, 0)]
  | 1 => [(.a, 0), (.b, 1)]
  | 2 => [(.b, 0)]
  | _ => [(.c, 0)]

/-- The checks of VLD and VST: SH 11 exists at MASK_ORDER 2 only. -/
def legalLm (lr : BitVec 4) (sh : BitVec 2) (c : GCtx) (G : Grain) : Bool :=
  nameable c (lreg lr) && decide (lreg lr % G.grp = 0) && (decide (sh ≠ 3) || c.order2)

/-- The bytes that a load or store moves. -/
def lmSpan (G : Grain) (sh : BitVec 2) : Nat := 64 * G.beats * (lmPlanes sh).length

def execVld (g : Nat) (lr : BitVec 4) (xbase : Reg) (pred : BitVec 3) (sh : BitVec 2) (off : BitVec 11) (ecc : Bool)
    (s : State) : Result :=
  .next (s.runGrain g (encLM lr xbase pred sh false off) (lvInstr (fun c G => legalLm lr sh c G &&
      (!G.anyPublic (lreg lr) G.grp ||
        (decide (sh = 0) && !keyRegion (lmAddress G xbase off) (lmSpan G sh)))) fun _ G => do
    let ea := lmAddress G xbase off
    need (ea % 64 = 0 ∧ canRead ea (lmSpan G sh) = true) causeDmBounds
    if ecc then .error (.machine causeMemEcc)
    else .ok ((lmPlanes sh).foldl (fun acc pl =>
      acc.writeVec pred.toNat pl.1 (lreg lr)
        (blockElems G.ew G.regs.vl (G.bytes (ea + 64 * G.beats * pl.2) (64 * G.beats)))) G)))

/-- Write elements to memory, skipping those that are inactive. -/
def Grain.storeElems (G : Grain) (pred ew : Nat) : Nat → Nat → List Nat → Grain
  | _, _, [] => G
  | a, i, x :: xs =>
    Grain.storeElems (if G.active pred i then G.store a (leBytes (ew / 8) x) else G) pred ew (a + ew / 8) (i + 1) xs

def execVst (g : Nat) (lr : BitVec 4) (xbase : Reg) (pred : BitVec 3) (sh : BitVec 2) (off : BitVec 11) (s : State) :
    Result :=
  .next (s.runGrain g (encLM lr xbase pred sh true off) (lvInstr (legalLm lr sh) fun _ G => do
    let ea := lmAddress G xbase off
    need (ea % 64 = 0 ∧ canWrite ea (lmSpan G sh) = true) causeDmBounds
    .ok ((lmPlanes sh).foldl (fun acc pl =>
      acc.storeElems pred.toNat G.ew (ea + 64 * G.beats * pl.2) 0 (G.vec pl.1 (lreg lr))) G)))

/-! LVP (R155). -/

/-- MOD is 0 and SH is one of those listed. -/
def lvpMode (m : BitVec 3) (sh : BitVec 2) (shs : List Nat) : Bool := decide (m = 0) && shs.contains sh.toNat

def execVmov (g : Nat) (o : LvUnary) (s : State) : Result :=
  .next (s.runGrain g (encLv1 0x3B o 0x00) (lvInstr (legalUnary [0] [0, 1] o) fun c G => .ok (lvMap o id c G)))

/-- The indices of active elements are below VL, or INDEX_RANGE is raised. -/
def indicesOk (G : Grain) (pred : Nat) (idx : List Nat) : Bool :=
  (List.range G.regs.vl).all fun i => !G.active pred i || decide (at0 idx i < G.regs.vl)

/-- VGATHER: d[i] ← s1[s2[i]] on every plane of SH. -/
def execVgather (g : Nat) (o : LvOps) (s : State) : Result :=
  .next (s.runGrain g (encLv2 0x3B o 0x01) (lvInstr (legalBinary [0] [0, 1] o) fun c G => do
    let idx := G.vec .a (lreg o.src2)
    need (indicesOk G o.pred.toNat idx = true) causeIndexRange
    .ok ((shPlanes c o.sh).foldl (fun acc p =>
      acc.writeVec o.pred.toNat p (lreg o.dst) (idx.map (at0 (G.vec p (lreg o.src1))))) G)))

/-- Scatter active elements in order, so that the highest i wins; the others keep their value. -/
def scatterVec (active : Nat → Bool) (idx xs : List Nat) (old : List Nat) : List Nat :=
  (List.range idx.length).foldl (fun acc i => if active i then acc.set (at0 idx i) (at0 xs i) else acc) old

def execVscatter (g : Nat) (o : LvOps) (s : State) : Result :=
  .next (s.runGrain g (encLv2 0x3B o 0x02) (lvInstr (legalBinary [0] [0, 1] o) fun c G => do
    let idx := G.vec .a (lreg o.src2)
    need (indicesOk G o.pred.toNat idx = true) causeIndexRange
    .ok ((shPlanes c o.sh).foldl (fun acc p =>
      acc.writeAll p (lreg o.dst)
        (scatterVec (G.active o.pred.toNat) idx (G.vec p (lreg o.src1)) (G.vec p (lreg o.dst)))) G)))

/-- VCOMPACT: the active elements in order, then zeros; X(SRC2 field) takes their number. -/
def execVcompact (g : Nat) (o : LvOps) (s : State) : Result :=
  .next (s.runGrain g (encLv2 0x3B o 0x03) (lvInstr (fun c G => lvpMode o.modulus o.sh [0, 1] &&
      G.checkGroups c o.sh.toNat G.grp G.beats (lreg o.dst) G.grp [lreg o.src1]) fun c G =>
    let keep := (List.range G.regs.vl).filter (G.active o.pred.toNat)
    let G' := (shPlanes c o.sh).foldl (fun acc p =>
      acc.writeAll p (lreg o.dst) (keep.map (at0 (G.vec p (lreg o.src1))))) G
    .ok (G'.setX o.src2.toNat (BitVec.ofNat 64 keep.length))))

/-- Insert by key, an equal key staying behind those before it. -/
def insertByKey (k : Nat × Nat) : List (Nat × Nat) → List (Nat × Nat)
  | [] => [k]
  | x :: xs => if k.1 < x.1 then k :: x :: xs else x :: insertByKey k xs
/-- Positions 0 to n − 1 ordered by key, ties by position. -/
def orderByKey (keys : List Nat) : List Nat :=
  ((keys.zip (List.range keys.length)).foldl (fun acc k => insertByKey k acc) []).map Prod.snd

/-- VPERMGEN: a permutation of 0 to VL − 1, each element keyed by 32 free bits from the mask expander. -/
def execVpermgen (g : Nat) (o : LvUnary) (trouble : GrainTrouble) (s : State) : Result :=
  .next (s.runGrain g (encLv1 0x3B o 0x04) (lvInstr (fun c G => lvpMode o.modulus o.sh [0] && decide (o.src1 = 0) && decide (o.pred = 0) &&
      decide (G.regs.vl ≤ 512) && !G.anyPublic (lreg o.dst) G.grp &&
      G.checkGroups c 0 G.grp G.beats (lreg o.dst) G.grp []) (microcoded trouble fun c G => do
    let G ← G.draw ((G.regs.vl + 7) / 8)
    .ok (G.writeAll .a (lreg o.dst)
      (orderByKey ((List.range G.regs.vl).map fun i => Config.freeNat c.free i % 2 ^ 32))))))

/-- The element addresses of a gather or scatter in DM. -/
def elemAddresses (G : Grain) (base : Nat) (idx : List Nat) : List Nat :=
  idx.map fun k => (base + k * (G.ew / 8)) % 2 ^ 64

/-- VGATHERM: d[i] ← DM[X(SRC1 field) + s2[i] · EW / 8]. -/
def execVgatherm (g : Nat) (o : LvOps) (ecc : Bool) (s : State) : Result :=
  .next (s.runGrain g (encLv2 0x3B o 0x05) (lvInstr (fun c G => lvpMode o.modulus o.sh [0] &&
      G.checkGroups c 0 G.grp G.beats (lreg o.dst) G.grp [lreg o.src2]) fun _ G => do
    let base := (G.x o.src1.toNat).toNat
    let addr := elemAddresses G base (G.vec .a (lreg o.src2))
    let n := G.ew / 8
    let ok := (List.range G.regs.vl).all fun i => !G.active o.pred.toNat i ||
      (canRead (at0 addr i) n && !(G.anyPublic (lreg o.dst) G.grp && keyRegion (at0 addr i) n))
    need (base % n = 0 ∧ ok = true) causeIndexRange
    if ecc then .error (.machine causeMemEcc)
    else .ok (G.writeVec o.pred.toNat .a (lreg o.dst) (addr.map fun a => leNat (G.bytes a n)))))

/-- VSCATTERM: DM[X(DST field) + s2[i] · EW / 8] ← s1.a[i]; the highest i wins. -/
def execVscatterm (g : Nat) (o : LvOps) (s : State) : Result :=
  .next (s.runGrain g (encLv2 0x3B o 0x06) (lvInstr (fun c G => lvpMode o.modulus o.sh [0] &&
      nameable c (lreg o.src1) && nameable c (lreg o.src2) &&
      decide (lreg o.src1 % G.grp = 0 ∧ lreg o.src2 % G.grp = 0)) fun _ G => do
    let base := (G.x o.dst.toNat).toNat
    let addr := elemAddresses G base (G.vec .a (lreg o.src2))
    let n := G.ew / 8
    let ok := (List.range G.regs.vl).all fun i => !G.active o.pred.toNat i || canWrite (at0 addr i) n
    need (base % n = 0 ∧ ok = true) causeIndexRange
    let x := G.vec .a (lreg o.src1)
    .ok ((List.range G.regs.vl).foldl (fun acc i =>
      if G.active o.pred.toNat i then acc.store (at0 addr i) (leBytes n (at0 x i)) else acc) G)))

/-- VEXT: X(DST field) ← s1[X(SRC2 field)]; s1 must be public. -/
def execVext (g : Nat) (o : LvOps) (s : State) : Result :=
  .next (s.runGrain g (encLv2 0x3B o 0x08) (lvInstr (fun c G => lvpMode o.modulus o.sh [0] && decide (o.pred = 0) &&
      nameable c (lreg o.src1) && decide (lreg o.src1 % G.grp = 0) && G.allPublic (lreg o.src1) G.grp) fun _ G => do
    let i := (G.x o.src2.toNat).toNat
    need (i < G.regs.vl) causeIndexRange
    .ok (G.setX o.dst.toNat (BitVec.ofNat 64 (at0 (G.vec .a (lreg o.src1)) i)))))

/-- VINS: d.a[X(SRC2 field)] ← the low EW bits of X(SRC1 field). -/
def execVins (g : Nat) (o : LvOps) (s : State) : Result :=
  .next (s.runGrain g (encLv2 0x3B o 0x09) (lvInstr (fun c G => lvpMode o.modulus o.sh [0] && decide (o.pred = 0) &&
      G.checkGroups c 0 G.grp G.beats (lreg o.dst) G.grp []) fun _ G => do
    let i := (G.x o.src2.toNat).toNat
    need (i < G.regs.vl) causeIndexRange
    .ok (G.writeAll .a (lreg o.dst) ((G.vec .a (lreg o.dst)).set i ((G.x o.src1.toNat).toNat % 2 ^ G.ew)))))

end Sys2Proof.Machine
end

