-- ==== Sys2Proof/Machine/LvKeccak.lean ====
section
/-!
DEFINITION. The LVK unit: Keccak, squeezing and sampling (R156). Masked forms act on the recombined value and split their
result with free shares.
-/
namespace Sys2Proof.Machine

/-- The Boolean value of a long register: the exclusive or of its planes. -/
def Grain.boolReg (G : Grain) (c : GCtx) (n : Nat) : Nat :=
  (planes c.order2).foldl (fun acc p => acc ^^^ (G.plane p n).toNat) 0

/-- Write a register as Boolean shares: planes .b and .c are free, and plane .a makes the value. Only the low `w` bits carry
shares; the bits above are 0. -/
def Grain.splitReg (G : Grain) (c : GCtx) (n w v : Nat) : Grain :=
  let r1 := Config.freeNat c.free 0 % 2 ^ w
  let r2 := if c.order2 then Config.freeNat c.free 1 % 2 ^ w else 0
  let G := (G.setPlane .a n (BitVec.ofNat 2048 (v ^^^ r1 ^^^ r2))).setPlane .b n (BitVec.ofNat 2048 r1)
  if c.order2 then G.setPlane .c n (BitVec.ofNat 2048 r2) else G

/-- The checks of a state instruction: one register, P0 only, and no overlap of the destination with the source (a full
register takes four beats; DEDUCED, log entry 16). -/
def legalState (o : LvUnary) (params shs : List Nat) (c : GCtx) (G : Grain) : Bool :=
  params.contains o.modulus.toNat && shs.contains o.sh.toNat && decide (o.pred = 0) &&
  G.checkGroups c o.sh.toNat 1 4 (lreg o.dst) 1 [lreg o.src1]

/-- The rate of PARAM in bytes. -/
def lvkRate (param : Nat) : Nat :=
  match param with
  | 0 => 168
  | 1 => 136
  | 2 => 104
  | 3 => 72
  | _ => 144

/-- The state of a register. -/
def keccakState (v : Nat) : Nat := v % 2 ^ 1600

/-- Words a masked LVK instruction draws: the figure for the order in force (R156). -/
def lvkWords (c : GCtx) (one two : Nat) : Nat := if c.order2 then two else one

/-- A permutation of the state of SRC1, with `m` absorbed into plane .a first. -/
def keccakOp (o : LvUnary) (m : Nat) (c : GCtx) (G : Grain) : Except Stop Grain := do
  if o.sh = 0 then
    .ok (G.setPlane .a (lreg o.dst) (BitVec.ofNat 2048 (keccakF (keccakState ((G.plane .a (lreg o.src1)).toNat ^^^ m)))))
  else
    let G ← G.draw (lvkWords c 168 504)
    .ok (G.splitReg c (lreg o.dst) 1600 (keccakF (keccakState (G.boolReg c (lreg o.src1) ^^^ m))))

def execVkeccak (g : Nat) (o : LvUnary) (trouble : GrainTrouble) (s : State) : Result :=
  .next (s.runGrain g (encLv1 0x3C o 0x00) (lvInstr (legalState o [0] [0, 1]) (microcoded trouble fun c G => keccakOp o 0 c G)))

/-- VKABS: M is the rate's bytes at X(SRC2 field), 8-byte aligned. -/
def execVkabs (g : Nat) (o : LvOps) (trouble : GrainTrouble) (s : State) : Result :=
  let u : LvUnary := ⟨o.dst, o.src1, o.pred, o.sh, o.modulus⟩
  .next (s.runGrain g (encLv2 0x3C o 0x01) (lvInstr (legalState u [0, 1, 2, 3, 4] [0, 1]) fun c G => do
    let a := (G.x o.src2.toNat).toNat
    let n := lvkRate o.modulus.toNat
    need (a % 8 = 0 ∧ canRead a n = true) causeDmBounds
    microcoded trouble (fun c G => keccakOp u (leNat (G.bytes a n)) c G) c G))

/-- VSQZ: the rate's bytes of the state; the other bytes are 0. -/
def execVsqz (g : Nat) (o : LvUnary) (s : State) : Result :=
  .next (s.runGrain g (encLv1 0x3C o 0x02) (lvInstr (legalState o [0, 1, 2, 3, 4] [0, 1]) fun c G =>
    .ok ((shPlanes c o.sh).foldl (fun acc p =>
      acc.setPlane p (lreg o.dst)
        (BitVec.ofNat 2048 ((G.plane p (lreg o.src1)).toNat % 2 ^ (8 * lvkRate o.modulus.toNat)))) G)))

/-- Byte `i` of a number. -/
def byteAt (v i : Nat) : Nat := (v >>> (8 * i)) % 256

/-- The accepted candidates of a VREJ mode, in order (R156). -/
def rejAccepted (mode v : Nat) : List Nat :=
  match mode with
  | 0 => ((List.range 56).flatMap fun i =>
      let b := (v >>> (24 * i)) % 2 ^ 24
      [b % 4096, b / 4096]).filter (· < 3329)
  | 1 => ((List.range 56).map fun i =>
      byteAt v (3 * i) + 256 * byteAt v (3 * i + 1) + 65536 * (byteAt v (3 * i + 2) % 128)).filter (· < 8380417)
  | 2 => (((List.range 272).map fun i => (v >>> (4 * i)) % 16).filter (· < 15)).map fun z =>
      (8380417 + 2 - z % 5) % 8380417
  | _ => (((List.range 272).map fun i => (v >>> (4 * i)) % 16).filter (· < 9)).map fun z =>
      (8380417 + 4 - z) % 8380417

/-- Element `i` of an appended run that starts at `x0`, over the old elements. -/
def appended (old new : List Nat) (x0 vl : Nat) : List Nat :=
  (List.range vl).map fun i => if x0 ≤ i ∧ i < x0 + new.length then at0 new (i - x0) else at0 old i

/-- Arithmetic shares of a vector: `part p i x` is element i of plane p. -/
def arithShare (c : GCtx) (m : Nat) (p : Pl) (i x : Nat) : Nat :=
  let r1 := Config.freeNat c.free (2 * i) % m
  let r2 := if c.order2 then Config.freeNat c.free (2 * i + 1) % m else 0
  match p with
  | .a => (x % m + (m - r1) + (m - r2)) % m
  | .b => r1
  | .c => r2

/-- Boolean shares of a vector of `w`-bit elements. -/
def boolShare (c : GCtx) (w : Nat) (p : Pl) (i x : Nat) : Nat :=
  let r1 := Config.freeNat c.free (2 * i) % 2 ^ w
  let r2 := if c.order2 then Config.freeNat c.free (2 * i + 1) % 2 ^ w else 0
  match p with
  | .a => (x % 2 ^ w) ^^^ r1 ^^^ r2
  | .b => r1
  | .c => r2

/-- A vector's shares on one plane. -/
def shareVec (f : Pl → Nat → Nat → Nat) (p : Pl) (xs : List Nat) : List Nat :=
  (List.range xs.length).map fun i => f p i (at0 xs i)

/-- A source register outside the destination group; an instruction of one beat may overlap (R147). -/
def apartFrom (src dst : BitVec 4) (G : Grain) : Bool :=
  decide (G.beats ≤ 1) || decide (lreg src < lreg dst) || decide (lreg dst + G.grp ≤ lreg src)

/-- VREJ: append the accepted candidates from SRC1 to the group at element X(SRC2 field), up to VL, and update that X. -/
def execVrej (g : Nat) (o : LvOps) (s : State) : Result :=
  .next (s.runGrain g (encLv2 0x3C o 0x03) (lvInstr (fun c G =>
      decide (o.modulus.toNat ≤ 3) && (decide (o.sh = 0) || (decide (o.sh = 1) && decide (2 ≤ o.modulus.toNat))) &&
      nameable c (lreg o.src1) && apartFrom o.src1 o.dst G &&
      (!G.anyPublic (lreg o.dst) G.grp || (decide (o.sh = 0) && G.allPublic (lreg o.src1) 1)) &&
      G.checkGroups c o.sh.toNat G.grp 1 (lreg o.dst) G.grp []) fun c G => do
    let x0 := (G.x o.src2.toNat).toNat
    need (x0 ≤ G.regs.vl) causeIndexRange
    let v := if o.sh = 0 then (G.plane .a (lreg o.src1)).toNat else G.boolReg c (lreg o.src1)
    let new := (rejAccepted o.modulus.toNat v).take (G.regs.vl - x0)
    let G1 ← if o.sh = 0 then .ok G else G.draw (lvkWords c 80 240)
    let G2 := (shPlanes c o.sh).foldl (fun acc p =>
      let part := if o.sh = 0 then new else shareVec (arithShare c 8380417) p new
      acc.writeVec o.pred.toNat p (lreg o.dst) (appended (G.vec p (lreg o.dst)) part x0 G.regs.vl)) G1
    .ok (G2.setX o.src2.toNat (BitVec.ofNat 64 (x0 + new.length)))))

/-- SamplePolyCBD of FIPS 203 from the bits of `v`. -/
def samplePolyCbd (eta v : Nat) : List Nat :=
  (List.range 256).map fun i =>
    let bitsFrom := fun k => ((List.range eta).filter fun j => v.testBit (2 * i * eta + k + j)).length
    (3329 + bitsFrom 0 - bitsFrom eta) % 3329

/-- The checks of an instruction that reads one register and writes a polynomial of a fixed VL and EW. -/
def legalSample (o : LvUnary) (params shs : List Nat) (ew : Nat) (c : GCtx) (G : Grain) : Bool :=
  params.contains o.modulus.toNat && shs.contains o.sh.toNat &&
  ((decide (G.regs.vl = 256) && decide (G.ew = ew)) || decide (G.regs.vl = 0)) &&
  nameable c (lreg o.src1) && apartFrom o.src1 o.dst G &&
  (!G.anyPublic (lreg o.dst) G.grp || (decide (o.sh = 0) && G.allPublic (lreg o.src1) 1)) &&
  G.checkGroups c o.sh.toNat G.grp 1 (lreg o.dst) G.grp []

def execVcbd (g : Nat) (o : LvUnary) (s : State) : Result :=
  .next (s.runGrain g (encLv1 0x3C o 0x04) (lvInstr (legalSample o [0, 1] [0, 1] 16) fun c G => do
    let v := if o.sh = 0 then (G.plane .a (lreg o.src1)).toNat else G.boolReg c (lreg o.src1)
    let xs := samplePolyCbd (2 + o.modulus.toNat) v
    let G1 ← if o.sh = 0 then .ok G else G.draw (lvkWords c 48 144)
    .ok ((shPlanes c o.sh).foldl (fun acc p =>
      acc.writeVec o.pred.toNat p (lreg o.dst) (if o.sh = 0 then xs else shareVec (arithShare c 3329) p xs)) G1)))

/-- Output bytes of SHAKE256 from a state at its first output block, for `n` blocks. -/
def shakeStream : Nat → Nat → List Nat
  | 0, _ => []
  | n + 1, st => ((List.range 136).map (byteAt st)) ++ shakeStream n (keccakF st)

/-- The rejection loop of SampleInBall: positions i from 256 − τ up, each byte above i discarded. -/
def inBallLoop (signs : Nat) : Nat → Nat → List Nat → List Nat → List Nat
  | _, 0, _, acc => acc
  | _, _, [], acc => acc
  | k, left + 1, b :: bs, acc =>
    let i := 256 - (left + 1)
    if i < b then inBallLoop signs k (left + 1) bs acc
    else
      let acc := acc.set i (at0 acc b)
      inBallLoop signs (k + 1) left bs (acc.set b (if signs.testBit k then 8380416 else 1))

/-- SampleInBall of FIPS 204 with τ, from the SHAKE256 state; 64 blocks are more than it ever needs for a state whose output
goes on (log entry 16). −1 is written as q − 1. -/
def sampleInBall (tau st : Nat) : List Nat :=
  let out := shakeStream 64 st
  let signs := (out.take 8).foldr (fun b acc => b + 256 * acc) 0
  inBallLoop signs 0 tau (out.drop 8) (List.replicate 256 0)

/-- τ of PARAM (R156). -/
def sibTau (param : Nat) : Nat := match param with | 0 => 39 | 1 => 49 | _ => 60

def execVsib (g : Nat) (o : LvUnary) (trouble : GrainTrouble) (s : State) : Result :=
  .next (s.runGrain g (encLv1 0x3C o 0x05) (lvInstr (legalSample o [0, 1, 2] [0] 32) (microcoded trouble fun _ G =>
    .ok (G.writeVec o.pred.toNat .a (lreg o.dst)
      (sampleInBall (sibTau o.modulus.toNat) (keccakState (G.plane .a (lreg o.src1)).toNat))))))

end Sys2Proof.Machine
end

