-- ==== Sys2Proof/Machine/LvGadget.lean ====
section
/-!
DEFINITION. The masking gadgets (R157, R158) and unmasking (R143, R159).
-/
namespace Sys2Proof.Machine

/-- The recombined elements of a group in Boolean shares. -/
def Grain.boolVec (G : Grain) (c : GCtx) (n : Nat) : List Nat :=
  (planes c.order2).foldl (fun acc p => combine (· ^^^ ·) acc (G.vec p n)) (List.replicate G.regs.vl 0)
/-- The recombined elements of a group in arithmetic shares modulo `m`. -/
def Grain.arithVec (G : Grain) (c : GCtx) (m n : Nat) : List Nat :=
  (planes c.order2).foldl (fun acc p => combine (fun a b => (a + b) % m) acc (G.vec p n)) (List.replicate G.regs.vl 0)

/-- Write a group as Boolean shares. -/
def Grain.putBool (G : Grain) (c : GCtx) (pred n : Nat) (xs : List Nat) : Grain :=
  (planes c.order2).foldl (fun acc p => acc.writeVec pred p n (shareVec (boolShare c G.ew) p xs)) G
/-- Write a group as arithmetic shares modulo `m`. -/
def Grain.putArith (G : Grain) (c : GCtx) (m pred n : Nat) (xs : List Nat) : Grain :=
  (planes c.order2).foldl (fun acc p => acc.writeVec pred p n (shareVec (arithShare c m) p xs)) G

/-- The checks of a gadget: SH 01, a MOD of its row, a destination that is not public, and the groups. -/
def legalGadget (mods : List Nat) (sh : BitVec 2) (m : BitVec 3) (outs dst : Nat) (srcs : List Nat) (c : GCtx)
    (G : Grain) : Bool :=
  mods.contains m.toNat && modOk G.ew m.toNat && decide (sh = 1) && !G.anyPublic dst (outs * G.grp) &&
  G.checkGroups c 1 G.grp G.beats dst (outs * G.grp) srcs

/-- A gadget draws w words a beat, doubled by CHK, and with CHK a difference of its two results is a share-check mismatch
(R158); `chk` is none without CHK. -/
def gadget (w1 w2 : Nat) (chk : Option Bool) (trouble : GrainTrouble) (eff : GCtx → Grain → Grain) (c : GCtx)
    (G : Grain) : Except Stop Grain :=
  microcoded trouble (fun c G => do
    let w := (if c.order2 then w2 else w1) * G.beats
    let G1 ← G.draw (if chk.isSome then 2 * w else w)
    if chk = some true then .error .check
    else .ok (eff c G1)) c G

/-- A gadget of one source and one output. -/
def gadgetUnary (mods : List Nat) (w1 w2 : Nat) (o : LvUnary) (chk : Option Bool) (trouble : GrainTrouble)
    (eff : GCtx → Grain → Grain) : GrainOp :=
  lvInstr (legalGadget mods o.sh o.modulus 1 (lreg o.dst) [lreg o.src1]) (gadget w1 w2 chk trouble eff)

/-- A gadget of two sources and one output. -/
def gadgetBinary (mods : List Nat) (w1 w2 : Nat) (o : LvOps) (chk : Option Bool) (trouble : GrainTrouble)
    (eff : GCtx → Grain → Grain) : GrainOp :=
  lvInstr (legalGadget mods o.sh o.modulus 1 (lreg o.dst) [lreg o.src1, lreg o.src2]) (gadget w1 w2 chk trouble eff)

def execVrefreshb (g : Nat) (o : LvUnary) (chk : Option Bool) (trouble : GrainTrouble) (s : State) : Result :=
  .next (s.runGrain g (encLv1 0x3D o (opChk chk 0x00)) (gadgetUnary [0] 2 6 o chk trouble fun c G =>
    G.putBool c o.pred.toNat (lreg o.dst) (G.boolVec c (lreg o.src1))))
def execVrefresha (g : Nat) (o : LvUnary) (chk : Option Bool) (trouble : GrainTrouble) (s : State) : Result :=
  .next (s.runGrain g (encLv1 0x3D o (opChk chk 0x01)) (gadgetUnary [0, 1, 2, 3] 2 6 o chk trouble fun c G =>
    let m := modulusOf G.ew o.modulus.toNat
    G.putArith c m o.pred.toNat (lreg o.dst) (G.arithVec c m (lreg o.src1))))
def execVa2b (g : Nat) (o : LvUnary) (chk : Option Bool) (trouble : GrainTrouble) (s : State) : Result :=
  .next (s.runGrain g (encLv1 0x3D o (opChk chk 0x02)) (gadgetUnary [0, 1, 2, 3] 8 24 o chk trouble fun c G =>
    G.putBool c o.pred.toNat (lreg o.dst) (G.arithVec c (modulusOf G.ew o.modulus.toNat) (lreg o.src1))))

/-- VB2A: the input is below M; for one that is not, the spec states no result, and the value is free (log entry 17). -/
def b2aValue (c : GCtx) (m i x : Nat) : Nat := if x < m then x else Config.freeNat c.free (100000 + i) % m

def execVb2a (g : Nat) (o : LvUnary) (chk : Option Bool) (trouble : GrainTrouble) (s : State) : Result :=
  .next (s.runGrain g (encLv1 0x3D o (opChk chk 0x03)) (gadgetUnary [0, 1, 2, 3] 6 18 o chk trouble fun c G =>
    let m := modulusOf G.ew o.modulus.toNat
    let x := G.boolVec c (lreg o.src1)
    G.putArith c m o.pred.toNat (lreg o.dst) ((List.range x.length).map fun i => b2aValue c m i (at0 x i))))
def execVmand (g : Nat) (o : LvOps) (chk : Option Bool) (trouble : GrainTrouble) (s : State) : Result :=
  .next (s.runGrain g (encLv2 0x3D o (opChk chk 0x04)) (gadgetBinary [0] 2 6 o chk trouble fun c G =>
    G.putBool c o.pred.toNat (lreg o.dst) (combine (· &&& ·) (G.boolVec c (lreg o.src1)) (G.boolVec c (lreg o.src2)))))
def execVmcmpeq (g : Nat) (o : LvOps) (chk : Option Bool) (trouble : GrainTrouble) (s : State) : Result :=
  .next (s.runGrain g (encLv2 0x3D o (opChk chk 0x05)) (gadgetBinary [0] 8 24 o chk trouble fun c G =>
    G.putBool c o.pred.toNat (lreg o.dst)
      (combine (fun a b => if a = b then 2 ^ G.ew - 1 else 0) (G.boolVec c (lreg o.src1)) (G.boolVec c (lreg o.src2)))))
/-- VMCMPLT: min(s1, q − s1) against the public bound s2.a. -/
def execVmcmplt (g : Nat) (o : LvOps) (chk : Option Bool) (trouble : GrainTrouble) (s : State) : Result :=
  .next (s.runGrain g (encLv2 0x3D o (opChk chk 0x06)) (gadgetBinary [1, 2, 3] 10 30 o chk trouble fun c G =>
    let q := modulusOf G.ew o.modulus.toNat
    G.putBool c o.pred.toNat (lreg o.dst)
      (combine (fun a b => if cabs q a < b then 2 ^ G.ew - 1 else 0) (G.arithVec c q (lreg o.src1))
        (G.vec .a (lreg o.src2)))))
/-- VMALL: the AND of s1 over the active elements. -/
def execVmall (g : Nat) (o : LvUnary) (chk : Option Bool) (trouble : GrainTrouble) (s : State) : Result :=
  .next (s.runGrain g (encLv1 0x3D o (opChk chk 0x07)) (gadgetUnary [0] 2 6 o chk trouble fun c G =>
    let x := G.boolVec c (lreg o.src1)
    let all := ((List.range x.length).filter (G.active o.pred.toNat)).foldl (fun acc i => acc &&& at0 x i) (2 ^ G.ew - 1)
    G.putBool c o.pred.toNat (lreg o.dst) (List.replicate G.regs.vl all)))

/-- Decompose of FIPS 204 by the pseudocode of R157: r1, and r0 mod q. -/
def decompose (gamma2 r : Nat) : Nat × Nat :=
  let q : Int := 8380417
  let low : Int := (r % (2 * gamma2) : Nat)
  let r0 : Int := if (gamma2 : Int) < low then low - 2 * gamma2 else low
  if (r : Int) - r0 = q - 1 then (0, ((r0 - 1) % q).toNat)
  else ((((r : Int) - r0) / (2 * gamma2)).toNat, (r0 % q).toNat)

/-- γ2 of the SRC2 field. -/
def gamma2Of (k : BitVec 4) : Nat := if k = 0 then 95232 else 261888

/-- VMDECOMP: r1 to DST in Boolean shares and r0 to DST + G in arithmetic shares; the second group's shares use free values
of their own. -/
def execVmdecomp (g : Nat) (o : LvOps) (chk : Option Bool) (trouble : GrainTrouble) (s : State) : Result :=
  .next (s.runGrain g (encLv2 0x3D o (opChk chk 0x08)) (lvInstr (fun c G => decide (o.src2.toNat ≤ 1) &&
      legalGadget [2] o.sh o.modulus 2 (lreg o.dst) [lreg o.src1] c G) (gadget 12 36 chk trouble fun c G =>
    let r := (G.arithVec c 8380417 (lreg o.src1)).map (decompose (gamma2Of o.src2))
    let G1 := G.putBool c o.pred.toNat (lreg o.dst) (r.map Prod.fst)
    (planes c.order2).foldl (fun acc p =>
      acc.writeVec o.pred.toNat p (lreg o.dst + G.grp)
        ((List.range r.length).map fun i => arithShare c 8380417 p (1000 + i) (at0 (r.map Prod.snd) i))) G1)))

/-! Unmasking. -/

/-- VUNMASK is legal only into a public register, from one that is not, with SH 01 and FLAGS.PUBLIC_OUT (R143). -/
def legalUnmask (mods : List Nat) (o : LvUnary) (c : GCtx) (G : Grain) : Bool :=
  mods.contains o.modulus.toNat && modOk G.ew o.modulus.toNat && decide (o.sh = 1) && G.header.flags.testBit 1 &&
  G.allPublic (lreg o.dst) G.grp && !G.anyPublic (lreg o.src1) G.grp &&
  nameable c (lreg o.dst) && nameable c (lreg o.src1) &&
  decide (lreg o.dst % G.grp = 0 ∧ lreg o.src1 % G.grp = 0)

/-- Plane .a takes the value and plane .b becomes 0, in the active elements. -/
def unmaskInto (o : LvUnary) (G : Grain) (xs : List Nat) : Grain :=
  (G.writeVec o.pred.toNat .a (lreg o.dst) xs).writeVec o.pred.toNat .b (lreg o.dst) (List.replicate G.regs.vl 0)

def execVunmaskb (g : Nat) (o : LvUnary) (s : State) : Result :=
  .next (s.runGrain g (encLv1 0x3F o 0x00) (lvInstr (legalUnmask [0] o) fun c G => .ok (unmaskInto o G (G.boolVec c (lreg o.src1)))))
def execVunmaska (g : Nat) (o : LvUnary) (s : State) : Result :=
  .next (s.runGrain g (encLv1 0x3F o 0x01) (lvInstr (legalUnmask [0, 1, 2, 3] o) fun c G =>
    .ok (unmaskInto o G (G.arithVec c (modulusOf G.ew o.modulus.toNat) (lreg o.src1)))))

end Sys2Proof.Machine
end

