-- ==== Sys2Proof/Machine/JobOps.lean ====
section
/-!
DEFINITION. What a vendor program does to its job as a whole: the status it ends with, the output, the key it leaves for a claimed
slot, DETAIL, the execute cycles and the expander words (R97, R184, R185, R199, R205). The pre-hash functions and message
representatives of R206, and the curves of R249.
-/
namespace Sys2Proof.Config

/-- The public key of a class from its key material (log entry 26). -/
opaque publicKey : Nat → List Byte → List Byte
/-- The key-cache material of a class from its key material (log entry 26). -/
opaque cacheOf : Nat → List Byte → List Byte
/-- Ciphertext and shared secret of an encapsulation, by class, public key and coins (log entry 26). -/
opaque encaps : Nat → List Byte → List Byte → List Byte × List Byte
/-- The shared secret of a decapsulation, implicit rejection included, by class, key material and ciphertext (log entry 26). -/
opaque decaps : Nat → List Byte → List Byte → List Byte
/-- A signature by class, key material, message and random input (log entry 26). -/
opaque signature : Nat → List Byte → List Byte → List Byte → List Byte
/-- The rejection iterations or sampling attempts of a signature beyond the first, by class, key material, message and random
input (R207; log entry 26). -/
opaque iterations : Nat → List Byte → List Byte → List Byte → Nat
/-- The permutations of SampleInBall beyond the first of each iteration, over all iterations (R211; log entry 26). -/
opaque ballBlocks : Nat → List Byte → List Byte → List Byte → Nat
/-- The squeeze blocks of FN-DSA's hash-to-point, by set, salt and representative (R211; log entry 26). -/
opaque pointBlocks : Nat → List Byte → List Byte → Nat
/-- No candidate pair of an FN-DSA key generation passes, by set and seed (R200; log entry 26). -/
opaque fnNone : Nat → List Byte → Bool
/-- A public key of a class passes the checks of its standard (R205; log entry 26). -/
opaque keyOk : Nat → List Byte → Bool

end Sys2Proof.Config

namespace Sys2Proof.Machine

/-- The end of a program. -/
structure OpResult where
  status : Nat := Status.ok
  out : List Byte := []
  mat : KeyMat := {}
  stateful : Option Stateful := none
  detail : Nat := 0
  cycles : Nat := 0
  words : Nat := 0
  ctx : Option Ctx := none
  deriving DecidableEq, Repr

/-- A failed check of R188 (R109). -/
def faultResult (cause cycles : Nat) : OpResult := { status := Status.faultDetected, detail := cause * 2 ^ 24, cycles := cycles }

/-- The cause of a check. -/
def checkCause (c : FaultCheck) : Nat := match c with | .selfVerify => causeSelfVerify | .shareCheck => causeShareCheck

/-- The job of kind `k` whose program stands at its ENTRY, with its grain. -/
def State.opReady (s : State) (j : Nat) (k : OpKind → Bool) : Option (Job × Nat) :=
  match s.job j with
  | none => none
  | some job =>
    match job.grain with
    | none => none
    | some g =>
      if k (s.kindOf job) && decide (s.executing g = some (j, job)) && decide ((s.grain g).regs.instret = 0) then some (job, g)
      else none

/-- The program of a job runs from its ENTRY to its end: it draws its expander words, and stalls for a seed that is due (R102,
R103); its result goes to the output stage, with the key of a claimed slot, or its status into the completion. Whole
spans of 524,288 words leave the expander where they find it (log entry 46). -/
def State.runOp (s : State) (j : Nat) (k : OpKind → Bool) (f : State → Job → OpResult) : State :=
  match s.opReady j k with
  | none => s
  | some (job, g) =>
    let r := f s job
    match (s.grain g).draw (r.words % expanderSpan) with
    | .error _ => s.stopGrain g j .stall
    | .ok G =>
      let s := (s.spend.modGrain g fun _ =>
        { G with busy := G.busy + r.cycles, regs := { G.regs with cycle := r.cycles } }).askForGrain g
      let s := s.modJob j fun x => { x with ctxNew := r.ctx }
      let job := { job with ctxNew := r.ctx }
      if r.status ≠ Status.ok then s.endExecution j g r.status 0 r.detail
      else if job.desc.outLen < r.out.length then s.endExecution j g Status.outputShort r.out.length r.detail
      else s.finishOk j g job r.mat r.stateful r.out r.out.length r.detail

/-- A program that uses its job's engine: it waits while another job holds the engine or a scrub runs, stops a known-answer
test, and leaves the engine to its scrub when the job ends or releases it (R209, R238, R247, R248). -/
def State.runEngineOp (s : State) (j : Nat) (k : OpKind → Bool) (f : State → Job → OpResult) : State :=
  match s.opReady j k with
  | none => s
  | some (_, g) =>
    let n := ((s.grain g).x 1).toNat
    let e := s.engine n
    if e.state = .test then s.modEngine n fun x => { x with state := .scrub }
    else if !e.openTo j then s
    else (s.modEngine n fun x =>
      { x.heldBy j with
        progs := satAdd 0xFFFFFFFF x.progs 1
        busy := satAdd (2 ^ 64 - 1) x.busy (Config.freeNat s.free 1) }).runOp j k f

/-- An import of an RSA key uses the engine that was found for it at its placement (R313). -/
def State.runWithEngine (s : State) (j : Nat) (k : OpKind → Bool) (f : State → Job → OpResult) : State :=
  if s.engines.any fun (_, e) => e.assigned.contains j then s.runEngineOp j k f else s.runOp j k f

/-- The figure of a masking order. -/
def byOrder (order2 : Bool) (a b : Nat) : Nat := if order2 then b else a

/-- The attribute word of the slot that a job claims. -/
def State.claimAttr (s : State) (job : Job) : Nat := match job.claim with | some k => (s.slot k).attr | none => 0

/-- The set of a job's operation code. -/
def Job.set_ (job : Job) : Nat := setOf job.desc.opcode

/-- The key material that a job's program works with: the key cache's where the class keeps it there (R198, R232, R250). -/
def KeyMat.material (m : KeyMat) : List Byte := if cacheClass (attrClass m.attr) then m.cache else m.secret

/-- Free bytes of a use: the expander's words and what no rule lays out, by a number of the value. -/
def State.freeValue (s : State) (i n : Nat) : List Byte :=
  (List.range n).map fun k => Config.freeByte s.free (2 ^ 20 * (i + 1) + k)

/-- The wrapping key and reference of a class whose key stands in the key cache (R198, R232, R250). -/
def State.freeWrap (s : State) : List Byte := s.freeValue 0 64

/-- The key of a kept shared secret (R201, R311). -/
def State.keepMat (s : State) (job : Job) (ss : List Byte) : KeyMat :=
  let a := s.claimAttr job
  if cacheClass (attrClass a) then { attr := a, secret := s.freeWrap, cache := ss } else { attr := a, secret := ss }

/-- The end of an encapsulation or derivation: the shared secret goes to the output or, with KEEP, to the claimed slot (R201,
R203). -/
def State.shared (s : State) (job : Job) (out ss : List Byte) (cycles words : Nat) : OpResult :=
  if pKeep job.desc.param then { out := out, mat := s.keepMat job ss, cycles := cycles, words := words }
  else { out := out ++ ss, cycles := cycles, words := words }

/-- The input's context string and message (R203). -/
def inputCtx (job : Job) : List Byte := slice job.input 0 (pCtxLen job.desc.param)
def inputMsg (job : Job) : List Byte := job.input.drop (pCtxLen job.desc.param)

/-- The parts of a verification input: public key, signature, context and message, where it is long enough (R203, R204). -/
def verifyParts (job : Job) (pkLen sigLen : Nat) : Option (List Byte × List Byte × List Byte × List Byte) :=
  let d := job.input
  let inline_ := decide (job.desc.keyForm = 0)
  let pos := if inline_ then pkLen else 0
  let c := pCtxLen job.desc.param
  if d.length < pos + sigLen + c then none
  else some (if inline_ then d.take pkLen else job.key1.pub, slice d pos sigLen, slice d (pos + sigLen) c,
    d.drop (pos + sigLen + c))

/-- A verdict as a program's end. -/
def verdict (ok : Bool) (cycles : Nat) : OpResult := { status := if ok then Status.ok else Status.verifyFail, cycles := cycles }

/-- The stream stalls of input beyond the 16 KiB input window are timing (R120, R211; log entry 3). -/
def State.streamCycles (s : State) (n : Nat) : Nat := if 16384 < n then Config.freeNat s.free 100 else 0

/-! Pre-hash and message representatives (R206). -/

/-- PH(M). -/
def phDigest (ph : Nat) (m : List Byte) : List Byte :=
  match ph with
  | 0 => sha2 1 m | 1 => sha2 2 m | 2 => sha2 3 m | 3 => sha3 32 m | 4 => sha3 48 m | 5 => sha3 64 m | 6 => shake 128 32 m
  | _ => shake 256 64 m

/-- The object identifier of a function, as its standard encodes it (log entry 47). -/
def phOid (ph : Nat) : List Byte :=
  let last := match ph with | 0 => 1 | 1 => 2 | 2 => 3 | 3 => 8 | 4 => 9 | 5 => 10 | 6 => 11 | _ => 12
  beBytes 11 (0x0609608648016503040200 + last)

/-- Cycles of PH on the grain (R211). -/
def phCycles (ph n : Nat) : Nat :=
  match ph with
  | 0 => 70 * ((n + 9 + 63) / 64)
  | 1 | 2 => 86 * ((n + 17 + 127) / 128)
  | 3 => 36 * (n / 136 + 1)
  | 4 => 36 * (n / 104 + 1)
  | 5 => 36 * (n / 72 + 1)
  | 6 => 36 * (n / 168 + 1)
  | _ => 36 * (n / 136 + 1)

/-- M′ of a pure or a pre-hash signature. -/
def representative (pre : Bool) (ph : Nat) (ctx m : List Byte) : List Byte :=
  if pre then [1#8] ++ leBytes 1 ctx.length ++ ctx ++ phOid ph ++ phDigest ph m
  else [0#8] ++ leBytes 1 ctx.length ++ ctx ++ m

/-! Curves (R249). -/

/-- p, b and n of the prime curves P-256, P-384 and P-521, whose a is −3, as FIPS 186-5 and SP 800-186 give them (log entry 47). -/
def curveParams (c : Nat) : Nat × Nat × Nat :=
  match c with
  | 0x71 =>
    (0xFFFFFFFF00000001000000000000000000000000FFFFFFFFFFFFFFFFFFFFFFFF,
     0x5AC635D8AA3A93E7B3EBBD55769886BC651D06B0CC53B0F63BCE3C3E27D2604B,
     0xFFFFFFFF00000000FFFFFFFFFFFFFFFFBCE6FAADA7179E84F3B9CAC2FC632551)
  | 0x72 =>
    (0xFFFFFFFFFFFFFFFFFFFFFFFFFFFFFFFFFFFFFFFFFFFFFFFFFFFFFFFFFFFFFFFEFFFFFFFF0000000000000000FFFFFFFF,
     0xB3312FA7E23EE7E4988E056BE3F82D19181D9C6EFE8141120314088F5013875AC656398D8A2ED19D2A85C8EDD3EC2AEF,
     0xFFFFFFFFFFFFFFFFFFFFFFFFFFFFFFFFFFFFFFFFFFFFFFFFC7634D81F4372DDF581A0DB248B0A77AECEC196ACCC52973)
  | _ =>
    (2 ^ 521 - 1,
     0x51953EB9618E1C9A1F929A21A0B68540EEA2DA725B99B315F3B8B489918EF109E156193951EC7E937B1652C0BD3BB1BF073573DF883D2C34F1EF451FD46B503F00,
     2 ^ 521 - 0x5AE79787C40D069948033FEB708F65A2FC44A36477663B851449048E16EC79BF7)

/-- A prime-curve public key is in the uncompressed form. -/
def uncompressed (point : List Byte) : Bool := decide (point.head? = some 4#8)

/-- The point of an uncompressed key lies on its curve. -/
def onCurve (c : Nat) (point : List Byte) : Bool :=
  let l := curveL c
  let (p, b, _) := curveParams c
  let x := beNat (slice point 1 l)
  let y := beNat (slice point (1 + l) l)
  decide (x < p ∧ y < p ∧ y * y % p = (x * x * x + (p - 3) * x + b) % p)

end Sys2Proof.Machine
end

