-- ==== Sys2Proof/Machine/OpsLattice.lean ====
section
/-!
DEFINITION. The operations of group 0x1: ML-KEM, ML-DSA, FN-DSA and the composite hybrids (R195 to R215).
-/
namespace Sys2Proof.Machine

/-! Public block counts (R211). -/

/-- SHAKE128 blocks until 256 coefficients are accepted; `accept` counts those of one block. -/
def samplingBlocks (accept : List Byte → Nat) : Nat → Nat → List Byte → Nat
  | 0, _, _ => 0
  | fuel + 1, need, stream =>
    if need = 0 then 0 else 1 + samplingBlocks accept fuel (need - accept (stream.take 168)) (stream.drop 168)

/-- Coefficients below 3,329 among the 12-bit candidates of a block (FIPS 203 SampleNTT). -/
def acceptKem (b : List Byte) : Nat :=
  ((List.range 112).filter fun i =>
    let v := field b (i / 2 * 3) 3
    decide ((if i % 2 = 0 then v % 4096 else v / 4096) < 3329)).length

/-- Coefficients below 8,380,417 among the 23-bit candidates of a block (FIPS 204 RejNTTPoly). -/
def acceptDsa (b : List Byte) : Nat :=
  ((List.range 56).filter fun i => decide (field b (3 * i) 3 % 2 ^ 23 < 8380417)).length

/-- The blocks beyond `base` of every entry of the matrix that ρ spells: `rows` by `cols` entries, each from ρ and two index
bytes. The stream is read up to 64 blocks, which hold enough candidates for every ρ that can be found. -/
def matrixExtra (accept : List Byte → Nat) (base rows cols : Nat) (rho : List Byte) : Nat :=
  (List.range rows).foldl (fun n r => (List.range cols).foldl (fun n c =>
    n + (samplingBlocks accept 64 256 (shake 128 (64 * 168) (rho ++ [BitVec.ofNat 8 c, BitVec.ofNat 8 r])) - base)) n) 0

/-- SHAKE256 blocks of an input beyond the ninth (R211). -/
def inputExtra (n : Nat) : Nat := n / 136 + 1 - 9

/-! ML-KEM. -/

/-- k of a set. -/
def kemDim (set : Nat) : Nat := set + 1

/-- Cycles of further matrix blocks; ρ is the end of ek. -/
def kemMatrix (set : Nat) (ek : List Byte) : Nat :=
  36 * matrixExtra acceptKem 3 (kemDim set) (kemDim set) (ek.drop (ek.length - 32))

/-- The modulus check of FIPS 203 (R205). -/
def kemEkOk (ek : List Byte) : Bool :=
  (List.range (2 * ((ek.length - 32) / 3))).all fun i =>
    let v := field ek (i / 2 * 3) 3
    decide ((if i % 2 = 0 then v % 4096 else v / 4096) < 3329)

def kemKeygenCycles (o2 : Bool) (set : Nat) : Nat :=
  match set with | 1 => byOrder o2 40000 100000 | 2 => byOrder o2 60000 150000 | _ => byOrder o2 84000 210000
def kemKeygenWords (o2 : Bool) (set : Nat) : Nat :=
  match set with | 1 => byOrder o2 2800 8100 | 2 => byOrder o2 4200 12400 | _ => byOrder o2 5600 16500
def kemEncapsCycles (set : Nat) : Nat := match set with | 1 => 22000 | 2 => 34000 | _ => 52000
def kemDecapsCycles (o2 : Bool) (set : Nat) : Nat :=
  match set with | 1 => byOrder o2 25600 68000 | 2 => byOrder o2 38400 96000 | _ => byOrder o2 58000 142000
def kemDecapsWords (o2 : Bool) (set : Nat) : Nat :=
  match set with | 1 => byOrder o2 3756 10836 | 2 => byOrder o2 5388 15524 | _ => byOrder o2 7020 20212

/-- The class of a job's scheme and set (R311). -/
def State.jobClass (s : State) (job : Job) : Nat := schemeClass (s.kindOf job) job.set_

/-- ML_KEM_KEYGEN: d ‖ z becomes the slot's secret, and ek the output (R198, R199, R202). -/
def execMlKemKeygen (j : Nat) (s : State) : Result :=
  .next (s.runOp j (fun k => decide (k = .kemKeygen)) fun s job =>
    let ek := padTo (kemEk job.set_) (Config.publicKey (s.jobClass job) job.random)
    { out := ek
      mat := { attr := s.claimAttr job, secret := job.random, pub := ek }
      cycles := kemKeygenCycles job.order2 job.set_ + kemMatrix job.set_ ek
      words := kemKeygenWords job.order2 job.set_ })

/-- The encapsulation key of a job: inline, or the slot's. -/
def encapsKey (job : Job) : List Byte := if job.desc.keyForm = 0 then job.input else job.key1.pub

/-- ML_KEM_ENCAPS: an inline ek passes the modulus check or ends the job with INPUT_INVALID (R205). -/
def execMlKemEncaps (j : Nat) (s : State) : Result :=
  .next (s.runOp j (fun k => decide (k = .kemEncaps)) fun s job =>
    let ek := encapsKey job
    let cycles := kemEncapsCycles job.set_ + kemMatrix job.set_ ek
    if job.desc.keyForm = 0 ∧ !kemEkOk ek then { status := Status.inputInvalid, cycles := cycles }
    else
      let (ct, ss) := Config.encaps (s.jobClass job) ek job.random
      s.shared job (padTo (kemCt job.set_) ct) (padTo 32 ss) cycles 0)

/-- ML_KEM_DECAPS: the shared secret, or K̄ of an implicit rejection, with nothing else to tell them apart (R201); a failed
ciphertext compare ends the job (R188). -/
def execMlKemDecaps (j : Nat) (faulted : Bool) (s : State) : Result :=
  .next (s.runOp j (fun k => decide (k = .kemDecaps)) fun s job =>
    let cycles := kemDecapsCycles job.order2 job.set_ + kemMatrix job.set_ job.key1.pub
    let words := kemDecapsWords job.order2 job.set_
    if faulted then { faultResult causeShareCheck cycles with words := words }
    else s.shared job [] (padTo 32 (Config.decaps (s.jobClass job) job.key1.material job.input)) cycles words)

/-! ML-DSA. -/

/-- k and ℓ of a set. -/
def dsaDims (set : Nat) : Nat × Nat := match set with | 1 => (4, 4) | 2 => (6, 5) | _ => (8, 7)

/-- Cycles of further matrix blocks; ρ is the head of pk. -/
def dsaMatrix (set : Nat) (pk : List Byte) : Nat :=
  36 * matrixExtra acceptDsa 5 (dsaDims set).1 (dsaDims set).2 (pk.take 32)

def dsaKeygenCycles (o2 : Bool) (set : Nat) : Nat :=
  match set with | 1 => byOrder o2 150000 330000 | 2 => byOrder o2 220000 480000 | _ => byOrder o2 320000 700000
def dsaKeygenWords (o2 : Bool) (set : Nat) : Nat :=
  match set with | 1 => byOrder o2 6500 18800 | 2 => byOrder o2 9000 26000 | _ => byOrder o2 12400 35800
def dsaVerifyCycles (set : Nat) : Nat := match set with | 1 => 60000 | 2 => 76800 | _ => 122880
def dsaSignCycles (o2 : Bool) (set n : Nat) : Nat :=
  match set with
  | 1 => byOrder o2 (120000 + 70000 * n) (240000 + 150000 * n)
  | 2 => byOrder o2 (180000 + 100000 * n) (360000 + 200000 * n)
  | _ => byOrder o2 (250000 + 250000 * n) (500000 + 500000 * n)
def dsaSignWords (o2 : Bool) (set n : Nat) : Nat :=
  match set with
  | 1 => byOrder o2 (7200 + 8100 * n) (20900 + 23300 * n)
  | 2 => byOrder o2 (9833 + 10760 * n) (28409 + 30872 * n)
  | _ => byOrder o2 (13100 + 14900 * n) (37900 + 42700 * n)

/-- ML_DSA_KEYGEN: ξ becomes the slot's secret (R198, R202). -/
def execMlDsaKeygen (j : Nat) (s : State) : Result :=
  .next (s.runOp j (fun k => decide (k = .dsaKeygen)) fun s job =>
    let pk := padTo (dsaPk job.set_) (Config.publicKey (s.jobClass job) job.random)
    { out := pk
      mat := { attr := s.claimAttr job, secret := job.random, pub := pk }
      cycles := dsaKeygenCycles job.order2 job.set_ + dsaMatrix job.set_ pk
      words := dsaKeygenWords job.order2 job.set_ })

/-- An ML-DSA signature of a representative: the rejection loop, its limit and the checks of R188 (R206, R207, R211). -/
def State.dsaSignature (s : State) (job : Job) (cls set : Nat) (hedged : Bool) (rep : List Byte) (fault : Option FaultCheck) :
    OpResult :=
  let rnd := if hedged then s.freeValue 1 32 else List.replicate 32 0#8
  let m := job.key1.material
  let n := 1 + Config.iterations cls m rep rnd
  let runs := min n 1000
  let cycles := dsaSignCycles job.order2 set runs + dsaMatrix set job.key1.pub + 36 * inputExtra (64 + rep.length) +
    28 * Config.ballBlocks cls m rep rnd + s.streamCycles job.desc.inLen
  let words := dsaSignWords job.order2 set runs - ofBool (!hedged)
  match fault with
  | some c => { faultResult (checkCause c) cycles with words := words }
  | none =>
    if 1000 < n then { faultResult causeSelfVerify cycles with words := words }
    else { out := padTo (dsaSig set) (Config.signature cls m rep rnd), detail := n, cycles := cycles, words := words }

/-- Pure or pre-hash, hedged or deterministic. -/
def State.dsaSign (s : State) (job : Job) (hedged pre : Bool) (fault : Option FaultCheck) : OpResult :=
  let ph := pPh job.desc.param
  let rep := representative pre ph (inputCtx job) (inputMsg job)
  let r := s.dsaSignature job (s.jobClass job) job.set_ hedged rep fault
  { r with cycles := r.cycles + if pre then phCycles ph (inputMsg job).length else 0 }

/-- ML_DSA_SIGN_HEDGED. -/
def execMlDsaSignHedged (j : Nat) (fault : Option FaultCheck) (s : State) : Result :=
  .next (s.runOp j (fun k => decide (k = .dsaSign true false)) fun s job => s.dsaSign job true false fault)

/-- ML_DSA_SIGN_DETERMINISTIC. -/
def execMlDsaSignDeterministic (j : Nat) (fault : Option FaultCheck) (s : State) : Result :=
  .next (s.runOp j (fun k => decide (k = .dsaSign false false)) fun s job => s.dsaSign job false false fault)

/-- HASHML_DSA_SIGN_HEDGED. -/
def execHashmlDsaSignHedged (j : Nat) (fault : Option FaultCheck) (s : State) : Result :=
  .next (s.runOp j (fun k => decide (k = .dsaSign true true)) fun s job => s.dsaSign job true true fault)

/-- HASHML_DSA_SIGN_DETERMINISTIC. -/
def execHashmlDsaSignDeterministic (j : Nat) (fault : Option FaultCheck) (s : State) : Result :=
  .next (s.runOp j (fun k => decide (k = .dsaSign false true)) fun s job => s.dsaSign job false true fault)

/-- Verification of a representative under an ML-DSA key. -/
def dsaCheck (cls set : Nat) (pk rep sig : List Byte) : Bool × Nat :=
  (Config.sigOk cls pk rep sig, dsaVerifyCycles set + dsaMatrix set pk + 36 * inputExtra (64 + rep.length))

/-- An input too short fails as a wrong signature does (R204). -/
def State.dsaVerify (s : State) (job : Job) (pre : Bool) : OpResult :=
  let set := job.set_
  let ph := pPh job.desc.param
  match verifyParts job (dsaPk set) (dsaSig set) with
  | none => verdict false (dsaVerifyCycles set)
  | some (pk, sig, ctx, m) =>
    let r := dsaCheck (s.jobClass job) set pk (representative pre ph ctx m) sig
    verdict r.1 (r.2 + (if pre then phCycles ph m.length else 0) + s.streamCycles job.desc.inLen)

/-- ML_DSA_VERIFY. -/
def execMlDsaVerify (j : Nat) (s : State) : Result :=
  .next (s.runOp j (fun k => decide (k = .dsaVerify false)) fun s job => s.dsaVerify job false)

/-- HASHML_DSA_VERIFY. -/
def execHashmlDsaVerify (j : Nat) (s : State) : Result :=
  .next (s.runOp j (fun k => decide (k = .dsaVerify true)) fun s job => s.dsaVerify job true)

/-! FN-DSA. -/

def fnKeygenCycles (set : Nat) : Nat := if set = 1 then 12000000 else 34000000
def fnVerifyCycles (set : Nat) : Nat := if set = 1 then 51200 else 100000
def fnSignCycles (o2 : Bool) (set a : Nat) : Nat :=
  if set = 1 then byOrder o2 (160000 + 1200000 * a) (320000 + 2400000 * a)
  else byOrder o2 (340000 + 2500000 * a) (680000 + 5000000 * a)
def fnAttemptWords (o2 : Bool) (set : Nat) : Nat := if set = 1 then byOrder o2 738 1506 else byOrder o2 1476 3012

/-- Cycles of further hash-input and hash-to-point blocks. -/
def fnExtra (set : Nat) (salt rep : List Byte) : Nat :=
  36 * inputExtra (40 + rep.length) + 36 * (Config.pointBlocks set salt rep - if set = 1 then 8 else 16)

/-- FN_DSA_KEYGEN: the private key goes wrapped to the key cache, under a wrapping key that the slot holds (R198, R200). -/
def execFnDsaKeygen (j : Nat) (s : State) : Result :=
  .next (s.runOp j (fun k => decide (k = .fnKeygen)) fun s job =>
    let c := s.jobClass job
    let pk := padTo (fnPk job.set_) (Config.publicKey c job.random)
    if Config.fnNone job.set_ job.random then faultResult causeSelfVerify (fnKeygenCycles job.set_)
    else
      { out := pk
        mat := { attr := s.claimAttr job, secret := s.freeWrap, cache := Config.cacheOf c job.random, pub := pk }
        cycles := fnKeygenCycles job.set_ })

/-- The salt is the job's 40 random bytes, kept through every attempt (R202, R207); the sampler's words are the expander's. -/
def State.fnSign (s : State) (job : Job) (pre faulted : Bool) : OpResult :=
  let set := job.set_
  let c := s.jobClass job
  let ph := pPh job.desc.param
  let m := job.key1.material
  let rep := representative pre ph (inputCtx job) (inputMsg job)
  let rnd := job.random ++ s.freeValue 1 32
  let a := 1 + Config.iterations c m rep rnd
  let runs := min a 64
  let cycles := fnSignCycles job.order2 set runs + fnExtra set job.random rep +
    (if pre then phCycles ph (inputMsg job).length else 0) + s.streamCycles job.desc.inLen
  let words := fnAttemptWords job.order2 set * runs
  if faulted ∨ 64 < a then { faultResult causeSelfVerify cycles with words := words }
  else { out := padTo (fnSig set) (Config.signature c m rep rnd), detail := a, cycles := cycles, words := words }

/-- FN_DSA_SIGN. -/
def execFnDsaSign (j : Nat) (faulted : Bool) (s : State) : Result :=
  .next (s.runOp j (fun k => decide (k = .fnSign false)) fun s job => s.fnSign job false faulted)

/-- HASHFN_DSA_SIGN. -/
def execHashfnDsaSign (j : Nat) (faulted : Bool) (s : State) : Result :=
  .next (s.runOp j (fun k => decide (k = .fnSign true)) fun s job => s.fnSign job true faulted)

/-- SIG_LEN names the signature's length, or 0 the padded one (R197, R203). An inline public key that FIPS 206 refuses ends the
job with INPUT_INVALID (R205). -/
def State.fnVerify (s : State) (job : Job) (pre : Bool) : OpResult :=
  let set := job.set_
  let c := s.jobClass job
  let ph := pPh job.desc.param
  let n := pSigLen job.desc.param
  match verifyParts job (fnPk set) (if n = 0 then fnSig set else n) with
  | none => verdict false (fnVerifyCycles set)
  | some (pk, sig, ctx, m) =>
    let rep := representative pre ph ctx m
    let cycles := fnVerifyCycles set + fnExtra set (slice sig 1 40) rep +
      (if pre then phCycles ph m.length else 0) + s.streamCycles job.desc.inLen
    if job.desc.keyForm = 0 ∧ !Config.keyOk c pk then { status := Status.inputInvalid, cycles := cycles }
    else verdict (Config.sigOk c pk rep sig) cycles

/-- FN_DSA_VERIFY. -/
def execFnDsaVerify (j : Nat) (s : State) : Result :=
  .next (s.runOp j (fun k => decide (k = .fnVerify false)) fun s job => s.fnVerify job false)

/-- HASHFN_DSA_VERIFY. -/
def execHashfnDsaVerify (j : Nat) (s : State) : Result :=
  .next (s.runOp j (fun k => decide (k = .fnVerify true)) fun s job => s.fnVerify job true)

/-! Composite hybrids (R208 to R210). -/

/-- Mc, whose context and message follow one another in the input. -/
def compMessage (set ctxLen : Nat) (rest : List Byte) : List Byte :=
  ascii "IXCS" ++ leBytes 1 set ++ leBytes 1 ctxLen ++ rest

/-- The ECDSA part's digest. -/
def compDigest (set : Nat) (mc : List Byte) : List Byte := sha2 (if set = 3 then 2 else 1) mc

/-- The ECDSA verify engine cycles and signing words of a part (R253, R506). -/
def compEcCycles (set : Nat) : Nat := if set = 3 then 410000 else 170700
def compEcWords (o2 : Bool) (set : Nat) : Nat := if set = 3 then byOrder o2 3 6 else byOrder o2 2 4

/-- COMPOSITE_SIGN: both parts sign Mc; the ML-DSA part is hedged and pure with an empty context. -/
def execCompositeSign (j : Nat) (fault : Option FaultCheck) (s : State) : Result :=
  .next (s.runEngineOp j (fun k => decide (k = .compSign)) fun s job =>
    let set := job.set_
    let mc := compMessage set (pCtxLen job.desc.param) job.input
    let r := s.dsaSignature job (0x20 + set) set true (representative false 0 [] mc) fault
    let ec := padTo (compSig set - dsaSig set)
      (Config.signature (compClass set) job.key2.material (compDigest set mc) (s.freeValue 2 64))
    { r with
      out := if r.status = Status.ok then r.out ++ ec else []
      cycles := r.cycles + 4000
      words := r.words + compEcWords job.order2 set })

/-- COMPOSITE_VERIFY: both parts are always verified, and DETAIL names the ones that fail. -/
def execCompositeVerify (j : Nat) (s : State) : Result :=
  .next (s.runEngineOp j (fun k => decide (k = .compVerify)) fun s job =>
    let set := job.set_
    let n := dsaPk set
    match verifyParts job (n + compEc set) (compSig set) with
    | none => { status := Status.verifyFail, detail := 3, cycles := 4000 + max (dsaVerifyCycles set) (compEcCycles set) }
    | some (pk, sig, ctx, m) =>
      let (ml, ec) := if job.desc.keyForm = 0 then (pk.take n, pk.drop n) else (job.key1.pub, job.key2.pub)
      let mc := compMessage set ctx.length (ctx ++ m)
      let r := dsaCheck (0x20 + set) set ml (representative false 0 [] mc) (sig.take (dsaSig set))
      let ecOk := Config.sigOk (compClass set) ec (compDigest set mc) (sig.drop (dsaSig set))
      let cycles := 4000 + max r.2 (compEcCycles set) + s.streamCycles job.desc.inLen
      if job.desc.keyForm = 0 ∧ !uncompressed ec then { status := Status.inputInvalid, cycles := cycles }
      else if job.desc.keyForm = 0 ∧ !onCurve (compClass set) ec then { status := Status.pointInvalid, cycles := cycles }
      else { verdict (r.1 && ecOk) cycles with detail := ofBool (!r.1) + 2 * ofBool (!ecOk) })

end Sys2Proof.Machine
end

