-- ==== Sys2Proof/Machine/OpsClassic.lean ====
section
/-!
DEFINITION. The operations of group 0x4: ECDSA, EdDSA, key agreement and RSA (R248 to R253, R506). The spec gives the held cycles of
an engine, not a job's execute cycles: these are free (log entry 3).
-/
namespace Sys2Proof.Config

/-- The private scalar of a NIST curve from the random input of its generation (R249; log entry 26). -/
opaque privateKey : Nat → List Byte → List Byte
/-- How often an engine program of a signature restarts, by class, key, digest and random input (R252; log entry 26). -/
opaque restarts : Nat → List Byte → List Byte → List Byte → Nat

end Sys2Proof.Config

namespace Sys2Proof.Machine

/-- The expander words of a scalar multiplication or private operation by class (R506). -/
def classicWords (o2 : Bool) (cls : Nat) : Nat :=
  match cls with
  | 0x71 | 0x74 | 0x76 => byOrder o2 2 4
  | 0x72 | 0x75 | 0x77 => byOrder o2 3 6
  | 0x73 => byOrder o2 4 8
  | 0x79 => byOrder o2 10 20
  | 0x7A => byOrder o2 14 28
  | _ => byOrder o2 18 36

/-- The execute cycles of a job of group 0x4. -/
def State.classicCycles (s : State) : Nat := Config.freeNat s.free 0

/-- A generated pair: Q, A or u is the output (R250, R251). -/
def State.classicPair (s : State) (job : Job) (cls : Nat) (d : List Byte) : OpResult :=
  let pub := if cls ≤ 0x73 then 4#8 :: padTo (2 * curveL cls) (Config.publicKey cls d)
    else padTo (curveL cls) (Config.publicKey cls d)
  let a := s.claimAttr job
  { out := pub
    mat := if cacheClass cls then { attr := a, secret := s.freeWrap, cache := d, pub := pub }
      else { attr := a, secret := d, pub := pub }
    cycles := s.classicCycles
    words := classicWords job.order2 cls }

/-- The private key from the random input: a scalar of L bytes, or the bytes themselves for Edwards and Montgomery curves. -/
def privateOf (cls : Nat) (random : List Byte) : List Byte :=
  if cls ≤ 0x73 then padTo (curveL cls) (Config.privateKey cls random) else random

/-- ECDSA_KEYGEN. -/
def execEcdsaKeygen (j : Nat) (s : State) : Result :=
  .next (s.runEngineOp j (fun k => decide (k = .ecdsaKeygen)) fun s job =>
    s.classicPair job (s.jobClass job) (privateOf (s.jobClass job) job.random))

/-- EDDSA_KEYGEN. -/
def execEddsaKeygen (j : Nat) (s : State) : Result :=
  .next (s.runEngineOp j (fun k => decide (k = .eddsaKeygen)) fun s job =>
    s.classicPair job (s.jobClass job) (privateOf (s.jobClass job) job.random))

/-- KA_KEYGEN. -/
def execKaKeygen (j : Nat) (s : State) : Result :=
  .next (s.runEngineOp j (fun k => decide (k = .kaKeygen)) fun s job =>
    s.classicPair job (s.jobClass job) (privateOf (s.jobClass job) job.random))

/-! ECDSA. -/

/-- A hedged signature of a digest; a RESTART draws the words again (R249, R252, R506). -/
def State.ecdsaSign (s : State) (job : Job) (digest : List Byte) : OpResult :=
  let c := s.jobClass job
  let rnd := s.freeValue 1 (32 * classicWords job.order2 c)
  { out := padTo (2 * curveL c) (Config.signature c job.key1.material digest rnd)
    cycles := s.classicCycles
    words := classicWords job.order2 c * (1 + Config.restarts c job.key1.material digest rnd) }

/-- ECDSA_SIGN_MESSAGE. -/
def execEcdsaSignMessage (j : Nat) (s : State) : Result :=
  .next (s.runEngineOp j (fun k => decide (k = .ecdsaSign false)) fun s job =>
    s.ecdsaSign job (phDigest (pPh job.desc.param) job.input))

/-- ECDSA_SIGN_DIGEST. -/
def execEcdsaSignDigest (j : Nat) (s : State) : Result :=
  .next (s.runEngineOp j (fun k => decide (k = .ecdsaSign true)) fun s job => s.ecdsaSign job job.input)

/-- r and s lie between 1 and n − 1 (R252). -/
def ecdsaRange (cls : Nat) (sig : List Byte) : Bool :=
  let n := (curveParams cls).2.2
  let r := beNat (sig.take (curveL cls))
  let t := beNat (sig.drop (curveL cls))
  decide (0 < r ∧ r < n ∧ 0 < t ∧ t < n)

/-- Verification: an inline Q is uncompressed and on its curve (R251, R252). -/
def State.ecdsaVerify (s : State) (job : Job) (digest : Bool) : OpResult :=
  let c := s.jobClass job
  let cycles := s.classicCycles
  match verifyParts job (curvePub c) (2 * curveL c) with
  | none => verdict false cycles
  | some (q, sig, _, m) =>
    if job.desc.keyForm = 0 ∧ !uncompressed q then { status := Status.inputInvalid, cycles := cycles }
    else if job.desc.keyForm = 0 ∧ !onCurve c q then { status := Status.pointInvalid, cycles := cycles }
    else verdict (ecdsaRange c sig && Config.sigOk c q (if digest then m else phDigest (pPh job.desc.param) m) sig) cycles

/-- ECDSA_VERIFY_MESSAGE. -/
def execEcdsaVerifyMessage (j : Nat) (s : State) : Result :=
  .next (s.runEngineOp j (fun k => decide (k = .ecdsaVerify false)) fun s job => s.ecdsaVerify job false)

/-- ECDSA_VERIFY_DIGEST. -/
def execEcdsaVerifyDigest (j : Nat) (s : State) : Result :=
  .next (s.runEngineOp j (fun k => decide (k = .ecdsaVerify true)) fun s job => s.ecdsaVerify job true)

/-! EdDSA. -/

/-- What an EdDSA signature covers: the context and the message. -/
def eddsaMessage (ctx m : List Byte) : List Byte := leBytes 1 ctx.length ++ ctx ++ m

/-- EDDSA_SIGN: Ed25519 pure, or Ed448 with its context (R249). -/
def execEddsaSign (j : Nat) (s : State) : Result :=
  .next (s.runEngineOp j (fun k => decide (k = .eddsaSign)) fun s job =>
    let c := s.jobClass job
    { out := padTo (2 * curveL c) (Config.signature c job.key1.material (eddsaMessage (inputCtx job) (inputMsg job)) [])
      cycles := s.classicCycles
      words := classicWords job.order2 c })

/-- EDDSA_VERIFY: a point that fails to decode ends with POINT_INVALID (R252). -/
def execEddsaVerify (j : Nat) (s : State) : Result :=
  .next (s.runEngineOp j (fun k => decide (k = .eddsaVerify)) fun s job =>
    let c := s.jobClass job
    let cycles := s.classicCycles
    match verifyParts job (curvePub c) (2 * curveL c) with
    | none => verdict false cycles
    | some (a, sig, ctx, m) =>
      if (job.desc.keyForm = 0 ∧ !Config.keyOk c a) ∨ !Config.keyOk c (sig.take (curveL c)) then
        { status := Status.pointInvalid, cycles := cycles }
      else verdict (Config.sigOk c a (eddsaMessage ctx m) sig) cycles)

/-! Key agreement. -/

/-- KA_DERIVE: the shared secret is the x-coordinate or the function's result; an all-zero result of X25519 or X448 is refused
(R249, R252). -/
def execKaDerive (j : Nat) (s : State) : Result :=
  .next (s.runEngineOp j (fun k => decide (k = .kaDerive)) fun s job =>
    let c := s.jobClass job
    let cycles := s.classicCycles
    let words := classicWords job.order2 c
    let q := job.input
    let ss := padTo (curveL c) (Config.decaps c job.key1.material q)
    if c ≤ 0x73 ∧ !uncompressed q then { status := Status.inputInvalid, cycles := cycles, words := words }
    else if (if c ≤ 0x73 then !onCurve c q else decide (leNat ss = 0)) then
      { status := Status.pointInvalid, cycles := cycles, words := words }
    else s.shared job [] ss cycles words)

/-! RSA (PKCS #1 v2.2). -/

/-- The public operation: the exponent is 65,537 (R249). -/
def rsaPublic (n x : Nat) : Nat := powMod x 65537 n

/-- The private operation from n, p, q, dp, dq and qinv as the key cache holds them (R250). -/
def rsaPrivate (set : Nat) (cache : List Byte) (x : Nat) : Nat :=
  let w := rsaN set
  let part := fun i => beNat (slice cache (w + w / 2 * i) (w / 2))
  let p := part 0
  let q := part 1
  let m1 := powMod (x % p) (part 2) p
  let m2 := powMod (x % q) (part 3) q
  m2 + q * (part 4 * ((m1 + p * q - m2) % p) % p)

/-- The hash of a PH value of RSA: SHA-256, SHA-384, SHA-512, which is MGF1's too (R248). -/
def rsaHash (ph : Nat) (m : List Byte) : List Byte := phDigest ph m

/-- MGF1. -/
def mgf1 (ph : Nat) (seed : List Byte) (n : Nat) : List Byte :=
  ((List.range (n / 32 + 1)).flatMap fun i => rsaHash ph (seed ++ beBytes 4 i)).take n

/-- EMSA-PSS with a salt as long as the hash; the modulus has 8n bits. -/
def pssEncode (ph n : Nat) (digest salt : List Byte) : List Byte :=
  let h := rsaHash ph (List.replicate 8 0#8 ++ digest ++ salt)
  let db := List.replicate (n - 2 * salt.length - 2) 0#8 ++ [1#8] ++ salt
  let masked := xorBytes db (mgf1 ph h db.length)
  ((masked.take 1).map (· &&& 0x7F#8)) ++ masked.drop 1 ++ h ++ [0xBC#8]

/-- EMSA-PSS verification. -/
def pssOk (ph n : Nat) (digest em : List Byte) : Bool :=
  let l := phBytes ph
  let masked := em.take (n - l - 1)
  let h := slice em (n - l - 1) l
  let db := xorBytes masked (mgf1 ph h masked.length)
  let salt := db.drop (db.length - l)
  decide (em.length = n ∧ em.drop (n - 1) = [0xBC#8] ∧ leNat (em.take 1) < 128 ∧ em = pssEncode ph n digest salt)

/-- EMSA-PKCS1-v1_5 of a digest. -/
def v15Encode (ph n : Nat) (digest : List Byte) : List Byte :=
  let t := beBytes 19 (match ph with
    | 0 => 0x3031300D060960864801650304020105000420
    | 1 => 0x3041300D060960864801650304020205000430
    | _ => 0x3051300D060960864801650304020305000440) ++ digest
  [0#8, 1#8] ++ List.replicate (n - t.length - 3) 0xFF#8 ++ [0#8] ++ t

/-- EME-OAEP of a message. -/
def oaepEncode (ph n : Nat) (label m seed : List Byte) : List Byte :=
  let l := phBytes ph
  let db := rsaHash ph label ++ List.replicate (n - m.length - 2 * l - 2) 0#8 ++ [1#8] ++ m
  let maskedDb := xorBytes db (mgf1 ph seed db.length)
  0#8 :: xorBytes seed (mgf1 ph maskedDb l) ++ maskedDb

/-- The message of an EME-OAEP encoding. -/
def oaepDecode (ph n : Nat) (label em : List Byte) : Option (List Byte) :=
  let l := phBytes ph
  let maskedDb := em.drop (1 + l)
  let seed := xorBytes (slice em 1 l) (mgf1 ph maskedDb l)
  let db := xorBytes maskedDb (mgf1 ph seed maskedDb.length)
  let rest := (db.drop l).dropWhile (· = 0#8)
  if em.length = n ∧ em.head? = some 0#8 ∧ db.take l = rsaHash ph label ∧ rest.head? = some 1#8 then some (rest.drop 1)
  else none

/-- The modulus of a public operation: inline, with its bytes counted, or the slot's. -/
def rsaModulus (job : Job) : List Byte := if job.desc.keyForm = 0 then job.input.take (rsaN job.set_) else job.key1.pub

/-- An inline n is odd and has its top bit set (R252). -/
def modulusOk (n : List Byte) : Bool := decide (beNat n % 2 = 1 ∧ 128 ≤ leNat (n.take 1))

/-- A private operation with the self-verification of R188: NONCANONICAL for an input of n or more, FAULT_DETECTED where the
result raised to e is not the input. -/
def State.rsaUse (s : State) (job : Job) (faulted : Bool) (x : List Byte) (f : List Byte → OpResult) : OpResult :=
  let set := job.set_
  let cycles := s.classicCycles
  let words := classicWords job.order2 (0x78 + set)
  let n := beNat (job.key1.cache.take (rsaN set))
  let y := rsaPrivate set job.key1.cache (beNat x)
  if n ≤ beNat x then { status := Status.noncanonical, cycles := cycles, words := words }
  else if faulted ∨ rsaPublic n y ≠ beNat x then { faultResult causeSelfVerify cycles with words := words }
  else { f (beBytes (rsaN set) y) with cycles := cycles, words := words }

/-- RSASSA_PSS_SIGN: the salt is as long as the hash. -/
def execRsassaPssSign (j : Nat) (faulted : Bool) (s : State) : Result :=
  .next (s.runEngineOp j (fun k => decide (k = .pssSign)) fun s job =>
    let ph := pPh job.desc.param
    let em := pssEncode ph (rsaN job.set_) (rsaHash ph job.input) (s.freeValue 1 (phBytes ph))
    s.rsaUse job faulted em fun y => { out := y })

/-- RSAES_OAEP_DECRYPT. -/
def execRsaesOaepDecrypt (j : Nat) (faulted : Bool) (s : State) : Result :=
  .next (s.runEngineOp j (fun k => decide (k = .oaepDecrypt)) fun s job =>
    s.rsaUse job faulted (inputMsg job) fun y =>
      match oaepDecode (pPh job.desc.param) (rsaN job.set_) (inputCtx job) y with
      | some m => { out := m }
      | none => { status := Status.verifyFail })

/-- RSAES_OAEP_ENCRYPT: the spec names no source for the seed, which is free. -/
def execRsaesOaepEncrypt (j : Nat) (s : State) : Result :=
  .next (s.runEngineOp j (fun k => decide (k = .oaepEncrypt)) fun s job =>
    let w := rsaN job.set_
    let ph := pPh job.desc.param
    let cycles := s.classicCycles
    let n := rsaModulus job
    let rest := if job.desc.keyForm = 0 then job.input.drop w else job.input
    let c := pCtxLen job.desc.param
    if job.desc.keyForm = 0 ∧ !modulusOk n then { status := Status.inputInvalid, cycles := cycles }
    else
      let em := oaepEncode ph w (rest.take c) (rest.drop c) (s.freeValue 1 (phBytes ph))
      { out := beBytes w (rsaPublic (beNat n) (beNat em)), cycles := cycles })

/-- Verification of an RSA signature by an encoding (R252). -/
def State.rsaVerify (s : State) (job : Job) (ok : List Byte → List Byte → Bool) : OpResult :=
  let w := rsaN job.set_
  let cycles := s.classicCycles
  match verifyParts job w w with
  | none => verdict false cycles
  | some (n, sig, _, m) =>
    if job.desc.keyForm = 0 ∧ !modulusOk n then { status := Status.inputInvalid, cycles := cycles }
    else if beNat n ≤ beNat sig then { status := Status.noncanonical, cycles := cycles }
    else verdict (ok (rsaHash (pPh job.desc.param) m) (beBytes w (rsaPublic (beNat n) (beNat sig)))) cycles

/-- RSASSA_PSS_VERIFY. -/
def execRsassaPssVerify (j : Nat) (s : State) : Result :=
  .next (s.runEngineOp j (fun k => decide (k = .pssVerify)) fun s job =>
    s.rsaVerify job fun digest em => pssOk (pPh job.desc.param) (rsaN job.set_) digest em)

/-- PKCS1_V15_VERIFY. -/
def execPkcs1V15Verify (j : Nat) (s : State) : Result :=
  .next (s.runEngineOp j (fun k => decide (k = .v15Verify)) fun s job =>
    s.rsaVerify job fun digest em => decide (em = v15Encode (pPh job.desc.param) (rsaN job.set_) digest))

end Sys2Proof.Machine
end

