-- ==== Sys2Proof/Machine/OpsSymmetric.lean ====
section
/-!
DEFINITION. The operations of group 0x5: hashing, MACs, cipher modes and wrapping (R267 to R272). Each is a function of its key,
input and random bytes, which the session contexts of R321 use too.
-/
namespace Sys2Proof.Config

/-- TKW: the spec gives its ciphertext 8 bytes more than the plaintext, which SP 800-38F does not; its bytes are opaque (log
entry 15). -/
opaque tkwWrap : List Byte → List Byte → List Byte
/-- TKW's unwrap, with its integrity check. -/
opaque tkwUnwrap : List Byte → List Byte → Option (List Byte)

end Sys2Proof.Config

namespace Sys2Proof.Machine

/-! Results. -/

/-- The hash of ALG 0x00 to 0x0A (R257). -/
def hashAlg (alg olen : Nat) (m : List Byte) : List Byte :=
  match alg with
  | 5 => sha3 28 m
  | 6 => sha3 32 m
  | 7 => sha3 48 m
  | 8 => sha3 64 m
  | 9 => shake 128 olen m
  | 10 => shake 256 olen m
  | a => sha2 a m

/-- The MAC of a MAC operation over S and M, before truncation (R270, R277). -/
def macOf (k : OpKind) (set p : Nat) (key s m : List Byte) : List Byte :=
  match k with
  | .hmac _ => hmac (sha2 (set - 1)) (shaBlockLen (set - 1)) key m
  | .kmac _ => kmac (if set = 1 then 128 else 256) (pOlen p) key m s
  | .cmac _ => cmacTag (if set = 1 then aesCipher key else tdesCipher key) m
  | _ => mac3Tag key (mac3Pad (pPad2 p) m)

/-- A MAC operation verifies. -/
def macVerifies (k : OpKind) : Bool :=
  match k with | .hmac v | .kmac v | .cmac v | .mac3 v => v | _ => false

/-- The bytes of S in a MAC operation's input. -/
def macAux (k : OpKind) (p : Nat) : Nat := match k with | .kmac _ => pAux p | _ => 0

/-- S and M of a MAC operation's input: a verification's input begins with the MAC (R270). -/
def macParts (k : OpKind) (p : Nat) (d : List Byte) : List Byte × List Byte :=
  let h := if macVerifies k then pOlen p else 0
  (slice d h (macAux k p), d.drop (h + macAux k p))

/-- The end of a MAC operation: OLEN bytes, or a verdict; an input too short to verify fails (R271). -/
def macEnd (k : OpKind) (set p : Nat) (key d : List Byte) : Nat × List Byte :=
  let (s, m) := macParts k p d
  let tag := (macOf k set p key s m).take (pOlen p)
  if !macVerifies k then (Status.ok, tag)
  else if d.length < pOlen p + macAux k p ∨ d.take (pOlen p) ≠ tag then (Status.verifyFail, [])
  else (Status.ok, [])

/-- A cipher mode that takes an IV or counter block (R270). -/
def modeCipher (dec : Bool) (mode : Nat) (c : Cipher) (iv data : List Byte) : List Byte :=
  let bs := blocksOf c.len data
  match mode, dec with
  | 1, false => ecb c.enc c.len data
  | 1, true => ecb c.dec c.len data
  | 2, false => cbcEnc c iv bs
  | 2, true => cbcDec c iv bs
  | 3, false => cfbEnc c iv bs
  | 3, true => cfbDec c iv bs
  | 4, _ => ofb c iv bs
  | _, _ => ctr c (beNat iv) bs

/-- GCM encryption: the IV comes first where the device drew it (R270). -/
def gcmSeal (p : Nat) (key d drawn : List Byte) : List Byte :=
  let (iv, rest) := if pIvgen p then (drawn, d) else (d.take 12, d.drop 12)
  let aad := rest.take (pAux p)
  let ct := gcmCtr key iv (rest.drop (pAux p))
  (if pIvgen p then iv else []) ++ ct ++ (gcmTag key iv aad ct).take (pOlen p)

/-- GCM decryption: nothing where the tag does not match. -/
def gcmOpen (p : Nat) (key d : List Byte) : Option (List Byte) :=
  let iv := d.take 12
  let rest := d.drop 12
  let aad := rest.take (pAux p)
  let n := rest.length - pAux p - pOlen p
  let ct := slice rest (pAux p) n
  if (gcmTag key iv aad ct).take (pOlen p) = rest.drop (pAux p + n) then some (gcmCtr key iv ct) else none

/-- The status and output of an operation of group 0x5 (R270, R271). -/
def symOutput (k : OpKind) (set p : Nat) (key d drawn : List Byte) : Nat × List Byte :=
  let opt := fun (o : Option (List Byte)) => match o with | some x => (Status.ok, x) | none => (Status.verifyFail, [])
  match k with
  | .hash => (Status.ok, hashAlg (set - 1) (pOlen p) d)
  | .hmac _ | .kmac _ | .cmac _ | .mac3 _ => macEnd k set p key d
  | .aes dec =>
    if set = 6 then (if dec then opt (gcmOpen p key d) else (Status.ok, gcmSeal p key d drawn))
    else
      let iv := if set = 1 then 0 else 16
      (Status.ok, modeCipher dec set (aesCipher key) (d.take iv) (d.drop iv))
  | .tdes dec =>
    let iv := if set = 1 then 0 else 8
    (Status.ok, modeCipher dec set (tdesCipher key) (d.take iv) (d.drop iv))
  | .wrap false =>
    (Status.ok, match set with | 1 => kwWrap key kwIcv d | 2 => kwpWrap key d | _ => Config.tkwWrap key d)
  | .wrap true =>
    match set with
    | 1 => let r := kwUnwrap key d; opt (if r.1 = kwIcv then some r.2 else none)
    | 2 => opt (kwpUnwrap key d)
    | _ => opt (Config.tkwUnwrap key d)
  | _ => (Status.ok, [])

/-! Cycles and words (R181, R184, R272). -/

/-- Blocks of `bs` bytes that hold `n` bytes. -/
def ceilDiv (n bs : Nat) : Nat := (n + bs - 1) / bs

/-- Cycles and words of a pass at order 2, by cipher and key length (R181). -/
def passCost (isAes : Bool) (keyLen : Nat) : Nat × Nat :=
  if !isAes then (57600, 7680)
  else match keyLen with | 16 => (19200, 2560) | 24 => (22800, 3072) | _ => (26400, 3584)

/-- Cycles and words of `calls` cipher calls: at order 1 one by one, at order 2 in passes of 64 where they are not chained. -/
def cipherCost (o2 isAes chained : Bool) (keyLen calls : Nat) : Nat × Nat :=
  let p := passCost isAes keyLen
  let passes := if chained then calls else ceilDiv calls 64
  if o2 then (600 + p.1 * passes, p.2 * passes)
  else if isAes then
    let (a, k) := match keyLen with | 16 => (42, 46) | 24 => (50, 54) | _ => (58, 62)
    (600 + k + a * calls, 2 * calls)
  else (600 + 24 + 195 * calls, 2 * calls)

/-- SHA-2 blocks of a message with its padding. -/
def sha2Blocks (variant n : Nat) : Nat := if variant ≤ 1 then ceilDiv (n + 9) 64 else ceilDiv (n + 17) 128
/-- Cycles of a plain SHA-2 block. -/
def sha2Cycles (variant : Nat) : Nat := if variant ≤ 1 then 70 else 86

/-- Permutations of a sponge at a rate: absorbing with padding, and squeezes beyond the first. -/
def spongeCalls (rate n out : Nat) : Nat := n / rate + 1 + (ceilDiv out rate - 1)

/-- The rate of ALG 0x05 to 0x0A. -/
def algRate (alg : Nat) : Nat := match alg with | 5 => 144 | 6 | 10 => 136 | 7 => 104 | 8 => 72 | _ => 168

/-- Cycles and words of a MAC operation over S and M of these lengths. -/
def macCost (o2 : Bool) (k : OpKind) (set p keyLen : Nat) (s m : List Byte) : Nat × Nat :=
  match k with
  | .hmac _ =>
    let v := set - 1
    let further := sha2Blocks v m.length + 1
    let h := if v ≤ 1 then byOrder o2 9000 27000 else byOrder o2 12000 36000
    (600 + 2 * h + sha2Cycles v * further, 2 * if v ≤ 1 then byOrder o2 1500 4500 else byOrder o2 2000 6000)
  | .kmac _ =>
    let rate := if set = 1 then 168 else 136
    let head := (bytepad (encodeString (ascii "KMAC") ++ encodeString s) rate).length / rate
    let further := head + spongeCalls rate (m.length + (rightEncode (8 * pOlen p)).length) (pOlen p)
    (600 + byOrder o2 1008 3024 + 36 * further, byOrder o2 168 504)
  | .cmac _ =>
    let bs := if set = 1 then 16 else 8
    cipherCost o2 (decide (set = 1)) true keyLen (max 1 (ceilDiv m.length bs) + 1)
  | _ => cipherCost o2 false true keyLen ((mac3Pad (pPad2 p) m).length + 1)

/-- Cycles and words of an operation of group 0x5. -/
def symCost (o2 : Bool) (k : OpKind) (set p keyLen : Nat) (d : List Byte) : Nat × Nat :=
  match k with
  | .hash =>
    let alg := set - 1
    (if alg < 5 then 300 + sha2Cycles alg * sha2Blocks alg d.length
     else 300 + 36 * spongeCalls (algRate alg) d.length (if alg < 9 then 0 else pOlen p), 0)
  | .hmac _ | .kmac _ | .cmac _ | .mac3 _ => let (s, m) := macParts k p d; macCost o2 k set p keyLen s m
  | .aes dec =>
    if set = 6 then
      let fixed := (if pIvgen p then 0 else 12) + pAux p + if dec then pOlen p else 0
      let b := ceilDiv (d.length - fixed) 16
      let c := cipherCost o2 true false keyLen (b + 2)
      (c.1 + 12 * b, c.2)
    else
      let chained := decide (set = 4) || (decide (set = 2 ∨ set = 3) && !dec)
      cipherCost o2 true chained keyLen (ceilDiv (d.length - if set = 1 then 0 else 16) 16)
  | .tdes dec => cipherCost o2 false (decide (set = 2) && !dec) keyLen ((d.length - if set = 1 then 0 else 8) / 8)
  | .wrap u => cipherCost o2 (decide (set ≠ 3)) true keyLen (6 * (if u then d.length / 8 - 1 else ceilDiv d.length 8))
  | _ => (0, 0)

/-- An operation of group 0x5 or a MAC of group 0x6 as a job's program. -/
def State.symRun (s : State) (job : Job) (k : OpKind) : OpResult :=
  let p := job.desc.param
  let r := symOutput k job.set_ p job.key1.secret job.input job.random
  let c := symCost job.order2 k job.set_ p job.key1.secret.length job.input
  { status := r.1, out := r.2, cycles := c.1 + s.streamCycles job.desc.inLen, words := c.2 }

/-- HASH. -/
def execHash (j : Nat) (s : State) : Result :=
  .next (s.runOp j (fun k => decide (k = .hash)) fun s job => s.symRun job .hash)

/-- HMAC_GENERATE. -/
def execHmacGenerate (j : Nat) (s : State) : Result :=
  .next (s.runOp j (fun k => decide (k = .hmac false)) fun s job => s.symRun job (.hmac false))

/-- HMAC_VERIFY. -/
def execHmacVerify (j : Nat) (s : State) : Result :=
  .next (s.runOp j (fun k => decide (k = .hmac true)) fun s job => s.symRun job (.hmac true))

/-- KMAC_GENERATE. -/
def execKmacGenerate (j : Nat) (s : State) : Result :=
  .next (s.runOp j (fun k => decide (k = .kmac false)) fun s job => s.symRun job (.kmac false))

/-- KMAC_VERIFY. -/
def execKmacVerify (j : Nat) (s : State) : Result :=
  .next (s.runOp j (fun k => decide (k = .kmac true)) fun s job => s.symRun job (.kmac true))

/-- AES_ENCRYPT. -/
def execAesEncrypt (j : Nat) (s : State) : Result :=
  .next (s.runOp j (fun k => decide (k = .aes false)) fun s job => s.symRun job (.aes false))

/-- AES_DECRYPT. -/
def execAesDecrypt (j : Nat) (s : State) : Result :=
  .next (s.runOp j (fun k => decide (k = .aes true)) fun s job => s.symRun job (.aes true))

/-- TDES_ENCRYPT. -/
def execTdesEncrypt (j : Nat) (s : State) : Result :=
  .next (s.runOp j (fun k => decide (k = .tdes false)) fun s job => s.symRun job (.tdes false))

/-- TDES_DECRYPT. -/
def execTdesDecrypt (j : Nat) (s : State) : Result :=
  .next (s.runOp j (fun k => decide (k = .tdes true)) fun s job => s.symRun job (.tdes true))

/-- CMAC_GENERATE. -/
def execCmacGenerate (j : Nat) (s : State) : Result :=
  .next (s.runOp j (fun k => decide (k = .cmac false)) fun s job => s.symRun job (.cmac false))

/-- CMAC_VERIFY. -/
def execCmacVerify (j : Nat) (s : State) : Result :=
  .next (s.runOp j (fun k => decide (k = .cmac true)) fun s job => s.symRun job (.cmac true))

/-- WRAP. -/
def execWrap (j : Nat) (s : State) : Result :=
  .next (s.runOp j (fun k => decide (k = .wrap false)) fun s job => s.symRun job (.wrap false))

/-- UNWRAP: a failed integrity check writes nothing. -/
def execUnwrap (j : Nat) (s : State) : Result :=
  .next (s.runOp j (fun k => decide (k = .wrap true)) fun s job => s.symRun job (.wrap true))

/-- MAC_ALGORITHM_3_GENERATE (R277). -/
def execMacAlgorithm3Generate (j : Nat) (s : State) : Result :=
  .next (s.runOp j (fun k => decide (k = .mac3 false)) fun s job => s.symRun job (.mac3 false))

/-- MAC_ALGORITHM_3_VERIFY (R277). -/
def execMacAlgorithm3Verify (j : Nat) (s : State) : Result :=
  .next (s.runOp j (fun k => decide (k = .mac3 true)) fun s job => s.symRun job (.mac3 true))

end Sys2Proof.Machine
end

