-- ==== Sys2Proof/Machine/OpsContext.lean ====
section
/-!
DEFINITION. Session contexts (R321, R322), owner extensions (R364) and the admin operation MCTP_MESSAGE (R428).
-/
namespace Sys2Proof.Machine

/-! Contexts. -/

/-- The underlying operation of a code. -/
def underlying (code : Nat) : OpKind := (opClassic code).getD .hash

/-- KIND of KEY_CTX (R325). -/
def ctxKind (code : Nat) : Nat :=
  match underlying code with
  | .hash => 1
  | .aes _ => if setOf code = 6 then 4 else 3
  | .tdes _ => 3
  | _ => 2

/-- The bytes of the underlying prefix: IV, AAD or S. -/
def prefixLen (code p : Nat) : Nat :=
  match underlying code with
  | .aes _ => if setOf code = 6 then (if pIvgen p then 0 else 12) + pAux p else if setOf code = 1 then 0 else 16
  | .tdes _ => if setOf code = 1 then 0 else 8
  | .kmac _ => pAux p
  | _ => 0

/-- Cycles and words of a context job: the spec gives no figures, so both are free (log entry 3). -/
def State.ctxResult (s : State) (status : Nat) (out : List Byte) (c : Option Ctx) : OpResult :=
  { status := status, out := out, ctx := c, cycles := Config.freeNat s.free 0, words := Config.freeNat s.free 1 }

/-- CONTEXT_OPEN: the context takes the underlying PARAM and prefix, and its key's attribute word. An IV that the device draws is
drawn here. -/
def execContextOpen (j : Nat) (s : State) : Result :=
  .next (s.runOp j (fun k => decide (k = .ctxOpen)) fun s job =>
    let op := bits job.desc.param 15 0
    let p := field job.input 0 8
    let head := job.input.drop 8
    let drawn := match underlying op with | .aes false => if setOf op = 6 ∧ pIvgen p then s.freeValue 1 12 else [] | _ => []
    if !paramOk (underlying op) (setOf op) p ∨ head.length ≠ prefixLen op p then s.ctxResult Status.inputInvalid [] none
    else s.ctxResult Status.ok [] (some
      { state := .opened, migratable := bit job.desc.param 28, kind := ctxKind op, owner := job.tenant,
        keyed := decide (job.desc.keyForm = 1), slot := if job.desc.keyForm = 1 then job.desc.keyIndex else 0, op := op,
        attr := job.key1.attr, param := p, head := drawn ++ head }))

/-- A context's output of `n` data bytes that is settled: whole blocks of ECB and CBC, every byte of the other modes. -/
def Ctx.settled (c : Ctx) (n : Nat) : Nat :=
  match underlying c.op with
  | .tdes _ => n / 8 * 8
  | .aes _ => if setOf c.op ≤ 2 then n / 16 * 16 else n
  | _ => 0

/-- The cipher's output over `data`. -/
def Ctx.stream (c : Ctx) (key data : List Byte) : List Byte :=
  match underlying c.op with
  | .tdes dec => modeCipher dec (setOf c.op) (tdesCipher key) c.head data
  | .aes dec => if setOf c.op = 6 then gcmCtr key (c.head.take 12) data
    else modeCipher dec (setOf c.op) (aesCipher key) c.head data
  | _ => []

/-- CONTEXT_STEP: more data; a cipher's settled output follows what earlier steps wrote. -/
def execContextStep (j : Nat) (s : State) : Result :=
  .next (s.runOp j (fun k => decide (k = .ctxStep)) fun s job =>
    let c := s.ctx job.desc.keyIndex
    let data := c.data ++ job.input
    let n := c.settled data.length
    s.ctxResult Status.ok ((c.stream job.key1.secret (data.take n)).drop (c.settled c.data.length))
      (some { c with state := .opened, data := data }))

/-- The input of the underlying operation over the context's prefix and data; the MAC of a verification comes last in a
context and first in the operation. -/
def Ctx.whole (c : Ctx) (data : List Byte) : List Byte :=
  if macVerifies (underlying c.op) then
    let n := data.length - pOlen c.param
    data.drop n ++ c.head ++ data.take n
  else if ctxKind c.op = 4 ∧ pIvgen c.param then c.head.drop 12 ++ data
  else c.head ++ data

/-- The data of a close has a length that R271 refuses. -/
def Ctx.badLength (c : Ctx) (n : Nat) : Bool :=
  match underlying c.op with
  | .tdes _ => decide (n = 0 ∨ n % 8 ≠ 0)
  | .aes dec =>
    if setOf c.op ≤ 2 then decide (n = 0 ∨ n % 16 ≠ 0)
    else if setOf c.op = 6 then dec && decide (n < pOlen c.param)
    else decide (n = 0)
  | _ => false

/-- CONTEXT_CLOSE: the underlying operation over everything; a cipher writes what no step has written. The context is FREE and
zero afterwards, where the close ends OK (R83). -/
def execContextClose (j : Nat) (s : State) : Result :=
  .next (s.runOp j (fun k => decide (k = .ctxClose)) fun s job =>
    let c := s.ctx job.desc.keyIndex
    let data := c.data ++ job.input
    let k := underlying c.op
    let done := c.settled c.data.length
    if c.badLength data.length then s.ctxResult Status.lengthRange [] none
    else if macVerifies k ∧ data.length < pOlen c.param then s.ctxResult Status.verifyFail [] none
    else
      let r := symOutput k (setOf c.op) c.param job.key1.secret (c.whole data) (c.head.take 12)
      let iv := if ctxKind c.op = 4 ∧ pIvgen c.param then 12 else 0
      let out := if ctxKind c.op ≤ 2 then r.2 else r.2.take iv ++ r.2.drop (iv + done)
      s.ctxResult r.1 (if r.1 = Status.ok then out else []) (some {}))

/-- CONTEXT_DISCARD: the context is FREE and zero. -/
def execContextDiscard (j : Nat) (s : State) : Result :=
  .next (s.runOp j (fun k => decide (k = .ctxDiscard)) fun s _ => s.ctxResult Status.ok [] (some {}))

/-! Owner extensions. -/

/-- DM and PM as a program's run leaves them: the result fields and the OUT window are free (log entry 50). -/
def State.afterProgram (s : State) (G : Grain) : Grain :=
  let h := G.header
  { G with
    dm := ((G.dm.put 0x40 (s.freeValue 5 12)).put h.outOff (s.freeValue 6 h.outSize))
    busy := G.busy + Config.freeNat s.free 0
    regs := { G.regs with cycle := Config.freeNat s.free 0, instret := Config.freeNat s.free 2 } }

/-- OWNER_EXTENSION: the program of the tilth record's entry runs from its ENTRY to its END, where R97 judges the result it left.
What it computes is free here; the rows of its instructions say it step by step. -/
def execOwnerExtension (j : Nat) (s : State) : Result :=
  .next (match s.opReady j fun k => decide (k = .extension) with
    | none => s
    | some (job, g) =>
      match (s.grain g).draw (Config.freeNat s.free 1 % expanderSpan) with
      | .error _ => s.stopGrain g j .stall
      | .ok G =>
        if s.engineBusy j then s
        else ((s.modGrain g fun _ => s.afterProgram G).askForGrain g).spend.judgeEnd j g job)

/-! The admin queue. -/

/-- MCTP_MESSAGE: core 0 takes the message of an admin job; the request it carries is the next command, and its response ends the
job (R428). -/
def execMctpMessage (j : Nat) (s : State) : Result :=
  .next (match s.job j with
    | none => s
    | some job =>
      if s.kindOf job ≠ .mctp ∨ job.stage ≠ Stage.execute ∨ job.held ∨ s.power.holdActive then s
      else s.modJob j fun x => { x with delivered := 1 })

end Sys2Proof.Machine
end

