-- ==== Sys2Proof/Machine/OpsHashCode.lean ====
section
/-!
DEFINITION. The operations of groups 0x2 and 0x3: SLH-DSA, the stateful hash-based signatures, HQC and Classic McEliece (R216
to R235).
-/
namespace Sys2Proof.Machine

/-! SLH-DSA. -/

/-- A SHAKE set. -/
def slhShake (set : Nat) : Bool := decide (5 ≤ set)

def slhKeygenCycles (o2 : Bool) (set : Nat) : Nat :=
  match set with
  | 1 => 183000000
  | 2 => byOrder o2 2900000 7940000
  | 5 => byOrder o2 29000000 65100000
  | 6 => byOrder o2 460000 1024000
  | 7 => byOrder o2 42000000 94600000
  | _ => byOrder o2 28000000 62600000

def slhKeygenWords (o2 : Bool) (set : Nat) : Nat :=
  match set with
  | 1 => 26880000
  | 2 => byOrder o2 420000 1260000
  | 5 => byOrder o2 3010560 9031680
  | 6 => byOrder o2 47040 141120
  | 7 => byOrder o2 4386816 13160448
  | _ => byOrder o2 2881536 8644608

def slhSignCycles (o2 : Bool) (set : Nat) : Nat :=
  match set with
  | 1 => 1800000000
  | 2 => byOrder o2 82000000 231000000
  | 5 => byOrder o2 262000000 630500000
  | 6 => byOrder o2 12288000 28970000
  | 7 => byOrder o2 580000000 1510000000
  | _ => byOrder o2 600000000 1603000000

def slhSignWords (o2 : Bool) (set : Nat) : Nat :=
  match set with
  | 1 => 274182001
  | 2 => byOrder o2 12414001 37242001
  | 5 => byOrder o2 30707881 92123641
  | 6 => byOrder o2 1389865 4169593
  | 7 => byOrder o2 77500585 232501753
  | _ => byOrder o2 83607721 250823161

def slhVerifyCycles (set : Nat) : Nat :=
  match set with
  | 1 => 190000 | 2 => 520000 | 3 => 260000 | 4 => 380000 | 5 => 100000 | 6 => 307200 | 7 => 140000 | _ => 210000

/-- The PRF_msg blocks of a representative beyond the first: SHAKE256 of SK.prf, opt_rand and M′, or the inner hash of its
HMAC, with the padding (R219, FIPS 205). -/
def slhFurther (set repLen : Nat) : Nat :=
  let n := slhN set
  if slhShake set then (2 * n + repLen) / 136
  else if n = 16 then (n + repLen + 9 + 63) / 64 - 1
  else (n + repLen + 17 + 127) / 128 - 1

/-- SLH_DSA_KEYGEN: SK.seed ‖ SK.prf in the slot, PK.seed ‖ PK.root in the key cache (R218). -/
def execSlhDsaKeygen (j : Nat) (s : State) : Result :=
  .next (s.runOp j (fun k => decide (k = .slhKeygen)) fun s job =>
    let set := job.set_
    let n := slhN set
    let pk := job.random.drop (2 * n) ++ padTo n (Config.publicKey (s.jobClass job) job.random)
    { out := pk
      mat := { attr := s.claimAttr job, secret := job.random.take (2 * n), pub := pk }
      cycles := slhKeygenCycles job.order2 set
      words := slhKeygenWords job.order2 set })

/-- Signing: hedged with opt_rand of one expander word, or with PK.seed (R218). -/
def State.slhSign (s : State) (job : Job) (hedged pre : Bool) : OpResult :=
  let set := job.set_
  let n := slhN set
  let ph := pPh job.desc.param
  let rep := representative pre ph (inputCtx job) (inputMsg job)
  let e := slhFurther set rep.length
  let rnd := if hedged then s.freeValue 1 n else job.key1.pub.take n
  let more := if slhShake set then byOrder job.order2 (1008 * e) (3024 * e) else byOrder job.order2 (9000 * e) (27000 * e)
  let moreWords := if slhShake set then byOrder job.order2 (168 * e) (504 * e) else byOrder job.order2 (1500 * e) (4500 * e)
  { out := padTo (slhSig set) (Config.signature (s.jobClass job) (job.key1.material ++ job.key1.pub) rep rnd)
    cycles := slhSignCycles job.order2 set + more + (if pre then phCycles ph (inputMsg job).length else 0) +
      s.streamCycles job.desc.inLen
    words := slhSignWords job.order2 set + moreWords - ofBool (!hedged) }

/-- SLH_DSA_SIGN_HEDGED. -/
def execSlhDsaSignHedged (j : Nat) (s : State) : Result :=
  .next (s.runOp j (fun k => decide (k = .slhSign true false)) fun s job => s.slhSign job true false)

/-- SLH_DSA_SIGN_DETERMINISTIC. -/
def execSlhDsaSignDeterministic (j : Nat) (s : State) : Result :=
  .next (s.runOp j (fun k => decide (k = .slhSign false false)) fun s job => s.slhSign job false false)

/-- HASHSLH_DSA_SIGN_HEDGED. -/
def execHashslhDsaSignHedged (j : Nat) (s : State) : Result :=
  .next (s.runOp j (fun k => decide (k = .slhSign true true)) fun s job => s.slhSign job true true)

/-- HASHSLH_DSA_SIGN_DETERMINISTIC. -/
def execHashslhDsaSignDeterministic (j : Nat) (s : State) : Result :=
  .next (s.runOp j (fun k => decide (k = .slhSign false true)) fun s job => s.slhSign job false true)

/-- Verification: further blocks of M′ add cycles; no end is INPUT_INVALID (R218, R219). -/
def State.slhVerify (s : State) (job : Job) (pre : Bool) : OpResult :=
  let set := job.set_
  let ph := pPh job.desc.param
  match verifyParts job (2 * slhN set) (slhSig set) with
  | none => verdict false (slhVerifyCycles set)
  | some (pk, sig, ctx, m) =>
    let rep := representative pre ph ctx m
    let each := if slhShake set then 36 else if slhN set = 16 then 70 else 86
    verdict (Config.sigOk (s.jobClass job) pk rep sig)
      (slhVerifyCycles set + each * slhFurther set rep.length + (if pre then phCycles ph m.length else 0) +
        s.streamCycles job.desc.inLen)

/-- SLH_DSA_VERIFY. -/
def execSlhDsaVerify (j : Nat) (s : State) : Result :=
  .next (s.runOp j (fun k => decide (k = .slhVerify false)) fun s job => s.slhVerify job false)

/-- HASHSLH_DSA_VERIFY. -/
def execHashslhDsaVerify (j : Nat) (s : State) : Result :=
  .next (s.runOp j (fun k => decide (k = .slhVerify true)) fun s job => s.slhVerify job true)

/-! Type codes of SP 800-208 (RFC 8554, RFC 8391): PRESUMED (log entry 48). -/

/-- Set, n and height of an LMS type. -/
def lmsType (t : Nat) : Option (Nat × Nat × Nat) :=
  if 5 ≤ t ∧ t ≤ 24 then some ((t - 5) / 5 + 1, hbsN ((t - 5) / 5 + 1), 5 * ((t - 5) % 5 + 1)) else none

/-- Set, W and the chains of an LM-OTS type. -/
def otsType (t : Nat) : Option (Nat × Nat × Nat) :=
  if 1 ≤ t ∧ t ≤ 16 then
    let s := (t - 1) / 4 + 1
    let p := match (t - 1) % 4 with
      | 0 => if hbsN s = 32 then 265 else 200
      | 1 => if hbsN s = 32 then 133 else 101
      | 2 => otsP s false
      | _ => otsP s true
    some (s, 2 ^ ((t - 1) % 4), p)
  else none

/-- The height and the layers of an XMSS OID of set `s`. -/
def xmssType (s oid : Nat) : Option (Nat × Nat) :=
  let base := match s with | 1 => 1 | 2 => 0x0D | 3 => 0x10 | _ => 0x13
  if base ≤ oid ∧ oid < base + 3 then some (match oid - base with | 0 => (10, 1) | 1 => (16, 1) | _ => (20, 1)) else none

/-- The first OID of the XMSS^MT sets of `s`. -/
def xmssMtBase (s : Nat) : Nat := match s with | 1 => 0x01 | 2 => 0x21 | 3 => 0x29 | _ => 0x31

/-- The height and the layers of an XMSS^MT OID of set `s`. -/
def xmssMtType (s oid : Nat) : Option (Nat × Nat) :=
  if xmssMtBase s ≤ oid ∧ oid < xmssMtBase s + 8 then
    [(20, 2), (20, 4), (40, 2), (40, 4), (40, 8), (60, 3), (60, 6), (60, 12)][oid - xmssMtBase s]?
  else none

/-- A big-endian 32-bit word of a key or signature. -/
def be32 (b : List Byte) (off : Nat) : Nat := beNat (slice b off 4)

/-- Length and chain cost of the LMS signature that begins at `off`: p(2^W − 1), h and the bytes. -/
def lmsSigAt (b : List Byte) (off : Nat) : Option (Nat × Nat × Nat) :=
  match otsType (be32 b (off + 4)) with
  | none => none
  | some (s, w, p) =>
    let at_ := off + 8 + hbsN s * (1 + p)
    match lmsType (be32 b at_) with
    | none => none
    | some (_, n, h) =>
      if at_ + 4 + h * n ≤ b.length then some (at_ + 4 + h * n - off, p * (2 ^ w - 1), h) else none

/-- The bytes of the LMS public key that begins at `off`. -/
def lmsKeyAt (b : List Byte) (off : Nat) : Option Nat :=
  match lmsType (be32 b off) with
  | some (_, n, _) => if off + 24 + n ≤ b.length then some (24 + n) else none
  | none => none

/-- The cycles of one LMS signature of R221, in units of c / 2. -/
def lmsCost (chains h : Nat) : Nat := chains + 2 * (h + 3)

/-- End and cost of an HSS signature with `k` signed public keys left. -/
def hssRest (b : List Byte) : Nat → Nat → Nat → Option (Nat × Nat)
  | 0, off, cost => (lmsSigAt b off).map fun r => (off + r.1, cost + lmsCost r.2.1 r.2.2)
  | k + 1, off, cost =>
    match lmsSigAt b off with
    | none => none
    | some r => match lmsKeyAt b (off + r.1) with
      | none => none
      | some n => hssRest b k (off + r.1 + n) (cost + lmsCost r.2.1 r.2.2)

/-- The public key of a verification and where the signature begins: VERIFY_FAIL for an input too short, INPUT_INVALID for an
inline key whose type code is unknown or disagrees with the set (R221). `check` judges a key by its type codes. -/
def hbsKey (job : Job) (len head : Nat) (check : List Byte → Bool) : Except Nat (List Byte × Nat) :=
  if job.desc.keyForm ≠ 0 then .ok (job.key1.pub, 0)
  else if job.input.length < head then .error Status.verifyFail
  else if !check job.input then .error Status.inputInvalid
  else if job.input.length < len then .error Status.verifyFail
  else .ok (job.input.take len, len)

/-- The LMS and LM-OTS types at `off` are those of set `s`. -/
def lmsTypesOk (s : Nat) (b : List Byte) (off : Nat) : Bool :=
  (match lmsType (be32 b off) with | some (x, _, _) => decide (x = s) | none => false) &&
  (match otsType (be32 b (off + 4)) with | some (x, _, _) => decide (x = s) | none => false)

/-- The end of a stateful verification: the signature ends at `stop` and took `cost`. -/
def hbsVerdict (scheme : Nat) (pk d : List Byte) (off stop cycles : Nat) (shape : Bool) : OpResult :=
  verdict (shape && Config.sigOk scheme pk (d.drop stop) (slice d off (stop - off))) cycles

/-- The cycles of an LMS verification (R221). -/
def lmsCycles (set cost : Nat) : Nat := 4000 + (if set ≤ 2 then 40 else 20) * cost

/-- HSS_VERIFY: 1 to 8 levels. -/
def execHssVerify (j : Nat) (s : State) : Result :=
  .next (s.runOp j (fun k => decide (k = .hssVerify)) fun s job =>
    let set := job.set_
    let d := job.input
    let early := Config.freeNat s.free 0
    match hbsKey job (28 + hbsN set) 12 (fun b => lmsTypesOk set b 4) with
    | .error e => { status := e, cycles := early }
    | .ok (pk, off) =>
      let nspk := be32 d off
      if d.length < off + 4 ∨ 8 ≤ nspk then verdict false early
      else match hssRest d nspk (off + 4) 0 with
        | none => verdict false early
        | some (stop, cost) =>
          hbsVerdict 0x50 pk d off stop (lmsCycles set cost + s.streamCycles d.length) (decide (be32 pk 0 = nspk + 1)))

/-- LMS_VERIFY: a single tree. A slot of the HSS class holds the key with its level count (log entry 48). -/
def execLmsVerify (j : Nat) (s : State) : Result :=
  .next (s.runOp j (fun k => decide (k = .lmsVerify)) fun s job =>
    let set := job.set_
    let d := job.input
    let early := Config.freeNat s.free 0
    match hbsKey job (24 + hbsN set) 8 (fun b => lmsTypesOk set b 0) with
    | .error e => { status := e, cycles := early }
    | .ok (pk, off) =>
      let pk := if pk.length = 28 + hbsN set then pk.drop 4 else pk
      match lmsSigAt d off with
      | none => verdict false early
      | some (n, chains, h) =>
        hbsVerdict 0x55 pk d off (off + n) (lmsCycles set (lmsCost chains h) + s.streamCycles d.length)
          (decide (be32 pk 0 = be32 d (off + n - 4 - h * hbsN set))))

/-- The bytes of an XMSS or XMSS^MT signature, whose index takes `idx` bytes. -/
def xmssBytes (set idx h d : Nat) : Nat := idx + hbsN set * (1 + h + d * otsP set false)

/-- XMSS and XMSS^MT verification; the spec gives their cycles no figure. -/
def State.xmssCheck (s : State) (job : Job) (scheme : Nat) (mt : Bool) : OpResult :=
  let set := job.set_
  let d := job.input
  let cycles := Config.freeNat s.free 0
  let type := if mt then xmssMtType set else xmssType set
  match hbsKey job (4 + 2 * hbsN set) 4 (fun b => (type (be32 b 0)).isSome) with
  | .error e => { status := e, cycles := cycles }
  | .ok (pk, off) =>
    match type (be32 pk 0) with
    | none => verdict false cycles
    | some (h, layers) =>
      let n := xmssBytes set (if mt then (h + 7) / 8 else 4) h layers
      if d.length < off + n then verdict false cycles else hbsVerdict scheme pk d off (off + n) cycles true

/-- XMSS_VERIFY. -/
def execXmssVerify (j : Nat) (s : State) : Result :=
  .next (s.runOp j (fun k => decide (k = .xmssVerify)) fun s job => s.xmssCheck job 0x58 false)

/-- XMSS_MT_VERIFY. -/
def execXmssMtVerify (j : Nat) (s : State) : Result :=
  .next (s.runOp j (fun k => decide (k = .xmssMtVerify)) fun s job => s.xmssCheck job 0x5D true)

/-! Stateful signing (R222 to R230). -/

/-- Base cycles and words of a step at order 1. -/
def hbsBase (xmss w8 : Bool) (set : Nat) : Nat × Nat :=
  match xmss, w8, set with
  | true, _, 1 => (1101600, 100500)
  | true, _, 2 => (840000, 76500)
  | true, _, 3 => (324900, 11256)
  | true, _, _ => (248800, 8568)
  | false, false, 1 => (780000, 100500)
  | false, false, 2 => (595200, 76500)
  | false, false, 3 => (164100, 11256)
  | false, false, _ => (126400, 8568)
  | false, true, 1 => (1709400, 51000)
  | false, true, 2 => (1308600, 39000)
  | false, true, 3 => (744100, 5712)
  | false, true, _ => (570400, 4368)

/-- Cycles and words of a step at a masking order (R230). -/
def hbsStep (xmss w8 order2 : Bool) (set : Nat) : Nat × Nat :=
  let b := hbsBase xmss w8 set
  if order2 then (b.1 + 12 * b.2, 3 * b.2) else b

/-- The steps s of R226's loop, from tree `u` whose root is signed by level `n − 1`. -/
def switchSteps : Nat → Nat → Nat
  | 0, _ => 0
  | n + 1, u => if u < 32 ^ (n + 1) then 1 + (if u % 32 ≠ 0 then 0 else switchSteps n (u / 32 + 1)) else 0

/-- s of a job that holds leaf `q` of a key of `levels` levels. -/
def signSteps (levels q : Nat) : Nat := if q % 32 = 0 then switchSteps (levels - 1) (q / 32 + 10) else 0

/-- Key generation of a stateful key: at most 512 + 96 (L − 1) steps (R226); its first leaf is 0, and none is reserved (R224). -/
def State.hbsKeygen (s : State) (job : Job) (xmss w8 : Bool) (levels : Nat) (secret cache pub : List Byte) : OpResult :=
  let step := hbsStep xmss w8 job.order2 job.set_
  let k := 1 + Config.freeNat s.free 0 % (512 + 96 * (levels - 1))
  { out := pub
    mat := { attr := s.claimAttr job, secret := secret, cache := cache, pub := pub }
    stateful := some { total := 32 ^ levels, levels := levels, w8 := w8 }
    cycles := k * step.1
    words := k * step.2 }

/-- HSS_KEYGEN: SEED ‖ I in the slot; the public key names L, the H5 type and the LM-OTS type. -/
def execHssKeygen (j : Nat) (s : State) : Result :=
  .next (s.runOp j (fun k => decide (k = .hssKeygen)) fun s job =>
    let set := job.set_
    let n := hbsN set
    let levels := bits job.desc.param 3 0
    let w8 := bit job.desc.param 4
    let pub := beBytes 4 levels ++ beBytes 4 (5 * set) ++ beBytes 4 (4 * set - if w8 then 0 else 1) ++
      slice job.random n 16 ++ padTo n (Config.publicKey (s.jobClass job) (leBytes 2 job.desc.param ++ job.random))
    s.hbsKeygen job false w8 levels job.random [] pub)

/-- XMSS_MT_KEYGEN: SK_SEED ‖ SK_PRF in the slot, PUB_SEED in the key cache. -/
def execXmssMtKeygen (j : Nat) (s : State) : Result :=
  .next (s.runOp j (fun k => decide (k = .xmssKeygen)) fun s job =>
    let set := job.set_
    let n := hbsN set
    let levels := bits job.desc.param 3 0
    let seed := job.random.drop (2 * n)
    let oid := xmssMtBase set + (match levels with | 4 => 1 | 8 => 4 | _ => 7)
    let pub := beBytes 4 oid ++ padTo n (Config.publicKey (s.jobClass job) (leBytes 2 levels ++ job.random)) ++ seed
    s.hbsKeygen job true false levels (job.random.take (2 * n)) seed pub)

/-- Signing with the leaf the key port handed out: KEY_EXHAUSTED where there was none (R227), DETAIL s, and (1 + s) steps
(R226). The signature is a function of key, leaf and message (R222). -/
def State.hbsSign (s : State) (job : Job) (xmss faulted : Bool) : OpResult :=
  match job.exhausted, job.leaf, (s.slot job.desc.keyIndex).stateful with
  | false, some q, some st =>
    let set := job.set_
    let step := hbsStep xmss st.w8 job.order2 set
    let n := signSteps st.levels q
    let cycles := step.1 * (1 + n) + s.streamCycles job.desc.inLen
    let words := step.2 * (1 + n)
    let len := if xmss then xmssSig set st.levels else hssSig set st.levels st.w8
    if faulted then { faultResult causeSelfVerify cycles with words := words }
    else
      { out := padTo len (Config.signature (s.jobClass job) (job.key1.secret ++ job.key1.cache ++ job.key1.pub) job.input
          (leBytes 8 q))
        detail := n, cycles := cycles, words := words }
  | _, _, _ => { status := Status.keyExhausted, cycles := Config.freeNat s.free 0 }

/-- HSS_SIGN. -/
def execHssSign (j : Nat) (faulted : Bool) (s : State) : Result :=
  .next (s.runOp j (fun k => decide (k = .hssSign)) fun s job => s.hbsSign job false faulted)

/-- XMSS_MT_SIGN. -/
def execXmssMtSign (j : Nat) (faulted : Bool) (s : State) : Result :=
  .next (s.runOp j (fun k => decide (k = .xmssSign)) fun s job => s.hbsSign job true faulted)

/-! HQC and Classic McEliece. -/

def hqcKeygenCycles (set : Nat) : Nat := match set with | 1 => 160000 | 2 => 330000 | _ => 550000
def hqcEncapsCycles (set : Nat) : Nat := match set with | 1 => 230000 | 2 => 470000 | _ => 780000
def hqcDecapsCycles (o2 : Bool) (set : Nat) : Nat :=
  match set with | 1 => byOrder o2 491520 890000 | 2 => byOrder o2 1010000 1830000 | _ => byOrder o2 1680000 3040000
def hqcDecapsWords (o2 : Bool) (set : Nat) : Nat :=
  match set with | 1 => byOrder o2 16000 48000 | 2 => byOrder o2 33000 99000 | _ => byOrder o2 55000 165000
def mceEncapsCycles (set : Nat) : Nat := if set ≤ 2 then 90000 else 170000
def mceDecapsCycles (o2 : Bool) (set : Nat) : Nat :=
  if set ≤ 2 then byOrder o2 819200 1500000 else byOrder o2 1400000 2580000
def mceDecapsWords (o2 : Bool) (set : Nat) : Nat := if set ≤ 2 then byOrder o2 12000 36000 else byOrder o2 18000 54000

/-- The bits of s in the last byte of an HQC public key: n is 17,669, 35,851 or 57,637. -/
def hqcTopBits (set : Nat) : Nat := if set = 2 then 3 else 5

/-- HQC_KEYGEN: unmasked, and at both orders alike (R232). -/
def execHqcKeygen (j : Nat) (s : State) : Result :=
  .next (s.runOp j (fun k => decide (k = .hqcKeygen)) fun s job =>
    let c := s.jobClass job
    let pk := padTo (hqcEk job.set_) (Config.publicKey c job.random)
    { out := pk
      mat := { attr := s.claimAttr job, secret := s.freeWrap, cache := Config.cacheOf c job.random, pub := pk }
      cycles := hqcKeygenCycles job.set_ })

/-- HQC_ENCAPS: an inline key whose unused bits are not zero ends the job with INPUT_INVALID (R234). -/
def execHqcEncaps (j : Nat) (s : State) : Result :=
  .next (s.runOp j (fun k => decide (k = .hqcEncaps)) fun s job =>
    let pk := encapsKey job
    let cycles := hqcEncapsCycles job.set_
    if job.desc.keyForm = 0 ∧ 2 ^ hqcTopBits job.set_ ≤ leNat (pk.drop (pk.length - 1)) then
      { status := Status.inputInvalid, cycles := cycles }
    else
      let (ct, ss) := Config.encaps (s.jobClass job) pk job.random
      s.shared job (padTo (hqcCt job.set_) ct) (padTo 64 ss) cycles 0)

/-- MCELIECE_ENCAPS: the key leads the input stream, from the key cache or from the host (R233). -/
def execMcelieceEncaps (j : Nat) (s : State) : Result :=
  .next (s.runOp j (fun k => decide (k = .mceEncaps)) fun s job =>
    let (ct, ss) := Config.encaps (s.jobClass job) (encapsKey job) job.random
    s.shared job (padTo (mceCt job.set_) ct) (padTo 32 ss) (mceEncapsCycles job.set_ + s.streamCycles (mceEk job.set_)) 0)

/-- HQC_DECAPS (R234, R188). -/
def execHqcDecaps (j : Nat) (faulted : Bool) (s : State) : Result :=
  .next (s.runOp j (fun k => decide (k = .hqcDecaps)) fun s job =>
    let cycles := hqcDecapsCycles job.order2 job.set_
    let words := hqcDecapsWords job.order2 job.set_
    if faulted then { faultResult causeShareCheck cycles with words := words }
    else s.shared job [] (padTo 64 (Config.decaps (s.jobClass job) job.key1.material job.input)) cycles words)

/-- MCELIECE_DECAPS. -/
def execMcelieceDecaps (j : Nat) (faulted : Bool) (s : State) : Result :=
  .next (s.runOp j (fun k => decide (k = .mceDecaps)) fun s job =>
    let cycles := mceDecapsCycles job.order2 job.set_
    let words := mceDecapsWords job.order2 job.set_
    if faulted then { faultResult causeShareCheck cycles with words := words }
    else s.shared job [] (padTo 32 (Config.decaps (s.jobClass job) job.key1.material job.input)) cycles words)

end Sys2Proof.Machine
end

