-- ==== Sys2Proof/Machine/OpsKeys.lean ====
section
/-!
DEFINITION. The operations of group 0x8 on slots: preparation, generation, imports, blobs, derivation and public keys (R312 to R316).
-/
namespace Sys2Proof.Config

/-- Private and public part of an imported key pair belong together, by class (R314; log entry 26). -/
opaque pairOk : Nat → List Byte → List Byte → Bool

end Sys2Proof.Config

namespace Sys2Proof.Machine

/-! Operations that take no grain. -/

/-- The attribute word that SLOT_PREPARE writes: the device fills LEN in where R311 fixes it (R310). -/
def presetAttr (a : Nat) : Nat :=
  let n := classLen (attrClass a)
  if n = 0 then a else a - attrLen a * 2 ^ 8 + n * 2 ^ 8

/-- An attribute word that may be preset: no reserved bit, a class of R311 with a LEN in its range, and for a stateful class
PERSISTENT without EXPORTABLE_WRAPPED and MIGRATABLE (R310, R312). -/
def presetOk (a : Nat) : Bool :=
  let c := attrClass a
  within a (0x7F * 2 ^ 8 + 0xFF + 0x1F * 2 ^ 16 + 0x7FF * 2 ^ 24 + 0x1F * 2 ^ 40) && classOk c && lenOk c (attrLen a) &&
  (!statefulClass c || (attrPersistent a && !bit a 41 && !bit a 42))

/-- SLOT_PREPARE: an EMPTY slot takes its attribute word and its budget, and is PREPARED (R309, R313). -/
def execSlotPrepare (j : Nat) (s : State) : Result :=
  .next (match s.job j with
    | none => s
    | some job =>
      let k := job.desc.keyIndex
      let a := job.desc.param
      if s.kindOf job ≠ .slotPrepare ∨ job.stage ≠ Stage.execute ∨ job.held ∨ s.power.holdActive then s
      else if !s.owns job.tenant k then s.endDirect j Status.keyAbsent []
      else if (s.slot k).state ≠ .empty then s.endDirect j Status.keyDenied []
      else if !presetOk a then s.endDirect j Status.inputInvalid []
      else (s.modSlot k fun x =>
        { x with state := .prepared, attr := presetAttr a, budget := leNat job.input, uses := 0 }).endDirect j Status.ok [])

/-- READ_PUBLIC_KEY: the public key in the encoding its class takes inline (R313). -/
def execReadPublicKey (j : Nat) (s : State) : Result :=
  .next (match s.job j with
    | none => s
    | some job =>
      let x := s.slot job.desc.keyIndex
      if s.kindOf job ≠ .readPublic ∨ job.stage ≠ Stage.execute ∨ job.held ∨ s.power.holdActive then s
      else if !s.owns job.tenant job.desc.keyIndex ∨ x.state ≠ .loaded then s.endDirect j Status.keyAbsent []
      else if !pairClass (attrClass x.attr) then s.endDirect j Status.keyDenied []
      else s.endDirect j Status.ok x.pub)

/-! Generation and derivation. -/

/-- A TDES class of R311. -/
def tdesClass (c : Nat) : Bool := decide (0x80 ≤ c ∧ c < 0xD0 ∧ (c % 16 = 5 ∨ c % 16 = 6))

/-- A DES key byte with odd parity. -/
def oddParity (b : Byte) : Byte :=
  let ones := ((List.range 7).filter fun i => b.toNat.testBit (i + 1)).length
  BitVec.ofNat 8 (b.toNat / 2 * 2 + (1 - ones % 2))

/-- SYMMETRIC_GENERATE: LEN bytes of the port's DRBG, with DES parity for TDES classes (R313). -/
def execSymmetricGenerate (j : Nat) (s : State) : Result :=
  .next (s.runOp j (fun k => decide (k = .symGenerate)) fun s job =>
    let a := s.claimAttr job
    { mat := { attr := a, secret := if tdesClass (attrClass a) then job.random.map oddParity else job.random }
      cycles := 2000 })

/-- The permutations of KMAC256 under S = "IXL-DERIVE": the block of names, the key's, the message's and further squeezes. -/
def deriveCalls (key ctx out : Nat) : Nat :=
  let rate := 136
  1 + ceilDiv (key + 8) rate + spongeCalls rate (ctx + (rightEncode (8 * out)).length) out

/-- DERIVE: KMAC256 of the source over the context, into the target (R313). -/
def execDerive (j : Nat) (s : State) : Result :=
  .next (s.runOp j (fun k => decide (k = .derive)) fun s job =>
    let a := s.claimAttr job
    let n := attrLen a
    let key := job.key1.material
    let more := deriveCalls key.length job.input.length n - 2
    { mat := { attr := a, secret := kmac 256 n key job.input (ascii "IXL-DERIVE") }
      cycles := byOrder job.order2 (3000 + 1008 * more) (7032 + 3024 * more)
      words := byOrder job.order2 (336 + 168 * more) (1008 + 504 * more) })

/-! Imports. -/

/-- The length of a class's public key, with the single-tree LMS keys of an HSS class (log entry 48). -/
def publicLenOk (c n : Nat) : Bool := decide (n = pubLen c) || (decide (0x51 ≤ c ∧ c ≤ 0x54) && decide (n = pubLen c - 4))

/-- The status of an imported public key: the checks of R205, R221, R234 and R252 on an inline key of its class. -/
def publicStatus (c : Nat) (k : List Byte) : Nat :=
  let bad := fun (ok : Bool) => if ok then Status.ok else Status.inputInvalid
  if !publicLenOk c k.length then Status.inputInvalid
  else if 0x11 ≤ c ∧ c ≤ 0x13 then bad (kemEkOk k)
  else if c = 0x31 ∨ c = 0x32 then bad (Config.keyOk c k)
  else if 0x51 ≤ c ∧ c ≤ 0x54 then
    bad (lmsTypesOk (c - 0x50) k (if k.length = pubLen c then 4 else 0))
  else if 0x59 ≤ c ∧ c ≤ 0x5C then
    bad ((xmssType (c - 0x58) (be32 k 0)).isSome || (xmssMtType (c - 0x58) (be32 k 0)).isSome)
  else if 0x61 ≤ c ∧ c ≤ 0x63 then bad (decide (leNat (k.drop (k.length - 1)) < 2 ^ hqcTopBits (c - 0x60)))
  else if 0x71 ≤ c ∧ c ≤ 0x73 then
    if !uncompressed k then Status.inputInvalid else if onCurve c k then Status.ok else Status.pointInvalid
  else if c = 0x74 ∨ c = 0x75 then (if Config.keyOk c k then Status.ok else Status.pointInvalid)
  else if 0x79 ≤ c ∧ c ≤ 0x7B then bad (modulusOk k)
  else Status.ok

/-- IMPORT_PUBLIC_KEY: a public key alone sets PUBLIC_ONLY. Beyond 4,000 cycles the class's check has no figure. -/
def execImportPublicKey (j : Nat) (s : State) : Result :=
  .next (s.runWithEngine j (fun k => decide (k = .importPublic)) fun s job =>
    let a := s.claimAttr job
    { status := publicStatus (attrClass a) job.input
      mat := { attr := a ||| 2 ^ 45, pub := job.input }
      cycles := 4000 + Config.freeNat s.free 0 })

/-- RSA components agree: n = p·q, and dp, dq and qinv belong to them and to the exponent 65,537 (R314). -/
def rsaAgrees (set : Nat) (payload : List Byte) : Bool :=
  let w := rsaN set
  let part := fun i => beNat (slice payload (w + w / 2 * i) (w / 2))
  let p := part 0
  let q := part 1
  decide (payload.length = w + w / 2 * 5 ∧ beNat (payload.take w) = p * q ∧ 1 < p ∧ 1 < q ∧
    part 2 * 65537 % (p - 1) = 1 ∧ part 3 * 65537 % (q - 1) = 1 ∧ part 4 * q % p = 1 ∧ part 2 < p ∧ part 3 < q ∧ part 4 < p)

/-- The key material of an unwrapped payload for a target, or nothing where its parts disagree (R314). -/
def State.payloadMat (s : State) (attr : Nat) (p : List Byte) : Option KeyMat :=
  let c := attrClass attr
  let split := fun (n : Nat) =>
    let priv := p.take (p.length - n)
    let pub := p.drop (p.length - n)
    if p.length ≤ n ∨ !Config.pairOk c priv pub then none
    else some { attr := attr, secret := s.freeWrap, cache := priv, pub := pub : KeyMat }
  if c = 0x31 ∨ c = 0x32 ∨ (0x61 ≤ c ∧ c ≤ 0x63) ∨ (0x69 ≤ c ∧ c ≤ 0x6C) then split (pubLen c)
  else if 0x79 ≤ c ∧ c ≤ 0x7B then
    if rsaAgrees (c - 0x78) p then some { attr := attr, secret := s.freeWrap, cache := p, pub := p.take (rsaN (c - 0x78)) }
    else none
  else if c = 0x73 then
    if p.length ≠ curveL c then none
    else some { attr := attr, secret := s.freeWrap, cache := p, pub := 4#8 :: padTo (2 * curveL c) (Config.publicKey c p) }
  else if p.length ≠ attrLen attr then none
  else if !pairClass c then some { attr := attr, secret := p }
  else if c = 0x71 ∨ c = 0x72 then
    some { attr := attr, secret := p, pub := 4#8 :: padTo (2 * curveL c) (Config.publicKey c p) }
  else some { attr := attr, secret := p, pub := padTo (pubLen c) (Config.publicKey c p) }

/-- IMPORT_WRAPPED: KW or KWP by PARAM; a failed integrity check, then parts that disagree (R314). -/
def execImportWrapped (j : Nat) (s : State) : Result :=
  .next (s.runWithEngine j (fun k => decide (k = .importWrapped)) fun s job =>
    let set := if bit job.desc.param 0 then 2 else 1
    let key := job.key1.secret
    let d := job.input
    let short := decide (d.length % 8 ≠ 0 ∨ d.length < 16)
    let r := if short then (Status.verifyFail, []) else symOutput (.wrap true) set 0 key d []
    let c := symCost job.order2 (.wrap true) set 0 key.length d
    let bad := fun status => { status := status, cycles := c.1 + 4000, words := c.2 : OpResult }
    if r.1 ≠ Status.ok then bad Status.verifyFail
    else match s.payloadMat (s.claimAttr job) r.2 with
      | none => bad Status.inputInvalid
      | some m => { mat := m, cycles := c.1 + 4000, words := c.2 })

/-- IMPORT_BLOB: the target keeps its attribute word, with OPS and ENGINES reduced to the blob's (R314, R316). -/
def execImportBlob (j : Nat) (s : State) : Result :=
  .next (s.runWithEngine j (fun k => decide (k = .importBlob)) fun s job =>
    let a := s.claimAttr job
    let m := job.key1
    if attrClass m.attr ≠ attrClass a then { status := Status.keyDenied, cycles := 2000 }
    else if attrLen m.attr ≠ attrLen a then { status := Status.inputInvalid, cycles := 2000 }
    else
      let attr := (a &&& (2 ^ 64 - 1 - attrUseMask)) ||| (a &&& m.attr &&& attrUseMask) ||| (m.attr &&& 2 ^ 45)
      { mat := { m with attr := attr }, cycles := 2000 })

/-! Export. -/

/-- EXPORT_BLOB: the blob of R316 under a key-encryption key or the tenant root key. -/
def execExportBlob (j : Nat) (s : State) : Result :=
  .next (s.runOp j (fun k => decide (k = .exportBlob)) fun s job =>
    let m := job.key1
    let key := if job.desc.key2Form = 1 then padTo 32 job.key2.secret else s.tenantRootKey job.tenant
    let payload := padTo (attrLen m.attr) m.secret ++ m.cache ++ m.pub
    let head := ascii "IXKB" ++ leBytes 2 1 ++ leBytes 2 job.tenant ++ leBytes 8 m.attr ++ leBytes 4 payload.length ++
      job.random ++ List.replicate 32 0#8
    let ct := gcmCtr key job.random payload
    { out := head ++ ct ++ gcmTag key job.random head ct
      cycles := 2000 + 40 * ceilDiv payload.length 16 })

end Sys2Proof.Machine
end

