-- ==== Sys2Proof/Machine/OpsPayment.lean ====
section
/-!
DEFINITION. The operations of group 0x6: PIN blocks (R273 to R276), AES DUKPT (R278) and key blocks (R279).
-/
namespace Sys2Proof.Config

/-- The key usage indicator of the derived message-authentication key, which the spec does not choose among the standard's
three (R278). -/
opaque dukptMacUsage : Nat

end Sys2Proof.Config

namespace Sys2Proof.Machine

/-! PIN blocks (R273). -/

/-- Nibbles of bytes, high nibble first, and back. -/
def nibbles (b : List Byte) : List Nat := b.flatMap fun x => [x.toNat / 16, x.toNat % 16]
def ofNibbles : List Nat → List Byte
  | a :: b :: r => BitVec.ofNat 8 (16 * a + b) :: ofNibbles r
  | [a] => [BitVec.ofNat 8 (16 * a)]
  | [] => []

/-- The cipher of a format and its block length. -/
def pinAes (fmt : Nat) : Bool := decide (fmt = 4)
def pinBlock (fmt : Nat) : Nat := if fmt = 4 then 16 else 8
def pinCipher (fmt : Nat) (key : List Byte) : Cipher := if fmt = 4 then aesCipher key else tdesCipher key

/-- Nibbles padded with a value to a length. -/
def fillTo (n v : Nat) (xs : List Nat) : List Nat := xs ++ List.replicate (n - xs.length) v

/-- The PAN field of a format, from the PAN's digits. -/
def panField (fmt : Nat) (pan : List Nat) : List Byte :=
  match fmt with
  | 1 => List.replicate 8 0#8
  | 4 => ofNibbles (fillTo 32 0 ((pan.length - 12) :: pan))
  | _ =>
    let ds := pan.dropLast.drop (pan.length - 13)
    ofNibbles (List.replicate (16 - ds.length) 0 ++ ds)

/-- The encrypted block of a PIN field. -/
def pinEncrypt (fmt : Nat) (key pan field : List Byte) : List Byte :=
  let c := pinCipher fmt key
  if fmt = 4 then c.enc (xorBytes (c.enc field) pan) else c.enc (xorBytes field pan)

/-- The PIN field of an encrypted block. -/
def pinDecrypt (fmt : Nat) (key pan block : List Byte) : List Byte :=
  let c := pinCipher fmt key
  if fmt = 4 then c.dec (xorBytes (c.dec block) pan) else xorBytes (c.dec block) pan

/-- The PIN of a field, if its control nibble, length, digits and fill are accepted. -/
def pinOf (fmt : Nat) (field : List Byte) : Option (List Nat) :=
  match nibbles field with
  | ctl :: n :: rest =>
    let pin := rest.take n
    let fill := slice rest n (14 - n)
    let ok : Nat → Bool := fun x =>
      match fmt with | 0 => decide (x = 15) | 1 => true | 3 => decide (10 ≤ x) | _ => decide (x = 10)
    if ctl = fmt ∧ 4 ≤ n ∧ n ≤ 12 ∧ pin.all (fun x => decide (x ≤ 9)) ∧ fill.all ok then some pin else none
  | _ => none
where
  /-- A slice of nibbles. -/
  slice (xs : List Nat) (off n : Nat) : List Nat := (xs.drop off).take n

/-- The PIN field of a PIN, with random fill from the expander where the format takes it. -/
def State.pinField (s : State) (fmt : Nat) (pin : List Nat) : List Byte :=
  let r := fun i => Config.freeNat s.free (200 + i)
  let head := fmt :: pin.length :: pin
  let k := 16 - head.length
  match fmt with
  | 0 => ofNibbles (fillTo 16 15 head)
  | 1 => ofNibbles (head ++ (List.range k).map fun i => r i % 16)
  | 3 => ofNibbles (head ++ (List.range k).map fun i => 10 + r i % 6)
  | _ => ofNibbles (fillTo 16 10 head ++ (List.range 16).map fun i => r i % 16)

/-- The digits of a PAN in ASCII. -/
def panDigits (b : List Byte) : Option (List Nat) :=
  if b.all fun x => decide (0x30 ≤ x.toNat ∧ x.toNat ≤ 0x39) then some (b.map fun x => x.toNat - 0x30) else none

/-- Cycles and words of a PIN job by the ciphers of its sides (R276). -/
def pinCost (o2 : Bool) (src dst : Bool) : Nat × Nat :=
  match src, dst with
  | false, false => (byOrder o2 16384 176000, byOrder o2 8 23400)
  | false, true => (byOrder o2 18432 166400, byOrder o2 8 22376)
  | true, false => (byOrder o2 18432 171200, byOrder o2 8 22888)
  | true, true => (byOrder o2 20480 161600, byOrder o2 8 21864)

/-- A translation of a block from `i` under `k1` to `o` under `k2` (R275). -/
def State.pinTranslation (s : State) (i o : Nat) (k1 k2 block pan : List Byte) (faulted : Bool) (cost : Nat × Nat) : OpResult :=
  let bad : OpResult := { status := Status.inputInvalid, cycles := cost.1, words := cost.2 }
  match panDigits pan with
  | none => bad
  | some ds =>
    match pinOf i (pinDecrypt i k1 (panField i ds) block) with
    | none => bad
    | some pin =>
      if faulted then { faultResult causeSelfVerify cost.1 with words := cost.2 }
      else { out := pinEncrypt o k2 (panField o ds) (s.pinField o pin), cycles := cost.1, words := cost.2 }

/-- PIN_TRANSLATE. -/
def execPinTranslate (j : Nat) (faulted : Bool) (s : State) : Result :=
  .next (s.runOp j (fun k => decide (k = .pinTranslate)) fun s job =>
    let p := job.desc.param
    let i := pFmtIn p
    let o := pFmtOut p
    s.pinTranslation i o job.key1.secret job.key2.secret (job.input.take (pinBlock i)) (job.input.drop (pinBlock i)) faulted
      (pinCost job.order2 (pinAes i) (pinAes o)))

/-- PIN_COMPARE: a failed CHK ends the job; formats and PINs are judged after the full time (R275). -/
def execPinCompare (j : Nat) (faulted : Bool) (s : State) : Result :=
  .next (s.runOp j (fun k => decide (k = .pinCompare)) fun _ job =>
    let p := job.desc.param
    let i := pFmtIn p
    let o := pFmtOut p
    let cost := pinCost job.order2 (pinAes i) (pinAes o)
    let b1 := job.input.take (pinBlock i)
    let b2 := slice job.input (pinBlock i) (pinBlock o)
    let bad : OpResult := { status := Status.inputInvalid, cycles := cost.1, words := cost.2 }
    if faulted then { faultResult causeShareCheck cost.1 with words := cost.2 }
    else match panDigits (job.input.drop (pinBlock i + pinBlock o)) with
      | none => bad
      | some ds =>
        match pinOf i (pinDecrypt i job.key1.secret (panField i ds) b1),
            pinOf o (pinDecrypt o job.key2.secret (panField o ds) b2) with
        | some x, some y => { verdict (decide (x = y)) cost.1 with words := cost.2 }
        | _, _ => bad)

/-! AES DUKPT (R278), with the derivation data of ANSI X9.24-3: PRESUMED (log entry 49). -/

/-- The algorithm indicator of an AES key of `n` bytes. -/
def dukptAlg (n : Nat) : Nat := match n with | 16 => 2 | 24 => 3 | _ => 4

/-- A derived key of `n` bytes: usage, the last 8 bytes of the derivation data, and one AES block per 16 bytes. -/
def dukptDerive (key : List Byte) (usage n : Nat) (tail : List Byte) : List Byte :=
  ((List.range (ceilDiv n 16)).flatMap fun i =>
    aesEncrypt key ([1#8] ++ leBytes 1 (i + 1) ++ beBytes 2 usage ++ beBytes 2 (dukptAlg n) ++ beBytes 2 (8 * n) ++ tail)).take n

/-- The initial key of a BDK. -/
def dukptInitial (bdk ikId : List Byte) : List Byte := dukptDerive bdk 0x8001 bdk.length ikId

/-- The intermediate key after the counter's set bits from `n` bits on down. -/
def dukptSteps (ikId : List Byte) (counter : Nat) : Nat → Nat → List Byte → List Byte
  | 0, _, key => key
  | n + 1, sofar, key =>
    if counter.testBit n then
      dukptSteps ikId counter n (sofar + 2 ^ n)
        (dukptDerive key 0x8000 key.length (ikId.drop 4 ++ beBytes 4 (sofar + 2 ^ n)))
    else dukptSteps ikId counter n sofar key

/-- Set bits of a transaction counter. -/
def setBits (n : Nat) : Nat := ((List.range 32).filter fun i => n.testBit i).length

/-- A counter that R278 accepts. -/
def counterOk (n : Nat) : Bool := decide (n ≠ 0 ∧ setBits n ≤ 16)

/-- The bytes of a working key. -/
def dkBytes (p : Nat) : Nat := 16 + 8 * pDkType p

/-- The working key of a KSN. -/
def dukptKey (bdk ksn : List Byte) (usage n : Nat) : List Byte :=
  let ikId := ksn.take 8
  let counter := beNat (slice ksn 8 4)
  dukptDerive (dukptSteps ikId counter 32 0 (dukptInitial bdk ikId)) usage n (ikId.drop 4 ++ beBytes 4 counter)

/-- Cycles and words of `n` derivation steps. -/
def stepCost (o2 : Bool) (bytes n : Nat) : Nat × Nat :=
  if o2 then (26400 * n, 3584 * n) else (400 * n, 2 * ceilDiv bytes 16 * n)

/-- The steps of a KSN: the initial key, one per set bit, and the working key. -/
def ksnSteps (ksn : List Byte) : Nat := 2 + setBits (beNat (slice ksn 8 4))

/-- DUKPT_PIN_TRANSLATE: the derived PIN key is an AES source. -/
def execDukptPinTranslate (j : Nat) (faulted : Bool) (s : State) : Result :=
  .next (s.runOp j (fun k => decide (k = .dukptPin)) fun s job =>
    let p := job.desc.param
    let ksn := job.input.take 12
    let o := pFmtOut p
    let bdk := job.key1.secret
    let d := stepCost job.order2 bdk.length (ksnSteps ksn)
    let c := pinCost job.order2 true (pinAes o)
    let cost := (c.1 + d.1, c.2 + d.2)
    if !counterOk (beNat (slice ksn 8 4)) then { status := Status.inputInvalid, cycles := cost.1, words := cost.2 }
    else s.pinTranslation 4 o (dukptKey bdk ksn 0x1000 (dkBytes p)) job.key2.secret (slice job.input 12 16)
      (job.input.drop 28) faulted cost)

/-- DUKPT CMAC: KSN, then the MAC of a verification, then M. -/
def State.dukptCmac (s : State) (job : Job) (verify : Bool) : OpResult :=
  let p := job.desc.param
  let ksn := job.input.take 12
  let bdk := job.key1.secret
  let rest := job.input.drop 12
  let k : OpKind := .cmac verify
  let c := macCost job.order2 k 1 p (dkBytes p) [] (macParts k p rest).2
  let d := stepCost job.order2 bdk.length (ksnSteps ksn)
  let cycles := c.1 + d.1 + s.streamCycles job.desc.inLen
  let words := c.2 + d.2
  if job.input.length < 12 then { status := Status.verifyFail, cycles := cycles, words := words }
  else if !counterOk (beNat (slice ksn 8 4)) then { status := Status.inputInvalid, cycles := cycles, words := words }
  else
    let r := macEnd k 1 p (dukptKey bdk ksn (Config.dukptMacUsage % 2 ^ 16) (dkBytes p)) rest
    { status := r.1, out := r.2, cycles := cycles, words := words }

/-- DUKPT_CMAC_GENERATE. -/
def execDukptCmacGenerate (j : Nat) (s : State) : Result :=
  .next (s.runOp j (fun k => decide (k = .dukptCmac false)) fun s job => s.dukptCmac job false)

/-- DUKPT_CMAC_VERIFY. -/
def execDukptCmacVerify (j : Nat) (s : State) : Result :=
  .next (s.runOp j (fun k => decide (k = .dukptCmac true)) fun s job => s.dukptCmac job true)

/-! Key blocks (R279), in the layout of ANSI X9.143: PRESUMED (log entry 49). -/

/-- Upper-case hexadecimal. -/
def hexDigit (n : Nat) : Byte := BitVec.ofNat 8 (if n < 10 then 0x30 + n else 0x37 + n)
def hexOf (b : List Byte) : List Byte := (nibbles b).map hexDigit
def ofHexDigit (b : Byte) : Option Nat :=
  let n := b.toNat
  if 0x30 ≤ n ∧ n ≤ 0x39 then some (n - 0x30) else if 0x41 ≤ n ∧ n ≤ 0x46 then some (n - 0x37)
  else if 0x61 ≤ n ∧ n ≤ 0x66 then some (n - 0x57) else none
def ofHex (b : List Byte) : Option (List Byte) :=
  if b.length % 2 = 1 then none else (b.mapM ofHexDigit).map ofNibbles

/-- A decimal number in `n` ASCII digits, and back. -/
def decimal (n v : Nat) : List Byte := ((List.range n).map fun i => BitVec.ofNat 8 (0x30 + v / 10 ^ i % 10)).reverse
def ofDecimal (b : List Byte) : Option Nat := (panDigits b).map fun ds => ds.foldl (fun a d => 10 * a + d) 0

/-- A key of a key block: cipher, the encryption key and the MAC key derived from the KBPK; `usage` 0 encrypts, 1 authenticates. -/
def kbKey (isAes : Bool) (kbpk : List Byte) (usage : Nat) : List Byte :=
  let c := if isAes then aesCipher kbpk else tdesCipher kbpk
  let n := kbpk.length
  let alg := if isAes then dukptAlg n else if n = 16 then 0 else 1
  ((List.range (ceilDiv n c.len)).flatMap fun i =>
    cmacTag c (leBytes 1 (i + 1) ++ beBytes 2 usage ++ [0#8] ++ beBytes 2 alg ++ beBytes 2 (8 * n))).take n

/-- The ASCII key block of a payload under a header of 16 bytes and its optional blocks. -/
def blockSeal (isAes : Bool) (kbpk head payload : List Byte) : List Byte :=
  let cipher := fun u => if isAes then aesCipher (kbKey isAes kbpk u) else tdesCipher (kbKey isAes kbpk u)
  let mac := cmacTag (cipher 1) (head ++ payload)
  head ++ hexOf (cbcEnc (cipher 0) mac (blocksOf (cipher 0).len payload)) ++ hexOf mac

/-- A parsed key block. -/
structure KeyBlock where
  usage : List Byte
  alg : Byte
  mode : Byte
  exportable : Byte
  head : List Byte
  cipher : List Byte
  mac : List Byte
  deriving DecidableEq, Repr

/-- The end of `n` optional blocks from `off` on: each is an ID of two characters, a length of two hexadecimal digits that
counts the block, or 00 and an extended length, and its data. -/
def optionalEnd (b : List Byte) : Nat → Nat → Option Nat
  | 0, off => some off
  | n + 1, off =>
    match ofHex (slice b (off + 2) 2) with
    | none => none
    | some l =>
      if leNat l = 0 then
        match ofHex (slice b (off + 4) 2) with
        | none => none
        | some m =>
          match ofHex (slice b (off + 6) (2 * leNat m)) with
          | none => none
          | some x => if beNat x < 6 + 2 * leNat m ∨ b.length < off + beNat x then none else optionalEnd b n (off + beNat x)
      else if leNat l < 4 ∨ b.length < off + leNat l then none
      else optionalEnd b n (off + leNat l)

/-- The optional blocks that a header counts. -/
def optionalCount (b : List Byte) : Option Nat := ofDecimal (slice b 12 2)

/-- Read a key block of version D under an AES KBPK, or of version B under a TDES one. -/
def parseKeyBlock (isAes : Bool) (b : List Byte) : Option KeyBlock :=
  let m := if isAes then 16 else 8
  match ofDecimal (slice b 1 4), (optionalCount b).bind fun n => optionalEnd b n 16 with
  | some n, some stop =>
    if b.head? ≠ some (if isAes then 0x44#8 else 0x42#8) ∨ n ≠ b.length ∨ n < stop + 4 * m then none
    else match ofHex (slice b stop (n - stop - 2 * m)), ofHex (b.drop (n - 2 * m)) with
      | some c, some t =>
        if c.length % m ≠ 0 then none
        else some { usage := slice b 5 2, alg := (slice b 7 1).headD 0, mode := (slice b 8 1).headD 0,
                    exportable := (slice b 11 1).headD 0, head := b.take stop, cipher := c, mac := t }
      | _, _ => none
  | _, _ => none

/-- The payload of a key block, if its authenticator matches. -/
def KeyBlock.open_ (k : KeyBlock) (isAes : Bool) (kbpk : List Byte) : Option (List Byte) :=
  let cipher := fun u => if isAes then aesCipher (kbKey isAes kbpk u) else tdesCipher (kbKey isAes kbpk u)
  let p := cbcDec (cipher 0) k.mac (blocksOf (cipher 0).len k.cipher)
  if cmacTag (cipher 1) (k.head ++ p) = k.mac then some p else none

/-- The OPS bits that a key usage and a mode of use grant (R279). -/
def grantedOps (usage : List Byte) (mode : Byte) : Option (List Nat) :=
  let u := usage.map BitVec.toNat
  let m := Char.ofNat mode.toNat
  if u = [0x50, 0x30] then
    match m with | 'B' => some [opsTranslate, opsVerify] | 'E' => some [opsTranslate] | 'D' => some [opsVerify] | _ => none
  else if u = [0x4D, 0x33] ∨ u = [0x4D, 0x36] then
    match m with | 'C' => some [opsMac, opsVerify] | 'G' => some [opsMac] | 'V' => some [opsVerify] | _ => none
  else if u = [0x42, 0x30] then (match m with | 'X' => some [opsDerive] | _ => none)
  else if u = [0x44, 0x30] then
    match m with
    | 'B' => some [opsEncrypt, opsDecrypt] | 'E' => some [opsEncrypt] | 'D' => some [opsDecrypt] | _ => none
  else if u = [0x4B, 0x30] ∨ u = [0x4B, 0x31] then
    match m with | 'B' => some [opsWrap, opsUnwrap] | 'E' => some [opsWrap] | 'D' => some [opsUnwrap] | _ => none
  else none

/-- A class holds a key of an algorithm letter and of `n` bytes. -/
def classFits (cls : Nat) (alg : Byte) (n : Nat) : Bool :=
  match Char.ofNat alg.toNat with
  | 'A' =>
    (decide (0x81 ≤ cls ∧ cls < 0xD0 ∧ cls % 16 ≤ 3) || decide (0xD1 ≤ cls ∧ cls ≤ 0xD3)) &&
    decide (classLen cls = n)
  | 'T' => decide (0x81 ≤ cls ∧ cls < 0xD0 ∧ (cls % 16 = 5 ∨ cls % 16 = 6)) && decide (classLen cls = n)
  | _ => false

/-- An attribute word with OPS reduced to `ops`, and without EXPORTABLE_WRAPPED where the block may not be exported. -/
def reducedAttr (attr : Nat) (ops : List Nat) (exportable : Bool) : Nat :=
  let drop := ((List.range 11).map (· + 24)).foldl (fun n i => if ops.contains i then n else n + 2 ^ i) 0
  let drop := if exportable then drop else drop + 2 ^ 41
  attr &&& (2 ^ 64 - 1 - drop)

/-- Cipher calls of the work on a key block: both derived keys, the authenticator and the payload. -/
def blockCalls (isAes : Bool) (kbpk head payload : Nat) : Nat :=
  let b := if isAes then 16 else 8
  1 + 2 * ceilDiv kbpk b + 1 + ceilDiv (head + payload) b + ceilDiv payload b

/-- Cycles and words of a key block of `total` bytes (R279). -/
def blockCost (o2 isAes : Bool) (kbpk total head payload : Nat) : Nat × Nat :=
  let calls := blockCalls isAes kbpk head payload
  let p := passCost isAes kbpk
  if o2 then (2400 + p.1 * calls, p.2 * calls) else (2400 + 600 * ceilDiv total 16, 2 * calls)

/-- KEY_BLOCK_IMPORT: a block that does not parse, a failed authenticator, and a slot, usage or mode that does not fit, in that
order. -/
def execKeyBlockImport (j : Nat) (s : State) : Result :=
  .next (s.runOp j (fun k => decide (k = .blockImport)) fun s job =>
    let kbpk := job.key1.secret
    let isAes := decide (attrClass job.key1.attr % 16 ≤ 3)
    let b := job.input
    let attr := s.claimAttr job
    match parseKeyBlock isAes b with
    | none =>
      let cost := blockCost job.order2 isAes kbpk.length b.length 16 0
      { status := Status.inputInvalid, cycles := cost.1, words := cost.2 }
    | some k =>
      let cost := blockCost job.order2 isAes kbpk.length b.length k.head.length k.cipher.length
      let bad := fun status => { status := status, cycles := cost.1, words := cost.2 : OpResult }
      match k.open_ isAes kbpk with
      | none => bad Status.verifyFail
      | some p =>
        let n := beNat (p.take 2)
        if n % 8 ≠ 0 ∨ p.length < 2 + n / 8 then bad Status.inputInvalid
        else match grantedOps k.usage k.mode with
          | none => bad Status.keyDenied
          | some ops =>
            if !classFits (attrClass attr) k.alg (n / 8) then bad Status.keyDenied
            else
              { mat := { attr := reducedAttr attr ops (decide (k.exportable ≠ 0x4E#8)), secret := slice p 2 (n / 8) }
                cycles := cost.1
                words := cost.2 })

/-- Usage, algorithm and mode of an exported key by its class and OPS: a TDES MAC key may be M3 or M6, and the spec gives no
usage for other classes (log entry 49). -/
def State.keyBlockHeader (s : State) (attr : Nat) : List Byte :=
  let c := attrClass attr
  let two := fun x y (b e d : String) => if bit attr x && bit attr y then ascii b else if bit attr x then ascii e else ascii d
  let alg := if 0xD0 ≤ c ∨ c % 16 ≤ 3 then ascii "A" else ascii "T"
  match c / 16 with
  | 0x8 => ascii "D0" ++ alg ++ two opsEncrypt opsDecrypt "B" "E" "D"
  | 0x9 => (if c = 0x95 ∧ Config.freeBool s.free then ascii "M3" else ascii "M6") ++ alg ++ two opsMac opsVerify "C" "G" "V"
  | 0xA => ascii "K0" ++ alg ++ two opsWrap opsUnwrap "B" "E" "D"
  | 0xB => ascii "K1" ++ alg ++ two opsWrap opsUnwrap "B" "E" "D"
  | 0xC => ascii "P0" ++ alg ++ two opsTranslate opsVerify "B" "E" "D"
  | 0xD => ascii "B0" ++ alg ++ ascii "X"
  | _ => s.freeValue 3 4

/-- A version D block of a key under an AES KBPK: exportability N, no optional blocks, random padding. -/
def State.exportBlock (s : State) (kbpk key usage : List Byte) : List Byte :=
  let n := roundUp (2 + key.length) 16
  let payload := beBytes 2 (8 * key.length) ++ key ++ s.freeValue 4 (n - 2 - key.length)
  let head := ascii "D" ++ decimal 4 (16 + 2 * n + 32) ++ usage ++ ascii "00N0000"
  blockSeal true kbpk head payload

/-- Cycles and words of an exported block. -/
def exportCost (o2 : Bool) (kbpk key : Nat) : Nat × Nat :=
  let n := roundUp (2 + key) 16
  blockCost o2 true kbpk (16 + 2 * n + 32) 16 n

/-- KEY_BLOCK_EXPORT. -/
def execKeyBlockExport (j : Nat) (s : State) : Result :=
  .next (s.runOp j (fun k => decide (k = .blockExport)) fun s job =>
    let cost := exportCost job.order2 job.key1.secret.length job.key2.material.length
    { out := s.exportBlock job.key1.secret job.key2.material (s.keyBlockHeader job.key2.attr)
      cycles := cost.1
      words := cost.2 })

/-- DUKPT_INITIAL_KEY_EXPORT: the initial key as a key block of usage B1 (R278). -/
def execDukptInitialKeyExport (j : Nat) (s : State) : Result :=
  .next (s.runOp j (fun k => decide (k = .dukptInitial)) fun s job =>
    let bdk := job.key1.secret
    let cost := exportCost job.order2 job.key2.secret.length bdk.length
    let d := stepCost job.order2 bdk.length 1
    { out := s.exportBlock job.key2.secret (dukptInitial bdk (job.input.take 8)) (ascii "B1AX")
      cycles := cost.1 + d.1
      words := cost.2 + d.2 })

end Sys2Proof.Machine
end

