-- ==== Sys2Proof/Machine/PgdOps.lean ====
section
/-!
DEFINITION. The platform guard: holds (R372 to R374), the preparation and recovery of channels (R381 to R384, R389, R390) and
their events.
-/
namespace Sys2Proof.Config

/-- The SFDP copy with every read dummy-cycle count replaced, by the dummy counts of SDR modes and of 8D-8D-8D; the layout is
JEDEC's (R375; log entry 37). -/
opaque sfdpCopy : List Byte → Nat → Nat → List Byte

end Sys2Proof.Config

namespace Sys2Proof.Machine

def State.chan (s : State) (c : Nat) : Chan := s.pgd.chans.get c {}
def State.modChan (s : State) (c : Nat) (f : Chan → Chan) : State :=
  s.modPgd fun g => { g with chans := g.chans.modify c {} f }

/-- The plan of a channel; a channel that the record does not name has no image (R380). -/
def State.plan (s : State) (c : Nat) : FlashPlan := s.tilth.flash.get c {}

/-- The flash base of an image region or of the golden copy. -/
def FlashPlan.base (f : FlashPlan) (r : Nat) : Nat := (f.bases[r]?).getD 0

/-- The PLATFORM entry (R437). -/
def State.logPlatform (s : State) (ev c block : Nat) : State :=
  s.log 0x5002 (leBytes 2 ev ++ leBytes 1 c ++ leBytes 3 block)

/-! HOST_DUMMY (R377). -/

/-- Every measured block is mirrored, and the channel has no open region. -/
def FlashPlan.allMirrored (f : FlashPlan) : Bool := decide (0 < f.blocks ∧ f.countMode 1 = f.blocks)

/-- The access latency L in nanoseconds. -/
def FlashPlan.latency (f : FlashPlan) : Nat := if f.allMirrored then 75 else 65 + 5 * f.dummy

/-- ceil(L × fmax): fmax is 133 MHz, or 200 MHz in 8D-8D-8D (mode 7). -/
def FlashPlan.hostDummy (f : FlashPlan) (mode : Nat) : Nat :=
  let mhz := if mode = 7 then 200 else 133
  (f.latency * mhz + 999) / 1000

/-! Holds. -/

/-- MODE of a hold. -/
def State.holdMode (s : State) (k : Nat) : Nat := (s.tilth.holds.get k {}).mode

/-- The channels of an AUTO hold's mask are SERVING (R373). -/
def State.holdReady (s : State) (k : Nat) : Bool :=
  [0, 1].all fun c => !(s.tilth.holds.get k {}).chans.testBit c || decide ((s.chan c).state = .serving)

/-- Holds go high (R374). -/
def State.assertHolds (s : State) (mask : Nat) : State := s.modPgd fun g => { g with level := g.level ||| mask }

/-- A hold goes low; the last AUTO hold to be released for the first time is the platform release (R373). -/
def State.releaseHold (s : State) (k : Nat) : State :=
  let s := s.modPgd fun g => { g with
    level := without g.level (2 ^ k)
    autoDue := without g.autoDue (2 ^ k)
    releasedOnce := if s.holdMode k = 1 then g.releasedOnce ||| 2 ^ k else g.releasedOnce }
  if s.holdMode k = 1 ∧ s.pgd.releasedOnce &&& s.autoHolds = s.autoHolds ∧ !s.pgd.released then
    (s.modPgd fun g => { g with released := true }).event .pgd 1
  else s

/-- Every AUTO and MANUAL hold is asserted, and the AUTO holds follow their plan again (R374). -/
def State.assertPlanned (s : State) : State :=
  (s.assertHolds s.plannedHolds).modPgd fun g => { g with autoDue := s.autoHolds }

/-- HOLD_AUTO_RELEASE: DELAY_MS have passed since the channels of an AUTO hold were SERVING (R373). -/
def execHoldAutoRelease (k : Nat) (s : State) : Result :=
  .next (
    if k < 8 ∧ s.boot.tilth.isSome ∧ s.pgd.autoDue.testBit k ∧ !s.pgd.byTamper.testBit k ∧ s.holdReady k then s.releaseHold k
    else s)

/-- A recovery runs on a channel: every AUTO and MANUAL hold is asserted throughout (R390). -/
def State.recoveryRuns (s : State) : Bool := s.pgd.chans.any fun (_, x) => x.recovers

/-- PGD_HOLD_REL may release a hold (R374, R390, R394). -/
def State.mayRelease (s : State) (k : Nat) : Bool :=
  !s.pgd.byTamper.testBit k && !(decide (s.holdMode k ≠ 0) && s.recoveryRuns) && (decide (s.holdMode k ≠ 1) || s.holdReady k)

/-- The pair on PGD_HOLD_REL: a hold that it asserts and releases is asserted (R392). An AUTO hold that it asserts waits for no
plan. -/
def holdPair (_off : Nat) (v : W32) (s : State) : State × GuardResult :=
  let up := bits v.toNat 15 8
  let down := (List.range 8).filter fun k => v.toNat.testBit k && !up.testBit k && s.mayRelease k
  let s := (s.assertHolds up).modPgd fun g => { g with autoDue := without g.autoDue up }
  (down.foldl State.releaseHold s, .applied)

/-- PGD_HOLD_ASSERT: the second write of a pair that asserts holds. -/
def execPgdHoldAssert (r : Requester) (off : Nat) (complement : W32) (s : State) : Result :=
  .next (s.guardPair r [gdHoldRel] off complement holdPair)

/-- PGD_HOLD_RELEASE: the second write of a pair that releases holds. -/
def execPgdHoldRelease (r : Requester) (off : Nat) (complement : W32) (s : State) : Result :=
  .next (s.guardPair r [gdHoldRel] off complement holdPair)

/-- The pair on PGD_SIEVE_EN (R386). -/
def sievePair (_off : Nat) (v : W32) (s : State) : State × GuardResult :=
  (s.modPgd fun g => { g with sieveEn := bits v.toNat 1 0 }, .applied)

/-- PGD_SIEVE_EN: the second write of the pair. -/
def execPgdSieveEn (r : Requester) (off : Nat) (complement : W32) (s : State) : Result :=
  .next (s.guardPair r [gdSieveEn] off complement sievePair)

/-- The pair on PGD_UPD_WIN: a window opens or replaces the channel's, and LEN 0 closes it (R387). -/
def windowPair (_off : Nat) (v : W32) (s : State) : State × GuardResult :=
  let c := bits v.toNat 31 31
  let len := bits v.toNat 30 17
  if 8192 < len then (s, .inputInvalid)
  else
    let w := if len = 0 then none else some ⟨65536 * bits v.toNat 12 0, 65536 * len⟩
    (s.modChan c fun x => { x with window := w }, .applied)

/-- PGD_UPD_WIN: the second write of the pair. -/
def execPgdUpdWin (r : Requester) (off : Nat) (complement : W32) (s : State) : Result :=
  .next (s.guardPair r [gdUpdWin] off complement windowPair)

/-- UPDATE_WINDOW_TIMEOUT: WIN_TIMEOUT has passed since the window opened. -/
def execUpdateWindowTimeout (c : Nat) (s : State) : Result :=
  .next (
    if (s.chan c).window.isSome then
      ((s.modChan c fun x => { x with window := none }).event .pgd 32).logPlatform 6 c 0
    else s)

/-- The pairs by their register, for an arming request. -/
def pgdPair (off : Nat) : W32 → State → State × GuardResult :=
  if off = gdHoldRel then holdPair off else if off = gdSieveEn then sievePair off else windowPair off

/-- PGD_ARM (R391). -/
def State.pgdArm (s : State) (v : Via) (off : Nat) (value : W32) : State × Answer :=
  if [gdHoldRel, gdSieveEn, gdUpdWin].contains off then s.arm v off value pgdPair else (s, .no Status.inputInvalid)

/-! Sources (R381, R390). -/

/-- A channel waits for a delivered image, or for a flash that answers (R376, R390). -/
def State.chanWaits (s : State) (c : Nat) : State :=
  ((s.modChan c fun x => { x with state := .waiting, manifest := [] }).event .pgd 8).logPlatform 4 c 0

/-- The next source of a recovery, or the wait for a delivery. -/
def State.nextSource (s : State) (c : Nat) : State :=
  match (s.chan c).left with
  | [] => s.chanWaits c
  | r :: rest => s.modChan c fun x => { x with state := .recovering, source := r, left := rest, manifest := [] }

/-- The sources of a recovery, in order: the other image region, then the golden copy. -/
def sourcesAfter (serving : Option Nat) : List Nat :=
  match serving with | some 0 => [1, 2] | some 1 => [0, 2] | _ => [2]

/-- A recovery starts: the holds are asserted, the window closes, and the sources are tried (R374, R387, R390). -/
def State.startRecovery (s : State) (c cause : Nat) (left : List Nat) : State :=
  let s := s.assertPlanned.modChan c fun x =>
    { x with recovers := true, cause := cause, window := none, serving := none, left := left }
  (s.logPlatform 2 c 0).nextSource c

/-- The source under preparation fails: the recovery that this starts has PLATFORM_CYCLE as its cause where that prepared the
channel, and boot verification otherwise (R381, R390, R394). -/
def State.sourceFails (s : State) (c : Nat) : State :=
  let cause := if (s.chan c).cause = 4 then 4 else 1
  if (s.chan c).recovers then s.nextSource c else s.startRecovery c cause (s.chan c).left

/-- Change the entries of one image block of a channel. -/
def State.markEntry (s : State) (c block state : Nat) : State :=
  s.modPgd fun g => { g with table := g.table.map fun e =>
    if e.channel = c ∧ e.block = block then { e with state := state } else e }

/-- The flash-tamper response (R384, R389). During a recovery of the channel a further mismatch is only logged (R392). -/
def State.flashTamper (s : State) (c block cause : Nat) : State :=
  let s := s.logPlatform 1 c block
  if (s.chan c).state ≠ .serving then s
  else
    let left := sourcesAfter (s.chan c).serving
    (((s.assertPlanned).markEntry c block 2).event .pgd 2).startRecovery c cause left

/-! Preparation. -/

/-- Every channel that has an image is prepared from the start (R381). -/
def State.prepareChannels (s : State) (cause : Nat) : State :=
  (s.tilth.flash.filter fun (_, f) => decide (0 < f.blocks)).foldl (fun s e =>
    (s.modChan e.1 fun x =>
      { x with state := .init, serving := none, left := [], recovers := false, cause := cause, manifest := [] }).modPgd fun g =>
        { g with table := g.table.filter fun y => decide (y.channel ≠ e.1) }) s

/-- SVN of a manifest header that parses (R381, R382). -/
def headerSvn (h : List Byte) : Option Nat :=
  if h.take 4 = ascii "IXHM" ∧ field h 4 2 = 1 then some (field h 8 4) else none

/-- The order of regions 0 and 1: the higher SVN first, region 0 when they are equal, a header that does not parse last. -/
def regionOrder (h0 h1 : List Byte) : List Nat :=
  match headerSvn h0, headerSvn h1 with
  | some a, some b => if a < b then [1, 0] else [0, 1]
  | none, some _ => [1, 0]
  | _, none => [0, 1]

/-- CHANNEL_INIT_DONE: the flash was reset and answered, with its identity and the manifest headers of regions 0 and 1, or it
did not answer (R376, R381). -/
def execChannelInitDone (c : Nat) (answers : Bool) (jedec sfdp header0 header1 : List Byte) (s : State) : Result :=
  .next (
    if (s.chan c).state ≠ .init then s
    else
      let s := s.emit (.flashReset c)
      if !answers then s.chanWaits c
      else
        let p := s.plan c
        let order := regionOrder header0 header1
        s.modChan c fun x =>
          { x with
            state := .verifying, source := order.headD 0, left := order.drop 1 ++ [2], busy := false
            jedec := jedec, sfdp := Config.sfdpCopy sfdp (p.hostDummy 0) (p.hostDummy 7), mode := 0, addr4 := false
            settings := [], denied := 0 })

/-! Manifests (R382, R383). -/

/-- The signature block of a manifest verifies under a platform key digest. -/
def manifestSigned (b digest message : List Byte) (hss : Bool) : Bool :=
  if hss then
    let p := field b 0 4
    let n := field b (4 + p) 4
    decide (b.length = 8 + p + n ∧ sha3_256 (slice b 4 p) = digest) &&
      Config.sigOk schemeHss (slice b 4 p) message (b.drop (8 + p))
  else
    decide (b.length = hybridBlock ∧ slice b 2592 1 = [4#8] ∧ sha3_256 (b.take 2689) = digest) &&
      mlOk (b.take 2592) message (slice b 2689 4627) &&
      p384Ok (slice b 2592 97) message (b.drop 7316)

/-- Format, SVN and UID_BIND of a manifest for a channel (R382, R383). -/
def State.manifestFormat (s : State) (c : Nat) (m : List Byte) : Bool :=
  let p := s.plan c
  decide (m.take 4 = ascii "IXHM" ∧ field m 4 2 = 1 ∧ field m 6 1 < 2 ∧ field m 7 1 < 4 ∧ field m 0xC 4 = p.blocks ∧
    field m 0x10 4 = 0x40 + 32 * p.blocks ∧ field m 0x10 4 + field m 0x14 4 ≤ m.length ∧ p.minSvn ≤ field m 8 4) &&
  s.uidOk (field m 0x18 16) && zeros m 0x28 24

/-- The signatures of a manifest. -/
def State.manifestOk (s : State) (m : List Byte) : Bool :=
  let off := field m 0x10 4
  match s.tilth.platformKeys[field m 7 1]? with
  | none => false
  | some digest => manifestSigned (slice m off (field m 0x14 4)) digest (signedMessage "IXHM-SIGN" (m.take off))
      (decide (field m 6 1 = 1))

/-- The block digests of a manifest. -/
def manifestDigests (m : List Byte) : List (List Byte) := (List.range (field m 0xC 4)).map fun i => slice m (0x40 + 32 * i) 32

/-- A channel is preparing a source and the flash is idle: a recovery waits for it (R392). No recovery runs during a lock
(R419). -/
def State.preparing (s : State) (c : Nat) : Bool :=
  decide ((s.chan c).state = .verifying ∨ (s.chan c).state = .recovering) && !(s.chan c).busy &&
  decide (s.power.phase ≠ .lockService)

/-- MANIFEST_VERIFY_DONE: core 2 has judged the manifest that the source under preparation holds in flash. -/
def execManifestVerifyDone (c : Nat) (manifest : List Byte) (s : State) : Result :=
  .next (
    if !s.preparing c ∨ (s.chan c).manifest ≠ [] then s
    else if s.manifestFormat c manifest && s.manifestOk manifest then
      s.modChan c fun x => { x with manifest := manifestDigests manifest, raw := manifest }
    else s.sourceFails c)

/-! The block scan (R381, R384). -/

/-- Every block of an image has its manifest digest. -/
def imageMatches (digests : List (List Byte)) (image : List Byte) : Bool :=
  digests.zipIdx.all fun d => decide (sha3_256 (slice image (4096 * d.2) 4096) = d.1)

/-- The first mirror index of a channel: FB's blocks follow FA's. -/
def State.mirrorBase (s : State) (c : Nat) : Nat := if c = 0 then 0 else (s.plan 0).countMode 1

/-- The measured blocks of a channel: each with its mode and, where it is mirrored, its mirror index. -/
def State.measured (s : State) (c : Nat) : List (Nat × Nat × Option Nat) :=
  ((List.range (s.plan c).blocks).foldl (fun (acc : List (Nat × Nat × Option Nat) × Nat) k =>
    match (s.plan c).modeOf k with
    | 0 => acc
    | 1 => ((k, 1, some acc.2) :: acc.1, acc.2 + 1)
    | m => ((k, m, none) :: acc.1, acc.2)) ([], s.mirrorBase c)).1.reverse

/-- The table and the mirror take a verified image, and the channel is SERVING (R381, R384, R390). -/
def State.serveImage (s : State) (c source : Nat) (digests : List (List Byte)) (image : List Byte) : State :=
  let blocks := s.measured c
  let rows := blocks.map fun x =>
    ({ digest := (digests[x.1]?).getD [], block := x.1, mirror := x.2.2, channel := c, mode := x.2.1, state := 1 } : MeasEntry)
  let s := s.modPgd fun g =>
    { g with
      table := (if c = 0 then rows else g.table.filter fun e => decide (e.channel = 0)) ++
        (if c = 0 then g.table.filter fun e => decide (e.channel ≠ 0) else rows)
      mirror := blocks.foldl (fun m x => match x.2.2 with
        | some i => m.insert i (slice image (4096 * x.1) 4096) | none => m) g.mirror }
  let again := (s.chan c).recovers
  let s := s.modChan c fun x =>
    { x with
      state := .serving, serving := some source, left := [], recovers := false, manifest := [], buffers := [], hashing := [] }
  if again then (s.event .pgd 4).logPlatform 3 c 0 else s

/-- BLOCK_SCAN_DONE: the blocks of the source under preparation have been read and hashed. -/
def execBlockScanDone (c : Nat) (image : List Byte) (s : State) : Result :=
  .next (
    let x := s.chan c
    if !s.preparing c ∨ x.manifest = [] then s
    else if imageMatches x.manifest image then s.serveImage c x.source x.manifest image
    else s.sourceFails c)

/-- FLASH_PROGRAM_ERASE_DONE: the flash goes idle (R392). -/
def execFlashProgramEraseDone (c : Nat) (s : State) : Result := .next (s.modChan c fun x => { x with busy := false })

/-- FLASH_IDLE_TIMEOUT: a recovery has waited 10 s for the flash, which is reset through its pin (R392). -/
def execFlashIdleTimeout (c : Nat) (s : State) : Result :=
  .next (
    if (s.chan c).busy ∧ (s.chan c).state = .recovering then
      (s.emit (.flashReset c)).modChan c fun x => { x with busy := false }
    else s)

/-! Requests (R391). -/

/-- PLATFORM_CYCLE. -/
def State.platformCycle (s : State) : State × Answer :=
  if [0, 1].any fun c => decide ((s.chan c).state = .recovering) then (s, .no Status.inputInvalid)
  else (s.assertPlanned.prepareChannels 4, .ok)

/-- The bytes that a delivered image may have: up to the next region, or to the end of the flash. -/
def FlashPlan.room (f : FlashPlan) (target : Nat) : Nat :=
  let b := f.base target
  ((f.hostBase :: f.bases).filter fun x => decide (b < x)).foldl (fun n x => min n (x - b)) (f.size - b)

/-- A request without a session is taken only for a WAITING channel (R391). -/
def State.deliveryOpen (s : State) (v : Via) (c : Nat) : Bool := v.session.isSome || decide ((s.chan c).state = .waiting)

/-- HOST_IMAGE_BEGIN. -/
def State.hostImageBegin (s : State) (v : Via) (c target len : Nat) : State × Answer :=
  if !s.deliveryOpen v c then (s, .no Status.opcodeDenied)
  else if (s.chan c).serving = some target ∨ 2 < target ∨ 1 < c ∨ (s.plan c).blocks = 0 ∨ (s.plan c).room target < len ∨
      s.pgd.delivery.isSome ∨ (target = 2 ∧ v.session = none) then (s, .no Status.inputInvalid)
  else (s.modPgd fun g => { g with delivery := some { channel := c, target := target, len := len } }, .ok)

/-- HOST_IMAGE_DATA: bytes go to the target region, past the sieve. -/
def State.hostImageData (s : State) (v : Via) (off : Nat) (bytes : List Byte) : State × Answer :=
  match s.pgd.delivery with
  | none => (s, .no Status.inputInvalid)
  | some d =>
    if !s.deliveryOpen v d.channel then (s, .no Status.opcodeDenied)
    else if bytes.length = 0 ∨ 1024 < bytes.length ∨ d.len < off + bytes.length then (s, .no Status.inputInvalid)
    else
      let s := s.modPgd fun g =>
        { g with delivery := some { d with bytes := (bytes.zipIdx off).foldl (fun m x => m.set x.2 x.1 0) d.bytes } }
      (s.emit (.hostImage d.channel d.target off bytes), .ok)

/-- HOST_IMAGE_COMMIT: the image is verified, and a WAITING channel serves it; a recovery that runs takes it as its last
source (R390, R392). -/
def State.hostImageCommit (s : State) (v : Via) : State × Answer :=
  match s.pgd.delivery with
  | none => (s, .no Status.inputInvalid)
  | some d =>
    let b := (List.range d.len).map fun i => d.bytes.get i 0
    let n := field b 0x10 4 + field b 0x14 4
    let m := b.take n
    if !s.deliveryOpen v d.channel then (s, .no Status.opcodeDenied)
    else if !s.manifestFormat d.channel m ∨ d.len ≠ n + 4096 * (s.plan d.channel).blocks then (s, .no Status.inputInvalid)
    else if !s.manifestOk m ∨ !imageMatches (manifestDigests m) (b.drop n) then (s, .no Status.verifyFail)
    else
      let s := s.modPgd fun g => { g with delivery := none }
      match (s.chan d.channel).state with
      | .waiting =>
        ((s.modChan d.channel fun x => { x with raw := m }).serveImage d.channel d.target (manifestDigests m) (b.drop n), .ok)
      | .recovering => (s.modChan d.channel fun x => { x with left := x.left ++ [d.target] }, .ok)
      | _ => (s, .ok)

end Sys2Proof.Machine
end

