-- ==== Sys2Proof/Machine/PgdHost.lean ====
section
/-!
DEFINITION. What the host does on a flash channel: the sieve (R385 to R388), reads and watched blocks (R378, R379, R389), and the
emulated configuration and status (R375, R377, R388).
-/
namespace Sys2Proof.Config

/-- The interface mode, coded as in PGD_CHAN, that a configuration write of an opcode, address and data sets, if it sets one; the
encoding is the flash's (R375; log entry 37). -/
opaque configMode : Nat → Nat → List Byte → Option Nat
/-- The dummy cycles that a configuration write sets, if it sets them (R377; log entry 37). -/
opaque configDummy : Nat → Nat → List Byte → Option Nat
/-- The channel of a sieve rule, its actions by class, and whether CTL breaks no rule of R391, from PGD_RULE CTL, whose layout
R394 does not give (log entry 38). -/
opaque ruleFields : Nat → Nat × List Nat × Bool

end Sys2Proof.Config

namespace Sys2Proof.Machine

/-! The opcode table (R385). -/

/-- An entry of CLASS, ADDR, DUMMY, UNIT, SERVE and NOADDR. -/
def opEntry (cls addr dummy unit serve noaddr : Nat) : W32 :=
  BitVec.ofNat 32 (cls + addr * 8 + dummy * 32 + unit * 64 + serve * 512 + noaddr * 2048)

/-- The entries without a SIEVE section. ADDR and DUMMY are those of the commands of JESD216 and JESD251 (PRESUMED, log entry
38); whole-flash erases without an address are denied as their class is. -/
def defaultOp (n : Nat) : W32 :=
  if [0x03].contains n then opEntry 0 1 0 0 0 0
  else if [0x13].contains n then opEntry 0 2 0 0 0 0
  else if [0x0B, 0x3B, 0xBB, 0x6B, 0xEB, 0x8B, 0xCB].contains n then opEntry 0 1 1 0 0 0
  else if [0x0C, 0x3C, 0xBC, 0x6C, 0xEC, 0x7C, 0xCC, 0xEE, 0xFD].contains n then opEntry 0 2 1 0 0 0
  else if [0x02, 0x32, 0x82].contains n then opEntry 1 1 0 0 0 0
  else if [0x12, 0x34, 0x84, 0x8E].contains n then opEntry 1 2 0 0 0 0
  else if [0x06, 0x04].contains n then opEntry 1 0 0 0 0 0
  else if n = 0x20 then opEntry 2 1 0 1 0 0
  else if n = 0x21 then opEntry 2 2 0 1 0 0
  else if n = 0x52 then opEntry 2 1 0 2 0 0
  else if n = 0x5C then opEntry 2 2 0 2 0 0
  else if n = 0xD8 then opEntry 2 1 0 3 0 0
  else if n = 0xDC then opEntry 2 2 0 3 0 0
  else if [0x60, 0xC7].contains n then opEntry 2 0 0 4 0 2
  else if [0x75, 0x7A, 0xB0, 0x30].contains n then opEntry 2 0 0 0 0 0
  else if [0x05, 0x70, 0x50, 0x35].contains n then opEntry 3 0 0 0 0 0
  else if n = 0x5A then opEntry 4 1 1 0 1 0
  else if [0x9F, 0x66, 0x99, 0xB7, 0xE9, 0x81, 0x85, 0x01, 0x31].contains n then opEntry 4 0 0 0 1 0
  else opEntry 0 0 0 0 2 0

/-- PGD_OPC of a channel. -/
def State.opOf (s : State) (c n : Nat) : W32 := s.pgd.ops.get (256 * c + n) (defaultOp n)

def opClass (e : W32) : Nat := bits e.toNat 2 0
def opAddr (e : W32) : Nat := bits e.toNat 4 3
def opDummy (e : W32) : Bool := e.toNat.testBit 5
def opUnit (e : W32) : Nat := bits e.toNat 8 6
def opServe (e : W32) : Nat := bits e.toNat 10 9
def opNoAddr (e : W32) : Nat := bits e.toNat 12 11

/-! Addresses (R380). -/

/-- A range of bytes. -/
abbrev Range := Nat × Nat

/-- Two ranges share a byte. -/
def Range.meets (a b : Range) : Bool := decide (0 < a.2 ∧ 0 < b.2) && overlap a.1 a.2 b.1 b.2

/-- One range lies in another. -/
def Range.inside (a b : Range) : Bool := decide (b.1 ≤ a.1 ∧ a.1 + a.2 ≤ b.1 + b.2)

/-- The host window of a channel. -/
def FlashPlan.window (f : FlashPlan) : Range := (f.hostBase, 4096 * f.blocks)

/-- The flash address of a host address. -/
def State.flashAddr (s : State) (c a : Nat) : Nat :=
  let p := s.plan c
  match (s.chan c).serving with
  | some r => if p.hostBase ≤ a ∧ a < p.hostBase + 4096 * p.blocks then p.base r + (a - p.hostBase) else a
  | none => a

/-- A host range as flash ranges: before, inside and behind the host window. -/
def State.flashRanges (s : State) (c : Nat) (r : Range) : List Range :=
  let w := (s.plan c).window
  let stop := r.1 + r.2
  let a := min (max r.1 w.1) stop
  let b := min (max r.1 (w.1 + w.2)) stop
  ([(r.1, a - r.1), (a, b - a), (b, stop - b)].filter fun x => decide (0 < x.2)).map fun x => (s.flashAddr c x.1, x.2)

/-- The affected range of a command at a host address with `n` data bytes (R385 UNIT). -/
def State.affected (s : State) (c : Nat) (e : W32) (addr n : Nat) : Range :=
  let block := fun k => (addr / k * k, k)
  match opUnit e with
  | 0 => if opAddr e = 0 then (addr, 0) else (addr / 256 * 256, roundUp (addr + n) 256 - addr / 256 * 256)
  | 1 => block 0x1000
  | 2 => block 0x8000
  | 3 => block 0x10000
  | _ => (0, (s.plan c).size)

/-! Rules (R386). -/

/-- A rule's channel and its action for a class. -/
def SieveRule.channel (r : SieveRule) : Nat := (Config.ruleFields r.ctl).1
def SieveRule.action (r : SieveRule) (cls : Nat) : Nat := ((Config.ruleFields r.ctl).2.1[cls]?).getD 0

/-- The fixed default: PERMIT for reads and status, DENY otherwise. -/
def defaultAction (cls : Nat) : Nat := if cls = 0 ∨ cls = 3 then 0 else 2

/-- The lowest-numbered rule that matches a byte. -/
def State.ruleAt (s : State) (c a : Nat) : Option Nat :=
  (List.find? (fun (x : Nat × SieveRule) => decide (x.2.channel = c ∧ x.2.base ≤ a ∧ a < x.2.base + x.2.len))
    s.pgd.rules).map Prod.fst

/-- The bytes of a range at which the matching rule can change. -/
def State.corners (s : State) (r : Range) : List Nat :=
  r.1 :: ((s.pgd.rules.flatMap fun (_, x) => [x.base, x.base + x.len]).filter fun a => decide (r.1 < a ∧ a < r.1 + r.2))

/-- What decided a command: an action, ranked by its number, and the rule it came from. -/
structure Decision where
  action : Nat
  rule : Option Nat
  hits : List Nat
  deriving DecidableEq, Repr

/-- The most restrictive action over flash ranges (R386). -/
def State.decideRanges (s : State) (c cls : Nat) (rs : List Range) : Decision :=
  (rs.flatMap s.corners).foldl (fun (d : Decision) a =>
    let r := s.ruleAt c a
    let act := match r with
      | some k => (s.pgd.rules.get k {}).action cls
      | none => defaultAction cls
    let hits := match r with | some k => if d.hits.contains k then d.hits else k :: d.hits | none => d.hits
    if d.action < act then ⟨act, r, hits⟩ else { d with hits := hits }) ⟨0, none, []⟩

/-- The image regions and manifests (true) or golden copy and host window (false) that a program or erase touches (R387). -/
def State.touchesImages (s : State) (c : Nat) (rs : List Range) : Bool :=
  let p := s.plan c
  decide (p.blocks ≠ 0) && rs.any fun x => [0, 1].any fun r => Range.meets x (p.base r, p.span)

def State.touchesFixed (s : State) (c : Nat) (host : Range) (rs : List Range) : Bool :=
  let p := s.plan c
  decide (p.blocks ≠ 0) && (Range.meets host p.window || rs.any fun x => Range.meets x (p.base 2, p.span))

/-- The ranges lie inside the channel's window. -/
def State.inWindow (s : State) (c : Nat) (rs : List Range) : Bool :=
  match (s.chan c).window with
  | some w => rs.all fun x => Range.inside x (w.base, w.len)
  | none => false

/-- The sieve's rules are in force on a channel. -/
def State.sieveOn (s : State) (c : Nat) : Bool := s.pgd.sieveEn.testBit c

/-- The second command byte of 8D-8D-8D is the complement of the first (R385). -/
def State.codeOk (s : State) (c : Nat) (code : Half) : Bool :=
  decide ((s.chan c).mode ≠ 7 ∨ code.extractLsb' 8 8 = ~~~(code.extractLsb' 0 8))

/-- The decision on a command (R385 to R387). -/
def State.decideCommand (s : State) (c : Nat) (code : Half) (addr n : Nat) : Decision :=
  let e := s.opOf c (code.toNat % 256)
  let cls := opClass e
  let host := s.affected c e addr n
  let rs := s.flashRanges c host
  let writes := decide (cls = 1 ∨ cls = 2)
  if !s.codeOk c code then ⟨2, none, []⟩
  else if writes && s.touchesFixed c host rs then ⟨2, none, []⟩
  else if writes && s.touchesImages c rs then (if s.inWindow c rs then ⟨1, none, []⟩ else ⟨2, none, []⟩)
  else if !s.sieveOn c then ⟨0, none, []⟩
  else if opServe e = 2 then ⟨2, none, []⟩
  else if opAddr e = 0 then ⟨opNoAddr e, none, []⟩
  else s.decideRanges c cls rs

/-! Logging (R388). -/

/-- The SIEVE entry; the rule byte is free where no rule decided (log entry 38). -/
def State.logSieve (s : State) (c : Nat) (k : DenyKey) (count : Nat) : State :=
  let s := s.spend
  let rule := if k.rule < 256 then leBytes 1 k.rule else s.freeBytes 1
  s.log 0x5001 (leBytes 1 c ++ rule ++ leBytes 1 k.opcode ++ leBytes 1 k.cls ++ leBytes 1 k.action ++ leBytes 3 count)

/-- The first denial of a rule, class and opcode is logged; its repeats within 1 s are counted for the next entry. -/
def State.noteSieve (s : State) (c : Nat) (k : DenyKey) : State :=
  let s := s.tick
  match (s.chan c).recent.find? fun x => decide (x.1 = k) with
  | some (_, t, n) =>
    if s.rtc - t < 32768 then
      s.modChan c fun x => { x with
        recent := x.recent.map fun y => if y.1 = k then (k, t, satAdd 0xFFFFFF n 1) else y }
    else
      (s.modChan c fun x => { x with
        recent := x.recent.map fun y => if y.1 = k then (k, s.rtc, 0) else y }).logSieve c k n
  | none => (s.modChan c fun x => { x with recent := (k, s.rtc, 0) :: x.recent }).logSieve c k 0

/-- Count the rules that decided a command (R394 HITS). -/
def State.countHits (s : State) (ks : List Nat) : State :=
  ks.foldl (fun s k => s.modPgd fun g => { g with hits := g.hits.modify k 0 fun n => satAdd 0xFFFFFFFF n 1 }) s

/-- A command is decided: its log entry, its counters and the event of a denial; true where it is denied. -/
def State.sieve (s : State) (c : Nat) (code : Half) (addr n : Nat) : State × Bool :=
  let d := s.decideCommand c code addr n
  let op := code.toNat % 256
  let s := s.countHits d.hits
  if d.action = 0 then (s, false)
  else
    let s := s.noteSieve c ⟨d.rule.getD 256, op, opClass (s.opOf c op), d.action⟩
    if d.action = 1 then (s, false)
    else ((s.modChan c fun x => { x with deny := satAdd 0xFFFFFFFF x.deny 1 }).event .pgd 16, true)

/-! Commands. -/

/-- The target port serves the host: the channel is SERVING, or it has no image (R375, R380). -/
def State.chanServes (s : State) (c : Nat) : Bool :=
  decide (c < 2) && s.boot.tilth.isSome && (decide ((s.chan c).state = .serving) || decide ((s.plan c).blocks = 0))

/-- A command of a class reaches the channel: the entry has that class, or rejects the opcode. -/
def State.takesClass (s : State) (c : Nat) (code : Half) (cls : Nat) : Bool :=
  let e := s.opOf c (code.toNat % 256)
  s.chanServes c && (decide (opClass e = cls) || decide (opServe e = 2))

/-- Answer a host read. -/
def State.answerHost (s : State) (c : Nat) (data : List Byte) : State := s.emit (.hostFlash c data)

/-- 0xFF bytes. -/
def blank (n : Nat) : List Byte := List.replicate n 0xFF#8

/-- A read that is answered with 0xFF bytes and counted (R378). -/
def State.lateRead (s : State) (c n : Nat) : State :=
  (s.modChan c fun x => { x with late := satAdd 0xFFFF x.late 1 }).answerHost c (blank n)

/-- The image block of a flash address in the serving region. -/
def State.blockAt (s : State) (c a : Nat) : Option Nat :=
  match (s.chan c).serving with
  | some r =>
    let b := (s.plan c).base r
    if b ≤ a ∧ a < b + 4096 * (s.plan c).blocks then some ((a - b) / 4096) else none
  | none => none

/-- The entry of an image block. -/
def State.entryOf (s : State) (c block : Nat) : Option MeasEntry :=
  s.pgd.table.find? fun e => decide (e.channel = c ∧ e.block = block)

/-- Where each byte of a read comes from: its flash address with its block's entry. -/
def State.readBytes (s : State) (c addr n : Nat) : List (Nat × Option MeasEntry) :=
  (List.range n).map fun i =>
    let a := s.flashAddr c (addr + i)
    (a, (s.blockAt c a).bind (s.entryOf c))

/-- The offset of a flash address in its 4 KiB block. -/
def blockOff (a : Nat) : Nat := a % 4096

/-- The data of a read: mirrored bytes from the mirror, all others as the flash delivers them. -/
def State.readData (s : State) (src : List (Nat × Option MeasEntry)) (data : List Byte) : List Byte :=
  (src.zipIdx).map fun x =>
    match x.1.2 with
    | some e => match e.mirror with
      | some i => ((s.pgd.mirror.get i [])[blockOff x.1.1]?).getD 0
      | none => (data[x.2]?).getD 0
    | none => (data[x.2]?).getD 0

/-- The watched blocks of a read. -/
def watchedOf (src : List (Nat × Option MeasEntry)) : List Nat :=
  src.foldl (fun acc x => match x.2 with
    | some e => if e.mirror = none ∧ !acc.contains e.block then acc ++ [e.block] else acc
    | none => acc) []

/-- Bytes of a watched block that the host has received: a whole block is hashed as it streamed, and any other is pending
(R379). -/
def State.receive (s : State) (c k : Nat) (got : List (Nat × Byte)) : State :=
  if got.length = 4096 then s.modChan c fun x => { x with hashing := x.hashing ++ [(k, got.map Prod.snd)] }
  else
    (s.modChan c fun x => { x with
      buffers := x.buffers.insert k (got.foldl (fun m b => m.insert b.1 b.2) (x.buffers.get k [])) }).markEntry c k 0

/-- An overrun: 0xFF bytes, the count and the event, and at most one log entry each second (R379). -/
def State.overrunRead (s : State) (c n : Nat) : State :=
  let s := s.tick
  let s := (s.modChan c fun x => { x with overrun := satAdd 0xFFFF x.overrun 1 }).event .pgd 64
  let quiet := match (s.chan c).lastOverrun with | some t => decide (s.rtc - t < 32768) | none => false
  let s := if quiet then s else (s.modChan c fun x => { x with lastOverrun := some s.rtc }).logPlatform 5 c 0
  s.answerHost c (blank n)

/-- A read whose bytes are served (R378, R379). -/
def State.serveRead (s : State) (c : Nat) (src : List (Nat × Option MeasEntry)) (data : List Byte) (tagOk : Bool) : State :=
  let bytes := s.readData src data
  let mirrored := src.findSome? fun x => x.2.bind fun e => if e.mirror.isSome then some e.block else none
  let watched := watchedOf src
  let fresh := watched.filter fun k => ((s.chan c).buffers.find? k).isNone
  match mirrored, tagOk with
  | some k, false => (s.spend.answerHost c (s.freeBytes src.length)).flashTamper c k 3
  | _, _ =>
    if watched ≠ [] ∧ (s.chan c).busy then s.lateRead c src.length
    else if watched ≠ [] ∧ (64 ≤ (s.chan c).buffers.length ∨ 64 < (s.chan c).buffers.length + fresh.length) then s.overrunRead c src.length
    else
      let s := watched.foldl (fun s k =>
        s.receive c k ((src.zip bytes).filterMap fun x => match x.1.2 with
          | some e => if e.block = k then some (blockOff x.1.1, x.2) else none
          | none => none)) s
      s.answerHost c bytes

/-- HOST_FLASH_READ: `n` bytes from a host address; `data` is what the flash delivers for them, `slow` a host clock up to 6 MHz
and `tagOk` whether the mirror's tags check. -/
def execHostFlashRead (c : Nat) (code : Half) (addr n : Nat) (slow : Bool) (data : List Byte) (tagOk : Bool) (s : State) :
    Result :=
  .next (
    if !s.takesClass c code 0 then s
    else
      let e := s.opOf c (code.toNat % 256)
      match s.sieve c code addr n with
      | (s, true) => s.lateRead c n
      | (s, false) =>
        let src := s.readBytes c addr n
        let plain := src.all fun x => match x.2 with | some m => m.mirror.isSome | none => false
        if opServe e = 1 then s.spend.answerHost c (s.freeBytes n)
        else if !opDummy e && !(slow && plain) then s.lateRead c n
        else s.serveRead c src data tagOk)

/-- A program or erase: forwarded to the flash, which is then busy, or denied with its emulated status (R387, R388). -/
def State.hostWrite (s : State) (c : Nat) (code : Half) (addr : Nat) (data : List Byte) (n mark : Nat) : State :=
  let e := s.opOf c (code.toNat % 256)
  match s.sieve c code addr n with
  | (s, true) => s.modChan c fun x => { x with denied := x.denied ||| mark }
  | (s, false) =>
    if opServe e = 1 then s
    else
      let s := s.emit (.toFlash c (code.toNat % 256) (s.flashAddr c addr) data)
      if opAddr e ≠ 0 ∨ opUnit e ≠ 0 then s.modChan c fun x => { x with busy := true } else s

/-- HOST_FLASH_PROGRAM. -/
def execHostFlashProgram (c : Nat) (code : Half) (addr : Nat) (data : List Byte) (s : State) : Result :=
  .next (if s.takesClass c code 1 then s.hostWrite c code addr data data.length 1 else s)

/-- HOST_FLASH_ERASE. -/
def execHostFlashErase (c : Nat) (code : Half) (addr : Nat) (s : State) : Result :=
  .next (if s.takesClass c code 2 then s.hostWrite c code addr [] 1 2 else s)

/-- The status byte that the host sees after a denial: 0x05 with WEL cleared, 0x70 with the failure bits, until 0x50 (R388). -/
def emulatedStatus (op denied : Nat) (status : Byte) : Byte :=
  if denied = 0 then status
  else if op = 0x05 then status &&& 0xFD
  else if op = 0x70 then status ||| BitVec.ofNat 8 (denied * 16)
  else status

/-- HOST_FLASH_STATUS: `status` is what the flash answers. -/
def execHostFlashStatus (c : Nat) (code : Half) (status : Byte) (s : State) : Result :=
  .next (
    if !s.takesClass c code 3 then s
    else
      let op := code.toNat % 256
      match s.sieve c code 0 0 with
      | (s, true) => s.answerHost c (blank 1)
      | (s, false) =>
        let answer := emulatedStatus op (s.chan c).denied status
        let s := if opServe (s.opOf c op) = 1 then s else s.emit (.toFlash c op 0 [])
        let s := if op = 0x50 then s.modChan c fun x => { x with denied := 0 } else s
        s.answerHost c [answer])

/-- The bytes that the emulation answers to a configuration command that carries no data. -/
def State.configAnswer (s : State) (c op addr : Nat) : State :=
  if op = 0x9F then s.answerHost c (s.chan c).jedec
  else if op = 0x5A then s.answerHost c ((s.chan c).sfdp.drop addr)
  else match (s.chan c).settings.find? (2 ^ 32 * op + addr) with
    | some b => s.answerHost c [b]
    | none => s.spend.answerHost c (s.freeBytes 1)

/-- A configuration command that the sieve permits changes the emulated configuration only (R375). -/
def State.configure (s : State) (c op addr : Nat) (data : List Byte) : State :=
  if op = 0xB7 then s.modChan c fun x => { x with addr4 := true }
  else if op = 0xE9 then s.modChan c fun x => { x with addr4 := false }
  else if op = 0x66 ∨ op = 0x99 then s
  else if data = [] then s.configAnswer c op addr
  else s.modChan c fun x => { x with
    mode := (Config.configMode op addr data).getD x.mode % 8
    settings := (data.zipIdx addr).foldl (fun m d => m.insert (2 ^ 32 * op + d.2) d.1) x.settings }

/-- A write that sets fewer dummy cycles than HOST_DUMMY (R377). -/
def State.fewDummies (s : State) (c op addr : Nat) (data : List Byte) : Bool :=
  match Config.configDummy op addr data with
  | some d =>
    decide (data ≠ [] ∧ d < (s.plan c).hostDummy ((Config.configMode op addr data).getD (s.chan c).mode))
  | none => false

/-- HOST_FLASH_CONFIG. -/
def execHostFlashConfig (c : Nat) (code : Half) (addr : Nat) (data : List Byte) (s : State) : Result :=
  .next (
    if !s.takesClass c code 4 then s
    else
      let op := code.toNat % 256
      match s.sieve c code addr data.length with
      | (s, true) => s
      | (s, false) =>
        if s.fewDummies c op addr data then
          ((s.noteSieve c ⟨256, op, 4, 2⟩).modChan c fun x => { x with deny := satAdd 0xFFFFFFFF x.deny 1 }).event .pgd 16
        else s.configure c op addr data)

/-- HOST_FLASH_RESET: 0x66 and 0x99 return the emulation to 1-1-1 with 3-byte addressing, if the sieve permits both (R375). -/
def execHostFlashReset (c : Nat) (s : State) : Result :=
  .next (
    let code : Nat → Half := fun n => BitVec.ofNat 16 (n + (255 - n) * 256)
    if !s.takesClass c (code 0x66) 4 then s
    else
      match s.sieve c (code 0x66) 0 0 with
      | (s, true) => s
      | (s, false) => match s.sieve c (code 0x99) 0 0 with
        | (s, true) => s
        | (s, false) => s.modChan c fun x => { x with mode := 0, addr4 := false })

/-! Watched blocks (R379, R389). -/

/-- WATCHED_COMPLETION_READ: the missing bytes of a pending block come from flash, and its hash starts. -/
def execWatchedCompletionRead (c block : Nat) (data : List Byte) (s : State) : Result :=
  .next (
    match (s.chan c).buffers.find? block with
    | none => s
    | some got =>
      if (s.chan c).busy then s
      else
        let bytes := (List.range 4096).map fun i => got.get i ((data[i]?).getD 0)
        s.modChan c fun x => { x with buffers := x.buffers.erase block, hashing := x.hashing ++ [(block, bytes)] })

/-- WATCHED_BLOCK_HASH_DONE: the hash is compared with the block's entry. -/
def execWatchedBlockHashDone (c block : Nat) (s : State) : Result :=
  .next (
    match (s.chan c).hashing.find? fun x => decide (x.1 = block), s.entryOf c block with
    | some (_, bytes), some e =>
      let s := s.modChan c fun x => { x with hashing := x.hashing.erase (block, bytes) }
      if sha3_256 bytes = e.digest then s.markEntry c block 1 else s.flashTamper c block 2
    | _, _ => s)

/-! SIEVE_SET (R385, R391). -/

/-- An opcode entry without a reserved value. -/
def opEntryOk (e : W32) : Bool :=
  decide (e.toNat < 2 ^ 13 ∧ opClass e ≤ 4 ∧ opAddr e ≤ 2 ∧ opUnit e ≤ 4 ∧ opServe e ≤ 2 ∧ opNoAddr e ≤ 2)

/-- SIEVE_SET. -/
def State.sieveSet (s : State) (e : SieveEntry) : State × Answer :=
  match e with
  | .opcode c code entry =>
    if 1 < c ∨ 255 < code ∨ !opEntryOk entry then (s, .no Status.inputInvalid)
    else (s.modPgd fun g => { g with ops := g.ops.insert (256 * c + code) entry }, .ok)
  | .rule r base len ctl =>
    if 255 < r ∨ !(Config.ruleFields ctl.toNat).2.2 ∨ (Config.ruleFields ctl.toNat).2.1.contains 3 then (s, .no Status.inputInvalid)
    else (s.modPgd fun g => { g with rules := g.rules.insert r ⟨base.toNat, len.toNat, ctl.toNat⟩ }, .ok)

end Sys2Proof.Machine
end

