-- ==== Sys2Proof/Machine/Power.lean ====
section
/-!
DEFINITION. Supplies and clocks (R326 to R335), reset sources and their meetings (R336 to R341, R346), quadrant PLLs (R115,
R331), the fallow service (R369), direct life-cycle requests (R400, R403) and the TAP (R399).
-/
namespace Sys2Proof.Machine

/-! Settle holds (R333, R334). -/

/-- A quadrant's clock serves its units. -/
def State.clocked (s : State) (q : Nat) : Bool := !(s.quad q).unlocked && !(s.quad q).failed

/-- SETTLE_HOLD_START: VDD_T (0) or VDD_TM (1) falls below its warning level. -/
def execSettleHoldStart (supply : Nat) (s : State) : Result :=
  .next (
    if 1 < supply then s
    else
      let s := s.modPower fun p => { p with warn := p.warn ||| 2 ^ supply }
      if !s.power.topsoilUp then s
      else
        let first := !s.power.holdActive
        let s := s.modPower fun p => { p with holdBy := p.holdBy ||| 2 ^ supply, holdActive := true }
        if !first then s
        else
          let s := (s.holdWork (fun _ => true) fun _ => true).pauseDigests true
          let s := s.modPower fun p => { p with settleCount := satAdd 0xFFFF p.settleCount 1 }
          (s.event .rst 32).logHealth 1 (2 ^ supply))

/-- SETTLE_HOLD_RELEASE: a supply is above its release level; with the last one held work goes on, except where a quadrant has no
clock. -/
def execSettleHoldRelease (supply : Nat) (s : State) : Result :=
  .next (
    if 1 < supply then s
    else
      let s := s.modPower fun p =>
        { p with
          warn := if p.warn.testBit supply then p.warn - 2 ^ supply else p.warn
          holdBy := if p.holdBy.testBit supply then p.holdBy - 2 ^ supply else p.holdBy }
      if !s.power.holdActive ∨ s.power.holdBy ≠ 0 then s
      else
        let s := s.modPower fun p => { p with holdActive := false }
        (s.releaseWork (fun g => s.clocked (g / 256)) fun n => s.clocked (n / 16)).pauseDigests false)

/-- A topsoil brown-out of the supplies in a mask (R337, R341). -/
def State.topsoilBrownOut (s : State) (mask : Nat) : State :=
  if s.resetRunning then
    (s.escalated 0 1).modPower fun p => { p with localCause := p.localCause ||| mask * 2 ^ 16 }
  else
    let s := s.clearTopsoil true
    (s.modPower fun p => { p with localCause := p.localCause % 2 ^ 16 + mask * 2 ^ 16 }).event .rst 1

/-- SETTLE_HOLD_TIMEOUT: tHOLD has passed. -/
def execSettleHoldTimeout (s : State) : Result :=
  .next (if s.power.holdActive then s.topsoilBrownOut s.power.holdBy else s)

/-- TOPSOIL_BROWN_OUT: a topsoil supply falls below its reset level. Before the topsoil is released only its release waits
(R339). -/
def execTopsoilBrownOut (supply : Nat) (s : State) : Result :=
  .next (
    if 3 < supply then s
    else
      let up := s.power.topsoilUp
      let s := s.modPower fun p => { p with valid := if p.valid.testBit supply then p.valid - 2 ^ supply else p.valid }
      if up then s.topsoilBrownOut (2 ^ supply) else s)

/-- The causes of a full reset from outside: BRINGUP joins one that comes before START_OK (R341). -/
def State.causes (s : State) (cause : Nat) : Nat := if s.resetRunning then cause ||| causeBringup else cause

/-- SUBSOIL_BROWN_OUT: a subsoil-group supply, 4 VDD_S to 8 VDDIO_G, falls below its reset level; power-on reset follows when the
group is valid again. A further supply that falls before then adds its cause (R339). -/
def execSubsoilBrownOut (supply : Nat) (s : State) : Result :=
  .next (
    if supply < 4 ∨ 8 < supply ∨ (s.power.phase = .unpowered ∧ !s.power.valid.testBit supply) then s
    else
      let s := if s.power.phase = .unpowered then s.modPower fun p => { p with cause := p.cause ||| 2 ^ (supply + 4) }
        else s.fullReset (s.causes (2 ^ (supply + 4))) .unpowered false
      s.modPower fun p => { p with valid := if p.valid.testBit supply then p.valid - 2 ^ supply else p.valid, warn := 0 })

/-- VDD_SM_WARNING: no MRAM write starts (R335). -/
def execVddSmWarning (s : State) : Result := .next (s.modPower fun p => { p with warn := p.warn ||| 32 })

/-- VDD_SM_RELEASE: writes that were due proceed, the lock flag among them (R335, R418). -/
def execVddSmRelease (s : State) : Result :=
  .next (
    let s := s.modPower fun p => { p with warn := if p.warn.testBit 5 then p.warn - 32 else p.warn }
    let s := if s.power.phase = .lockService ∧ s.tamper.locked then s.modTamper fun t => { t with flag := true } else s
    if s.logOpen then s.logFlush else s)

/-- VDD_S_WARNING: VDD_S crosses its warning level; a fall is logged, under an entry the spec does not name (R333, R335). -/
def execVddSWarning (low : Bool) (s : State) : Result :=
  .next (
    let s := s.modPower fun p =>
      { p with warn := if low then p.warn ||| 16 else if p.warn.testBit 4 then p.warn - 16 else p.warn }
    if low then s.logFree else s)

/-! Power-on and SYS_RESET_N. -/

/-- POWER_ON_RESET: the subsoil group is valid and the reference clock runs; `valid` is the live mask of BOOT_SUPPLY. Where VBAT
was absent too, the always-on domain starts afresh and only POR stands in the causes (R327, R336, R337, R347). -/
def execPowerOnReset (valid : Nat) (vbatLost refclk0 : Bool) (s : State) : Result :=
  .next (
    if s.power.phase ≠ .unpowered ∨ bits valid 8 4 ≠ 31 then s
    else
      let s := if vbatLost then
          let s := { s.clearRoot with rtc := 0 }
          s.modTamper fun t => { t with latch := false, batt := {}, out := false, outFor := 0, outLock := false }
        else s
      s.modPower fun p =>
        { p with
          phase := .porHeld, valid := valid % 512, warn := 0, refclk0 := refclk0, glitches := 0
          rtcLost := p.rtcLost || vbatLost
          cause := if vbatLost then causePor else if p.cause &&& 0x1F00 ≠ 0 then p.cause ||| causePor else causePor })

/-- Latch the straps: `straps` is BOOT_SEL in bits 1:0, CLK_MODE in bits 3:2 and UNC_BRIDGE in bit 4 (R330, R344, R347). -/
def State.latchStraps (s : State) (straps : Nat) (forceGolden : Bool) : State :=
  let sel := bits straps 1 0
  let clk := bits straps 3 2
  let st := s.life.decide_.state
  let clkEff := if clk = 3 ∧ st ≠ .testUnlocked ∧ st ≠ .testLocked then 0 else clk
  s.modPower fun p =>
    { p with
      strapRaw := straps % 32
      strapEff := sel + (if sel = 3 then 0 else sel) * 4 + clk * 16 + clkEff * 64 + bits straps 4 4 * 2 ^ 8 +
        ofBool forceGolden * 2 ^ 9 + ofBool p.supplyH33 * 2 ^ 10 }

/-- POR_RELEASE: tPOR has passed; the VDDIO_H range and the straps are latched, and the TAP's FACTORY instruction is noted
(R327, R338, R344, R400). -/
def execPorRelease (straps : Nat) (forceGolden h33 factory : Bool) (s : State) : Result :=
  .next (
    if s.power.phase ≠ .porHeld then s
    else
      let s := (s.modPower fun p => { p with supplyH33 := h33, phase := .pllLocking }).latchStraps straps forceGolden
      s.modLife fun l => { l with tapFactory := factory })

/-- SYS_RESET_ASSERT: the pin goes low; what its pulse is worth shows at its end (R340). -/
def execSysResetAssert (s : State) : Result := .next (s.modPower fun p => { p with pinLow := true })

/-- SYS_RESET_RELEASE: the pin rises after `nanos` ns; between tRSTIGN and tRSTW, `taken` says whether a reset came of it
(R340, R344). -/
def execSysResetRelease (nanos straps : Nat) (forceGolden taken : Bool) (s : State) : Result :=
  .next (
    if !s.power.pinLow then s
    else
      let s := s.modPower fun p => { p with pinLow := false }
      if s.power.phase = .unpowered ∨ s.power.phase = .porHeld then s
      else if 10000 ≤ nanos ∨ (1000 ≤ nanos ∧ taken) then
        (s.fullReset (s.causes causeSysReset) .pllLocking false).latchStraps straps forceGolden
      else (s.modPower fun p => { p with glitches := satAdd 0xFFFF p.glitches 1 }).event .rst 16)

/-- SUBSOIL_PLL_LOCK: the loam cores leave reset, and the noise sources calibrate (R282, R338). -/
def execSubsoilPllLock (s : State) : Result :=
  .next (
    if s.power.phase ≠ .pllLocking ∨ s.power.pinLow then s
    else (s.modPower fun p => { p with phase := .booting }).modRng Rng.restart)

/-! Bring-up, watchdogs and machine checks. -/

/-- The loam cores have been released and START_OK is due. -/
def State.bringingUp (s : State) : Bool :=
  decide (s.power.phase ∈ [Phase.booting, .renewing, .chosen, .sealing, .gateOpen]) && !s.glb.startOk

/-- BRINGUP_TIMEOUT: tBRINGUP has passed without START_OK (R336, R346). -/
def execBringupTimeout (s : State) : Result := .next (if s.bringingUp then s.innerReset causeBringup else s)

/-- The manager's sessions end (R337). -/
def State.endManagerSessions (s : State) : State :=
  { s with spdm := { s.spdm with sessions := s.spdm.sessions.filter fun (_, x) => !x.manager } }

/-- LOAM_WATCHDOG_TIMEOUT: core `k` restarts, or the start fails; in a lock it is ignored (R337, R339, R341, R370, R440). -/
def execLoamWatchdogTimeout (k : Nat) (s : State) : Result :=
  .next (
    if 3 < k ∨ s.power.phase = .lockService ∨ s.power.phase ∈ [Phase.unpowered, .porHeld, .pinHeld, .pllLocking] then s
    else if s.resetRunning then (s.escalated 0 4).modPower fun p => { p with localCause := p.localCause ||| 2 ^ (8 + k) }
    else
      let s := (s.modPower fun p => { p with localCause := p.localCause ||| 2 ^ (8 + k) }).event .rst 4
      if k ≠ 0 then s
      else
        let s := s.endManagerSessions
        { s with hzn := { s.hzn with issued := [] }, boot := { s.boot with install := none } })

/-- LOAM_MACHINE_CHECK: a lockstep mismatch in any pair (R336). -/
def execLoamMachineCheck (s : State) : Result :=
  .next (
    if s.power.phase ∈ [Phase.unpowered, .porHeld, .pinHeld, .pllLocking] then s
    else s.innerReset (s.causes causeLoamMchk))

/-! Quadrant PLLs (R115, R331). -/

/-- The grains and the engines of a quadrant. -/
def quadGrains (q g : Nat) : Bool := decide (g / 256 = q)
def quadEngine (q n : Nat) : Bool := decide (n / 16 = q)

/-- QUADRANT_PLL_LOCK: waking beds proceed, and work that stopped for the clock goes on. -/
def execQuadrantPllLock (q : Nat) (s : State) : Result :=
  .next (
    let x := s.quad q
    if 4 ≤ q ∨ !x.pllRun ∨ x.failed ∨ x.pllLocked then s
    else
      let s := s.modQuad q fun y => { y with pllLocked := true, unlocked := false }
      if x.unlocked ∧ !s.power.holdActive then s.releaseWork (quadGrains q) (quadEngine q) else s)

/-- The quadrant stays stopped, its units are absent, and the clock source is raised (R331, R469). -/
def State.failQuadrant (s : State) (q : Nat) : State :=
  let s := s.modQuad q fun y => { y with failed := true, pllRun := false, pllLocked := false, unlocked := false }
  let s := s.glbEvent evCapacity
  let hit := s.tenantList.filter fun t => decide (bits (s.tenant t).tpt.grains (256 * q + 255) (256 * q) ≠ 0)
  (hit.foldl (fun s t => s.vfEventOf t vfCapacity) s).raise [14]

/-- QUADRANT_PLL_UNLOCK: the quadrant's units stop as under a settle hold; a second loss within 1 s stops it for good. -/
def execQuadrantPllUnlock (q : Nat) (s : State) : Result :=
  .next (
    let x := s.quad q
    if 4 ≤ q ∨ !x.pllRun ∨ x.failed ∨ x.unlocked then s
    else
      let s := s.tick
      let again := match x.lastUnlock with | some t => decide ((s.rtc + 2 ^ 48 - t) % 2 ^ 48 ≤ 32768) | none => false
      let s := (s.modQuad q fun y => { y with unlocked := true, pllLocked := false, lastUnlock := some s.rtc }).event .rst 64
      let s := (s.logHealth 3 q).holdWork (quadGrains q) (quadEngine q)
      if again then s.failQuadrant q else s)

/-- PLL_RELOCK_TIMEOUT: 100 µs have passed without a new lock. -/
def execPllRelockTimeout (q : Nat) (s : State) : Result :=
  .next (if (s.quad q).unlocked then s.failQuadrant q else s)

/-! The services of the immutable boot code. -/

/-- The code of a control page's state (R355). -/
def pageCode : PageState → Nat
  | .empty => 0 | .writing => 1 | .sealedPage => 2 | .bad => 3

/-- BOOT_SLOT_A, _B or _G (R371). -/
def State.bootSlot (s : State) (i : Nat) : Nat :=
  let p := (s.region i).page
  pageCode p.state * 2 ^ 30 + p.signer * 2 ^ 27 + p.svn * 2 ^ 20 + (p.sealedLen + 4095) / 4096

/-- BOOT_FSTART (R347). -/
def State.bootFstart (s : State) : Nat := s.boot.fallowWhy * 2 ^ 16 + s.boot.limitN * 2 ^ 8 + s.boot.failCount

/-- BOOT_KEYS (R371). -/
def State.bootKeys (s : State) : Nat :=
  s.boot.revoked % 256 * 2 ^ 8 + maskOf ((List.range 8).filter fun k => (s.boot.keys.find? k).isSome)

/-- FALLOW_STATUS (R369); a scrapped device answers a status request over I3C with the UID and the state only (R400). -/
def execFallowStatus (v : Via) (s : State) : Result :=
  .next (
    if s.power.phase = .scrapped ∧ v.transport = .i3c then
      s.send v (.service v Status.ok (Config.serviceReport [s.uid, lcIndex s.life.state]))
    else
    if s.power.phase = .fallow then
      s.send v (.service v Status.ok (Config.serviceReport
        [s.uid, lcIndex s.life.state, s.bootFstart, s.bootSlot 0, s.bootSlot 1, s.bootSlot 2, s.bootKeys]))
    else s)

/-- FALLOW_EXIT: PRIMARY becomes a SEALED slot A or B, the count 0, and a software full reset follows (R369). -/
def execFallowExit (v : Via) (slot : Nat) (s : State) : Result :=
  .next (
    if s.power.phase ≠ .fallow then s
    else if 1 < slot ∨ (s.region slot).page.state ≠ .sealedPage then s.send v (.service v Status.inputInvalid [])
    else
      let s := s.modBoot fun b => { b with primary := slot, failCount := 0 }
      (s.send v (.service v Status.ok [])).innerReset causeSoftware)

/-- The services that take a life-cycle request, and the targets they take (R400, R403). -/
def State.takesDirect (s : State) (r : List Byte) : Bool :=
  match s.power.phase with
  | .factory | .fallow => true
  | .lockService => decide (lcTarget r = some .returned ∨ lcTarget r = some .scrapped)
  | _ => false

/-- LC_DIRECT_REQUEST: a service checks a request and carries it out; the device is reset and starts in the new state (R297,
R336, R403). -/
def execLcDirectRequest (v : Via) (request : List Byte) (cut : Option Bool) (s : State) : Result :=
  .next (
    if s.power.phase ∉ [Phase.factory, .fallow, .lockService] then s
    else
      let verdict := if s.takesDirect request then s.lcVerdict request else Status.inputInvalid
      if verdict ≠ Status.ok then s.send v (.service v verdict [])
      else
        let s := (s.modLife fun l => { l with request := some request }).send v (.service v Status.ok [])
        let s := s.transition request cut
        if s.power.phase = .unpowered then s
        else
          let s := s.innerReset causeLcTrans
          s.event .lcs 1)

/-- TAP_INSTRUCTION: a mandatory instruction takes effect where boundary scan is permitted and a factory instruction where the
factory service is; in every other state the TAP holds BYPASS (R399). -/
def execTapInstruction (factory : Bool) (instruction : Nat) (s : State) : Result :=
  .next (s.modLife fun l => { l with
    tapInstruction := if l.latch.testBit (if factory then 3 else 1) then some instruction else none })

end Sys2Proof.Machine
end

