-- ==== Sys2Proof/Machine/Horizon.lean ====
section
/-!
DEFINITION. The requests on the horizon log and on wall time (R439 to R443).
-/
namespace Sys2Proof.Machine

/-- An entry is in the ring. -/
def Horizon.inRing (h : Horizon) (seq : Nat) : Bool := (h.entries.find? seq).isSome

/-- HZN_FLOOR: all ones while no floor has been set (R445). -/
def Horizon.floorValue (h : Horizon) : Nat := h.floor.getD (2 ^ 64 - 1)

/-- An SEQ below the floor; none is while no floor has been set. -/
def Horizon.belowFloor (h : Horizon) (seq : Nat) : Bool :=
  match h.floor with | some f => decide (seq < f) | none => false

/-- The 80 bytes of a checkpoint (R441). -/
def State.checkpointBody (s : State) (seq : Nat) (e : LogEntry) : List Byte :=
  ascii "IXCP" ++ leBytes 2 1 ++ leBytes 2 0 ++ leBytes 8 seq ++ padTo 32 e.chain ++ leBytes 6 e.time ++ leBytes 2 0 ++
  leBytes 8 s.hzn.floorValue ++ leBytes 16 s.uid

/-- The Alias signatures: ML-DSA-87, then P-384 r and s; both are free (log entry 26). -/
def aliasSignatureLen : Nat := 4627 + 96

/-- CHECKPOINT (R440, R441). -/
def State.checkpoint (s : State) (seq : Nat) : State × Answer :=
  match s.hzn.entries.find? seq with
  | none => (s, .no Status.inputInvalid)
  | some e =>
    if s.hzn.belowFloor seq then (s, .no Status.inputInvalid)
    else if !s.vault.aliasKey then (s, .no Status.keyAbsent)
    else
      let cp := s.checkpointBody seq e ++ s.freeBytes aliasSignatureLen
      let s := s.spend.modHzn fun h => { h with issued := ((seq, sha3_256 cp) :: h.issued).take 4 }
      (s, .now Status.ok cp)

/-- LOG_FULL clears below 16,128 (R442). -/
def State.logRoom (s : State) : State :=
  if s.hzn.unacked < 16128 then { s with glb := { s.glb with logFull := false } } else s

/-- CHECKPOINT_ACK: the floor moves, and space may return (R440, R442). -/
def State.checkpointAck (s : State) (seq : Nat) (digest : List Byte) : State × Answer :=
  if !s.hzn.issued.contains (seq, digest) ∨ s.hzn.belowFloor seq then
    (s, .no Status.inputInvalid)
  else
    let s := (s.modHzn fun h => { h with floor := some seq }).logRoom
    ((s.logLost.log 0x7003 (leBytes 8 seq)), .ok)

/-- The 64 bytes of an entry (R435). -/
def LogEntry.bytes (e : LogEntry) (seq : Nat) : List Byte := entryBytes seq e.time e.type e.data ++ padTo 32 e.chain

/-- LOG_READ (R440). -/
def State.logRead (s : State) (seq count : Nat) : State × Answer :=
  let want := (List.range count).map fun i => seq + i
  if count = 0 ∨ 64 < count ∨ !want.all s.hzn.inRing then (s, .no Status.inputInvalid)
  else (s, .now Status.ok (want.flatMap fun n => match s.hzn.entries.find? n with | some e => e.bytes n | none => []))

/-- A slot's line in a usage report (R443). -/
def State.usageLine (s : State) (k : Nat) : List Nat :=
  let x := s.slot k
  [k, x.owner, attrClass x.attr, x.budget, (match s.vault.shelf.find? k with | some r => r.floor | none => 0), x.uses,
   x.createSeq]

/-- KEY_USAGE: a signed report, whose digest is logged as event 5; where the entry holds it the spec does not say, so those
bytes are free (log entry 28). -/
def State.keyUsage (s : State) (first count : Nat) : State × Answer :=
  if count = 0 ∨ 256 < count ∨ 4096 < first + count then (s, .no Status.inputInvalid)
  else if !s.vault.aliasKey then (s, .no Status.keyAbsent)
  else
    let body := ascii "IXKU" ++ Config.usageReport ((List.range count).map fun i => s.usageLine (first + i))
    let report := body ++ s.freeBytes aliasSignatureLen
    let s := s.spend
    (s.spend.log 0x2003 (leBytes 2 5 ++ s.freeBytes 14), .now Status.ok report)

/-- A new wall-time offset is logged (R439). -/
def State.setOffset (s : State) (offset : W64) : State :=
  (s.modHzn fun h => { h with offset := offset }).log 0x7002 (leBytes 8 offset.toNat)

end Sys2Proof.Machine
end

