-- ==== Sys2Proof/Machine/Uncel.lean ====
section
/-!
DEFINITION. The Uncel chain: frames on their ways (R448, R449), enumeration (R451), link loss (R452), the agreement of a domain
secret (R453, R454), authenticated operations (R455 to R458, R460) and their timers.
-/
namespace Sys2Proof.Config

/-- What a member sends to join: a fresh encapsulation key, chain, owner hash and signatures, and the decapsulation key it keeps
(R454; log entry 40). -/
opaque joinRequest : Nat → List Byte × List Byte
/-- A leader's answer to a member's encapsulation key: ciphertext, wrapped secret and signatures, for a use (R454; log entry
40). -/
opaque joinAnswer : Nat → List Byte → List Byte → List Byte
/-- The secret that a decapsulation key recovers from a leader's answer, if it authenticates (R454; log entry 40). -/
opaque joinSecret : List Byte → List Byte → Option (List Byte)

end Sys2Proof.Config

namespace Sys2Proof.Machine

/-! UNC_EVT bits (R463). -/

def uncAddressed : Nat := 1
def uncLinkLost : Nat := 2
def uncChildRefused : Nat := 4
def uncAuthReject : Nat := 8
def uncDomainKey : Nat := 16
def uncTimeStep : Nat := 32
def uncCeremonyDone : Nat := 64
def uncRemoteTamper : Nat := 128

/-- The device is a bridge (R344, R446). -/
def State.bridge (s : State) : Bool := s.power.strapEff.testBit 8

/-- The receiver of a pair is listened to: B only on a bridge; behind the closed output gate receivers are ignored (R345, R362). -/
def State.hears (s : State) (b : Bool) : Bool := s.uncelOn b

/-- An address lies in the child subtree. -/
def State.inChild (s : State) (addr : Nat) : Bool :=
  s.uncel.childOk && decide (s.uncel.childSeg ≤ addr / 64 ∧ addr / 64 < s.uncel.childEnd)

/-- The address bits of DST or SRC. -/
def addrBits (x : Nat) : Nat := x % 2048

/-- One more forwarding device. -/
def Frame.hop (f : Frame) : Frame := { f with hops := f.hops + 1 }

/-- The frame was put on this ring by this device, its originator or a bridge that injected it (R449). -/
def State.returned (s : State) (b : Bool) (f : Frame) : Bool :=
  if b then !s.inChild (addrBits f.src)
  else match s.uncel.addr with
    | some a => decide (addrBits f.src = a) || s.inChild (addrBits f.src)
    | none => false

/-- The frame is a unicast to this device: from a child ring MASTER names it too (R447, R449). -/
def State.addressed (s : State) (b : Bool) (f : Frame) : Bool :=
  match s.uncel.addr with
  | none => false
  | some a =>
    decide (f.dst / 2048 = 0 ∧ addrBits f.dst = a) ||
    (b && decide (f.dst / 2048 = 4) && s.inChild (addrBits f.dst))

/-- The device removes the frame. -/
def State.removes (s : State) (b : Bool) (f : Frame) : Bool := s.returned b f || s.addressed b f || decide (64 ≤ f.hops)

/-- A bridge injects the frame onto its other ring. -/
def State.injects (s : State) (b : Bool) (f : Frame) : Bool :=
  s.bridge && s.uncel.addr.isSome && s.uncel.childOk && !s.returned b f &&
  (f.dst.testBit 15 ||
    if b then (!s.inChild (addrBits f.dst)) && !f.dst.testBit 14
    else s.inChild (addrBits f.dst) && decide (f.dst / 2048 = 0))

/-- The way of a frame that arrives whole: onward on its ring, and onto the other one (R449). A device that lost its A link sends
only keepalives (R452). -/
def State.forward (s : State) (b : Bool) (f : Frame) : State :=
  let s := if s.injects b f then s.transmit (!b) { f with hops := 0 } else s
  if s.removes b f ∨ (!b ∧ s.uncel.silent) then s else s.transmit b f.hop

/-- A frame arrives on a pair: a bad CRC is counted and the forwarded copy aborted; a good frame goes its way, and `act` is what
the device does with one that is for it (R449). `fits` is the TYPE and LEN of the row. -/
def State.arrive (s : State) (b : Bool) (bytes : List Byte) (fits : Frame → Bool) (act : Frame → State → State) : State :=
  if !s.hears b then s
  else match parseFrame bytes with
    | none =>
      let s := s.modUncel fun u => { u with crcFails := satAdd 0xFFFF u.crcFails 1 }
      if !b ∧ s.uncel.silent then s else s.emit (.uncelAbort b bytes)
    | some f =>
      if !fits f then s
      else
        let mine := s.addressed b f || (decide (f.dst / 2 ^ 14 % 4 ≠ 0) && !s.returned b f && !(b && f.dst.testBit 14))
        let s := s.forward b f
        if mine && s.uncel.addr.isSome then act f s else s

/-- TYPE and LEN of a row of R448. -/
def isType (type lo hi : Nat) (f : Frame) : Bool := decide (f.type = type ∧ lo ≤ f.payload.length ∧ f.payload.length ≤ hi)

/-! Keepalives and links. -/

/-- KEEPALIVE: a frame of one link, never forwarded; it shows that the link lives. -/
def execKeepalive (b : Bool) (bytes : List Byte) (s : State) : Result :=
  .next (
    if s.hears b ∧ parseFrame bytes = none then s.modUncel fun u => { u with crcFails := satAdd 0xFFFF u.crcFails 1 } else s)

/-- KEEPALIVE_TIMER: a transmitter idle for tKA sends one; the spec gives it no DST, which is free (log entry 41). -/
def execKeepaliveTimer (b : Bool) (s : State) : Result :=
  .next (s.spend.transmit b ⟨s.freeBits 16 0, s.ownAddr, 0, 0, 0, []⟩)

/-- Send an ENUMERATE token on B, as the child segment's master. -/
def State.sendChildToken (s : State) (c base : Nat) : State :=
  s.transmit true ⟨dstSegment, 0x7FF, 1, 0, 0, leBytes 1 c ++ leBytes 1 0 ++ leBytes 1 (c + 1) ++ leBytes 1 0 ++ leBytes 4 base⟩

/-- The payload of a token. -/
def Token.bytes (t : Token) : List Byte :=
  leBytes 1 t.seg ++ leBytes 1 t.nextPos ++ leBytes 1 t.nextSeg ++
  leBytes 1 (ofBool t.overflow + 2 * ofBool t.segExhausted + 4 * ofBool t.budget) ++ leBytes 4 t.base

/-- Read a token. -/
def readToken (f : Frame) : Token :=
  let flags := field f.payload 3 1
  { seg := field f.payload 0 1, nextPos := field f.payload 1 1, nextSeg := field f.payload 2 1, overflow := flags.testBit 0
    segExhausted := flags.testBit 1, budget := flags.testBit 2, base := field f.payload 4 4
    hops := f.hops, src := f.src, tag := f.tag }

/-- Forward a token on the device's own ring. -/
def State.passToken (s : State) (t : Token) : State :=
  if 64 ≤ t.hops then s else s.transmit false ⟨dstSegment, t.src, 1, t.hops + 1, t.tag, t.bytes⟩

/-- Time of one segment up to `n` devices, in ns (R451). -/
def segmentTime (n : Nat) : Nat := 10880 + 150 * n

/-- A bridge that has taken its address tests its child with the token (R451 step 2). -/
def State.testChild (s : State) (t : Token) : State :=
  if !s.bridge ∨ s.uncel.addr = none then s.passToken t
  else if 31 < t.nextSeg then
    let s := (s.modUncel fun u => { u with childOk := false }).event .unc uncChildRefused
    s.passToken { t with segExhausted := true }
  else if !s.uncel.linkB then (s.modUncel fun u => { u with childOk := false }).passToken t
  else (s.modUncel fun u => { u with token := some t, childOk := false, childSeg := t.nextSeg }).sendChildToken t.nextSeg s.uncel.lat

/-- A token on A: the device takes its address (R451 step 1). 0x7FF is never assigned (R447). -/
def State.takeAddress (s : State) (t : Token) : State :=
  let addr := 64 * t.seg + t.nextPos
  if 64 ≤ t.nextPos ∨ 2047 ≤ addr then
    (s.modUncel fun u => { u with addr := none, silent := false }).testChild { t with overflow := true }
  else
    let s := (s.modUncel fun u =>
      { u with addr := some addr, silent := false, lat := t.base + segmentTime (t.nextPos + 1) }).event .unc uncAddressed
    s.testChild { t with nextPos := t.nextPos + 1 }

/-- The child's token is back on B with `n` devices: the subtree is recorded, or given back when it lies beyond the budget. -/
def State.childToken (s : State) (t : Token) : State :=
  let held := s.uncel.token
  let late := decide (50000 < t.base + segmentTime t.nextPos)
  let flags := t.overflow || t.segExhausted || t.budget || late
  let s := if late then s.transmit true ⟨dstSegment, 0x7FF, 2, 0, 0, []⟩ else s
  let s := s.modUncel fun u => { u with
    token := none, childOk := !late, childSeg := t.seg, childEnd := if late then t.seg else t.nextSeg }
  let s := if flags then s.event .unc uncChildRefused else s
  match held with
  | none => s
  | some h => s.passToken { h with
      nextSeg := if late then h.nextSeg else t.nextSeg, overflow := h.overflow || t.overflow
      segExhausted := h.segExhausted || t.segExhausted, budget := h.budget || t.budget || late }

/-- ENUMERATE (R451). -/
def execEnumerate (b : Bool) (bytes : List Byte) (s : State) : Result :=
  .next (
    if !s.hears b then s
    else match parseFrame bytes with
      | none =>
        let s := s.modUncel fun u => { u with crcFails := satAdd 0xFFFF u.crcFails 1 }
        if !b ∧ s.uncel.silent then s else s.emit (.uncelAbort b bytes)
      | some f =>
        if !isType 1 8 8 f then s
        else if b then (if (readToken f).seg = s.uncel.childSeg then s.childToken (readToken f) else s)
        else s.takeAddress (readToken f))

/-- DISOWN: the device drops its address (R448). -/
def execDisown (b : Bool) (bytes : List Byte) (s : State) : Result :=
  .next (s.arrive b bytes (isType 2 0 0) fun _ s =>
    s.modUncel fun u => { u with addr := none, childOk := false, join := none })

/-- A bridge enumerates the child segment it has been given again, when its link is up. -/
def State.enumerateChild (s : State) : State :=
  if !s.bridge ∨ s.uncel.addr = none ∨ !s.uncel.linkB ∨ s.uncel.childSeg = 0 then s
  else (s.modUncel fun u => { u with childOk := false }).sendChildToken s.uncel.childSeg s.uncel.lat

/-- UNCEL_RECEIVER_LINK_UP (R451). -/
def execUncelReceiverLinkUp (b : Bool) (s : State) : Result :=
  .next (
    if !s.hears b then s
    else if b then (s.modUncel fun u => { u with linkB := true }).enumerateChild
    else s.modUncel fun u => { u with linkA := true })

/-- LINK_LOSS_TIMEOUT: no valid frame for tLOSS (R452, R461). -/
def execLinkLossTimeout (b : Bool) (s : State) : Result :=
  .next (
    if b then
      if !s.uncel.linkB then s else (s.modUncel fun u => { u with linkB := false, join := none }).logHealth 4 2
    else if !s.uncel.linkA then s
    else
      let s := s.modUncel fun u => { u with linkA := false, addr := none, silent := true, join := none }
      (s.event .unc uncLinkLost).logHealth 4 1)

/-- UNCEL_MCTP_FRAME: a packet goes its way; one for this device reaches its endpoint, and the message it completes is a command
of its own (R427, R448). -/
def execUncelMctpFrame (b : Bool) (bytes : List Byte) (s : State) : Result :=
  .next (s.arrive b bytes (isType 0x10 1 256) fun _ s => s)

/-- A TYPE without a row, or a LEN outside it (R448). -/
def otherFrame (f : Frame) : Bool :=
  !(isType 0 0 0 f || isType 1 8 8 f || isType 2 0 0 f || isType 0x10 1 256 f || isType 0x20 32 32 f || isType 0x21 34 34 f ||
    isType 0x30 6 6 f || isType 0x40 32 32 f || isType 0x50 36 36 f)

/-- UNCEL_OTHER_FRAME: forwarded, not acted on. -/
def execUncelOtherFrame (b : Bool) (bytes : List Byte) (s : State) : Result :=
  .next (s.arrive b bytes otherFrame fun _ s => s)

/-! Authenticated frames (R455). -/

/-- GEN, CTR and body of an authenticated payload. -/
def Frame.gen (f : Frame) : Nat := field f.payload 0 4
def Frame.ctr (f : Frame) : Nat := field f.payload 4 8
def Frame.inner (f : Frame) : List Byte := (f.payload.take (f.payload.length - 16)).drop 12

/-- The wall-time part of CTR lies within 1 s. -/
def nearTime (a b : Nat) : Bool :=
  decide ((a + 2 ^ 48 - b % 2 ^ 48) % 2 ^ 48 ≤ 32768 ∨ (b + 2 ^ 48 - a % 2 ^ 48) % 2 ^ 48 ≤ 32768)

/-- The conditions of R455. -/
def State.frameOk (s : State) (f : Frame) : Bool :=
  let src := addrBits f.src
  (match s.frameKey f.gen with
   | some key => decide (frameTag key f = f.payload.drop (f.payload.length - 16))
   | none => false) &&
  (match s.uncel.lastCtr.find? src with | some c => decide (c < f.ctr) | none => true) &&
  (!s.uncel.aligned || nearTime (f.ctr / 65536) (s.wallTime % 2 ^ 48))

/-- An authenticated frame that arrives for this device while the Secure Executive runs: it is acted on, or counted (R455,
R461). -/
def State.arriveAuth (s : State) (b : Bool) (bytes : List Byte) (type len : Nat) (act : Frame → State → State) : State :=
  s.arrive b bytes (isType type len len) fun f s =>
    if s.power.phase ≠ .gateOpen then s
    else
      let s := s.tick
      if s.frameOk f then
        act f (s.modUncel fun u => { u with lastCtr := u.lastCtr.insert (addrBits f.src) f.ctr })
      else (s.modUncel fun u => { u with authFails := satAdd 0xFFFF u.authFails 1 }).event .unc uncAuthReject

/-- UNCEL_EPOCH_FRAME: TARGET is applied, and reported when the beds have settled or the raise is refused; a device that holds
TARGET reports done (R457). -/
def execUncelEpochFrame (b : Bool) (bytes : List Byte) (s : State) : Result :=
  .next (s.arriveAuth b bytes 0x20 32 fun f s =>
    let target := field f.inner 0 4
    let src := addrBits f.src
    let t := s.modUncel fun u => { u with epochFrom := u.epochFrom ++ [(src, target)] }
    let r := t.loamPair gdEpoch (BitVec.ofNat 32 target) epochPair
    if r.2 = .applied then r.1
    else
      let s := r.1.modUncel fun u => { u with epochFrom := u.epochFrom.erase (src, target) }
      let held := decide (r.2 = .epochOrder ∧ s.glb.epoch = target)
      s.reportEpoch src target (if held then GuardResult.applied.code else r.2.code))

/-- EPOCH_DONE: the originator counts a report on its last UNC_EPOCH (R457). -/
def execEpochDone (b : Bool) (bytes : List Byte) (s : State) : Result :=
  .next (s.arriveAuth b bytes 0x21 34 fun f s =>
    if field f.inner 0 4 ≠ s.uncel.epTarget then s
    else if field f.inner 4 2 = 0 then s.modUncel fun u => { u with epDone := satAdd 0xFFFF u.epDone 1 }
    else s.modUncel fun u => { u with epRefused := satAdd 0xFFFF u.epRefused 1 })

/-- The responses to a remote alarm: bits of TMP_CFGs; a locked device only logs (R458). -/
def State.remoteTamper (s : State) (srcs : Nat) : State :=
  let cfg := s.tilth.uncel.remoteTamper
  let r := if s.tamper.locked then keepBits tmpLog cfg else keepBits (tmpLog + tmpHold + tmpLock) cfg
  let s := s.event .unc uncRemoteTamper
  let s := if r.testBit 4 then s.tamperHolds else s
  let s := if r.testBit 3 then s.lockResponse else s
  if r.testBit 1 then
    s.log 0x4001 (leBytes 2 srcs ++ leBytes 1 (responseByte r) ++ leBytes 2 s.tamper.count ++ leBytes 1 0)
  else s

/-- UNCEL_TAMPER_FRAME. -/
def execUncelTamperFrame (b : Bool) (bytes : List Byte) (s : State) : Result :=
  .next (s.arriveAuth b bytes 0x40 32 fun f s => s.remoteTamper (field f.inner 0 2))

/-- The wall times differ by more than 800 µs, in 1/32,768 s (R460). -/
def timeDiffers (a b : Nat) : Bool :=
  let d := (BitVec.ofNat 64 a - BitVec.ofNat 64 b).toInt.natAbs
  decide (800 * 32768 < d * 1000000)

/-- UNCEL_TIME_FRAME: the offset is stepped when it is off, and the device is ALIGNED (R439, R460). -/
def execUncelTimeFrame (b : Bool) (bytes : List Byte) (s : State) : Result :=
  .next (s.arriveAuth b bytes 0x50 36 fun f s =>
    let time := field f.inner 0 8
    let s := s.modUncel fun u => { u with aligned := true }
    if timeDiffers time s.wallTime then
      let offset := BitVec.ofNat 64 time - BitVec.ofNat 64 s.rtc
      let s := (s.modHzn fun h => { h with offset := offset }).event .unc uncTimeStep
      s.log 0x7002 (leBytes 8 offset.toNat)
    else s)

/-- TIME_LEADER_TICK: the time leader floods its wall time (R460). -/
def execTimeLeaderTick (s : State) : Result :=
  .next (
    let u := s.tilth.uncel
    if u.timeAlign ∧ u.timeLeader = s.uncel.addr ∧ s.uncel.addr.isSome ∧ s.power.phase = .gateOpen then
      let s := s.tick
      s.originateAuth dstDomain 0x50 (leBytes 8 s.wallTime)
    else s)

/-- ALIGNMENT_TIMEOUT: 10 s without a TIME frame. -/
def execAlignmentTimeout (s : State) : Result := .next (s.modUncel fun u => { u with aligned := false })

/-! The domain secret (R453, R454). -/

/-- The record names two system slots. -/
def State.domainSlots (s : State) : Bool :=
  let u := s.tilth.uncel
  decide (u.slotCur ≠ u.slotPrev) && [u.slotCur, u.slotPrev].all fun k => (s.slot k).system

/-- The attribute word of a domain secret: class 0xF4, LEN 64, PERSISTENT, subsoil digest and wrap unit. -/
def domainAttr : Nat := 0xF4 + 64 * 2 ^ 8 + 2 ^ 19 + 2 ^ 20 + 2 ^ 43

/-- Write a domain secret to a system slot and its shelf record. -/
def State.writeSecret (s : State) (k : Nat) (secret : List Byte) : State :=
  let x := s.slot k
  let y : Slot := { state := .loaded, secret := secret, attr := domainAttr, system := true, owner := x.owner, createSeq := s.hzn.next }
  (s.modSlot k fun _ => y).modVault fun v => { v with shelf := v.shelf.insert k y.record }

/-- A new generation: the current secret, where one is held, moves to the previous slot (R454 step 4). -/
def State.newGeneration (s : State) (gen : Nat) (secret : List Byte) : State :=
  let u := s.tilth.uncel
  let prev := if (s.domainSecret s.uncel.gen).isSome then s.uncel.gen else s.uncel.genPrev
  let s := match s.domainSecret s.uncel.gen with
    | some old => s.writeSecret u.slotPrev old
    | none => s
  let s := (s.writeSecret u.slotCur secret).modUncel fun x => { x with genPrev := prev, gen := gen, join := none }
  s.event .unc uncDomainKey

/-- The generation held; 0 with no secret. -/
def State.heldGen (s : State) : Nat := if (s.domainSecret s.uncel.gen).isSome then s.uncel.gen else 0

/-- Run a join with a leader: the member's message is free (R454 step 2). -/
def State.startJoin (s : State) (leader generation : Nat) : State :=
  let r := Config.joinRequest s.free
  (s.spend.modUncel fun u => { u with join := some { leader := leader, generation := generation, dk := r.2 } }).emit (.join leader r.1)

/-- MKEY_OFFER: a device of a lower generation joins the leader. -/
def execMkeyOffer (b : Bool) (bytes : List Byte) (s : State) : Result :=
  .next (s.arrive b bytes (isType 0x30 6 6) fun f s =>
    let gen := field f.payload 0 4
    if s.power.phase = .gateOpen ∧ s.domainSlots ∧ s.vault.aliasKey ∧ s.heldGen < gen then
      s.startJoin (addrBits (field f.payload 4 2)) gen
    else s)

/-- A party of a join is accepted: its chain roots in the vendor CA, both signatures verify, and its owner key hash is this
device's (R454 step 3). -/
def State.joinParty (s : State) (chain ownerHash message signature : List Byte) : Bool :=
  Config.chainOk chain && mlOk chain message signature && decide (ownerHash = s.ownerHash)

/-- UNC_JOIN_REQUEST: the leader checks a member and answers with the wrapped secret. -/
def execUncJoinRequest (member : Nat) (ek chain ownerHash signature : List Byte) (s : State) : Result :=
  .next (
    match s.domainSecret s.uncel.gen with
    | none => s
    | some secret =>
      if s.power.phase ≠ .gateOpen ∨ !s.vault.aliasKey ∨ !s.joinParty chain ownerHash (ek ++ chain ++ ownerHash) signature then s
      else s.spend.emit (.join member (Config.joinAnswer s.free ek secret)))

/-- UNC_JOIN_RESPONSE: the member checks the leader and writes the new generation; a second secret of a generation it holds is
refused (R454). -/
def execUncJoinResponse (leader : Nat) (answer chain ownerHash signature : List Byte) (s : State) : Result :=
  .next (
    match s.uncel.join with
    | none => s
    | some x =>
      if x.leader ≠ leader ∨ s.power.phase ≠ .gateOpen then s
      else
        let s := s.modUncel fun u => { u with join := none }
        match Config.joinSecret x.dk answer with
        | none => s
        | some secret =>
          if s.joinParty chain ownerHash (answer ++ chain ++ ownerHash) signature && s.domainSlots &&
              decide (s.heldGen < x.generation) then
            s.newGeneration x.generation secret
          else s)

/-! Requests (R456). -/

/-- UNC_MKEY NEW: the device becomes the leader of the next generation. -/
def State.uncMkeyNew (s : State) : State × Answer :=
  if !s.domainSlots then (s, .no Status.keyAbsent)
  else match s.uncel.addr with
    | none => (s, .no Status.inputInvalid)
    | some a =>
      let x := s.takeSeed
      let y := x.1.takeSeed
      let gen := s.heldGen + 1
      let s := y.1.newGeneration gen (x.2 ++ y.2)
      (s.originate dstDomain 0x30 (leBytes 4 gen ++ leBytes 2 a), .ok)

/-- UNC_MKEY JOIN: a join with a named leader, which answers within 1 s or is unreachable. The generation is the leader's; the
spec does not say how a member that had no offer learns it, so it is free above the one held (log entry 40). -/
def State.uncMkeyJoin (s : State) (leader : Nat) (reachable : Bool) : State × Answer :=
  if !s.domainSlots then (s, .no Status.keyAbsent)
  else if s.uncel.addr = none ∨ !reachable then (s, .no Status.inputInvalid)
  else (s.spend.startJoin leader (s.heldGen + 1 + Config.freeNat s.free 0 % (2 ^ 32 - 1 - s.heldGen)), .ok)

/-- UNC_EPOCH: the raise is applied here first, and flooded (R457). -/
def State.uncEpoch (s : State) (target : Nat) : State × Answer :=
  let r := s.loamPair gdEpoch (BitVec.ofNat 32 target) epochPair
  if r.2 ≠ .applied then (r.1, .no r.2.status)
  else
    let s := r.1.modUncel fun u => { u with epTarget := target, epDone := 0, epRefused := 0 }
    (s.originateAuth dstDomain 0x20 (leBytes 4 target), .ok)

/-- UNC_REENUMERATE. -/
def State.uncReenumerate (s : State) : State × Answer :=
  if !s.bridge then (s, .no Status.inputInvalid) else (s.enumerateChild, .ok)

/-! Ceremonies (R459). -/

/-- CEREMONY_EXPIRY: 24 hours have passed since the ceremony was opened; its log entry has no type in the spec (log entry 25). -/
def execCeremonyExpiry (s : State) : Result :=
  .next (
    let s := s.tick
    match s.uncel.ceremony with
    | some c =>
      if dayTicks ≤ (s.rtc + 2 ^ 48 - c.opened) % 2 ^ 48 then (s.modUncel fun u => { u with ceremony := none }).logFree else s
    | none => s)

end Sys2Proof.Machine
end

