-- ==== Sys2Proof/Machine/RegsLoam.lean ====
section
/-!
DEFINITION. What the registers of the posted blocks read: RNG (R298), PGD (R394), LCS (R406), TMP (R426), UNC (R463), BOOT (R347,
R371) and HZN (R445). A read changes nothing (R28), so it is a function of the state, by offset within the block; a reserved
or unmapped offset reads 0 (R29).
-/
namespace Sys2Proof.Machine

/-- An SQ register reads EVT and SEQ (R28). -/
def State.sqWord (s : State) (r : SqId) : Nat := (s.sqReg r).evt.toNat + 2 ^ 16 * (s.sqReg r).seq.toNat

/-- PSTAT of a posted block (R39). -/
def State.pstat (s : State) (b : PostedBlock) : Nat := ofBool (s.postedBlock b).busy + 2 ^ 16 * (s.postedBlock b).writeLost

/-- The low or the high word of a 64-bit value. -/
def word (v i : Nat) : Nat := v / 2 ^ (32 * i) % 2 ^ 32

/-- A count as a saturating field of `w` bits. -/
def sat (w n : Nat) : Nat := min n (2 ^ w - 1)

/-! RNG (R298). -/

def RngState.code : RngState → Nat
  | .warmup => 0 | .ready => 1 | .failed => 2

def DrbgState.code : DrbgState → Nat
  | .uninstantiated => 0 | .ready => 1 | .waitSeed => 2 | .failed => 3

def SrcRole.code : SrcRole → Nat
  | .active => 0 | .spare => 1 | .retired => 2 | .warming => 3

/-- RNG_STAT. -/
def State.rngStat (s : State) : Nat :=
  let r := s.rng
  let retired := ((List.range 20).filter fun k => decide ((r.source k).role = .retired)).length
  let test := (List.range 20).any (fun k => (r.source k).subst) || r.capturing.isSome
  let active := ((List.range 20).filter fun k => decide ((r.source k).role = .active)).length
  r.state.code + 2 ^ 5 * ofBool test + 2 ^ 8 * active + 2 ^ 16 * sat 7 r.queue.length + 2 ^ 24 * retired

/-- RNG_DRBG of a port. -/
def State.rngDrbg (s : State) (p : Nat) : Nat :=
  let d := s.drbg p
  d.count + 2 ^ 29 * ofBool (!d.held.isEmpty) + 2 ^ 30 * d.state.code

/-- RNG_WAIT. -/
def State.rngWait (s : State) : Nat :=
  ((List.range 4).map fun c =>
    2 ^ (8 * c) * sat 8 (s.rng.waiting.filter fun r => decide (r.cls = c + 1)).length).sum

/-- The registers of R298, in PF `p`. -/
def State.rngRead (s : State) (p off : Nat) : Nat :=
  let r := s.rng
  if off = 0 then s.pstat .rng
  else if 0x20 ≤ off ∧ off < 0x30 then if p = (off - 0x20) / 4 then s.rngDrbg p else 0
  else if 0x30 ≤ off ∧ off < 0x40 then if p = (off - 0x30) / 4 then sat 32 (s.drbg p).reseeds else 0
  else if p ≠ s.mgmt then 0
  else if 0x100 ≤ off ∧ off < 0x150 then
    let x := r.source ((off - 0x100) / 4)
    x.consec + 2 ^ 29 * ofBool x.subst + 2 ^ 30 * x.role.code
  else if 0x200 ≤ off ∧ off < 0x250 then sat 32 (r.source ((off - 0x200) / 4)).hfail
  else if 0x500 ≤ off ∧ s.life.state ≠ .testUnlocked then 0
  else if 0x1000 ≤ off ∧ off < 0x2000 then leNat ((List.range 4).map fun i => r.capture.get (off - 0x1000 + i) 0)
  else match off with
    | 0x04 => s.rngStat
    | 0x08 => s.sqWord .rng
    | 0x10 => word r.seeds 0
    | 0x14 => word r.seeds 1
    | 0x40 => s.rngWait
    | 0x500 => r.test.toNat
    | 0x504 => word r.testSeed.toNat 0
    | 0x508 => word r.testSeed.toNat 1
    | _ => 0

/-! PGD (R394). -/

def ChanState.code : ChanState → Nat
  | .idle => 0 | .init => 1 | .verifying => 2 | .serving => 3 | .recovering => 4 | .waiting => 5

/-- PGD_STAT. -/
def State.pgdStat (s : State) : Nat :=
  let g := s.pgd
  let recovering := g.chans.any fun (_, x) => decide (x.state = .recovering ∨ x.state = .waiting)
  let window := g.chans.any fun (_, x) => x.window.isSome
  ofBool g.released + 2 * ofBool recovering + 4 * ofBool window + 2 ^ 8 * g.level + 2 ^ 16 * g.table.length

/-- PGD_CHAN. -/
def State.pgdChan (s : State) (c : Nat) : Nat :=
  let x := s.chan c
  x.cause + 2 ^ 4 * x.mode + 2 ^ 8 * (s.plan c).hostDummy x.mode + 2 ^ 24 * ofBool x.busy + 2 ^ 25 * ofBool x.window.isSome +
    2 ^ 26 * ofBool (s.sieveOn c) + 2 ^ 27 * x.serving.getD 3 + 2 ^ 29 * x.state.code

/-- PGD_HOLD_PLAN. -/
def State.pgdHoldPlan (s : State) : Nat := ((List.range 8).map fun k => 4 ^ k * s.holdMode k).sum

/-- The 40 bytes of a measurement entry (R384). -/
def MeasEntry.bytes (e : MeasEntry) : List Byte :=
  padTo 32 e.digest ++ leBytes 2 e.block ++ leBytes 2 (e.mirror.getD 0xFFFF) ++
    leBytes 4 (e.channel + 2 * e.mode + 8 * e.state)

/-- Bytes of the entry that PGD_TBL_IDX selects; one not in use reads 0. -/
def State.pgdEntry (s : State) (off n : Nat) : Nat :=
  match s.pgd.table[s.pgd.tblIdx]? with | some e => field e.bytes off n | none => 0

/-- The registers of R394. -/
def State.pgdRead (s : State) (off : Nat) : Nat :=
  if 0x50 ≤ off ∧ off < 0x70 then s.pgdEntry (off - 0x50) 4
  else if 0x800 ≤ off ∧ off < 0x1000 then (s.opOf ((off - 0x800) / 0x400) ((off - 0x800) % 0x400 / 4)).toNat
  else if 0x1000 ≤ off ∧ off < 0x8000 then
    let r := (off - 0x1000) / 16
    let x := s.pgd.rules.get r {}
    match off % 16 with
    | 0 => x.base
    | 4 => x.len
    | 8 => x.ctl
    | _ => s.pgd.hits.get r 0
  else match off with
    | 0x00 => s.pstat .pgd
    | 0x04 => s.pgdStat
    | 0x08 => s.sqWord .pgd
    | 0x10 => s.pgdHoldPlan
    | 0x20 => s.pgdChan 0
    | 0x24 => s.pgdChan 1
    | 0x30 => (s.chan 0).deny
    | 0x34 => (s.chan 1).deny
    | 0x38 => (s.chan 0).late + 2 ^ 16 * (s.chan 0).overrun
    | 0x3C => (s.chan 1).late + 2 ^ 16 * (s.chan 1).overrun
    | 0x40 => s.pgd.tblIdx
    | 0x44 => s.pgdEntry 32 4
    | 0x48 => s.pgdEntry 36 1
    | 0x104 => s.pgd.sieveEn
    | _ => 0

/-! LCS (R406). -/

/-- LCS_STAT. -/
def State.lcsStat (s : State) : Nat :=
  let l := s.life
  lcIndex l.state + 2 ^ 8 * l.count + 2 ^ 16 * ofBool l.decideFail + 2 ^ 17 * ofBool l.wiped + 2 ^ 18 * ofBool l.staged.isSome

/-- The registers of R406. -/
def State.lcsRead (s : State) (off : Nat) : Nat :=
  match off with
  | 0x00 => s.pstat .lcs
  | 0x04 => s.lcsStat
  | 0x08 => s.sqWord .lcs
  | 0x10 => lcCode s.life.state
  | 0x14 => s.life.latch
  | _ => 0

/-! TMP (R426). -/

/-- TMP_STAT. -/
def State.tmpStat (s : State) : Nat :=
  let t := s.tamper
  ofBool t.locked + 2 * ofBool t.latch + 4 * ofBool t.flag + 2 ^ 4 * (min t.next 4095 / 1024) + 2 ^ 6 * ofBool t.saturated +
    2 ^ 7 * ofBool t.vbatLow

/-- The registers of R426. -/
def State.tmpRead (s : State) (off : Nat) : Nat :=
  let t := s.tamper
  if 0x100 ≤ off ∧ off < 0x140 then
    let c := s.tamperOf ((off - 0x100) / 4)
    c.bits + 2 ^ 8 * c.mode
  else match off with
    | 0x00 => s.pstat .tmp
    | 0x04 => s.tmpStat
    | 0x08 => s.sqWord .tmp
    | 0x10 => t.count
    | 0x14 => t.live
    | 0x18 => t.last
    | 0x1C => s.tmpBatt
    | 0x20 => word t.transferred.first 0
    | 0x24 => word t.transferred.first 1
    | 0x30 => t.temps.get 0 0
    | 0x34 => t.temps.get 1 0
    | 0x38 => t.temps.get 2 0
    | 0x3C => t.temps.get 3 0
    | 0x40 => s.tempWindow.1.toNat + 2 ^ 16 * s.tempWindow.2.toNat
    | _ => 0

/-! UNC (R463). -/

/-- UNC_STAT. -/
def State.uncStat (s : State) : Nat :=
  let u := s.uncel
  s.ownAddr + 2 ^ 16 * u.childSeg + 2 ^ 25 * ofBool u.childOk + 2 ^ 26 * ofBool u.aligned +
    2 ^ 27 * ofBool (s.domainSecret u.gen).isSome + 2 ^ 28 * ofBool u.linkB + 2 ^ 29 * ofBool u.linkA +
    2 ^ 30 * ofBool s.bridge + 2 ^ 31 * ofBool u.addr.isSome

/-- UNC_CEREMONY. -/
def State.uncCeremony (s : State) : Nat :=
  match s.uncel.ceremony with
  | some c => c.id + 2 ^ 16 + 2 ^ 24 * s.tilth.uncel.approvals + 2 ^ 28 * c.officers.length
  | none => 2 ^ 24 * s.tilth.uncel.approvals

/-- The registers of R463. -/
def State.uncRead (s : State) (off : Nat) : Nat :=
  let u := s.uncel
  match off with
  | 0x00 => s.pstat .unc
  | 0x04 => s.uncStat
  | 0x08 => s.sqWord .unc
  | 0x10 => u.lat % 2 ^ 24
  | 0x14 => if (s.domainSecret u.gen).isSome then u.gen else 0
  | 0x18 => sat 16 u.crcFails + 2 ^ 16 * sat 16 u.authFails
  | 0x1C => sat 16 u.epDone + 2 ^ 16 * sat 16 u.epRefused
  | 0x20 => s.uncCeremony
  | _ => 0

/-! BOOT (R347, R371). -/

def PageState.code : PageState → Nat
  | .empty => 0 | .writing => 1 | .sealedPage => 2 | .bad => 3

/-- BOOT_SLOT_A, _B and _G. -/
def CtrlPage.word (c : CtrlPage) : Nat :=
  (c.sealedLen + 4095) / 4096 + 2 ^ 20 * c.svn + 2 ^ 27 * c.signer + 2 ^ 30 * c.state.code

/-- BOOT_STAT. -/
def State.bootStat (s : State) : Nat :=
  let b := s.boot
  let target := match b.install with | some i => min i.target 3 | none => 0
  b.running + 4 * b.primary + 8 * ofBool b.gateOpen + 2 ^ 4 * (b.tilthCopy % 2) + 2 ^ 5 * ofBool b.otherValid +
    2 ^ 6 * ofBool b.reseal + 2 ^ 7 * ofBool b.svnRaise + 2 ^ 8 * ofBool b.install.isSome + 2 ^ 9 * target

/-- BOOT_STRAP. -/
def State.bootStrap (s : State) : Nat := s.power.strapEff % 2 ^ 10 + 2 ^ 10 * ofBool s.power.supplyH33

/-- The registers of R347 and R371. -/
def State.bootRead (s : State) (off : Nat) : Nat :=
  match off with
  | 0x00 => s.pstat .boot
  | 0x04 => s.bootStat
  | 0x08 => s.sqWord .boot
  | 0x10 => (s.boot.regions.get 0 {}).page.word
  | 0x14 => (s.boot.regions.get 1 {}).page.word
  | 0x18 => (s.boot.regions.get 2 {}).page.word
  | 0x1C => s.tilth.sequence
  | 0x20 => s.bootKeys
  | 0x24 => s.boot.svnFloor
  | 0x100 => s.power.cause
  | 0x104 => s.sqWord .rst
  | 0x10C => s.power.localCause
  | 0x110 => s.bootStrap
  | 0x114 => s.bootFstart
  | 0x118 => s.power.valid + 2 ^ 16 * s.power.warn
  | 0x11C => sat 16 s.power.glitches + 2 ^ 16 * sat 16 s.power.settleCount
  | _ => 0

/-! HZN (R445). -/

/-- The SEQ of the last entry. -/
def Horizon.last (h : Horizon) : Nat := if h.next = 0 then 2 ^ 64 - 1 else h.next - 1

/-- The registers of R445. -/
def State.hznRead (s : State) (off : Nat) : Nat :=
  let h := s.hzn
  if 0x1000 ≤ off ∧ off < 0x2000 then
    let seq := (h.win.toNat + (off - 0x1000) / 64) % 2 ^ 64
    match h.entries.find? seq with
    | some e => field (entryBytes seq e.time e.type e.data ++ padTo 32 e.chain) (off % 64) 4
    | none => 0
  else match off with
    | 0x00 => s.pstat .hzn
    | 0x04 => min h.unacked 0x7FFF + 2 ^ 15 * ofBool s.glb.logFull + 2 ^ 16 * h.dropped
    | 0x08 => s.sqWord .hzn
    | 0x10 => word h.last 0
    | 0x14 => word h.last 1
    | 0x18 => word h.floorValue 0
    | 0x1C => word h.floorValue 1
    | 0x20 => word s.rtc 0
    | 0x24 => word s.rtc 1
    | 0x28 => word h.offset.toNat 0
    | 0x2C => word h.offset.toNat 1
    | 0x30 => word h.win.toNat 0
    | 0x34 => word h.win.toNat 1
    | _ => 0

end Sys2Proof.Machine
end

