-- ==== Sys2Proof/Machine/SelfTest.lean ====
section
/-!
DEFINITION. Background known-answer tests (R464 to R466), the retirement of engines (R467, R469), aging monitors (R470) and the
latched halves of tenant counters (R472).
-/
namespace Sys2Proof.Config

/-- The count of an aging monitor fused at manufacture: quadrants 0 to 3, and 4 the subsoil (R470; log entry 39). -/
opaque fusedAge : Nat → Nat

end Sys2Proof.Config

namespace Sys2Proof.Machine

/-! Retirement of an engine. -/

/-- A working spare engine position of a quadrant. -/
def Quadrant.spare (q : Quadrant) : Option Nat :=
  [16, 17].find? fun p => !q.bneRetired.testBit p && !q.bneMoved.any fun x => decide (x.2 = p)

/-- An engine is retired: its number moves to a spare position of the quadrant, or becomes absent. -/
def State.retireEngine (s : State) (n : Nat) : State :=
  let w := n / 16
  match (s.quad w).position (n % 16) with
  | none => s
  | some pos =>
    let spare := (s.quad w).spare
    let s := s.modQuad w fun q => { q with
      bneRetired := q.bneRetired ||| 2 ^ pos
      bneMoved := match spare with | some p => q.bneMoved.insert (n % 16) p | none => q.bneMoved }
    let s := s.modEngine n fun _ => { state := .scrub }
    let s := s.event (.bne (18 * w + pos)) 8
    let bitOf := fun p => 1088 + 18 * w + p
    let s := s.log 0x6002 (leBytes 1 2 ++ leBytes 2 (bitOf pos) ++
      leBytes 2 (match spare with | some p => bitOf p | none => 0xFFFF))
    match spare with
    | some _ => if (s.quad w).spare.isNone then s.event .obs 4 else s
    | none => s.glbEvent evCapacity

/-! Tests. Units are logical grains by number, logical engines from 1,024 on. -/

/-- More than 24 hours have passed since the unit's last test. -/
def State.testOld (s : State) (unit : Nat) : Bool :=
  match s.obs.tested.find? unit with | some t => decide (dayTicks < (s.rtc + 2 ^ 48 - t) % 2 ^ 48) | none => true

/-- Every present grain of a bed is more than 24 hours past its last test (R465). -/
def State.bedTestOld (s : State) (b : Nat) : Bool :=
  (List.range 16).all fun i => !s.grainPresent (16 * b + i) || s.testOld (16 * b + i)

/-- A test starts on a unit. -/
def State.beginTest (s : State) (unit : Nat) (again : Bool) : State :=
  s.modObs fun o => { o with tests := o.tests.insert unit { repeated := again } }

/-- KAT_SCHEDULE: a test starts on an idle unit, or a Dormant bed is woken for it (R464, R465). -/
def execKatSchedule (unit : Nat) (s : State) : Result :=
  .next (
    let s := s.tick
    if !s.power.topsoilUp ∨ s.power.phase ≠ .gateOpen ∨ s.power.holdActive then s
    else if unit < 1024 then
      let b := unit / 16
      if !s.grainPresent unit then s
      else if (s.bed b).state = .dormant ∧ s.bedTestOld b then s.modBed b fun x => { x with wakeWanted := true }
      else if (s.bed b).state ≠ .awake ∨ (s.grain unit).state ≠ .idle ∨ (s.grain unit).test then s
      else (s.beginTest unit false).modGrain unit fun G => { G with test := true }
    else if !s.enginePresent (unit - 1024) ∨ (s.engine (unit - 1024)).state ≠ .idle then s
    else (s.beginTest unit false).modEngine (unit - 1024) fun e => { e with state := .test })

/-- A failure or a machine check of the unit lies within 24 hours (R466). -/
def State.failedLately (s : State) (unit : Nat) : Bool :=
  let recent := fun t => decide ((s.rtc + 2 ^ 48 - t) % 2 ^ 48 ≤ dayTicks)
  let mchk := if unit < 1024 then
      match (s.bed (unit / 16)).position (unit % 16) with
      | some pos => (s.bed (unit / 16)).lastMchk.find? pos
      | none => none
    else none
  (match s.obs.failedAt.find? unit with | some t => recent t | none => false) ||
  match mchk with | some t => recent t | none => false

/-- The unit is retired, and the retirement is counted. -/
def State.retireUnit (s : State) (unit : Nat) : State :=
  let s := s.modObs fun o => { o with tests := o.tests.erase unit, katRetired := satAdd 0xFFFF o.katRetired 1 }
  if unit < 1024 then s.retireGrain unit else s.retireEngine (unit - 1024)

/-- The failure joins the 24-hour record of R111. -/
def State.recordFailure (s : State) (unit : Nat) : State :=
  let s := s.modObs fun o => { o with failedAt := o.failedAt.insert unit s.rtc }
  if unit < 1024 then
    match (s.bed (unit / 16)).position (unit % 16) with
    | some pos => s.modBed (unit / 16) fun x => { x with lastMchk := x.lastMchk.insert pos s.rtc }
    | none => s
  else s

/-- The first failure: the unit leaves service, a grain's control store is reloaded and an engine is scrubbed, and the test
repeats. -/
def State.firstFailure (s : State) (unit : Nat) : State :=
  let s := (s.recordFailure unit).beginTest unit true
  if unit < 1024 then
    (s.modGrain unit fun G => { G with state := .reload }).modQuad (unit / 256) fun q => { q with reloads := q.reloads ++ [unit] }
  else s.modEngine (unit - 1024) fun e => { e with state := .scrub }

/-- The unit of a HEALTH entry: bit 15 marks an engine (R505). -/
def healthUnit (unit : Nat) : Nat := if unit < 1024 then unit else 0x8000 + (unit - 1024)

/-- The unit returns to service. -/
def State.endTest (s : State) (unit : Nat) : State :=
  let s := s.modObs fun o => { o with tests := o.tests.erase unit, tested := o.tested.insert unit s.rtc }
  if unit < 1024 then
    s.modGrain unit fun G => { G with
      test := false
      state := if G.state = .reload then .idle else G.state }
  else s.modEngine (unit - 1024) fun e => { e with state := .idle }

/-- A test still runs on the unit, and a reload before its repeat has ended. -/
def State.underTest (s : State) (unit : Nat) : Bool :=
  (s.obs.tests.find? unit).isSome &&
  if unit < 1024 then (s.grain unit).test && !(s.quad (unit / 256)).reloads.contains unit
  else decide ((s.engine (unit - 1024)).state = .test)

/-- KAT_DONE: the test of a unit ends (R466). -/
def execKatDone (unit : Nat) (pass : Bool) (s : State) : Result :=
  .next (
    if !s.underTest unit then s
    else
      let s := s.tick
      let again := (s.obs.tests.get unit {}).repeated
      let s := s.modObs fun o => { o with katRun := satAdd 0xFFFFFFFF o.katRun 1 }
      if pass then
        let s := s.endTest unit
        if again then (s.modObs fun o => { o with katFails := satAdd 0xFFFF o.katFails 1 }).logHealth 2 (healthUnit unit)
        else s
      else
        let s := s.event .obs 1
        let s := if unit < 1024 then s else s.engineEvent (unit - 1024) 4
        if again ∨ s.failedLately unit then s.retireUnit unit else s.firstFailure unit)

/-! Aging monitors. -/

/-- A count has fallen 8 % or more below its fused value. -/
def agedBelow (i count : Nat) : Bool := decide (100 * count ≤ 92 * Config.fusedAge i)

/-- AGING_READ: the counts of quadrants 0 to 3 and of the subsoil; each monitor's fall is reported once (R470). -/
def execAgingRead (counts : List Nat) (s : State) : Result :=
  .next ((counts.take 5).zipIdx.foldl (fun (s : State) x =>
    let s := s.modObs fun o => { o with ages := o.ages.insert x.2 (x.1 % 65536) }
    if agedBelow x.2 x.1 && !s.obs.aged.testBit x.2 then
      (s.modObs fun o => { o with aged := o.aged ||| 2 ^ x.2 }).event .obs 2
    else s) s)

/-! Tenant counters. -/

/-- Counter `k` of R472, in the order of its table. -/
def Counters.nth (c : Counters) (k : Nat) : Nat :=
  match k with
  | 0 => c.jobs | 1 => c.fails | 2 => c.inBytes | 3 => c.outBytes | 4 => c.cycles | 5 => c.stall | 6 => c.retried
  | _ => c.discarded

/-- The key of a latched _HI half. -/
def latchKey (p t k : Nat) : Nat := (1024 * p + t) * 8 + k

/-- A PF sees the counters of its own port's tenants. -/
def State.seesCounters (s : State) (p t : Nat) : Bool :=
  s.pfLive p && (s.tenant t).live && decide ((s.tenant t).tpt.port = p)

/-- OBS_COUNTER_LO_READ: the _HI half is latched for the PF's next read of it. -/
def execObsCounterLoRead (p t k : Nat) (s : State) : Result :=
  .next (
    if !s.seesCounters p t ∨ 8 ≤ k then s
    else s.modObs fun o => { o with latched := o.latched.insert (latchKey p t k) ((o.counters.get t {}).nth k / 2 ^ 32) })

end Sys2Proof.Machine
end

