-- ==== Sys2Proof/Machine/RegsTop.lean ====
section
/-!
DEFINITION. What the registers of PF BAR0 and VF BAR0 read (R28, R29, R41 to R45): the GLB block, the TPT window (R76), the queue
pairs (R48), KEY (R325), the bed windows (R117, R177), BNE (R254), DIG (R258) and OBS (R471, R472), with what each function
sees of them.
-/
namespace Sys2Proof.Config

/-- OBS_STAT, whose fields R471 does not give (log entry 45). -/
opaque obsStat : Nat → Nat
/-- A word of the trace buffer: R473 does not code its records (log entry 45). -/
opaque traceWord : Nat → Nat → Nat

end Sys2Proof.Config

namespace Sys2Proof.Machine

/-! GLB (R45, R84). -/

/-- GLB_ID. -/
def State.glbId (s : State) : Nat := 0x1024 * 2 ^ 16 + 0x01 * 2 ^ 8 + s.grade * 2 ^ 4

/-- GLB_STAT of a PF. -/
def State.glbStat (s : State) (p : Nat) : Nat :=
  let g := s.glb
  ofBool (decide (s.epochMin < s.epochMax)) + 2 * ofBool g.locked + 4 * ofBool g.fallow + 8 * ofBool g.rngReady +
    2 ^ 4 * ofBool g.startOk + 2 ^ 5 * ofBool g.logFull + 2 ^ 6 * ofBool g.linkDown + 2 ^ 7 * ofBool (decide (p = s.mgmt))

/-- GLB_CAP0 and GLB_CAP1. -/
def State.glbCap0 (s : State) : Nat := s.grainsActive + 2 ^ 16 * s.enginesActive
def State.glbCap1 (s : State) (p : Nat) : Nat := s.tilth.linkCfg + 4 * p + 2 ^ 4 * s.vfCount p

/-- GLB_DLOG_CTL. -/
def Func.dlogWord (x : Func) : Nat :=
  ofBool x.dlogEn + 2 * ofBool x.dlogActive + 2 ^ 4 * x.dlogLimit + 2 ^ 30 * ofBool x.dlogOverflow + 2 ^ 31 * ofBool x.dlogFlipDone

/-- A word of the MSI-X table or pending-bit array of a function; bit 0 of a vector control word is its mask (R43, R44). -/
def Func.msixWord (x : Func) (vectors off : Nat) : Nat :=
  let v := off / 16
  if vectors ≤ v then 0
  else if off % 16 = 12 then ofBool (x.msixMasked.testBit v)
  else (x.msixTable.get off 0).toNat

/-- The GLB block of PF `p`. -/
def State.glbRead (s : State) (p off : Nat) : Nat :=
  let x := s.pf p
  let f := s.func (fnKey p 0)
  if 0x1000 ≤ off ∧ off < 0x5000 then
    let v := (off - 0x1000) / 16
    let y := s.func (fnKey p (v + 1))
    match off % 16 with
    | 0x0 => word y.dlogBase0.toNat 0
    | 0x4 => word y.dlogBase0.toNat 1
    | 0x8 => y.dlogBase1.toNat
    | _ => y.dlogWord
  else if 0xD000 ≤ off ∧ off < 0xD400 then f.msixWord 64 (off - 0xD000)
  else match off with
    | 0x00 => s.glbId
    | 0x04 => s.boot.fwVersion
    | 0x10 => word s.uid 0
    | 0x14 => word s.uid 1
    | 0x18 => word s.uid 2
    | 0x1C => word s.uid 3
    | 0x20 => s.glbCap0
    | 0x24 => s.glbCap1 p
    | 0x40 => s.glbStat p
    | 0x44 => s.sqWord (.glb p)
    | 0x50 => x.ackMiss
    | 0x54 => x.guardOffset + 2 ^ 24 * x.guardResult
    | 0x58 => match x.arm with | some a => a.offset | none => 2 ^ 32 - 1
    | 0x60 => s.glb.epoch
    | 0x64 => s.epochMin
    | 0x68 => s.epochMax
    | 0xE000 => word f.msixPending 0
    | 0xE004 => word f.msixPending 1
    | _ => 0

/-! The TPT window (R76). -/

def TState.code : TState → Nat
  | .free => 0 | .active => 1 | .quiescing => 2 | .quiesced => 3 | .removing => 4

/-- TPT_CTL. -/
def Tenant.ctl (t : Tenant) : Nat := t.state.code + 8 * ofBool t.tpt.isolated + 16 * ofBool t.exported

/-- Contexts and slots that a tenant owns (TPT_COUNT). -/
def State.tptCount (s : State) (t : Nat) : Nat :=
  let ctxs := (s.vault.ctxs.filter fun (_, c) => decide (c.state ≠ .free ∧ c.owner = t)).length
  let slots := (s.vault.slots.filter fun (_, x) => decide (x.state ≠ .unassigned ∧ x.owner = t) && !x.system).length
  slots + 2 ^ 16 * ctxs

/-- A word of tenant `t`'s entry. -/
def State.tptWord (s : State) (t off : Nat) : Nat :=
  let x := s.tenant t
  let e := x.tpt
  if 0x20 ≤ off ∧ off < 0x28 then word e.bne ((off - 0x20) / 4)
  else if 0x28 ≤ off ∧ off < 0x48 then word e.ext ((off - 0x28) / 4)
  else if 0x80 ≤ off ∧ off < 0x100 then word e.grains ((off - 0x80) / 4)
  else match off with
    | 0x00 => x.ctl
    | 0x04 => e.vfFirst + 2 ^ 12 * e.vfNum + 2 ^ 24 * e.port + 2 ^ 31 * ofBool e.pfOwned
    | 0x08 => e.qpBase + 2 ^ 16 * e.qpPerFunc
    | 0x0C => e.slotsRd + 2 ^ 16 * e.slotsWr
    | 0x10 => e.slotQuota + 2 ^ 16 * e.ctxQuota
    | 0x14 => s.tptCount t
    | 0x18 => e.rngMs
    | _ => 0

/-- PF `p` sees a tenant of its own port (R42). -/
def State.ownTenant (s : State) (p t : Nat) : Bool := (s.tenant t).live && decide ((s.tenant t).tpt.port = p)

/-! Queue pairs (R48). -/

def QState.code : QState → Nat
  | .disabled => 0 | .enabled => 1 | .stopping => 2 | .stopped => 3 | .quiesced => 4

/-- A register of pair `q`. -/
def State.queWord (s : State) (q off : Nat) : Nat :=
  let x := s.queue q
  match off with
  | 0x00 => word x.sqb.toNat 0
  | 0x04 => word x.sqb.toNat 1
  | 0x08 => word x.cqb.toNat 0
  | 0x0C => word x.cqb.toNat 1
  | 0x10 => x.sqLog2 + 2 ^ 16 * x.cqLog2
  | 0x14 => ofBool x.en + 2 * ofBool x.irqEn + 2 ^ 4 * x.weight
  | 0x18 => x.count + 2 ^ 8 * x.timeUs
  | 0x1C => match s.pairOwner q with
    | some o => o.tenant + 2 ^ 11 * o.func + 2 ^ 24 * o.port + 2 ^ 26 * o.local_ + 2 ^ 31
    | none => 0
  | 0x20 => x.state.code + 2 ^ 16 * x.error
  | 0x24 => x.sqHead
  | 0x28 => x.cqTail
  | 0x2C => x.inflight
  | _ => 0

/-! KEY (R325). -/

def SlotState.code : SlotState → Nat
  | .unassigned => 0 | .empty => 1 | .prepared => 2 | .claimed => 3 | .loaded => 4

def CtxState.code : CtxState → Nat
  | .free => 0 | .opened => 1 | .busy => 2

/-- KEY_STAT. -/
def State.keyStat (s : State) : Nat :=
  (s.vault.slots.filter fun (_, x) => decide (x.state = .loaded)).length + 2 ^ 13 * ofBool s.vault.shelfLoading +
    2 ^ 14 * ofBool s.vault.rootRenewed

/-- KEY_SLOT. -/
def State.keySlot (s : State) (k : Nat) : Nat :=
  let x := s.slot k
  x.budget / 2 ^ 32 + 2 ^ 16 * x.owner + 2 ^ 27 * ofBool (s.vault.shelf.find? k).isSome + 2 ^ 28 * ofBool x.system +
    2 ^ 29 * x.state.code

/-- KEY_CTX. -/
def Ctx.word (x : Ctx) : Nat :=
  (if x.keyed then x.slot + 2 ^ 12 else 0) + 2 ^ 16 * x.owner + 2 ^ 26 * x.kind + 2 ^ 29 * ofBool x.migratable + 2 ^ 30 * x.state.code

/-- The KEY block in PF `p`: slots of its port's tenants and system slots. -/
def State.keyRead (s : State) (p off : Nat) : Nat :=
  if 0x10000 ≤ off ∧ off < 0x20000 then
    let k := (off - 0x10000) / 16
    let x := s.slot k
    if !x.system && (decide (x.state = .unassigned) || !s.ownTenant p x.owner) then 0
    else match off % 16 with
      | 0 => word x.attr 0
      | 4 => word x.attr 1
      | 8 => word x.budget 0
      | _ => s.keySlot k
  else if 0x20000 ≤ off ∧ off < 0x24000 then
    let x := s.ctx ((off - 0x20000) / 4)
    if x.state = .free ∨ !s.ownTenant p x.owner then 0 else x.word
  else match off with
    | 0x00 => s.keyStat
    | 0x04 => s.sqWord .key
    | 0x10 => s.vault.shelfFree / 1024 + 2 ^ 16 * s.vault.shelf.length
    | _ => 0

/-! Beds and grains (R117, R177). -/

def BState.code : BState → Nat
  | .off => 0 | .waking => 1 | .awake => 2 | .applying => 3 | .entering => 4 | .dormant => 5

def GState.code : GState → Nat
  | .unowned => 0 | .scrub => 1 | .idle => 2 | .load => 3 | .running => 4 | .stalled => 5 | .held => 6 | .reload => 7 | .retired => 8

/-- BED_STAT. -/
def State.bedStat (s : State) (b : Nat) : Nat :=
  let x := s.bed b
  x.state.code + 2 ^ 5 * ofBool (s.quad (b / 16)).pllRun + 2 ^ 6 * ofBool (decide (x.epoch < s.glb.epoch)) +
    2 ^ 7 * ofBool s.power.holdActive

/-- The position holds a working grain. -/
def Bed.working (x : Bed) (pos : Nat) : Bool := !x.retired.testBit pos

/-- GRN_ID. -/
def Bed.grnId (x : Bed) (b pos : Nat) : Nat :=
  let number := match x.logicalAt pos with | some i => 16 * b + i | none => 0
  number + 2 ^ 24 * pos + 2 ^ 29 * ofBool (x.working pos && (x.logicalAt pos).isNone) + 2 ^ 30 * ofBool (x.retired.testBit pos) +
    2 ^ 31 * ofBool (x.working pos)

/-- A grain's register: the grain is of PF `p`'s port. -/
def State.grnWord (s : State) (b pos g off : Nat) : Nat :=
  let x := s.grain g
  let bed := s.bed b
  let job := x.job.bind s.job
  match off with
  | 0x04 =>
    (if bed.state = .dormant then 9 else x.state.code) +
      2 ^ 8 * ofBool (match x.prog with | some h => bit h.flags 0 | none => false) + 2 ^ 16 * (s.grainTenant g).getD 0
  | 0x08 => match x.prog with | some h => h.progId | none => 0
  | 0x0C => match job with | some j => j.index + 2 ^ 19 * j.pair | none => 0
  | 0x10 => s.sqWord (.grain b pos)
  | 0x18 => min x.expander.count 4096 + 2 ^ 31 * ofBool x.expander.pending
  | 0x1C => sat 16 (bed.mchk.get pos 0)
  | 0x20 => word x.busy 0
  | 0x24 => word x.busy 1
  | _ => 0

/-- BED_IDLE_US. -/
def State.bedIdle (s : State) : Nat := s.tilth.bedIdleUs.getD (2 ^ 32 - 1)

/-- PF `p` sees a bed in which a tenant of its port holds a grain. -/
def State.bedSeen (s : State) (p b : Nat) : Bool :=
  (List.range 16).any fun i => match s.grainTenant (16 * b + i) with | some t => s.ownTenant p t | none => false

/-- Bed window `b` in PF `p`. -/
def State.bedRead (s : State) (p b off : Nat) : Nat :=
  let x := s.bed b
  if !s.bedSeen p b then 0
  else if off < 0x1000 then
    match off with
    | 0x00 => s.bedStat b
    | 0x04 => x.epoch
    | 0x08 => ((List.range 17).map fun k => if x.working k then 2 ^ k else 0).sum
    | 0x0C => sat 32 x.wakes
    | 0x10 => s.bedIdle
    | 0x14 => sat 16 x.reloads + 2 ^ 16 * x.ucode
    | _ => 0
  else
    let pos := off / 0x1000 - 1
    if 16 < pos then 0
    else if off % 0x1000 = 0 then x.grnId b pos
    else match x.logicalAt pos with
      | some i =>
        match s.grainTenant (16 * b + i) with
        | some t => if s.ownTenant p t then s.grnWord b pos (16 * b + i) (off % 0x1000) else 0
        | none => 0
      | none => 0

/-! BNE (R254). -/

/-- BNE_STAT. -/
def State.bneStat (s : State) (n : Nat) : Nat :=
  let x := s.engine n
  let st := if (s.engineTenant n).isNone then 0
    else if !(s.quad (n / 16)).pllRun then 8
    else match x.state with | .scrub => 1 | .idle => 2 | .held => 3 | .running => 4 | .stopped => 5 | .test => 6
  st + 2 ^ 4 * x.holder.getD 0x7FF + 2 ^ 16 * (s.engineTenant n).getD 0

/-- BNE_ID. -/
def Quadrant.bneId (x : Quadrant) (q pos : Nat) : Nat :=
  let number := match x.logicalAt pos with | some k => 16 * q + k | none => 0
  let retired := x.bneRetired.testBit pos
  number + 2 ^ 24 * pos + 2 ^ 29 * ofBool (!retired && (x.logicalAt pos).isNone) + 2 ^ 30 * ofBool retired + 2 ^ 31 * ofBool (!retired)

/-- Engine window `w` in PF `p`. -/
def State.bneRead (s : State) (p w off : Nat) : Nat :=
  let x := s.quad (w / 18)
  match x.logicalAt (w % 18) with
  | none => 0
  | some k =>
    let n := 16 * (w / 18) + k
    let y := s.engine n
    if !(match s.engineTenant n with | some t => s.ownTenant p t | none => false) then 0
    else match off with
      | 0x00 => x.bneId (w / 18) (w % 18)
      | 0x04 => s.bneStat n
      | 0x08 => s.sqWord (.bne w)
      | 0x10 => sat 32 y.progs
      | 0x14 => word y.busy 0
      | 0x18 => word y.busy 1
      | _ => 0

/-! DIG (R258). -/

def DigState.code : DigState → Nat
  | .idle => 0 | .feed => 1 | .armed => 2 | .dma => 3 | .final => 4 | .done => 5 | .error => 6

def DigError.code : DigError → Nat
  | .none => 0 | .sequence => 1 | .config => 2 | .keyAbsent => 3 | .keyDenied => 4 | .keyBudget => 5 | .dmaError => 6 | .length => 7
  | .zeroized => 8 | .linkFault => 9 | .reset => 10

/-- DIG_ID. -/
def State.digId (s : State) (e : Nat) : Nat :=
  e + 2 ^ 30 * ofBool (decide (16 ≤ e)) +
    (if e < 16 then match s.tilth.digest.find? e with | some p => 2 ^ 24 * p + 2 ^ 31 | none => 0 else 0)

/-- The registers of an engine that a PF can read. -/
def State.digWord (s : State) (e off : Nat) : Nat :=
  let d := s.digest e
  if 0x080 ≤ off ∧ off < 0x0C0 then field d.out (off - 0x080) 4
  else match off with
    | 0x004 => s.digId e
    | 0x008 => d.ctl
    | 0x00C => d.param
    | 0x010 => (if d.paused then 7 else d.state.code) + 2 ^ 16 * d.result + 2 ^ 24 * d.error.code
    | 0x014 => s.sqWord (.dig e)
    | 0x020 => word d.len 0
    | 0x024 => word d.addrLo 0
    | 0x028 => word d.addrHi 0
    | 0x030 => d.lcnt
    | _ => 0

/-- Window `e` in PF `p`: its own engines, and of DS0 and DS1 six registers in the management PF. -/
def State.digRead (s : State) (p e off : Nat) : Nat :=
  if e < 16 then if s.tilth.digest.find? e = some p then s.digWord e off else 0
  else if p ≠ s.mgmt then 0
  else if off = 0 then s.pstat (if e = 16 then .dig16 else .dig17)
  else if [0x004, 0x008, 0x00C, 0x010, 0x014].contains off then s.digWord e off
  else 0

/-! OBS (R470 to R473). -/

/-- OBS_QUADq. -/
def State.obsQuad (s : State) (q : Nat) : Nat :=
  let x := s.quad q
  let beds := (List.range 16).map fun i => s.bed (16 * q + i)
  let grains := ((List.range 256).filter fun i => s.grainPresent (256 * q + i) && !x.failed).length
  let spares := (beds.filter fun b => b.working 16 && b.spareOf.isNone).length
  let engines := ((List.range 16).filter fun k => s.enginePresent (16 * q + k)).length
  let bneSpares := ((List.range 18).filter fun k => !x.bneRetired.testBit k && (x.logicalAt k).isNone).length
  grains + 2 ^ 16 * spares + 2 ^ 21 * engines + 2 ^ 26 * bneSpares + 2 ^ 31 * ofBool x.failed

/-- OBS_AGEq and OBS_AGE_S. -/
def State.obsAge (s : State) (i : Nat) : Nat := s.obs.ages.get i 0 % 2 ^ 16 + 2 ^ 16 * (Config.fusedAge i % 2 ^ 16)

/-- A counter register: the _HI half latched by the PF's read of _LO, or the current one. -/
def State.obsCounter (s : State) (p t off : Nat) : Nat :=
  let k := off / 8
  let v := (s.obs.counters.get t {}).nth k
  if off % 8 = 0 then word v 0 else (s.obs.latched.find? (latchKey p t k)).getD (word v 1)

/-- The OBS block in PF `p`. -/
def State.obsRead (s : State) (p off : Nat) : Nat :=
  let mgmt := decide (p = s.mgmt)
  if 0x100000 ≤ off ∧ off < 0x110000 then
    let t := (off - 0x100000) / 64
    if s.ownTenant p t then s.obsCounter p t (off % 64) else 0
  else if off = 0x00 then Config.obsStat s.free
  else if 0x10 ≤ off ∧ off < 0x20 then s.obsQuad ((off - 0x10) / 4)
  else if !mgmt then 0
  else if 0x10000 ≤ off ∧ off < 0x20000 then
    if bits s.life.latch 5 4 = 0 then 0 else Config.traceWord s.free off
  else match off with
    | 0x04 => s.sqWord .obs
    | 0x20 => s.obsAge 0
    | 0x24 => s.obsAge 1
    | 0x28 => s.obsAge 2
    | 0x2C => s.obsAge 3
    | 0x30 => s.obsAge 4
    | 0x40 => sat 32 s.obs.katRun
    | 0x44 => sat 16 s.obs.katFails + 2 ^ 16 * sat 16 s.obs.katRetired
    | 0x100 => s.obs.trcCtl
    | 0x104 => sat 32 s.obs.trcDrop
    | _ => 0

/-! The BARs (R42, R43). -/

/-- A posted block in PF `p`: all ones after a die-link integrity event (R41); else its registers where it is visible. -/
def State.postedRead (s : State) (p off : Nat) (b : PostedBlock) : Nat :=
  let o := off % 0x10000
  if s.glb.linkDown then 2 ^ 32 - 1
  else match b with
    | .rng => s.rngRead p o
    | .lcs => if p = s.mgmt ∨ o < 0x100 then s.lcsRead o else 0
    | .pgd => if p = s.mgmt then s.pgdRead o else 0
    | .tmp => if p = s.mgmt then s.tmpRead o else 0
    | .unc => if p = s.mgmt then s.uncRead o else 0
    | .boot => if p = s.mgmt then s.bootRead o else 0
    | .hzn => if p = s.mgmt then s.hznRead (off - 0x400000) else 0
    | .dig16 => s.digRead p 16 (off % 0x1000)
    | .dig17 => s.digRead p 17 (off % 0x1000)

/-- What PF `p` reads at an offset of BAR0; an unmapped offset reads 0 (R29). -/
def State.pfRead (s : State) (p off : Nat) : W32 :=
  BitVec.ofNat 32 (match postedOf off with
    | some b => s.postedRead p off b
    | none =>
      if off % 4 ≠ 0 then 0
      else if off < 0x10000 then s.glbRead p off
      else if off < 0x100000 then
        let t := (off - 0x10000) / 960
        if s.ownTenant p t then s.tptWord t ((off - 0x10000) % 960) else 0
      else if off < 0x180000 then
        let q := (off - 0x100000) / 64
        match s.pairOwner q with
        | some o => if o.port = p then s.queWord q (off % 64) else 0
        | none => 0
      else if 0x210000 ≤ off ∧ off < 0x300000 then s.keyRead p (off - 0x210000)
      else if 0x1000000 ≤ off ∧ off < 0x2000000 then s.bedRead p ((off - 0x1000000) / 0x40000) (off % 0x40000)
      else if 0x2000000 ≤ off ∧ off < 0x2480000 then s.bneRead p ((off - 0x2000000) / 0x10000) (off % 0x10000)
      else if 0x2800000 ≤ off ∧ off < 0x2810000 then s.digRead p ((off - 0x2800000) / 0x1000) (off % 0x1000)
      else if 0x3000000 ≤ off ∧ off < 0x4000000 then s.obsRead p (off - 0x3000000)
      else 0)

/-- VF_GRAINS: the tenant's grains that are present. -/
def State.vfGrains (s : State) (p v : Nat) : Nat :=
  match s.funcTenant p (v + 1) with
  | some t => ((List.range 1024).filter fun g => (s.tenant t).tpt.grains.testBit g && s.grainPresent g &&
      !(s.quad (g / 256)).failed).length
  | none => 0

/-- What VF `v` of port `p` reads at an offset of BAR0 (R43). -/
def State.vfRead (s : State) (p v off : Nat) : W32 :=
  let f := s.func (fnKey p (v + 1))
  BitVec.ofNat 32 (
    if 0x8000 ≤ off ∧ off < 0x8080 then f.msixWord 8 (off - 0x8000)
    else match off with
      | 0x1000 => s.sqWord (.vf p v)
      | 0x1010 => f.vfEpoch
      | 0x1014 => s.vfGrains p v
      | 0xC000 => word f.msixPending 0
      | 0xC004 => word f.msixPending 1
      | _ => 0)

end Sys2Proof.Machine
end

