-- ==== Sys2Proof/Machine/RegsWrite.lean ====
section
/-!
DEFINITION. Writes to registers that have no row of their own (R28, R29): queue pairs (R48), the dirty-page log (R84), MSI-X tables
(R43, R44), digest engines (R258), OBS_TRC_CTL (R471), the RW registers of posted blocks (R39, R297, R394, R445), the SR-IOV
capability (R72) and the power state (R69).
-/
namespace Sys2Proof.Machine

/-- A write to a function's MSI-X table; unmasking a vector whose pending bit is set sends its message (R44). -/
def State.msixWrite (s : State) (p f vectors off : Nat) (value : W32) : State :=
  let v := off / 16
  if vectors ≤ v ∨ off % 4 ≠ 0 then s
  else if off % 16 ≠ 12 then s.modFunc (fnKey p f) fun x => { x with msixTable := x.msixTable.set off value 0 }
  else if value.getLsbD 0 then s.modFunc (fnKey p f) fun x => { x with msixMasked := x.msixMasked ||| 2 ^ v }
  else
    let due := (s.func (fnKey p f)).msixPending.testBit v
    let s := s.modFunc (fnKey p f) fun x =>
      { x with
        msixMasked := x.msixMasked - (if x.msixMasked.testBit v then 2 ^ v else 0)
        msixPending := x.msixPending - (if x.msixPending.testBit v then 2 ^ v else 0) }
    if due then s.emit (.msix p f v) else s

/-- A posted block takes writes of PF `p` (R42): LCS and RNG are seen by every PF, but their writable registers by the management
PF only. -/
def State.postedWritable (s : State) (p : Nat) : Bool := decide (p = s.mgmt)

/-- A write of PF `p` to BAR0. -/
def State.pfWrite (s : State) (p off : Nat) (value : W32) : State :=
  if (postedOf off).isSome then if s.postedWritable p && decide (off < 0x2810000) then s.post p off value else s
  else if 0x1000 ≤ off ∧ off < 0x5000 then
    let v := (off - 0x1000) / 16
    if v < s.vfCount p then s.dlogRegister p v (off % 16) value else s
  else if 0xD000 ≤ off ∧ off < 0xD400 then s.msixWrite p 0 64 (off - 0xD000) value
  else if 0x100000 ≤ off ∧ off < 0x180000 then s.queueRegister p ((off - 0x100000) / 64) (off % 64) value
  else if 0x2800000 ≤ off ∧ off < 0x2810000 then
    let e := (off - 0x2800000) / 0x1000
    if s.digOwned (.pf p) e then s.digRegister e (off % 0x1000) value else s
  else if off = 0x3000100 then if p = s.mgmt then s.modObs fun o => { o with trcCtl := bits value.toNat 7 0 } else s
  else s

/-- A write of a VF to its BAR0. -/
def State.vfWrite (s : State) (p v off : Nat) (value : W32) : State :=
  if 0x8000 ≤ off ∧ off < 0x8080 then s.msixWrite p (v + 1) 8 (off - 0x8000) value else s

/-- A write of a loam core: the windows of the Secure Executive's digest engines. -/
def State.loamWrite (s : State) (r : Requester) (off : Nat) (value : W32) : State :=
  if 0x2800000 ≤ off ∧ off < 0x2812000 then
    let e := (off - 0x2800000) / 0x1000
    if s.digOwned r e then s.digRegister e (off % 0x1000) value else s
  else s

/-- REGISTER_WRITE. -/
def execRegisterWrite (r : Requester) (t : WriteTarget) (s : State) : Result :=
  .next (
    if !s.live r then s
    else match t, r with
      | .bar off value, .pf p => (s.noteWrite r).pfWrite p off value
      | .bar off value, .vf p v => (s.noteWrite r).vfWrite p v off value
      | .bar off value, .loam _ => (s.noteWrite r).loamWrite r off value
      | .numVFs n, .pf p =>
        if (s.port p).vfEnable ∨ s.vfCount p < n then s else s.modPort p fun x => { x with numVFs := n }
      | .vfEnable on, .pf p => s.modPort p fun x => { x with vfEnable := on }
      | .power p f on, .pf q =>
        if q = p ∧ f ≤ (s.port p).numVFs then s.modFunc (fnKey p f) fun x => { x with d3hot := on } else s
      | _, _ => s)

/-- What a posted write does when it is applied. -/
def State.applyPosted (s : State) (off : Nat) (value : W32) : State :=
  let test := s.life.state = .testUnlocked
  match off with
  | 0x200500 => s.writeRngTest value
  | 0x200504 =>
    if test then s.modRng fun r => { r with testSeed := BitVec.ofNat 64 (r.testSeed.toNat / 2 ^ 32 * 2 ^ 32 + value.toNat) } else s
  | 0x200508 =>
    if test then s.modRng fun r => { r with testSeed := BitVec.ofNat 64 (value.toNat * 2 ^ 32 + r.testSeed.toNat % 2 ^ 32) } else s
  | 0x300040 => s.modPgd fun g => { g with tblIdx := bits value.toNat 14 0 }
  | 0x400030 => s.modHzn fun h => { h with win := BitVec.ofNat 64 (h.win.toNat / 2 ^ 32 * 2 ^ 32 + value.toNat) }
  | 0x400034 => s.modHzn fun h => { h with win := BitVec.ofNat 64 (value.toNat * 2 ^ 32 + h.win.toNat % 2 ^ 32) }
  | _ => s

/-- POSTED_WRITE_APPLIED: the write that a block holds is applied, and BUSY clears (R39). -/
def execPostedWriteApplied (block : PostedBlock) (s : State) : Result :=
  .next (match (s.postedBlock block).held with
    | none => s
    | some (off, _, value) =>
      if s.glb.linkDown then s
      else (s.modPosted block fun x => { x with busy := false, held := none }).applyPosted off value)

end Sys2Proof.Machine
end

