-- ==== Sys2Proof/Machine/Requests.lean ====
section
/-!
DEFINITION. The manager's requests: who may send them (R369, R391, R427, R429, R456), LOG_FULL and the log (R80, R437, R442),
owner ceremonies (R459) and what each request does.
-/
namespace Sys2Proof.Machine

/-! Requests as they are logged. -/

/-- Request codes (R37, R80, R315, R367, R391, R403, R416, R439, R440, R456). -/
def reqCode : MgrReq → Nat
  | .tenantSet .. => 0x01 | .quiesce .. => 0x02 | .resume .. => 0x03 | .removeArm .. => 0x04 | .migrateExport .. => 0x05
  | .migrateImport .. => 0x06 | .slotAssign .. => 0x07 | .budgetLower .. => 0x08 | .destroyArm .. => 0x09
  | .imageBegin .. => 0x0A | .imageData .. => 0x0B | .imageCommit => 0x0C | .imageActivate .. => 0x0D | .revokeArm .. => 0x0E
  | .sieveSet .. => 0x0F | .pgdArm .. => 0x10 | .platformCycle => 0x11 | .hostImageBegin .. => 0x12 | .hostImageData .. => 0x13
  | .hostImageCommit => 0x14 | .lcStage .. => 0x15 | .tamperArm .. => 0x16 | .checkpoint .. => 0x17 | .checkpointAck .. => 0x18
  | .timeSet .. => 0x19 | .logRead .. => 0x1A | .keyUsage .. => 0x1A | .uncMkeyNew => 0x1C | .uncMkeyJoin .. => 0x1C
  | .uncEpoch .. => 0x1D | .ceremonyApprove .. => 0x1E | .uncReenumerate => 0x1F | .globalArm .. => 0x20

/-- The target of a request in PRIV_REQUEST: what its first field names. -/
def reqTarget : MgrReq → Nat
  | .tenantSet t _ => t | .quiesce t => t | .resume t => t | .removeArm t _ => t | .migrateExport t .. => t
  | .migrateImport t _ => t | .slotAssign k .. => k | .budgetLower k _ => k | .destroyArm k _ => k | .imageBegin i _ => i
  | .imageData off _ => off | .imageCommit => 0 | .imageActivate p _ => p | .revokeArm k _ => k
  | .sieveSet (.opcode c n _) => 256 * c + n | .sieveSet (.rule r ..) => r
  | .pgdArm off _ => off | .platformCycle => 0 | .hostImageBegin c .. => c | .hostImageData off _ => off | .hostImageCommit => 0
  | .lcStage r => field r 0x0C 4 | .tamperArm off _ => off | .checkpoint n => n | .checkpointAck n _ => n
  | .timeSet o => o.toNat | .logRead n _ => n | .keyUsage k _ => k | .uncMkeyNew => 0 | .uncMkeyJoin l _ => l
  | .uncEpoch t => t | .ceremonyApprove id .. => id | .uncReenumerate => 0 | .globalArm off _ => off

/-- Requests that LOG_FULL does not refuse, and that leave no PRIV_REQUEST (R440). -/
def reqOfLog : MgrReq → Bool
  | .checkpoint _ | .checkpointAck .. | .logRead .. | .keyUsage .. => true
  | _ => false

/-- Requests that the guard takes without a session (R391). -/
def reqOfHostImage : MgrReq → Bool
  | .hostImageBegin .. | .hostImageData .. | .hostImageCommit => true
  | _ => false

/-- Requests of the fallow service (R369). -/
def reqOfImage : MgrReq → Bool
  | .imageBegin .. | .imageData .. | .imageCommit => true
  | _ => false

/-- The entry of type PRIV_REQUEST (R437, R505); `ceremony` marks the completion of one. -/
def State.logRequest (s : State) (v : Via) (r : MgrReq) (status : Nat) (ceremony : Bool) : State :=
  s.log 0x1001 (leBytes 2 (reqCode r) ++ leBytes 2 status ++ leBytes 1 (viaPort v) ++
    leBytes 1 (if ceremony then 4 else viaTransport v) ++ leBytes 2 0 ++ leBytes 8 (reqTarget r))

/-! What a request does. -/

/-- The pairs that GLOBAL_ARM arms (R37). -/
def globalPair (off : Nat) : W32 → State → State × GuardResult :=
  if off = gdEpoch then epochPair off else if off = gdReset then resetPair off else srcSelPair off

/-- GLOBAL_ARM. -/
def State.globalArm (s : State) (v : Via) (off : Nat) (value : W32) : State × Answer :=
  if [gdEpoch, gdReset, gdSrcSel].contains off then s.arm v off value globalPair else (s, .no Status.inputInvalid)

/-- A request other than an approval is applied. -/
def State.applyRequest (s : State) (v : Via) (r : MgrReq) : State × Answer :=
  match r with
  | .tenantSet t f => s.tenantSet t f
  | .quiesce t => s.quiesce v t
  | .resume t => s.resume t
  | .removeArm t value => s.removeArm v t value
  | .migrateExport t addr len accepted => s.migrateExport t addr len accepted
  | .migrateImport t blob => s.migrateImport t blob
  | .slotAssign k owner system => s.slotAssign k owner system
  | .budgetLower k b => s.budgetLower v k b
  | .destroyArm k value => s.destroyArm v k value
  | .imageBegin target len => s.imageBegin target len
  | .imageData off bytes => s.imageData off bytes
  | .imageCommit => s.imageCommit
  | .imageActivate primary raiseSvn => s.imageActivate primary raiseSvn
  | .revokeArm k value => s.revokeArm v k value
  | .sieveSet e => s.sieveSet e
  | .pgdArm off value => s.pgdArm v off value
  | .platformCycle => s.platformCycle
  | .hostImageBegin c target len => s.hostImageBegin v c target len
  | .hostImageData off bytes => s.hostImageData v off bytes
  | .hostImageCommit => s.hostImageCommit v
  | .lcStage request => s.lcStage v request
  | .tamperArm off value => s.tamperArm v off value
  | .checkpoint seq => s.checkpoint seq
  | .checkpointAck seq digest => s.checkpointAck seq digest
  | .timeSet offset => (s.setOffset offset, .ok)
  | .logRead seq count => s.logRead seq count
  | .keyUsage first count => s.keyUsage first count
  | .uncMkeyNew => s.uncMkeyNew
  | .uncMkeyJoin leader reachable => s.uncMkeyJoin leader reachable
  | .uncEpoch target => s.uncEpoch target
  | .ceremonyApprove .. => (s, .no Status.inputInvalid)
  | .uncReenumerate => s.uncReenumerate
  | .globalArm off value => s.globalArm v off value

/-- The status that an answer is logged with; one that comes later is accepted. -/
def Answer.status : Answer → Nat
  | .now status _ => status
  | .later => Status.ok

/-! Ceremonies. -/

/-- The request is ceremonial (R459). An approval is none itself. -/
def State.ceremonial (s : State) (r : MgrReq) : Bool :=
  !s.tilth.uncel.officers.isEmpty && s.tilth.uncel.ceremonyMask.testBit ((reqCode r) - 1) && decide ((reqCode r) ≠ 0x1E)

/-- A ceremonial request opens a ceremony and is not executed. -/
def State.openCeremony (s : State) (r : MgrReq) : State × Answer :=
  if s.uncel.ceremony.isSome then (s, .no Status.tenantBusy)
  else
    let s := s.tick
    let id := s.uncel.ceremonies % 65536
    (s.modUncel fun u => { u with
      ceremonies := u.ceremonies + 1, ceremony := some { id := id, request := r, officers := [], opened := s.rtc } },
     .now Status.ok (leBytes 2 id))

/-- The message that an officer signs. -/
def State.officerMessage (s : State) (c : Ceremony) : List Byte :=
  ascii "IXCM-SIGN" ++ leBytes 16 s.uid ++ leBytes 2 c.id ++ sha3_256 (Config.requestBody c.request)

/-- M approvals execute the request and log its result. -/
def State.completeCeremony (s : State) (v : Via) (c : Ceremony) : State :=
  let s := s.modUncel fun u => { u with ceremony := none }
  let x := s.applyRequest v c.request
  (x.1.logRequest v c.request x.2.status true).event .unc uncCeremonyDone

/-- CEREMONY_APPROVE: an approval for another device is forwarded; one for this device is verified and counted once for each
officer. -/
def State.approve (s : State) (v : Via) (id target officer : Nat) (signature : List Byte) : State × Answer :=
  if target ≠ s.ownAddr then (s.emit (.approval target id officer signature), .ok)
  else match s.uncel.ceremony with
    | none => (s, .no Status.inputInvalid)
    | some c =>
      match s.tilth.uncel.officers[officer]? with
      | none => (s, .no Status.inputInvalid)
      | some key =>
        if c.id ≠ id then (s, .no Status.inputInvalid)
        else if !mlOk key (s.officerMessage c) signature then (s, .no Status.verifyFail)
        else
          let c := if c.officers.contains officer then c else { c with officers := c.officers ++ [officer] }
          if s.tilth.uncel.approvals ≤ c.officers.length then (s.completeCeremony v c, .ok)
          else (s.modUncel fun u => { u with ceremony := some c }, .ok)

/-! Who may send. -/

/-- Messages arrive on a transport: its port is live, an admin job waits for its answer, the target is served. -/
def State.viaLive (s : State) (v : Via) : Bool :=
  match v.transport with
  | .vdm p => s.pfLive p
  | .admin p => s.pfLive p && (s.adminJob p).isSome
  | .i3c => s.i3cOn
  | .uncel => s.uncelOn false && s.uncel.addr.isSome
  | .tap => false

/-- The session that a request came in, on its own transport and established. -/
def State.sessionOf (s : State) (v : Via) : Option (Nat × Session) :=
  match v.session with
  | none => none
  | some n => match s.spdm.sessions.find? n with
    | some x => if x.transport = v.transport ∧ x.established then some (n, x) else none
    | none => none

/-- A request has followed FINISH in the session. -/
def State.markStarted (s : State) (v : Via) : State :=
  match v.session with
  | some n => match s.spdm.sessions.find? n with
    | some x => s.modSpdm fun d => { d with sessions := d.sessions.insert n { x with started := true } }
    | none => s
  | none => s

/-- A request may be sent: in a manager session, or without a session where a rule says so. -/
def State.mayRequest (s : State) (v : Via) (r : MgrReq) : Bool :=
  match s.sessionOf v with
  | some (_, x) => x.manager
  | none => decide (v.session = none) && ((reqOfHostImage r) || (decide ((reqCode r) = 0x1E) && decide (v.transport = .uncel)))

/-- Apply a request that is admitted, log it and answer it. -/
def State.runRequest (s : State) (v : Via) (r : MgrReq) : State :=
  let x := match r with
    | .ceremonyApprove id target officer signature => s.approve v id target officer signature
    | _ => if s.ceremonial r then s.openCeremony r else s.applyRequest v r
  let s := if (reqOfLog r) then x.1 else x.1.logRequest v r x.2.status false
  match x.2 with
  | .now status payload => (s.respond v status payload).runDue
  | .later => s.runDue

/-- A service of the immutable boot code takes image requests in fallow mode, and no other (R369, R427). -/
def State.serviceRequest (s : State) (v : Via) (r : MgrReq) : State :=
  if s.power.phase = .fallow ∧ (reqOfImage r) then
    match s.applyRequest v r with
    | (s, .now status payload) => s.respond v status payload
    | (s, .later) => s
  else s.respond v Status.opcodeDenied []

/-- A request of the tables arrives. -/
def State.request (s : State) (v : Via) (r : MgrReq) : State :=
  if !s.viaLive v then s
  else match s.power.phase with
    | .fallow | .lockService | .factory => s.serviceRequest v r
    | .gateOpen =>
      let s := s.markStarted v
      if !s.mayRequest v r then s.respond v Status.opcodeDenied []
      else if s.glb.logFull && !(reqOfLog r) then s.respond v Status.logFull []
      else s.runRequest v r
    | _ => s

/-! The requests. -/

/-- TENANT_SET (0x01). -/
def execTenantSet (v : Via) (t : Nat) (f : TptFields) (s : State) : Result := .next (s.request v (.tenantSet t f))
/-- QUIESCE (0x02). -/
def execQuiesce (v : Via) (t : Nat) (s : State) : Result := .next (s.request v (.quiesce t))
/-- RESUME (0x03). -/
def execResume (v : Via) (t : Nat) (s : State) : Result := .next (s.request v (.resume t))
/-- REMOVE_ARM (0x04). -/
def execRemoveArm (v : Via) (t : Nat) (value : W32) (s : State) : Result := .next (s.request v (.removeArm t value))
/-- MIGRATE_EXPORT (0x05). -/
def execMigrateExport (v : Via) (t addr len : Nat) (accepted : Bool) (s : State) : Result :=
  .next (s.request v (.migrateExport t addr len accepted))
/-- MIGRATE_IMPORT (0x06). -/
def execMigrateImport (v : Via) (t : Nat) (blob : List Byte) (s : State) : Result := .next (s.request v (.migrateImport t blob))
/-- SLOT_ASSIGN (0x07). -/
def execSlotAssign (v : Via) (slot owner : Nat) (system : Bool) (s : State) : Result :=
  .next (s.request v (.slotAssign slot owner system))
/-- BUDGET_LOWER (0x08). -/
def execBudgetLower (v : Via) (slot budget : Nat) (s : State) : Result := .next (s.request v (.budgetLower slot budget))
/-- DESTROY_ARM (0x09). -/
def execDestroyArm (v : Via) (slot : Nat) (value : W32) (s : State) : Result := .next (s.request v (.destroyArm slot value))
/-- IMAGE_BEGIN (0x0A). -/
def execImageBegin (v : Via) (target len : Nat) (s : State) : Result := .next (s.request v (.imageBegin target len))
/-- IMAGE_DATA (0x0B). -/
def execImageData (v : Via) (off : Nat) (bytes : List Byte) (s : State) : Result := .next (s.request v (.imageData off bytes))
/-- IMAGE_COMMIT (0x0C). -/
def execImageCommit (v : Via) (s : State) : Result := .next (s.request v .imageCommit)
/-- IMAGE_ACTIVATE (0x0D). -/
def execImageActivate (v : Via) (primary : Nat) (raiseSvn : Bool) (s : State) : Result :=
  .next (s.request v (.imageActivate primary raiseSvn))
/-- REVOKE_ARM (0x0E). -/
def execRevokeArm (v : Via) (entry : Nat) (value : W32) (s : State) : Result := .next (s.request v (.revokeArm entry value))
/-- SIEVE_SET (0x0F). -/
def execSieveSet (v : Via) (e : SieveEntry) (s : State) : Result := .next (s.request v (.sieveSet e))
/-- PGD_ARM (0x10). -/
def execPgdArm (v : Via) (off : Nat) (value : W32) (s : State) : Result := .next (s.request v (.pgdArm off value))
/-- PLATFORM_CYCLE (0x11). -/
def execPlatformCycle (v : Via) (s : State) : Result := .next (s.request v .platformCycle)
/-- HOST_IMAGE_BEGIN (0x12). -/
def execHostImageBegin (v : Via) (channel target len : Nat) (s : State) : Result :=
  .next (s.request v (.hostImageBegin channel target len))
/-- HOST_IMAGE_DATA (0x13). -/
def execHostImageData (v : Via) (off : Nat) (bytes : List Byte) (s : State) : Result := .next (s.request v (.hostImageData off bytes))
/-- HOST_IMAGE_COMMIT (0x14). -/
def execHostImageCommit (v : Via) (s : State) : Result := .next (s.request v .hostImageCommit)
/-- LC_STAGE (0x15). -/
def execLcStage (v : Via) (request : List Byte) (s : State) : Result := .next (s.request v (.lcStage request))
/-- TAMPER_ARM (0x16). -/
def execTamperArm (v : Via) (off : Nat) (value : W32) (s : State) : Result := .next (s.request v (.tamperArm off value))
/-- CHECKPOINT (0x17). -/
def execCheckpoint (v : Via) (seq : Nat) (s : State) : Result := .next (s.request v (.checkpoint seq))
/-- CHECKPOINT_ACK (0x18). -/
def execCheckpointAck (v : Via) (seq : Nat) (digest : List Byte) (s : State) : Result :=
  .next (s.request v (.checkpointAck seq digest))
/-- TIME_SET (0x19). -/
def execTimeSet (v : Via) (offset : W64) (s : State) : Result := .next (s.request v (.timeSet offset))
/-- LOG_READ (0x1A). -/
def execLogRead (v : Via) (seq count : Nat) (s : State) : Result := .next (s.request v (.logRead seq count))
/-- KEY_USAGE (0x1A). -/
def execKeyUsage (v : Via) (first count : Nat) (s : State) : Result := .next (s.request v (.keyUsage first count))
/-- UNC_MKEY NEW (0x1C). -/
def execUncMkeyNew (v : Via) (s : State) : Result := .next (s.request v .uncMkeyNew)
/-- UNC_MKEY JOIN (0x1C). -/
def execUncMkeyJoin (v : Via) (leader : Nat) (reachable : Bool) (s : State) : Result :=
  .next (s.request v (.uncMkeyJoin leader reachable))
/-- UNC_EPOCH (0x1D). -/
def execUncEpoch (v : Via) (target : Nat) (s : State) : Result := .next (s.request v (.uncEpoch target))
/-- CEREMONY_APPROVE (0x1E). -/
def execCeremonyApprove (v : Via) (id target officer : Nat) (signature : List Byte) (s : State) : Result :=
  .next (s.request v (.ceremonyApprove id target officer signature))
/-- UNC_REENUMERATE (0x1F). -/
def execUncReenumerate (v : Via) (s : State) : Result := .next (s.request v .uncReenumerate)
/-- GLOBAL_ARM (0x20). -/
def execGlobalArm (v : Via) (off : Nat) (value : W32) (s : State) : Result := .next (s.request v (.globalArm off value))

end Sys2Proof.Machine
end

