-- ==== Sys2Proof/Machine/Spdm.lean ====
section
/-!
DEFINITION. The SPDM responder (R427 to R433): version, capabilities and algorithms, certificates, challenge, measurements,
sessions, chunks; MANAGER_BIND (R429), the interface report of TDISP (R75, R434), and Set Endpoint ID (R427).
-/
namespace Sys2Proof.Config

/-- The leaf key of a scheme in a requester's certificate chain (log entry 26). -/
opaque leafKey : Nat → List Byte → List Byte
/-- The MAC of FINISH matches the session's transcript (log entry 43). -/
opaque finishMac : List Byte → List Byte → Bool
/-- The bytes that one chunk of a large response carries (log entry 43). -/
opaque chunkBytes : Nat
/-- The bytes that the layout of a GET_CERTIFICATE response adds to its portion (log entry 43). -/
opaque certificateHeader : Nat
/-- The TDISP interface report from the numbers R75 lists and the device-specific area (log entry 31). -/
opaque interfaceReport : List Nat → List Byte → List Byte

end Sys2Proof.Config

namespace Sys2Proof.Machine

/-! Connections. -/

/-- The key of a transport in `Spdm.conns` and `Spdm.endpoints`. -/
def connKey (v : Via) : Nat :=
  match v.transport with | .vdm p => p | .admin p => 4 + p | .i3c => 8 | .uncel => 9 | .tap => 10

def State.conn (s : State) (v : Via) : Conn := s.spdm.conns.get (connKey v) {}
def State.modConn (s : State) (v : Via) (f : Conn → Conn) : State :=
  s.modSpdm fun d => { d with conns := d.conns.modify (connKey v) {} f }

def State.modSession (s : State) (n : Nat) (f : Session → Session) : State :=
  match s.spdm.sessions.find? n with
  | some x => s.modSpdm fun d => { d with sessions := d.sessions.insert n (f x) }
  | none => s

/-- A session ends. -/
def State.endSession (s : State) (n : Nat) : State := s.modSpdm fun d => { d with sessions := d.sessions.erase n }

/-- The session that a message names, if it names one, exists on its transport. -/
def State.viaKnown (s : State) (v : Via) : Bool :=
  match v.session with
  | none => true
  | some n => match s.spdm.sessions.find? n with | some x => decide (x.transport = v.transport) | none => false

/-- An SPDM request: the services of the immutable boot code support none (R427); the responder takes it once GET_VERSION,
GET_CAPABILITIES and NEGOTIATE_ALGORITHMS have come as far as it needs. -/
def State.spdmRequest (s : State) (v : Via) (need : Nat) (f : State → State) : State :=
  if !s.viaLive v || !s.viaKnown v then s
  else match s.power.phase with
    | .fallow | .lockService | .factory | .scrapped => s.sendSpdm v (.error .unsupportedRequest)
    | .gateOpen =>
      let s := s.markStarted v
      if (s.conn v).phase < need then s.sendSpdm v (.error .unexpectedRequest) else f s
    | _ => s

/-- A response that the Alias key signs (R431). -/
def State.signedReply (s : State) (v : Via) (r : List Byte → SpdmReply) : State :=
  if s.vault.aliasKey then s.spend.sendSpdm v (r s.aliasSign) else s.sendSpdm v (.error .unspecified)

/-- The digest of a connection's hash algorithm. -/
def hashOf (sha3_ : Bool) (b : List Byte) : List Byte := if sha3_ then sha3 48 b else sha2 2 b

/-! Version, capabilities, algorithms (R430). -/

/-- SPDM 1.2 and 1.3, as the standard codes them. -/
def spdmVersions : List Nat := [0x12, 0x13]

/-- GET_VERSION: the connection starts anew. -/
def execGetVersion (v : Via) (s : State) : Result :=
  .next (s.spdmRequest v 0 fun s =>
    if v.session.isSome then s.sendSpdm v (.error .unexpectedRequest)
    else (s.modConn v fun c => { phase := 1, getHandle := c.getHandle }).sendSpdm v (.version spdmVersions))

/-- GET_CAPABILITIES: the capability flags of R430, under a version that is supported. -/
def execGetCapabilities (v : Via) (version : Nat) (s : State) : Result :=
  .next (s.spdmRequest v 1 fun s =>
    if v.session.isSome ∨ (s.conn v).phase ≠ 1 then s.sendSpdm v (.error .unexpectedRequest)
    else if !spdmVersions.contains version then s.sendSpdm v (.error .versionMismatch)
    else (s.modConn v fun c => { c with phase := 2, version := version }).sendSpdm v .capabilities)

/-- The choice among SHA-384 and SHA3-384 of those offered: none, or whether SHA3-384; between both it is free. -/
def chooseHash (sha2_ sha3_ free : Bool) : Option Bool :=
  match sha2_, sha3_ with | true, true => some free | true, false => some false | false, true => some true | _, _ => none

/-- NEGOTIATE_ALGORITHMS: P-384, SHA-384 or SHA3-384 (R430), as the standard codes them (log entry 43). -/
def execNegotiateAlgorithms (v : Via) (asym hash measHash : Nat) (s : State) : Result :=
  .next (s.spdmRequest v 2 fun s =>
    if v.session.isSome ∨ (s.conn v).phase ≠ 2 then s.sendSpdm v (.error .unexpectedRequest)
    else
      let h := chooseHash (bit hash 1) (bit hash 4) (Config.freeBool s.free)
      let m := chooseHash (bit measHash 2) (bit measHash 5) (Config.freeBool (s.free + 1))
      let s := s.spend.spend
      match bit asym 7, h, m with
      | true, some h, some m =>
        (s.modConn v fun c => { c with phase := 3, hashSha3 := h, measSha3 := m }).sendSpdm v (.algorithms h m)
      | _, _, _ => s.sendSpdm v (.error .invalidRequest))

/-! Certificates (R432). -/

/-- GET_DIGESTS: slots 1 to 7 are empty. -/
def execGetDigests (v : Via) (s : State) : Result :=
  .next (s.spdmRequest v 3 fun s => s.sendSpdm v (.digests [(0, hashOf (s.conn v).hashSha3 s.chain0)]))

/-- GET_CERTIFICATE: a portion of the chain; one that an assembled message cannot hold is fetched in chunks (R427). -/
def execGetCertificate (v : Via) (slot off len : Nat) (s : State) : Result :=
  .next (s.spdmRequest v 3 fun s =>
    let chain := s.chain0
    let part := slice chain off (min len (chain.length - off))
    if slot ≠ 0 ∨ chain.length ≤ off then s.sendSpdm v (.error .invalidRequest)
    else if 8192 < Config.certificateHeader + part.length then
      let handle := (s.conn v).getHandle
      (s.modConn v fun c => { c with large := part, getHandle := c.getHandle + 1, getNext := 0 }).sendSpdm v
        (.error (.largeResponse handle))
    else s.sendSpdm v (.certificate part (chain.length - off - part.length)))

/-- CHALLENGE on slot 0: a hybrid-signed response (R431). -/
def execChallenge (v : Via) (slot : Nat) (s : State) : Result :=
  .next (s.spdmRequest v 3 fun s =>
    if slot ≠ 0 then s.sendSpdm v (.error .invalidRequest) else s.signedReply v .challengeAuth)

/-- The session is a manager session. -/
def State.managerVia (s : State) (v : Via) : Bool := match s.sessionOf v with | some (_, x) => x.manager | none => false

/-- SET_CERTIFICATE: the chain replaces the DeviceID certificate, and a fresh Alias certificate is appended. -/
def execSetCertificate (v : Via) (slot : Nat) (chain : List Byte) (s : State) : Result :=
  .next (s.spdmRequest v 3 fun s =>
    if !s.managerVia v ∨ slot ≠ 0 ∨ !Config.certifies s.deviceId chain then s.sendSpdm v (.error .invalidRequest)
    else ((s.modVault fun x => { x with deviceCert := chain }).newAlias).sendSpdm v .setCertificate)

/-! Measurements (R433). -/

/-- The opcode tables and rules of both channels as their registers hold them (R386, R394). -/
def State.sieveBytes (s : State) : List Byte :=
  ((List.range 512).flatMap fun i => leBytes 4 (s.opOf (i / 256) (i % 256)).toNat) ++
  ((List.range 256).flatMap fun r =>
    let x := s.pgd.rules.get r {}
    leBytes 4 x.base ++ leBytes 4 x.len ++ leBytes 4 x.ctl)

/-- Index 7 and 8: the serving image's manifest and its region. -/
def State.hostMeasure (s : State) (c : Nat) (h : List Byte → List Byte) : List Byte :=
  let x := s.chan c
  (if x.state = .serving ∧ x.serving.isSome then h x.raw else List.replicate 48 0#8) ++ leBytes 1 (x.serving.getD 3)

/-- A measurement under a digest. -/
def State.measurement (s : State) (h : List Byte → List Byte) (index : Nat) : List Byte :=
  let b := s.boot
  match index with
  | 1 => h Config.bootCode
  | 2 => h (s.sealedBytes b.running)
  | 3 => h (match (s.region b.running).header b.running with
      | some x => x.section_ (s.sealedBytes b.running) 2 | none => [])
  | 4 => h s.tilthBytes
  | 5 => h (leBytes 4 s.bootKeys ++ (List.range 8).flatMap fun k => padTo 32 (b.keys.get k []))
  | 6 => leBytes 4 (lcCode s.life.state) ++ leBytes 4 s.life.latch ++ leBytes 4 s.tamper.count
  | 7 => s.hostMeasure 0 h
  | 8 => s.hostMeasure 1 h
  | 9 => h s.sieveBytes
  | 10 => leBytes 1 b.svnFloor ++ leBytes 1 (s.region b.running).page.svn ++ leBytes 4 b.fwVersion
  | _ => []

/-- The blocks that an index asks for: one, all, or for index 0 their number. -/
def State.measureBlocks (s : State) (h : List Byte → List Byte) (index : Nat) : Option (List (Nat × List Byte)) :=
  if index = 0 then some [(0, [10#8])]
  else if index ≤ 10 then some [(index, s.measurement h index)]
  else if index = 0xFF then some ((List.range 10).map fun i => (i + 1, s.measurement h (i + 1)))
  else none

/-- GET_MEASUREMENTS. -/
def execGetMeasurements (v : Via) (index : Nat) (signed : Bool) (s : State) : Result :=
  .next (s.spdmRequest v 3 fun s =>
    match s.measureBlocks (hashOf (s.conn v).measSha3) index with
    | none => s.sendSpdm v (.error .invalidRequest)
    | some blocks => if signed then s.signedReply v (.measurements blocks) else s.sendSpdm v (.measurements blocks []))

/-! Sessions (R429). -/

/-- The sessions that share a transport's limit: those of its PF, or those of I3C or Uncel. -/
def State.sessionsBeside (s : State) (v : Via) : Nat :=
  (s.spdm.sessions.filter fun (_, x) => match viaPf v with
    | some p => decide (viaPf ⟨x.transport, none⟩ = some p)
    | none => decide (x.transport = v.transport)).length

/-- At most 8 sessions on a PF, and 4 on I3C and on Uncel. -/
def sessionLimit (v : Via) : Nat := if (viaPf v).isSome then 8 else 4

/-- KEY_EXCHANGE: a session opens. -/
def execKeyExchange (v : Via) (slot : Nat) (s : State) : Result :=
  .next (s.spdmRequest v 3 fun s =>
    if slot ≠ 0 ∨ v.session.isSome then s.sendSpdm v (.error .invalidRequest)
    else if sessionLimit v ≤ s.sessionsBeside v then s.sendSpdm v (.error .sessionLimitExceeded)
    else if !s.vault.aliasKey then s.sendSpdm v (.error .unspecified)
    else
      let n := s.spdm.nextSession
      let th := s.freeBytes 48
      let s := s.spend.modSpdm fun d =>
        { d with nextSession := n + 1, sessions := d.sessions.insert n { transport := v.transport, transcript := th } }
      s.signedReply v (.keyExchange n))

/-- The requester's part of FINISH holds: its MAC and, with mutual authentication, its chain and its signature. -/
def finishOk (x : Session) (chain : Option Chain) (signature mac : List Byte) : Bool :=
  Config.finishMac x.transcript mac && (match chain with
    | none => true
    | some c => Config.chainOk c.bytes && p384Ok (Config.leafKey schemeP384 c.bytes) x.transcript signature)

/-- FINISH: the session is established, or its handshake fails and it is gone. -/
def execFinish (v : Via) (n : Nat) (chain : Option Chain) (signature mac : List Byte) (s : State) : Result :=
  .next (s.spdmRequest v 3 fun s =>
    match s.spdm.sessions.find? n with
    | none => s.sendSpdm v (.error .invalidRequest)
    | some x =>
      if x.transport ≠ v.transport ∨ x.established then s.sendSpdm v (.error .unexpectedRequest)
      else if !finishOk x chain signature mac then (s.endSession n).sendSpdm v (.error .invalidRequest)
      else
        let th := s.freeBytes 48
        (s.spend.modSession n fun y => { y with established := true, started := false, chain := chain, transcript := th }).sendSpdm v
          .finish)

/-- A request that stands inside an established session only. -/
def State.inSession (s : State) (v : Via) (f : Nat → State → State) : State :=
  s.spdmRequest v 3 fun s =>
    match s.sessionOf v with
    | some (n, _) => f n s
    | none => s.sendSpdm v (.error .unexpectedRequest)

/-- HEARTBEAT. -/
def execHeartbeat (v : Via) (s : State) : Result := .next (s.inSession v fun _ s => s.sendSpdm v .heartbeatAck)

/-- HEARTBEAT_TIMEOUT: the heartbeat of an established session is lost, and it ends. -/
def execHeartbeatTimeout (n : Nat) (s : State) : Result :=
  .next (match s.spdm.sessions.find? n with
    | some x => if x.established then s.endSession n else s
    | none => s)

/-- KEY_UPDATE. -/
def execKeyUpdate (v : Via) (s : State) : Result :=
  .next (s.inSession v fun n s => (s.modSession n fun x => { x with updates := x.updates + 1 }).sendSpdm v .keyUpdateAck)

/-- END_SESSION. -/
def execEndSession (v : Via) (s : State) : Result :=
  .next (s.inSession v fun n s => (s.endSession n).sendSpdm v .endSessionAck)

/-- The chain roots in a key that may sign tilth records (R351, R429). -/
def State.managerChain (s : State) (c : Chain) : Bool :=
  (List.range 8).any fun k => s.tilthSigner k && decide (s.boot.keys.get k [] = sha3_256 (c.rootKey ++ c.hssKey))

/-- MANAGER_BIND in a session: the result, and whether the session is a manager session now. -/
def State.bindResult (s : State) (x : Session) (signature : List Byte) : Nat :=
  match x.chain with
  | none => Status.opcodeDenied
  | some c =>
    if x.started ∨ !s.managerChain c then Status.opcodeDenied
    else if !mlOk (Config.leafKey schemeMl c.bytes) x.transcript signature then Status.verifyFail
    else Status.ok

/-- MANAGER_BIND (0x1B). -/
def execManagerBind (v : Via) (signature : List Byte) (s : State) : Result :=
  .next (
    if !s.viaLive v || !s.viaKnown v then s
    else match s.power.phase with
      | .fallow | .lockService | .factory => s.respond v Status.opcodeDenied []
      | .gateOpen => match s.sessionOf v with
        | none => s.respond v Status.opcodeDenied []
        | some (n, x) =>
          let status := s.bindResult x signature
          (s.modSession n fun y =>
            { y with started := true, manager := y.manager || decide (status = Status.ok) }).respond v status []
      | _ => s)

/-! Chunks (R427). -/

/-- CHUNK_SEND: a chunk of a large request; the request that the chunks make up follows as its own command when the last has
come. -/
def execChunkSend (v : Via) (handle seq : Nat) (last : Bool) (bytes : List Byte) (s : State) : Result :=
  .next (s.spdmRequest v 3 fun s =>
    let c := s.conn v
    if seq = 0 then
      (s.modConn v fun c => { c with sendHandle := handle, sendNext := if last then 0 else 1, received := bytes }).sendSpdm v
        (.chunkSendAck 0)
    else if c.sendNext ≠ seq ∨ c.sendHandle ≠ handle then
      (s.modConn v fun c => { c with sendNext := 0, received := [] }).sendSpdm v (.error .invalidRequest)
    else
      (s.modConn v fun c => { c with sendNext := if last then 0 else seq + 1, received := c.received ++ bytes }).sendSpdm v
        (.chunkSendAck seq))

/-- CHUNK_GET: the next chunk of the large response. -/
def execChunkGet (v : Via) (handle seq : Nat) (s : State) : Result :=
  .next (s.spdmRequest v 3 fun s =>
    let c := s.conn v
    if c.large = [] then s.sendSpdm v (.error .unexpectedRequest)
    else if c.getNext ≠ seq ∨ c.getHandle ≠ handle + 1 then s.sendSpdm v (.error .invalidRequest)
    else
      let n := max 1 Config.chunkBytes
      (s.modConn v fun c => { c with large := c.large.drop n, getNext := seq + 1 }).sendSpdm v
        (.chunk seq (decide (c.large.length ≤ n)) (c.large.take n)))

/-! TDISP (R75, R434) and MCTP control (R427). -/

/-- The device-specific area of an interface report. -/
def State.reportArea (s : State) (t : Nat) : List Byte :=
  let e := (s.tenant t).tpt
  leBytes 2 t ++ leBytes 1 (ofBool e.isolated) ++ leBytes 2 ((List.range 1024).filter e.grains.testBit).length ++
    leBytes 4 s.glb.epoch ++ s.measurement (sha2 2) 2

/-- The numbers of an interface report: the VF's rings with their sizes, the tenant, ISOLATED and the grains. -/
def State.reportNumbers (s : State) (p vf t : Nat) : List Nat :=
  let e := (s.tenant t).tpt
  [p, vf, t, ofBool e.isolated, ((List.range 1024).filter e.grains.testBit).length] ++
  (s.functionPairs p (vf + 1)).flatMap fun q =>
    let x := s.queue q
    [x.sqb.toNat, x.sqLog2, x.cqb.toNat, x.cqLog2]

/-- GET_DEVICE_INTERFACE_REPORT: a locked or running VF's report (the states are the standard's: log entry 31). -/
def execGetDeviceInterfaceReport (v : Via) (vf : Nat) (s : State) : Result :=
  .next (match s.tdispPort v vf with
    | none => s.sendSpdm v (.error .unexpectedRequest)
    | some p =>
      let x := (s.func (fnKey p (vf + 1))).tdisp
      match s.funcTenant p (vf + 1) with
      | none => s.sendSpdm v (.error .invalidRequest)
      | some t =>
        if x ≠ .configLocked ∧ x ≠ .run then s.sendSpdm v (.error .invalidRequest)
        else s.sendSpdm v (.interfaceReport (Config.interfaceReport (s.reportNumbers p vf t) (s.reportArea t))))

/-- SET_ENDPOINT_ID: the endpoint ID of a PF, of the I3C target or of the Uncel endpoint; an admin queue has none, and the
reserved IDs of MCTP are refused (log entry 43). -/
def execSetEndpointId (v : Via) (eid : Nat) (s : State) : Result :=
  .next (
    if !s.viaLive v then s
    else match v.transport with
      | .admin _ => s.sendSpdm v (.error .unsupportedRequest)
      | _ =>
        if eid < 8 ∨ 254 < eid then s.sendSpdm v (.error .invalidRequest)
        else (s.modSpdm fun d => { d with endpoints := d.endpoints.insert (connKey v) eid }).sendSpdm v (.endpointSet eid))

end Sys2Proof.Machine
end

