-- ==== Sys2Proof/Machine/Dispatch.lean ====
section
/-!
DEFINITION. The dispatch of a command to its meaning, one arm for each command.
-/
namespace Sys2Proof.Machine

/-- The effect of a command on everything but the queue. -/
def exec (i : Instr) (s : State) : Host.Outcome State Fault Refusal :=
  match i with
  | .dieLinkIntegrityEvent => Sys2Proof.Machine.execDieLinkIntegrityEvent s
  | .zeroizeRequest => Sys2Proof.Machine.execZeroizeRequest s
  | .zeroizeScrubDone store => Sys2Proof.Machine.execZeroizeScrubDone store s
  | .sqAcknowledge r reg value => Sys2Proof.Machine.execSqAcknowledge r reg value s
  | .sqPendingIncrement reg => Sys2Proof.Machine.execSqPendingIncrement reg s
  | .guardFirstWrite r off value => Sys2Proof.Machine.execGuardFirstWrite r off value s
  | .guardPairTimeout r => Sys2Proof.Machine.execGuardPairTimeout r s
  | .armingLapse p => Sys2Proof.Machine.execArmingLapse p s
  | .postedWrite p off value => Sys2Proof.Machine.execPostedWrite p off value s
  | .postedWriteApplied block => Sys2Proof.Machine.execPostedWriteApplied block s
  | .registerWrite r t => Sys2Proof.Machine.execRegisterWrite r t s
  | .glbEpochRaise r off complement => Sys2Proof.Machine.execGlbEpochRaise r off complement s
  | .glbReset r off complement => Sys2Proof.Machine.execGlbReset r off complement s
  | .glbTenantRemove r off complement => Sys2Proof.Machine.execGlbTenantRemove r off complement s
  | .tenantRemoveDone t => Sys2Proof.Machine.execTenantRemoveDone t s
  | .keySlotDestroy r off complement => Sys2Proof.Machine.execKeySlotDestroy r off complement s
  | .slotDestroyDone slot => Sys2Proof.Machine.execSlotDestroyDone slot s
  | .bootRevoke r off complement => Sys2Proof.Machine.execBootRevoke r off complement s
  | .pgdHoldAssert r off complement => Sys2Proof.Machine.execPgdHoldAssert r off complement s
  | .pgdHoldRelease r off complement => Sys2Proof.Machine.execPgdHoldRelease r off complement s
  | .pgdSieveEn r off complement => Sys2Proof.Machine.execPgdSieveEn r off complement s
  | .pgdUpdWin r off complement => Sys2Proof.Machine.execPgdUpdWin r off complement s
  | .tmpCfgs r off complement => Sys2Proof.Machine.execTmpCfgs r off complement s
  | .lcsReq r off complement => Sys2Proof.Machine.execLcsReq r off complement s
  | .rngSrcSel r off complement => Sys2Proof.Machine.execRngSrcSel r off complement s
  | .queueEnable p q ctl => Sys2Proof.Machine.execQueueEnable p q ctl s
  | .queueDisable p q ctl => Sys2Proof.Machine.execQueueDisable p q ctl s
  | .queueDrainDone q => Sys2Proof.Machine.execQueueDrainDone q s
  | .sqTailDoorbell p f k value accepted => Sys2Proof.Machine.execSqTailDoorbell p f k value accepted s
  | .cqHeadDoorbell p f k value accepted => Sys2Proof.Machine.execCqHeadDoorbell p f k value accepted s
  | .descriptorFetch q data => Sys2Proof.Machine.execDescriptorFetch q data s
  | .jobPlacement q => Sys2Proof.Machine.execJobPlacement q s
  | .keyStage j blob => Sys2Proof.Machine.execKeyStage j blob s
  | .inputDmaDone j inList data => Sys2Proof.Machine.execInputDmaDone j inList data s
  | .outputStageDone j outList accepted ring => Sys2Proof.Machine.execOutputStageDone j outList accepted ring s
  | .irqCoalesceTimeout q => Sys2Proof.Machine.execIrqCoalesceTimeout q s
  | .msixVectorUnmask p f v => Sys2Proof.Machine.execMsixVectorUnmask p f v s
  | .dlogFlip p v value => Sys2Proof.Machine.execDlogFlip p v value s
  | .dlogFlipDone p v => Sys2Proof.Machine.execDlogFlipDone p v s
  | .perstAssert p => Sys2Proof.Machine.execPerstAssert p s
  | .functionLevelReset p f => Sys2Proof.Machine.execFunctionLevelReset p f s
  | .flrComplete p f => Sys2Proof.Machine.execFlrComplete p f s
  | .ideKmKeyProg v stream keySet key => Sys2Proof.Machine.execIdeKmKeyProg v stream keySet key s
  | .lockInterface v vf => Sys2Proof.Machine.execLockInterface v vf s
  | .startInterface v vf => Sys2Proof.Machine.execStartInterface v vf s
  | .stopInterface v vf => Sys2Proof.Machine.execStopInterface v vf s
  | .getDeviceInterfaceReport v vf => Sys2Proof.Machine.execGetDeviceInterfaceReport v vf s
  | .dmaFrameBoundary p => Sys2Proof.Machine.execDmaFrameBoundary p s
  | .linkRetrain p width rate => Sys2Proof.Machine.execLinkRetrain p width rate s
  | .tenantSet v t f => Sys2Proof.Machine.execTenantSet v t f s
  | .quiesce v t => Sys2Proof.Machine.execQuiesce v t s
  | .tenantDrained t => Sys2Proof.Machine.execTenantDrained t s
  | .resume v t => Sys2Proof.Machine.execResume v t s
  | .removeArm v t value => Sys2Proof.Machine.execRemoveArm v t value s
  | .migrateExport v t addr len accepted => Sys2Proof.Machine.execMigrateExport v t addr len accepted s
  | .migrateImport v t blob => Sys2Proof.Machine.execMigrateImport v t blob s
  | .globalArm v off value => Sys2Proof.Machine.execGlobalArm v off value s
  | .bedApplyDone b => Sys2Proof.Machine.execBedApplyDone b s
  | .bedGateOpen b => Sys2Proof.Machine.execBedGateOpen b s
  | .quadrantPllLock q => Sys2Proof.Machine.execQuadrantPllLock q s
  | .bedWakeDone b => Sys2Proof.Machine.execBedWakeDone b s
  | .bedIdleTimeout b => Sys2Proof.Machine.execBedIdleTimeout b s
  | .bedDormantEntryDone b => Sys2Proof.Machine.execBedDormantEntryDone b s
  | .quadrantPllUnlock q => Sys2Proof.Machine.execQuadrantPllUnlock q s
  | .pllRelockTimeout q => Sys2Proof.Machine.execPllRelockTimeout q s
  | .programLoadDone g => Sys2Proof.Machine.execProgramLoadDone g s
  | .grainScrubDone g => Sys2Proof.Machine.execGrainScrubDone g s
  | .cycleBoundReached g => Sys2Proof.Machine.execCycleBoundReached g s
  | .expanderSeedArrival g => Sys2Proof.Machine.execExpanderSeedArrival g s
  | .rngTimeout j => Sys2Proof.Machine.execRngTimeout j s
  | .csPatrolRead g word => Sys2Proof.Machine.execCsPatrolRead g word s
  | .csReloadDone g readBackOk => Sys2Proof.Machine.execCsReloadDone g readBackOk s
  | .add g w dst src1 src2 => Sys2Proof.Machine.execAdd g w dst src1 src2 s
  | .sub g w dst src1 src2 => Sys2Proof.Machine.execSub g w dst src1 src2 s
  | .and g dst src1 src2 => Sys2Proof.Machine.execAnd g dst src1 src2 s
  | .or g dst src1 src2 => Sys2Proof.Machine.execOr g dst src1 src2 s
  | .xor g dst src1 src2 => Sys2Proof.Machine.execXor g dst src1 src2 s
  | .andn g dst src1 src2 => Sys2Proof.Machine.execAndn g dst src1 src2 s
  | .sll g w dst src1 src2 => Sys2Proof.Machine.execSll g w dst src1 src2 s
  | .srl g w dst src1 src2 => Sys2Proof.Machine.execSrl g w dst src1 src2 s
  | .sra g w dst src1 src2 => Sys2Proof.Machine.execSra g w dst src1 src2 s
  | .rol g w dst src1 src2 => Sys2Proof.Machine.execRol g w dst src1 src2 s
  | .ror g w dst src1 src2 => Sys2Proof.Machine.execRor g w dst src1 src2 s
  | .slt g dst src1 src2 => Sys2Proof.Machine.execSlt g dst src1 src2 s
  | .sltu g dst src1 src2 => Sys2Proof.Machine.execSltu g dst src1 src2 s
  | .csel g dst src1 src2 => Sys2Proof.Machine.execCsel g dst src1 src2 s
  | .mul g w dst src1 src2 => Sys2Proof.Machine.execMul g w dst src1 src2 s
  | .mulhu g dst src1 src2 => Sys2Proof.Machine.execMulhu g dst src1 src2 s
  | .mulh g dst src1 src2 => Sys2Proof.Machine.execMulh g dst src1 src2 s
  | .divu g w dst src1 src2 => Sys2Proof.Machine.execDivu g w dst src1 src2 s
  | .remu g w dst src1 src2 => Sys2Proof.Machine.execRemu g w dst src1 src2 s
  | .sextb g dst src1 => Sys2Proof.Machine.execSextb g dst src1 s
  | .sexth g dst src1 => Sys2Proof.Machine.execSexth g dst src1 s
  | .sextw g dst src1 => Sys2Proof.Machine.execSextw g dst src1 s
  | .popcnt g dst src1 => Sys2Proof.Machine.execPopcnt g dst src1 s
  | .clz g dst src1 => Sys2Proof.Machine.execClz g dst src1 s
  | .jr g dst src1 => Sys2Proof.Machine.execJr g dst src1 s
  | .addi g dst src1 imm => Sys2Proof.Machine.execAddi g dst src1 imm s
  | .andi g dst src1 imm => Sys2Proof.Machine.execAndi g dst src1 imm s
  | .ori g dst src1 imm => Sys2Proof.Machine.execOri g dst src1 imm s
  | .xori g dst src1 imm => Sys2Proof.Machine.execXori g dst src1 imm s
  | .shi g dst src1 kind w amount => Sys2Proof.Machine.execShi g dst src1 kind w amount s
  | .movz g dst hw imm => Sys2Proof.Machine.execMovz g dst hw imm s
  | .movk g dst hw imm => Sys2Proof.Machine.execMovk g dst hw imm s
  | .ld g dst src1 imm ecc => Sys2Proof.Machine.execLd g dst src1 imm ecc s
  | .lw g dst src1 imm ecc => Sys2Proof.Machine.execLw g dst src1 imm ecc s
  | .lh g dst src1 imm ecc => Sys2Proof.Machine.execLh g dst src1 imm ecc s
  | .lb g dst src1 imm ecc => Sys2Proof.Machine.execLb g dst src1 imm ecc s
  | .sd g data src1 imm => Sys2Proof.Machine.execSd g data src1 imm s
  | .sw g data src1 imm => Sys2Proof.Machine.execSw g data src1 imm s
  | .sh g data src1 imm => Sys2Proof.Machine.execSh g data src1 imm s
  | .sb g data src1 imm => Sys2Proof.Machine.execSb g data src1 imm s
  | .fld g dst src1 imm ecc => Sys2Proof.Machine.execFld g dst src1 imm ecc s
  | .fsd g data src1 imm => Sys2Proof.Machine.execFsd g data src1 imm s
  | .sld g dst src1 imm ecc => Sys2Proof.Machine.execSld g dst src1 imm ecc s
  | .sst g data src1 imm => Sys2Proof.Machine.execSst g data src1 imm s
  | .beq g src1 src2 off => Sys2Proof.Machine.execBeq g src1 src2 off s
  | .bne g src1 src2 off => Sys2Proof.Machine.execBne g src1 src2 off s
  | .blt g src1 src2 off => Sys2Proof.Machine.execBlt g src1 src2 off s
  | .bge g src1 src2 off => Sys2Proof.Machine.execBge g src1 src2 off s
  | .bltu g src1 src2 off => Sys2Proof.Machine.execBltu g src1 src2 off s
  | .bgeu g src1 src2 off => Sys2Proof.Machine.execBgeu g src1 src2 off s
  | .jal g dst target => Sys2Proof.Machine.execJal g dst target s
  | .endJob g => Sys2Proof.Machine.execEndJob g s
  | .fadd g rm dst src1 src2 => Sys2Proof.Machine.execFadd g rm dst src1 src2 s
  | .fsub g rm dst src1 src2 => Sys2Proof.Machine.execFsub g rm dst src1 src2 s
  | .fmul g rm dst src1 src2 => Sys2Proof.Machine.execFmul g rm dst src1 src2 s
  | .fdiv g rm dst src1 src2 => Sys2Proof.Machine.execFdiv g rm dst src1 src2 s
  | .fsqrt g rm dst src1 => Sys2Proof.Machine.execFsqrt g rm dst src1 s
  | .fma g rm dst src1 src2 => Sys2Proof.Machine.execFma g rm dst src1 src2 s
  | .fmin g rm dst src1 src2 => Sys2Proof.Machine.execFmin g rm dst src1 src2 s
  | .fmax g rm dst src1 src2 => Sys2Proof.Machine.execFmax g rm dst src1 src2 s
  | .fneg g rm dst src1 => Sys2Proof.Machine.execFneg g rm dst src1 s
  | .fabs g rm dst src1 => Sys2Proof.Machine.execFabs g rm dst src1 s
  | .feq g rm dst src1 src2 => Sys2Proof.Machine.execFeq g rm dst src1 src2 s
  | .flt g rm dst src1 src2 => Sys2Proof.Machine.execFlt g rm dst src1 src2 s
  | .fle g rm dst src1 src2 => Sys2Proof.Machine.execFle g rm dst src1 src2 s
  | .fcvtld g rm dst src1 => Sys2Proof.Machine.execFcvtld g rm dst src1 s
  | .fcvtdl g rm dst src1 => Sys2Proof.Machine.execFcvtdl g rm dst src1 s
  | .fmvxd g rm dst src1 => Sys2Proof.Machine.execFmvxd g rm dst src1 s
  | .fmvdx g rm dst src1 => Sys2Proof.Machine.execFmvdx g rm dst src1 s
  | .svVadd g ew dst src1 src2 => Sys2Proof.Machine.execSvVadd g ew dst src1 src2 s
  | .svVsub g ew dst src1 src2 => Sys2Proof.Machine.execSvVsub g ew dst src1 src2 s
  | .svVand g ew dst src1 src2 => Sys2Proof.Machine.execSvVand g ew dst src1 src2 s
  | .svVor g ew dst src1 src2 => Sys2Proof.Machine.execSvVor g ew dst src1 src2 s
  | .svVxor g ew dst src1 src2 => Sys2Proof.Machine.execSvVxor g ew dst src1 src2 s
  | .svVandn g ew dst src1 src2 => Sys2Proof.Machine.execSvVandn g ew dst src1 src2 s
  | .svVshl g ew dst src1 src2 => Sys2Proof.Machine.execSvVshl g ew dst src1 src2 s
  | .svVsrl g ew dst src1 src2 => Sys2Proof.Machine.execSvVsrl g ew dst src1 src2 s
  | .svVsra g ew dst src1 src2 => Sys2Proof.Machine.execSvVsra g ew dst src1 src2 s
  | .svVcmpeq g ew dst src1 src2 => Sys2Proof.Machine.execSvVcmpeq g ew dst src1 src2 s
  | .svVcmpgt g ew dst src1 src2 => Sys2Proof.Machine.execSvVcmpgt g ew dst src1 src2 s
  | .svVsel g ew dst src1 src2 => Sys2Proof.Machine.execSvVsel g ew dst src1 src2 s
  | .svVmullo g ew dst src1 src2 => Sys2Proof.Machine.execSvVmullo g ew dst src1 src2 s
  | .svVmulhi g ew dst src1 src2 => Sys2Proof.Machine.execSvVmulhi g ew dst src1 src2 s
  | .svVpermb g ew dst src1 src2 => Sys2Proof.Machine.execSvVpermb g ew dst src1 src2 s
  | .svVsplat g ew dst src1 => Sys2Proof.Machine.execSvVsplat g ew dst src1 s
  | .svVins g ew dst src1 index => Sys2Proof.Machine.execSvVins g ew dst src1 index s
  | .svVext g ew dst src1 index => Sys2Proof.Machine.execSvVext g ew dst src1 index s
  | .shainit g variant => Sys2Proof.Machine.execShainit g variant s
  | .shablk g src1 => Sys2Proof.Machine.execShablk g src1 s
  | .shaout g src1 => Sys2Proof.Machine.execShaout g src1 s
  | .shald g src1 => Sys2Proof.Machine.execShald g src1 s
  | .aeskey g src1 kind => Sys2Proof.Machine.execAeskey g src1 kind s
  | .aeskeym g src1 kind => Sys2Proof.Machine.execAeskeym g src1 kind s
  | .aesenc g dst src1 => Sys2Proof.Machine.execAesenc g dst src1 s
  | .aesdec g dst src1 => Sys2Proof.Machine.execAesdec g dst src1 s
  | .aesencm g dst src1 => Sys2Proof.Machine.execAesencm g dst src1 s
  | .aesdecm g dst src1 => Sys2Proof.Machine.execAesdecm g dst src1 s
  | .tdeskey g src1 kind => Sys2Proof.Machine.execTdeskey g src1 kind s
  | .tdeskeym g src1 kind => Sys2Proof.Machine.execTdeskeym g src1 kind s
  | .tdesenc g dst src1 => Sys2Proof.Machine.execTdesenc g dst src1 s
  | .tdesdec g dst src1 => Sys2Proof.Machine.execTdesdec g dst src1 s
  | .tdesencm g dst src1 => Sys2Proof.Machine.execTdesencm g dst src1 s
  | .tdesdecm g dst src1 => Sys2Proof.Machine.execTdesdecm g dst src1 s
  | .kperm g src1 => Sys2Proof.Machine.execKperm g src1 s
  | .inpull g dst data => Sys2Proof.Machine.execInpull g dst data s
  | .outpush g dst src1 list accepted => Sys2Proof.Machine.execOutpush g dst src1 list accepted s
  | .bnput g src1 src2 index => Sys2Proof.Machine.execBnput g src1 src2 index s
  | .bnget g src1 src2 index => Sys2Proof.Machine.execBnget g src1 src2 index s
  | .bncmd g src1 src2 index => Sys2Proof.Machine.execBncmd g src1 src2 index s
  | .bngo g src1 src2 => Sys2Proof.Machine.execBngo g src1 src2 s
  | .bnwait g dst src2 => Sys2Proof.Machine.execBnwait g dst src2 s
  | .bnrel g src2 => Sys2Proof.Machine.execBnrel g src2 s
  | .csrr g dst csr => Sys2Proof.Machine.execCsrr g dst csr s
  | .csrw g src1 csr => Sys2Proof.Machine.execCsrw g src1 csr s
  | .vadd g o => Sys2Proof.Machine.execVadd g o s
  | .vsub g o => Sys2Proof.Machine.execVsub g o s
  | .vneg g o => Sys2Proof.Machine.execVneg g o s
  | .vcabs g o => Sys2Proof.Machine.execVcabs g o s
  | .vand g o => Sys2Proof.Machine.execVand g o s
  | .vor g o => Sys2Proof.Machine.execVor g o s
  | .vxor g o => Sys2Proof.Machine.execVxor g o s
  | .vandn g o => Sys2Proof.Machine.execVandn g o s
  | .vsll g o => Sys2Proof.Machine.execVsll g o s
  | .vsrl g o => Sys2Proof.Machine.execVsrl g o s
  | .vsra g o => Sys2Proof.Machine.execVsra g o s
  | .vcmpeq g o => Sys2Proof.Machine.execVcmpeq g o s
  | .vcmpltu g o => Sys2Proof.Machine.execVcmpltu g o s
  | .vcmpgeu g o => Sys2Proof.Machine.execVcmpgeu g o s
  | .vsel g o => Sys2Proof.Machine.execVsel g o s
  | .vsplat g o => Sys2Proof.Machine.execVsplat g o s
  | .vmul g o => Sys2Proof.Machine.execVmul g o s
  | .vmulm g o => Sys2Proof.Machine.execVmulm g o s
  | .vmac g o => Sys2Proof.Machine.execVmac g o s
  | .vmacm g o => Sys2Proof.Machine.execVmacm g o s
  | .vred g o => Sys2Proof.Machine.execVred g o s
  | .vkbmul g o => Sys2Proof.Machine.execVkbmul g o s
  | .vclmullo g o => Sys2Proof.Machine.execVclmullo g o s
  | .vclmulhi g o => Sys2Proof.Machine.execVclmulhi g o s
  | .vgfmul g o => Sys2Proof.Machine.execVgfmul g o s
  | .vgfinv g o trouble => Sys2Proof.Machine.execVgfinv g o trouble s
  | .vntts g o layer trouble => Sys2Proof.Machine.execVntts g o layer trouble s
  | .vintts g o layer trouble => Sys2Proof.Machine.execVintts g o layer trouble s
  | .vbfct g o wreg => Sys2Proof.Machine.execVbfct g o wreg s
  | .vbfgs g o wreg => Sys2Proof.Machine.execVbfgs g o wreg s
  | .vld g lreg xbase pred sh off ecc => Sys2Proof.Machine.execVld g lreg xbase pred sh off ecc s
  | .vst g lreg xbase pred sh off => Sys2Proof.Machine.execVst g lreg xbase pred sh off s
  | .vmov g o => Sys2Proof.Machine.execVmov g o s
  | .vgather g o => Sys2Proof.Machine.execVgather g o s
  | .vscatter g o => Sys2Proof.Machine.execVscatter g o s
  | .vcompact g o => Sys2Proof.Machine.execVcompact g o s
  | .vpermgen g o trouble => Sys2Proof.Machine.execVpermgen g o trouble s
  | .vgatherm g o ecc => Sys2Proof.Machine.execVgatherm g o ecc s
  | .vscatterm g o => Sys2Proof.Machine.execVscatterm g o s
  | .vext g o => Sys2Proof.Machine.execVext g o s
  | .vins g o => Sys2Proof.Machine.execVins g o s
  | .vkeccak g o trouble => Sys2Proof.Machine.execVkeccak g o trouble s
  | .vkabs g o trouble => Sys2Proof.Machine.execVkabs g o trouble s
  | .vsqz g o => Sys2Proof.Machine.execVsqz g o s
  | .vrej g o => Sys2Proof.Machine.execVrej g o s
  | .vcbd g o => Sys2Proof.Machine.execVcbd g o s
  | .vsib g o trouble => Sys2Proof.Machine.execVsib g o trouble s
  | .vrefreshb g o chk trouble => Sys2Proof.Machine.execVrefreshb g o chk trouble s
  | .vrefresha g o chk trouble => Sys2Proof.Machine.execVrefresha g o chk trouble s
  | .va2b g o chk trouble => Sys2Proof.Machine.execVa2b g o chk trouble s
  | .vb2a g o chk trouble => Sys2Proof.Machine.execVb2a g o chk trouble s
  | .vmand g o chk trouble => Sys2Proof.Machine.execVmand g o chk trouble s
  | .vmcmpeq g o chk trouble => Sys2Proof.Machine.execVmcmpeq g o chk trouble s
  | .vmcmplt g o chk trouble => Sys2Proof.Machine.execVmcmplt g o chk trouble s
  | .vmall g o chk trouble => Sys2Proof.Machine.execVmall g o chk trouble s
  | .vmdecomp g o chk trouble => Sys2Proof.Machine.execVmdecomp g o chk trouble s
  | .vunmaskb g o => Sys2Proof.Machine.execVunmaskb g o s
  | .vunmaska g o => Sys2Proof.Machine.execVunmaska g o s
  | .pand g dst src1 src2 => Sys2Proof.Machine.execPand g dst src1 src2 s
  | .por g dst src1 src2 => Sys2Proof.Machine.execPor g dst src1 src2 s
  | .pxor g dst src1 src2 => Sys2Proof.Machine.execPxor g dst src1 src2 s
  | .pandn g dst src1 src2 => Sys2Proof.Machine.execPandn g dst src1 src2 s
  | .psetn g dst src1 => Sys2Proof.Machine.execPsetn g dst src1 s
  | .pcnt g dst src1 => Sys2Proof.Machine.execPcnt g dst src1 s
  | .bnEnd n => Sys2Proof.Machine.execBnEnd n s
  | .modadd n d a b pset => Sys2Proof.Machine.execModadd n d a b pset s
  | .modsub n d a b pset => Sys2Proof.Machine.execModsub n d a b pset s
  | .modmul n d a b pset => Sys2Proof.Machine.execModmul n d a b pset s
  | .modsqr n d a pset => Sys2Proof.Machine.execModsqr n d a pset s
  | .modinv n d a pset => Sys2Proof.Machine.execModinv n d a pset s
  | .modexp n d a b pset crt blind => Sys2Proof.Machine.execModexp n d a b pset crt blind s
  | .modred n d a pset off len => Sys2Proof.Machine.execModred n d a pset off len s
  | .blind n d a b pset off => Sys2Proof.Machine.execBlind n d a b pset off s
  | .setmod n a pset cls half => Sys2Proof.Machine.execSetmod n a pset cls half s
  | .rawclr n => Sys2Proof.Machine.execRawclr n s
  | .rawmac n a b li lj k => Sys2Proof.Machine.execRawmac n a b li lj k s
  | .rawout n d t => Sys2Proof.Machine.execRawout n d t s
  | .join n d a b x => Sys2Proof.Machine.execJoin n d a b x s
  | .copy n d a => Sys2Proof.Machine.execCopy n d a s
  | .revb n d a len => Sys2Proof.Machine.execRevb n d a len s
  | .cswap n d a b counter => Sys2Proof.Machine.execCswap n d a b counter s
  | .setc n counter value => Sys2Proof.Machine.execSetc n counter value s
  | .djnz n counter target => Sys2Proof.Machine.execDjnz n counter target s
  | .chkeq n a b value => Sys2Proof.Machine.execChkeq n a b value s
  | .chknz n a value => Sys2Proof.Machine.execChknz n a value s
  | .ldi n d value => Sys2Proof.Machine.execLdi n d value s
  | .bneScrubDone n => Sys2Proof.Machine.execBneScrubDone n s
  | .katSchedule unit => Sys2Proof.Machine.execKatSchedule unit s
  | .katDone unit pass => Sys2Proof.Machine.execKatDone unit pass s
  | .agingRead counts => Sys2Proof.Machine.execAgingRead counts s
  | .obsCounterLoRead p t k => Sys2Proof.Machine.execObsCounterLoRead p t k s
  | .digCtlWrite r e value => Sys2Proof.Machine.execDigCtlWrite r e value s
  | .digDataWrite r e value => Sys2Proof.Machine.execDigDataWrite r e value s
  | .digLastWrite r e value => Sys2Proof.Machine.execDigLastWrite r e value s
  | .digLenWrite r e value => Sys2Proof.Machine.execDigLenWrite r e value s
  | .digAddrHiWrite r e value => Sys2Proof.Machine.execDigAddrHiWrite r e value s
  | .digDmaDone e data => Sys2Proof.Machine.execDigDmaDone e data s
  | .digResultReady e => Sys2Proof.Machine.execDigResultReady e s
  | .noiseBlockDone src samples => Sys2Proof.Machine.execNoiseBlockDone src samples s
  | .sourceCalibrationDone src => Sys2Proof.Machine.execSourceCalibrationDone src s
  | .conditionerSeedOut => Sys2Proof.Machine.execConditionerSeedOut s
  | .rngFirstSeedTimeout => Sys2Proof.Machine.execRngFirstSeedTimeout s
  | .drbgInstantiate p katOk => Sys2Proof.Machine.execDrbgInstantiate p katOk s
  | .drbgGenerateDone p => Sys2Proof.Machine.execDrbgGenerateDone p s
  | .drbgReseedDone p => Sys2Proof.Machine.execDrbgReseedDone p s
  | .keyPortBufferRefill q p => Sys2Proof.Machine.execKeyPortBufferRefill q p s
  | .rngCaptureStart src => Sys2Proof.Machine.execRngCaptureStart src s
  | .rngCaptureDone samples => Sys2Proof.Machine.execRngCaptureDone samples s
  | .randomBytes j => Sys2Proof.Machine.execRandomBytes j s
  | .randomBytesPr j => Sys2Proof.Machine.execRandomBytesPr j s
  | .conditionedEntropy j => Sys2Proof.Machine.execConditionedEntropy j s
  | .nop j => Sys2Proof.Machine.execNop j s
  | .mlKemKeygen j => Sys2Proof.Machine.execMlKemKeygen j s
  | .mlKemEncaps j => Sys2Proof.Machine.execMlKemEncaps j s
  | .mlKemDecaps j faulted => Sys2Proof.Machine.execMlKemDecaps j faulted s
  | .mlDsaKeygen j => Sys2Proof.Machine.execMlDsaKeygen j s
  | .mlDsaSignHedged j fault => Sys2Proof.Machine.execMlDsaSignHedged j fault s
  | .mlDsaSignDeterministic j fault => Sys2Proof.Machine.execMlDsaSignDeterministic j fault s
  | .hashmlDsaSignHedged j fault => Sys2Proof.Machine.execHashmlDsaSignHedged j fault s
  | .hashmlDsaSignDeterministic j fault => Sys2Proof.Machine.execHashmlDsaSignDeterministic j fault s
  | .mlDsaVerify j => Sys2Proof.Machine.execMlDsaVerify j s
  | .hashmlDsaVerify j => Sys2Proof.Machine.execHashmlDsaVerify j s
  | .fnDsaKeygen j => Sys2Proof.Machine.execFnDsaKeygen j s
  | .fnDsaSign j faulted => Sys2Proof.Machine.execFnDsaSign j faulted s
  | .hashfnDsaSign j faulted => Sys2Proof.Machine.execHashfnDsaSign j faulted s
  | .fnDsaVerify j => Sys2Proof.Machine.execFnDsaVerify j s
  | .hashfnDsaVerify j => Sys2Proof.Machine.execHashfnDsaVerify j s
  | .compositeSign j fault => Sys2Proof.Machine.execCompositeSign j fault s
  | .compositeVerify j => Sys2Proof.Machine.execCompositeVerify j s
  | .slhDsaKeygen j => Sys2Proof.Machine.execSlhDsaKeygen j s
  | .slhDsaSignHedged j => Sys2Proof.Machine.execSlhDsaSignHedged j s
  | .slhDsaSignDeterministic j => Sys2Proof.Machine.execSlhDsaSignDeterministic j s
  | .hashslhDsaSignHedged j => Sys2Proof.Machine.execHashslhDsaSignHedged j s
  | .hashslhDsaSignDeterministic j => Sys2Proof.Machine.execHashslhDsaSignDeterministic j s
  | .slhDsaVerify j => Sys2Proof.Machine.execSlhDsaVerify j s
  | .hashslhDsaVerify j => Sys2Proof.Machine.execHashslhDsaVerify j s
  | .hssKeygen j => Sys2Proof.Machine.execHssKeygen j s
  | .hssSign j faulted => Sys2Proof.Machine.execHssSign j faulted s
  | .hssVerify j => Sys2Proof.Machine.execHssVerify j s
  | .lmsVerify j => Sys2Proof.Machine.execLmsVerify j s
  | .xmssMtKeygen j => Sys2Proof.Machine.execXmssMtKeygen j s
  | .xmssMtSign j faulted => Sys2Proof.Machine.execXmssMtSign j faulted s
  | .xmssVerify j => Sys2Proof.Machine.execXmssVerify j s
  | .xmssMtVerify j => Sys2Proof.Machine.execXmssMtVerify j s
  | .leafReservationDone slot => Sys2Proof.Machine.execLeafReservationDone slot s
  | .treeRestorationJob slot => Sys2Proof.Machine.execTreeRestorationJob slot s
  | .hqcKeygen j => Sys2Proof.Machine.execHqcKeygen j s
  | .hqcEncaps j => Sys2Proof.Machine.execHqcEncaps j s
  | .mcelieceEncaps j => Sys2Proof.Machine.execMcelieceEncaps j s
  | .hqcDecaps j faulted => Sys2Proof.Machine.execHqcDecaps j faulted s
  | .mcelieceDecaps j faulted => Sys2Proof.Machine.execMcelieceDecaps j faulted s
  | .ecdsaKeygen j => Sys2Proof.Machine.execEcdsaKeygen j s
  | .ecdsaSignMessage j => Sys2Proof.Machine.execEcdsaSignMessage j s
  | .ecdsaSignDigest j => Sys2Proof.Machine.execEcdsaSignDigest j s
  | .ecdsaVerifyMessage j => Sys2Proof.Machine.execEcdsaVerifyMessage j s
  | .ecdsaVerifyDigest j => Sys2Proof.Machine.execEcdsaVerifyDigest j s
  | .eddsaKeygen j => Sys2Proof.Machine.execEddsaKeygen j s
  | .eddsaSign j => Sys2Proof.Machine.execEddsaSign j s
  | .eddsaVerify j => Sys2Proof.Machine.execEddsaVerify j s
  | .kaKeygen j => Sys2Proof.Machine.execKaKeygen j s
  | .kaDerive j => Sys2Proof.Machine.execKaDerive j s
  | .rsassaPssSign j faulted => Sys2Proof.Machine.execRsassaPssSign j faulted s
  | .rsaesOaepDecrypt j faulted => Sys2Proof.Machine.execRsaesOaepDecrypt j faulted s
  | .rsaesOaepEncrypt j => Sys2Proof.Machine.execRsaesOaepEncrypt j s
  | .rsassaPssVerify j => Sys2Proof.Machine.execRsassaPssVerify j s
  | .pkcs1V15Verify j => Sys2Proof.Machine.execPkcs1V15Verify j s
  | .hash j => Sys2Proof.Machine.execHash j s
  | .hmacGenerate j => Sys2Proof.Machine.execHmacGenerate j s
  | .hmacVerify j => Sys2Proof.Machine.execHmacVerify j s
  | .kmacGenerate j => Sys2Proof.Machine.execKmacGenerate j s
  | .kmacVerify j => Sys2Proof.Machine.execKmacVerify j s
  | .aesEncrypt j => Sys2Proof.Machine.execAesEncrypt j s
  | .aesDecrypt j => Sys2Proof.Machine.execAesDecrypt j s
  | .tdesEncrypt j => Sys2Proof.Machine.execTdesEncrypt j s
  | .tdesDecrypt j => Sys2Proof.Machine.execTdesDecrypt j s
  | .cmacGenerate j => Sys2Proof.Machine.execCmacGenerate j s
  | .cmacVerify j => Sys2Proof.Machine.execCmacVerify j s
  | .wrap j => Sys2Proof.Machine.execWrap j s
  | .unwrap j => Sys2Proof.Machine.execUnwrap j s
  | .pinTranslate j faulted => Sys2Proof.Machine.execPinTranslate j faulted s
  | .pinCompare j faulted => Sys2Proof.Machine.execPinCompare j faulted s
  | .macAlgorithm3Generate j => Sys2Proof.Machine.execMacAlgorithm3Generate j s
  | .macAlgorithm3Verify j => Sys2Proof.Machine.execMacAlgorithm3Verify j s
  | .dukptInitialKeyExport j => Sys2Proof.Machine.execDukptInitialKeyExport j s
  | .dukptPinTranslate j faulted => Sys2Proof.Machine.execDukptPinTranslate j faulted s
  | .dukptCmacGenerate j => Sys2Proof.Machine.execDukptCmacGenerate j s
  | .dukptCmacVerify j => Sys2Proof.Machine.execDukptCmacVerify j s
  | .keyBlockImport j => Sys2Proof.Machine.execKeyBlockImport j s
  | .keyBlockExport j => Sys2Proof.Machine.execKeyBlockExport j s
  | .slotPrepare j => Sys2Proof.Machine.execSlotPrepare j s
  | .symmetricGenerate j => Sys2Proof.Machine.execSymmetricGenerate j s
  | .importPublicKey j => Sys2Proof.Machine.execImportPublicKey j s
  | .importWrapped j => Sys2Proof.Machine.execImportWrapped j s
  | .importBlob j => Sys2Proof.Machine.execImportBlob j s
  | .exportBlob j => Sys2Proof.Machine.execExportBlob j s
  | .derive j => Sys2Proof.Machine.execDerive j s
  | .readPublicKey j => Sys2Proof.Machine.execReadPublicKey j s
  | .contextOpen j => Sys2Proof.Machine.execContextOpen j s
  | .contextStep j => Sys2Proof.Machine.execContextStep j s
  | .contextClose j => Sys2Proof.Machine.execContextClose j s
  | .contextDiscard j => Sys2Proof.Machine.execContextDiscard j s
  | .ownerExtension j => Sys2Proof.Machine.execOwnerExtension j s
  | .mctpMessage j => Sys2Proof.Machine.execMctpMessage j s
  | .budgetFloorWriteDone slot => Sys2Proof.Machine.execBudgetFloorWriteDone slot s
  | .shelfRestoreDone bad => Sys2Proof.Machine.execShelfRestoreDone bad s
  | .slotAssign v slot owner system => Sys2Proof.Machine.execSlotAssign v slot owner system s
  | .budgetLower v slot budget => Sys2Proof.Machine.execBudgetLower v slot budget s
  | .destroyArm v slot value => Sys2Proof.Machine.execDestroyArm v slot value s
  | .settleHoldStart supply => Sys2Proof.Machine.execSettleHoldStart supply s
  | .settleHoldRelease supply => Sys2Proof.Machine.execSettleHoldRelease supply s
  | .settleHoldTimeout => Sys2Proof.Machine.execSettleHoldTimeout s
  | .topsoilBrownOut supply => Sys2Proof.Machine.execTopsoilBrownOut supply s
  | .subsoilBrownOut supply => Sys2Proof.Machine.execSubsoilBrownOut supply s
  | .vddSmWarning => Sys2Proof.Machine.execVddSmWarning s
  | .vddSmRelease => Sys2Proof.Machine.execVddSmRelease s
  | .vddSWarning low => Sys2Proof.Machine.execVddSWarning low s
  | .powerOnReset valid vbatLost refclk0 => Sys2Proof.Machine.execPowerOnReset valid vbatLost refclk0 s
  | .porRelease straps forceGolden h33 factory => Sys2Proof.Machine.execPorRelease straps forceGolden h33 factory s
  | .sysResetAssert => Sys2Proof.Machine.execSysResetAssert s
  | .sysResetRelease nanos straps forceGolden taken => Sys2Proof.Machine.execSysResetRelease nanos straps forceGolden taken s
  | .subsoilPllLock => Sys2Proof.Machine.execSubsoilPllLock s
  | .fullResetStart torn condKat cut bad => Sys2Proof.Machine.execFullResetStart torn condKat cut bad s
  | .rootSecretRenewal => Sys2Proof.Machine.execRootSecretRenewal s
  | .sealCheckStart => Sys2Proof.Machine.execSealCheckStart s
  | .sealCheckDone => Sys2Proof.Machine.execSealCheckDone s
  | .topsoilPowerUp supplies refclk0 => Sys2Proof.Machine.execTopsoilPowerUp supplies refclk0 s
  | .startOk => Sys2Proof.Machine.execStartOk s
  | .bringupTimeout => Sys2Proof.Machine.execBringupTimeout s
  | .loamWatchdogTimeout k => Sys2Proof.Machine.execLoamWatchdogTimeout k s
  | .loamMachineCheck => Sys2Proof.Machine.execLoamMachineCheck s
  | .imageBegin v target len => Sys2Proof.Machine.execImageBegin v target len s
  | .imageData v off bytes => Sys2Proof.Machine.execImageData v off bytes s
  | .imageCommit v => Sys2Proof.Machine.execImageCommit v s
  | .imageActivate v primary raiseSvn => Sys2Proof.Machine.execImageActivate v primary raiseSvn s
  | .revokeArm v entry value => Sys2Proof.Machine.execRevokeArm v entry value s
  | .fallowStatus v => Sys2Proof.Machine.execFallowStatus v s
  | .fallowExit v slot => Sys2Proof.Machine.execFallowExit v slot s
  | .channelInitDone c answers jedec sfdp header0 header1 => Sys2Proof.Machine.execChannelInitDone c answers jedec sfdp header0 header1 s
  | .manifestVerifyDone c manifest => Sys2Proof.Machine.execManifestVerifyDone c manifest s
  | .blockScanDone c image => Sys2Proof.Machine.execBlockScanDone c image s
  | .holdAutoRelease k => Sys2Proof.Machine.execHoldAutoRelease k s
  | .hostFlashRead c code addr n slow data tagOk => Sys2Proof.Machine.execHostFlashRead c code addr n slow data tagOk s
  | .hostFlashProgram c code addr data => Sys2Proof.Machine.execHostFlashProgram c code addr data s
  | .hostFlashErase c code addr => Sys2Proof.Machine.execHostFlashErase c code addr s
  | .hostFlashStatus c code status => Sys2Proof.Machine.execHostFlashStatus c code status s
  | .hostFlashConfig c code addr data => Sys2Proof.Machine.execHostFlashConfig c code addr data s
  | .hostFlashReset c => Sys2Proof.Machine.execHostFlashReset c s
  | .watchedCompletionRead c block data => Sys2Proof.Machine.execWatchedCompletionRead c block data s
  | .watchedBlockHashDone c block => Sys2Proof.Machine.execWatchedBlockHashDone c block s
  | .updateWindowTimeout c => Sys2Proof.Machine.execUpdateWindowTimeout c s
  | .flashIdleTimeout c => Sys2Proof.Machine.execFlashIdleTimeout c s
  | .sieveSet v e => Sys2Proof.Machine.execSieveSet v e s
  | .pgdArm v off value => Sys2Proof.Machine.execPgdArm v off value s
  | .platformCycle v => Sys2Proof.Machine.execPlatformCycle v s
  | .hostImageBegin v channel target len => Sys2Proof.Machine.execHostImageBegin v channel target len s
  | .hostImageData v off bytes => Sys2Proof.Machine.execHostImageData v off bytes s
  | .hostImageCommit v => Sys2Proof.Machine.execHostImageCommit v s
  | .lcStage v request => Sys2Proof.Machine.execLcStage v request s
  | .lcDirectRequest v request cut => Sys2Proof.Machine.execLcDirectRequest v request cut s
  | .tapInstruction factory instruction => Sys2Proof.Machine.execTapInstruction factory instruction s
  | .tamperSampleTick switches loops => Sys2Proof.Machine.execTamperSampleTick switches loops s
  | .loopMismatch k => Sys2Proof.Machine.execLoopMismatch k s
  | .voltageTamper supply => Sys2Proof.Machine.execVoltageTamper supply s
  | .temperatureReading readings => Sys2Proof.Machine.execTemperatureReading readings s
  | .clockMonitorWindow clock abnormal stopped => Sys2Proof.Machine.execClockMonitorWindow clock abnormal stopped s
  | .oscillatorFallback => Sys2Proof.Machine.execOscillatorFallback s
  | .tamperOutRelease => Sys2Proof.Machine.execTamperOutRelease s
  | .evidenceIncrementDone readBackOk => Sys2Proof.Machine.execEvidenceIncrementDone readBackOk s
  | .lockStatus v => Sys2Proof.Machine.execLockStatus v s
  | .unlock v request => Sys2Proof.Machine.execUnlock v request s
  | .tamperArm v off value => Sys2Proof.Machine.execTamperArm v off value s
  | .getVersion v => Sys2Proof.Machine.execGetVersion v s
  | .getCapabilities v version => Sys2Proof.Machine.execGetCapabilities v version s
  | .negotiateAlgorithms v asym hash measHash => Sys2Proof.Machine.execNegotiateAlgorithms v asym hash measHash s
  | .getDigests v => Sys2Proof.Machine.execGetDigests v s
  | .getCertificate v slot off len => Sys2Proof.Machine.execGetCertificate v slot off len s
  | .challenge v slot => Sys2Proof.Machine.execChallenge v slot s
  | .getMeasurements v index signed => Sys2Proof.Machine.execGetMeasurements v index signed s
  | .keyExchange v slot => Sys2Proof.Machine.execKeyExchange v slot s
  | .finish v n chain signature mac => Sys2Proof.Machine.execFinish v n chain signature mac s
  | .heartbeat v => Sys2Proof.Machine.execHeartbeat v s
  | .heartbeatTimeout n => Sys2Proof.Machine.execHeartbeatTimeout n s
  | .keyUpdate v => Sys2Proof.Machine.execKeyUpdate v s
  | .endSession v => Sys2Proof.Machine.execEndSession v s
  | .setCertificate v slot chain => Sys2Proof.Machine.execSetCertificate v slot chain s
  | .chunkSend v handle seq last bytes => Sys2Proof.Machine.execChunkSend v handle seq last bytes s
  | .chunkGet v handle seq => Sys2Proof.Machine.execChunkGet v handle seq s
  | .managerBind v signature => Sys2Proof.Machine.execManagerBind v signature s
  | .setEndpointId v eid => Sys2Proof.Machine.execSetEndpointId v eid s
  | .checkpoint v seq => Sys2Proof.Machine.execCheckpoint v seq s
  | .checkpointAck v seq digest => Sys2Proof.Machine.execCheckpointAck v seq digest s
  | .logRead v seq count => Sys2Proof.Machine.execLogRead v seq count s
  | .keyUsage v first count => Sys2Proof.Machine.execKeyUsage v first count s
  | .timeSet v offset => Sys2Proof.Machine.execTimeSet v offset s
  | .ceremonyApprove v id target officer signature => Sys2Proof.Machine.execCeremonyApprove v id target officer signature s
  | .ceremonyExpiry => Sys2Proof.Machine.execCeremonyExpiry s
  | .uncMkeyNew v => Sys2Proof.Machine.execUncMkeyNew v s
  | .uncMkeyJoin v leader reachable => Sys2Proof.Machine.execUncMkeyJoin v leader reachable s
  | .uncEpoch v target => Sys2Proof.Machine.execUncEpoch v target s
  | .uncReenumerate v => Sys2Proof.Machine.execUncReenumerate v s
  | .keepalive b bytes => Sys2Proof.Machine.execKeepalive b bytes s
  | .keepaliveTimer b => Sys2Proof.Machine.execKeepaliveTimer b s
  | .linkLossTimeout b => Sys2Proof.Machine.execLinkLossTimeout b s
  | .enumerate b bytes => Sys2Proof.Machine.execEnumerate b bytes s
  | .disown b bytes => Sys2Proof.Machine.execDisown b bytes s
  | .uncelMctpFrame b bytes => Sys2Proof.Machine.execUncelMctpFrame b bytes s
  | .uncelEpochFrame b bytes => Sys2Proof.Machine.execUncelEpochFrame b bytes s
  | .epochDone b bytes => Sys2Proof.Machine.execEpochDone b bytes s
  | .mkeyOffer b bytes => Sys2Proof.Machine.execMkeyOffer b bytes s
  | .uncJoinRequest member ek chain ownerHash signature => Sys2Proof.Machine.execUncJoinRequest member ek chain ownerHash signature s
  | .uncJoinResponse leader answer chain ownerHash signature => Sys2Proof.Machine.execUncJoinResponse leader answer chain ownerHash signature s
  | .uncelTamperFrame b bytes => Sys2Proof.Machine.execUncelTamperFrame b bytes s
  | .uncelTimeFrame b bytes => Sys2Proof.Machine.execUncelTimeFrame b bytes s
  | .timeLeaderTick => Sys2Proof.Machine.execTimeLeaderTick s
  | .alignmentTimeout => Sys2Proof.Machine.execAlignmentTimeout s
  | .entdaa addr => Sys2Proof.Machine.execEntdaa addr s
  | .setdasa static addr => Sys2Proof.Machine.execSetdasa static addr s
  | .setnewda old addr => Sys2Proof.Machine.execSetnewda old addr s
  | .rstdaa => Sys2Proof.Machine.execRstdaa s
  | .getpid addr => Sys2Proof.Machine.execGetpid addr s
  | .getbcr addr => Sys2Proof.Machine.execGetbcr addr s
  | .getdcr addr => Sys2Proof.Machine.execGetdcr addr s
  | .getstatus addr => Sys2Proof.Machine.execGetstatus addr s
  | .getmrl addr => Sys2Proof.Machine.execGetmrl addr s
  | .getmwl addr => Sys2Proof.Machine.execGetmwl addr s
  | .enec addr events => Sys2Proof.Machine.execEnec addr events s
  | .disec addr events => Sys2Proof.Machine.execDisec addr events s
  | .rstact => Sys2Proof.Machine.execRstact s
  | .i3cPrivateTransfer addr read bytes => Sys2Proof.Machine.execI3cPrivateTransfer addr read bytes s
  | .perstRelease p => Sys2Proof.Machine.execPerstRelease p s
  | .uncelReceiverLinkUp b => Sys2Proof.Machine.execUncelReceiverLinkUp b s
  | .uncelOtherFrame b bytes => Sys2Proof.Machine.execUncelOtherFrame b bytes s
  | .flashProgramEraseDone c => Sys2Proof.Machine.execFlashProgramEraseDone c s
  | .leafHandoutInterval slot => Sys2Proof.Machine.execLeafHandoutInterval slot s
  | .illegalEncoding g => Sys2Proof.Machine.execIllegalEncoding g s
  | .pmRangeFetch g => Sys2Proof.Machine.execPmRangeFetch g s
  | .badCommand n => Sys2Proof.Machine.execBadCommand n s

end Sys2Proof.Machine
end

