-- ==== Sys2Proof/Machine/Step.lean ====
section
/-!
DEFINITION. One step: the command at the front of the queue is taken and runs on the device with the queue's rest. On an
empty queue the device idles (log entry 4).
-/
namespace Sys2Proof.Machine

/-- One step of the device. -/
def step (s : State) : Result :=
  match s.pending with
  | [] => .next s
  | c :: rest => exec c { s with pending := rest }

/-- `s` with the command that a word of the table's bits spells put at the front of its queue: no row of the table gives
bits, so `s` is unchanged (log entry 4). -/
def State.withFetchWord (s : State) (nbits w : Nat) : State :=
  match decodeTableWord nbits w with
  | some c => { s with pending := c :: s.pending }
  | none => s

end Sys2Proof.Machine
end

