-- ==== Sys2Proof/Safety.lean ====
section
/-!
DEFINITION. What a sound state is: every numbered unit of the device stands in its table once, in rising order. A safe step starts in a
sound state and ends in one.
-/
namespace Sys2Proof.Machine

/-- Every table of the state lists each number once, in rising order. -/
structure State.Sound (s : State) : Prop where
  sq : s.sq.rising = true
  glbPf : s.glbPf.rising = true
  guard : s.guard.rising = true
  posted : s.posted.rising = true
  queues : s.queues.rising = true
  jobs : s.jobs.rising = true
  ports : s.ports.rising = true
  funcs : s.funcs.rising = true
  tenants : s.tenants.rising = true
  beds : s.beds.rising = true
  grains : s.grains.rising = true
  quads : s.quads.rising = true
  engines : s.engines.rising = true
  slots : s.vault.slots.rising = true
  ctxs : s.vault.ctxs.rising = true
  shelf : s.vault.shelf.rising = true
  digests : s.digests.rising = true
  tamperCfg : s.tamperCfg.rising = true
  battCfg : s.tamper.battCfg.rising = true

/-- A step from `s` to `t` that keeps soundness. -/
def SafeStep (s t : State) : Prop := s.Sound → step s = .next t → t.Sound

end Sys2Proof.Machine
end

