-- ==== Sys2Proof/Certificates/Slice0/Obligations.lean ====
section
/-!
DEFINITION. The statements for the provers.
-/

/-! The words in which the statements are put. -/
namespace Sys2Proof.Claims
open Sys2Proof.Machine

/-- What state `s` becomes when the instruction of grain `g` retires with the grain `G'` and goes on at `pc`: the cycle count
advances by a free amount, the retired-instruction count by one, and the expander asks for a seed where it needs one. -/
def retired (s : State) (g : Nat) (G' : Grain) (pc : Nat) : State :=
  (s.spend.modGrain g fun _ => G'.retire (Config.cyclesTaken s.free) pc).askForGrain g

/-- Wherever grain `g` executes a job and the word at its program counter is `w`, instruction `i` completes: the grain becomes
`eff` of itself and goes on at `pc`. -/
def Completes (s : State) (g : Nat) (i : Instr) (w : W32) (eff : GCtx → Grain → Grain) (pc : Nat) : Prop :=
  ∀ j job, s.fetching g w = some (j, job) →
    exec i s = .next (retired s g (eff (s.gctx g j job) (s.grain g)) pc)

/-- The same for a job of masking order 1. -/
def OrderOne (s : State) (g : Nat) (i : Instr) (w : W32) (eff : GCtx → Grain → Grain) (pc : Nat) : Prop :=
  ∀ j job, s.fetching g w = some (j, job) → job.order2 = false →
    exec i s = .next (retired s g (eff (s.gctx g j job) (s.grain g)) pc)

/-- Instruction `i` completes, writes `v` to X(d) and goes on at the next index. -/
def WritesX (s : State) (g : Nat) (i : Instr) (w : W32) (d : Reg) (v : W64) : Prop :=
  Completes s g i w (fun _ G => G.setX d.toNat v) ((s.grain g).pc + 1)

/-- Wherever grain `g` executes a job and the word at its program counter is `w`, instruction `i` ends the job's execution
with PROGRAM_FAULT, with the cause in DETAIL bits 31:24 and the program counter in bits 15:0 (R109). -/
def Faults (s : State) (g : Nat) (i : Instr) (w : W32) (cause : Nat) : Prop :=
  ∀ j job, s.fetching g w = some (j, job) →
    exec i s = .next (s.endExecution j g Status.programFault 0 (cause * 2 ^ 24 + (s.grain g).pc % 2 ^ 16))

/-- The S registers named exist: S16 to S31 do not in COMPAT mode (R105). -/
def SRegs (G : Grain) (rs : List Reg) : Prop := G.compat = false ∨ ∀ r ∈ rs, r.toNat < 16

/-- A long-vector instruction whose checks are `legal` (R138 to R148): with them met it completes with `eff`, with VL = 0 it
changes nothing and goes on, and otherwise it is ILLEGAL. -/
def LvRuns (s : State) (g : Nat) (i : Instr) (w : W32) (legal : GCtx → Grain → Bool) (eff : GCtx → Grain → Grain) : Prop :=
  ∀ j job, s.fetching g w = some (j, job) →
    let G := s.grain g
    let c := s.gctx g j job
    (legal c G = true → G.regs.vl * G.ew ≤ 8192 →
      exec i s = .next (retired s g (if G.regs.vl = 0 then G else eff c G) (G.pc + 1))) ∧
    (legal c G = false ∨ 8192 < G.regs.vl * G.ew →
      exec i s = .next (s.endExecution j g Status.programFault 0 (causeIllegal * 2 ^ 24 + G.pc % 2 ^ 16)))

/-- The same for an instruction that also needs `ready`: elements to work on that are not ready end the job with `cause`. -/
def LvNeeds (s : State) (g : Nat) (i : Instr) (w : W32) (legal ready : GCtx → Grain → Bool) (cause : Nat)
    (eff : GCtx → Grain → Grain) : Prop :=
  ∀ j job, s.fetching g w = some (j, job) →
    let G := s.grain g
    let c := s.gctx g j job
    (legal c G = true → G.regs.vl * G.ew ≤ 8192 → (G.regs.vl ≠ 0 → ready c G = true) →
      exec i s = .next (retired s g (if G.regs.vl = 0 then G else eff c G) (G.pc + 1))) ∧
    (legal c G = true → G.regs.vl * G.ew ≤ 8192 → G.regs.vl ≠ 0 → ready c G = false →
      exec i s = .next (s.endExecution j g Status.programFault 0 (cause * 2 ^ 24 + G.pc % 2 ^ 16))) ∧
    (legal c G = false ∨ 8192 < G.regs.vl * G.ew →
      exec i s = .next (s.endExecution j g Status.programFault 0 (causeIllegal * 2 ^ 24 + G.pc % 2 ^ 16)))

/-- A long-vector instruction that draws `words c G` words of the mask expander and leaves the scratch of R168 as its microcode
does (a free value): it completes when the expander has the words, and its grain stalls when it has not (R103). -/
def LvDraws (s : State) (g : Nat) (i : Instr) (w : W32) (legal : GCtx → Grain → Bool) (words : GCtx → Grain → Nat)
    (scratch : Bool) (eff : GCtx → Grain → Grain) : Prop :=
  ∀ j job, s.fetching g w = some (j, job) →
    let G := s.grain g
    let c := s.gctx g j job
    (legal c G = true → G.regs.vl * G.ew ≤ 8192 → G.regs.vl ≠ 0 →
      (∀ x, G.expander.draw (words c G) = some x →
        let G' := eff c { G with expander := x }
        exec i s = .next (retired s g (if scratch then { G' with micro := Config.freeMicro s.free } else G') (G.pc + 1))) ∧
      (G.expander.draw (words c G) = none →
        exec i s = .next (s.modGrain g fun x => { x with state := .stalled, rngWait := true }))) ∧
    (legal c G = true → G.regs.vl = 0 → exec i s = .next (retired s g G (G.pc + 1))) ∧
    (legal c G = false ∨ 8192 < G.regs.vl * G.ew →
      exec i s = .next (s.endExecution j g Status.programFault 0 (causeIllegal * 2 ^ 24 + G.pc % 2 ^ 16)))

/-- A gadget of `one` words a beat at masking order 1 and `two` at order 2, twice as many with CHK (R157, R158). With CHK and
differing results the job ends with FAULT_DETECTED and DETAIL SHARE_CHECK; a control-store parity error or an uncorrectable
memory error is a machine check (R109, R174). -/
def GadgetRuns (s : State) (g : Nat) (i : Option Bool → GrainTrouble → Instr) (w : Option Bool → W32)
    (legal : GCtx → Grain → Bool) (one two : Nat) (eff : GCtx → Grain → Grain) : Prop :=
  let words := fun (chk : Option Bool) (c : GCtx) (G : Grain) =>
    (if chk.isSome then 2 else 1) * ((if c.order2 then two else one) * G.beats)
  (∀ chk, chk ≠ some true → LvDraws s g (i chk .none) (w chk) legal (words chk) true eff) ∧
  (∀ j job, s.fetching g (w (some true)) = some (j, job) →
    let G := s.grain g
    let c := s.gctx g j job
    legal c G = true → G.regs.vl * G.ew ≤ 8192 → G.regs.vl ≠ 0 → (G.expander.draw (words (some true) c G)).isSome = true →
      exec (i (some true) .none) s = .next (s.endExecution j g Status.faultDetected 0 (causeShareCheck * 2 ^ 24))) ∧
  (∀ chk j job, s.fetching g (w chk) = some (j, job) →
    let G := s.grain g
    legal (s.gctx g j job) G = true → G.regs.vl * G.ew ≤ 8192 → G.regs.vl ≠ 0 →
      exec (i chk .csParity) s = .next (s.machineCheck g causeCsParity) ∧
      exec (i chk .memEcc) s = .next (s.machineCheck g causeMemEcc))

/-- Wherever the program of engine `n` stands at the entry `w`, command `i` has its effect `eff`, the program goes on at the next
entry or where `eff` says, and the engine is busy for the command's cycles. -/
def Commanded (s : State) (n : Nat) (i : Instr) (w : W64) (cycles : Engine → Nat) (eff : Engine → Engine) : Prop :=
  let e := s.engine n
  e.state = .running → e.pc ≤ 511 → e.cmds.get e.pc 0 = w →
    exec i s = .next (s.modEngine n fun _ =>
      let e' := eff { e with pc := e.pc + 1 }
      { e' with busy := e'.busy + cycles e })

/-- What the end of a job's program with result `r` leaves (R66, R97, R199, R318). OK: the job stands in its output stage with the
output and DETAIL, and the slot it claims holds the key, where the shelf has room for its record. An output longer than
OUT_LEN, or another status: the job has left the device and its grain scrubs. -/
def Left (s t : State) (j g : Nat) (job : Job) (r : OpResult) : Prop :=
  let stands := (t.job j).map (fun x => (x.stage, x.status, x.out, x.outWritten, x.detail)) =
    some (.output, Status.ok, r.out, r.out.length, r.detail % 2 ^ 32)
  (r.status = Status.ok → r.out.length ≤ job.desc.outLen →
    (job.claim = none → stands) ∧
    (∀ k, job.claim = some k → roundUp (144 + r.mat.cache.length + r.mat.pub.length) 64 ≤ s.vault.shelfFree →
      stands ∧ (t.slot k).state = .loaded ∧ (t.slot k).secret = r.mat.secret ∧ (t.slot k).cache = r.mat.cache ∧
      (t.slot k).pub = r.mat.pub ∧ (t.slot k).stateful = r.stateful)) ∧
  (r.status ≠ Status.ok ∨ job.desc.outLen < r.out.length → t.job j = none ∧ (t.grain g).state = .scrub)

/-- The operation `i` of job `j`, wherever the job's program is of the kind `k` and stands at its ENTRY, the device is sound, the
job waits for no seed of its own, and its grain's expander is fresh or has a seed in hand: it completes with the result
`r`, of which status, output, key, stateful data and DETAIL count here. -/
def Produces (s : State) (j : Nat) (i : Instr) (k : OpKind → Bool) (r : State → Job → OpResult) : Prop :=
  ∀ job g, s.opReady j k = some (job, g) → s.Sound → SeedReq.entropy j ∉ s.rng.waiting →
    ((s.grain g).expander.delivered = 0 ∨ (s.grain g).expander.seedHeld = true) →
    ∃ t, exec i s = .next t ∧ Left s t j g job (r s job)

/-- The same for an operation on an engine, whose number stands in X1: the engine runs no known-answer test, and the job holds it
or it is idle and nobody does (R238, R248). -/
def EngineProduces (s : State) (j : Nat) (i : Instr) (k : OpKind → Bool) (r : State → Job → OpResult) : Prop :=
  ∀ job g, s.opReady j k = some (job, g) → s.Sound → SeedReq.entropy j ∉ s.rng.waiting →
    ((s.grain g).expander.delivered = 0 ∨ (s.grain g).expander.seedHeld = true) →
    (s.engine ((s.grain g).x 1).toNat).state ≠ .test → (s.engine ((s.grain g).x 1).toNat).openTo j = true →
    ∃ t, exec i s = .next t ∧ Left s t j g job (r s job)

/-- The same for an import, which uses an engine where its placement found one (R313). -/
def ImportProduces (s : State) (j : Nat) (i : Instr) (k : OpKind → Bool) (r : State → Job → OpResult) : Prop :=
  ((∀ n e, (n, e) ∈ s.engines → j ∉ e.assigned) → Produces s j i k r) ∧
  ((∃ n e, (n, e) ∈ s.engines ∧ j ∈ e.assigned) → EngineProduces s j i k r)

/-- The commands that are the second write of a guarded pair, with the registers they are for (R37). -/
def guardCommands : List ((Requester → Nat → W32 → Instr) × List Nat) :=
  [(.glbEpochRaise, [gdEpoch]), (.glbReset, [gdReset]), (.glbTenantRemove, [gdRemove]), (.rngSrcSel, [gdSrcSel]),
   (.keySlotDestroy, [gdDestroy]), (.pgdHoldAssert, [gdHoldRel]), (.pgdHoldRelease, [gdHoldRel]), (.pgdSieveEn, [gdSieveEn]),
   (.pgdUpdWin, [gdUpdWin]), (.lcsReq, [gdLcsReq]), (.bootRevoke, [gdRevoke]), (.tmpCfgs, (List.range 16).map gdTamper)]

/-- Whenever a requester holds the first write of a pair on register `off` with `value`, the register armed and the log not full, the
pair's second write completes: the operation has its effect `t`, and the pair is judged `res`; `after` is a reset that it calls
for. -/
def Applies (s : State) (cmd : Requester → Nat → W32 → Instr) (off : Nat) (value : W32) (t : State) (res : GuardResult)
    (after : State → State) : Prop :=
  ∀ r, s.live r = true → s.heldPair r = some (off, value, true) → s.glb.logFull = false →
    exec (cmd r (off ^^^ 0x8000) (~~~value)) s = .next (after (t.judged r off res))

/-- The manager's request that a command carries, with its transport and session (R80). -/
def requestOf : Instr → Option (Via × MgrReq)
  | .tenantSet v t f => some (v, .tenantSet t f)
  | .quiesce v t => some (v, .quiesce t)
  | .resume v t => some (v, .resume t)
  | .removeArm v t value => some (v, .removeArm t value)
  | .migrateExport v t addr len accepted => some (v, .migrateExport t addr len accepted)
  | .migrateImport v t blob => some (v, .migrateImport t blob)
  | .slotAssign v slot owner system => some (v, .slotAssign slot owner system)
  | .budgetLower v slot budget => some (v, .budgetLower slot budget)
  | .destroyArm v slot value => some (v, .destroyArm slot value)
  | .imageBegin v target len => some (v, .imageBegin target len)
  | .imageData v off bytes => some (v, .imageData off bytes)
  | .imageCommit v => some (v, .imageCommit)
  | .imageActivate v primary raiseSvn => some (v, .imageActivate primary raiseSvn)
  | .revokeArm v entry value => some (v, .revokeArm entry value)
  | .sieveSet v e => some (v, .sieveSet e)
  | .pgdArm v off value => some (v, .pgdArm off value)
  | .platformCycle v => some (v, .platformCycle)
  | .hostImageBegin v channel target len => some (v, .hostImageBegin channel target len)
  | .hostImageData v off bytes => some (v, .hostImageData off bytes)
  | .hostImageCommit v => some (v, .hostImageCommit)
  | .lcStage v request => some (v, .lcStage request)
  | .tamperArm v off value => some (v, .tamperArm off value)
  | .checkpoint v seq => some (v, .checkpoint seq)
  | .checkpointAck v seq digest => some (v, .checkpointAck seq digest)
  | .timeSet v offset => some (v, .timeSet offset)
  | .logRead v seq count => some (v, .logRead seq count)
  | .keyUsage v first count => some (v, .keyUsage first count)
  | .uncMkeyNew v => some (v, .uncMkeyNew)
  | .uncMkeyJoin v leader reachable => some (v, .uncMkeyJoin leader reachable)
  | .uncEpoch v target => some (v, .uncEpoch target)
  | .ceremonyApprove v id target officer signature => some (v, .ceremonyApprove id target officer signature)
  | .uncReenumerate v => some (v, .uncReenumerate)
  | .globalArm v off value => some (v, .globalArm off value)
  | _ => none

/-- How a request that has been applied ends: it is logged, unless it is one of R440, and answered, and a reset that it calls for
follows. -/
def finished (v : Via) (r : MgrReq) (x : State × Answer) : State :=
  let u := if reqOfLog r then x.1 else x.1.logRequest v r x.2.status false
  match x.2 with
  | .now status payload => (u.respond v status payload).runDue
  | .later => u.runDue

/-- Wherever request `r` arrives as command `c` in an established manager session on its own transport, while the Secure Executive
runs, the log has room or the request needs none, and no ceremony is asked: if it is `legal` in the state in which it
arrives, it has the effect `eff`, is logged and answered (R80, R429, R437, R440, R442). -/
def Requested (s : State) (v : Via) (r : MgrReq) (c : Instr) (legal : State → Prop) (eff : State → State × Answer) : Prop :=
  ∀ n x, s.viaLive v = true → s.power.phase = .gateOpen → v.session = some n → s.spdm.sessions.find? n = some x →
    x.transport = v.transport → x.established = true → x.manager = true → (s.glb.logFull = false ∨ reqOfLog r = true) →
    s.ceremonial r = false → legal (s.markStarted v) → exec c s = .next (finished v r (eff (s.markStarted v)))

/-- The SPDM requests that need the negotiated algorithms (R430). -/
def AfterAlgorithms (v : Via) (c : Instr) : Prop :=
  c = .getDigests v ∨ (∃ slot off len, c = .getCertificate v slot off len) ∨ (∃ slot, c = .challenge v slot) ∨
  (∃ index signed, c = .getMeasurements v index signed) ∨ (∃ slot, c = .keyExchange v slot) ∨
  (∃ n chain signature mac, c = .finish v n chain signature mac) ∨ c = .heartbeat v ∨ c = .keyUpdate v ∨ c = .endSession v ∨
  (∃ slot chain, c = .setCertificate v slot chain) ∨ (∃ handle seq last bytes, c = .chunkSend v handle seq last bytes) ∨
  (∃ handle seq, c = .chunkGet v handle seq)

/-- Wherever an SPDM request arrives over `v` while the Secure Executive runs, its session, if it names one, is one of its
transport, and its connection has come to `need`: if it is `legal` in the state in which it arrives, its effect is `eff`. -/
def Answered (s : State) (v : Via) (need : Nat) (c : Instr) (legal : State → Prop) (eff : State → State) : Prop :=
  s.viaLive v = true → s.viaKnown v = true → s.power.phase = .gateOpen → need ≤ (s.conn v).phase → legal (s.markStarted v) →
    exec c s = .next (eff (s.markStarted v))

/-- The commands that are a frame of the chain other than KEEPALIVE, by their ring and bytes (R448). -/
def FrameCommand (b : Bool) (bytes : List Byte) (c : Instr) : Prop :=
  c = .enumerate b bytes ∨ c = .disown b bytes ∨ c = .uncelMctpFrame b bytes ∨ c = .uncelEpochFrame b bytes ∨
  c = .epochDone b bytes ∨ c = .mkeyOffer b bytes ∨ c = .uncelTamperFrame b bytes ∨ c = .uncelTimeFrame b bytes ∨
  c = .uncelOtherFrame b bytes

/-- A whole frame `f` arrives on pair `b` and is for this device, which has an address (R447, R449). -/
def Arrives (s : State) (b : Bool) (bytes : List Byte) (f : Frame) : Prop :=
  s.hears b = true ∧ parseFrame bytes = some f ∧ s.uncel.addr.isSome = true ∧
  (s.addressed b f = true ∨ (f.dst / 2 ^ 14 % 4 ≠ 0 ∧ s.returned b f = false ∧ (b = false ∨ f.dst.testBit 14 = false)))

/-- An authenticated frame of TYPE `type` and LEN `len` that is for this device while the Secure Executive runs: it goes its
way, and one that meets R455 notes its counter and has the effect `act`; any other is counted and raises AUTH_REJECT. -/
def Authentic (s : State) (type len : Nat) (c : Bool → List Byte → Instr) (act : Frame → State → State) : Prop :=
  ∀ b bytes f, Arrives s b bytes f → f.type = type → f.payload.length = len → s.power.phase = .gateOpen →
    let t := (s.forward b f).tick
    (t.frameOk f = true →
      exec (c b bytes) s = .next (act f (t.modUncel fun u => { u with lastCtr := u.lastCtr.insert (addrBits f.src) f.ctr }))) ∧
    (t.frameOk f = false →
      exec (c b bytes) s = .next ((t.modUncel fun u => { u with authFails := satAdd 0xFFFF u.authFails 1 }).event .unc 8))

/-- The scalar instructions that only write an X register or the program counter, with their grain and destination (R121,
R122, R124). -/
def scalarDest : Instr → Option (Nat × Option Reg)
  | .add g _ d _ _ | .sub g _ d _ _ | .sll g _ d _ _ | .srl g _ d _ _ | .sra g _ d _ _ | .rol g _ d _ _ | .ror g _ d _ _
  | .mul g _ d _ _ | .divu g _ d _ _ | .remu g _ d _ _ => some (g, some d)
  | .and g d _ _ | .or g d _ _ | .xor g d _ _ | .andn g d _ _ | .slt g d _ _ | .sltu g d _ _ | .csel g d _ _
  | .mulhu g d _ _ | .mulh g d _ _ => some (g, some d)
  | .sextb g d _ | .sexth g d _ | .sextw g d _ | .popcnt g d _ | .clz g d _ | .jr g d _ | .jal g d _ => some (g, some d)
  | .addi g d _ _ | .andi g d _ _ | .ori g d _ _ | .xori g d _ _ | .movz g d _ _ | .movk g d _ _ => some (g, some d)
  | .shi g d _ _ _ _ => some (g, some d)
  | .beq g _ _ _ | .bne g _ _ _ | .blt g _ _ _ | .bge g _ _ _ | .bltu g _ _ _ | .bgeu g _ _ _ => some (g, none)
  | _ => none

/-- The expander of grain `g` has asked for every seed that it needs (R102). -/
def HasAsked (s : State) (g : Nat) : Prop :=
  (s.grain g).expander.pending = true → (s.grain g).expander.coming = true ∨ SeedReq.grain g ∈ s.rng.waiting

end Sys2Proof.Claims

section
set_option linter.unusedVariables false
open Sys2Proof Sys2Proof.Machine Sys2Proof.Claims

/-- Each of ADD, SUB, AND, OR, XOR, ANDN, SLT, SLTU, CSEL, MUL, MULHU, MULH, DIVU and REMU completes wherever its
grain fetches its word, writes its result to X(DST) and goes on; with W it acts on bits 31:0 and zero-extends; a
divisor of 0 gives all ones or the dividend. Each of SLL, SRL, SRA, ROL, ROR, SEXTB, SEXTH, SEXTW, POPCNT and CLZ
completes wherever its grain fetches its word and writes its result; a shift amount is taken modulo the width in
force; CLZ of 0 is 64. ADDI adds a sign-extended immediate, ANDI, ORI and XORI take a zero-extended one, SHI shifts by
a constant in the four kinds and both widths, MOVZ writes a shifted 16-bit immediate and MOVK replaces 16 bits; each
completes wherever its grain fetches its word. -/
def Obligations.ScalarOperations : Prop :=
  ((∀ (s : State) (g : Nat) (w : Bool) (d a b : Reg),
  let x := (s.grain g).x a.toNat
  let y := (s.grain g).x b.toNat
  let x32 := x.setWidth 32
  let y32 := y.setWidth 32
  WritesX s g (.add g w d a b) (encA 0x00 d a b (funcW w 0x000)) d (if w then ((x32 + y32) : W32).setWidth 64 else x + y) ∧
  WritesX s g (.sub g w d a b) (encA 0x00 d a b (funcW w 0x001)) d (if w then ((x32 - y32) : W32).setWidth 64 else x - y) ∧
  WritesX s g (.and g d a b) (encA 0x00 d a b 0x002) d (x &&& y) ∧
  WritesX s g (.or g d a b) (encA 0x00 d a b 0x003) d (x ||| y) ∧
  WritesX s g (.xor g d a b) (encA 0x00 d a b 0x004) d (x ^^^ y) ∧
  WritesX s g (.andn g d a b) (encA 0x00 d a b 0x005) d (x &&& ~~~y) ∧
  WritesX s g (.slt g d a b) (encA 0x00 d a b 0x010) d (if x.toInt < y.toInt then 1 else 0) ∧
  WritesX s g (.sltu g d a b) (encA 0x00 d a b 0x011) d (if x.toNat < y.toNat then 1 else 0) ∧
  WritesX s g (.csel g d a b) (encA 0x00 d a b 0x012) d (if (s.grain g).x d.toNat ≠ 0 then x else y) ∧
  WritesX s g (.mul g w d a b) (encA 0x00 d a b (funcW w 0x018)) d (if w then ((x32 * y32) : W32).setWidth 64 else x * y) ∧
  WritesX s g (.mulhu g d a b) (encA 0x00 d a b 0x019) d (BitVec.ofNat 64 (x.toNat * y.toNat / 2 ^ 64)) ∧
  WritesX s g (.mulh g d a b) (encA 0x00 d a b 0x01A) d (BitVec.ofInt 64 (x.toInt * y.toInt / 2 ^ 64)) ∧
  WritesX s g (.divu g w d a b) (encA 0x00 d a b (funcW w 0x01C)) d (if w then ((if y32 = 0 then BitVec.allOnes 32 else x32 / y32) : W32).setWidth 64 else if y = 0 then BitVec.allOnes 64 else x / y) ∧
  WritesX s g (.remu g w d a b) (encA 0x00 d a b (funcW w 0x01D)) d (if w then ((if y32 = 0 then x32 else x32 % y32) : W32).setWidth 64 else if y = 0 then x else x % y)) ∧
  (∀ (s : State) (g : Nat) (w : Bool) (d a b : Reg),
  let x := (s.grain g).x a.toNat
  let y := (s.grain g).x b.toNat
  let x32 := x.setWidth 32
  let y32 := y.setWidth 32
  WritesX s g (.sll g w d a b) (encA 0x00 d a b (funcW w 0x008)) d (if w then ((x32 <<< (y.toNat % 32)) : W32).setWidth 64 else x <<< (y.toNat % 64)) ∧
  WritesX s g (.srl g w d a b) (encA 0x00 d a b (funcW w 0x009)) d (if w then ((x32 >>> (y.toNat % 32)) : W32).setWidth 64 else x >>> (y.toNat % 64)) ∧
  WritesX s g (.sra g w d a b) (encA 0x00 d a b (funcW w 0x00A)) d (if w then ((x32.sshiftRight (y.toNat % 32)) : W32).setWidth 64 else x.sshiftRight (y.toNat % 64)) ∧
  WritesX s g (.rol g w d a b) (encA 0x00 d a b (funcW w 0x00B)) d (if w then ((x32.rotateLeft (y.toNat % 32)) : W32).setWidth 64 else x.rotateLeft (y.toNat % 64)) ∧
  WritesX s g (.ror g w d a b) (encA 0x00 d a b (funcW w 0x00C)) d (if w then ((x32.rotateRight (y.toNat % 32)) : W32).setWidth 64 else x.rotateRight (y.toNat % 64)) ∧
  WritesX s g (.sextb g d a) (encA 0x00 d a 0 0x020) d ((x.setWidth 8).signExtend 64) ∧
  WritesX s g (.sexth g d a) (encA 0x00 d a 0 0x021) d ((x.setWidth 16).signExtend 64) ∧
  WritesX s g (.sextw g d a) (encA 0x00 d a 0 0x022) d ((x.setWidth 32).signExtend 64) ∧
  WritesX s g (.popcnt g d a) (encA 0x00 d a 0 0x023) d (BitVec.ofNat 64 ((List.range 64).countP fun i => x.getLsbD i)) ∧
  WritesX s g (.clz g d a) (encA 0x00 d a 0 0x024) d (BitVec.ofNat 64 (if x = 0 then 64 else 63 - Nat.log2 x.toNat)))) ∧
  (∀ (s : State) (g : Nat) (w : Bool) (d a : Reg) (imm : Half) (kind : BitVec 2) (amount : BitVec 6) (hw : BitVec 2),
  let x := (s.grain g).x a.toNat
  let x32 := x.setWidth 32
  WritesX s g (.addi g d a imm) (encI 0x01 d a imm) d (x + imm.signExtend 64) ∧
  WritesX s g (.andi g d a imm) (encI 0x02 d a imm) d (x &&& imm.setWidth 64) ∧
  WritesX s g (.ori g d a imm) (encI 0x03 d a imm) d (x ||| imm.setWidth 64) ∧
  WritesX s g (.xori g d a imm) (encI 0x04 d a imm) d (x ^^^ imm.setWidth 64) ∧
  (let n := amount.toNat % 64
    let m := amount.toNat % 32
    WritesX s g (.shi g d a kind w amount) (encI 0x05 d a (shiImm kind w amount)) d
      (if w then (((if kind = 0 then x32 <<< m else if kind = 1 then x32 >>> m else if kind = 2 then x32.sshiftRight m else x32.rotateRight m) : W32).setWidth 64) else if kind = 0 then x <<< n else if kind = 1 then x >>> n else if kind = 2 then x.sshiftRight n else x.rotateRight n)) ∧
  WritesX s g (.movz g d hw imm) (encW 0x06 d 0 hw imm) d (imm.setWidth 64 <<< (16 * hw.toNat)) ∧
  WritesX s g (.movk g d hw imm) (encW 0x06 d 1 hw imm) d
    (((s.grain g).x d.toNat &&& ~~~((0xFFFF : W64) <<< (16 * hw.toNat))) ||| (imm.setWidth 64 <<< (16 * hw.toNat))))

/-- JR and JAL write the index of the next instruction to the link register and go to X(SRC1), as it was before the
write, or to TARGET; each branch compares X(SRC1) with X(SRC2), goes to its own index plus the sign-extended offset
when its condition holds and on otherwise, and changes no register. -/
def Obligations.JumpsAndBranches : Prop :=
  ∀ (s : State) (g : Nat) (d a b : Reg) (off : Half) (target : BitVec 13),
  let x := (s.grain g).x a.toNat
  let y := (s.grain g).x b.toNat
  let pc := (s.grain g).pc
  Completes s g (.jr g d a) (encA 0x00 d a 0 0x028) (fun _ G => G.setX d.toNat (BitVec.ofNat 64 (pc + 1))) x.toNat ∧
  Completes s g (.jal g d target) (encJ 0x1A d target) (fun _ G => G.setX d.toNat (BitVec.ofNat 64 (pc + 1))) target.toNat ∧
  Completes s g (.beq g a b off) (encI 0x14 a b off) (fun _ G => G)
    (if x = y then (BitVec.ofNat 64 pc + off.signExtend 64).toNat else pc + 1) ∧
  Completes s g (.bne g a b off) (encI 0x15 a b off) (fun _ G => G)
    (if x ≠ y then (BitVec.ofNat 64 pc + off.signExtend 64).toNat else pc + 1) ∧
  Completes s g (.blt g a b off) (encI 0x16 a b off) (fun _ G => G)
    (if x.toInt < y.toInt then (BitVec.ofNat 64 pc + off.signExtend 64).toNat else pc + 1) ∧
  Completes s g (.bge g a b off) (encI 0x17 a b off) (fun _ G => G)
    (if y.toInt ≤ x.toInt then (BitVec.ofNat 64 pc + off.signExtend 64).toNat else pc + 1) ∧
  Completes s g (.bltu g a b off) (encI 0x18 a b off) (fun _ G => G)
    (if x.toNat < y.toNat then (BitVec.ofNat 64 pc + off.signExtend 64).toNat else pc + 1) ∧
  Completes s g (.bgeu g a b off) (encI 0x19 a b off) (fun _ G => G)
    (if y.toNat ≤ x.toNat then (BitVec.ofNat 64 pc + off.signExtend 64).toNat else pc + 1)

/-- LD, LW, LH and LB read 8, 4, 2 and 1 little-endian bytes of DM or the twiddle ROM at X(SRC1) plus the sign-
extended immediate and zero-extend them; FLD loads an F register under FLAGS.FP and SLD an S register that exists;
each completes where the address is aligned to its size and readable and no memory error occurs. -/
def Obligations.Loads : Prop :=
  ∀ (s : State) (g : Nat) (d a : Reg) (imm : Half),
  let ea := ((s.grain g).x a.toNat + imm.signExtend 64).toNat
  let flags := (s.grain g).header.flags
  (ea % 8 = 0 → (ea + 8 ≤ 0x10000 ∨ (0x10000 ≤ ea ∧ ea + 8 ≤ 0x16000)) →
    WritesX s g (.ld g d a imm false) (encI 0x08 d a imm) d (BitVec.ofNat 64 (leNat ((s.grain g).bytes ea 8)))) ∧
  (ea % 4 = 0 → (ea + 4 ≤ 0x10000 ∨ (0x10000 ≤ ea ∧ ea + 4 ≤ 0x16000)) →
    WritesX s g (.lw g d a imm false) (encI 0x09 d a imm) d (BitVec.ofNat 64 (leNat ((s.grain g).bytes ea 4)))) ∧
  (ea % 2 = 0 → (ea + 2 ≤ 0x10000 ∨ (0x10000 ≤ ea ∧ ea + 2 ≤ 0x16000)) →
    WritesX s g (.lh g d a imm false) (encI 0x0A d a imm) d (BitVec.ofNat 64 (leNat ((s.grain g).bytes ea 2)))) ∧
  (ea % 1 = 0 → (ea + 1 ≤ 0x10000 ∨ (0x10000 ≤ ea ∧ ea + 1 ≤ 0x16000)) →
    WritesX s g (.lb g d a imm false) (encI 0x0B d a imm) d (BitVec.ofNat 64 (leNat ((s.grain g).bytes ea 1)))) ∧
  (ea % 8 = 0 → (ea + 8 ≤ 0x10000 ∨ (0x10000 ≤ ea ∧ ea + 8 ≤ 0x16000)) →
    flags.testBit 2 = true →
    Completes s g (.fld g d a imm false) (encI 0x10 d a imm)
      (fun _ G => G.setF d.toNat (BitVec.ofNat 64 (leNat (G.bytes ea 8)))) ((s.grain g).pc + 1)) ∧
  (ea % 16 = 0 → (ea + 16 ≤ 0x10000 ∨ (0x10000 ≤ ea ∧ ea + 16 ≤ 0x16000)) →
    ((s.grain g).compat = false ∨ d.toNat < 16) →
    Completes s g (.sld g d a imm false) (encI 0x12 d a imm)
      (fun _ G => G.setS d.toNat (BitVec.ofNat 128 (leNat (G.bytes ea 16)))) ((s.grain g).pc + 1))

/-- SD, SW, SH and SB store the low 8, 4, 2 and 1 bytes of X, FSD an F register under FLAGS.FP and SST an S register
that exists, at X(SRC1) plus the sign-extended immediate; each completes where the address is aligned and every byte
may be written. -/
def Obligations.Stores : Prop :=
  ∀ (s : State) (g : Nat) (d a : Reg) (imm : Half),
  let ea := ((s.grain g).x a.toNat + imm.signExtend 64).toNat
  let flags := (s.grain g).header.flags
  (ea % 8 = 0 → (ea + 8 ≤ 0x10000 ∧ ∀ i < 8, 0x800 ≤ ea + i ∨ resultByte (ea + i) = true) →
    Completes s g (.sd g d a imm) (encI 0x0C d a imm)
      (fun _ G => G.store ea (leBytes 8 (G.x d.toNat).toNat)) ((s.grain g).pc + 1)) ∧
  (ea % 4 = 0 → (ea + 4 ≤ 0x10000 ∧ ∀ i < 4, 0x800 ≤ ea + i ∨ resultByte (ea + i) = true) →
    Completes s g (.sw g d a imm) (encI 0x0D d a imm)
      (fun _ G => G.store ea (leBytes 4 (G.x d.toNat).toNat)) ((s.grain g).pc + 1)) ∧
  (ea % 2 = 0 → (ea + 2 ≤ 0x10000 ∧ ∀ i < 2, 0x800 ≤ ea + i ∨ resultByte (ea + i) = true) →
    Completes s g (.sh g d a imm) (encI 0x0E d a imm)
      (fun _ G => G.store ea (leBytes 2 (G.x d.toNat).toNat)) ((s.grain g).pc + 1)) ∧
  (ea % 1 = 0 → (ea + 1 ≤ 0x10000 ∧ ∀ i < 1, 0x800 ≤ ea + i ∨ resultByte (ea + i) = true) →
    Completes s g (.sb g d a imm) (encI 0x0F d a imm)
      (fun _ G => G.store ea (leBytes 1 (G.x d.toNat).toNat)) ((s.grain g).pc + 1)) ∧
  (ea % 8 = 0 → (ea + 8 ≤ 0x10000 ∧ ∀ i < 8, 0x800 ≤ ea + i ∨ resultByte (ea + i) = true) →
    flags.testBit 2 = true →
    Completes s g (.fsd g d a imm) (encI 0x11 d a imm)
      (fun _ G => G.store ea (leBytes 8 (G.f d.toNat).toNat)) ((s.grain g).pc + 1)) ∧
  (ea % 16 = 0 → (ea + 16 ≤ 0x10000 ∧ ∀ i < 16, 0x800 ≤ ea + i ∨ resultByte (ea + i) = true) →
    ((s.grain g).compat = false ∨ d.toNat < 16) →
    Completes s g (.sst g d a imm) (encI 0x13 d a imm)
      (fun _ G => G.store ea (leBytes 16 (G.sreg d.toNat).toNat)) ((s.grain g).pc + 1))

/-- A misaligned access, and one outside what the grain may read or write, ends the job with PROGRAM_FAULT of cause
DM_BOUNDS and with the program counter in DETAIL. -/
def Obligations.AccessFaults : Prop :=
  ∀ (s : State) (g : Nat) (d a : Reg) (imm : Half) (ecc : Bool),
  let ea := ((s.grain g).x a.toNat + imm.signExtend 64).toNat
  ((ea % 8 ≠ 0 ∨ canRead ea 8 = false) → Faults s g (.ld g d a imm ecc) (encI 0x08 d a imm) causeDmBounds) ∧
  ((ea % 4 ≠ 0 ∨ canRead ea 4 = false) → Faults s g (.lw g d a imm ecc) (encI 0x09 d a imm) causeDmBounds) ∧
  ((ea % 2 ≠ 0 ∨ canRead ea 2 = false) → Faults s g (.lh g d a imm ecc) (encI 0x0A d a imm) causeDmBounds) ∧
  (canRead ea 1 = false → Faults s g (.lb g d a imm ecc) (encI 0x0B d a imm) causeDmBounds) ∧
  ((ea % 8 ≠ 0 ∨ canWrite ea 8 = false) → Faults s g (.sd g d a imm) (encI 0x0C d a imm) causeDmBounds) ∧
  ((ea % 4 ≠ 0 ∨ canWrite ea 4 = false) → Faults s g (.sw g d a imm) (encI 0x0D d a imm) causeDmBounds) ∧
  ((ea % 2 ≠ 0 ∨ canWrite ea 2 = false) → Faults s g (.sh g d a imm) (encI 0x0E d a imm) causeDmBounds) ∧
  (canWrite ea 1 = false → Faults s g (.sb g d a imm) (encI 0x0F d a imm) causeDmBounds)

/-- Each of the 17 floating-point instructions completes under FLAGS.FP with a rounding field of 0 to 4, where 0 takes
FCSR.RM and 1 to 4 select RNE, RTZ, RDN and RUP; it writes its result to F(DST) or X(DST), adds its flags to FCSR and
goes on. Without FLAGS.FP, and with a rounding field of 5 to 7, each floating-point instruction ends the job with
PROGRAM_FAULT of cause ILLEGAL. -/
def Obligations.FloatingPoint : Prop :=
  (∀ (s : State) (g : Nat) (rm : BitVec 3) (d a b : Reg), (s.grain g).header.flags.testBit 2 = true → rm.toNat ≤ 4 →
  let x := ((s.grain g).f a.toNat).toNat
  let y := ((s.grain g).f b.toNat).toNat
  let z := ((s.grain g).f d.toNat).toNat
  let i := ((s.grain g).x a.toNat).toNat
  let m := if rm = 0 then (s.grain g).regs.fcsr.toNat % 8 else rm.toNat - 1
  let next := (s.grain g).pc + 1
  Completes s g (.fadd g rm d a b) (encA 0x20 d a b (funcFp rm 0x00)) (fun _ G => (G.setF d.toNat (BitVec.ofNat 64 ((fpAdd m x y).1))).raise ((fpAdd m x y).2)) next ∧
  Completes s g (.fsub g rm d a b) (encA 0x20 d a b (funcFp rm 0x01)) (fun _ G => (G.setF d.toNat (BitVec.ofNat 64 ((fpSub m x y).1))).raise ((fpSub m x y).2)) next ∧
  Completes s g (.fmul g rm d a b) (encA 0x20 d a b (funcFp rm 0x02)) (fun _ G => (G.setF d.toNat (BitVec.ofNat 64 ((fpMul m x y).1))).raise ((fpMul m x y).2)) next ∧
  Completes s g (.fdiv g rm d a b) (encA 0x20 d a b (funcFp rm 0x03)) (fun _ G => (G.setF d.toNat (BitVec.ofNat 64 ((fpDiv m x y).1))).raise ((fpDiv m x y).2)) next ∧
  Completes s g (.fsqrt g rm d a) (encA 0x20 d a 0 (funcFp rm 0x04)) (fun _ G => (G.setF d.toNat (BitVec.ofNat 64 ((fpSqrt m x).1))).raise ((fpSqrt m x).2)) next ∧
  Completes s g (.fma g rm d a b) (encA 0x20 d a b (funcFp rm 0x05)) (fun _ G => (G.setF d.toNat (BitVec.ofNat 64 ((fpFma m x y z).1))).raise ((fpFma m x y z).2)) next ∧
  Completes s g (.fmin g rm d a b) (encA 0x20 d a b (funcFp rm 0x08)) (fun _ G => (G.setF d.toNat (BitVec.ofNat 64 ((fpMin x y).1))).raise ((fpMin x y).2)) next ∧
  Completes s g (.fmax g rm d a b) (encA 0x20 d a b (funcFp rm 0x09)) (fun _ G => (G.setF d.toNat (BitVec.ofNat 64 ((fpMax x y).1))).raise ((fpMax x y).2)) next ∧
  Completes s g (.fneg g rm d a) (encA 0x20 d a 0 (funcFp rm 0x0A)) (fun _ G => (G.setF d.toNat (BitVec.ofNat 64 (if fpIsNaN x then fpNaN else x ^^^ 2 ^ 63))).raise (0)) next ∧
  Completes s g (.fabs g rm d a) (encA 0x20 d a 0 (funcFp rm 0x0B)) (fun _ G => (G.setF d.toNat (BitVec.ofNat 64 (if fpIsNaN x then fpNaN else x % 2 ^ 63))).raise (0)) next ∧
  Completes s g (.feq g rm d a b) (encA 0x20 d a b (funcFp rm 0x10)) (fun _ G => (G.setX d.toNat (BitVec.ofNat 64 ((fpEq x y).1))).raise ((fpEq x y).2)) next ∧
  Completes s g (.flt g rm d a b) (encA 0x20 d a b (funcFp rm 0x11)) (fun _ G => (G.setX d.toNat (BitVec.ofNat 64 ((fpLt x y).1))).raise ((fpLt x y).2)) next ∧
  Completes s g (.fle g rm d a b) (encA 0x20 d a b (funcFp rm 0x12)) (fun _ G => (G.setX d.toNat (BitVec.ofNat 64 ((fpLe x y).1))).raise ((fpLe x y).2)) next ∧
  Completes s g (.fcvtld g rm d a) (encA 0x20 d a 0 (funcFp rm 0x18)) (fun _ G => (G.setX d.toNat (BitVec.ofNat 64 ((fpToInt m x).1))).raise ((fpToInt m x).2)) next ∧
  Completes s g (.fcvtdl g rm d a) (encA 0x20 d a 0 (funcFp rm 0x19)) (fun _ G => (G.setF d.toNat (BitVec.ofNat 64 ((fpOfInt m i).1))).raise ((fpOfInt m i).2)) next ∧
  Completes s g (.fmvxd g rm d a) (encA 0x20 d a 0 (funcFp rm 0x1A)) (fun _ G => (G.setX d.toNat (BitVec.ofNat 64 (x))).raise (0)) next ∧
  Completes s g (.fmvdx g rm d a) (encA 0x20 d a 0 (funcFp rm 0x1B)) (fun _ G => (G.setF d.toNat (BitVec.ofNat 64 (i))).raise (0)) next) ∧
  (∀ (s : State) (g : Nat) (rm : BitVec 3) (d a b : Reg), (s.grain g).header.flags.testBit 2 = false ∨ 5 ≤ rm.toNat →
  Faults s g (.fadd g rm d a b) (encA 0x20 d a b (funcFp rm 0x00)) causeIllegal ∧
  Faults s g (.fsub g rm d a b) (encA 0x20 d a b (funcFp rm 0x01)) causeIllegal ∧
  Faults s g (.fmul g rm d a b) (encA 0x20 d a b (funcFp rm 0x02)) causeIllegal ∧
  Faults s g (.fdiv g rm d a b) (encA 0x20 d a b (funcFp rm 0x03)) causeIllegal ∧
  Faults s g (.fma g rm d a b) (encA 0x20 d a b (funcFp rm 0x05)) causeIllegal ∧
  Faults s g (.fmin g rm d a b) (encA 0x20 d a b (funcFp rm 0x08)) causeIllegal ∧
  Faults s g (.fmax g rm d a b) (encA 0x20 d a b (funcFp rm 0x09)) causeIllegal ∧
  Faults s g (.feq g rm d a b) (encA 0x20 d a b (funcFp rm 0x10)) causeIllegal ∧
  Faults s g (.flt g rm d a b) (encA 0x20 d a b (funcFp rm 0x11)) causeIllegal ∧
  Faults s g (.fle g rm d a b) (encA 0x20 d a b (funcFp rm 0x12)) causeIllegal ∧
  Faults s g (.fsqrt g rm d a) (encA 0x20 d a 0 (funcFp rm 0x04)) causeIllegal ∧
  Faults s g (.fneg g rm d a) (encA 0x20 d a 0 (funcFp rm 0x0A)) causeIllegal ∧
  Faults s g (.fabs g rm d a) (encA 0x20 d a 0 (funcFp rm 0x0B)) causeIllegal ∧
  Faults s g (.fcvtld g rm d a) (encA 0x20 d a 0 (funcFp rm 0x18)) causeIllegal ∧
  Faults s g (.fcvtdl g rm d a) (encA 0x20 d a 0 (funcFp rm 0x19)) causeIllegal ∧
  Faults s g (.fmvxd g rm d a) (encA 0x20 d a 0 (funcFp rm 0x1A)) causeIllegal ∧
  Faults s g (.fmvdx g rm d a) (encA 0x20 d a 0 (funcFp rm 0x1B)) causeIllegal)

/-- Each of the 18 short-vector instructions completes at a width its table allows and on S registers that exist, with
its result element by element in S(DST), or in X(DST) for VEXT. -/
def Obligations.ShortVector : Prop :=
  ∀ (s : State) (g : Nat) (ew : BitVec 2) (d a b : Reg),
  let n := 8 * 2 ^ ew.toNat
  let x := (s.grain g).sreg a.toNat
  let y := (s.grain g).sreg b.toNat
  let t := (s.grain g).sreg d.toNat
  let i := ((s.grain g).x a.toNat).toNat
  let k := ((s.grain g).x b.toNat).toNat
  let next := (s.grain g).pc + 1
  (SRegs (s.grain g) [d, a, b] →
    Completes s g (.svVadd g ew d a b) (encA 0x24 d a b (funcSv ew 0x00)) (fun _ G => G.setS d.toNat (svPack n (List.zipWith (fun a b => a + b) (svElems n x) (svElems n y)))) next) ∧
  (SRegs (s.grain g) [d, a, b] →
    Completes s g (.svVsub g ew d a b) (encA 0x24 d a b (funcSv ew 0x01)) (fun _ G => G.setS d.toNat (svPack n (List.zipWith (fun a b => a + 2 ^ n - b) (svElems n x) (svElems n y)))) next) ∧
  (SRegs (s.grain g) [d, a, b] →
    Completes s g (.svVand g ew d a b) (encA 0x24 d a b (funcSv ew 0x02)) (fun _ G => G.setS d.toNat (svPack n (List.zipWith (fun a b => a &&& b) (svElems n x) (svElems n y)))) next) ∧
  (SRegs (s.grain g) [d, a, b] →
    Completes s g (.svVor g ew d a b) (encA 0x24 d a b (funcSv ew 0x03)) (fun _ G => G.setS d.toNat (svPack n (List.zipWith (fun a b => a ||| b) (svElems n x) (svElems n y)))) next) ∧
  (SRegs (s.grain g) [d, a, b] →
    Completes s g (.svVxor g ew d a b) (encA 0x24 d a b (funcSv ew 0x04)) (fun _ G => G.setS d.toNat (svPack n (List.zipWith (fun a b => a ^^^ b) (svElems n x) (svElems n y)))) next) ∧
  (SRegs (s.grain g) [d, a, b] →
    Completes s g (.svVandn g ew d a b) (encA 0x24 d a b (funcSv ew 0x05)) (fun _ G => G.setS d.toNat (svPack n (List.zipWith (fun a b => a &&& (2 ^ n - 1 - b)) (svElems n x) (svElems n y)))) next) ∧
  (ew ≠ 0 → SRegs (s.grain g) [d, a] →
    Completes s g (.svVshl g ew d a b) (encA 0x24 d a b (funcSv ew 0x08)) (fun _ G => G.setS d.toNat (svPack n ((svElems n x).map (fun a => a <<< (k % n))))) next) ∧
  (ew ≠ 0 → SRegs (s.grain g) [d, a] →
    Completes s g (.svVsrl g ew d a b) (encA 0x24 d a b (funcSv ew 0x09)) (fun _ G => G.setS d.toNat (svPack n ((svElems n x).map (fun a => a >>> (k % n))))) next) ∧
  (ew ≠ 0 → SRegs (s.grain g) [d, a] →
    Completes s g (.svVsra g ew d a b) (encA 0x24 d a b (funcSv ew 0x0A)) (fun _ G => G.setS d.toNat (svPack n ((svElems n x).map (fun a => ofSigned n (toSigned n a / (2 ^ (k % n) : Nat)))))) next) ∧
  (SRegs (s.grain g) [d, a, b] →
    Completes s g (.svVcmpeq g ew d a b) (encA 0x24 d a b (funcSv ew 0x10)) (fun _ G => G.setS d.toNat (svPack n (List.zipWith (fun a b => if a = b then 2 ^ n - 1 else 0) (svElems n x) (svElems n y)))) next) ∧
  (SRegs (s.grain g) [d, a, b] →
    Completes s g (.svVcmpgt g ew d a b) (encA 0x24 d a b (funcSv ew 0x11)) (fun _ G => G.setS d.toNat (svPack n (List.zipWith (fun a b => if toSigned n b < toSigned n a then 2 ^ n - 1 else 0) (svElems n x) (svElems n y)))) next) ∧
  (SRegs (s.grain g) [d, a, b] →
    Completes s g (.svVsel g ew d a b) (encA 0x24 d a b (funcSv ew 0x12)) (fun _ G => G.setS d.toNat ((t &&& x) ||| (~~~t &&& y))) next) ∧
  (ew = 1 ∨ ew = 2 → SRegs (s.grain g) [d, a, b] →
    Completes s g (.svVmullo g ew d a b) (encA 0x24 d a b (funcSv ew 0x18)) (fun _ G => G.setS d.toNat (svPack n (List.zipWith (fun a b => ofSigned n (toSigned n a * toSigned n b)) (svElems n x) (svElems n y)))) next) ∧
  (ew = 1 ∨ ew = 2 → SRegs (s.grain g) [d, a, b] →
    Completes s g (.svVmulhi g ew d a b) (encA 0x24 d a b (funcSv ew 0x19)) (fun _ G => G.setS d.toNat (svPack n (List.zipWith (fun a b => ofSigned n (toSigned n a * toSigned n b / (2 ^ n : Nat))) (svElems n x) (svElems n y)))) next) ∧
  (ew = 0 → SRegs (s.grain g) [d, a, b] →
    Completes s g (.svVpermb g ew d a b) (encA 0x24 d a b (funcSv ew 0x20)) (fun _ G => G.setS d.toNat (svPack 8 ((svElems 8 y).map fun k => ((svElems 8 x)[k % 16]?).getD 0))) next) ∧
  (SRegs (s.grain g) [d] →
    Completes s g (.svVsplat g ew d a) (encA 0x24 d a 0 (funcSv ew 0x28)) (fun _ G => G.setS d.toNat (svPack n (List.replicate (128 / n) i))) next) ∧
  (b.toNat < 128 / n → SRegs (s.grain g) [d] →
    Completes s g (.svVins g ew d a b) (encA 0x24 d a b (funcSv ew 0x29)) (fun _ G => G.setS d.toNat (svPack n ((svElems n t).set b.toNat i))) next) ∧
  (b.toNat < 128 / n → SRegs (s.grain g) [a] →
    Completes s g (.svVext g ew d a b) (encA 0x24 d a b (funcSv ew 0x2A)) (fun _ G => G.setX d.toNat (BitVec.ofNat 64 (((svElems n x)[b.toNat]?).getD 0))) next)

/-- SHAINIT sets the initial value of variants 0 to 4 and is illegal above; SHABLK compresses the block at X(SRC1);
SHAOUT and SHALD move the state; KPERM permutes 200 bytes in place; each completes where its bytes are aligned and in
range. -/
def Obligations.HashUnits : Prop :=
  ∀ (s : State) (g : Nat) (a : Reg),
  let v := (s.grain g).units.shaVariant
  let p := ((s.grain g).x a.toNat).toNat
  let next := (s.grain g).pc + 1
  (a.toNat ≤ 4 → Completes s g (.shainit g a) (encA 0x28 0 0 a 0x000)
    (fun _ G => { G with units := { G.units with shaVariant := a.toNat, shaState := shaInitial a.toNat } }) next) ∧
  (5 ≤ a.toNat → Faults s g (.shainit g a) (encA 0x28 0 0 a 0x000) causeIllegal) ∧
  (p % 64 = 0 → canRead p (shaBlockLen v) = true → Completes s g (.shablk g a) (encA 0x28 0 a 0 0x001)
    (fun _ G => { G with units := { G.units with
      shaState := shaCompress (shaFamily v) G.units.shaState (G.bytes p (shaBlockLen v)) } }) next) ∧
  (p % 8 = 0 → canWrite p (shaStateLen v) = true → Completes s g (.shaout g a) (encA 0x28 0 a 0 0x002)
    (fun _ G => G.store p (beBytes (shaStateLen v) G.units.shaState)) next) ∧
  (canRead p (shaStateLen v) = true → Completes s g (.shald g a) (encA 0x28 0 a 0 0x003)
    (fun _ G => { G with units := { G.units with shaState := beNat (G.bytes p (shaStateLen v)) } }) next) ∧
  (p % 8 = 0 → canWrite p 200 = true → Completes s g (.kperm g a) (encA 0x2A 0 a 0 0x000)
    (fun _ G => G.store p (leBytes 200 (keccakF (leNat (G.bytes p 200))))) next)

/-- AESKEY and TDESKEY load an unmasked key of their kind from outside the key port region, and are illegal inside it;
AESKEYM and TDESKEYM load the exclusive or of two shares at masking order 1; AESENC, AESDEC, TDESENC and TDESDEC apply
the loaded key to S(SRC1) and write S(DST), TDES its bits 63:0 only. With no key loaded the bytes are free (log entry
15, the model's choice). -/
def Obligations.CipherUnits : Prop :=
  ∀ (s : State) (g : Nat) (d a b : Reg),
  let n := 16 + 8 * b.toNat
  let p := ((s.grain g).x a.toNat).toNat
  let x := (s.grain g).sreg a.toNat
  let t := (s.grain g).sreg d.toNat
  let next := (s.grain g).pc + 1
  (b.toNat ≤ 2 → keyRegion p n = false → canRead p n = true → Completes s g (.aeskey g a b) (encA 0x29 0 a b 0x000)
    (fun _ G => { G with units := { G.units with aesKey := some (G.bytes p n) } }) next) ∧
  (b.toNat ≤ 2 → keyRegion p n = true → Faults s g (.aeskey g a b) (encA 0x29 0 a b 0x000) causeIllegal) ∧
  (b.toNat ≤ 2 → canRead p n = true → canRead (p + 0x100) n = true →
    OrderOne s g (.aeskeym g a b) (encA 0x29 0 a b 0x001)
      (fun _ G => { G with units := { G.units with aesKey := some (xorBytes (G.bytes p n) (G.bytes (p + 0x100) n)) } }) next) ∧
  (b.toNat ≤ 1 → keyRegion p n = false → canRead p n = true → Completes s g (.tdeskey g a b) (encA 0x29 0 a b 0x008)
    (fun _ G => { G with units := { G.units with tdesKey := some (G.bytes p n) } }) next) ∧
  (b.toNat ≤ 1 → keyRegion p n = true → Faults s g (.tdeskey g a b) (encA 0x29 0 a b 0x008) causeIllegal) ∧
  (b.toNat ≤ 1 → canRead p n = true → canRead (p + 0x100) n = true →
    OrderOne s g (.tdeskeym g a b) (encA 0x29 0 a b 0x009)
      (fun _ G => { G with units := { G.units with tdesKey := some (xorBytes (G.bytes p n) (G.bytes (p + 0x100) n)) } }) next) ∧
  (SRegs (s.grain g) [d, a] → Completes s g (.aesenc g d a) (encA 0x29 d a 0 0x002)
    (fun c G => G.setS d.toNat (ofSBytes (underKey G.units.aesKey c.free 16 aesEncrypt (sBytes x)))) next) ∧
  (SRegs (s.grain g) [d, a] → Completes s g (.aesdec g d a) (encA 0x29 d a 0 0x003)
    (fun c G => G.setS d.toNat (ofSBytes (underKey G.units.aesKey c.free 16 aesDecrypt (sBytes x)))) next) ∧
  (SRegs (s.grain g) [d, a] → Completes s g (.tdesenc g d a) (encA 0x29 d a 0 0x00A)
    (fun c G => G.setS d.toNat (lowHalf t (leNat (underKey G.units.tdesKey c.free 8 tdesEncrypt (leBytes 8 x.toNat))))) next) ∧
  (SRegs (s.grain g) [d, a] → Completes s g (.tdesdec g d a) (encA 0x29 d a 0 0x00B)
    (fun c G => G.setS d.toNat (lowHalf t (leNat (underKey G.units.tdesKey c.free 8 tdesDecrypt (leBytes 8 x.toNat))))) next)

/-- At masking order 1, AESENCM, AESDECM, TDESENCM and TDESDECM on even S registers that exist complete, and whatever
the free share is, the exclusive or of S(DST) and S(DST + 1) is the block under the loaded key of the exclusive or of
S(SRC1) and S(SRC1 + 1); TDES in bits 63:0. -/
def Obligations.MaskedCiphers : Prop :=
  ∀ (s : State) (g : Nat) (d a : Reg), d.toNat % 2 = 0 → a.toNat % 2 = 0 → SRegs (s.grain g) [d, a] →
  let x := (s.grain g).sreg a.toNat ^^^ (s.grain g).sreg (a.toNat + 1)
  (∀ k, (s.grain g).units.aesKey = some k → ∀ j job, s.fetching g (encA 0x29 d a 0 0x004) = some (j, job) → job.order2 = false →
    ∃ t, exec (.aesencm g d a) s = .next t ∧ (t.grain g).pc = (s.grain g).pc + 1 ∧
      (t.grain g).sreg d.toNat ^^^ (t.grain g).sreg (d.toNat + 1) = ofSBytes (aesEncrypt k (sBytes x))) ∧
  (∀ k, (s.grain g).units.aesKey = some k → ∀ j job, s.fetching g (encA 0x29 d a 0 0x005) = some (j, job) → job.order2 = false →
    ∃ t, exec (.aesdecm g d a) s = .next t ∧ (t.grain g).pc = (s.grain g).pc + 1 ∧
      (t.grain g).sreg d.toNat ^^^ (t.grain g).sreg (d.toNat + 1) = ofSBytes (aesDecrypt k (sBytes x))) ∧
  (∀ k, (s.grain g).units.tdesKey = some k → ∀ j job, s.fetching g (encA 0x29 d a 0 0x00C) = some (j, job) → job.order2 = false →
    ∃ t, exec (.tdesencm g d a) s = .next t ∧ (t.grain g).pc = (s.grain g).pc + 1 ∧
      ((t.grain g).sreg d.toNat ^^^ (t.grain g).sreg (d.toNat + 1)).extractLsb' 0 64 =
        BitVec.ofNat 64 (leNat (tdesEncrypt k (leBytes 8 x.toNat)))) ∧
  (∀ k, (s.grain g).units.tdesKey = some k → ∀ j job, s.fetching g (encA 0x29 d a 0 0x00D) = some (j, job) → job.order2 = false →
    ∃ t, exec (.tdesdecm g d a) s = .next t ∧ (t.grain g).pc = (s.grain g).pc + 1 ∧
      ((t.grain g).sreg d.toNat ^^^ (t.grain g).sreg (d.toNat + 1)).extractLsb' 0 64 =
        BitVec.ofNat 64 (leNat (tdesDecrypt k (leBytes 8 x.toNat))))

/-- CSRR reads every control register of the map with its value, and faults as ILLEGAL on any other number; CSRW
writes FCSR, VL, EW and LPUB within their limits, and faults as ILLEGAL on a read-only or unmapped number and on a
refused value. -/
def Obligations.ControlRegisters : Prop :=
  ∀ (s : State) (g : Nat) (d a : Reg) (n : Half) (j : Nat) (job : Job),
  let G := s.grain g
  let v := G.x a.toNat
  let next := G.pc + 1
  let r := encI 0x30 d 0 n
  let w := encI 0x31 0 a n
  (∀ value, (n.toNat, value) ∈
      [(0x000, BitVec.ofNat 64 G.regs.cycle), (0x001, BitVec.ofNat 64 G.regs.instret), (0x002, G.regs.fcsr),
        (0x010, BitVec.ofNat 64 G.regs.vl), (0x011, if G.regs.ew32 then 1 else 0), (0x012, BitVec.ofNat 64 G.regs.lpub),
        (0x020, BitVec.ofNat 64 g), (0x021, BitVec.ofNat 64 job.tenant),
        (0x022, BitVec.ofNat 64 ((if G.compat then 1 else 0) + 2 * (if job.order2 then 1 else 0))),
        (0x023, BitVec.ofNat 64 (g / 256)), (0x030, BitVec.ofNat 64 G.expander.count),
        (0x040, BitVec.ofNat 64 (s.bnstat g j))] →
    s.fetching g r = some (j, job) → exec (.csrr g d n) s = .next (retired s g (G.setX d.toNat value) next)) ∧
  (n.toNat ∉ [0x000, 0x001, 0x002, 0x010, 0x011, 0x012, 0x020, 0x021, 0x022, 0x023, 0x030, 0x040] →
    Faults s g (.csrr g d n) r causeIllegal) ∧
  (n.toNat = 0x002 → v.toNat % 8 < 4 → Completes s g (.csrw g a n) w
    (fun _ G => { G with regs := { G.regs with fcsr := BitVec.ofNat 64 (v.toNat / 16 % 32 * 16 + v.toNat % 8) } }) next) ∧
  (n.toNat = 0x010 → v.toNat * G.ew ≤ 8192 → Completes s g (.csrw g a n) w
    (fun _ G => { G with regs := { G.regs with vl := v.toNat } }) next) ∧
  (n.toNat = 0x011 → Completes s g (.csrw g a n) w
    (fun _ G => { G with regs := { G.regs with ew32 := v.getLsbD 0 } }) next) ∧
  (n.toNat = 0x012 → v.toNat &&& G.header.pubLregs = v.toNat → Completes s g (.csrw g a n) w
    (fun c G => G.setLpub c.order2 v.toNat) next) ∧
  (n.toNat ∉ [0x002, 0x010, 0x011, 0x012] ∨ (n.toNat = 0x002 ∧ 4 ≤ v.toNat % 8) ∨
      (n.toNat = 0x010 ∧ 8192 < v.toNat * G.ew) ∨ (n.toNat = 0x012 ∧ v.toNat &&& G.header.pubLregs ≠ v.toNat) →
    Faults s g (.csrw g a n) w causeIllegal)

/-- Each two-source instruction of LVA and LVM completes where its MOD and SH are in its row, its registers exist and
are aligned and do not overlap, and VL times EW is at most 8,192; it combines the elements of its sources in every
plane that SH selects, in the active elements below VL; with VL 0 it changes nothing, and a broken check is ILLEGAL.
-/
def Obligations.LongVectorArithmetic : Prop :=
  ∀ (s : State) (g : Nat) (o : LvOps),
  LvRuns s g (.vadd g o) (encLv2 0x38 o 0x00)
    (legalBinary [0, 1, 2, 3] [0, 1, 2] o)
    (fun c G => lvBinary false o (fun a b => (a + b) % modulusOf G.ew o.modulus.toNat) c G) ∧
  LvRuns s g (.vsub g o) (encLv2 0x38 o 0x01)
    (legalBinary [0, 1, 2, 3] [0, 1, 2] o)
    (fun c G => lvBinary false o (fun a b => (((a : Int) - b) % (modulusOf G.ew o.modulus.toNat : Nat)).toNat) c G) ∧
  LvRuns s g (.vand g o) (encLv2 0x38 o 0x04)
    (legalBinary [0] [0, 2] o)
    (fun c G => lvBinary true o (fun a b => a &&& b) c G) ∧
  LvRuns s g (.vor g o) (encLv2 0x38 o 0x05)
    (legalBinary [0] [0] o)
    (fun c G => lvBinary true o (fun a b => a ||| b) c G) ∧
  LvRuns s g (.vxor g o) (encLv2 0x38 o 0x06)
    (legalBinary [0] [0, 1, 2] o)
    (fun c G => lvBinary false o (fun a b => a ^^^ b) c G) ∧
  LvRuns s g (.vandn g o) (encLv2 0x38 o 0x07)
    (legalBinary [0] [0, 2] o)
    (fun c G => lvBinary true o (fun a b => a &&& (2 ^ G.ew - 1 - b)) c G) ∧
  LvRuns s g (.vmul g o) (encLv2 0x39 o 0x00)
    (legalBinary [0, 1, 2, 3] [0, 2] o)
    (fun c G => lvBinary true o (fun a b => a * b % modulusOf G.ew o.modulus.toNat) c G) ∧
  LvRuns s g (.vmulm g o) (encLv2 0x39 o 0x01)
    (legalBinary [1, 2, 3] [0, 2] o)
    (fun c G => lvBinary true o (montMul G.ew o.modulus.toNat) c G) ∧
  LvRuns s g (.vgfmul g o) (encLv2 0x39 o 0x0A)
    (legalBinary [4, 5] [0, 2] o)
    (fun c G => lvBinary true o (gfMul o.modulus.toNat) c G) ∧
  LvRuns s g (.vclmullo g o) (encLv2 0x39 o 0x08)
    (fun c G => legalBinary [0] [0, 2] o c G && decide (G.ew = 32))
    (fun c G => lvBinary true o (fun a b => clmul 32 a b % 2 ^ 32) c G) ∧
  LvRuns s g (.vclmulhi g o) (encLv2 0x39 o 0x09)
    (fun c G => legalBinary [0] [0, 2] o c G && decide (G.ew = 32))
    (fun c G => lvBinary true o (fun a b => clmul 32 a b / 2 ^ 32) c G) ∧
  LvRuns s g (.vmac g o) (encLv2 0x39 o 0x02)
    (legalBinary [0, 1, 2, 3] [0, 2] o)
    (fun c G => (shPlanes c o.sh).foldl (fun acc p =>
      let product := List.zipWith (fun a b => a * b % modulusOf G.ew o.modulus.toNat) (G.vec p (lreg o.src1)) (G.vec .a (lreg o.src2))
      acc.writeVec o.pred.toNat p (lreg o.dst)
        (List.zipWith (fun x y => (x + y) % modulusOf G.ew o.modulus.toNat) (G.vec p (lreg o.dst)) product)) G) ∧
  LvRuns s g (.vmacm g o) (encLv2 0x39 o 0x03)
    (legalBinary [1, 2, 3] [0, 2] o)
    (fun c G => (shPlanes c o.sh).foldl (fun acc p =>
      let product := List.zipWith (montMul G.ew o.modulus.toNat) (G.vec p (lreg o.src1)) (G.vec .a (lreg o.src2))
      acc.writeVec o.pred.toNat p (lreg o.dst)
        (List.zipWith (fun x y => (x + y) % modulusOf G.ew o.modulus.toNat) (G.vec p (lreg o.dst)) product)) G) ∧
  LvRuns s g (.vkbmul g o) (encLv2 0x39 o 0x05)
    (fun c G => legalBinary [1] [0, 2] o c G && decide (G.regs.vl = 256 ∨ G.regs.vl = 0))
    (fun c G => (shPlanes c o.sh).foldl (fun acc p => acc.writeVec o.pred.toNat p (lreg o.dst)
      (multiplyNtts (G.vec p (lreg o.src1)) (G.vec .a (lreg o.src2)))) G)

/-- Each shift, comparison, selection and one-source instruction of LVA, LVM and LVP completes under its checks:
shifts take X(SRC2) modulo EW, a comparison writes P(DST) with the bits of inactive elements and of elements at or
above VL cleared, VSEL writes every element below VL; with VL 0 nothing changes, and a broken check is ILLEGAL. The
scratch that VGFINV leaves is free (log entry 14). -/
def Obligations.LongVectorUnary : Prop :=
  ∀ (s : State) (g : Nat) (o : LvOps) (u : LvUnary),
  LvRuns s g (.vsll g o) (encLv2 0x38 o 0x08)
    (fun c G => decide (o.modulus = 0) && decide (o.sh.toNat ≤ 1) &&
      G.checkGroups c o.sh.toNat G.grp G.beats (lreg o.dst) G.grp [lreg o.src1])
    (fun c G => let n := (G.x o.src2.toNat).toNat % G.ew
      lvMap ⟨o.dst, o.src1, o.pred, o.sh, o.modulus⟩ (fun a => a <<< n) c G) ∧
  LvRuns s g (.vsrl g o) (encLv2 0x38 o 0x09)
    (fun c G => decide (o.modulus = 0) && decide (o.sh.toNat ≤ 1) &&
      G.checkGroups c o.sh.toNat G.grp G.beats (lreg o.dst) G.grp [lreg o.src1])
    (fun c G => let n := (G.x o.src2.toNat).toNat % G.ew
      lvMap ⟨o.dst, o.src1, o.pred, o.sh, o.modulus⟩ (fun a => a >>> n) c G) ∧
  LvRuns s g (.vsra g o) (encLv2 0x38 o 0x0A)
    (fun c G => decide (o.modulus = 0) && decide (o.sh.toNat ≤ 1) &&
      G.checkGroups c o.sh.toNat G.grp G.beats (lreg o.dst) G.grp [lreg o.src1])
    (fun c G => let n := (G.x o.src2.toNat).toNat % G.ew
      lvMap ⟨o.dst, o.src1, o.pred, o.sh, o.modulus⟩ (fun a => ofSigned G.ew (toSigned G.ew a / (2 ^ n : Nat))) c G) ∧
  LvRuns s g (.vcmpeq g o) (encLv2 0x38 o 0x10)
    (fun c G => decide (o.modulus = 0) && decide (o.sh = 0) && decide (G.regs.vl ≤ 128) &&
      decide (1 ≤ o.dst.toNat ∧ o.dst.toNat ≤ 7) && nameable c (lreg o.src1) && nameable c (lreg o.src2) &&
      decide (lreg o.src1 % G.grp = 0 ∧ lreg o.src2 % G.grp = 0))
    (fun c G => G.setP o.dst.toNat (BitVec.ofNat 128 (bitsWhere G.regs.vl fun i =>
      let x := at0 (G.vec .a (lreg o.src1)) i
      let y := at0 (G.vec .a (lreg o.src2)) i
      G.active o.pred.toNat i && decide (x = y)))) ∧
  LvRuns s g (.vcmpltu g o) (encLv2 0x38 o 0x11)
    (fun c G => decide (o.modulus = 0) && decide (o.sh = 0) && decide (G.regs.vl ≤ 128) &&
      decide (1 ≤ o.dst.toNat ∧ o.dst.toNat ≤ 7) && nameable c (lreg o.src1) && nameable c (lreg o.src2) &&
      decide (lreg o.src1 % G.grp = 0 ∧ lreg o.src2 % G.grp = 0))
    (fun c G => G.setP o.dst.toNat (BitVec.ofNat 128 (bitsWhere G.regs.vl fun i =>
      let x := at0 (G.vec .a (lreg o.src1)) i
      let y := at0 (G.vec .a (lreg o.src2)) i
      G.active o.pred.toNat i && decide (x < y)))) ∧
  LvRuns s g (.vcmpgeu g o) (encLv2 0x38 o 0x12)
    (fun c G => decide (o.modulus = 0) && decide (o.sh = 0) && decide (G.regs.vl ≤ 128) &&
      decide (1 ≤ o.dst.toNat ∧ o.dst.toNat ≤ 7) && nameable c (lreg o.src1) && nameable c (lreg o.src2) &&
      decide (lreg o.src1 % G.grp = 0 ∧ lreg o.src2 % G.grp = 0))
    (fun c G => G.setP o.dst.toNat (BitVec.ofNat 128 (bitsWhere G.regs.vl fun i =>
      let x := at0 (G.vec .a (lreg o.src1)) i
      let y := at0 (G.vec .a (lreg o.src2)) i
      G.active o.pred.toNat i && decide (y ≤ x)))) ∧
  LvRuns s g (.vsel g o) (encLv2 0x38 o 0x14)
    (legalBinary [0] [0, 1] o)
    (fun c G => (shPlanes c o.sh).foldl (fun acc p => acc.writeAll p (lreg o.dst)
      ((List.range G.regs.vl).map fun i => if G.active o.pred.toNat i then at0 (G.vec p (lreg o.src1)) i
        else at0 (G.vec p (lreg o.src2)) i)) G) ∧
  LvRuns s g (.vsplat g o) (encLv2 0x38 o 0x18)
    (fun c G => decide (o.modulus = 0) && decide (o.sh = 0) && decide (o.src2 = 0) &&
      G.checkGroups c 0 G.grp G.beats (lreg o.dst) G.grp [])
    (fun c G => G.writeVec o.pred.toNat .a (lreg o.dst) (List.replicate G.regs.vl ((G.x o.src1.toNat).toNat % 2 ^ G.ew))) ∧
  LvRuns s g (.vneg g u) (encLv1 0x38 u 0x02) (legalUnary [0, 1, 2, 3] [0, 1] u)
    (fun c G => lvMap u (modSub G.ew u.modulus.toNat 0) c G) ∧
  LvRuns s g (.vcabs g u) (encLv1 0x38 u 0x03) (legalUnary [1, 2, 3] [0] u)
    (fun c G => lvMap u (fun x => min (x % modulusOf G.ew u.modulus.toNat) (modulusOf G.ew u.modulus.toNat - x % modulusOf G.ew u.modulus.toNat)) c G) ∧
  LvRuns s g (.vred g u) (encLv1 0x39 u 0x04) (legalUnary [1, 2, 3] [0] u)
    (fun c G => lvMap u (fun x => x % modulusOf G.ew u.modulus.toNat) c G) ∧
  LvRuns s g (.vgfinv g u .none) (encLv1 0x39 u 0x0B) (legalUnary [4, 5] [0] u)
    (fun c G => { lvMap u (gfInv u.modulus.toNat) c G with micro := Config.freeMicro c.free }) ∧
  LvRuns s g (.vmov g u) (encLv1 0x3B u 0x00) (legalUnary [0] [0, 1] u)
    (fun c G => lvMap u id c G)

/-- PAND, POR, PXOR and PANDN combine two predicate registers into P1 to P7, PSETN sets the first min(X(SRC1), 128)
bits and PCNT counts the set bits into X(DST), where P0 reads as all ones; other register numbers are ILLEGAL. -/
def Obligations.Predicates : Prop :=
  ∀ (s : State) (g : Nat) (d a b : BitVec 4),
  let x := if a.toNat = 0 then BitVec.allOnes 128 else (s.grain g).regs.p.get a.toNat 0
  let y := if b.toNat = 0 then BitVec.allOnes 128 else (s.grain g).regs.p.get b.toNat 0
  LvRuns s g (.pand g d a b) (encP d a b 0x10) (fun _ _ => decide (1 ≤ d.toNat ∧ d.toNat ≤ 7 ∧ a.toNat ≤ 7 ∧ b.toNat ≤ 7))
    (fun _ G => G.setP d.toNat (x &&& y)) ∧
  LvRuns s g (.por g d a b) (encP d a b 0x11) (fun _ _ => decide (1 ≤ d.toNat ∧ d.toNat ≤ 7 ∧ a.toNat ≤ 7 ∧ b.toNat ≤ 7))
    (fun _ G => G.setP d.toNat (x ||| y)) ∧
  LvRuns s g (.pxor g d a b) (encP d a b 0x12) (fun _ _ => decide (1 ≤ d.toNat ∧ d.toNat ≤ 7 ∧ a.toNat ≤ 7 ∧ b.toNat ≤ 7))
    (fun _ G => G.setP d.toNat (x ^^^ y)) ∧
  LvRuns s g (.pandn g d a b) (encP d a b 0x13) (fun _ _ => decide (1 ≤ d.toNat ∧ d.toNat ≤ 7 ∧ a.toNat ≤ 7 ∧ b.toNat ≤ 7))
    (fun _ G => G.setP d.toNat (x &&& ~~~y)) ∧
  LvRuns s g (.psetn g d a) (encP d a 0 0x14) (fun _ _ => decide (1 ≤ d.toNat ∧ d.toNat ≤ 7))
    (fun _ G => G.setP d.toNat (BitVec.ofNat 128 (2 ^ min (G.x a.toNat).toNat 128 - 1))) ∧
  LvRuns s g (.pcnt g d a) (encP d a 0 0x15) (fun _ _ => decide (a.toNat ≤ 7))
    (fun _ G => G.setX d.toNat (BitVec.ofNat 64 ((List.range 128).countP fun i => x.getLsbD i)))

/-- VNTTS and VINTTS apply one forward or inverse stage of their layer in every plane of SH, and VBFCT and VBFGS a
Cooley-Tukey or Gentleman-Sande butterfly with the Montgomery product, top to the group at DST and bottom to the next
one, where the fixed VL, EW, layer and registers are as R153 says; otherwise they are ILLEGAL. -/
def Obligations.NumberTheoreticTransform : Prop :=
  ∀ (s : State) (g : Nat) (o : LvOps) (l : BitVec 4),
  LvRuns s g (.vntts g o l .none) (encLv2 0x3A o (0x00 + l.toNat)) (legalNtt o false l)
    (fun c G => { ((shPlanes c o.sh).foldl (fun acc p => acc.writeAll p (lreg o.dst)
      (nttStage o.modulus.toNat (o.src2.getLsbD 1) (o.src2.toNat % 2) l.toNat (G.vec p (lreg o.src1)))) G) with
        micro := Config.freeMicro c.free }) ∧
  LvRuns s g (.vintts g o l .none) (encLv2 0x3A o (0x10 + l.toNat)) (legalNtt o true l)
    (fun c G => { ((shPlanes c o.sh).foldl (fun acc p => acc.writeAll p (lreg o.dst)
      (invNttStage o.modulus.toNat (o.src2.getLsbD 1) (o.src2.toNat % 2) l.toNat (G.vec p (lreg o.src1)))) G) with
        micro := Config.freeMicro c.free }) ∧
  LvRuns s g (.vbfct g o l) (encLv2 0x3A o (0x20 + l.toNat)) (legalButterfly o l)
    (fun c G => (shPlanes c o.sh).foldl (fun acc p =>
      let m := o.modulus.toNat
      let at_ := fun (f : Nat → Nat → Nat → Nat) => (List.range G.regs.vl).map fun i =>
        f (at0 (G.vec p (lreg o.src1)) i) (at0 (G.vec p (lreg o.src2)) i) (at0 (G.vec .a (lreg l)) i)
      (acc.writeAll p (lreg o.dst) (at_ fun x y z => modAdd G.ew m x (montMul G.ew m z y))).writeAll p (lreg o.dst + G.grp)
        (at_ fun x y z => modSub G.ew m x (montMul G.ew m z y))) G) ∧
  LvRuns s g (.vbfgs g o l) (encLv2 0x3A o (0x30 + l.toNat)) (legalButterfly o l)
    (fun c G => (shPlanes c o.sh).foldl (fun acc p =>
      let m := o.modulus.toNat
      let at_ := fun (f : Nat → Nat → Nat → Nat) => (List.range G.regs.vl).map fun i =>
        f (at0 (G.vec p (lreg o.src1)) i) (at0 (G.vec p (lreg o.src2)) i) (at0 (G.vec .a (lreg l)) i)
      (acc.writeAll p (lreg o.dst) (at_ fun x y z => modAdd G.ew m x y)).writeAll p (lreg o.dst + G.grp)
        (at_ fun x y z => montMul G.ew m (modSub G.ew m y x) z)) G)

/-- VLD and VST move the planes of SH between the group at LR and DM at X(XBASE) + 64 · OFF in blocks of 64 bytes a
beat, active elements only; an address that is not 64-byte aligned or out of range ends the job with DM_BOUNDS, and a
public destination admits SH 00 from outside the key port region only. VGATHER, VSCATTER, VGATHERM and VSCATTERM move
elements by index, with the highest index winning a collision, and end the job with INDEX_RANGE where an active index
is out of range; VCOMPACT packs the active elements and counts them; VEXT and VINS move one element of a public
register or into plane .a; VPERMGEN orders 0 to VL − 1 by free 32-bit keys, one word of the expander for eight
elements. -/
def Obligations.LongVectorMoves : Prop :=
  (∀ (s : State) (g : Nat) (r : BitVec 4) (b : Reg) (p : BitVec 3) (sh : BitVec 2) (off : BitVec 11),
  let ea := ((s.grain g).x b.toNat + (off.signExtend 64 <<< 6)).toNat
  LvNeeds s g (.vld g r b p sh off false) (encLM r b p sh false off)
    (fun c G => legalLm r sh c G && (!G.anyPublic (lreg r) G.grp || (decide (sh = 0) && !keyRegion ea (lmSpan G sh))))
    (fun c G => decide (ea % 64 = 0) && canRead ea (lmSpan G sh)) causeDmBounds
    (fun c G => (lmPlanes sh).foldl (fun acc pl => acc.writeVec p.toNat pl.1 (lreg r)
      (elems G.ew G.regs.vl (leNat (G.bytes (ea + 64 * G.beats * pl.2) (64 * G.beats))))) G) ∧
  LvNeeds s g (.vst g r b p sh off) (encLM r b p sh true off)
    (fun c G => legalLm r sh c G)
    (fun c G => decide (ea % 64 = 0) && canWrite ea (lmSpan G sh)) causeDmBounds
    (fun c G => (lmPlanes sh).foldl (fun acc pl =>
      acc.storeElems p.toNat G.ew (ea + 64 * G.beats * pl.2) 0 (G.vec pl.1 (lreg r))) G)) ∧
  (∀ (s : State) (g : Nat) (o : LvOps) (u : LvUnary),
  LvNeeds s g (.vgather g o) (encLv2 0x3B o 0x01)
    (fun c G => legalBinary [0] [0, 1] o c G)
    (fun c G => (List.range G.regs.vl).all fun i =>
      !G.active o.pred.toNat i || decide (at0 (G.vec .a (lreg o.src2)) i < G.regs.vl)) causeIndexRange
    (fun c G => (shPlanes c o.sh).foldl (fun acc p => acc.writeVec o.pred.toNat p (lreg o.dst) ((G.vec .a (lreg o.src2)).map (at0 (G.vec p (lreg o.src1))))) G) ∧
  LvNeeds s g (.vscatter g o) (encLv2 0x3B o 0x02)
    (fun c G => legalBinary [0] [0, 1] o c G)
    (fun c G => (List.range G.regs.vl).all fun i =>
      !G.active o.pred.toNat i || decide (at0 (G.vec .a (lreg o.src2)) i < G.regs.vl)) causeIndexRange
    (fun c G => (shPlanes c o.sh).foldl (fun acc p => acc.writeAll p (lreg o.dst)
      (scatterVec (G.active o.pred.toNat) (G.vec .a (lreg o.src2)) (G.vec p (lreg o.src1)) (G.vec p (lreg o.dst)))) G) ∧
  LvRuns s g (.vcompact g o) (encLv2 0x3B o 0x03)
    (fun c G => lvpMode o.modulus o.sh [0, 1] && G.checkGroups c o.sh.toNat G.grp G.beats (lreg o.dst) G.grp [lreg o.src1])
    (fun c G => let keep := (List.range G.regs.vl).filter (G.active o.pred.toNat)
      ((shPlanes c o.sh).foldl (fun acc p => acc.writeAll p (lreg o.dst) (keep.map (at0 (G.vec p (lreg o.src1))))) G).setX
        o.src2.toNat (BitVec.ofNat 64 keep.length)) ∧
  LvNeeds s g (.vgatherm g o false) (encLv2 0x3B o 0x05)
    (fun c G => lvpMode o.modulus o.sh [0] && G.checkGroups c 0 G.grp G.beats (lreg o.dst) G.grp [lreg o.src2])
    (fun c G => decide ((G.x o.src1.toNat).toNat % (G.ew / 8) = 0) && (List.range G.regs.vl).all fun i =>
      let a := at0 (elemAddresses G (G.x o.src1.toNat).toNat (G.vec .a (lreg o.src2))) i
      !G.active o.pred.toNat i || (canRead a (G.ew / 8) && !(G.anyPublic (lreg o.dst) G.grp && keyRegion a (G.ew / 8)))) causeIndexRange
    (fun c G => G.writeVec o.pred.toNat .a (lreg o.dst)
      ((elemAddresses G (G.x o.src1.toNat).toNat (G.vec .a (lreg o.src2))).map fun a => leNat (G.bytes a (G.ew / 8)))) ∧
  LvNeeds s g (.vscatterm g o) (encLv2 0x3B o 0x06)
    (fun c G => lvpMode o.modulus o.sh [0] && nameable c (lreg o.src1) && nameable c (lreg o.src2) &&
      decide (lreg o.src1 % G.grp = 0 ∧ lreg o.src2 % G.grp = 0))
    (fun c G => decide ((G.x o.dst.toNat).toNat % (G.ew / 8) = 0) && (List.range G.regs.vl).all fun i =>
      !G.active o.pred.toNat i ||
      canWrite (at0 (elemAddresses G (G.x o.dst.toNat).toNat (G.vec .a (lreg o.src2))) i) (G.ew / 8)) causeIndexRange
    (fun c G => (List.range G.regs.vl).foldl (fun acc i =>
      if G.active o.pred.toNat i then
        acc.store (at0 (elemAddresses G (G.x o.dst.toNat).toNat (G.vec .a (lreg o.src2))) i)
          (leBytes (G.ew / 8) (at0 (G.vec .a (lreg o.src1)) i))
      else acc) G) ∧
  LvNeeds s g (.vext g o) (encLv2 0x3B o 0x08)
    (fun c G => lvpMode o.modulus o.sh [0] && decide (o.pred = 0) && nameable c (lreg o.src1) &&
      decide (lreg o.src1 % G.grp = 0) && G.allPublic (lreg o.src1) G.grp)
    (fun c G => decide ((G.x o.src2.toNat).toNat < G.regs.vl)) causeIndexRange
    (fun c G => G.setX o.dst.toNat (BitVec.ofNat 64 (at0 (G.vec .a (lreg o.src1)) (G.x o.src2.toNat).toNat))) ∧
  LvNeeds s g (.vins g o) (encLv2 0x3B o 0x09)
    (fun c G => lvpMode o.modulus o.sh [0] && decide (o.pred = 0) && G.checkGroups c 0 G.grp G.beats (lreg o.dst) G.grp [])
    (fun c G => decide ((G.x o.src2.toNat).toNat < G.regs.vl)) causeIndexRange
    (fun c G => G.writeAll .a (lreg o.dst) ((G.vec .a (lreg o.dst)).set (G.x o.src2.toNat).toNat ((G.x o.src1.toNat).toNat % 2 ^ G.ew))) ∧
  LvDraws s g (.vpermgen g u .none) (encLv1 0x3B u 0x04)
    (fun c G => lvpMode u.modulus u.sh [0] && decide (u.src1 = 0) && decide (u.pred = 0) && decide (G.regs.vl ≤ 512) &&
      !G.anyPublic (lreg u.dst) G.grp && G.checkGroups c 0 G.grp G.beats (lreg u.dst) G.grp [])
    (fun _ G => (G.regs.vl + 7) / 8) true
    (fun c G => G.writeAll .a (lreg u.dst) (orderByKey ((List.range G.regs.vl).map fun i => Config.freeNat c.free i % 2 ^ 32))))

/-- VKECCAK permutes a state register, VKABS absorbs a rate of bytes first, VSQZ keeps the rate, VREJ appends accepted
candidates from the element X(SRC2) on, VCBD samples a centred binomial polynomial and VSIB a ball; with SH 01 the
value of the shares is used and the result is split again with words of the mask expander, at the figures of its
order. The shares of a result are free values. -/
def Obligations.LongVectorKeccak : Prop :=
  ∀ (s : State) (g : Nat) (o : LvOps) (u : LvUnary),
  let p := ((s.grain g).x o.src2.toNat).toNat
  let rate := lvkRate o.modulus.toNat
  (u.sh = 0 → LvRuns s g (.vkeccak g u .none) (encLv1 0x3C u 0x00) (legalState u [0] [0, 1])
    (fun c G => { G.setPlane .a (lreg u.dst)
        (BitVec.ofNat 2048 (keccakF ((G.plane .a (lreg u.src1)).toNat % 2 ^ 1600))) with micro := Config.freeMicro c.free })) ∧
  (u.sh ≠ 0 → LvDraws s g (.vkeccak g u .none) (encLv1 0x3C u 0x00) (legalState u [0] [0, 1])
    (fun c _ => if c.order2 then 504 else 168) true
    (fun c G => G.splitReg c (lreg u.dst) 1600 (keccakF (G.boolReg c (lreg u.src1) % 2 ^ 1600)))) ∧
  (o.sh = 0 → LvNeeds s g (.vkabs g o .none) (encLv2 0x3C o 0x01)
    (legalState ⟨o.dst, o.src1, o.pred, o.sh, o.modulus⟩ [0, 1, 2, 3, 4] [0, 1])
    (fun _ _ => decide (p % 8 = 0) && canRead p rate) causeDmBounds
    (fun c G => { G.setPlane .a (lreg o.dst) (BitVec.ofNat 2048
        (keccakF (((G.plane .a (lreg o.src1)).toNat ^^^ leNat (G.bytes p rate)) % 2 ^ 1600))) with
      micro := Config.freeMicro c.free })) ∧
  (o.sh ≠ 0 → p % 8 = 0 → canRead p rate = true → LvDraws s g (.vkabs g o .none) (encLv2 0x3C o 0x01)
    (legalState ⟨o.dst, o.src1, o.pred, o.sh, o.modulus⟩ [0, 1, 2, 3, 4] [0, 1])
    (fun c _ => if c.order2 then 504 else 168) true
    (fun c G => G.splitReg c (lreg o.dst) 1600
      (keccakF ((G.boolReg c (lreg o.src1) ^^^ leNat (G.bytes p rate)) % 2 ^ 1600)))) ∧
  LvRuns s g (.vsqz g u) (encLv1 0x3C u 0x02) (legalState u [0, 1, 2, 3, 4] [0, 1])
    (fun c G => (shPlanes c u.sh).foldl (fun acc pl => acc.setPlane pl (lreg u.dst)
      (BitVec.ofNat 2048 ((G.plane pl (lreg u.src1)).toNat % 2 ^ (8 * lvkRate u.modulus.toNat)))) G) ∧
  (u.sh = 0 → LvRuns s g (.vcbd g u) (encLv1 0x3C u 0x04) (legalSample u [0, 1] [0, 1] 16)
    (fun _ G => G.writeVec u.pred.toNat .a (lreg u.dst)
      (samplePolyCbd (2 + u.modulus.toNat) (G.plane .a (lreg u.src1)).toNat))) ∧
  (u.sh ≠ 0 → LvDraws s g (.vcbd g u) (encLv1 0x3C u 0x04) (legalSample u [0, 1] [0, 1] 16)
    (fun c _ => if c.order2 then 144 else 48) false
    (fun c G => (planes c.order2).foldl (fun acc pl => acc.writeVec u.pred.toNat pl (lreg u.dst)
      (shareVec (arithShare c 3329) pl (samplePolyCbd (2 + u.modulus.toNat) (G.boolReg c (lreg u.src1))))) G)) ∧
  LvRuns s g (.vsib g u .none) (encLv1 0x3C u 0x05) (legalSample u [0, 1, 2] [0] 32)
    (fun c G => { G.writeVec u.pred.toNat .a (lreg u.dst)
        (sampleInBall (sibTau u.modulus.toNat) ((G.plane .a (lreg u.src1)).toNat % 2 ^ 1600)) with
      micro := Config.freeMicro c.free }) ∧
  (o.sh = 0 → LvNeeds s g (.vrej g o) (encLv2 0x3C o 0x03)
    (fun c G => decide (o.modulus.toNat ≤ 3) && (decide (o.sh = 0) || (decide (o.sh = 1) && decide (2 ≤ o.modulus.toNat))) &&
      nameable c (lreg o.src1) && (decide (lreg o.src1 < lreg o.dst) || decide (lreg o.dst + G.grp ≤ lreg o.src1)) &&
      (!G.anyPublic (lreg o.dst) G.grp || (decide (o.sh = 0) && G.allPublic (lreg o.src1) 1)) &&
      G.checkGroups c o.sh.toNat G.grp 1 (lreg o.dst) G.grp [])
    (fun _ G => decide (p ≤ G.regs.vl)) causeIndexRange
    (fun _ G =>
      let new := (rejAccepted o.modulus.toNat (G.plane .a (lreg o.src1)).toNat).take (G.regs.vl - p)
      (G.writeVec o.pred.toNat .a (lreg o.dst) (appended (G.vec .a (lreg o.dst)) new p G.regs.vl)).setX o.src2.toNat
        (BitVec.ofNat 64 (p + new.length)))) ∧
  (o.sh ≠ 0 → p ≤ (s.grain g).regs.vl → LvDraws s g (.vrej g o) (encLv2 0x3C o 0x03)
    (fun c G => decide (o.modulus.toNat ≤ 3) && (decide (o.sh = 0) || (decide (o.sh = 1) && decide (2 ≤ o.modulus.toNat))) &&
      nameable c (lreg o.src1) && (decide (lreg o.src1 < lreg o.dst) || decide (lreg o.dst + G.grp ≤ lreg o.src1)) &&
      (!G.anyPublic (lreg o.dst) G.grp || (decide (o.sh = 0) && G.allPublic (lreg o.src1) 1)) &&
      G.checkGroups c o.sh.toNat G.grp 1 (lreg o.dst) G.grp [])
    (fun c _ => if c.order2 then 240 else 80) false
    (fun c G =>
      let new := (rejAccepted o.modulus.toNat (G.boolReg c (lreg o.src1))).take (G.regs.vl - p)
      ((planes c.order2).foldl (fun acc pl => acc.writeVec o.pred.toNat pl (lreg o.dst)
        (appended (G.vec pl (lreg o.dst)) (shareVec (arithShare c 8380417) pl new) p G.regs.vl)) G).setX o.src2.toNat
          (BitVec.ofNat 64 (p + new.length))))

/-- Each of VREFRESHB, VREFRESHA, VA2B, VB2A, VMAND, VMCMPEQ, VMCMPLT and VMALL completes with SH 01, a MOD of its row
and a destination that is not public: it draws its words a beat, twice as many with CHK, and writes its result in new
shares; without words it stalls, and with CHK and differing results the job ends with FAULT_DETECTED. VB2A of a value
at or above the modulus is free (log entry 17). -/
def Obligations.MaskingGadgets : Prop :=
  ∀ (s : State) (g : Nat) (o : LvOps) (u : LvUnary),
  GadgetRuns s g (fun chk t => .vrefreshb g u chk t) (fun chk => encLv1 0x3D u (opChk chk 0x00))
    (legalGadget [0] u.sh u.modulus 1 (lreg u.dst) [lreg u.src1]) 2 6
    (fun c G => G.putBool c u.pred.toNat (lreg u.dst) (G.boolVec c (lreg u.src1))) ∧
  GadgetRuns s g (fun chk t => .vrefresha g u chk t) (fun chk => encLv1 0x3D u (opChk chk 0x01))
    (legalGadget [0, 1, 2, 3] u.sh u.modulus 1 (lreg u.dst) [lreg u.src1]) 2 6
    (fun c G => G.putArith c (modulusOf G.ew u.modulus.toNat) u.pred.toNat (lreg u.dst)
      (G.arithVec c (modulusOf G.ew u.modulus.toNat) (lreg u.src1))) ∧
  GadgetRuns s g (fun chk t => .va2b g u chk t) (fun chk => encLv1 0x3D u (opChk chk 0x02))
    (legalGadget [0, 1, 2, 3] u.sh u.modulus 1 (lreg u.dst) [lreg u.src1]) 8 24
    (fun c G => G.putBool c u.pred.toNat (lreg u.dst) (G.arithVec c (modulusOf G.ew u.modulus.toNat) (lreg u.src1))) ∧
  GadgetRuns s g (fun chk t => .vb2a g u chk t) (fun chk => encLv1 0x3D u (opChk chk 0x03))
    (legalGadget [0, 1, 2, 3] u.sh u.modulus 1 (lreg u.dst) [lreg u.src1]) 6 18
    (fun c G => 
      let m := modulusOf G.ew u.modulus.toNat
      let x := G.boolVec c (lreg u.src1)
      G.putArith c m u.pred.toNat (lreg u.dst) ((List.range x.length).map fun i =>
        if at0 x i < m then at0 x i else Config.freeNat c.free (100000 + i) % m)) ∧
  GadgetRuns s g (fun chk t => .vmand g o chk t) (fun chk => encLv2 0x3D o (opChk chk 0x04))
    (legalGadget [0] o.sh o.modulus 1 (lreg o.dst) [lreg o.src1, lreg o.src2]) 2 6
    (fun c G => G.putBool c o.pred.toNat (lreg o.dst)
      (List.zipWith (fun a b => a &&& b) (G.boolVec c (lreg o.src1)) (G.boolVec c (lreg o.src2)))) ∧
  GadgetRuns s g (fun chk t => .vmcmpeq g o chk t) (fun chk => encLv2 0x3D o (opChk chk 0x05))
    (legalGadget [0] o.sh o.modulus 1 (lreg o.dst) [lreg o.src1, lreg o.src2]) 8 24
    (fun c G => G.putBool c o.pred.toNat (lreg o.dst)
      (List.zipWith (fun a b => if a = b then 2 ^ G.ew - 1 else 0) (G.boolVec c (lreg o.src1)) (G.boolVec c (lreg o.src2)))) ∧
  GadgetRuns s g (fun chk t => .vmcmplt g o chk t) (fun chk => encLv2 0x3D o (opChk chk 0x06))
    (legalGadget [1, 2, 3] o.sh o.modulus 1 (lreg o.dst) [lreg o.src1, lreg o.src2]) 10 30
    (fun c G => 
      let q := modulusOf G.ew o.modulus.toNat
      G.putBool c o.pred.toNat (lreg o.dst) (List.zipWith (fun a b => if min (a % q) (q - a % q) < b then 2 ^ G.ew - 1 else 0)
        (G.arithVec c q (lreg o.src1)) (G.vec .a (lreg o.src2)))) ∧
  GadgetRuns s g (fun chk t => .vmall g u chk t) (fun chk => encLv1 0x3D u (opChk chk 0x07))
    (legalGadget [0] u.sh u.modulus 1 (lreg u.dst) [lreg u.src1]) 2 6
    (fun c G => 
      let x := G.boolVec c (lreg u.src1)
      G.putBool c u.pred.toNat (lreg u.dst) (List.replicate G.regs.vl
        (((List.range x.length).filter (G.active u.pred.toNat)).foldl (fun acc i => acc &&& at0 x i) (2 ^ G.ew - 1))))

/-- VMDECOMP writes r1 in Boolean shares to the group at DST and r0 in arithmetic shares to the next group; VUNMASKB
and VUNMASKA complete only into a public register from one that is not, with SH 01 and FLAGS.PUBLIC_OUT, and leave the
recombined value in plane .a and zeros in plane .b of the active elements. -/
def Obligations.DecomposeAndUnmask : Prop :=
  ∀ (s : State) (g : Nat) (o : LvOps) (u : LvUnary),
  GadgetRuns s g (fun chk t => .vmdecomp g o chk t) (fun chk => encLv2 0x3D o (opChk chk 0x08))
    (fun c G => decide (o.src2.toNat ≤ 1) && legalGadget [2] o.sh o.modulus 2 (lreg o.dst) [lreg o.src1] c G) 12 36
    (fun c G =>
      let gamma2 := if o.src2 = 0 then 95232 else 261888
      let r := (G.arithVec c 8380417 (lreg o.src1)).map (decompose gamma2)
      (planes c.order2).foldl (fun acc p => acc.writeVec o.pred.toNat p (lreg o.dst + G.grp)
        ((List.range r.length).map fun i => arithShare c 8380417 p (1000 + i) (at0 (r.map Prod.snd) i)))
        (G.putBool c o.pred.toNat (lreg o.dst) (r.map Prod.fst))) ∧
  LvRuns s g (.vunmaskb g u) (encLv1 0x3F u 0x00) (legalUnmask [0] u)
    (fun c G => (G.writeVec u.pred.toNat .a (lreg u.dst) (G.boolVec c (lreg u.src1))).writeVec u.pred.toNat .b (lreg u.dst)
      (List.replicate G.regs.vl 0)) ∧
  LvRuns s g (.vunmaska g u) (encLv1 0x3F u 0x01) (legalUnmask [0, 1, 2, 3] u)
    (fun c G => (G.writeVec u.pred.toNat .a (lreg u.dst) (G.arithVec c (modulusOf G.ew u.modulus.toNat) (lreg u.src1))).writeVec u.pred.toNat .b (lreg u.dst)
      (List.replicate G.regs.vl 0))

/-- INPULL fills the IN window with the next bytes of the input, counts them in X(DST) and advances the stream, and a
refused read of bytes it needs ends the job with DMA_ERROR. OUTPUSH of 0 bytes does nothing; past OUT_SIZE it is
DM_BOUNDS; past OUT_LEN it leaves all ones in X(DST); otherwise the bytes of the OUT window go to the host at the
running offset of the output buffer, X(DST) takes the total, and a refused write ends the job with DMA_ERROR. END
waits while an engine runs a program of the job. Otherwise it ends the execute stage by the result fields: a status
that no program may report is PROGRAM_FAULT RESULT_STATUS; OK with a result longer than OUT_LEN is OUTPUT_SHORT with
that length; OK of a job that claims no slot and does not stream leaves the OUT window's bytes as the output, with LEN
and DETAIL; any other reported status ends the job with it. -/
def Obligations.StreamsAndEnd : Prop :=
  (∀ (s : State) (g : Nat) (d a : Reg) (j : Nat) (job : Job) (o : PairOwner) (host list : List Byte) (data : Option (List Byte)),
  let G := s.grain g
  let next := G.pc + 1
  let head := s.streamHead job
  let k := min G.header.inSize (head.length + job.desc.inLen - job.delivered)
  let n := (G.x a.toNat).toNat
  (s.fetching g (encA 0x2C 0 d 0 0) = some (j, job) →
    exec (.inpull g d (some host)) s = .next ((retired s g
      ((G.store G.header.inOff (streamChunk head host job.delivered k)).setX d.toNat (BitVec.ofNat 64 k)) next).modJob j
        fun x => { x with delivered := x.delivered + k }) ∧
    (head.length < job.delivered + k → 0 < k → exec (.inpull g d none) s = .next (s.endExecution j g Status.dmaError 0 0))) ∧
  (s.fetching g (encA 0x2C 1 d a 0) = some (j, job) → s.pairOwner job.pair = some o → SeedReq.entropy j ∉ s.rng.waiting →
    (n = 0 → exec (.outpush g d a list true) s = .next (retired s g G next)) ∧
    (G.header.outSize < n →
      exec (.outpush g d a list true) s =
        .next (s.endExecution j g Status.programFault 0 (causeDmBounds * 2 ^ 24 + G.pc % 2 ^ 16))) ∧
    (0 < n → n ≤ G.header.outSize → job.desc.outLen < job.pushed + n →
      exec (.outpush g d a list true) s = .next (retired s g (G.setX d.toNat (BitVec.allOnes 64)) next)) ∧
    (0 < n → n ≤ G.header.outSize → job.pushed + n ≤ job.desc.outLen → job.desc.flags.testBit 1 = false →
      (exec (.outpush g d a list false) s = .next (s.endExecution j g Status.dmaError 0 0)) ∧
      ∃ t, exec (.outpush g d a list true) s = .next t ∧ (t.grain g).pc = next ∧
        (d.toNat ≠ 0 → (t.grain g).x d.toNat = BitVec.ofNat 64 (job.pushed + n)) ∧
        (t.job j).map (fun x => (x.pushed, x.streamed)) = some (job.pushed + n, true)))) ∧
  (∀ (s : State) (g : Nat) (j : Nat) (job : Job), s.fetching g (encJ 0x1F 0 0) = some (j, job) →
  let G := s.grain g
  let status := leNat (G.bytes 0x40 2)
  let len := leNat (G.bytes 0x44 4)
  let detail := leNat (G.bytes 0x48 4)
  let result := exec (.endJob g) s
  ((∃ n e, (n, e) ∈ s.engines ∧ e.holder = some j ∧ e.state = .running) → result = .next s) ∧
  ((∀ n e, (n, e) ∈ s.engines → ¬(e.holder = some j ∧ e.state = .running)) →
    (status ∉ [Status.ok, Status.verifyFail, Status.outputShort, Status.inputInvalid, Status.noncanonical, Status.inverseNone,
        Status.pointInvalid, Status.keyExhausted, Status.faultDetected] →
      result = .next (s.endExecution j g Status.programFault 0 (causeResultStatus * 2 ^ 24 + G.pc % 2 ^ 16))) ∧
    (status = Status.ok → job.streamed = false → G.header.outSize < len →
      result = .next (s.endExecution j g Status.programFault 0 (causeDmBounds * 2 ^ 24 + G.pc % 2 ^ 16))) ∧
    (status = Status.ok → (job.streamed = true ∨ len ≤ G.header.outSize) → job.desc.outLen < len →
      result = .next (s.endExecution j g Status.outputShort len detail)) ∧
    (status = Status.ok → job.streamed = false → len ≤ G.header.outSize → len ≤ job.desc.outLen → job.claim = none →
      result = .next ((s.modJob j fun x => { x with out := G.bytes G.header.outOff len }).endExecution j g Status.ok len detail)) ∧
    (status ∈ [Status.verifyFail, Status.inputInvalid, Status.noncanonical, Status.inverseNone, Status.pointInvalid,
        Status.keyExhausted] → result = .next (s.endExecution j g status 0 detail))))

/-- A job that ends OK stands in its output stage with its status, length, DETAIL and cycles, on the grain it had. A
job that ends with another status leaves the device, and its grain scrubs without a job. -/
def Obligations.JobEnds : Prop :=
  ∀ (s : State) (j g status out detail : Nat) (job : Job), s.Sound → s.job j = some job →
  let t := s.endExecution j g status out detail
  (status = Status.ok →
    t.job j = some { job with
      stage := .output, status := status, outWritten := out, detail := detail % 2 ^ 32
      cycles := min 0xFFFFFFFF (s.grain g).regs.cycle } ∧ t.grain g = s.grain g) ∧
  (status ≠ Status.ok → t.job j = none ∧ (t.grain g).state = .scrub ∧ (t.grain g).job = none)

/-- An unassigned word ends the job with ILLEGAL, a fetch at or past TEXT_WORDS with PM_RANGE and the cycle bound with
CYCLE_BOUND. A program load puts the shelf's program in PM and the grain runs. A control-store patrol of an idle grain
of an awake bed moves on over a good word. The first reload of a quadrant that ends well leaves the list and its grain
becomes idle, one that ends badly is tried once more. -/
def Obligations.GrainEvents : Prop :=
  ∀ (s : State) (g : Nat) (j : Nat) (job : Job) (word : BitVec 51) (p : Program), s.Sound →
  let G := s.grain g
  (∀ w, s.fetching g w = some (j, job) → assignedWord w = false →
    exec (.illegalEncoding g) s = .next (s.endExecution j g Status.programFault 0 (causeIllegal * 2 ^ 24 + G.pc % 2 ^ 16))) ∧
  (s.executing g = some (j, job) → G.header.textWords ≤ G.pc →
    exec (.pmRangeFetch g) s = .next (s.endExecution j g Status.programFault 0 (causePmRange * 2 ^ 24 + G.pc % 2 ^ 16))) ∧
  (s.executing g = some (j, job) →
    exec (.cycleBoundReached g) s =
      .next (s.endExecution j g Status.programFault 0 (causeCycleBound * 2 ^ 24 + G.pc % 2 ^ 16))) ∧
  (G.state = .load → G.job = some j → s.job j = some job → s.shelved (g / 16) job.desc.opcode = some p →
    ∃ t, exec (.programLoadDone g) s = .next t ∧ (t.grain g).state = .running ∧ (t.grain g).prog = some p.header) ∧
  (G.state = .idle → (s.bed (g / 16)).state = .awake →
    (if G.patrol < 4096 then microParity word else dispatchParity word) = true →
    exec (.csPatrolRead g word) s = .next (s.modGrain g fun x => { x with patrol := (x.patrol + 1) % 4608 })) ∧
  ((s.quad (g / 256)).reloads.head? = some g →
    (∃ t, exec (.csReloadDone g true) s = .next t ∧ (t.quad (g / 256)).reloads = (s.quad (g / 256)).reloads.tail ∧
      (G.state = .reload → G.test = false → (t.grain g).state = .idle)) ∧
    ((s.quad (g / 256)).reloadTry = 0 →
      exec (.csReloadDone g false) s = .next (s.modQuad (g / 256) fun x => { x with reloadTry := 1 })))

/-- The scrub of a grain that a tenant holds, that awaits no job and no reload, leaves it idle with registers and
units clear and with its program's data region. A seed on its way reaches the expander and lets a stalled grain run. A
job that waits for randomness on its grain ends with RNG_STARVED unless a settle hold is active. -/
def Obligations.ScrubAndSeeds : Prop :=
  ∀ (s : State) (g j t : Nat) (job : Job),
  let G := s.grain g
  (G.state = .scrub → s.grainTenant g = some t → G.job = none → g ∉ (s.quad (g / 256)).reloads →
    ∃ u, exec (.grainScrubDone g) s = .next u ∧ (u.grain g).state = .idle ∧ (u.grain g).regs = {} ∧ (u.grain g).units = {} ∧
      (u.grain g).pm = G.pm ∧
      (u.grain g).dm = (match s.dataOf g with | some p => Memory.put [] p.header.dataOff p.data | none => [])) ∧
  (G.expander.coming = true →
    exec (.expanderSeedArrival g) s = .next (s.modGrain g fun x => { x with
      expander := if expanderSpan ≤ x.expander.delivered then {}
        else { x.expander with pending := false, coming := false, seedHeld := true }
      state := if x.state = .stalled then .running else x.state
      rngWait := false })) ∧
  (s.job j = some job → job.grain = some g → s.power.holdActive = false → job.held = false →
    job.rngWait = true ∨ G.state = .stalled →
    exec (.rngTimeout j) s = .next (s.endExecution j g Status.rngStarved 0 0))

/-- On an engine that the job may use and that is idle or held by it, BNPUT, BNGET and BNCMD move 512 aligned bytes to
a word, from a word and to the command memory, BNGO starts a program at entry X(SRC1), BNWAIT takes its status, and
BNREL releases the engine, which scrubs. An access to an engine that the job may not use is ILLEGAL; one to an engine
that another job holds or that scrubs waits; one to an engine under a known-answer test stops the test and waits for
the scrub. -/
def Obligations.EngineAccess : Prop :=
  (∀ (s : State) (g : Nat) (d a b : Reg) (k : BitVec 6) (j : Nat) (job : Job),
  let G := s.grain g
  let n := (G.x b.toNat).toNat
  let e := s.engine n
  let p := (G.x a.toNat).toNat
  let held := { e with holder := some j, state := .held }
  let done := fun (G' : Grain) (e' : Engine) => Host.Outcome.next
    ((s.spend.modGrain g fun _ => G'.retire (Config.cyclesTaken s.free) (G.pc + 1)).modEngine n fun _ => e')
  s.mayAccess g n j job = true → (e.state = .idle ∧ e.holder = none) ∨ (e.state = .held ∧ e.holder = some j) →
  (s.fetching g (encA 0x2D 0 a b (funcBn 0 k)) = some (j, job) → p % 64 = 0 → canRead p 512 = true →
    exec (.bnput g a b k) s = done G (held.setWord k.toNat (leNat (G.bytes p 512)))) ∧
  (s.fetching g (encA 0x2D 0 a b (funcBn 1 k)) = some (j, job) → p % 64 = 0 → canWrite p 512 = true →
    exec (.bnget g a b k) s = done (G.store p (leBytes 512 (e.word k.toNat))) held) ∧
  (s.fetching g (encA 0x2D 0 a b (funcBn 2 k)) = some (j, job) → k.toNat ≤ 7 → p % 64 = 0 → canRead p 512 = true →
    exec (.bncmd g a b k) s = done G { held with cmds := loadCommands e.cmds (64 * k.toNat) (leNat (G.bytes p 512)) }) ∧
  (s.fetching g (encA 0x2D 0 a b 0x003) = some (j, job) → 
    exec (.bngo g a b) s = done G { held with state := .running, pc := p, status := 0, progs := min 0xFFFFFFFF (e.progs + 1) }) ∧
  (s.fetching g (encA 0x2D d 0 b 0x004) = some (j, job) → 
    exec (.bnwait g d b) s = done (G.setX d.toNat (BitVec.ofNat 64 e.status)) held) ∧
  (s.fetching g (encA 0x2D 0 0 b 0x005) = some (j, job) → 
    exec (.bnrel g b) s = done G { held with
      state := .scrub, holder := none, released := e.released ++ [j]
      reserved := if e.reserved = some j then none else e.reserved })) ∧
  (∀ (s : State) (g : Nat) (b : Reg) (j : Nat) (job : Job), s.fetching g (encA 0x2D 0 0 b 0x005) = some (j, job) →
  let n := ((s.grain g).x b.toNat).toNat
  let e := s.engine n
  (s.mayAccess g n j job = false →
    exec (.bnrel g b) s = .next (s.endExecution j g Status.programFault 0 (causeIllegal * 2 ^ 24 + (s.grain g).pc % 2 ^ 16))) ∧
  (s.mayAccess g n j job = true → e.state = .test → exec (.bnrel g b) s = .next (s.modEngine n fun x => { x with state := .scrub })) ∧
  (s.mayAccess g n j job = true → e.state ≠ .test → e.holder ≠ some j → (e.state = .scrub ∨ e.holder ≠ none) →
    exec (.bnrel g b) s = .next s))

/-- Under a modulus that passed its check, MODADD, MODSUB, MODMUL, MODSQR, MODINV and MODEXP write their result for
operands below the modulus, MODINV of 0 writes 0 with INVERSE_NONE and an exponent that is too long writes 0 with
NONCANONICAL; MODRED reduces the bits it names and BLIND adds its multiple of the modulus; an operand at or above the
modulus writes 0 with NONCANONICAL. -/
def Obligations.ModularCommands : Prop :=
  ∀ (s : State) (n : Nat) (d a b : BitVec 6) (q : BitVec 4) (m : Modul), (s.engine n).modul q = some m → m.valid = true →
  let e := s.engine n
  let x := e.word a.toNat
  let y := e.word b.toNat
  (x < m.m → y < m.m → Commanded s n (.modadd n d a b q) (encCmd 0x01 d a b q false 0) (timeAdd q)
    (fun e => e.setWord d.toNat ((x + y) % m.m))) ∧
  (x < m.m → y < m.m → Commanded s n (.modsub n d a b q) (encCmd 0x02 d a b q false 0) (timeAdd q)
    (fun e => e.setWord d.toNat ((x + m.m - y) % m.m))) ∧
  (x < m.m → y < m.m → Commanded s n (.modmul n d a b q) (encCmd 0x03 d a b q false 0) (timeMul q)
    (fun e => e.setWord d.toNat (x * y % m.m))) ∧
  (x < m.m → Commanded s n (.modsqr n d a q) (encCmd 0x04 d a 0 q false 0) (timeMul q)
    (fun e => e.setWord d.toNat (x * x % m.m))) ∧
  (m.full = false → x < m.m → Commanded s n (.modinv n d a q) (encCmd 0x05 d a 0 q false 0) (timeInv q)
    (fun e => if x = 0 then (e.setWord d.toNat 0).flag bnInverseNone else e.setWord d.toNat (powMod x (m.m - 2) m.m))) ∧
  (∀ z : BitVec 6, m.full = false → x < m.m →
    Commanded s n (.modexp n d a b q false z) (encCmd 0x06 d a b q false (z.setWidth 32)) (timeExp q)
      (fun e => if 2 ^ m.len ≤ y then (e.setWord d.toNat 0).flag bnNoncanonical
        else e.setWord d.toNat (if y = 0 then 1 else powMod x y m.m))) ∧
  (∀ off len : Half, len.toNat ≠ 0 → len.toNat ≤ 2 * m.cls → off.toNat + len.toNat ≤ 4096 →
    Commanded s n (.modred n d a q off len) (encCmd 0x07 d a 0 q false (len ++ off)) (timeRed q)
      (fun e => e.setWord d.toNat (x / 2 ^ off.toNat % 2 ^ len.toNat % m.m))) ∧
  (∀ off : Half, off.toNat + 63 ≤ 4096 →
    Commanded s n (.blind n d a b q off) (encCmd 0x08 d a b q false (off.setWidth 32)) (timeBlind q)
      (fun e => e.setWord d.toNat (x + (3 * 2 ^ 63 + y / 2 ^ off.toNat % 2 ^ 63) * m.m))) ∧
  (m.m ≤ x → Commanded s n (.modadd n d a b q) (encCmd 0x01 d a b q false 0) (timeAdd q)
    (fun e => (e.setWord d.toNat 0).flag bnNoncanonical))

/-- END ends the program; RAWCLR, RAWMAC and RAWOUT clear, add to and take a limb of the accumulator; JOIN, COPY, REVB
and CSWAP move words; SETC and DJNZ set and count a counter, DJNZ going to its target until the counter is 0; CHKEQ
and CHKNZ set a status that a check may set; LDI loads a constant. -/
def Obligations.EngineCommands : Prop :=
  ∀ (s : State) (n : Nat) (d a b : BitVec 6) (i l : BitVec 4) (k c : BitVec 2) (w : Bool) (r : BitVec 10) (v : BitVec 12)
    (u : BitVec 9) (w16 : Half) (v32 : W32),
  let x := (s.engine n).word a.toNat
  let y := (s.engine n).word b.toNat
  let z := (s.engine n).word d.toNat
  (Commanded s n (.bnEnd n) (encCmd 0x00 0 0 0 0 false 0) (fun _ => 1)
    (fun e => { e with state := .held })) ∧
  (Commanded s n (.rawclr n) (encCmd 0x10 0 0 0 0 false 0) (fun _ => 1)
    (fun e => { e with acc := 0 })) ∧
  (k ≠ 3 → Commanded s n (.rawmac n a b i l k) (encCmd 0x11 0 a b 0 false ((0 : BitVec 22) ++ k ++ l ++ i)) (fun _ => 4)
    (fun e => { e with
      acc := e.acc + BitVec.ofNat 1024
        (x / 2 ^ (256 * i.toNat) % 2 ^ 256 * (y / 2 ^ (256 * l.toNat) % 2 ^ 256) * 2 ^ (256 * k.toNat)) })) ∧
  (Commanded s n (.rawout n d i) (encCmd 0x12 d 0 0 0 false (i.setWidth 32)) (fun _ => 2)
    (fun e => 
      { e.setWord d.toNat (z - z / 2 ^ (256 * i.toNat) % 2 ^ 256 * 2 ^ (256 * i.toNat) +
          e.acc.toNat % 2 ^ 256 * 2 ^ (256 * i.toNat)) with acc := e.acc >>> 256 })) ∧
  (Commanded s n (.join n d a b w) (encCmd 0x18 d a b 0 w 0) (fun _ => 4)
    (fun e => e.setWord d.toNat
      (if w then (x % 2 ^ 2048) ^^^ (x / 2 ^ 2048) ^^^ (y % 2 ^ 2048) else (x % 2 ^ 2048) ^^^ (x / 2 ^ 2048)))) ∧
  (Commanded s n (.copy n d a) (encCmd 0x19 d a 0 0 false 0) (fun _ => 4)
    (fun e => e.setWord d.toNat x)) ∧
  (r ≠ 0 → r.toNat ≤ 512 → Commanded s n (.revb n d a r) (encCmd 0x1A d a 0 0 false (r.setWidth 32)) (fun _ => 4)
    (fun e => e.setWord d.toNat (beNat (leBytes r.toNat x)))) ∧
  (Commanded s n (.cswap n d a b c) (encCmd 0x1B d a b 0 false ((0 : BitVec 18) ++ c ++ (0 : BitVec 12))) (fun _ => 2)
    (fun e => if y.testBit (e.counters.get c.toNat 0).toNat then (e.setWord d.toNat x).setWord a.toNat z else e)) ∧
  (Commanded s n (.setc n c v) (encCmd 0x1C 0 0 0 0 false ((0 : BitVec 18) ++ c ++ v)) (fun _ => 1)
    (fun e => { e with counters := e.counters.set c.toNat v 0 })) ∧
  (Commanded s n (.djnz n c u) (encCmd 0x1D 0 0 0 0 false ((0 : BitVec 18) ++ c ++ (0 : BitVec 3) ++ u)) (fun _ => 1)
    (fun e => 
      if e.counters.get c.toNat 0 = 0 then e
      else { e with counters := e.counters.set c.toNat (e.counters.get c.toNat 0 - 1) 0, pc := u.toNat })) ∧
  (checkStatus w16 = true → Commanded s n (.chkeq n a b w16) (encCmd 0x1E 0 a b 0 false (w16.setWidth 32)) (fun _ => 3)
    (fun e => if x ≠ y then e.flag w16.toNat else e)) ∧
  (checkStatus w16 = true → Commanded s n (.chknz n a w16) (encCmd 0x1F 0 a 0 0 false (w16.setWidth 32)) (fun _ => 3)
    (fun e => if x = 0 then e.flag w16.toNat else e)) ∧
  (Commanded s n (.ldi n d v32) (encCmd 0x20 d 0 0 0 false v32) (fun _ => 4)
    (fun e => e.setWord d.toNat v32.toNat))

/-- SETMOD loads an odd value of its exact length into a MOD register, and any other value with INPUT_INVALID; MODEXP
with X = 1 exponentiates by the two half-form primes that follow its full-form modulus and writes both halves; an
entry that is no command, or one past 511, stops the program with its status and its event; the scrub of an engine
clears all but its command memory. -/
def Obligations.EngineModuli : Prop :=
  ∀ (s : State) (n : Nat) (d a b z : BitVec 6) (q : BitVec 4) (cls : BitVec 2) (half : Bool),
  let e := s.engine n
  let x := e.word a.toNat
  let y := e.word b.toNat
  let bits_ := 2048 + 1024 * cls.toNat
  let len := if half then bits_ / 2 else bits_
  let good := x % 2 = 1 ∧ x / 2 ^ (len - 1) = 1
  (12 ≤ q.toNat → cls ≠ 3 →
    Commanded s n (.setmod n a q cls half) (encCmd 0x09 0 a 0 q half (cls.setWidth 32)) (fun _ => 60 + 30 * cls.toNat)
      (fun e =>
        let e' := { e with mods := e.mods.insert (q.toNat - 12) ⟨x, bits_, half, good⟩ }
        if good then e' else e'.flag bnInputInvalid)) ∧
  (∀ f p r, e.crtPrimes q = some (f, p, r) → f.valid = true → p.valid = true → r.valid = true → x < f.m →
    y % 2 ^ 2048 < 2 ^ p.len → y / 2 ^ 2048 < 2 ^ r.len →
    Commanded s n (.modexp n d a b q true z) (encCmd 0x06 d a b q true (z.setWidth 32)) (timeExp q)
      (fun e => e.setWord d.toNat (expMod x (y % 2 ^ 2048) p.m + 2 ^ 2048 * expMod x (y / 2 ^ 2048) r.m))) ∧
  (e.state = .running → (511 < e.pc ∨ assignedCommand (e.cmds.get e.pc 0) = false) →
    ∃ t, exec (.badCommand n) s = .next t ∧ (t.engine n).state = .held ∧
      (t.engine n).status = (if e.status = 0 then bnBadCommand else e.status)) ∧
  (e.state = .scrub → s.engineRepeats n = false →
    exec (.bneScrubDone n) s = .next (s.modEngine n fun e => { e with
      state := .idle, holder := none, words := [], mods := [], acc := 0, counters := [], status := 0, secretRun := false }))

/-- Wherever the program of the job stands at its ENTRY with expander words at hand, HASH, the MAC, cipher and wrap
operations complete: the job stands in its output stage with the hash, the MAC cut to OLEN, the ciphertext or
plaintext of its mode, or the wrapped key; a verification that fails, a tag or an integrity check that does not match
ends the job with VERIFY_FAIL. The bytes of TKW are free (log entry 15). -/
def Obligations.SymmetricOperations : Prop :=
  ∀ (s : State) (j : Nat),
  Produces s j (.hash j) (fun k => decide (k = .hash))
    (fun s job => { out := hashAlg (job.set_ - 1) (pOlen job.desc.param) job.input }) ∧
  Produces s j (.hmacGenerate j) (fun k => decide (k = (.hmac false)))
    (fun s job => { out := (macOf (.hmac false) job.set_ job.desc.param job.key1.secret (slice job.input 0 (macAux (.hmac false) job.desc.param))
        (job.input.drop (macAux (.hmac false) job.desc.param))).take (pOlen job.desc.param) }) ∧
  Produces s j (.kmacGenerate j) (fun k => decide (k = (.kmac false)))
    (fun s job => { out := (macOf (.kmac false) job.set_ job.desc.param job.key1.secret (slice job.input 0 (macAux (.kmac false) job.desc.param))
        (job.input.drop (macAux (.kmac false) job.desc.param))).take (pOlen job.desc.param) }) ∧
  Produces s j (.cmacGenerate j) (fun k => decide (k = (.cmac false)))
    (fun s job => { out := (macOf (.cmac false) job.set_ job.desc.param job.key1.secret (slice job.input 0 (macAux (.cmac false) job.desc.param))
        (job.input.drop (macAux (.cmac false) job.desc.param))).take (pOlen job.desc.param) }) ∧
  Produces s j (.macAlgorithm3Generate j) (fun k => decide (k = (.mac3 false)))
    (fun s job => { out := (macOf (.mac3 false) job.set_ job.desc.param job.key1.secret (slice job.input 0 (macAux (.mac3 false) job.desc.param))
        (job.input.drop (macAux (.mac3 false) job.desc.param))).take (pOlen job.desc.param) }) ∧
  Produces s j (.hmacVerify j) (fun k => decide (k = (.hmac true)))
    (fun s job => let n := pOlen job.desc.param
      let a := macAux (.hmac true) job.desc.param
      let tag := (macOf (.hmac true) job.set_ job.desc.param job.key1.secret (slice job.input n a) (job.input.drop (n + a))).take n
      { status := if job.input.length < n + a ∨ job.input.take n ≠ tag then Status.verifyFail else Status.ok }) ∧
  Produces s j (.kmacVerify j) (fun k => decide (k = (.kmac true)))
    (fun s job => let n := pOlen job.desc.param
      let a := macAux (.kmac true) job.desc.param
      let tag := (macOf (.kmac true) job.set_ job.desc.param job.key1.secret (slice job.input n a) (job.input.drop (n + a))).take n
      { status := if job.input.length < n + a ∨ job.input.take n ≠ tag then Status.verifyFail else Status.ok }) ∧
  Produces s j (.cmacVerify j) (fun k => decide (k = (.cmac true)))
    (fun s job => let n := pOlen job.desc.param
      let a := macAux (.cmac true) job.desc.param
      let tag := (macOf (.cmac true) job.set_ job.desc.param job.key1.secret (slice job.input n a) (job.input.drop (n + a))).take n
      { status := if job.input.length < n + a ∨ job.input.take n ≠ tag then Status.verifyFail else Status.ok }) ∧
  Produces s j (.macAlgorithm3Verify j) (fun k => decide (k = (.mac3 true)))
    (fun s job => let n := pOlen job.desc.param
      let a := macAux (.mac3 true) job.desc.param
      let tag := (macOf (.mac3 true) job.set_ job.desc.param job.key1.secret (slice job.input n a) (job.input.drop (n + a))).take n
      { status := if job.input.length < n + a ∨ job.input.take n ≠ tag then Status.verifyFail else Status.ok }) ∧
  Produces s j (.aesEncrypt j) (fun k => decide (k = (.aes false)))
    (fun s job => let y := symOutput (.aes false) job.set_ job.desc.param job.key1.secret job.input job.random
      { status := y.1, out := y.2 }) ∧
  Produces s j (.aesDecrypt j) (fun k => decide (k = (.aes true)))
    (fun s job => let y := symOutput (.aes true) job.set_ job.desc.param job.key1.secret job.input job.random
      { status := y.1, out := y.2 }) ∧
  Produces s j (.tdesEncrypt j) (fun k => decide (k = (.tdes false)))
    (fun s job => let y := symOutput (.tdes false) job.set_ job.desc.param job.key1.secret job.input job.random
      { status := y.1, out := y.2 }) ∧
  Produces s j (.tdesDecrypt j) (fun k => decide (k = (.tdes true)))
    (fun s job => let y := symOutput (.tdes true) job.set_ job.desc.param job.key1.secret job.input job.random
      { status := y.1, out := y.2 }) ∧
  Produces s j (.wrap j) (fun k => decide (k = (.wrap false)))
    (fun s job => let y := symOutput (.wrap false) job.set_ job.desc.param job.key1.secret job.input job.random
      { status := y.1, out := y.2 }) ∧
  Produces s j (.unwrap j) (fun k => decide (k = (.wrap true)))
    (fun s job => let y := symOutput (.wrap true) job.set_ job.desc.param job.key1.secret job.input job.random
      { status := y.1, out := y.2 })

/-- SLOT_PREPARE of an EMPTY slot leaves it PREPARED with its attribute word and budget and 0 uses; READ_PUBLIC_KEY
outputs the slot's public key; SYMMETRIC_GENERATE, DERIVE and the imports write the claimed slot with the key they
make or judge; EXPORT_BLOB outputs header, ciphertext and tag. -/
def Obligations.KeyOperations : Prop :=
  ∀ (s : State) (j : Nat),
  Produces s j (.symmetricGenerate j) (fun k => decide (k = .symGenerate))
    (fun s job => let a := s.claimAttr job
      { mat := { attr := a, secret := if tdesClass (attrClass a) then job.random.map oddParity else job.random } }) ∧
  Produces s j (.derive j) (fun k => decide (k = .derive))
    (fun s job => let a := s.claimAttr job
      { mat := { attr := a, secret := kmac 256 (attrLen a) job.key1.material job.input (ascii "IXL-DERIVE") } }) ∧
  Produces s j (.exportBlob j) (fun k => decide (k = .exportBlob))
    (fun s job => let m := job.key1
      let key := if job.desc.key2Form = 1 then padTo 32 job.key2.secret else s.tenantRootKey job.tenant
      let payload := padTo (attrLen m.attr) m.secret ++ m.cache ++ m.pub
      let head := ascii "IXKB" ++ leBytes 2 1 ++ leBytes 2 job.tenant ++ leBytes 8 m.attr ++ leBytes 4 payload.length ++
        job.random ++ List.replicate 32 0#8
      { out := head ++ gcmCtr key job.random payload ++ gcmTag key job.random head (gcmCtr key job.random payload) }) ∧
  ImportProduces s j (.importPublicKey j) (fun k => decide (k = .importPublic))
    (fun s job => 
      { status := publicStatus (attrClass (s.claimAttr job)) job.input
        mat := { attr := s.claimAttr job ||| 2 ^ 45, pub := job.input } }) ∧
  ImportProduces s j (.importWrapped j) (fun k => decide (k = .importWrapped))
    (fun s job => 
      let u := symOutput (.wrap true) (if bit job.desc.param 0 then 2 else 1) 0 job.key1.secret job.input []
      if job.input.length % 8 ≠ 0 ∨ job.input.length < 16 ∨ u.1 ≠ Status.ok then { status := Status.verifyFail }
      else match s.payloadMat (s.claimAttr job) u.2 with
        | none => { status := Status.inputInvalid }
        | some m => { mat := m }) ∧
  ImportProduces s j (.importBlob j) (fun k => decide (k = .importBlob))
    (fun s job => 
      let a := s.claimAttr job
      let m := job.key1
      if attrClass m.attr ≠ attrClass a then { status := Status.keyDenied }
      else if attrLen m.attr ≠ attrLen a then { status := Status.inputInvalid }
      else { mat := { m with
        attr := (a &&& (2 ^ 64 - 1 - attrUseMask)) ||| (a &&& m.attr &&& attrUseMask) ||| (m.attr &&& 2 ^ 45) } }) ∧
  (∀ job, s.job j = some job → s.kindOf job = .slotPrepare → job.stage = .execute → job.held = false →
    s.power.holdActive = false → s.owns job.tenant job.desc.keyIndex = true → (s.slot job.desc.keyIndex).state = .empty →
    presetOk job.desc.param = true →
    ∃ t, exec (.slotPrepare j) s = .next t ∧
      t.slot job.desc.keyIndex = { s.slot job.desc.keyIndex with
        state := .prepared, attr := presetAttr job.desc.param, budget := leNat job.input, uses := 0 } ∧
      (t.job j).map (fun x => (x.stage, x.out)) = some (.output, [])) ∧
  (∀ job, s.job j = some job → s.kindOf job = .readPublic → job.stage = .execute → job.held = false →
    s.power.holdActive = false → s.owns job.tenant job.desc.keyIndex = true → (s.slot job.desc.keyIndex).state = .loaded →
    pairClass (attrClass (s.slot job.desc.keyIndex).attr) = true → (s.slot job.desc.keyIndex).pub.length ≤ job.desc.outLen →
    ∃ t, exec (.readPublicKey j) s = .next t ∧
      (t.job j).map (fun x => (x.stage, x.out)) = some (.output, (s.slot job.desc.keyIndex).pub))

/-- Wherever the program of the job stands at its ENTRY with expander words at hand, the ML-KEM, ML-DSA and FN-DSA
operations complete: a key generation outputs the public key and writes the claimed slot, an encapsulation or
decapsulation gives its ciphertext and shared secret to the output or the slot, a signature is the output with its
iterations in DETAIL, a verification that fails ends with VERIFY_FAIL, an inline key that its standard refuses with
INPUT_INVALID, and a failed check with FAULT_DETECTED. What the standards' algorithms compute is opaque (log entry
26). -/
def Obligations.LatticeOperations : Prop :=
  ∀ (s : State) (j : Nat),
  Produces s j (.mlKemKeygen j) (fun k => decide (k = .kemKeygen))
    (fun s job => let pub := padTo (kemEk job.set_) (Config.publicKey (s.jobClass job) job.random)
      { out := pub, mat := { attr := s.claimAttr job, secret := job.random, pub := pub } }) ∧
  Produces s j (.mlKemEncaps j) (fun k => decide (k = .kemEncaps))
    (fun s job => 
      let ek := if job.desc.keyForm = 0 then job.input else job.key1.pub
      if job.desc.keyForm = 0 ∧ !kemEkOk ek then { status := Status.inputInvalid }
      else s.shared job (padTo (kemCt job.set_) (Config.encaps (s.jobClass job) ek job.random).1)
        (padTo 32 (Config.encaps (s.jobClass job) ek job.random).2) 0 0) ∧
  (∀ b, Produces s j (.mlKemDecaps j b) (fun k => decide (k = .kemDecaps))
    (fun s job => if b then { status := Status.faultDetected, detail := causeShareCheck * 2 ^ 24 }
      else s.shared job [] (padTo 32 (Config.decaps (s.jobClass job) job.key1.material job.input)) 0 0)) ∧
  Produces s j (.mlDsaKeygen j) (fun k => decide (k = .dsaKeygen))
    (fun s job => let pub := padTo (dsaPk job.set_) (Config.publicKey (s.jobClass job) job.random)
      { out := pub, mat := { attr := s.claimAttr job, secret := job.random, pub := pub } }) ∧
  (∀ f, Produces s j (.mlDsaSignHedged j f) (fun k => decide (k = (.dsaSign true false)))
    (fun s job => s.dsaSign job true false f)) ∧
  (∀ f, Produces s j (.mlDsaSignDeterministic j f) (fun k => decide (k = (.dsaSign false false)))
    (fun s job => s.dsaSign job false false f)) ∧
  (∀ f, Produces s j (.hashmlDsaSignHedged j f) (fun k => decide (k = (.dsaSign true true)))
    (fun s job => s.dsaSign job true true f)) ∧
  (∀ f, Produces s j (.hashmlDsaSignDeterministic j f) (fun k => decide (k = (.dsaSign false true)))
    (fun s job => s.dsaSign job false true f)) ∧
  Produces s j (.mlDsaVerify j) (fun k => decide (k = (.dsaVerify false)))
    (fun s job => 
      match verifyParts job (dsaPk job.set_) (dsaSig job.set_) with
      | none => { status := Status.verifyFail }
      | some (pk, sig, ctx, m) =>
        { status := if Config.sigOk (s.jobClass job) pk (representative false (pPh job.desc.param) ctx m) sig then Status.ok
            else Status.verifyFail }) ∧
  Produces s j (.hashmlDsaVerify j) (fun k => decide (k = (.dsaVerify true)))
    (fun s job => 
      match verifyParts job (dsaPk job.set_) (dsaSig job.set_) with
      | none => { status := Status.verifyFail }
      | some (pk, sig, ctx, m) =>
        { status := if Config.sigOk (s.jobClass job) pk (representative true (pPh job.desc.param) ctx m) sig then Status.ok
            else Status.verifyFail }) ∧
  Produces s j (.fnDsaKeygen j) (fun k => decide (k = .fnKeygen))
    (fun s job => 
      let c := s.jobClass job
      let pub := padTo (fnPk job.set_) (Config.publicKey c job.random)
      if Config.fnNone job.set_ job.random then { status := Status.faultDetected, detail := causeSelfVerify * 2 ^ 24 }
      else { out := pub, mat := { attr := s.claimAttr job, secret := s.freeWrap, cache := Config.cacheOf c job.random, pub := pub } }) ∧
  (∀ b, Produces s j (.fnDsaSign j b) (fun k => decide (k = (.fnSign false)))
    (fun s job => s.fnSign job false b)) ∧
  (∀ b, Produces s j (.hashfnDsaSign j b) (fun k => decide (k = (.fnSign true)))
    (fun s job => s.fnSign job true b)) ∧
  Produces s j (.fnDsaVerify j) (fun k => decide (k = (.fnVerify false)))
    (fun s job => s.fnVerify job false) ∧
  Produces s j (.hashfnDsaVerify j) (fun k => decide (k = (.fnVerify true)))
    (fun s job => s.fnVerify job true)

/-- Wherever the program of the job stands at its ENTRY with expander words at hand, the SLH-DSA, HSS, LMS, XMSS, HQC
and Classic McEliece operations complete: key generations output the public key and write the claimed slot, a stateful
one with 32 to the power of its levels leaves, signatures and ciphertexts are the output, and verifications end OK or
with the status of the first check that fails. What the standards' algorithms compute is opaque (log entry 26). -/
def Obligations.HashAndCodeOperations : Prop :=
  ∀ (s : State) (j : Nat),
  Produces s j (.slhDsaKeygen j) (fun k => decide (k = .slhKeygen))
    (fun s job => 
      let n := slhN job.set_
      let pub := job.random.drop (2 * n) ++ padTo n (Config.publicKey (s.jobClass job) job.random)
      { out := pub, mat := { attr := s.claimAttr job, secret := job.random.take (2 * n), pub := pub } }) ∧
  Produces s j (.slhDsaSignHedged j) (fun k => decide (k = (.slhSign true false)))
    (fun s job => 
      { out := padTo (slhSig job.set_) (Config.signature (s.jobClass job) (job.key1.material ++ job.key1.pub)
          (representative false (pPh job.desc.param) (inputCtx job) (inputMsg job)) (s.freeValue 1 (slhN job.set_))) }) ∧
  Produces s j (.slhDsaSignDeterministic j) (fun k => decide (k = (.slhSign false false)))
    (fun s job => 
      { out := padTo (slhSig job.set_) (Config.signature (s.jobClass job) (job.key1.material ++ job.key1.pub)
          (representative false (pPh job.desc.param) (inputCtx job) (inputMsg job)) (job.key1.pub.take (slhN job.set_))) }) ∧
  Produces s j (.hashslhDsaSignHedged j) (fun k => decide (k = (.slhSign true true)))
    (fun s job => 
      { out := padTo (slhSig job.set_) (Config.signature (s.jobClass job) (job.key1.material ++ job.key1.pub)
          (representative true (pPh job.desc.param) (inputCtx job) (inputMsg job)) (s.freeValue 1 (slhN job.set_))) }) ∧
  Produces s j (.hashslhDsaSignDeterministic j) (fun k => decide (k = (.slhSign false true)))
    (fun s job => 
      { out := padTo (slhSig job.set_) (Config.signature (s.jobClass job) (job.key1.material ++ job.key1.pub)
          (representative true (pPh job.desc.param) (inputCtx job) (inputMsg job)) (job.key1.pub.take (slhN job.set_))) }) ∧
  Produces s j (.slhDsaVerify j) (fun k => decide (k = (.slhVerify false)))
    (fun s job => 
      match verifyParts job (2 * slhN job.set_) (slhSig job.set_) with
      | none => { status := Status.verifyFail }
      | some (pk, sig, ctx, m) =>
        { status := if Config.sigOk (s.jobClass job) pk (representative false (pPh job.desc.param) ctx m) sig then Status.ok
            else Status.verifyFail }) ∧
  Produces s j (.hashslhDsaVerify j) (fun k => decide (k = (.slhVerify true)))
    (fun s job => 
      match verifyParts job (2 * slhN job.set_) (slhSig job.set_) with
      | none => { status := Status.verifyFail }
      | some (pk, sig, ctx, m) =>
        { status := if Config.sigOk (s.jobClass job) pk (representative true (pPh job.desc.param) ctx m) sig then Status.ok
            else Status.verifyFail }) ∧
  Produces s j (.hssKeygen j) (fun k => decide (k = .hssKeygen))
    (fun s job => 
      let levels := bits job.desc.param 3 0
      let w8 := bit job.desc.param 4
      let pub := beBytes 4 levels ++ beBytes 4 (5 * job.set_) ++ beBytes 4 (4 * job.set_ - if w8 then 0 else 1) ++
        slice job.random (hbsN job.set_) 16 ++
        padTo (hbsN job.set_) (Config.publicKey (s.jobClass job) (leBytes 2 job.desc.param ++ job.random))
      { out := pub, mat := { attr := s.claimAttr job, secret := job.random, pub := pub }
        stateful := some { total := 32 ^ levels, levels := levels, w8 := w8 } }) ∧
  Produces s j (.xmssMtKeygen j) (fun k => decide (k = .xmssKeygen))
    (fun s job => 
      let n := hbsN job.set_
      let levels := bits job.desc.param 3 0
      let seed := job.random.drop (2 * n)
      let oid := xmssMtBase job.set_ + (match levels with | 4 => 1 | 8 => 4 | _ => 7)
      let pub := beBytes 4 oid ++ padTo n (Config.publicKey (s.jobClass job) (leBytes 2 levels ++ job.random)) ++ seed
      { out := pub, mat := { attr := s.claimAttr job, secret := job.random.take (2 * n), cache := seed, pub := pub }
        stateful := some { total := 32 ^ levels, levels := levels, w8 := false } }) ∧
  (∀ b, Produces s j (.hssSign j b) (fun k => decide (k = .hssSign))
    (fun s job => s.hbsSign job false b)) ∧
  (∀ b, Produces s j (.xmssMtSign j b) (fun k => decide (k = .xmssSign))
    (fun s job => s.hbsSign job true b)) ∧
  Produces s j (.xmssVerify j) (fun k => decide (k = .xmssVerify))
    (fun s job => s.xmssCheck job 0x58 false) ∧
  Produces s j (.xmssMtVerify j) (fun k => decide (k = .xmssMtVerify))
    (fun s job => s.xmssCheck job 0x5D true) ∧
  Produces s j (.hssVerify j) (fun k => decide (k = .hssVerify))
    (fun s job => 
      let d := job.input
      match hbsKey job (28 + hbsN job.set_) 12 (fun b => lmsTypesOk job.set_ b 4) with
        | .error e => { status := e }
        | .ok (pk, off) =>
          if d.length < off + 4 ∨ 8 ≤ be32 d off then { status := Status.verifyFail }
          else match hssRest d (be32 d off) (off + 4) 0 with
            | none => { status := Status.verifyFail }
            | some (stop, _) =>
              { status := if be32 pk 0 = be32 d off + 1 ∧ Config.sigOk 0x50 pk (d.drop stop) (slice d off (stop - off)) = true
                  then Status.ok else Status.verifyFail }) ∧
  Produces s j (.lmsVerify j) (fun k => decide (k = .lmsVerify))
    (fun s job => 
      let d := job.input
      match hbsKey job (24 + hbsN job.set_) 8 (fun b => lmsTypesOk job.set_ b 0) with
        | .error e => { status := e }
        | .ok (pk, off) =>
          let pk := if pk.length = 28 + hbsN job.set_ then pk.drop 4 else pk
          match lmsSigAt d off with
          | none => { status := Status.verifyFail }
          | some (n, _, h) =>
            { status := if be32 pk 0 = be32 d (off + n - 4 - h * hbsN job.set_) ∧
                  Config.sigOk 0x55 pk (d.drop (off + n)) (slice d off n) = true
                then Status.ok else Status.verifyFail }) ∧
  Produces s j (.hqcKeygen j) (fun k => decide (k = .hqcKeygen))
    (fun s job => 
      let c := s.jobClass job
      let pub := padTo (hqcEk job.set_) (Config.publicKey c job.random)
      { out := pub, mat := { attr := s.claimAttr job, secret := s.freeWrap, cache := Config.cacheOf c job.random, pub := pub } }) ∧
  Produces s j (.hqcEncaps j) (fun k => decide (k = .hqcEncaps))
    (fun s job => 
      let pk := encapsKey job
      if job.desc.keyForm = 0 ∧ 2 ^ hqcTopBits job.set_ ≤ leNat (pk.drop (pk.length - 1)) then { status := Status.inputInvalid }
      else s.shared job (padTo (hqcCt job.set_) (Config.encaps (s.jobClass job) pk job.random).1)
        (padTo 64 (Config.encaps (s.jobClass job) pk job.random).2) 0 0) ∧
  Produces s j (.mcelieceEncaps j) (fun k => decide (k = .mceEncaps))
    (fun s job => 
      s.shared job (padTo (mceCt job.set_) (Config.encaps (s.jobClass job) (encapsKey job) job.random).1)
        (padTo 32 (Config.encaps (s.jobClass job) (encapsKey job) job.random).2) 0 0) ∧
  (∀ b, Produces s j (.hqcDecaps j b) (fun k => decide (k = .hqcDecaps))
    (fun s job => if b then { status := Status.faultDetected, detail := causeShareCheck * 2 ^ 24 }
      else s.shared job [] (padTo 64 (Config.decaps (s.jobClass job) job.key1.material job.input)) 0 0)) ∧
  (∀ b, Produces s j (.mcelieceDecaps j b) (fun k => decide (k = .mceDecaps))
    (fun s job => if b then { status := Status.faultDetected, detail := causeShareCheck * 2 ^ 24 }
      else s.shared job [] (padTo 32 (Config.decaps (s.jobClass job) job.key1.material job.input)) 0 0))

/-- Wherever the program of the job stands at its ENTRY with expander words at hand, the PIN, DUKPT and key-block
operations complete: a PIN block re-encrypted in its output format, a comparison's verdict, the DUKPT MAC under the
key of its KSN, the key block of an export, and the key of an import in its slot; formats, counters and blocks that
are not as they must be end the job with the status of the first check that fails. Layouts of the payment standards
are the model's, from the standards (log entry 49). -/
def Obligations.PaymentOperations : Prop :=
  ∀ (s : State) (j : Nat),
  (∀ b, Produces s j (.pinTranslate j b) (fun k => decide (k = .pinTranslate))
    (fun s job => let p := job.desc.param
      let i := pFmtIn p
      let o := pFmtOut p
      s.pinTranslation i o job.key1.secret job.key2.secret (job.input.take (pinBlock i)) (job.input.drop (pinBlock i)) b (0, 0))) ∧
  (∀ b, Produces s j (.pinCompare j b) (fun k => decide (k = .pinCompare))
    (fun s job => let p := job.desc.param
      let i := pFmtIn p
      let o := pFmtOut p
      let one := fun (pan : List Nat) => pinOf i (pinDecrypt i job.key1.secret (panField i pan) (job.input.take (pinBlock i)))
      let two := fun (pan : List Nat) =>
        pinOf o (pinDecrypt o job.key2.secret (panField o pan) (slice job.input (pinBlock i) (pinBlock o)))
      if b then { status := Status.faultDetected, detail := causeShareCheck * 2 ^ 24 }
      else match panDigits (job.input.drop (pinBlock i + pinBlock o)) with
        | none => { status := Status.inputInvalid }
        | some ds => match one ds, two ds with
          | some x, some y => { status := if x = y then Status.ok else Status.verifyFail }
          | _, _ => { status := Status.inputInvalid })) ∧
  (∀ b, Produces s j (.dukptPinTranslate j b) (fun k => decide (k = .dukptPin))
    (fun s job => let p := job.desc.param
      let ksn := job.input.take 12
      if !counterOk (beNat (slice ksn 8 4)) then { status := Status.inputInvalid }
      else s.pinTranslation 4 (pFmtOut p) (dukptKey job.key1.secret ksn 0x1000 (dkBytes p)) job.key2.secret
        (slice job.input 12 16) (job.input.drop 28) b (0, 0))) ∧
  Produces s j (.dukptCmacGenerate j) (fun k => decide (k = (.dukptCmac false)))
    (fun s job => 
      let ksn := job.input.take 12
      let p := job.desc.param
      let r := macEnd (.cmac false) 1 p (dukptKey job.key1.secret ksn (Config.dukptMacUsage % 2 ^ 16) (dkBytes p)) (job.input.drop 12)
      if job.input.length < 12 then { status := Status.verifyFail }
      else if !counterOk (beNat (slice ksn 8 4)) then { status := Status.inputInvalid }
      else { status := r.1, out := r.2 }) ∧
  Produces s j (.dukptCmacVerify j) (fun k => decide (k = (.dukptCmac true)))
    (fun s job => 
      let ksn := job.input.take 12
      let p := job.desc.param
      let r := macEnd (.cmac true) 1 p (dukptKey job.key1.secret ksn (Config.dukptMacUsage % 2 ^ 16) (dkBytes p)) (job.input.drop 12)
      if job.input.length < 12 then { status := Status.verifyFail }
      else if !counterOk (beNat (slice ksn 8 4)) then { status := Status.inputInvalid }
      else { status := r.1, out := r.2 }) ∧
  Produces s j (.dukptInitialKeyExport j) (fun k => decide (k = .dukptInitial))
    (fun s job => { out := s.exportBlock job.key2.secret (dukptInitial job.key1.secret (job.input.take 8)) (ascii "B1AX") }) ∧
  Produces s j (.keyBlockExport j) (fun k => decide (k = .blockExport))
    (fun s job => { out := s.exportBlock job.key1.secret job.key2.material (s.keyBlockHeader job.key2.attr) }) ∧
  Produces s j (.keyBlockImport j) (fun k => decide (k = .blockImport))
    (fun s job => 
      let isAes := decide (attrClass job.key1.attr % 16 ≤ 3)
      match parseKeyBlock isAes job.input with
      | none => { status := Status.inputInvalid }
      | some k => match k.open_ isAes job.key1.secret with
        | none => { status := Status.verifyFail }
        | some p =>
          let n := beNat (p.take 2)
          if n % 8 ≠ 0 ∨ p.length < 2 + n / 8 then { status := Status.inputInvalid }
          else match grantedOps k.usage k.mode with
            | none => { status := Status.keyDenied }
            | some ops =>
              if !classFits (attrClass (s.claimAttr job)) k.alg (n / 8) then { status := Status.keyDenied }
              else { mat := { attr := reducedAttr (s.claimAttr job) ops (decide (k.exportable ≠ 0x4E#8))
                              secret := slice p 2 (n / 8) } })

/-- Wherever the program of the job stands at its ENTRY with expander words at hand and its engine is open to it, the
ECDSA, EdDSA, key agreement, RSA and composite operations complete: key pairs, signatures, shared secrets, ciphertexts
and messages as the output or in the claimed slot, and verdicts; an inline key, point or value that is refused ends
the job with INPUT_INVALID, POINT_INVALID or NONCANONICAL. The curve operations are opaque (log entry 26); RSA is
computed. -/
def Obligations.EngineOperations : Prop :=
  ∀ (s : State) (j : Nat),
  EngineProduces s j (.ecdsaKeygen j) (fun k => decide (k = .ecdsaKeygen))
    (fun s job => s.classicPair job (s.jobClass job) (privateOf (s.jobClass job) job.random)) ∧
  EngineProduces s j (.eddsaKeygen j) (fun k => decide (k = .eddsaKeygen))
    (fun s job => s.classicPair job (s.jobClass job) (privateOf (s.jobClass job) job.random)) ∧
  EngineProduces s j (.kaKeygen j) (fun k => decide (k = .kaKeygen))
    (fun s job => s.classicPair job (s.jobClass job) (privateOf (s.jobClass job) job.random)) ∧
  EngineProduces s j (.ecdsaSignMessage j) (fun k => decide (k = (.ecdsaSign false)))
    (fun s job => s.ecdsaSign job (phDigest (pPh job.desc.param) job.input)) ∧
  EngineProduces s j (.ecdsaSignDigest j) (fun k => decide (k = (.ecdsaSign true)))
    (fun s job => s.ecdsaSign job job.input) ∧
  EngineProduces s j (.ecdsaVerifyMessage j) (fun k => decide (k = (.ecdsaVerify false)))
    (fun s job => 
      match verifyParts job (curvePub (s.jobClass job)) (2 * curveL (s.jobClass job)) with
      | none => { status := Status.verifyFail }
      | some (q, sig, _, m) =>
        if job.desc.keyForm = 0 ∧ !uncompressed q then { status := Status.inputInvalid }
        else if job.desc.keyForm = 0 ∧ !onCurve (s.jobClass job) q then { status := Status.pointInvalid }
        else { status := if ecdsaRange (s.jobClass job) sig = true ∧ Config.sigOk (s.jobClass job) q (phDigest (pPh job.desc.param) m) sig = true then Status.ok
            else Status.verifyFail }) ∧
  EngineProduces s j (.ecdsaVerifyDigest j) (fun k => decide (k = (.ecdsaVerify true)))
    (fun s job => 
      match verifyParts job (curvePub (s.jobClass job)) (2 * curveL (s.jobClass job)) with
      | none => { status := Status.verifyFail }
      | some (q, sig, _, m) =>
        if job.desc.keyForm = 0 ∧ !uncompressed q then { status := Status.inputInvalid }
        else if job.desc.keyForm = 0 ∧ !onCurve (s.jobClass job) q then { status := Status.pointInvalid }
        else { status := if ecdsaRange (s.jobClass job) sig = true ∧ Config.sigOk (s.jobClass job) q (m) sig = true then Status.ok
            else Status.verifyFail }) ∧
  EngineProduces s j (.eddsaSign j) (fun k => decide (k = .eddsaSign))
    (fun s job => 
      { out := padTo (2 * curveL (s.jobClass job))
          (Config.signature (s.jobClass job) job.key1.material (eddsaMessage (inputCtx job) (inputMsg job)) []) }) ∧
  EngineProduces s j (.eddsaVerify j) (fun k => decide (k = .eddsaVerify))
    (fun s job => 
      let c := s.jobClass job
      match verifyParts job (curvePub c) (2 * curveL c) with
      | none => { status := Status.verifyFail }
      | some (a, sig, ctx, m) =>
        if (job.desc.keyForm = 0 ∧ !Config.keyOk c a) ∨ !Config.keyOk c (sig.take (curveL c)) then { status := Status.pointInvalid }
        else { status := if Config.sigOk c a (eddsaMessage ctx m) sig then Status.ok else Status.verifyFail }) ∧
  EngineProduces s j (.kaDerive j) (fun k => decide (k = .kaDerive))
    (fun s job => 
      let c := s.jobClass job
      let ss := padTo (curveL c) (Config.decaps c job.key1.material job.input)
      if c ≤ 0x73 ∧ !uncompressed job.input then { status := Status.inputInvalid }
      else if (if c ≤ 0x73 then !onCurve c job.input else decide (leNat ss = 0)) then { status := Status.pointInvalid }
      else s.shared job [] ss 0 0) ∧
  (∀ b, EngineProduces s j (.rsassaPssSign j b) (fun k => decide (k = .pssSign))
    (fun s job => s.rsaUse job b (pssEncode (pPh job.desc.param) (rsaN job.set_) (rsaHash (pPh job.desc.param) job.input)
        (s.freeValue 1 (phBytes (pPh job.desc.param)))) fun y => { out := y })) ∧
  (∀ b, EngineProduces s j (.rsaesOaepDecrypt j b) (fun k => decide (k = .oaepDecrypt))
    (fun s job => s.rsaUse job b (inputMsg job) fun y =>
        match oaepDecode (pPh job.desc.param) (rsaN job.set_) (inputCtx job) y with
        | some m => { out := m }
        | none => { status := Status.verifyFail })) ∧
  EngineProduces s j (.rsaesOaepEncrypt j) (fun k => decide (k = .oaepEncrypt))
    (fun s job => 
      let n := rsaModulus job
      let rest := if job.desc.keyForm = 0 then job.input.drop (rsaN job.set_) else job.input
      if job.desc.keyForm = 0 ∧ !modulusOk n then { status := Status.inputInvalid }
      else { out := beBytes (rsaN job.set_) (rsaPublic (beNat n) (beNat (oaepEncode (pPh job.desc.param) (rsaN job.set_)
        (rest.take (pCtxLen job.desc.param)) (rest.drop (pCtxLen job.desc.param))
        (s.freeValue 1 (phBytes (pPh job.desc.param)))))) }) ∧
  EngineProduces s j (.rsassaPssVerify j) (fun k => decide (k = .pssVerify))
    (fun s job => 
      match verifyParts job (rsaN job.set_) (rsaN job.set_) with
      | none => { status := Status.verifyFail }
      | some (n, sig, _, m) =>
        let em := beBytes (rsaN job.set_) (powMod (beNat sig) 65537 (beNat n))
        if job.desc.keyForm = 0 ∧ !modulusOk n then { status := Status.inputInvalid }
        else if beNat n ≤ beNat sig then { status := Status.noncanonical }
        else { status := if pssOk (pPh job.desc.param) (rsaN job.set_) (rsaHash (pPh job.desc.param) m) em then Status.ok else Status.verifyFail }) ∧
  EngineProduces s j (.pkcs1V15Verify j) (fun k => decide (k = .v15Verify))
    (fun s job => 
      match verifyParts job (rsaN job.set_) (rsaN job.set_) with
      | none => { status := Status.verifyFail }
      | some (n, sig, _, m) =>
        let em := beBytes (rsaN job.set_) (powMod (beNat sig) 65537 (beNat n))
        if job.desc.keyForm = 0 ∧ !modulusOk n then { status := Status.inputInvalid }
        else if beNat n ≤ beNat sig then { status := Status.noncanonical }
        else { status := if decide (em = v15Encode (pPh job.desc.param) (rsaN job.set_) (rsaHash (pPh job.desc.param) m)) then Status.ok else Status.verifyFail }) ∧
  EngineProduces s j (.compositeVerify j) (fun k => decide (k = .compVerify))
    (fun s job => 
      let n := dsaPk job.set_
      match verifyParts job (n + compEc job.set_) (compSig job.set_) with
      | none => { status := Status.verifyFail, detail := 3 }
      | some (pk, sig, ctx, m) =>
        let ml := if job.desc.keyForm = 0 then pk.take n else job.key1.pub
        let ec := if job.desc.keyForm = 0 then pk.drop n else job.key2.pub
        let mc := compMessage job.set_ ctx.length (ctx ++ m)
        let one := Config.sigOk (0x20 + job.set_) ml (representative false 0 [] mc) (sig.take (dsaSig job.set_))
        let two := Config.sigOk (compClass job.set_) ec (compDigest job.set_ mc) (sig.drop (dsaSig job.set_))
        if job.desc.keyForm = 0 ∧ !uncompressed ec then { status := Status.inputInvalid }
        else if job.desc.keyForm = 0 ∧ !onCurve (compClass job.set_) ec then { status := Status.pointInvalid }
        else
          { status := if one && two then Status.ok else Status.verifyFail
            detail := (if one then 0 else 1) + 2 * (if two then 0 else 1) }) ∧
  (∀ f, EngineProduces s j (.compositeSign j f) (fun k => decide (k = .compSign))
    (fun s job => let mc := compMessage job.set_ (pCtxLen job.desc.param) job.input
      let r := s.dsaSignature job (0x20 + job.set_) job.set_ true (representative false 0 [] mc) f
      { r with
        out := if r.status = Status.ok then r.out ++ padTo (compSig job.set_ - dsaSig job.set_)
          (Config.signature (compClass job.set_) job.key2.material (compDigest job.set_ mc) (s.freeValue 2 64)) else [] }))

/-- CONTEXT_OPEN checks its underlying parameter and prefix, CONTEXT_STEP outputs what the cipher settles,
CONTEXT_CLOSE outputs the rest, the hash or the MAC and checks lengths and MACs, CONTEXT_DISCARD ends OK; an owner
extension's program runs to its END, where its result is judged; MCTP_MESSAGE takes the message of an admin job. -/
def Obligations.ContextOperations : Prop :=
  ∀ (s : State) (j : Nat),
  Produces s j (.contextOpen j) (fun k => decide (k = .ctxOpen))
    (fun s job => 
      let op := bits job.desc.param 15 0
      let p := field job.input 0 8
      if !paramOk (underlying op) (setOf op) p ∨ (job.input.drop 8).length ≠ prefixLen op p then { status := Status.inputInvalid }
      else {}) ∧
  Produces s j (.contextStep j) (fun k => decide (k = .ctxStep))
    (fun s job => 
      let c := s.ctx job.desc.keyIndex
      let data := c.data ++ job.input
      { out := (c.stream job.key1.secret (data.take (c.settled data.length))).drop (c.settled c.data.length) }) ∧
  Produces s j (.contextClose j) (fun k => decide (k = .ctxClose))
    (fun s job => 
      let c := s.ctx job.desc.keyIndex
      let data := c.data ++ job.input
      let k := underlying c.op
      let r := symOutput k (setOf c.op) c.param job.key1.secret (c.whole data) (c.head.take 12)
      let iv := if ctxKind c.op = 4 ∧ pIvgen c.param then 12 else 0
      if c.badLength data.length then { status := Status.lengthRange }
      else if macVerifies k ∧ data.length < pOlen c.param then { status := Status.verifyFail }
      else { status := r.1, out := if r.1 ≠ Status.ok then []
          else if ctxKind c.op ≤ 2 then r.2 else r.2.take iv ++ r.2.drop (iv + c.settled c.data.length) }) ∧
  Produces s j (.contextDiscard j) (fun k => decide (k = .ctxDiscard))
    (fun s job => {}) ∧
  (∀ job, s.job j = some job → s.kindOf job = .mctp → job.stage = .execute → job.held = false → s.power.holdActive = false →
    exec (.mctpMessage j) s = .next (s.modJob j fun x => { x with delivered := 1 })) ∧
  (∀ job g, s.opReady j (fun k => decide (k = .extension)) = some (job, g) → s.Sound → s.engineBusy j = false →
    SeedReq.entropy j ∉ s.rng.waiting →
    ((s.grain g).expander.delivered = 0 ∨ (s.grain g).expander.seedHeld = true) →
    ∃ t, exec (.ownerExtension j) s = .next t ∧
      (t.job j = none ∨ (t.job j).map (fun x => (x.stage, x.status)) = some (.output, Status.ok)))

/-- A first write of a PF holds its value with whether the register was armed, uses the arming up, and makes its
posted block busy; a block that is busy or behind a dead link drops it. No second write in time: TIMEOUT. An arming
lapses, and with it a staged life-cycle request. For each of the twelve GD commands a second write that is not the
pair's own shadow is INTERVENING, a wrong complement MISMATCH, an unarmed register UNARMED, a full log LOG_FULL, in
that order and with no effect of the operation; GLB_GUARD_STAT then shows code and offset, and no pair is held. -/
def Obligations.GuardedWrites : Prop :=
  ∀ s : State,
  (∀ p off value, s.pfLive p = true → s.heldPair (.pf p) = none → off ∈ gdOffsets → s.gdVisible (.pf p) off = true → postedOf off = none → 
    exec (.guardFirstWrite (.pf p) off value) s = .next ({ (if (s.pf p).arm = some ⟨off⟩ then s.modPf p (fun x => { x with arm := none }) else s) with guard := s.guard.insert p (off, value, decide ((s.pf p).arm = some ⟨off⟩)) })) ∧
  (∀ p off value b, s.pfLive p = true → s.heldPair (.pf p) = none → off ∈ gdOffsets → s.gdVisible (.pf p) off = true → postedOf off = some b → s.glb.linkDown = false → (s.postedBlock b).busy = false → 
    exec (.guardFirstWrite (.pf p) off value) s = .next ({ (if (s.pf p).arm = some ⟨off⟩ then s.modPf p (fun x => { x with arm := none }) else s).modPosted b (fun x => { x with busy := true }) with guard := s.guard.insert p (off, value, decide ((s.pf p).arm = some ⟨off⟩)) })) ∧
  (∀ p off value b, s.pfLive p = true → s.heldPair (.pf p) = none → off ∈ gdOffsets → s.gdVisible (.pf p) off = true → postedOf off = some b → s.glb.linkDown = true → 
    exec (.guardFirstWrite (.pf p) off value) s = .next ((if (s.pf p).arm = some ⟨off⟩ then s.modPf p (fun x => { x with arm := none }) else s))) ∧
  (∀ p off value b, s.pfLive p = true → s.heldPair (.pf p) = none → off ∈ gdOffsets → s.gdVisible (.pf p) off = true → postedOf off = some b → s.glb.linkDown = false → (s.postedBlock b).busy = true → 
    exec (.guardFirstWrite (.pf p) off value) s = .next ((if (s.pf p).arm = some ⟨off⟩ then s.modPf p (fun x => { x with arm := none }) else s).modPosted b (fun x => { x with writeLost := satAdd 0xFFFF x.writeLost 1 }))) ∧
  (∀ k off value, s.heldPair (.loam k) = none → off ∈ gdOffsets → postedOf off = none → 
    exec (.guardFirstWrite (.loam k) off value) s = .next ({ s with guard := s.guard.insert (4 + k) (off, value, true) })) ∧
  (∀ r off value armed, s.heldPair r = some (off, value, armed) → 
    exec (.guardPairTimeout r) s = .next (s.judged r off .timeout)) ∧
  (∀ p, (s.pf p).arm ≠ some ⟨gdLcsReq⟩ → 
    exec (.armingLapse p) s = .next (s.modPf p fun x => { x with arm := none })) ∧
  (∀ p, (s.pf p).arm = some ⟨gdLcsReq⟩ → 
    exec (.armingLapse p) s = .next ({ s with life := { s.life with staged := none } }.modPf p fun x => { x with arm := none })) ∧
  (∀ cmd regs, ((cmd : Requester → Nat → W32 → Instr), (regs : List Nat)) ∈ guardCommands →
    ∀ r off value armed shadow complement, s.live r = true → s.power.resetDue = 0 → s.heldPair r = some (off, value, armed) →
    (off ∉ regs ∨ off ^^^ 0x8000 ≠ shadow → exec (cmd r shadow complement) s = .next (s.judged r off .intervening)) ∧
    (off ∈ regs → off ^^^ 0x8000 = shadow → complement ≠ ~~~value →
      exec (cmd r shadow complement) s = .next (s.judged r off .mismatch)) ∧
    (off ∈ regs → off ^^^ 0x8000 = shadow → complement = ~~~value → armed = false →
      exec (cmd r shadow complement) s = .next (s.judged r off .unarmed)) ∧
    (off ∈ regs → off ^^^ 0x8000 = shadow → complement = ~~~value → armed = true → s.glb.logFull = true →
      exec (cmd r shadow complement) s = .next (s.judged r off .logFull))) ∧
  (∀ p off res, s.Sound → let t := s.judged (.pf p) off res
    t.heldPair (.pf p) = none ∧ (t.pf p).guardResult = res.code ∧ (t.pf p).guardOffset = off)

/-- A pair whose two writes agree, on an armed register with room in the log, does its operation and is judged with
its result: a software full reset, the removal of a QUIESCED tenant (its contexts gone, TGEN one higher, REMOVING),
the retirement of noise sources, the destruction of a slot (secret, cache and shelf record gone at once), the
revocation of an image key that strands nothing, a staged life-cycle request with its reset, holds, the sieve, an
update window, tamper response bits that are ORed in. An operation that refuses leaves the state as it was under its
own result code. -/
def Obligations.GuardedOperations : Prop :=
  ∀ s : State,
  (
    Applies s .glbReset (gdReset) (0x5EED0001#32) (s.callReset causeSoftware) .applied State.runDue) ∧
  (∀ r, let t := ((s.callReset causeSoftware).judged r gdReset .applied).runDue
    t.power.phase = .pllLocking ∧ t.power.cause.testBit 21 = true ∧ t.power.resetDue = 0 ∧ t.glb.epoch = s.glb.epoch ∧ t.jobs = [] ∧
    t.queues = [] ∧ t.tenants = [] ∧ t.vault.ctxs = [] ∧ t.power.topsoilUp = false) ∧
  (∀ value : W32, value ≠ 0x5EED0001#32 → s.power.resetDue = 0 → 
    Applies s .glbReset (gdReset) (value) (s) .inputInvalid id) ∧
  (∀ value : W32, (s.tenant (bits value.toNat 9 0)).state = .quiesced → s.tgen (bits value.toNat 9 0) ≠ 0xFFFFFFFF → 
    Applies s .glbTenantRemove (gdRemove) (value) ((s.removeTenant (bits value.toNat 9 0)).1) .applied id) ∧
  (∀ n, (s.tenant n).state = .quiesced → s.tgen n ≠ 0xFFFFFFFF →
    let t := (s.removeTenant n).1
    (t.tenant n).state = .removing ∧ t.tgen n = s.tgen n + 1 ∧ ∀ c x, (c, x) ∈ t.vault.ctxs → x.owner ≠ n) ∧
  (∀ value : W32, (s.tenant (bits value.toNat 9 0)).state ≠ .quiesced → 
    Applies s .glbTenantRemove (gdRemove) (value) (s) .tenantBusy id) ∧
  (∀ value : W32, 
    Applies s .rngSrcSel (gdSrcSel) (value) (((List.range 20).filter fun k => value.getLsbD k).foldl State.retireSource s) .applied id) ∧
  (∀ k, (s.rng.source k).role ≠ .retired → ((s.retireSource k).rng.source k).role = .retired) ∧
  (∀ value : W32, 
    Applies s .keySlotDestroy (gdDestroy) (value) (s.startDestroy (bits value.toNat 11 0)) .applied id) ∧
  (∀ k, (s.slot k).state = .loaded → (s.slot k).destroying = false →
    let t := s.startDestroy k
    (t.slot k).destroying = true ∧ (t.slot k).secret = [] ∧ (t.slot k).cache = [] ∧ (s.Sound → t.vault.shelf.find? k = none)) ∧
  (∀ value : W32, s.keyLive (bits value.toNat 2 0) = false → 
    Applies s .bootRevoke (gdRevoke) (value) (s) .applied id) ∧
  (∀ value : W32, s.keyLive (bits value.toNat 2 0) = true → (s.modBoot fun b => { b with revoked := b.revoked ||| 2 ^ (bits value.toNat 2 0) }).startable = true → 
    Applies s .bootRevoke (gdRevoke) (value) (((s.modBoot fun b => { b with revoked := b.revoked ||| 2 ^ (bits value.toNat 2 0) }).dropSigned (bits value.toNat 2 0)).event .boot 4) .applied id) ∧
  (∀ value : W32, s.keyLive (bits value.toNat 2 0) = true → (s.modBoot fun b => { b with revoked := b.revoked ||| 2 ^ (bits value.toNat 2 0) }).startable = false → 
    Applies s .bootRevoke (gdRevoke) (value) (s) .revokeStrands id) ∧
  (∀ req, s.life.staged = some req → field req 0x0C 4 < 2 ^ 32 → 
    Applies s .lcsReq (gdLcsReq) (BitVec.ofNat 32 (field req 0x0C 4)) (((s.modLife fun l => { l with staged := none, request := some req }).log 0x3001 (leBytes 4 (field req 8 4) ++ leBytes 4 (field req 0x0C 4) ++ leBytes 1 (field req 0x10 4) ++ leBytes 1 2)).callReset causeLcTrans) .applied State.runDue) ∧
  (∀ value : W32, s.life.staged = none → s.power.resetDue = 0 → 
    Applies s .lcsReq (gdLcsReq) (value) (s) .inputInvalid State.runDue) ∧
  (∀ value : W32, 
    Applies s .pgdHoldAssert (gdHoldRel) (value) (((List.range 8).filter fun k =>
        value.toNat.testBit k && !(bits value.toNat 15 8).testBit k && s.mayRelease k).foldl State.releaseHold
        ((s.assertHolds (bits value.toNat 15 8)).modPgd fun g => { g with autoDue := without g.autoDue (bits value.toNat 15 8) })) .applied id) ∧
  (∀ value : W32, 
    Applies s .pgdHoldRelease (gdHoldRel) (value) (((List.range 8).filter fun k =>
        value.toNat.testBit k && !(bits value.toNat 15 8).testBit k && s.mayRelease k).foldl State.releaseHold
        ((s.assertHolds (bits value.toNat 15 8)).modPgd fun g => { g with autoDue := without g.autoDue (bits value.toNat 15 8) })) .applied id) ∧
  (∀ value : W32, 
    Applies s .pgdSieveEn (gdSieveEn) (value) (s.modPgd fun g => { g with sieveEn := bits value.toNat 1 0 }) .applied id) ∧
  (∀ value : W32, bits value.toNat 30 17 ≤ 8192 → 
    Applies s .pgdUpdWin (gdUpdWin) (value) (s.modChan (bits value.toNat 31 31) fun x => { x with window := if bits value.toNat 30 17 = 0 then none else some ⟨65536 * bits value.toNat 12 0, 65536 * bits value.toNat 30 17⟩ }) .applied id) ∧
  (∀ value : W32, 8192 < bits value.toNat 30 17 → 
    Applies s .pgdUpdWin (gdUpdWin) (value) (s) .inputInvalid id) ∧
  (∀ (k : Nat) (value : W32), k < 16 → 
    Applies s .tmpCfgs (gdTamper k) (value) (s.setTamper k { s.tamperOf k with bits := (s.tamperOf k).bits ||| bits value.toNat 5 0 }) .applied id)

/-- An acknowledge to a busy posted block is lost and counted there. After 2 µs a pending increment of SEQ is applied
and a new interval runs. A posted write of the management PF makes its block busy and is held; while busy it is lost
and counted. When it is applied BUSY clears and PGD_TBL_IDX, HZN_WIN or a test register takes it, and no other offset.
A queue pair's coalescing settings take a write at any time, its ring sizes only while it is DISABLED; MSI-X entries,
NumVFs, VF Enable and the power state take theirs. -/
def Obligations.RegisterWrites : Prop :=
  (∀ s : State,
  (∀ r reg value b, s.live r = true → s.heldPair r = none → s.sqVisible r reg = true → sqBlock reg = some b → s.glb.linkDown = false → (s.postedBlock b).busy = true → 
    exec (.sqAcknowledge r reg value) s = .next (s.modPosted b fun x => { x with writeLost := satAdd 0xFFFF x.writeLost 1 })) ∧
  (∀ reg, (s.sqReg reg).incPending = true → 
    exec (.sqPendingIncrement reg) s = .next (s.modSq reg fun x => { x with seq := x.seq + 1, incPending := false, interval := true })) ∧
  (∀ reg, (s.sqReg reg).incPending = false → 
    exec (.sqPendingIncrement reg) s = .next (s.modSq reg fun x => { x with interval := false }))) ∧
  (∀ s : State,
  (∀ off value b, s.pfLive s.mgmt = true → s.heldPair (.pf s.mgmt) = none → postedOf off = some b → s.glb.linkDown = false → (s.postedBlock b).busy = false → 
    exec (.postedWrite s.mgmt off value) s = .next (s.modPosted b fun x => { x with busy := true, held := some (off, s.mgmt, value) })) ∧
  (∀ off value b, s.pfLive s.mgmt = true → s.heldPair (.pf s.mgmt) = none → postedOf off = some b → s.glb.linkDown = false → (s.postedBlock b).busy = true → 
    exec (.postedWrite s.mgmt off value) s = .next (s.modPosted b fun x => { x with writeLost := satAdd 0xFFFF x.writeLost 1 })) ∧
  (∀ p off value, s.heldPair (.pf p) = none → p ≠ s.mgmt → 
    exec (.postedWrite p off value) s = .next (s)) ∧
  (∀ b off p value, (s.postedBlock b).held = some (off, p, value) → s.glb.linkDown = false → 
    exec (.postedWriteApplied b) s = .next ((s.modPosted b fun x => { x with busy := false, held := none }).applyPosted off value)) ∧
  (∀ value, s.applyPosted 0x300040 value = s.modPgd fun g => { g with tblIdx := bits value.toNat 14 0 }) ∧
  (∀ value, s.applyPosted 0x400030 value = s.modHzn fun h => { h with win := h.win.extractLsb' 32 32 ++ value }) ∧
  (∀ value, s.applyPosted 0x400034 value = s.modHzn fun h => { h with win := value ++ h.win.extractLsb' 0 32 }) ∧
  (∀ off value, off ∉ [0x200500, 0x200504, 0x200508, 0x300040, 0x400030, 0x400034] → s.applyPosted off value = s) ∧
  (∀ p, s.pfLive p = true → s.heldPair (.pf p) = none → 
    exec (.registerWrite (.pf p) (.bar 0x3000100 0)) s = .next (if p = s.mgmt then s.modObs fun o => { o with trcCtl := 0 } else s)) ∧
  (∀ p q value, s.pfLive p = true → s.heldPair (.pf p) = none → s.pairWritable p q = true → q < 8192 → 
    exec (.registerWrite (.pf p) (.bar (0x100018 + 64 * q) value)) s = .next (s.modQueue q fun y => { y with timeUs := bits value.toNat 23 8, count := bits value.toNat 7 0 })) ∧
  (∀ p q value, s.pfLive p = true → s.heldPair (.pf p) = none → s.pairWritable p q = true → q < 8192 → (s.queue q).state = .disabled → 
    exec (.registerWrite (.pf p) (.bar (0x100010 + 64 * q) value)) s = .next (s.modQueue q fun y => { y with sqLog2 := bits value.toNat 4 0, cqLog2 := bits value.toNat 20 16 })) ∧
  (∀ p q value, s.pfLive p = true → s.heldPair (.pf p) = none → s.pairWritable p q = true → q < 8192 → (s.queue q).state ≠ .disabled → 
    exec (.registerWrite (.pf p) (.bar (0x100010 + 64 * q) value)) s = .next (s)) ∧
  (∀ p v value, s.pfLive p = true → s.heldPair (.pf p) = none → v < 64 → (s.func (fnKey p 0)).msixPending.testBit v = false → value.getLsbD 0 = false → 
    exec (.registerWrite (.pf p) (.bar (0xD00C + 16 * v) value)) s = .next (s.modFunc (fnKey p 0) fun x => { x with msixMasked := x.msixMasked - (if x.msixMasked.testBit v then 2 ^ v else 0), msixPending := x.msixPending - (if x.msixPending.testBit v then 2 ^ v else 0) })) ∧
  (∀ p n, s.pfLive p = true → (s.port p).vfEnable = false → n ≤ s.vfCount p → 
    exec (.registerWrite (.pf p) (.numVFs n)) s = .next (s.modPort p fun x => { x with numVFs := n })) ∧
  (∀ p on, s.pfLive p = true → 
    exec (.registerWrite (.pf p) (.vfEnable on)) s = .next (s.modPort p fun x => { x with vfEnable := on })) ∧
  (∀ p f on, s.pfLive p = true → f ≤ (s.port p).numVFs → 
    exec (.registerWrite (.pf p) (.power p f on)) s = .next (s.modFunc (fnKey p f) fun x => { x with d3hot := on })))

/-- A write that sets EN on a DISABLED pair whose sizes and rings are in range enables it with both indices 0 and
PHASE 1; otherwise ERROR is QUEUE_CONFIG. Clearing EN makes it STOPPING and aborts its jobs; it is DISABLED once none
is in flight. A tail below the ring size and a head up to the completion tail are taken while the pair is ENABLED or
its tenant quiesced; one out of range stops the pair with DOORBELL_RANGE, a refused ring access with DMA_ERROR, and in
another state a doorbell does nothing. -/
def Obligations.QueuePairs : Prop :=
  ∀ s : State,
  (∀ p q ctl, s.pfLive p = true → s.heldPair (.pf p) = none → s.pairWritable p q = true → (s.queue q).en = false → bit ctl.toNat 0 = true → (s.queue q).enableOk = true → 
    exec (.queueEnable p q ctl) s = .next ((s.modQueue q fun y => y.setCtl ctl.toNat).modQueue q Queue.start)) ∧
  (∀ p q ctl, s.pfLive p = true → s.heldPair (.pf p) = none → s.pairWritable p q = true → (s.queue q).en = false → bit ctl.toNat 0 = true → (s.queue q).enableOk = false → 
    exec (.queueEnable p q ctl) s = .next ((s.modQueue q fun y => y.setCtl ctl.toNat).modQueue q fun y => { y with error := Status.queueConfig })) ∧
  (∀ p q ctl, s.pfLive p = true → s.heldPair (.pf p) = none → s.pairWritable p q = true → (s.queue q).en = true → bit ctl.toNat 0 = false → 
    exec (.queueDisable p q ctl) s = .next ((s.pairJobs q).foldl (fun s j => s.abortJob j Status.aborted)
      (s.modQueue q fun y => { y.setCtl ctl.toNat with en := false, state := .stopping }))) ∧
  (∀ q, (s.queue q).state = .stopping → (s.queue q).inflight = 0 → 
    exec (.queueDrainDone q) s = .next (s.modQueue q fun y => { y with state := .disabled })) ∧
  (∀ q, (s.queue q).state = .stopping → (s.queue q).inflight ≠ 0 → 
    exec (.queueDrainDone q) s = .next (s)) ∧
  (∀ p f k q value, s.live (doorbellWriter p f) = true → s.heldPair (doorbellWriter p f) = none → s.pairOf p f k = some q → ((s.queue q).state = .enabled ∨ (s.queue q).state = .quiesced) → bits value.toNat 15 0 < 2 ^ (s.queue q).sqLog2 → 
    exec (.sqTailDoorbell p f k value true) s = .next (s.modQueue q fun x => { x with sqTail := bits value.toNat 15 0 })) ∧
  (∀ p f k q value, s.live (doorbellWriter p f) = true → s.heldPair (doorbellWriter p f) = none → s.pairOf p f k = some q → ((s.queue q).state = .enabled ∨ (s.queue q).state = .quiesced) → 2 ^ (s.queue q).sqLog2 ≤ bits value.toNat 15 0 → 
    exec (.sqTailDoorbell p f k value true) s = .next (s.stopPair q Status.doorbellRange)) ∧
  (∀ p f k q value, s.live (doorbellWriter p f) = true → s.heldPair (doorbellWriter p f) = none → s.pairOf p f k = some q → ((s.queue q).state = .enabled ∨ (s.queue q).state = .quiesced) → bits value.toNat 15 0 < 2 ^ (s.queue q).cqLog2 → (bits value.toNat 15 0 + 2 ^ (s.queue q).cqLog2 - (s.queue q).cqHead) % 2 ^ (s.queue q).cqLog2 ≤ ((s.queue q).cqTail + 2 ^ (s.queue q).cqLog2 - (s.queue q).cqHead) % 2 ^ (s.queue q).cqLog2 → 
    exec (.cqHeadDoorbell p f k value true) s = .next (s.modQueue q fun x => { x with cqHead := bits value.toNat 15 0 })) ∧
  (∀ p f k q value, s.live (doorbellWriter p f) = true → s.heldPair (doorbellWriter p f) = none → s.pairOf p f k = some q → ((s.queue q).state = .enabled ∨ (s.queue q).state = .quiesced) → (2 ^ (s.queue q).cqLog2 ≤ bits value.toNat 15 0 ∨ ¬ (bits value.toNat 15 0 + 2 ^ (s.queue q).cqLog2 - (s.queue q).cqHead) % 2 ^ (s.queue q).cqLog2 ≤ ((s.queue q).cqTail + 2 ^ (s.queue q).cqLog2 - (s.queue q).cqHead) % 2 ^ (s.queue q).cqLog2) → 
    exec (.cqHeadDoorbell p f k value true) s = .next (s.stopPair q Status.doorbellRange)) ∧
  (∀ p f k q value, s.live (doorbellWriter p f) = true → s.heldPair (doorbellWriter p f) = none → s.pairOf p f k = some q → ((s.queue q).state = .enabled ∨ (s.queue q).state = .quiesced) → 
    exec (.sqTailDoorbell p f k value false) s = .next (s.stopPair q Status.dmaError)) ∧
  (∀ p f k q value accepted, s.live (doorbellWriter p f) = true → s.heldPair (doorbellWriter p f) = none → s.pairOf p f k = some q → (s.queue q).state ≠ .enabled → (s.queue q).state ≠ .quiesced → 
    exec (.sqTailDoorbell p f k value accepted) s = .next (s)) ∧
  (∀ p f k q value, s.live (doorbellWriter p f) = true → s.heldPair (doorbellWriter p f) = none → s.pairOf p f k = some q → ((s.queue q).state = .enabled ∨ (s.queue q).state = .quiesced) → 
    exec (.cqHeadDoorbell p f k value false) s = .next (s.stopPair q Status.dmaError)) ∧
  (∀ p f k q value accepted, s.live (doorbellWriter p f) = true → s.heldPair (doorbellWriter p f) = none → s.pairOf p f k = some q → (s.queue q).state ≠ .enabled → (s.queue q).state ≠ .quiesced → 
    exec (.cqHeadDoorbell p f k value accepted) s = .next (s)) ∧
  (∀ q code, ((s.stopPair q code).queue q).state = .stopped ∧ ((s.stopPair q code).queue q).error = code)

/-- A fetch reads up to as many descriptors as wait and fit, and a refused read stops the pair. A fetched descriptor
takes its ring slot: it completes with the first check of admission that fails, an unfenced NOP with OK, and any other
job is admitted. The oldest admitted job of a pair, unless it is held back, starts directly where it takes no grain,
or is placed on the chosen grain, which runs it, loads its program or scrubs first; a program that is not on the shelf
is ALG_REVOKED. A fenced NOP completes when nothing holds it back. -/
def Obligations.FetchAndPlacement : Prop :=
  ∀ s : State,
  (∀ q o, s.pairOwner q = some o → s.mayFetch q o = true → (s.queue q).fetchable ≠ 0 → 
    exec (.descriptorFetch q none) s = .next (s.stopPair q Status.dmaError)) ∧
  (∀ q o data, s.pairOwner q = some o → s.mayFetch q o = true → (s.queue q).fetchable ≠ 0 → 
    exec (.descriptorFetch q (some data)) s = .next ((List.range (min (s.queue q).fetchable (data.length / 64))).foldl
      (fun t i => if (t.queue q).state = .enabled then t.fetchOne q o (slice data (64 * i) 64) else t) s)) ∧
  (∀ q o raw,
    let j := s.nextJob
    let d := parseDescriptor raw
    let job : Job := { pair := q, index := (s.queue q).sqHead, desc := d, tenant := o.tenant }
    let t := { s with nextJob := j + 1, jobs := s.jobs.insert j job }.modQueue q fun x =>
      { x with sqHead := (x.sqHead + 1) % 2 ^ x.sqLog2, inflight := x.inflight + 1 }
    (∀ status n, t.admission o d = some (status, n) →
      s.fetchOne q o raw = (t.modJob j fun x => { x with outWritten := n }).complete j status true) ∧
    (t.admission o d = none → s.fetchOne q o raw =
      if s.tilth.opKind d.opcode = some .nop ∧ d.fence = false then t.complete j Status.ok true else t)) ∧
  (∀ q j job, (s.jobsWhere fun x => decide (x.pair = q ∧ x.stage = Stage.admitted)).head? = some j → s.job j = some job → s.heldBack j job = false → s.power.holdActive = false → s.kindOf job ≠ .nop → grainless (s.kindOf job) = true → 
    exec (.jobPlacement q) s = .next (s.startDirect j job)) ∧
  (∀ q j job g p, (s.jobsWhere fun x => decide (x.pair = q ∧ x.stage = Stage.admitted)).head? = some j → s.job j = some job → s.heldBack j job = false → s.power.holdActive = false → s.kindOf job ≠ .nop → grainless (s.kindOf job) = false → s.chooseGrain job = some g → s.shelved (g / 16) job.desc.opcode = some p → 
    exec (.jobPlacement q) s = .next (s.placeJob j g job p)) ∧
  (∀ q j job g, (s.jobsWhere fun x => decide (x.pair = q ∧ x.stage = Stage.admitted)).head? = some j → s.job j = some job → s.heldBack j job = false → s.power.holdActive = false → s.kindOf job ≠ .nop → grainless (s.kindOf job) = false → s.chooseGrain job = some g → s.shelved (g / 16) job.desc.opcode = none → 
    exec (.jobPlacement q) s = .next (s.complete j Status.algRevoked true)) ∧
  (∀ q j job, (s.jobsWhere fun x => decide (x.pair = q ∧ x.stage = Stage.admitted)).head? = some j → s.job j = some job → s.heldBack j job = false → s.power.holdActive = false → s.kindOf job ≠ .nop → grainless (s.kindOf job) = false → s.chooseGrain job = none → 
    exec (.jobPlacement q) s = .next (s)) ∧
  (∀ q j job, (s.jobsWhere fun x => decide (x.pair = q ∧ x.stage = Stage.admitted)).head? = some j → s.job j = some job → s.heldBack j job = true → 
    exec (.jobPlacement q) s = .next (s)) ∧
  (∀ j g job p, s.job j = some job → let t := s.placeJob j g job p
    (t.grain g).job = some j ∧
    (t.grain g).state = (if (s.grain g).test then .scrub else if (s.grain g).prog = some p.header then .running else .load) ∧
    (t.job j).map (fun x => (x.stage, x.grain, x.epoch)) = some (.placed, some g, (s.bed (g / 16)).epoch)) ∧
  (∀ j job, s.job j = some job → s.kindOf job = .nop → job.stage = .admitted → s.heldBack j job = false → 
    exec (.nop j) s = .next (s.complete j Status.ok true)) ∧
  (∀ j job, s.job j = some job → s.kindOf job = .nop → job.stage = .admitted → s.heldBack j job = true → 
    exec (.nop j) s = .next (s))

/-- On its awake bed a placed job is judged at the key stage: the first key's failure ends it, then the second's;
otherwise its keys, random inputs and expander words pass it to the input stage. When its input stands the program
starts at ENTRY, and a bad list or refused read ends it. When its output is written, or refused, it completes: the job
has left and its completion entry stands at the completion tail. A count that waited too long raises its message, and
unmasking a pending vector sends its own. -/
def Obligations.JobStages : Prop :=
  ∀ s : State,
  (∀ j job g, s.job j = some job → job.grain = some g → (job.stage = .placed ∨ job.stage = .key) → (s.bed (g / 16)).state = .awake → (s.grain g).state = .running → s.power.holdActive = false → (s.quad (g / 256)).unlocked = false → s.waitsForShelf job = false → job.desc.keyForm = 3 → 
    exec (.keyStage j none) s = .next (s.endExecution j g Status.dmaError 0 0)) ∧
  (∀ j job g b, s.job j = some job → job.grain = some g → (job.stage = .placed ∨ job.stage = .key) → (s.bed (g / 16)).state = .awake → (s.grain g).state = .running → s.power.holdActive = false → (s.quad (g / 256)).unlocked = false → s.waitsForShelf job = false → job.desc.keyForm ≠ 3 → (s.judge1 job ((s.grain g).header.flags.testBit 4) []).1 ≠ Status.ok → 
    exec (.keyStage j b) s = .next (s.endExecution j g (s.judge1 job ((s.grain g).header.flags.testBit 4) []).1 0 0)) ∧
  (∀ j job g b m1, s.job j = some job → job.grain = some g → (job.stage = .placed ∨ job.stage = .key) → (s.bed (g / 16)).state = .awake → (s.grain g).state = .running → s.power.holdActive = false → (s.quad (g / 256)).unlocked = false → s.waitsForShelf job = false → job.desc.keyForm ≠ 3 → s.judge1 job ((s.grain g).header.flags.testBit 4) [] = (Status.ok, m1) → s.judge2 job ((s.grain g).header.flags.testBit 4) m1 ≠ Status.ok → 
    exec (.keyStage j b) s = .next (s.endExecution j g (s.judge2 job ((s.grain g).header.flags.testBit 4) m1) 0 0)) ∧
  (∀ j job g b m1 bytes t u o, s.job j = some job → job.grain = some g → (job.stage = .placed ∨ job.stage = .key) → (s.bed (g / 16)).state = .awake → (s.grain g).state = .running → s.power.holdActive = false → (s.quad (g / 256)).unlocked = false → s.waitsForShelf job = false → job.desc.keyForm ≠ 3 → s.judge1 job ((s.grain g).header.flags.testBit 4) [] = (Status.ok, m1) → s.judge2 job ((s.grain g).header.flags.testBit 4) m1 = Status.ok → (∀ k ∈ s.chargedSlots job, (s.slot k).holdsCharges = false ∧ s.needsFloor k = false) → leafKind (s.kindOf job) = false → s.pairOwner job.pair = some o → s.drawPort (g / 256) o.port
      (drbgBytes (s.kindOf job) (setOf job.desc.opcode) job.desc.param (attrLen m1.attr)) = (t, .bytes bytes) → t.drawKeyPort (g / 256) (shareWords { job with order2 := attrOrder2 m1.attr } (m1.secret.length + bytes.length)) = some u → 
    exec (.keyStage j b) s = .next (u.passKeys j g job m1 bytes)) ∧
  (∀ j g job m1 bytes, (s.job j).isSome = true →
    ((s.passKeys j g job m1 bytes).job j).map (fun x => (x.stage, x.key1, x.random, x.charged)) = some (.input, m1, bytes, true)) ∧
  (∀ j job g l x d, s.job j = some job → job.stage = .input → job.held = false → s.power.holdActive = false → job.grain = some g → inputOf job.desc l x = .ok d → 
    exec (.inputDmaDone j l x) s = .next (s.startProgram j g job d)) ∧
  (∀ j job l x d, s.job j = some job → job.stage = .input → job.held = false → s.power.holdActive = false → job.grain = none → inputOf job.desc l x = .ok d → 
    exec (.inputDmaDone j l x) s = .next (s.modJob j fun x => { x with stage := .execute, input := d })) ∧
  (∀ j job g l x e, s.job j = some job → job.stage = .input → job.held = false → s.power.holdActive = false → job.grain = some g → inputOf job.desc l x = .error e → 
    exec (.inputDmaDone j l x) s = .next (s.endExecution j g e 0 0)) ∧
  (∀ j job l x e, s.job j = some job → job.stage = .input → job.held = false → s.power.holdActive = false → job.grain = none → inputOf job.desc l x = .error e → 
    exec (.inputDmaDone j l x) s = .next (s.endDirect j e [])) ∧
  (∀ j g job d, s.Sound → s.job j = some job → let t := s.startProgram j g job d
    (t.grain g).pc = (s.grain g).header.entry ∧ (t.job j).map (fun x => (x.stage, x.input)) = some (.execute, d)) ∧
  (∀ j job l ring e accepted, s.job j = some job → job.stage = .output → job.held = false → outputRanges job l = .error e → 
    exec (.outputStageDone j l accepted ring) s = .next ((s.leaveGrain job).complete j e ring)) ∧
  (∀ j job l ring es, s.job j = some job → job.stage = .output → job.held = false → outputRanges job l = .ok es → 
    exec (.outputStageDone j l false ring) s = .next ((s.leaveGrain job).complete j Status.dmaError ring)) ∧
  (∀ j job l ring es o, s.job j = some job → job.stage = .output → job.held = false → outputRanges job l = .ok es → s.pairOwner job.pair = some o → 
    exec (.outputStageDone j l true ring) s = .next (((s.dmaScatter o.port o.func es job.out).leaveGrain job).complete j job.status ring)) ∧
  (∀ j job o status, s.Sound → s.job j = some job → s.pairOwner job.pair = some o →
    (s.func (fnKey o.port o.func)).flr = false → (s.func (fnKey o.port o.func)).tdisp ≠ .error →
    let t := s.complete j status true
    t.job j = none ∧ ∃ tbit, .dma o.port o.func ((s.queue job.pair).cqb.toNat + 32 * (s.queue job.pair).cqTail)
      (completionBytes (s.queue job.pair) o job (if job.grain.isSome then job.epoch else s.glb.epoch) status
        (if status = Status.ok ∨ status = Status.outputShort then job.outWritten else 0)) false tbit ∈ t.out) ∧
  (∀ q o, s.pairOwner q = some o → (s.queue q).counted ≠ 0 → (s.queue q).timeUs ≠ 0 → 
    exec (.irqCoalesceTimeout q) s = .next ((s.modQueue q fun x => { x with counted := 0 }).raiseVector o.port o.func (completionVector o))) ∧
  (∀ p f v, (s.func (fnKey p f)).msixPending.testBit v = true → (s.port p).perstLow = false → 
    exec (.msixVectorUnmask p f v) s = .next ((s.modFunc (fnKey p f) fun x => { x with msixMasked := if x.msixMasked.testBit v then x.msixMasked - 2 ^ v else x.msixMasked, msixPending := if x.msixPending.testBit v then x.msixPending - 2 ^ v else x.msixPending }).emit (.msix p f v))) ∧
  (∀ p f v, (s.func (fnKey p f)).msixPending.testBit v = false → 
    exec (.msixVectorUnmask p f v) s = .next (s.modFunc (fnKey p f) fun x => { x with msixMasked := if x.msixMasked.testBit v then x.msixMasked - 2 ^ v else x.msixMasked, msixPending := if x.msixPending.testBit v then x.msixPending - 2 ^ v else x.msixPending }))

/-- PERST_N resets its port: link down, no VFs, no IDE keys, buffers of the key ports gone, its cause bit and event
set. An FLR discards the function's jobs and holds it under reset until it completes with its registers cleared,
CONFIG_UNLOCKED. A link comes up where it is permitted, and a later change waits for the frame. A VF moves between its
TDISP states only as the message allows, with a log entry. A flip switches the dirty-page buffer, and its pages reach
host memory. A QUIESCING tenant with nothing in flight is QUIESCED, its enabled pairs with it, its VFs see the event
and the waiting requests are answered. A REMOVING tenant's entry and pairs are as after reset when its removal ends,
and no other entry, key or job changes. At a frame boundary the accepted changes of the port's tenants take effect
with their slots, and so does a retrained link. -/
def Obligations.PortsAndTenants : Prop :=
  (∀ s : State,
  (∀ p, p < 4 → 
    exec (.perstAssert p) s = .next (State.event { ((s.perst p).modPort p fun x => { x with perstLow := true }).clearBuffers (fun x => decide (x = p)) with power := { (s.perst p).power with localCause := (s.perst p).power.localCause ||| 2 ^ p } } .rst 2)) ∧
  (∀ p, s.Sound → let t := (s.perst p).port p
    t.linkUp = false ∧ t.numVFs = 0 ∧ t.vfEnable = false ∧ t.ideKeys = [] ∧ t.pendingLink = none) ∧
  (∀ p, 
    exec (.perstRelease p) s = .next (s.modPort p fun x => { x with perstLow := false })) ∧
  (∀ p f, f ≠ 0 → 
    exec (.functionLevelReset p f) s = .next (((s.functionJobs p f).foldl State.discardJob s).modFunc (fnKey p f) fun x => { x with flr := true })) ∧
  (∀ p, 
    exec (.functionLevelReset p 0) s = .next (((s.functions p).foldl (fun s g => s.flrStart p g) s).modPort p fun x => { x with vfEnable := false })) ∧
  (∀ p f, f ≠ 0 → (s.func (fnKey p f)).flr = true → 
    exec (.flrComplete p f) s = .next ((s.clearFunction p f).modFunc (fnKey p f) fun x => { x with flr := false, tdisp := .configUnlocked })) ∧
  (∀ p, (s.func (fnKey p 0)).flr = true → 
    exec (.flrComplete p 0) s = .next ((s.functions p).foldl (fun s g => s.flrEnd p g) s)) ∧
  (∀ p width rate, (s.port p).perstLow = false → s.power.pciePermitted = true → p < s.portCount → (s.port p).linkUp = false → 
    exec (.linkRetrain p width rate) s = .next (s.modPort p fun y => { y with linkUp := true, width := width, rate := rate })) ∧
  (∀ p width rate, (s.port p).perstLow = false → s.power.pciePermitted = true → p < s.portCount → (s.port p).linkUp = true → 
    exec (.linkRetrain p width rate) s = .next (s.modPort p fun y => { y with pendingLink := some (width, rate) })) ∧
  (∀ v vf p, s.tdispPort v vf = some p → (s.func (fnKey p (vf + 1))).tdisp = .configUnlocked → 
    exec (.lockInterface v vf) s = .next (((s.modFunc (fnKey p (vf + 1)) fun x => { x with tdisp := .configLocked }).logTdisp p vf).sendSpdm v .tdisp)) ∧
  (∀ v vf p, s.tdispPort v vf = some p → (s.func (fnKey p (vf + 1))).tdisp ≠ .configUnlocked → 
    exec (.lockInterface v vf) s = .next (s.sendSpdm v (.error .invalidRequest))) ∧
  (∀ v vf p, s.tdispPort v vf = some p → (s.func (fnKey p (vf + 1))).tdisp = .configLocked → 
    exec (.startInterface v vf) s = .next (((s.modFunc (fnKey p (vf + 1)) fun x => { x with tdisp := .run }).logTdisp p vf).sendSpdm v .tdisp)) ∧
  (∀ v vf p, s.tdispPort v vf = some p → (s.func (fnKey p (vf + 1))).tdisp ≠ .configLocked → 
    exec (.startInterface v vf) s = .next (s.sendSpdm v (.error .invalidRequest))) ∧
  (∀ v vf p, s.tdispPort v vf = some p → 
    exec (.stopInterface v vf) s = .next (((s.modFunc (fnKey p (vf + 1)) fun x => { x with tdisp := .configUnlocked }).logTdisp p vf).sendSpdm v .tdisp)) ∧
  (∀ v p n stream keySet key, viaPf v = some p → v.session = some n → (s.spdm.sessions.find? n).isSome = true → stream < 8 → s.pfLive p = true → 
    exec (.ideKmKeyProg v stream keySet key) s = .next ((s.modPort p fun x => { x with ideKeys := x.ideKeys.insert stream (keySet, leNat key) }).sendSpdm v .ideKm)) ∧
  (∀ p v value, s.pfLive p = true → bit value.toNat 2 = true → s.heldPair (.pf p) = none → s.dlogWritable p v = true → 
    exec (.dlogFlip p v value) s = .next (s.modFunc (fnKey p (v + 1)) fun x => x.dlogCtl value.toNat)) ∧
  (∀ (x : Func) (v : Nat), bit v 2 = true → bit v 0 = true → x.dlogOk (bits v 9 4) = true → x.dlogEn = true →
    x.dlogCtl v = { x with dlogLimit := bits v 9 4, dlogFlipDone := false, dlogActive := !x.dlogActive }) ∧
  (∀ (x : Func) (v : Nat), bit v 2 = true →
    (x.dlogCtl v).dlogFlipDone = false ∧ (x.dlogCtl v).dlogActive = !x.dlogActive ∧ (x.dlogCtl v).dlogPages0 = x.dlogPages0 ∧
    (x.dlogCtl v).dlogPages1 = x.dlogPages1) ∧
  (∀ p v, (s.func (fnKey p (v + 1))).dlogFlipDone = false → 
    exec (.dlogFlipDone p v) s = .next ((s.modFunc (fnKey p (v + 1)) fun y =>
      { y with dlogFlipDone := true, dlogPages0 := if (s.func (fnKey p (v + 1))).dlogActive then [] else y.dlogPages0, dlogPages1 := if (s.func (fnKey p (v + 1))).dlogActive then y.dlogPages1 else [] }).emit
      (.dirty p v ((s.func (fnKey p (v + 1))).dlogBase (!(s.func (fnKey p (v + 1))).dlogActive))
        ((if (s.func (fnKey p (v + 1))).dlogActive then (s.func (fnKey p (v + 1))).dlogPages0 else (s.func (fnKey p (v + 1))).dlogPages1).map Prod.fst))))) ∧
  (∀ s : State,
  (∀ n, (s.tenant n).state = .quiescing → (s.tenantPairs n).all (fun q => decide ((s.queue q).inflight = 0)) = true → 
    exec (.tenantDrained n) s = .next ((s.tenant n).quiescers.foldl (fun t v => t.respond v Status.ok [])
      ((((s.tenantPairs n).foldl (fun t q => t.modQueue q fun y => { y with state := if y.state = .enabled then .quiesced else y.state }) s).modTenant n
        fun y => { y with state := .quiesced, quiescers := [] }).vfEventOf n vfQuiesced))) ∧
  (∀ n, (s.tenant n).state = .quiescing → (s.tenantPairs n).all (fun q => decide ((s.queue q).inflight = 0)) = false → 
    exec (.tenantDrained n) s = .next (s)) ∧
  (∀ n, s.Sound → (s.tenant n).state = .removing → 
    ∃ t, exec (.tenantRemoveDone n) s = .next t ∧ t.tenant n = {} ∧ (∀ q ∈ (s.tenant n).tpt.pairs, t.queue q = {}) ∧ t.vault = s.vault ∧ t.jobs = s.jobs ∧ (∀ m, m ≠ n → t.tenant m = s.tenant m)) ∧
  (∀ p, (s.port p).pendingLink = none → 
    exec (.dmaFrameBoundary p) s = .next ((s.tenantList.filter fun n => decide ((s.tenant n).tpt.port = p)).foldl (fun t n => t.modTenant n fun x =>
      { x with tpt := x.target, later := none, slotsLive := (x.target.slotsWr, x.target.slotsRd) }) s)) ∧
  (∀ p w r, (s.port p).pendingLink = some (w, r) → s.Sound → 
    ∃ t, exec (.dmaFrameBoundary p) s = .next t ∧ t.tenants = ((s.tenantList.filter fun n => decide ((s.tenant n).tpt.port = p)).foldl (fun t n => t.modTenant n fun x =>
      { x with tpt := x.target, later := none, slotsLive := (x.target.slotsWr, x.target.slotsRd) }) s).tenants ∧ (t.port p).width = w ∧ (t.port p).rate = r ∧ (t.port p).pendingLink = none ∧ t.queues = s.queues ∧ t.jobs = s.jobs))

/-- A bed that has applied its target holds the staged programs at that epoch and serves, or begins again after a
further raise; with the last counted bed the epoch is settled. A wanted bed's gate opens, its PLL with it, and it
wakes when that is locked; an idle bed enters Dormant where it may. A known-answer test starts on an idle unit or
wakes its bed; a first failure takes the unit out for a repeat, a second one within 24 hours retires it. An aging
count 8 % below its fused value is reported. Reading the low half of a counter latches its high half. -/
def Obligations.BedsAndSelfTest : Prop :=
  ∀ s : State,
  (∀ b, (s.bed b).state = .applying → (s.bed b).target = s.glb.epoch → 
    ∃ t, exec (.bedApplyDone b) s = .next t ∧ (t.bed b).epoch = s.glb.epoch ∧ (t.bed b).applied = true ∧ (t.bed b).shelf = s.staged ∧ ((t.bed b).state = .awake ∨ (t.bed b).state = .entering) ∧ t.glb.epoch = s.glb.epoch ∧ t.grains = s.grains ∧ t.jobs = s.jobs ∧ t.vault = s.vault) ∧
  (∀ b, s.Sound → (s.bed b).state = .applying → (s.bed b).target = s.glb.epoch → (s.bed b).applied = true → (∀ m ∈ s.countedBeds, m ≠ b → (s.bed m).epoch = s.glb.epoch) → 
    ∃ t, exec (.bedApplyDone b) s = .next t ∧ t.glb.lastSettled = true) ∧
  (∀ b, (s.bed b).state = .applying → (s.bed b).target ≠ s.glb.epoch → s.bedRuns b = false → 
    ∃ t, exec (.bedApplyDone b) s = .next t ∧ (t.bed b).state = .applying ∧ (t.bed b).target = s.glb.epoch ∧ (t.bed b).epoch = (s.bed b).target) ∧
  (∀ b, (s.bed b).wakeWanted = true → s.power.topsoilUp = true → s.power.holdActive = false → (s.quad (b / 16)).failed = false → ((s.bed b).state = .off ∨ (s.bed b).state = .dormant) → b < 64 → (s.quad (b / 16)).pllRun = true → 
    exec (.bedGateOpen b) s = .next (s.modBed b fun y => { y with state := .waking, wakeWanted := false, wakes := satAdd 0xFFFFFFFF y.wakes 1, ucode := if y.state = .off then s.boot.ucodeVersion else y.ucode })) ∧
  (∀ b, (s.bed b).wakeWanted = true → s.power.topsoilUp = true → s.power.holdActive = false → (s.quad (b / 16)).failed = false → ((s.bed b).state = .off ∨ (s.bed b).state = .dormant) → b < 64 → (s.quad (b / 16)).pllRun = false → 
    exec (.bedGateOpen b) s = .next ((s.modBed b fun y => { y with state := .waking, wakeWanted := false, wakes := satAdd 0xFFFFFFFF y.wakes 1, ucode := if y.state = .off then s.boot.ucodeVersion else y.ucode }).modQuad (b / 16) fun y => { y with pllRun := true })) ∧
  (∀ b, (s.bed b).state = .waking → (s.quad (b / 16)).pllLocked = true → 
    exec (.bedWakeDone b) s = .next ((s.modBed b fun y => { y with state := .awake }).startApply b)) ∧
  (∀ b, s.tilth.bedIdleUs.isSome = true → s.maySleep b = true → 
    exec (.bedIdleTimeout b) s = .next (s.modBed b fun y => { y with state := .entering })) ∧
  (∀ b, (s.tilth.bedIdleUs = none ∨ s.maySleep b = false) → 
    exec (.bedIdleTimeout b) s = .next (s)) ∧
  (∀ b, (s.bed b).state = .entering → 
    exec (.bedDormantEntryDone b) s = .next ((s.modBed b fun y => { y with state := .dormant }).stopPll (b / 16))) ∧
  (∀ u, s.power.topsoilUp = true → s.power.phase = .gateOpen → s.power.holdActive = false → u < 1024 → s.grainPresent u = true → (s.bed (u / 16)).state = .awake → (s.grain u).state = .idle → (s.grain u).test = false → 
    exec (.katSchedule u) s = .next ((s.tick.beginTest u false).modGrain u fun G => { G with test := true })) ∧
  (∀ u, s.power.topsoilUp = true → s.power.phase = .gateOpen → s.power.holdActive = false → u < 1024 → s.grainPresent u = true → (s.bed (u / 16)).state = .dormant → s.tick.bedTestOld (u / 16) = true → 
    exec (.katSchedule u) s = .next (s.tick.modBed (u / 16) fun x => { x with wakeWanted := true })) ∧
  (∀ n, s.power.topsoilUp = true → s.power.phase = .gateOpen → s.power.holdActive = false → s.enginePresent n = true → (s.engine n).state = .idle → 
    exec (.katSchedule (1024 + n)) s = .next ((s.tick.beginTest (1024 + n) false).modEngine n fun e => { e with state := .test })) ∧
  (∀ u, s.underTest u = true → (s.obs.tests.get u {}).repeated = false → 
    exec (.katDone u true) s = .next ((s.tick.modObs fun o => { o with katRun := satAdd 0xFFFFFFFF o.katRun 1 }).endTest u)) ∧
  (∀ u, s.underTest u = true → (s.obs.tests.get u {}).repeated = true → 
    exec (.katDone u true) s = .next ((((s.tick.modObs fun o => { o with katRun := satAdd 0xFFFFFFFF o.katRun 1 }).endTest u).modObs fun o => { o with katFails := satAdd 0xFFFF o.katFails 1 }).logHealth 2 (healthUnit u))) ∧
  (∀ u, s.underTest u = true → ((s.obs.tests.get u {}).repeated = true ∨ s.tick.failedLately u = true) → 
    exec (.katDone u false) s = .next ((if u < 1024 then (s.tick.modObs fun o => { o with katRun := satAdd 0xFFFFFFFF o.katRun 1 }).event .obs 1 else ((s.tick.modObs fun o => { o with katRun := satAdd 0xFFFFFFFF o.katRun 1 }).event .obs 1).engineEvent (u - 1024) 4).retireUnit u)) ∧
  (∀ u, s.underTest u = true → (s.obs.tests.get u {}).repeated = false → s.tick.failedLately u = false → 
    exec (.katDone u false) s = .next ((if u < 1024 then (s.tick.modObs fun o => { o with katRun := satAdd 0xFFFFFFFF o.katRun 1 }).event .obs 1 else ((s.tick.modObs fun o => { o with katRun := satAdd 0xFFFFFFFF o.katRun 1 }).event .obs 1).engineEvent (u - 1024) 4).firstFailure u)) ∧
  (∀ counts i n, i < 5 → (counts : List Nat)[i]? = some n → 
    ∃ t, exec (.agingRead counts) s = .next t ∧ t.obs.ages.find? i = some (n % 65536) ∧ (100 * n ≤ 92 * Config.fusedAge i → t.obs.aged.testBit i = true) ∧ (s.obs.aged.testBit i = true → t.obs.aged.testBit i = true)) ∧
  (∀ p n m, s.seesCounters p n = true → m < 8 → 
    exec (.obsCounterLoRead p n m) s = .next (s.modObs fun o => { o with latched := o.latched.insert (latchKey p n m) ((o.counters.get n {}).nth m / 2 ^ 32) }))

/-- A destroyed slot is EMPTY in its owner's hands. A floor write moves the shelf record's floor by 1,024, a lowering
takes the lower value and is answered, and neither ends while MRAM writes are deferred. Every record of the shelf
whose check holds fills its slot with its budget at the floor, and one that fails is erased. A reservation raises NEXT
by 1,024 to at most the number of leaves; a key whose last tree is rebuilt is built. -/
def Obligations.KeyEvents : Prop :=
  ∀ s : State,
  (∀ k, (s.slot k).destroying = true → 
    exec (.slotDestroyDone k) s = .next ((s.modSlot k fun x => { state := .empty, owner := x.owner, system := x.system }).event .key 1)) ∧
  (∀ k, s.mramOk = true → (s.slot k).floorWrite = true → 
    exec (.budgetFloorWriteDone k) s = .next ((s.modRecord k fun r => { r with floor := r.floor - 1024 }).modSlot k fun y => { y with floorWrite := false })) ∧
  (∀ k b v rest, s.mramOk = true → (s.slot k).floorWrite = false → (s.slot k).lowering = (b, v) :: rest → 
    exec (.budgetFloorWriteDone k) s = .next (State.respond ((((s.modRecord k fun r => { r with floor := min r.floor (b - 1024) }).modSlot k fun y => { y with lowering := rest }).lowerBudget k b)) v Status.ok [])) ∧
  (∀ k, s.mramOk = false → 
    exec (.budgetFloorWriteDone k) s = .next (s)) ∧
  (∀ bad, s.vault.shelfLoading = true → 
    exec (.shelfRestoreDone bad) s = .next ((s.vault.shelf.foldl (fun t e => t.restoreRecord bad e.1 e.2) s).modVault fun v => { v with shelfLoading := false })) ∧
  (∀ bad k r, k ∉ bad → (s.restoreRecord bad k r).slot k = r.restore s.hzn.next) ∧
  (∀ bad k r, s.Sound → k ∈ bad → (s.restoreRecord bad k r).vault.shelf.find? k = none ∧ (s.restoreRecord bad k r).vault.slots = s.vault.slots) ∧
  (∀ k st, s.mramOk = true → (s.slot k).stateful = some st → st.reserving = true → 
    exec (.leafReservationDone k) s = .next ((s.modStateful k Stateful.reserve).modRecord k fun r => { r with stateful := r.stateful.map fun x => { x with next := min st.total (st.next + 1024) } })) ∧
  (∀ k, 
    exec (.leafHandoutInterval k) s = .next (s.modStateful k fun x => { x with interval := false })) ∧
  (∀ k st, (s.slot k).stateful = some st → st.restoring ≠ 0 → 
    ∃ t, exec (.treeRestorationJob k) s = .next t ∧ (t.slot k).stateful = some { st with restoring := st.restoring - 1, built := decide (st.restoring = 1) } ∧ t.jobs = s.jobs ∧ t.vault.shelf = s.vault.shelf)

/-- A block of a calibrated source that passes both health tests goes into a pair; one that fails is counted, and the
eighth in a row retires the source. SHA3-256 of a pair joins the queue and the first seed makes the generator READY;
without one in time it is FAILED. With 16 seeds a port's DRBG is instantiated from two, or failed by its test. A
request that is ready hands over its output and COUNT moves; a reseed follows where it is due. Random operations
reserve their requests, or end with RNG_NOT_READY. Captures run in TEST_UNLOCKED only. -/
def Obligations.RandomNumbers : Prop :=
  ∀ s : State,
  (∀ k raw, s.rng.working.contains k = true → (s.rng.source k).calibrated = true → blockPasses ((s.rng.source k).samples raw).1 = true → 
    exec (.noiseBlockDone k raw) s = .next ((s.modSource k fun y => { y with lfsr := ((s.rng.source k).samples raw).2 }).blockPassed k ((s.rng.source k).samples raw).1)) ∧
  (∀ k raw, s.rng.working.contains k = true → (s.rng.source k).calibrated = true → blockPasses ((s.rng.source k).samples raw).1 = false → 
    exec (.noiseBlockDone k raw) s = .next ((s.modSource k fun y => { y with lfsr := ((s.rng.source k).samples raw).2 }).blockFailed k)) ∧
  (∀ k, (s.rng.source k).consec < 7 → s.blockFailed k =
    s.modSource k fun y => { y with consec := min 8 (y.consec + 1), hfail := satAdd 0xFFFFFFFF y.hfail 1 }) ∧
  (∀ k, (s.rng.source k).role = .active → 7 ≤ (s.rng.source k).consec → ((s.blockFailed k).rng.source k).role = .retired) ∧
  (∀ k, (s.rng.source k).role = .warming → 
    exec (.sourceCalibrationDone k) s = .next (s.modSource k fun y => { y with calibrated := true })) ∧
  (∀ k pair rest, s.rng.state ≠ .failed → s.rng.queue.length < 64 → s.rng.nextPair = some k → (s.rng.source k).pairs = pair :: rest → 
    exec (.conditionerSeedOut) s = .next (((s.modSource k fun y => { y with pairs := rest }).modRng fun r => { r with turn := (k + 1) % 20, queue := r.queue ++ [sha3_256 (leBytes 256 pair.toNat)], seeds := r.seeds + 1, instantiated := r.instantiated || decide (15 ≤ r.queue.length) }).rngFirst.serve)) ∧
  (s.rng.firstSeed = false → s.rng.state ≠ .failed → 
    exec (.rngFirstSeedTimeout) s = .next ((s.modRng fun r => { r with state := .failed }).event .rng 4)) ∧
  (s.rng.firstSeed = true → 
    exec (.rngFirstSeedTimeout) s = .next (s)) ∧
  (∀ p, s.rng.state = .ready → s.rng.instantiated = true → 8 ≤ s.rng.queue.length → s.boot.tilth ≠ none → p < s.portCount → (s.drbg p).state = .uninstantiated → 
    exec (.drbgInstantiate p false) s = .next ((s.modDrbg p fun d => { d with state := .failed }).event .rng 8)) ∧
  (∀ p, s.rng.state = .ready → s.rng.instantiated = true → 8 ≤ s.rng.queue.length → s.boot.tilth ≠ none → p < s.portCount → (s.drbg p).state = .uninstantiated → 
    exec (.drbgInstantiate p true) s = .next ((s.modRng fun r => { r with queue := r.queue.drop 2 }).modDrbg p fun d => { requests := d.requests, waiting := d.waiting, state := .ready, key := (drbgInstantiate (s.rng.queue.take 2).flatten (drbgPers s.uid p)).1, v := (drbgInstantiate (s.rng.queue.take 2).flatten (drbgPers s.uid p)).2 })) ∧
  (∀ p r rest j, (s.drbg p).requests = r :: rest → (s.drbg p).ready r = true → r.user = .job j → 
    exec (.drbgGenerateDone p) s = .next (State.askForDrbg (((s.modDrbg p fun y => { y with requests := rest, key := (drbgGenerate r.bytes r.input ((s.drbg p).key, (s.drbg p).v)).2.1, v := (drbgGenerate r.bytes r.input ((s.drbg p).key, (s.drbg p).v)).2.2, count := y.count + 1 }).randomPart j (drbgGenerate r.bytes r.input ((s.drbg p).key, (s.drbg p).v)).1).modDrbg p fun y => (y.acceptAll y.waiting.length).advance) p)) ∧
  (∀ p r rest, (s.drbg p).requests = r :: rest → (s.drbg p).ready r = true → r.user = .discard → 
    exec (.drbgGenerateDone p) s = .next (State.askForDrbg ((s.modDrbg p fun y => { y with requests := rest, key := (drbgGenerate r.bytes r.input ((s.drbg p).key, (s.drbg p).v)).2.1, v := (drbgGenerate r.bytes r.input ((s.drbg p).key, (s.drbg p).v)).2.2, count := y.count + 1 }).modDrbg p fun y => (y.acceptAll y.waiting.length).advance) p)) ∧
  (∀ p r rest k, (s.drbg p).requests = r :: rest → (s.drbg p).ready r = true → r.user = .buffer k → 
    exec (.keyPortBufferRefill k p) s = .next (State.askForDrbg (((s.modDrbg p fun y => { y with requests := rest, key := (drbgGenerate r.bytes r.input ((s.drbg p).key, (s.drbg p).v)).2.1, v := (drbgGenerate r.bytes r.input ((s.drbg p).key, (s.drbg p).v)).2.2, count := y.count + 1 }).refill k p (drbgGenerate r.bytes r.input ((s.drbg p).key, (s.drbg p).v)).1).modDrbg p fun y => (y.acceptAll y.waiting.length).advance) p)) ∧
  (∀ p, (s.drbg p).reseeding = true → 
    exec (.drbgReseedDone p) s = .next ((s.modDrbg p fun d => d.reseed.advance).askForDrbg p)) ∧
  (∀ k, s.life.state = .testUnlocked → k ≤ 19 → s.rng.capturing = none → 
    exec (.rngCaptureStart k) s = .next (s.modRng fun r => { r with capturing := some k, test := BitVec.ofNat 32 (bits r.test.toNat 19 0 + k * 2 ^ 24 + 2 ^ 29) })) ∧
  (∀ k, s.life.state ≠ .testUnlocked → 
    exec (.rngCaptureStart k) s = .next (s)) ∧
  (∀ k samples, s.rng.capturing = some k → 
    exec (.rngCaptureDone samples) s = .next (s.modRng fun r => { r with capturing := none, test := BitVec.ofNat 32 (bits r.test.toNat 28 0), capture := (padTo 4096 samples).zipIdx.foldl (fun m b => m.set b.2 b.1 0) [] })) ∧
  (∀ j job o, s.job j = some job → s.kindOf job = .random false → job.stage = .execute → job.rngWait = false → s.pairOwner job.pair = some o → s.rng.state = .ready → (s.drbg o.port).state ≠ .uninstantiated → (s.drbg o.port).state ≠ .failed → 
    exec (.randomBytes j) s = .next (State.askForDrbg ((s.modJob j fun x => { x with rngWait := true, outWritten := 0 }).reserveDrbg o.port (randomRequests j job.desc.outLen job.input false)) o.port)) ∧
  (∀ j job o, s.job j = some job → s.kindOf job = .random false → job.stage = .execute → job.rngWait = false → s.pairOwner job.pair = some o → (s.rng.state ≠ .ready ∨ (s.drbg o.port).state = .uninstantiated ∨ (s.drbg o.port).state = .failed) → 
    exec (.randomBytes j) s = .next (s.endDirect j Status.rngNotReady [])) ∧
  (∀ j job o, s.job j = some job → s.kindOf job = .random true → job.stage = .execute → job.rngWait = false → s.pairOwner job.pair = some o → s.rng.state = .ready → (s.drbg o.port).state ≠ .uninstantiated → (s.drbg o.port).state ≠ .failed → 
    exec (.randomBytesPr j) s = .next (State.askForDrbg (((s.modJob j fun x => { x with rngWait := true, outWritten := 0 }).reserveDrbg o.port (randomRequests j job.desc.outLen job.input true)).requestSeed (.predict o.port)) o.port)) ∧
  (∀ j job o, s.job j = some job → s.kindOf job = .random true → job.stage = .execute → job.rngWait = false → s.pairOwner job.pair = some o → (s.rng.state ≠ .ready ∨ (s.drbg o.port).state = .uninstantiated ∨ (s.drbg o.port).state = .failed) → 
    exec (.randomBytesPr j) s = .next (s.endDirect j Status.rngNotReady [])) ∧
  (∀ j job, s.job j = some job → s.kindOf job = .entropy → job.stage = .execute → job.rngWait = false → s.rng.state = .ready → 
    exec (.conditionedEntropy j) s = .next ((s.modJob j fun x => { x with rngWait := true }).requestSeed (.entropy j))) ∧
  (∀ j job, s.job j = some job → s.kindOf job = .entropy → job.stage = .execute → job.rngWait = false → s.rng.state ≠ .ready → 
    exec (.conditionedEntropy j) s = .next (s.endDirect j Status.rngNotReady []))

/-- A write to DIG_CTL begins a message that is fed or armed for DMA; a bad configuration or a key that is absent,
denied or spent ends it with its error, and a slot's key is charged and latched. Feeding absorbs the bytes, out of
sequence it is an error; the length and the address start the read. The result is the algorithm's output over the
message, or 1 or 2 for a compare; the key is zeroed with it, and after an error output and result read 0. -/
def Obligations.DigestEngines : Prop :=
  ∀ s : State,
  (∀ r e value, s.live r = true → s.heldPair r = none → s.digOwned r e = true → ({ s.digest e with ctl := value.toNat &&& 0x00FF017F } : Digest).configOk = true → ({ s.digest e with ctl := value.toNat &&& 0x00FF017F } : Digest).keySrc = false → 
    ∃ t, exec (.digCtlWrite r e value) s = .next t ∧ (t.digest e).state = (if ({ s.digest e with ctl := value.toNat &&& 0x00FF017F } : Digest).dmaFed then .armed else .feed) ∧ (t.digest e).message = [] ∧ (t.digest e).out = [] ∧ (t.digest e).error = .none ∧ t.vault = s.vault ∧ t.jobs = s.jobs ∧ (∀ m, m ≠ e → t.digest m = s.digest m)) ∧
  (∀ r e value, s.live r = true → s.heldPair r = none → s.digOwned r e = true → ({ s.digest e with ctl := value.toNat &&& 0x00FF017F } : Digest).configOk = true → ({ s.digest e with ctl := value.toNat &&& 0x00FF017F } : Digest).keySrc = true → s.digKey e ({ s.digest e with ctl := value.toNat &&& 0x00FF017F } : Digest) = .none → 
    ∃ t, exec (.digCtlWrite r e value) s = .next t ∧ (t.digest e).state = (if ({ s.digest e with ctl := value.toNat &&& 0x00FF017F } : Digest).dmaFed then .armed else .feed) ∧ (t.digest e).slot = some (bits (s.digest e).param 11 0) ∧ (t.digest e).key = (s.slot (bits (s.digest e).param 11 0)).secret ∧ t.vault = (s.charge (bits (s.digest e).param 11 0)).vault ∧ t.jobs = s.jobs) ∧
  (∀ r e value err, s.live r = true → s.heldPair r = none → s.digOwned r e = true → ({ s.digest e with ctl := value.toNat &&& 0x00FF017F } : Digest).configOk = true → ({ s.digest e with ctl := value.toNat &&& 0x00FF017F } : Digest).keySrc = true → s.digKey e ({ s.digest e with ctl := value.toNat &&& 0x00FF017F } : Digest) = err → err ≠ .none → 
    ∃ t, exec (.digCtlWrite r e value) s = .next t ∧ (t.digest e).state = .error ∧ (t.digest e).error = err ∧ (t.digest e).key = [] ∧ t.vault = s.vault) ∧
  (∀ r e value, s.live r = true → s.heldPair r = none → s.digOwned r e = true → ({ s.digest e with ctl := value.toNat &&& 0x00FF017F } : Digest).configOk = false → 
    ∃ t, exec (.digCtlWrite r e value) s = .next t ∧ (t.digest e).state = .error ∧ (t.digest e).error = .config ∧ (t.digest e).key = [] ∧ t.vault = s.vault) ∧
  (∀ r e value, s.live r = true → s.heldPair r = none → s.digOwned r e = true → (s.digest e).state = .feed → (s.digest e).message.length + (leBytes 4 (s.digest e).dataLo ++ leBytes 4 value.toNat).length ≤ 2 ^ 61 - 1 → 
    exec (.digDataWrite r e value) s = .next (s.modDigest e fun x => { x with message := x.message ++ (leBytes 4 (s.digest e).dataLo ++ leBytes 4 value.toNat), state := .feed })) ∧
  (∀ r e value, s.live r = true → s.heldPair r = none → s.digOwned r e = true → (s.digest e).state = .feed → (s.digest e).message.length + ((leBytes 4 (s.digest e).lastLo ++ leBytes 4 value.toNat).take (s.digest e).lcnt).length ≤ 2 ^ 61 - 1 → 
    exec (.digLastWrite r e value) s = .next (s.modDigest e fun x => { x with message := x.message ++ ((leBytes 4 (s.digest e).lastLo ++ leBytes 4 value.toNat).take (s.digest e).lcnt), state := .final })) ∧
  (∀ r e value, s.live r = true → s.heldPair r = none → s.digOwned r e = true → (s.digest e).state ≠ .feed → (s.digest e).state ≠ .final → 
    exec (.digDataWrite r e value) s = .next (s.digError e .sequence)) ∧
  (∀ r e value, s.live r = true → s.heldPair r = none → s.digOwned r e = true → (s.digest e).state ≠ .feed → (s.digest e).state ≠ .final → 
    exec (.digLastWrite r e value) s = .next (s.digError e .sequence)) ∧
  (∀ r e value, s.live r = true → s.heldPair r = none → s.digOwned r e = true → (s.digest e).state = .armed → 
    exec (.digLenWrite r e value) s = .next (s.modDigest e fun d => { d with len := value.toNat, lenSet := true, state := if value.toNat = 0 then .final else .armed })) ∧
  (∀ r e value, s.live r = true → s.heldPair r = none → s.digOwned r e = true → (s.digest e).state = .armed → (s.digest e).lenSet = true → value.toNat * 2 ^ 32 + (s.digest e).addrLo + (s.digest e).len ≤ 2 ^ 64 → 
    exec (.digAddrHiWrite r e value) s = .next (s.modDigest e fun x => { x with addrHi := value.toNat, state := .dma })) ∧
  (∀ r e value, s.live r = true → s.heldPair r = none → s.digOwned r e = true → (s.digest e).state = .armed → (s.digest e).lenSet = true → 2 ^ 64 < value.toNat * 2 ^ 32 + (s.digest e).addrLo + (s.digest e).len → 
    exec (.digAddrHiWrite r e value) s = .next ((s.modDigest e fun x => { x with addrHi := value.toNat }).digError e .length)) ∧
  (∀ e b, (s.digest e).state = .dma → (s.digest e).paused = false → 
    exec (.digDmaDone e (some b)) s = .next (s.modDigest e fun x => { x with message := padTo x.len b, state := .final })) ∧
  (∀ e, (s.digest e).state = .dma → (s.digest e).paused = false → 
    exec (.digDmaDone e none) s = .next (s.digError e .dmaError)) ∧
  (∀ e, (s.digest e).state = .final → (s.digest e).paused = false → (e < 16 ∨ digKeyed (s.digest e).alg = false ∨ s.rng.firstSeed = true) → 
    ∃ t, exec (.digResultReady e) s = .next t ∧ (t.digest e).state = .done ∧ (t.digest e).key = [] ∧ (t.digest e).message = [] ∧ ((s.digest e).cmp = false → (t.digest e).out = (s.digest e).compute ∧ (t.digest e).result = 0) ∧ ((s.digest e).cmp = true → (t.digest e).out = [] ∧ (t.digest e).result = (if (s.digest e).compute = (s.digest e).expect.take (s.digest e).outLen then 1 else 2)) ∧ t.vault = s.vault ∧ t.jobs = s.jobs) ∧
  (∀ e err, let t := s.digError e err
    (t.digest e).state = .error ∧ (t.digest e).error = err ∧ (t.digest e).out = [] ∧ (t.digest e).key = [] ∧ (t.digest e).message = [])

/-- For every command that carries a manager's request: a dead transport takes nothing; while the Secure Executive
runs, a request outside an established manager session is OPCODE_DENIED, but for host images and approvals over Uncel;
with the log full it is LOG_FULL, but for the requests of R440; a ceremonial one opens a ceremony, is logged and
answered with the ceremony's number, and has no effect yet; the factory and lock services deny every request, and the
fallow service all but the image requests. -/
def Obligations.RequestAdmission : Prop :=
  ∀ (s : State) (c : Instr) (v : Via) (r : MgrReq), requestOf c = some (v, r) →
  (s.viaLive v = false → exec c s = .next s) ∧
  (s.viaLive v = true → s.power.phase = .gateOpen →
    (s.mayRequest v r = false → exec c s = .next ((s.markStarted v).respond v Status.opcodeDenied [])) ∧
    (s.mayRequest v r = true → s.glb.logFull = true → reqOfLog r = false →
      exec c s = .next ((s.markStarted v).respond v Status.logFull [])) ∧
    (s.mayRequest v r = true → s.glb.logFull = false → s.ceremonial r = true → s.uncel.ceremony = none → s.power.resetDue = 0 →
      reqOfLog r = false → ∃ t, exec c s = .next t ∧ t.uncel.ceremonies = s.uncel.ceremonies + 1 ∧
        (t.uncel.ceremony).map (fun x => (x.id, x.request, x.officers)) = some (s.uncel.ceremonies % 65536, r, []) ∧
        t.tenants = s.tenants ∧ t.boot = s.boot ∧ t.pgd = s.pgd)) ∧
  (s.viaLive v = true → (s.power.phase = .factory ∨ s.power.phase = .lockService ∨ s.power.phase = .fallow ∧ reqOfImage r = false) →
    exec c s = .next (s.respond v Status.opcodeDenied []))

/-- In an established manager session every request of the tables has its effect and its answer: tenants are set,
quiesced, resumed, exported and imported, slots assigned, budgets lowered, images installed and activated, the sieve
set, the platform cycled, host images delivered, life-cycle requests staged, the log read, checkpointed and
acknowledged, wall time set, keys reported, domain secrets made and joined, an epoch raised and flooded, ceremonies
approved, and registers armed for the PF that asked (which ends an arming of LCS_REQ and its staged request), or their
pair formed at once. A request that its rule refuses changes nothing under its status. -/
def Obligations.ManagerRequests : Prop :=
  ∀ (s : State) (v : Via),
  (∀ n f, Requested s v (.tenantSet n f) (.tenantSet v n f)
    (fun t => (t.tenant n).state = .free ∧ t.takesBusy n f = false ∧ t.tptOk n f = true)
    (fun t => (((t.modTenant n fun _ => { state := .active, tpt := f }).moveUnits {} f).noteGrains t {} f, .ok))) ∧
  (∀ n f, Requested s v (.tenantSet n f) (.tenantSet v n f)
    (fun t => ((t.tenant n).state = .removing ∨ t.takesBusy n f = true))
    (fun t => (t, .no Status.tenantBusy))) ∧
  (∀ n f, Requested s v (.tenantSet n f) (.tenantSet v n f)
    (fun t => (t.tenant n).state ≠ .removing ∧ t.takesBusy n f = false ∧ t.tptOk n f = false)
    (fun t => (t, .no Status.inputInvalid))) ∧
  (∀ n, Requested s v (.quiesce n) (.quiesce v n)
    (fun t => (t.tenant n).state = .active)
    (fun t =>
      let u := (t.breakTdisp n).modTenant n fun x => { x with state := .quiescing, quiescers := [v] };
      ((u.jobsWhere fun x => decide (x.tenant = n ∧ x.stage = Stage.admitted)).foldl (fun u j => u.complete j Status.tenantQuiesced true) u, .later))) ∧
  (∀ n, Requested s v (.quiesce n) (.quiesce v n)
    (fun t => (t.tenant n).state = .quiesced)
    (fun t => (t, .ok))) ∧
  (∀ n, Requested s v (.resume n) (.resume v n)
    (fun t => (t.tenant n).state = .quiesced)
    (fun t => ((((t.breakTdisp n).tenantPairs n).foldl (fun u q =>
      u.modQueue q fun y => { y with state := if y.state = .quiesced then .enabled else y.state }) (t.breakTdisp n)).modTenant n
      fun x => { x with state := .active }, .ok))) ∧
  (∀ n, Requested s v (.resume n) (.resume v n)
    (fun t => (t.tenant n).state ≠ .quiesced)
    (fun t => (t, .no Status.inputInvalid))) ∧
  (∀ n value, Requested s v (.removeArm n value) (.removeArm v n value)
    (fun t => (t.tenant n).state = .quiesced ∧ t.tgen n ≠ 0xFFFFFFFF)
    (fun t => t.arm v gdRemove value removePair)) ∧
  (∀ n a len key, Requested s v (.migrateExport n a len true) (.migrateExport v n a len true)
    (fun t => (t.tenant n).state = .quiesced ∧ (t.tenant n).exported = false ∧ t.migrationKey t.uncel.gen = some key ∧ (t.exportBlob n key).length ≤ len)
    (fun t =>
      let u := (t.exportSlots n).foldl (fun u k => u.destroySlot k 7)
        ((t.breakTdisp n).spend.dmaWrite (t.tenant n).tpt.port 0 a (t.exportBlob n key) true);
      ((u.modVault fun x => { x with ctxs := x.ctxs.filter fun (c, _) => !(t.exportCtxs n).contains c }).modTenant n
        fun y => { y with exported := true }, .ok))) ∧
  (∀ n blob x, Requested s v (.migrateImport n blob) (.migrateImport v n blob)
    (fun t => (t.tenant n).state = .quiesced ∧ t.readMigration blob = some x ∧ field blob 0xC 4 ≤ t.glb.epoch ∧ t.importFits n x = true)
    (fun t => ((x.ctxs.foldl (fun u r => u.modCtx (nth r.1 0) fun _ => ctxOf n r)
        (x.slots.foldl (fun u r => u.importSlot n r)
          (x.pairs.foldl (fun u r => u.modQueue ((t.tenant n).tpt.qpBase + nth r 0) fun _ => queueOf r) (t.breakTdisp n)))).modTenant n
        fun y => { y with exported := false }, .ok))) ∧
  (∀ n blob, Requested s v (.migrateImport n blob) (.migrateImport v n blob)
    (fun t => (t.tenant n).state = .quiesced ∧ t.readMigration blob = none)
    (fun t => (t, .no Status.blobInvalid))) ∧
  (∀ k o, Requested s v (.slotAssign k o true) (.slotAssign v k o true)
    (fun t => k < 4096 ∧ o < 1024 ∧ (t.slot k).state.unused = true)
    (fun t => ((t.modSlot k fun _ => { state := .empty, owner := 0, system := true }).modVault fun x => { x with owned := x.owned.insert k (0, true) }, .ok))) ∧
  (∀ k o, Requested s v (.slotAssign k o false) (.slotAssign v k o false)
    (fun t => k < 4096 ∧ o < 1024 ∧ (t.slot k).state.unused = true ∧ (t.owns o k = true ∨ t.slotCount o < (t.tenant o).tpt.slotQuota))
    (fun t => ((t.modSlot k fun _ => { state := .empty, owner := o, system := false }).modVault fun x => { x with owned := x.owned.insert k (o, false) }, .ok))) ∧
  (∀ k b, Requested s v (.budgetLower k b) (.budgetLower v k b)
    (fun t => (t.slot k).state.unused = false ∧ b ≤ (t.slot k).budget ∧ (t.vault.shelf.find? k).isSome = false)
    (fun t => (t.lowerBudget k b, .ok))) ∧
  (∀ k b, Requested s v (.budgetLower k b) (.budgetLower v k b)
    (fun t => (t.slot k).state.unused = false ∧ b ≤ (t.slot k).budget ∧ (t.vault.shelf.find? k).isSome = true ∧ b ≠ unlimited)
    (fun t => (t.modSlot k fun y => { y with lowering := y.lowering ++ [(b, v)] }, .later))) ∧
  (∀ k value, Requested s v (.destroyArm k value) (.destroyArm v k value)
    (fun t => (t.slot k).state ≠ .unassigned)
    (fun t => t.arm v gdDestroy value destroyPair)) ∧
  (∀ g len, Requested s v (.imageBegin g len) (.imageBegin v g len)
    (fun t => g ≤ 3 ∧ (g < 3 → g ≠ t.boot.running) ∧ len ≤ regionRoom (t.targetRegion g) ∧ t.boot.install = none ∧ (g < 3 → t.slotSigned (t.targetRegion g) = true → ([0, 1, 2].any fun k => decide (k ≠ t.targetRegion g) && t.slotSigned k) = true))
    (fun t => ((t.modRegion (t.targetRegion g) fun r => { r with page := { r.page with state := .writing } }).modBoot fun b => { b with install := some ⟨g, len⟩ }, .ok))) ∧
  (∀ x off bytes, Requested s v (.imageData off bytes) (.imageData v off bytes)
    (fun t => t.boot.install = some x ∧ bytes.length ≠ 0 ∧ bytes.length ≤ 1024 ∧ off + bytes.length ≤ x.len)
    (fun t => (t.modRegion (t.targetRegion x.target) fun r => r.write off bytes, .ok))) ∧
  (∀ x, Requested s v (.imageCommit) (.imageCommit v)
    (fun t => t.boot.install = some x ∧ t.commitVerdict (t.targetRegion x.target) x.len ≠ Status.ok)
    (fun t => (t, .no (t.commitVerdict (t.targetRegion x.target) x.len)))) ∧
  (∀ x h, Requested s v (.imageCommit) (.imageCommit v)
    (fun t => t.boot.install = some x ∧ t.commitVerdict (t.targetRegion x.target) x.len = Status.ok ∧ (t.region (t.targetRegion x.target)).header (t.targetRegion x.target) = some h)
    (fun t =>
      let i := t.targetRegion x.target
      let svn := if isTilth i then 0 else h.svn;
      ((((t.tick.modRegion i fun r => { r with page := {
          state := .sealedPage, signer := h.signer, svn := svn, sealedLen := x.len,
          installs := satAdd 0xFFFFFFFF (t.region i).page.installs 1,
          sealVal := t.tick.sealOf i h.signer svn ((t.region i).read 0 x.len), installTime := t.tick.rtc } }).modBoot fun b =>
        { b with install := none, ownerTilth := b.ownerTilth || (isTilth i && decide (4 ≤ h.signer)) }).event .boot 2), .ok))) ∧
  (∀ p r, Requested s v (.imageActivate p r) (.imageActivate v p r)
    (fun t => p ≤ 1 ∧ (t.region p).page.state = .sealedPage ∧ (r = true → (t.region 2).page.state = .sealedPage ∧ t.slotSvn p ≤ t.slotSvn 2))
    (fun t => (t.modBoot fun b => { b with primary := p, svnRaise := b.svnRaise || r }, .ok))) ∧
  (∀ k value, Requested s v (.revokeArm k value) (.revokeArm v k value)
    (fun t => k ≤ 7 ∧ t.keyLive k = true)
    (fun t => t.arm v gdRevoke value revokePair)) ∧
  (∀ c code entry, Requested s v (.sieveSet (.opcode c code entry)) (.sieveSet v (.opcode c code entry))
    (fun t => c ≤ 1 ∧ code ≤ 255 ∧ opEntryOk entry = true)
    (fun t => (t.modPgd fun g => { g with ops := g.ops.insert (256 * c + code) entry }, .ok))) ∧
  (∀ r base len ctl, Requested s v (.sieveSet (.rule r base len ctl)) (.sieveSet v (.rule r base len ctl))
    (fun t => r ≤ 255 ∧ (Config.ruleFields ctl.toNat).2.2 = true ∧ (Config.ruleFields ctl.toNat).2.1.contains 3 = false)
    (fun t => (t.modPgd fun g => { g with rules := g.rules.insert r ⟨base.toNat, len.toNat, ctl.toNat⟩ }, .ok))) ∧
  (∀ off value, Requested s v (.pgdArm off value) (.pgdArm v off value)
    (fun t => off ∈ [gdHoldRel, gdSieveEn, gdUpdWin])
    (fun t => t.arm v off value pgdPair)) ∧
  (Requested s v (.platformCycle) (.platformCycle v)
    (fun t => (t.chan 0).state ≠ .recovering ∧ (t.chan 1).state ≠ .recovering)
    (fun t => (t.assertPlanned.prepareChannels 4, .ok))) ∧
  (Requested s v (.platformCycle) (.platformCycle v)
    (fun t => ((t.chan 0).state = .recovering ∨ (t.chan 1).state = .recovering))
    (fun t => (t, .no Status.inputInvalid))) ∧
  (∀ c g len, Requested s v (.hostImageBegin c g len) (.hostImageBegin v c g len)
    (fun t => c ≤ 1 ∧ g ≤ 2 ∧ (t.chan c).serving ≠ some g ∧ (t.plan c).blocks ≠ 0 ∧ len ≤ (t.plan c).room g ∧ t.pgd.delivery = none)
    (fun t => (t.modPgd fun x => { x with delivery := some { channel := c, target := g, len := len } }, .ok))) ∧
  (∀ d off bytes, Requested s v (.hostImageData off bytes) (.hostImageData v off bytes)
    (fun t => t.pgd.delivery = some d ∧ bytes.length ≠ 0 ∧ bytes.length ≤ 1024 ∧ off + bytes.length ≤ d.len)
    (fun t => ((t.modPgd fun g => { g with delivery := some { d with bytes := (bytes.zipIdx off).foldl (fun m x => m.set x.2 x.1 0) d.bytes } }).emit (.hostImage d.channel d.target off bytes), .ok))) ∧
  (∀ d, Requested s v (.hostImageCommit) (.hostImageCommit v)
    (fun t => t.pgd.delivery = some d ∧ (let b := (List.range d.len).map fun i => d.bytes.get i 0
      let n := field b 0x10 4 + field b 0x14 4
      t.manifestFormat d.channel (b.take n) = true ∧ d.len = n + 4096 * (t.plan d.channel).blocks ∧ t.manifestOk (b.take n) = true ∧
      imageMatches (manifestDigests (b.take n)) (b.drop n) = true) ∧ (t.chan d.channel).state = .waiting)
    (fun t =>
      let b := (List.range d.len).map fun i => d.bytes.get i 0
      let n := field b 0x10 4 + field b 0x14 4;
      (((t.modPgd fun g => { g with delivery := none }).modChan d.channel fun x => { x with raw := b.take n }).serveImage d.channel d.target
        (manifestDigests (b.take n)) (b.drop n), .ok))) ∧
  (∀ d, Requested s v (.hostImageCommit) (.hostImageCommit v)
    (fun t => t.pgd.delivery = some d ∧ (let b := (List.range d.len).map fun i => d.bytes.get i 0
      let n := field b 0x10 4 + field b 0x14 4
      t.manifestFormat d.channel (b.take n) = true ∧ d.len = n + 4096 * (t.plan d.channel).blocks ∧ t.manifestOk (b.take n) = true ∧
      imageMatches (manifestDigests (b.take n)) (b.drop n) = true) ∧ (t.chan d.channel).state = .recovering)
    (fun t => ((t.modPgd fun g => { g with delivery := none }).modChan d.channel fun x => { x with left := x.left ++ [d.target] }, .ok))) ∧
  (∀ b, Requested s v (.lcStage b) (.lcStage v b)
    (fun t => t.lcVerdict b = Status.ok)
    (fun t => (t.modLife fun l => { l with staged := some b }).arm v gdLcsReq (BitVec.ofNat 32 (field b 0x0C 4)) lcsPair)) ∧
  (∀ b, Requested s v (.lcStage b) (.lcStage v b)
    (fun t => t.lcVerdict b ≠ Status.ok)
    (fun t => (t, .no (t.lcVerdict b)))) ∧
  (∀ k value, Requested s v (.tamperArm (gdTamper k) value) (.tamperArm v (gdTamper k) value)
    (fun t => k < 16)
    (fun t => t.arm v (gdTamper k) value tamperPair)) ∧
  (∀ n e, Requested s v (.checkpoint n) (.checkpoint v n)
    (fun t => t.hzn.entries.find? n = some e ∧ t.hzn.belowFloor n = false ∧ t.vault.aliasKey = true)
    (fun t =>
      let cp := t.checkpointBody n e ++ t.freeBytes aliasSignatureLen;
      (t.spend.modHzn fun h => { h with issued := ((n, sha3_256 cp) :: h.issued).take 4 }, .now Status.ok cp))) ∧
  (∀ n digest, Requested s v (.checkpointAck n digest) (.checkpointAck v n digest)
    (fun t => t.hzn.issued.contains (n, digest) = true ∧ t.hzn.belowFloor n = false)
    (fun t => (((t.modHzn fun h => { h with floor := some n }).logRoom).logLost.log 0x7003 (leBytes 8 n), .ok))) ∧
  (∀ n digest, Requested s v (.checkpointAck n digest) (.checkpointAck v n digest)
    (fun t => t.hzn.issued.contains (n, digest) = false)
    (fun t => (t, .no Status.inputInvalid))) ∧
  (∀ o, Requested s v (.timeSet o) (.timeSet v o)
    (fun t => True)
    (fun t => ((t.modHzn fun h => { h with offset := o }).log 0x7002 (leBytes 8 o.toNat), .ok))) ∧
  (∀ n m, Requested s v (.logRead n m) (.logRead v n m)
    (fun t => 1 ≤ m ∧ m ≤ 64 ∧ (∀ i, i < m → t.hzn.inRing (n + i) = true))
    (fun t => (t, .now Status.ok ((List.range m).flatMap fun i => ((t.hzn.entries.find? (n + i)).map fun e => e.bytes (n + i)).getD [])))) ∧
  (∀ n m, Requested s v (.keyUsage n m) (.keyUsage v n m)
    (fun t => 1 ≤ m ∧ m ≤ 256 ∧ n + m ≤ 4096 ∧ t.vault.aliasKey = true)
    (fun t => (t.spend.spend.log 0x2003 (leBytes 2 5 ++ t.spend.freeBytes 14),
      .now Status.ok (ascii "IXKU" ++ Config.usageReport ((List.range m).map fun i => t.usageLine (n + i)) ++ t.freeBytes aliasSignatureLen)))) ∧
  (∀ a, Requested s v (.uncMkeyNew) (.uncMkeyNew v)
    (fun t => t.domainSlots = true ∧ t.uncel.addr = some a)
    (fun t =>
      let x := t.takeSeed
      let y := x.1.takeSeed;
      ((y.1.newGeneration (t.heldGen + 1) (x.2 ++ y.2)).originate dstDomain 0x30 (leBytes 4 (t.heldGen + 1) ++ leBytes 2 a), .ok))) ∧
  (∀ l, Requested s v (.uncMkeyJoin l true) (.uncMkeyJoin v l true)
    (fun t => t.domainSlots = true ∧ t.uncel.addr.isSome = true)
    (fun t => (t.spend.startJoin l (t.heldGen + 1 + Config.freeNat t.free 0 % (2 ^ 32 - 1 - t.heldGen)), .ok))) ∧
  (∀ l r, Requested s v (.uncMkeyJoin l r) (.uncMkeyJoin v l r)
    (fun t => t.domainSlots = false)
    (fun t => (t, .no Status.keyAbsent))) ∧
  (∀ n, Requested s v (.uncEpoch n) (.uncEpoch v n)
    (fun t => t.glb.epoch < n ∧ n < 2 ^ 32 ∧ t.glb.logFull = false)
    (fun t => (((((t.raiseEpoch n).1.logPair gdEpoch GuardResult.applied.code 0xFF).modUncel fun u =>
        { u with epTarget := n, epDone := 0, epRefused := 0 }).originateAuth dstDomain 0x20 (leBytes 4 n)), .ok))) ∧
  (∀ i g o sig, Requested s v (.ceremonyApprove i g o sig) (.ceremonyApprove v i g o sig)
    (fun t => g ≠ t.ownAddr)
    (fun t => (t.emit (.approval g i o sig), .ok))) ∧
  (∀ i g o sig x key, Requested s v (.ceremonyApprove i g o sig) (.ceremonyApprove v i g o sig)
    (fun t => g = t.ownAddr ∧ t.uncel.ceremony = some x ∧ x.id = i ∧ t.tilth.uncel.officers[o]? = some key ∧ mlOk key (t.officerMessage x) sig = false)
    (fun t => (t, .no Status.verifyFail))) ∧
  (∀ i g o sig x key, Requested s v (.ceremonyApprove i g o sig) (.ceremonyApprove v i g o sig)
    (fun t => g = t.ownAddr ∧ t.uncel.ceremony = some x ∧ x.id = i ∧ t.tilth.uncel.officers[o]? = some key ∧ mlOk key (t.officerMessage x) sig = true ∧ (o ∉ x.officers) ∧ x.officers.length + 1 < t.tilth.uncel.approvals)
    (fun t => (t.modUncel fun u => { u with ceremony := some { x with officers := x.officers ++ [o] } }, .ok))) ∧
  (∀ i g o sig x key, Requested s v (.ceremonyApprove i g o sig) (.ceremonyApprove v i g o sig)
    (fun t => g = t.ownAddr ∧ t.uncel.ceremony = some x ∧ x.id = i ∧ t.tilth.uncel.officers[o]? = some key ∧ mlOk key (t.officerMessage x) sig = true ∧ (o ∉ x.officers) ∧ t.tilth.uncel.approvals ≤ x.officers.length + 1)
    (fun t =>
      let u := (t.modUncel fun u => { u with ceremony := none }).applyRequest v x.request;
      ((u.1.logRequest v x.request u.2.status true).event .unc uncCeremonyDone, .ok))) ∧
  (Requested s v (.uncReenumerate) (.uncReenumerate v)
    (fun t => t.bridge = true)
    (fun t => (t.enumerateChild, .ok))) ∧
  (Requested s v (.uncReenumerate) (.uncReenumerate v)
    (fun t => t.bridge = false)
    (fun t => (t, .no Status.inputInvalid))) ∧
  (∀ off value, Requested s v (.globalArm off value) (.globalArm v off value)
    (fun t => off ∈ [gdEpoch, gdReset, gdSrcSel])
    (fun t => t.arm v off value globalPair)) ∧
  (∀ (t : State) p off value apply, viaPf v = some p → ((t.pf p).arm ≠ some ⟨gdLcsReq⟩ ∨ off = gdLcsReq) →
    t.arm v off value apply = (t.modPf p fun x => { x with arm := some ⟨off⟩ }, .ok)) ∧
  (∀ (t : State) p off value apply, viaPf v = some p → (t.pf p).arm = some ⟨gdLcsReq⟩ → off ≠ gdLcsReq →
    t.arm v off value apply = ({ t with life := { t.life with staged := none } }.modPf p fun x => { x with arm := some ⟨off⟩ }, .ok)) ∧
  (∀ (t : State) off value apply, viaPf v = none → t.glb.logFull = false →
    t.arm v off value apply = (((apply off value t).1.logPair off (apply off value t).2.code 0xFF), .no (apply off value t).2.status))

/-- A warning holds the topsoil's work until every supply is released, and a hold that lasts too long is a brown-out,
which clears the topsoil fabric. A subsoil brown-out, a pin pulse of 10 µs, a failed bring-up, a lockstep mismatch or
a service reset the device: jobs, pairs, tenants, contexts, sessions and the guard's state go, and epoch, generation,
evidence, shelf, root secret and boot store stay. A watchdog restarts its core and loses what the core held. A
quadrant that loses its clock stops, and fails at the second loss within a second. A service reports, leaves fallow
mode for a SEALED slot, or carries out a checked life-cycle request. A TAP instruction takes effect where it is
permitted. -/
def Obligations.SuppliesAndResets : Prop :=
  ∀ s : State,
  (∀ k, k ≤ 1 → s.power.topsoilUp = false → 
    exec (.settleHoldStart k) s = .next (s.modPower fun p => { p with warn := p.warn ||| 2 ^ k })) ∧
  (∀ k, k ≤ 1 → s.power.topsoilUp = true → s.power.holdActive = true → 
    exec (.settleHoldStart k) s = .next ((s.modPower fun p => { p with warn := p.warn ||| 2 ^ k }).modPower fun p => { p with holdBy := p.holdBy ||| 2 ^ k, holdActive := true })) ∧
  (∀ k, k ≤ 1 → s.power.topsoilUp = true → s.power.holdActive = false → 
    exec (.settleHoldStart k) s = .next (((((((s.modPower fun p => { p with warn := p.warn ||| 2 ^ k }).modPower fun p => { p with holdBy := p.holdBy ||| 2 ^ k, holdActive := true }).holdWork (fun _ => true) fun _ => true).pauseDigests true).modPower fun p =>
      { p with settleCount := satAdd 0xFFFF p.settleCount 1 }).event .rst 32).logHealth 1 (2 ^ k))) ∧
  (∀ k, k ≤ 1 → s.power.holdActive = true → s.power.holdBy = 2 ^ k → 
    exec (.settleHoldRelease k) s = .next ((((s.modPower fun p => { p with warn := if p.warn.testBit k then p.warn - 2 ^ k else p.warn, holdBy := if p.holdBy.testBit k then p.holdBy - 2 ^ k else p.holdBy }).modPower fun p => { p with holdActive := false }).releaseWork
      (fun g => s.clocked (g / 256)) fun n => s.clocked (n / 16)).pauseDigests false)) ∧
  (∀ k, k ≤ 1 → s.power.holdActive = false → 
    exec (.settleHoldRelease k) s = .next (s.modPower fun p => { p with warn := if p.warn.testBit k then p.warn - 2 ^ k else p.warn, holdBy := if p.holdBy.testBit k then p.holdBy - 2 ^ k else p.holdBy })) ∧
  (s.power.holdActive = true → s.resetRunning = false → 
    exec (.settleHoldTimeout) s = .next (State.event ((s.clearTopsoil true).modPower fun p => { p with localCause := p.localCause % 2 ^ 16 + s.power.holdBy * 2 ^ 16 }) .rst 1)) ∧
  (s.power.holdActive = false → 
    exec (.settleHoldTimeout) s = .next (s)) ∧
  (∀ k, k ≤ 3 → s.power.topsoilUp = true → s.resetRunning = false → 
    exec (.topsoilBrownOut k) s = .next (State.event (((s.modPower fun p => { p with valid := if p.valid.testBit k then p.valid - 2 ^ k else p.valid }).clearTopsoil true).modPower fun p => { p with localCause := p.localCause % 2 ^ 16 + 2 ^ k * 2 ^ 16 }) .rst 1)) ∧
  (∀ k, k ≤ 3 → s.power.topsoilUp = false → 
    exec (.topsoilBrownOut k) s = .next (s.modPower fun p => { p with valid := if p.valid.testBit k then p.valid - 2 ^ k else p.valid })) ∧
  (∀ k, k ≤ 3 → s.power.topsoilUp = true → s.resetRunning = true → 
    exec (.topsoilBrownOut k) s = .next ((((s.modPower fun p => { p with valid := if p.valid.testBit k then p.valid - 2 ^ k else p.valid }).escalated 0 1).modPower fun p => { p with localCause := p.localCause ||| 2 ^ k * 2 ^ 16 }))) ∧
  (∀ k, 4 ≤ k → k ≤ 8 → s.power.phase ≠ .unpowered → 
    exec (.subsoilBrownOut k) s = .next ((s.fullReset (s.causes (2 ^ (k + 4))) .unpowered false).modPower fun p => { p with valid := if p.valid.testBit k then p.valid - 2 ^ k else p.valid, warn := 0 })) ∧
  (
    exec (.vddSmWarning) s = .next (s.modPower fun p => { p with warn := p.warn ||| 32 })) ∧
  ((s.power.phase = .lockService → s.tamper.locked = false) → (s.modPower fun p => { p with warn := if p.warn.testBit 5 then p.warn - 32 else p.warn }).logOpen = true → 
    exec (.vddSmRelease) s = .next ((s.modPower fun p => { p with warn := if p.warn.testBit 5 then p.warn - 32 else p.warn }).logFlush)) ∧
  ((s.power.phase = .lockService → s.tamper.locked = false) → (s.modPower fun p => { p with warn := if p.warn.testBit 5 then p.warn - 32 else p.warn }).logOpen = false → 
    exec (.vddSmRelease) s = .next (s.modPower fun p => { p with warn := if p.warn.testBit 5 then p.warn - 32 else p.warn })) ∧
  (s.power.phase = .lockService → s.tamper.locked = true → (s.modPower fun p => { p with warn := if p.warn.testBit 5 then p.warn - 32 else p.warn }).logOpen = true → 
    exec (.vddSmRelease) s = .next (((s.modPower fun p => { p with warn := if p.warn.testBit 5 then p.warn - 32 else p.warn }).modTamper fun t => { t with flag := true }).logFlush)) ∧
  (
    exec (.vddSWarning true) s = .next ((s.modPower fun p => { p with warn := p.warn ||| 16 }).logFree)) ∧
  (
    exec (.vddSWarning false) s = .next (s.modPower fun p => { p with warn := if p.warn.testBit 4 then p.warn - 16 else p.warn })) ∧
  (∀ valid ref, s.power.phase = .unpowered → bits valid 8 4 = 31 → 
    exec (.powerOnReset valid true ref) s = .next ((({ s.clearRoot with rtc := 0 }.modTamper fun t => { t with latch := false, batt := {}, out := false, outFor := 0, outLock := false }).modPower fun p => { p with phase := .porHeld, valid := valid % 512, warn := 0, refclk0 := ref, glitches := 0, rtcLost := true, cause := causePor }))) ∧
  (∀ valid ref, s.power.phase = .unpowered → bits valid 8 4 = 31 → 
    exec (.powerOnReset valid false ref) s = .next (s.modPower fun p => { p with phase := .porHeld, valid := valid % 512, warn := 0, refclk0 := ref, glitches := 0, rtcLost := p.rtcLost, cause := if p.cause &&& 0x1F00 ≠ 0 then p.cause ||| causePor else causePor })) ∧
  (∀ straps golden h33 fac, s.power.phase = .porHeld → 
    exec (.porRelease straps golden h33 fac) s = .next (((s.modPower fun p => { p with supplyH33 := h33, phase := .pllLocking }).latchStraps straps golden).modLife fun l => { l with tapFactory := fac })) ∧
  (
    exec (.sysResetAssert) s = .next (s.modPower fun p => { p with pinLow := true })) ∧
  (∀ n straps golden taken, s.power.pinLow = true → s.power.phase ≠ .unpowered → s.power.phase ≠ .porHeld → (10000 ≤ n ∨ 1000 ≤ n ∧ taken = true) → 
    exec (.sysResetRelease n straps golden taken) s = .next (((s.modPower fun p => { p with pinLow := false }).fullReset (s.causes causeSysReset) .pllLocking false).latchStraps straps golden)) ∧
  (∀ n straps golden taken, s.power.pinLow = true → s.power.phase ≠ .unpowered → s.power.phase ≠ .porHeld → (n < 1000 ∨ n < 10000 ∧ taken = false) → 
    exec (.sysResetRelease n straps golden taken) s = .next (((s.modPower fun p => { p with pinLow := false }).modPower fun p => { p with glitches := satAdd 0xFFFF p.glitches 1 }).event .rst 16)) ∧
  (s.power.phase = .pllLocking → s.power.pinLow = false → 
    exec (.subsoilPllLock) s = .next ((s.modPower fun p => { p with phase := .booting }).modRng Rng.restart)) ∧
  (s.bringingUp = true → 
    exec (.bringupTimeout) s = .next (s.innerReset causeBringup)) ∧
  (s.bringingUp = false → 
    exec (.bringupTimeout) s = .next (s)) ∧
  (∀ k, 1 ≤ k → k ≤ 3 → s.power.phase ≠ .lockService → s.power.phase ∉ [Phase.unpowered, .porHeld, .pinHeld, .pllLocking] → s.resetRunning = false → 
    exec (.loamWatchdogTimeout k) s = .next ((s.modPower fun p => { p with localCause := p.localCause ||| 2 ^ (8 + k) }).event .rst 4)) ∧
  (s.power.phase ≠ .lockService → s.power.phase ∉ [Phase.unpowered, .porHeld, .pinHeld, .pllLocking] → s.resetRunning = false → 
    exec (.loamWatchdogTimeout 0) s = .next (
      let u := ((s.modPower fun p => { p with localCause := p.localCause ||| 2 ^ 8 }).event .rst 4).endManagerSessions;
      { u with hzn := { u.hzn with issued := [] }, boot := { u.boot with install := none } })) ∧
  (∀ k, k ≤ 3 → s.power.phase ≠ .lockService → s.power.phase ∉ [Phase.unpowered, .porHeld, .pinHeld, .pllLocking] → s.resetRunning = true → 
    exec (.loamWatchdogTimeout k) s = .next ((s.escalated 0 4).modPower fun p => { p with localCause := p.localCause ||| 2 ^ (8 + k) })) ∧
  (∀ k, s.power.phase = .lockService → 
    exec (.loamWatchdogTimeout k) s = .next (s)) ∧
  (s.power.phase ∉ [Phase.unpowered, .porHeld, .pinHeld, .pllLocking] → 
    exec (.loamMachineCheck) s = .next (s.innerReset (s.causes causeLoamMchk))) ∧
  (∀ q, q < 4 → (s.quad q).pllRun = true → (s.quad q).failed = false → (s.quad q).pllLocked = false → (s.quad q).unlocked = false → 
    exec (.quadrantPllLock q) s = .next (s.modQuad q fun y => { y with pllLocked := true, unlocked := false })) ∧
  (∀ q, q < 4 → (s.quad q).pllRun = true → (s.quad q).failed = false → (s.quad q).pllLocked = false → (s.quad q).unlocked = true → s.power.holdActive = false → 
    exec (.quadrantPllLock q) s = .next ((s.modQuad q fun y => { y with pllLocked := true, unlocked := false }).releaseWork (quadGrains q) (quadEngine q))) ∧
  (∀ q, q < 4 → (s.quad q).pllRun = true → (s.quad q).failed = false → (s.quad q).unlocked = false → (s.quad q).lastUnlock = none → 
    exec (.quadrantPllUnlock q) s = .next (((((s.tick.modQuad q fun y => { y with unlocked := true, pllLocked := false, lastUnlock := some s.tick.rtc }).event .rst 64).logHealth 3 q).holdWork
      (quadGrains q) (quadEngine q)))) ∧
  (∀ q u, q < 4 → (s.quad q).pllRun = true → (s.quad q).failed = false → (s.quad q).unlocked = false → (s.quad q).lastUnlock = some u → (s.tick.rtc + 2 ^ 48 - u) % 2 ^ 48 ≤ 32768 → 
    exec (.quadrantPllUnlock q) s = .next (State.failQuadrant ((((s.tick.modQuad q fun y => { y with unlocked := true, pllLocked := false, lastUnlock := some s.tick.rtc }).event .rst 64).logHealth 3 q).holdWork
      (quadGrains q) (quadEngine q)) q)) ∧
  (∀ q, (s.quad q).unlocked = true → 
    exec (.pllRelockTimeout q) s = .next (s.failQuadrant q)) ∧
  (∀ q, s.power.phase = .gateOpen → (s.responses 14).testBit 0 = false → let t := s.failQuadrant q
    (t.quad q).failed = true ∧ (t.quad q).pllRun = false ∧ (t.quad q).pllLocked = false) ∧
  (∀ v, s.power.phase = .fallow → 
    exec (.fallowStatus v) s = .next (s.send v (.service v Status.ok (Config.serviceReport [s.uid, lcIndex s.life.state, s.bootFstart, s.bootSlot 0, s.bootSlot 1, s.bootSlot 2, s.bootKeys])))) ∧
  (∀ v, s.power.phase = .scrapped → v.transport = .i3c → 
    exec (.fallowStatus v) s = .next (s.send v (.service v Status.ok (Config.serviceReport [s.uid, lcIndex s.life.state])))) ∧
  (∀ v i, s.power.phase = .fallow → i ≤ 1 → (s.region i).page.state = .sealedPage → 
    exec (.fallowExit v i) s = .next (((s.modBoot fun b => { b with primary := i, failCount := 0 }).send v (.service v Status.ok [])).innerReset causeSoftware)) ∧
  (∀ v i, s.power.phase = .fallow → (1 < i ∨ (s.region i).page.state ≠ .sealedPage) → 
    exec (.fallowExit v i) s = .next (s.send v (.service v Status.inputInvalid []))) ∧
  (∀ v req cut, s.power.phase ∈ [Phase.factory, .fallow, .lockService] → s.takesDirect req = true → s.lcVerdict req = Status.ok → (((s.modLife fun l => { l with request := some req }).send v (.service v Status.ok [])).transition req cut).power.phase ≠ .unpowered → 
    exec (.lcDirectRequest v req cut) s = .next (((((s.modLife fun l => { l with request := some req }).send v (.service v Status.ok [])).transition req cut).innerReset causeLcTrans).event .lcs 1)) ∧
  (∀ v req cut, s.power.phase ∈ [Phase.factory, .fallow, .lockService] → s.takesDirect req = true → s.lcVerdict req = Status.ok → (((s.modLife fun l => { l with request := some req }).send v (.service v Status.ok [])).transition req cut).power.phase = .unpowered → 
    exec (.lcDirectRequest v req cut) s = .next (((s.modLife fun l => { l with request := some req }).send v (.service v Status.ok [])).transition req cut)) ∧
  (∀ v req cut, s.power.phase ∈ [Phase.factory, .fallow, .lockService] → s.takesDirect req = true → s.lcVerdict req ≠ Status.ok → 
    exec (.lcDirectRequest v req cut) s = .next (s.send v (.service v (s.lcVerdict req) []))) ∧
  (∀ v req cut, s.power.phase ∈ [Phase.factory, .fallow, .lockService] → s.takesDirect req = false → 
    exec (.lcDirectRequest v req cut) s = .next (s.send v (.service v Status.inputInvalid []))) ∧
  (∀ fac i, 
    exec (.tapInstruction fac i) s = .next (s.modLife fun l => { l with tapInstruction := if l.latch.testBit (if fac then 3 else 1) then some i else none })) ∧
  (∀ cause phase logged, let t := s.fullReset cause phase logged
    t.power.phase = phase ∧ t.jobs = [] ∧ t.queues = [] ∧ t.engines = [] ∧ t.tenants = [] ∧ t.vault.ctxs = [] ∧ t.spdm = {} ∧ t.pgd = {} ∧
    t.power.topsoilUp = false ∧ t.power.holdActive = false ∧ t.boot.gateOpen = false ∧ t.boot.tilth = none ∧
    t.glb.epoch = s.glb.epoch ∧ t.uncel.gen = s.uncel.gen ∧ t.tamper.count = s.tamper.count ∧ t.vault.shelf = s.vault.shelf ∧
    t.vault.rootSecret = s.vault.rootSecret ∧ t.boot.regions = s.boot.regions)

/-- The immutable duties end in the service of the life-cycle state, in the renewal of a root secret that is gone, in
the lock service, or in the choice of a slot: fallow mode by strap, after LIMIT_N failures or with no slot that
passes, otherwise the first slot of the list, counted. A renewal writes a new root secret and erases the shelf; the
seal check opens the gate or marks the slot BAD and resets; with every supply and the clock the topsoil is released
under fresh keys; START_OK returns the count to 0, records a fallback and carries out a pending SVN raise. -/
def Obligations.StartSequence : Prop :=
  ∀ s : State,
  (∀ cut bad, s.power.phase = .booting → s.power.rtcLost = false → (s.lifeDuties cut).power.phase = .booting → (((s.lifeDuties cut).transferLatch bad).modLife fun l => { l with latch := l.permissions }).tamper.unlocked = false → 
    exec (.fullResetStart false true cut bad) s = .next ((((s.lifeDuties cut).transferLatch bad).modLife fun l => { l with latch := l.permissions }).dispatchStart)) ∧
  (∀ cut bad, s.power.phase = .booting → s.power.rtcLost = false → (s.lifeDuties cut).power.phase = .booting → (((s.lifeDuties cut).transferLatch bad).modLife fun l => { l with latch := l.permissions }).tamper.unlocked = true → 
    exec (.fullResetStart false true cut bad) s = .next ((((((s.lifeDuties cut).transferLatch bad).modLife fun l => { l with latch := l.permissions }).event .tmp 4).modTamper fun t => { t with unlocked := false }).dispatchStart)) ∧
  (∀ torn kat cut bad, s.power.phase ≠ .booting → 
    exec (.fullResetStart torn kat cut bad) s = .next (s)) ∧
  ((s.life.state = .raw ∨ s.life.state = .testUnlocked ∨ s.life.state = .testLocked) →
    s.dispatchStart = s.modPower fun p => { p with phase := .factory }) ∧
  (s.life.state = .scrapped → s.dispatchStart = s.modPower fun p => { p with phase := .scrapped }) ∧
  ((s.life.state = .manufactured ∨ s.life.state = .owned) → s.vault.rootValid = false → s.dispatchStart = s.modPower fun p => { p with phase := .renewing }) ∧
  ((s.life.state = .manufactured ∨ s.life.state = .owned) → s.vault.rootValid = true → s.lockHeld = true → s.tamper.locked = false → s.dispatchStart.power.phase = .lockService ∧ s.dispatchStart.glb.locked = true) ∧
  ((s.life.state = .manufactured ∨ s.life.state = .owned) → s.vault.rootValid = true → s.lockHeld = false → s.dispatchStart = s.resealPass.decideStart) ∧
  (s.bootSel = 2 → bits s.power.strapRaw 1 0 ≠ 3 → bits s.power.strapRaw 3 2 ≠ 3 → s.decideStart = s.enterFallow 2) ∧
  (bits s.power.strapRaw 1 0 ≠ 3 → bits s.power.strapRaw 3 2 ≠ 3 → s.bootSel ≠ 2 → s.boot.limitN ≤ s.boot.failCount → s.decideStart = s.enterFallow 1) ∧
  (bits s.power.strapRaw 1 0 ≠ 3 → bits s.power.strapRaw 3 2 ≠ 3 → s.bootSel ≠ 2 → s.boot.failCount < s.boot.limitN → s.slotList.any s.slotPasses = false → s.decideStart = s.enterFallow 3) ∧
  (∀ i, bits s.power.strapRaw 1 0 ≠ 3 → bits s.power.strapRaw 3 2 ≠ 3 → s.bootSel ≠ 2 → s.boot.failCount < s.boot.limitN → s.slotList.any s.slotPasses = true →
    (s.modBoot fun b => { b with failCount := b.failCount + 1, fallowWhy := 0 }).selectSlot (s.boot.failCount + 1) = some i →
    s.decideStart = ((s.modBoot fun b => { b with failCount := b.failCount + 1, fallowWhy := 0 }).runSlot i |>.modPower fun p => { p with phase := .chosen }).logStart) ∧
  (∀ why, (s.enterFallow why).power.phase = .fallow ∧ (s.enterFallow why).boot.fallowWhy = why ∧ (s.enterFallow why).glb.fallow = true) ∧
  (s.power.phase = .renewing → s.rng.firstSeed = true → 
    exec (.rootSecretRenewal) s = .next ((((((s.newRoot.modVault fun v => { v with shelf := [], rootRenewed := true, deviceCert := [] }).event .key 8).log 0x3003 []).modBoot fun b => { b with reseal := true })).continueStart)) ∧
  ((s.power.phase ≠ .renewing ∨ s.rng.firstSeed = false) → 
    exec (.rootSecretRenewal) s = .next (s)) ∧
  (s.power.phase = .chosen → s.rng.firstSeed = true → 
    exec (.sealCheckStart) s = .next (s.takeSeed.1.modPower fun p => { p with phase := .sealing })) ∧
  (s.power.phase = .sealing → s.sealChecks s.boot.running = true → 
    exec (.sealCheckDone) s = .next (((s.modPower fun p => { p with phase := .gateOpen }).modBoot fun b => { b with gateOpen := true }).logFlush.readTilthCopies.newAlias)) ∧
  (s.power.phase = .sealing → s.sealChecks s.boot.running = false → 
    exec (.sealCheckDone) s = .next (((s.modRegion s.boot.running fun r => { r with page := { r.page with state := .bad } }).innerReset causeBringup).event .boot 1)) ∧
  (∀ i t, s.bestTilth = some i → s.tilthContents i = some t → (s.applyTilth i t).boot.tilth = some t ∧ (s.applyTilth i t).boot.limitN = t.limitN) ∧
  (∀ n, (s.modPower fun p => { p with valid := p.valid / 16 * 16 + n % 16, refclk0 := true }).topsoilWanted = true → s.power.topsoilUp = false → n % 16 = 15 → s.rng.firstSeed = true → 
    exec (.topsoilPowerUp n true) s = .next (
      let u := (s.modPower fun p => { p with valid := p.valid / 16 * 16 + n % 16, refclk0 := true }).drawKeys.modPower fun p => { p with topsoilUp := true, pciePermitted := true };
      ((u.modGlb fun g => { g with linkDown := false, rngReady := decide (u.rng.state = .ready), lastSettled := true }).modVault fun v =>
        { v with shelfLoading := decide (u.power.phase = .gateOpen) && !v.shelf.isEmpty }).releaseUnits)) ∧
  (∀ n, s.power.topsoilUp = false → 
    exec (.topsoilPowerUp n false) s = .next (s.modPower fun p => { p with valid := p.valid / 16 * 16 + n % 16, refclk0 := false })) ∧
  (s.power.phase = .gateOpen → s.power.topsoilUp = true → s.boot.tilth ≠ none → s.vault.shelfLoading = false → s.glb.startOk = false → s.mramOk = true → s.boot.running = s.boot.primary → s.boot.svnRaise = false → 
    exec (.startOk) s = .next ((s.modGlb fun g => { g with startOk := true }).modBoot fun b => { b with failCount := 0, primary := if s.boot.running < 2 then s.boot.running else b.primary, svnFloor := b.svnFloor, svnRaise := b.svnRaise })) ∧
  (s.power.phase = .gateOpen → s.power.topsoilUp = true → s.boot.tilth ≠ none → s.vault.shelfLoading = false → s.glb.startOk = false → s.mramOk = true → s.boot.running ≠ s.boot.primary → 
    exec (.startOk) s = .next (((s.modGlb fun g => { g with startOk := true }).modBoot fun b => { b with failCount := 0, primary := if s.boot.running < 2 then s.boot.running else b.primary, svnFloor := b.svnFloor, svnRaise := b.svnRaise }).event .boot 16)) ∧
  (∀ h, s.power.phase = .gateOpen → s.power.topsoilUp = true → s.boot.tilth ≠ none → s.vault.shelfLoading = false → s.glb.startOk = false → s.mramOk = true → s.boot.running = s.boot.primary → s.boot.svnRaise = true → (s.region s.boot.running).header s.boot.running = some h → 
    exec (.startOk) s = .next ((s.modGlb fun g => { g with startOk := true }).modBoot fun b => { b with failCount := 0, primary := if s.boot.running < 2 then s.boot.running else b.primary, svnFloor := max b.svnFloor h.svn, svnRaise := false }))

/-- A zeroize clears root secret, key-encryption keys, contexts and seeds in one step and starts the store scrubs.
Samples, loops, supplies, temperatures and clocks raise their sources: after the third abnormal sample, at once, or
for a stopped clock; an unarmed source does nothing, and a lock response latches and locks. The output is released
when no condition and no lock keeps it. An increment programs one position and counts it if it reads back. The lock
service reports, and unlocks for a request that verifies, with a reset. -/
def Obligations.TamperSystem : Prop :=
  ∀ s : State,
  (s.glb.linkDown = false → s.power.topsoilUp = true → 
    exec (.dieLinkIntegrityEvent) s = .next (
      let u := { s with glb := { s.glb with linkDown := true } }.glbEvent evLinkFault;
      let w := (List.range 16).foldl (fun u e => u.digStop e .linkFault)
        ((u.jobsWhere fun x => decide (x.stage ≠ Stage.ending)).foldl (fun u j => u.abortJob j Status.linkFault) u);
      ((w.logHealth 4 0).modTamper fun t => { t with live := t.live ||| 2 ^ 15 }).raise [15])) ∧
  (
    exec (.zeroizeRequest) s = .next (s.zeroize)) ∧
  (let t := s.zeroize;
    t.vault.rootSecret = [] ∧ t.vault.rootValid = false ∧ t.vault.ctxs = [] ∧ t.vault.slotKekValid = false ∧ t.vault.cacheKekValid = false ∧
    t.vault.ctxKekValid = false ∧ t.vault.aliasKey = false ∧ t.vault.scrubSlots = true ∧ t.vault.scrubCtxs = true ∧
    t.vault.scrubCache = true ∧ t.rng.queue = [] ∧ t.rng.buffers = []) ∧
  (
    exec (.zeroizeScrubDone .slotSram) s = .next (s.modVault fun v => { v with scrubSlots := false })) ∧
  (
    exec (.zeroizeScrubDone .contextStore) s = .next (s.modVault fun v => { v with scrubCtxs := false })) ∧
  (
    exec (.zeroizeScrubDone .keyCache) s = .next (s.modVault fun v => { v with scrubCache := false })) ∧
  (∀ sw lp, 
    exec (.tamperSampleTick sw lp) s = .next (
      let u := ((List.range 12).foldl (fun u k => u.sample k ((s.inputAbnormal sw lp) k)) s).modTamper fun t =>
        { t with live := t.live / 2 ^ 12 * 2 ^ 12 + maskOf ((List.range 12).filter (s.inputAbnormal sw lp)) };
      u.raise ((List.range 12).filter u.third))) ∧
  (∀ k, k < 4 → s.loopRandom k = true → 
    exec (.loopMismatch k) s = .next (s.raise [8 + k])) ∧
  (∀ k, s.onBattery = false → k ∈ [0, 1, 4, 5] → 
    exec (.voltageTamper k) s = .next (s.raise [12])) ∧
  (∀ readings, (∀ i ∈ s.sensors, s.tempWindow.1.toInt ≤ ((readings[i]?).getD 0).toInt ∧ ((readings[i]?).getD 0).toInt ≤ s.tempWindow.2.toInt) → (∀ d ∈ [0, 1], (((readings[2 * d]?).getD 0).toInt - ((readings[2 * d + 1]?).getD 0).toInt).natAbs ≤ 60) → s.Sound → (∀ i, s.tamper.abnormal.find? i = none) → 
    exec (.temperatureReading readings) s = .next (s.modTamper fun t => { t with temps := s.sensors.foldl (fun m i => m.set i ((readings[i]?).getD 0).toNat 0) t.temps, live := t.live &&& (0xFFFF - 2 ^ 13) })) ∧
  (∀ readings i, i ∈ s.sensors → ((((readings[i]?).getD 0 : BitVec 16)).toInt < s.tempWindow.1.toInt) → s.tamper.abnormal.get (16 + i) 0 = 2 → (s.responses 13).testBit 0 = true → (s.responses 13).testBit 2 = true → s.power.phase ≠ .unpowered → 
    ∃ t, exec (.temperatureReading readings) s = .next t ∧ t.vault.rootValid = false ∧ t.vault.ctxs = []) ∧
  (∀ k a, s.onBattery = false → k ≤ 3 → (k = 2 → s.power.topsoilUp = true) → 
    exec (.clockMonitorWindow k a true) s = .next (State.raise ((s.sample (32 + k) true).modTamper fun t => { t with live := (t.live &&& (0xFFFF - 2 ^ 14)) + 2 ^ 14 }) [14])) ∧
  (∀ k, s.onBattery = false → k ≤ 3 → (k = 2 → s.power.topsoilUp = true) → s.tamper.abnormal.rising = true → 
    exec (.clockMonitorWindow k false false) s = .next ((s.sample (32 + k) false).modTamper fun t => { t with live := (t.live &&& (0xFFFF - 2 ^ 14)) })) ∧
  (∀ k, s.onBattery = false → k ≤ 3 → (k = 2 → s.power.topsoilUp = true) → (s.sample (32 + k) true).third (32 + k) = true → 
    exec (.clockMonitorWindow k true false) s = .next (State.raise ((s.sample (32 + k) true).modTamper fun t => { t with live := (t.live &&& (0xFFFF - 2 ^ 14)) + 2 ^ 14 }) [14])) ∧
  (s.onBattery = true → 
    exec (.oscillatorFallback) s = .next (s.modTamper fun t => { t with batt := { t.batt with clockStop := true } })) ∧
  (s.tamper.outFor &&& s.tamper.live = 0 → (s.tamper.outLock = false ∨ s.tamper.locked = false) → 
    exec (.tamperOutRelease) s = .next (s.modTamper fun t => { t with out := false, outFor := 0, outLock := false })) ∧
  (s.onBattery = true → 
    exec (.tamperOutRelease) s = .next (s.modTamper fun t => { t with out := false, outFor := 0, outLock := false })) ∧
  (s.onBattery = false → (s.tamper.outFor &&& s.tamper.live ≠ 0 ∨ s.tamper.outLock = true ∧ s.tamper.locked = true) → 
    exec (.tamperOutRelease) s = .next (s)) ∧
  (∀ ok, s.tamper.due ≠ 0 → 
    exec (.evidenceIncrementDone ok) s = .next (((s.increment ok).modTamper fun t => { t with due := if ok ∨ t.saturated then t.due - 1 else t.due }).saturate s.tamper.saturated)) ∧
  (∀ ok, s.tamper.saturated = false → (s.increment ok).tamper.count = s.tamper.count + (if ok then 1 else 0) ∧ (s.increment ok).tamper.next = s.tamper.next + 1) ∧
  (∀ v, s.power.phase = .lockService → 
    exec (.lockStatus v) s = .next (s.send v (.service v Status.ok (Config.serviceReport [s.uid, lcIndex s.life.state, s.tamper.count, s.tmpBatt])))) ∧
  (∀ v req, s.power.phase = .lockService → s.unlockVerdict req = Status.ok → 
    exec (.unlock v req) s = .next (((((s.modTamper fun t => { t with latch := false, flag := false, unlocked := true }).log 0x4002 (leBytes 2 1)).send v (.service v Status.ok []))).innerReset causeSoftware)) ∧
  (∀ v req, s.power.phase = .lockService → s.unlockVerdict req ≠ Status.ok → 
    exec (.unlock v req) s = .next ((s.log 0x4002 (leBytes 2 2)).send v (.service v (s.unlockVerdict req) []))) ∧
  (∀ srcs, s.power.phase ≠ .unpowered → (∀ k ∈ srcs, (s.responses k).testBit 0 = false) → s.raise srcs = s) ∧
  (∀ k, s.power.phase ≠ .unpowered → (s.responses k).testBit 0 = true → (s.responses k).testBit 3 = true →
    let t := s.raise [k]
    t.tamper.locked = true ∧ t.tamper.latch = true ∧ ((s.tamper.locked = false → t.glb.locked = true)))

/-- A channel whose flash answers prepares its regions in order; a manifest that verifies and blocks that match make
it SERVING, any failure tries the next source, and with none left it waits with every planned hold asserted. A host
command that the sieve denies reads as 0xFF, or writes nothing and marks the emulated status; a permitted one is
served from the mirror or the flash, forwarded, or changes the emulation. A program or erase in the golden copy or the
host window is denied. A watched block's hash that differs is flash tamper. An AUTO hold is released when its channels
serve. -/
def Obligations.PlatformGuard : Prop :=
  ∀ s : State,
  (∀ c j f a b, (s.chan c).state = .init → 
    exec (.channelInitDone c false j f a b) s = .next ((s.emit (.flashReset c)).chanWaits c)) ∧
  (∀ c j f a b, (s.chan c).state = .init → 
    exec (.channelInitDone c true j f a b) s = .next ((s.emit (.flashReset c)).modChan c fun x =>
      { x with state := .verifying, source := (regionOrder a b).headD 0, left := (regionOrder a b).drop 1 ++ [2], busy := false, jedec := j, sfdp := Config.sfdpCopy f ((s.plan c).hostDummy 0) ((s.plan c).hostDummy 7), mode := 0, addr4 := false, settings := [], denied := 0 })) ∧
  (∀ c m, s.preparing c = true → (s.chan c).manifest = [] → s.manifestFormat c m = true → s.manifestOk m = true → 
    exec (.manifestVerifyDone c m) s = .next (s.modChan c fun x => { x with manifest := manifestDigests m, raw := m })) ∧
  (∀ c m, s.preparing c = true → (s.chan c).manifest = [] → (s.manifestFormat c m = false ∨ s.manifestOk m = false) → 
    exec (.manifestVerifyDone c m) s = .next (s.sourceFails c)) ∧
  (∀ c image, s.preparing c = true → (s.chan c).manifest ≠ [] → imageMatches (s.chan c).manifest image = true → 
    exec (.blockScanDone c image) s = .next (s.serveImage c (s.chan c).source (s.chan c).manifest image)) ∧
  (∀ c image, s.preparing c = true → (s.chan c).manifest ≠ [] → imageMatches (s.chan c).manifest image = false → 
    exec (.blockScanDone c image) s = .next (s.sourceFails c)) ∧
  (∀ c source digests image, let t := s.serveImage c source digests image
    (t.chan c).state = .serving ∧ (t.chan c).serving = some source ∧ (t.chan c).recovers = false ∧ (t.chan c).manifest = []) ∧
  (∀ c cause left, let t := s.startRecovery c cause left
    (t.chan c).recovers = true ∧ (t.chan c).cause = cause ∧ (t.chan c).window = none ∧ (t.chan c).serving = none ∧
    t.pgd.level = s.pgd.level ||| s.plannedHolds ∧ (t.chan c).state = if left = [] then .waiting else .recovering) ∧
  (∀ k, k < 8 → s.boot.tilth.isSome = true → s.pgd.autoDue.testBit k = true → s.pgd.byTamper.testBit k = false → s.holdReady k = true → 
    exec (.holdAutoRelease k) s = .next (s.releaseHold k)) ∧
  (∀ c, (s.chan c).window.isSome = true → 
    exec (.updateWindowTimeout c) s = .next (((s.modChan c fun x => { x with window := none }).event .pgd 32).logPlatform 6 c 0)) ∧
  (∀ c, (s.chan c).busy = true → (s.chan c).state = .recovering → 
    exec (.flashIdleTimeout c) s = .next ((s.emit (.flashReset c)).modChan c fun x => { x with busy := false })) ∧
  (∀ c, 
    exec (.flashProgramEraseDone c) s = .next (s.modChan c fun x => { x with busy := false })) ∧
  (∀ c code a n slow data tag, s.takesClass c code 0 = false → 
    exec (.hostFlashRead c code a n slow data tag) s = .next (s)) ∧
  (∀ c code a data, s.takesClass c code 1 = false → 
    exec (.hostFlashProgram c code a data) s = .next (s)) ∧
  (∀ c code a, s.takesClass c code 2 = false → 
    exec (.hostFlashErase c code a) s = .next (s)) ∧
  (∀ c code st, s.takesClass c code 3 = false → 
    exec (.hostFlashStatus c code st) s = .next (s)) ∧
  (∀ c code a data, s.takesClass c code 4 = false → 
    exec (.hostFlashConfig c code a data) s = .next (s)) ∧
  (∀ c code a n slow data tag t, s.takesClass c code 0 = true → s.sieve c code a n = (t, true) → 
    exec (.hostFlashRead c code a n slow data tag) s = .next ((t.modChan c fun x => { x with late := satAdd 0xFFFF x.late 1 }).emit (.hostFlash c (blank n)))) ∧
  (∀ c code a n slow data tag t, s.takesClass c code 0 = true → s.sieve c code a n = (t, false) → opServe (s.opOf c (code.toNat % 256)) ≠ 1 → opDummy (s.opOf c (code.toNat % 256)) = true → 
    exec (.hostFlashRead c code a n slow data tag) s = .next (t.serveRead c (t.readBytes c a n) data tag)) ∧
  (∀ c code a n data tag t, s.takesClass c code 0 = true → s.sieve c code a n = (t, false) → opServe (s.opOf c (code.toNat % 256)) ≠ 1 → opDummy (s.opOf c (code.toNat % 256)) = false → 
    exec (.hostFlashRead c code a n false data tag) s = .next ((t.modChan c fun x => { x with late := satAdd 0xFFFF x.late 1 }).emit (.hostFlash c (blank n)))) ∧
  (∀ c src data, watchedOf src = [] → (s.chan c).buffers.length ≤ 64 →
    s.serveRead c src data true = s.emit (.hostFlash c (s.readData src data))) ∧
  (∀ c code a data t, s.takesClass c code 1 = true → s.sieve c code a data.length = (t, true) → 
    exec (.hostFlashProgram c code a data) s = .next (t.modChan c fun x => { x with denied := x.denied ||| 1 })) ∧
  (∀ c code a data t, s.takesClass c code 1 = true → s.sieve c code a data.length = (t, false) → opServe (s.opOf c (code.toNat % 256)) ≠ 1 → (opAddr (s.opOf c (code.toNat % 256)) ≠ 0 ∨ opUnit (s.opOf c (code.toNat % 256)) ≠ 0) → 
    exec (.hostFlashProgram c code a data) s = .next ((t.emit (.toFlash c (code.toNat % 256) (t.flashAddr c a) data)).modChan c fun x => { x with busy := true })) ∧
  (∀ c code a data t, s.takesClass c code 1 = true → s.sieve c code a data.length = (t, false) → opServe (s.opOf c (code.toNat % 256)) ≠ 1 → opAddr (s.opOf c (code.toNat % 256)) = 0 → opUnit (s.opOf c (code.toNat % 256)) = 0 → 
    exec (.hostFlashProgram c code a data) s = .next (t.emit (.toFlash c (code.toNat % 256) (t.flashAddr c a) data))) ∧
  (∀ c code a t, s.takesClass c code 2 = true → s.sieve c code a 1 = (t, true) → 
    exec (.hostFlashErase c code a) s = .next (t.modChan c fun x => { x with denied := x.denied ||| 2 })) ∧
  (∀ c code a t, s.takesClass c code 2 = true → s.sieve c code a 1 = (t, false) → opServe (s.opOf c (code.toNat % 256)) ≠ 1 → (opAddr (s.opOf c (code.toNat % 256)) ≠ 0 ∨ opUnit (s.opOf c (code.toNat % 256)) ≠ 0) → 
    exec (.hostFlashErase c code a) s = .next ((t.emit (.toFlash c (code.toNat % 256) (t.flashAddr c a) [])).modChan c fun x => { x with busy := true })) ∧
  (∀ c code a t, s.takesClass c code 2 = true → s.sieve c code a 1 = (t, false) → opServe (s.opOf c (code.toNat % 256)) ≠ 1 → opAddr (s.opOf c (code.toNat % 256)) = 0 → opUnit (s.opOf c (code.toNat % 256)) = 0 → 
    exec (.hostFlashErase c code a) s = .next (t.emit (.toFlash c (code.toNat % 256) (t.flashAddr c a) []))) ∧
  (∀ c code st t, s.takesClass c code 3 = true → s.sieve c code 0 0 = (t, true) → 
    exec (.hostFlashStatus c code st) s = .next (t.emit (.hostFlash c (blank 1)))) ∧
  (∀ c code st t, s.takesClass c code 3 = true → s.sieve c code 0 0 = (t, false) → opServe (t.opOf c (code.toNat % 256)) ≠ 1 → code.toNat % 256 ≠ 0x50 → 
    exec (.hostFlashStatus c code st) s = .next ((t.emit (.toFlash c (code.toNat % 256) 0 [])).emit (.hostFlash c [emulatedStatus (code.toNat % 256) (t.chan c).denied st]))) ∧
  (∀ c code a data t, s.takesClass c code 4 = true → s.sieve c code a data.length = (t, true) → 
    exec (.hostFlashConfig c code a data) s = .next (t)) ∧
  (∀ c code a data t, s.takesClass c code 4 = true → s.sieve c code a data.length = (t, false) → t.fewDummies c (code.toNat % 256) a data = false → 
    exec (.hostFlashConfig c code a data) s = .next (t.configure c (code.toNat % 256) a data)) ∧
  (∀ c code a data t, s.takesClass c code 4 = true → s.sieve c code a data.length = (t, false) → t.fewDummies c (code.toNat % 256) a data = true → 
    exec (.hostFlashConfig c code a data) s = .next (((t.noteSieve c ⟨256, code.toNat % 256, 4, 2⟩).modChan c fun x => { x with deny := satAdd 0xFFFFFFFF x.deny 1 }).event .pgd 16)) ∧
  (∀ c a data, s.configure c 0xB7 a data = (s.modChan c fun x => { x with addr4 := true }) ∧
    s.configure c 0xE9 a data = (s.modChan c fun x => { x with addr4 := false })) ∧
  (∀ c t u, s.takesClass c 0x9966#16 4 = true → s.sieve c 0x9966#16 0 0 = (t, false) → t.sieve c 0x6699#16 0 0 = (u, false) → 
    exec (.hostFlashReset c) s = .next (u.modChan c fun x => { x with mode := 0, addr4 := false })) ∧
  (∀ c t, s.takesClass c 0x9966#16 4 = true → s.sieve c 0x9966#16 0 0 = (t, true) → 
    exec (.hostFlashReset c) s = .next (t)) ∧
  (∀ c code a n, (s.decideCommand c code a n).action = 0 →
    s.sieve c code a n = (s.countHits (s.decideCommand c code a n).hits, false)) ∧
  (∀ c code a n, 2 ≤ (s.decideCommand c code a n).action → (s.sieve c code a n).2 = true) ∧
  (∀ c code a n, s.codeOk c code = true → opClass (s.opOf c (code.toNat % 256)) ∈ [1, 2] →
    s.touchesFixed c (s.affected c (s.opOf c (code.toNat % 256)) a n)
      (s.flashRanges c (s.affected c (s.opOf c (code.toNat % 256)) a n)) = true → (s.sieve c code a n).2 = true) ∧
  (∀ c k data got, (s.chan c).buffers.find? k = some got → (s.chan c).busy = false → 
    exec (.watchedCompletionRead c k data) s = .next (s.modChan c fun x =>
      { x with buffers := x.buffers.erase k, hashing := x.hashing ++ [(k, (List.range 4096).map fun i => got.get i ((data[i]?).getD 0))] })) ∧
  (∀ c k bytes e, (s.chan c).hashing.find? (fun x => decide (x.1 = k)) = some (k, bytes) → s.entryOf c k = some e → sha3_256 bytes = e.digest → 
    exec (.watchedBlockHashDone c k) s = .next ((s.modChan c fun x => { x with hashing := x.hashing.erase (k, bytes) }).markEntry c k 1)) ∧
  (∀ c k bytes e, (s.chan c).hashing.find? (fun x => decide (x.1 = k)) = some (k, bytes) → s.entryOf c k = some e → sha3_256 bytes ≠ e.digest → 
    exec (.watchedBlockHashDone c k) s = .next ((s.modChan c fun x => { x with hashing := x.hashing.erase (k, bytes) }).flashTamper c k 2))

/-- The services of the boot code support no SPDM request, and a request before the algorithms are settled is
unexpected. GET_VERSION starts a connection anew, GET_CAPABILITIES and NEGOTIATE_ALGORITHMS settle it; digests, the
certificate in portions, a signed challenge and the measurements are answered; sessions open up to their transport's
limit, are established by FINISH and end by END_SESSION, a lost heartbeat or a failed handshake; chunks are taken and
given in order. MANAGER_BIND marks a session whose chain roots in a tilth key and whose signature over its transcript
verifies, as its first request. While the target serves, it takes and drops a dynamic address as the common command
codes say, answers its PID, BCR 0x06, DCR and the maximum lengths 69 at that address only, enables and disables its
events, and returns to its reset state, the device untouched. A private read takes a waiting response; a write carries
a packet, whose message is a command of its own. -/
def Obligations.SpdmAndI3c : Prop :=
  (∀ (s : State) (v : Via),
  (s.viaLive v = true → s.viaKnown v = true → s.power.phase ∈ [Phase.fallow, .lockService, .factory, .scrapped] → 
    exec (.getVersion v) s = .next (s.sendSpdm v (.error .unsupportedRequest))) ∧
  (∀ cmd, AfterAlgorithms v cmd → s.viaLive v = true → s.viaKnown v = true →
    (s.power.phase ∈ [Phase.fallow, .lockService, .factory, .scrapped] →
      exec cmd s = .next (s.sendSpdm v (.error .unsupportedRequest))) ∧
    (s.power.phase = .gateOpen → (s.conn v).phase < 3 →
      exec cmd s = .next ((s.markStarted v).sendSpdm v (.error .unexpectedRequest)))) ∧
  (v.session = none → 
    Answered s v 0 (.getVersion v) (fun x => True) fun x => (x.modConn v fun c => { phase := 1, getHandle := c.getHandle }).sendSpdm v (.version [0x12, 0x13])) ∧
  (∀ version, v.session = none → (s.conn v).phase = 1 → (version = 0x12 ∨ version = 0x13) → 
    Answered s v 1 (.getCapabilities v version) (fun x => True) fun x => (x.modConn v fun c => { c with phase := 2, version := version }).sendSpdm v .capabilities) ∧
  (∀ version, v.session = none → (s.conn v).phase = 1 → version ≠ 0x12 → version ≠ 0x13 → 
    Answered s v 1 (.getCapabilities v version) (fun x => True) fun x => x.sendSpdm v (.error .versionMismatch)) ∧
  (∀ asym hash meas h m, v.session = none → (s.conn v).phase = 2 → bit asym 7 = true → chooseHash (bit hash 1) (bit hash 4) (Config.freeBool s.free) = some h → chooseHash (bit meas 2) (bit meas 5) (Config.freeBool (s.free + 1)) = some m → 
    Answered s v 2 (.negotiateAlgorithms v asym hash meas) (fun x => True) fun x => (x.spend.spend.modConn v fun c => { c with phase := 3, hashSha3 := h, measSha3 := m }).sendSpdm v (.algorithms h m)) ∧
  (∀ asym hash meas, v.session = none → (s.conn v).phase = 2 → bit asym 7 = false → 
    Answered s v 2 (.negotiateAlgorithms v asym hash meas) (fun x => True) fun x => x.spend.spend.sendSpdm v (.error .invalidRequest)) ∧
  (∀ free, chooseHash true false free = some false ∧ chooseHash false true free = some true ∧ chooseHash false false free = none) ∧
  (
    Answered s v 3 (.getDigests v) (fun x => True) fun x => x.sendSpdm v (.digests [(0, hashOf (x.conn v).hashSha3 x.chain0)])) ∧
  (∀ off len, 
    Answered s v 3 (.getCertificate v 0 off len) (fun x => off < x.chain0.length ∧ Config.certificateHeader + (slice x.chain0 off (min len (x.chain0.length - off))).length ≤ 8192) fun x => x.sendSpdm v (.certificate (slice x.chain0 off (min len (x.chain0.length - off))) (x.chain0.length - off - (slice x.chain0 off (min len (x.chain0.length - off))).length))) ∧
  (∀ off len, 
    Answered s v 3 (.getCertificate v 0 off len) (fun x => off < x.chain0.length ∧ 8192 < Config.certificateHeader + (slice x.chain0 off (min len (x.chain0.length - off))).length) fun x => (x.modConn v fun c => { c with large := slice x.chain0 off (min len (x.chain0.length - off)), getHandle := c.getHandle + 1, getNext := 0 }).sendSpdm v (.error (.largeResponse (x.conn v).getHandle))) ∧
  (∀ slot off len, slot ≠ 0 → 
    Answered s v 3 (.getCertificate v slot off len) (fun x => True) fun x => x.sendSpdm v (.error .invalidRequest)) ∧
  (
    Answered s v 3 (.challenge v 0) (fun x => x.vault.aliasKey = true) fun x => x.spend.sendSpdm v (.challengeAuth x.aliasSign)) ∧
  (∀ slot, slot ≠ 0 → 
    Answered s v 3 (.challenge v slot) (fun x => True) fun x => x.sendSpdm v (.error .invalidRequest)) ∧
  (∀ index, 0 < index → index ≤ 10 → 
    Answered s v 3 (.getMeasurements v index false) (fun x => True) fun x => x.sendSpdm v (.measurements [(index, x.measurement (hashOf (x.conn v).measSha3) index)] [])) ∧
  (
    Answered s v 3 (.getMeasurements v 0 false) (fun x => True) fun x => x.sendSpdm v (.measurements [(0, [10#8])] [])) ∧
  (
    Answered s v 3 (.getMeasurements v 0xFF true) (fun x => x.vault.aliasKey = true) fun x => x.spend.sendSpdm v (.measurements ((List.range 10).map fun i => (i + 1, x.measurement (hashOf (x.conn v).measSha3) (i + 1))) x.aliasSign)) ∧
  (∀ index signed, 10 < index → index ≠ 0xFF → 
    Answered s v 3 (.getMeasurements v index signed) (fun x => True) fun x => x.sendSpdm v (.error .invalidRequest)) ∧
  (v.session = none → 
    Answered s v 3 (.keyExchange v 0) (fun x => x.sessionsBeside v < sessionLimit v ∧ x.vault.aliasKey = true) fun x => ((x.spend.modSpdm fun d => { d with nextSession := d.nextSession + 1, sessions := d.sessions.insert d.nextSession { transport := v.transport, transcript := x.freeBytes 48 } }).signedReply v
          (.keyExchange x.spdm.nextSession))) ∧
  (v.session = none → 
    Answered s v 3 (.keyExchange v 0) (fun x => sessionLimit v ≤ x.sessionsBeside v) fun x => x.sendSpdm v (.error .sessionLimitExceeded)) ∧
  (∀ n y chain sig mac, 
    Answered s v 3 (.finish v n chain sig mac) (fun x => x.spdm.sessions.find? n = some y ∧ y.transport = v.transport ∧ y.established = false ∧ finishOk y chain sig mac = true) fun x => (x.spend.modSession n fun z =>
        { z with established := true, started := false, chain := chain, transcript := x.freeBytes 48 }).sendSpdm v .finish) ∧
  (∀ n y chain sig mac, 
    Answered s v 3 (.finish v n chain sig mac) (fun x => x.spdm.sessions.find? n = some y ∧ y.transport = v.transport ∧ y.established = false ∧ finishOk y chain sig mac = false) fun x => (x.endSession n).sendSpdm v (.error .invalidRequest)) ∧
  (∀ n y, 
    Answered s v 3 (.heartbeat v) (fun x => x.sessionOf v = some (n, y)) fun x => x.sendSpdm v .heartbeatAck) ∧
  (∀ n y, 
    Answered s v 3 (.keyUpdate v) (fun x => x.sessionOf v = some (n, y)) fun x => (x.modSession n fun z => { z with updates := z.updates + 1 }).sendSpdm v .keyUpdateAck) ∧
  (∀ n y, 
    Answered s v 3 (.endSession v) (fun x => x.sessionOf v = some (n, y)) fun x => (x.endSession n).sendSpdm v .endSessionAck) ∧
  (
    Answered s v 3 (.heartbeat v) (fun x => x.sessionOf v = none) fun x => x.sendSpdm v (.error .unexpectedRequest)) ∧
  (
    Answered s v 3 (.keyUpdate v) (fun x => x.sessionOf v = none) fun x => x.sendSpdm v (.error .unexpectedRequest)) ∧
  (
    Answered s v 3 (.endSession v) (fun x => x.sessionOf v = none) fun x => x.sendSpdm v (.error .unexpectedRequest)) ∧
  (∀ n x, s.spdm.sessions.find? n = some x → x.established = true → 
    exec (.heartbeatTimeout n) s = .next (s.endSession n)) ∧
  (∀ n, s.spdm.sessions.rising = true → (s.endSession n).spdm.sessions.find? n = none) ∧
  (∀ chain, 
    Answered s v 3 (.setCertificate v 0 chain) (fun x => x.managerVia v = true ∧ Config.certifies x.deviceId chain = true) fun x => (x.modVault fun w => { w with deviceCert := chain }).newAlias.sendSpdm v .setCertificate) ∧
  (∀ slot chain, 
    Answered s v 3 (.setCertificate v slot chain) (fun x => x.managerVia v = false) fun x => x.sendSpdm v (.error .invalidRequest)) ∧
  (∀ handle last bytes, 
    Answered s v 3 (.chunkSend v handle 0 last bytes) (fun x => True) fun x => (x.modConn v fun c => { c with sendHandle := handle, sendNext := if last then 0 else 1, received := bytes }).sendSpdm v (.chunkSendAck 0)) ∧
  (∀ handle seq last bytes, seq ≠ 0 → (s.conn v).sendNext = seq → (s.conn v).sendHandle = handle → 
    Answered s v 3 (.chunkSend v handle seq last bytes) (fun x => True) fun x => (x.modConn v fun c => { c with sendNext := if last then 0 else seq + 1, received := c.received ++ bytes }).sendSpdm v (.chunkSendAck seq)) ∧
  (∀ handle seq last bytes, seq ≠ 0 → ((s.conn v).sendNext ≠ seq ∨ (s.conn v).sendHandle ≠ handle) → 
    Answered s v 3 (.chunkSend v handle seq last bytes) (fun x => True) fun x => (x.modConn v fun c => { c with sendNext := 0, received := [] }).sendSpdm v (.error .invalidRequest)) ∧
  (∀ handle seq, (s.conn v).large ≠ [] → (s.conn v).getNext = seq → (s.conn v).getHandle = handle + 1 → 
    Answered s v 3 (.chunkGet v handle seq) (fun x => True) fun x => (x.modConn v fun c => { c with large := c.large.drop (max 1 Config.chunkBytes), getNext := seq + 1 }).sendSpdm v
        (.chunk seq (decide ((x.conn v).large.length ≤ max 1 Config.chunkBytes)) ((x.conn v).large.take (max 1 Config.chunkBytes)))) ∧
  (∀ signature n x, s.viaLive v = true → s.viaKnown v = true → s.power.phase = .gateOpen → s.sessionOf v = some (n, x) → 
    exec (.managerBind v signature) s = .next ((s.modSession n fun y =>
      { y with started := true, manager := y.manager || decide (s.bindResult x signature = Status.ok) }).respond v (s.bindResult x signature) [])) ∧
  (∀ signature, s.viaLive v = true → s.viaKnown v = true → s.power.phase = .gateOpen → s.sessionOf v = none → 
    exec (.managerBind v signature) s = .next (s.respond v Status.opcodeDenied [])) ∧
  (∀ x : Session, ∀ signature, (x.chain = none ∨ x.started = true) → s.bindResult x signature = Status.opcodeDenied) ∧
  (∀ (x : Session) k signature, x.chain = some k → x.started = false → s.managerChain k = true →
    s.bindResult x signature = if mlOk (Config.leafKey schemeMl k.bytes) x.transcript signature then Status.ok else Status.verifyFail) ∧
  (∀ eid, s.viaLive v = true → (∀ p, v.transport ≠ .admin p) → 8 ≤ eid → eid ≤ 254 → 
    exec (.setEndpointId v eid) s = .next ((s.modSpdm fun d => { d with endpoints := d.endpoints.insert (connKey v) eid }).sendSpdm v (.endpointSet eid))) ∧
  (∀ vf p t, s.tdispPort v vf = some p → s.funcTenant p (vf + 1) = some t → ((s.func (fnKey p (vf + 1))).tdisp = .configLocked ∨ (s.func (fnKey p (vf + 1))).tdisp = .run) → 
    exec (.getDeviceInterfaceReport v vf) s = .next (s.sendSpdm v (.interfaceReport (Config.interfaceReport (s.reportNumbers p vf t) (s.reportArea t))))) ∧
  (∀ vf, s.tdispPort v vf = none → 
    exec (.getDeviceInterfaceReport v vf) s = .next (s.sendSpdm v (.error .unexpectedRequest)))) ∧
  (∀ s : State,
  (∀ a, s.i3cOn = true → s.i3c.addr = none → 
    exec (.entdaa a) s = .next ((s.emit (.i3c (beBytes 6 s.i3cPid ++ [i3cBcr, Config.i3cDcr]))).modI3c fun x => { x with addr := some a })) ∧
  (∀ a b, s.i3cOn = true → s.i3c.addr = some b → 
    exec (.entdaa a) s = .next (s)) ∧
  (∀ a, s.i3cOn = true → s.i3c.addr = none → 
    exec (.setdasa 0x2E a) s = .next (s.modI3c fun x => { x with addr := some a })) ∧
  (∀ old a, s.i3cOn = true → s.i3c.addr = some old → 
    exec (.setnewda old a) s = .next (s.modI3c fun x => { x with addr := some a })) ∧
  (s.i3cOn = true → 
    exec (.rstdaa) s = .next (s.modI3c fun x => { x with addr := none })) ∧
  (∀ a, s.i3cOn = true → s.i3c.addr = some a → 
    exec (.getpid a) s = .next (s.emit (.i3c (beBytes 6 s.i3cPid)))) ∧
  (∀ a, (s.i3cOn = false ∨ s.i3c.addr ≠ some a) → 
    exec (.getpid a) s = .next (s)) ∧
  (∀ a, s.i3cOn = true → s.i3c.addr = some a → 
    exec (.getbcr a) s = .next (s.emit (.i3c ([0x06#8])))) ∧
  (∀ a, (s.i3cOn = false ∨ s.i3c.addr ≠ some a) → 
    exec (.getbcr a) s = .next (s)) ∧
  (∀ a, s.i3cOn = true → s.i3c.addr = some a → 
    exec (.getdcr a) s = .next (s.emit (.i3c ([Config.i3cDcr])))) ∧
  (∀ a, (s.i3cOn = false ∨ s.i3c.addr ≠ some a) → 
    exec (.getdcr a) s = .next (s)) ∧
  (∀ a, s.i3cOn = true → s.i3c.addr = some a → 
    exec (.getmrl a) s = .next (s.emit (.i3c ([0#8, 69#8])))) ∧
  (∀ a, (s.i3cOn = false ∨ s.i3c.addr ≠ some a) → 
    exec (.getmrl a) s = .next (s)) ∧
  (∀ a, s.i3cOn = true → s.i3c.addr = some a → 
    exec (.getmwl a) s = .next (s.emit (.i3c ([0#8, 69#8])))) ∧
  (∀ a, (s.i3cOn = false ∨ s.i3c.addr ≠ some a) → 
    exec (.getmwl a) s = .next (s)) ∧
  (∀ a, s.i3cOn = true → s.i3c.addr = some a → 
    ∃ t, exec (.getstatus a) s = .next t ∧ t.out = s.out ++ [.i3c (s.freeBytes 2)] ∧ t.i3c = s.i3c) ∧
  (∀ ev, s.i3cOn = true → ev.getLsbD 0 = true → 
    exec (.enec none ev) s = .next (s.modI3c fun x => { x with events := true })) ∧
  (∀ a ev, s.i3cOn = true → s.i3c.addr = some a → ev.getLsbD 0 = true → 
    exec (.enec (some a) ev) s = .next (s.modI3c fun x => { x with events := true })) ∧
  (∀ a ev, s.i3c.addr ≠ some a → 
    exec (.enec (some a) ev) s = .next (s)) ∧
  (∀ ev, s.i3cOn = true → ev.getLsbD 0 = true → 
    exec (.disec none ev) s = .next (s.modI3c fun x => { x with events := false })) ∧
  (∀ a ev, s.i3cOn = true → s.i3c.addr = some a → ev.getLsbD 0 = true → 
    exec (.disec (some a) ev) s = .next (s.modI3c fun x => { x with events := false })) ∧
  (∀ a ev, s.i3c.addr ≠ some a → 
    exec (.disec (some a) ev) s = .next (s)) ∧
  (s.i3cOn = true → 
    exec (.rstact) s = .next (s.modI3c fun _ => {})) ∧
  (∀ a bytes, s.i3cOn = true → s.i3c.addr = some a → bytes.length ≤ 69 → 
    exec (.i3cPrivateTransfer a true bytes) s = .next (s.modI3c fun x => { x with waiting := x.waiting - 1 })) ∧
  (∀ a bytes, s.i3cOn = true → s.i3c.addr = some a → bytes.length ≤ 69 → 
    exec (.i3cPrivateTransfer a false bytes) s = .next (s)))

/-- A frame that fails its CRC is counted and its copy aborted; a good one goes its way once more forwarded, unless
this device removes it or it has 64 hops, and a bridge injects it. A token gives the device its address in order, or
none where the segment is full; a child ring whose enumeration lies beyond 50 µs is given back; a lost A link takes
the address and silences the device. An authenticated frame that meets R455 raises the epoch, counts a report, gives
the planned alarm response or aligns the wall time; any other is counted. The member and leader sides of a join, the
leader's time and the expiry of a ceremony are as R454, R460 and R459 say. -/
def Obligations.UncelChain : Prop :=
  ∀ s : State,
  (∀ cmd b bytes, FrameCommand b bytes cmd → s.hears b = false → exec cmd s = .next s) ∧
  (∀ cmd b bytes, FrameCommand b bytes cmd → s.hears b = true → parseFrame bytes = none →
    let t := s.modUncel fun u => { u with crcFails := satAdd 0xFFFF u.crcFails 1 }
    exec cmd s = .next (if b = false ∧ s.uncel.silent = true then t else t.emit (.uncelAbort b bytes))) ∧
  (∀ b bytes, s.hears b = true → parseFrame bytes = none → 
    exec (.keepalive b bytes) s = .next (s.modUncel fun u => { u with crcFails := satAdd 0xFFFF u.crcFails 1 })) ∧
  (∀ b bytes f, parseFrame bytes = some f → 
    exec (.keepalive b bytes) s = .next (s)) ∧
  (∀ b f, s.injects b f = false →
    (s.removes b f = true → s.forward b f = s) ∧
    (s.removes b f = false → (b = true ∨ s.uncel.silent = false) → s.forward b f = s.transmit b { f with hops := f.hops + 1 })) ∧
  (∀ b f, s.injects b f = true → s.removes b f = true → s.forward b f = s.transmit (!b) { f with hops := 0 }) ∧
  (∀ b f, 64 ≤ f.hops → s.removes b f = true) ∧
  (∀ b bytes f, s.hears b = true → parseFrame bytes = some f → f.type = 0x10 → 0 < f.payload.length → f.payload.length ≤ 256 → 
    exec (.uncelMctpFrame b bytes) s = .next (s.forward b f)) ∧
  (∀ b bytes f, s.hears b = true → parseFrame bytes = some f → otherFrame f = true → 
    exec (.uncelOtherFrame b bytes) s = .next (s.forward b f)) ∧
  (∀ b bytes f, Arrives s b bytes f → f.type = 2 → f.payload = [] → 
    exec (.disown b bytes) s = .next ((s.forward b f).modUncel fun u => { u with addr := none, childOk := false, join := none })) ∧
  (∀ b bytes f, Arrives s b bytes f → f.type = 0x30 → f.payload.length = 6 → s.power.phase = .gateOpen → s.domainSlots = true → s.vault.aliasKey = true → s.heldGen < field f.payload 0 4 → 
    exec (.mkeyOffer b bytes) s = .next ((s.forward b f).startJoin (field f.payload 4 2 % 2048) (field f.payload 0 4))) ∧
  (Authentic s 0x20 32 .uncelEpochFrame fun f u =>
    let target := field f.inner 0 4
    let src := addrBits f.src
    let r := (u.modUncel fun y => { y with epochFrom := y.epochFrom ++ [(src, target)] }).loamPair gdEpoch (BitVec.ofNat 32 target) epochPair
    if r.2 = .applied then r.1
    else (r.1.modUncel fun y => { y with epochFrom := y.epochFrom.erase (src, target) }).reportEpoch src target
      (if r.2 = .epochOrder ∧ r.1.glb.epoch = target then 0 else r.2.code)) ∧
  (Authentic s 0x21 34 .epochDone fun f u =>
    if field f.inner 0 4 ≠ u.uncel.epTarget then u
    else u.modUncel fun y => if field f.inner 4 2 = 0 then { y with epDone := satAdd 0xFFFF y.epDone 1 }
      else { y with epRefused := satAdd 0xFFFF y.epRefused 1 }) ∧
  (Authentic s 0x40 32 .uncelTamperFrame fun f u => u.remoteTamper (field f.inner 0 2)) ∧
  (Authentic s 0x50 36 .uncelTimeFrame fun f u =>
    let time := field f.inner 0 8
    let y := u.modUncel fun z => { z with aligned := true }
    if timeDiffers time y.wallTime then
      let offset := BitVec.ofNat 64 time - BitVec.ofNat 64 y.rtc
      ((y.modHzn fun h => { h with offset := offset }).event .unc 32).log 0x7002 (leBytes 8 offset.toNat)
    else y) ∧
  (∀ time : Nat, time < 2 ^ 64 →
    (s.modHzn fun h => { h with offset := BitVec.ofNat 64 time - BitVec.ofNat 64 s.rtc }).wallTime = time) ∧
  (∀ bytes f, s.hears false = true → parseFrame bytes = some f → f.type = 1 → f.payload.length = 8 → 
    exec (.enumerate false bytes) s = .next (s.takeAddress (readToken f))) ∧
  (∀ t : Token, t.nextPos < 64 → 64 * t.seg + t.nextPos < 2047 →
    (s.takeAddress t).uncel.addr = some (64 * t.seg + t.nextPos) ∧ (s.takeAddress t).uncel.silent = false) ∧
  (∀ t : Token, (64 ≤ t.nextPos ∨ 2047 ≤ 64 * t.seg + t.nextPos) → (s.takeAddress t).uncel.addr = none) ∧
  (∀ t : Token, s.bridge = false → t.nextPos < 64 → 64 * t.seg + t.nextPos < 2047 →
    s.takeAddress t = (((s.modUncel fun u => { u with
      addr := some (64 * t.seg + t.nextPos), silent := false, lat := t.base + segmentTime (t.nextPos + 1) }).event .unc 1).passToken
        { t with nextPos := t.nextPos + 1 })) ∧
  (∀ bytes f, s.hears true = true → parseFrame bytes = some f → f.type = 1 → f.payload.length = 8 → (readToken f).seg = s.uncel.childSeg → 
    exec (.enumerate true bytes) s = .next (s.childToken (readToken f))) ∧
  (∀ t : Token, (s.childToken t).uncel.childOk = !decide (50000 < t.base + (10880 + 150 * t.nextPos)) ∧ (s.childToken t).uncel.token = none) ∧
  (∀ b, 
    exec (.keepaliveTimer b) s = .next (s.spend.transmit b ⟨s.freeBits 16 0, s.uncel.addr.getD 0x7FF, 0, 0, 0, []⟩)) ∧
  (s.uncel.linkA = true → 
    exec (.linkLossTimeout false) s = .next (((s.modUncel fun u => { u with
      linkA := false, addr := none, silent := true, join := none }).event .unc 2).logHealth 4 1)) ∧
  (s.uncel.linkB = true → 
    exec (.linkLossTimeout true) s = .next ((s.modUncel fun u => { u with linkB := false, join := none }).logHealth 4 2)) ∧
  (s.hears false = true → 
    exec (.uncelReceiverLinkUp false) s = .next (s.modUncel fun u => { u with linkA := true })) ∧
  (s.hears true = true → (s.uncel.addr = none ∨ s.uncel.childSeg = 0) → 
    exec (.uncelReceiverLinkUp true) s = .next (s.modUncel fun u => { u with linkB := true })) ∧
  (s.hears true = true → s.bridge = true → s.uncel.addr.isSome = true → s.uncel.childSeg ≠ 0 → 
    exec (.uncelReceiverLinkUp true) s = .next ((s.modUncel fun u => { u with linkB := true, childOk := false }).sendChildToken s.uncel.childSeg s.uncel.lat)) ∧
  (∀ a, s.tilth.uncel.timeAlign = true → s.uncel.addr = some a → s.power.phase = .gateOpen → s.tilth.uncel.timeLeader = some a → 
    exec (.timeLeaderTick) s = .next (s.tick.originateAuth (2 ^ 15) 0x50 (leBytes 8 s.tick.wallTime))) ∧
  (∀ a, s.tilth.uncel.timeAlign = true → s.uncel.addr = some a → s.power.phase = .gateOpen → s.tilth.uncel.timeLeader ≠ some a → 
    exec (.timeLeaderTick) s = .next (s)) ∧
  (
    exec (.alignmentTimeout) s = .next (s.modUncel fun u => { u with aligned := false })) ∧
  (∀ m ek chain owner signature secret, s.domainSecret s.uncel.gen = some secret → s.power.phase = .gateOpen → s.vault.aliasKey = true → s.joinParty chain owner (ek ++ chain ++ owner) signature = true → 
    exec (.uncJoinRequest m ek chain owner signature) s = .next (s.spend.emit (.join m (Config.joinAnswer s.free ek secret)))) ∧
  (∀ m ek chain owner signature secret, s.domainSecret s.uncel.gen = some secret → s.power.phase = .gateOpen → s.vault.aliasKey = true → s.joinParty chain owner (ek ++ chain ++ owner) signature = false → 
    exec (.uncJoinRequest m ek chain owner signature) s = .next (s)) ∧
  (∀ x answer chain owner signature secret, s.uncel.join = some x → s.power.phase = .gateOpen → Config.joinSecret x.dk answer = some secret → s.joinParty chain owner (answer ++ chain ++ owner) signature = true → s.domainSlots = true → s.heldGen < x.generation → 
    exec (.uncJoinResponse x.leader answer chain owner signature) s = .next ((s.modUncel fun u => { u with join := none }).newGeneration x.generation secret)) ∧
  (∀ x answer chain owner signature, s.uncel.join = some x → s.power.phase = .gateOpen → Config.joinSecret x.dk answer = none → 
    exec (.uncJoinResponse x.leader answer chain owner signature) s = .next (s.modUncel fun u => { u with join := none })) ∧
  (∀ gen secret, (s.newGeneration gen secret).uncel.gen = gen ∧ (s.newGeneration gen secret).uncel.genPrev = (if (s.domainSecret s.uncel.gen).isSome then s.uncel.gen else s.uncel.genPrev) ∧
    (s.newGeneration gen secret).uncel.join = none) ∧
  (∀ x, s.tick.uncel.ceremony = some x → dayTicks ≤ (s.tick.rtc + 2 ^ 48 - x.opened) % 2 ^ 48 → 
    exec (.ceremonyExpiry) s = .next ((s.tick.modUncel fun u => { u with ceremony := none }).logFree)) ∧
  (s.tick.uncel.ceremony = none → 
    exec (.ceremonyExpiry) s = .next (s.tick))

/-- With SEQ equal to bits 31:16 of the written value and no increment pending, every EVT bit is cleared and SEQ keeps
its value; with an increment pending, or with another value, nothing is cleared and GLB_ACK_MISS of the PF counts one
more, up to its largest value. -/
def Obligations.AcknowledgeWrites : Prop :=
  ∀ (s : State) (r : Requester) (reg : SqId) (value : W32),
  s.live r = true → s.heldPair r = none → s.sqVisible r reg = true →
    (sqBlock reg = none ∨ ∃ b, sqBlock reg = some b ∧ s.glb.linkDown = false ∧ (s.postedBlock b).busy = false) → 
    let x := s.sqReg reg
    (x.seq = value.extractLsb' 16 16 ∧ x.incPending = false →
      exec (.sqAcknowledge r reg value) s = .next (s.modSq reg fun y => { y with evt := 0 }) ∧
      (s.Sound → ((s.modSq reg fun y => { y with evt := 0 }).sqReg reg).evt = 0 ∧ ((s.modSq reg fun y => { y with evt := 0 }).sqReg reg).seq = x.seq)) ∧
    (x.seq ≠ value.extractLsb' 16 16 ∨ x.incPending = true →
      (∀ p, (r = .pf p ∨ ∃ n, r = .vf p n) → exec (.sqAcknowledge r reg value) s =
        .next (s.modPf p fun y => { y with ackMiss := min 0xFFFFFFFF (y.ackMiss + 1) })) ∧
      (∀ k, r = .loam k → exec (.sqAcknowledge r reg value) s = .next s))

/-- A pair applied to GLB_EPOCH_RAISE is refused with EPOCH_EXHAUSTED while GLB_EPOCH is 0xFFFF_FFFF, and with
EPOCH_ORDER where TARGET is not greater; otherwise GLB_EPOCH becomes TARGET, the log takes an entry with both epochs
and EPOCH_RAISED is set, and the roll-out over the beds follows. -/
def Obligations.EpochRaise : Prop :=
  ∀ (s : State) (value : W32),
  (s.glb.epoch = 0xFFFFFFFF → Applies s .glbEpochRaise gdEpoch value s .epochExhausted id) ∧
  (s.glb.epoch < 0xFFFFFFFF → value.toNat ≤ s.glb.epoch → Applies s .glbEpochRaise gdEpoch value s .epochOrder id) ∧
  (s.glb.epoch < 0xFFFFFFFF → s.glb.epoch < value.toNat →
    let raised := { s with glb := { s.glb with epoch := value.toNat, lastSettled := false } }
    let entered := (raised.log 0x1003 (leBytes 4 s.glb.epoch ++ leBytes 4 value.toNat)).glbEvent evEpochRaised
    let rolled := (List.range 64).foldl (fun t b =>
      if (t.bed b).state = .dormant ∨ (t.bed b).state = .entering then t.modBed b fun x => { x with wakeWanted := true, lapsed := true }
      else t.startApply b) (entered.vfEvent vfEpochRaised)
    Applies s .glbEpochRaise gdEpoch value rolled.settle .applied id ∧
    rolled.settle.glb.epoch = value.toNat ∧
    (∀ p ∈ entered.portList, (entered.sqReg (.glb p)).evt.getLsbD 1 = true))

/-- A step takes the command at the front and is what exec does with it on the queue's rest; on an empty queue the
device idles (the model's choice, log entry 4). -/
def Obligations.StepRunsFront : Prop :=
  ∀ s : State,
  (∀ c rest, s.pending = c :: rest → step s = exec c { s with pending := rest }) ∧
  (s.pending = [] → step s = .next s)

/-- From every state whose numbered tables list each number once and in rising order, a step of whichever of the 523
commands leads to such a state: no queue pair, job, grain, engine, slot, context, tenant or register stands twice.
That a state has this form is the model's own invariant. -/
def Obligations.StepKeepsSound : Prop :=
  ∀ s t : State, SafeStep s t

/-- At reset no command waits, every table is empty and sound, nothing is powered, the output gate is closed, no epoch
has been raised, every register of a grain and every event register reads 0, and no slot holds a key; the values that
the spec does not give are the model's choice (log entry 6). -/
def Obligations.ResetState : Prop :=
  State.reset.Sound ∧ State.reset.pending = [] ∧ State.reset.power.phase = .unpowered ∧ State.reset.power.topsoilUp = false ∧
  State.reset.boot.gateOpen = false ∧ State.reset.glb.epoch = 0 ∧ State.reset.jobs = [] ∧
  (∀ g r, (State.reset.grain g).x r = 0 ∧ (State.reset.grain g).f r = 0 ∧ (State.reset.grain g).state = .unowned) ∧
  (∀ g a, (State.reset.grain g).dm.get a 0 = 0) ∧ (∀ r, (State.reset.sqReg r).evt = 0 ∧ (State.reset.sqReg r).seq = 0) ∧
  (∀ k, (State.reset.slot k).secret = []) ∧ step State.reset = .next State.reset

/-- A scalar register, immediate, jump or branch instruction of a grain, which faults nowhere, changes nothing of the
device but this grain and the model's free counter, and of the grain only X(DST), CYCLE, INSTRET and the program
counter; X0 stays 0. A store of 8, 4, 2 or 1 bytes changes no byte of DM outside the bytes at its address, and no X
register. A load changes no byte of DM and no X register but its destination. -/
def Obligations.GrainFrames : Prop :=
  ∀ (s t : State) (g : Nat), s.Sound → HasAsked s g →
  (∀ i d, scalarDest i = some (g, d) → exec i s = .next t →
    { t with grains := s.grains, free := s.free } = s ∧ (∀ h, h ≠ g → t.grain h = s.grain h) ∧
    (∃ regs pc busy, t.grain g = { s.grain g with regs := regs, pc := pc, busy := busy } ∧
      (∃ x cycle instret, regs = { (s.grain g).regs with x := x, cycle := cycle, instret := instret }) ∧
      ∀ r, some (BitVec.ofNat 5 r) ≠ d ∨ r = 0 ∨ 32 ≤ r → (t.grain g).x r = (s.grain g).x r)) ∧
  (∀ cmd n d a imm, (cmd, n) ∈ [(Instr.sd, 8), (Instr.sw, 4), (Instr.sh, 2), (Instr.sb, 1)] →
    let ea := ((s.grain g).x a.toNat + imm.signExtend 64).toNat
    ea % n = 0 → canWrite ea n = true → exec (cmd g d a imm) s = .next t →
    (∀ b, b < ea ∨ ea + n ≤ b → (t.grain g).dm.get b 0 = (s.grain g).dm.get b 0) ∧ (∀ r, (t.grain g).x r = (s.grain g).x r) ∧
    (∀ h, h ≠ g → t.grain h = s.grain h) ∧ { t with grains := s.grains, free := s.free } = s) ∧
  (∀ cmd n d a imm, (cmd, n) ∈ [(Instr.ld, 8), (Instr.lw, 4), (Instr.lh, 2), (Instr.lb, 1)] →
    let ea := ((s.grain g).x a.toNat + imm.signExtend 64).toNat
    ea % n = 0 → canRead ea n = true → exec (cmd g d a imm false) s = .next t →
    (t.grain g).dm = (s.grain g).dm ∧ (∀ r, r ≠ d.toNat → (t.grain g).x r = (s.grain g).x r) ∧
    (∀ h, h ≠ g → t.grain h = s.grain h) ∧ { t with grains := s.grains, free := s.free } = s)

/-- Raising an event changes only the event register that takes it, pending vectors and messages; an entry of the log
changes only the log, the time, LOG_FULL and its events. No grain, engine, job, queue pair, tenant, key, hold or boot
state changes with either. -/
def Obligations.EventFrames : Prop :=
  ∀ s : State,
  (∀ r mask, { s.event r mask with sq := s.sq, funcs := s.funcs, out := s.out } = s) ∧
  (∀ r mask x, sqKey x ≠ sqKey r → (s.event r mask).sqReg x = s.sqReg x) ∧
  (∀ r mask, s.Sound → ((s.event r mask).sqReg r).evt = (s.sqReg r).evt ||| BitVec.ofNat 16 mask) ∧
  (∀ type data,
    { s.log type data with
      sq := s.sq, funcs := s.funcs, out := s.out, hzn := s.hzn, rtc := s.rtc, free := s.free, glb := s.glb } = s) ∧
  (∀ type data, { (s.log type data).glb with logFull := s.glb.logFull } = s.glb)

end
end

