-- ==== Sys2Proof/Laws/Grain.lean ====
section
/-!
SUPPORT. What the shared operations of grains and engines do: running an instruction, an access to an engine, an engine
command, and the checks that an instruction makes.
-/
namespace Sys2Proof.Machine

/-- Nothing happens unless the grain fetches the word. -/
theorem runGrain_none {s : State} {g : Nat} {w : W32} {f : GrainOp} (h : s.fetching g w = none) : s.runGrain g w f = s := by
  simp [State.runGrain, h]

/-- An instruction that has its effect retires. -/
theorem runGrain_ok {s : State} {g : Nat} {w : W32} {f : GrainOp} {j pc : Nat} {job : Job} {G' : Grain}
    (h : s.fetching g w = some (j, job)) (e : f (s.gctx g j job) (s.grain g) = .ok (G', pc)) :
    s.runGrain g w f = (s.spend.modGrain g fun _ => G'.retire (Config.cyclesTaken s.free) pc).askForGrain g := by
  simp [State.runGrain, h, e]

/-- An instruction without its effect ends as R109 says. -/
theorem runGrain_error {s : State} {g : Nat} {w : W32} {f : GrainOp} {j : Nat} {job : Job} {e : Stop}
    (h : s.fetching g w = some (j, job)) (k : f (s.gctx g j job) (s.grain g) = .error e) :
    s.runGrain g w f = s.stopGrain g j e := by
  simp [State.runGrain, h, k]

/-- Everything that running an instruction can do. -/
theorem runGrain_cases (s : State) (g : Nat) (w : W32) (f : GrainOp) :
    (s.fetching g w = none ∧ s.runGrain g w f = s) ∨
    (∃ j job G' pc, s.fetching g w = some (j, job) ∧ f (s.gctx g j job) (s.grain g) = .ok (G', pc) ∧
      s.runGrain g w f = (s.spend.modGrain g fun _ => G'.retire (Config.cyclesTaken s.free) pc).askForGrain g) ∨
    (∃ j job e, s.fetching g w = some (j, job) ∧ f (s.gctx g j job) (s.grain g) = .error e ∧
      s.runGrain g w f = s.stopGrain g j e) := by
  cases h : s.fetching g w with
  | none => exact .inl ⟨rfl, runGrain_none h⟩
  | some x =>
    obtain ⟨j, job⟩ := x
    cases k : f (s.gctx g j job) (s.grain g) with
    | error e => exact .inr (.inr ⟨j, job, e, rfl, k, runGrain_error h k⟩)
    | ok r =>
      obtain ⟨G', pc⟩ := r
      exact .inr (.inl ⟨j, job, G', pc, rfl, k, runGrain_ok h k⟩)

@[simp] theorem need_pos {p : Prop} [Decidable p] {c : Nat} (h : p) : need p c = .ok () := by simp [need, h]
@[simp] theorem need_neg {p : Prop} [Decidable p] {c : Nat} (h : ¬p) : need p c = .error (.fault c) := by simp [need, h]

/-- A load of readable, aligned bytes without a memory error. -/
theorem load_ok {G : Grain} {a n : Nat} (ha : a % n = 0) (hr : canRead a n = true) :
    G.load a n false = .ok (G.bytes a n) := by
  simp [Grain.load, ha, hr]

/-- A load that R123 refuses. -/
theorem load_bounds {G : Grain} {a n : Nat} {ecc : Bool} (h : a % n ≠ 0 ∨ canRead a n = false) :
    G.load a n ecc = .error (.fault causeDmBounds) := by
  simp only [Grain.load, if_pos h]

/-- A store of aligned bytes where the program may write. -/
theorem save_ok {G : Grain} {a : Nat} {bs : List Byte} (ha : a % bs.length = 0) (hw : canWrite a bs.length = true) :
    G.save a bs = .ok (G.store a bs) := by
  simp [Grain.save, ha, hw]

/-- A store that R123 refuses. -/
theorem save_bounds {G : Grain} {a : Nat} {bs : List Byte} (h : a % bs.length ≠ 0 ∨ canWrite a bs.length = false) :
    G.save a bs = .error (.fault causeDmBounds) := by
  simp only [Grain.save, if_pos h]

@[simp] theorem leBytes_length (n v : Nat) : (leBytes n v).length = n := by
  induction n generalizing v with
  | zero => rfl
  | succ n ih => simp [leBytes, ih]
@[simp] theorem beBytes_length (n v : Nat) : (beBytes n v).length = n := by simp [beBytes]

/-- A long-vector instruction that is legal and has elements to work on has its effect. -/
theorem lvInstr_ok {legal : GCtx → Grain → Bool} {eff : GCtx → Grain → Except Stop Grain} {c : GCtx} {G G' : Grain}
    (hl : legal c G = true) (hv : G.regs.vl * G.ew ≤ 8192) (h0 : G.regs.vl ≠ 0) (he : eff c G = .ok G') :
    lvInstr legal eff c G = .ok (G', G.next) := by
  simp [lvInstr, need, hl, hv, h0, he, bind, Except.bind]

/-- With VL = 0 a legal instruction changes nothing. -/
theorem lvInstr_zero {legal : GCtx → Grain → Bool} {eff : GCtx → Grain → Except Stop Grain} {c : GCtx} {G : Grain}
    (hl : legal c G = true) (h0 : G.regs.vl = 0) : lvInstr legal eff c G = .ok (G, G.next) := by
  simp [lvInstr, need, hl, h0, bind, Except.bind]

/-- A long-vector instruction that its checks refuse is ILLEGAL. -/
theorem lvInstr_illegal {legal : GCtx → Grain → Bool} {eff : GCtx → Grain → Except Stop Grain} {c : GCtx} {G : Grain}
    (h : legal c G = false ∨ 8192 < G.regs.vl * G.ew) : lvInstr legal eff c G = .error (.fault causeIllegal) := by
  have : ¬(legal c G = true ∧ G.regs.vl * G.ew ≤ 8192) := by
    rintro ⟨h1, h2⟩
    rcases h with h | h
    · simp [h] at h1
    · omega
  simp [lvInstr, need, this, bind, Except.bind]

/-- An access to an engine that the job may use now and that has its effect. -/
theorem runAccess_ok {s : State} {g j : Nat} {job : Job} {w : W32} {src2 : Reg}
    {f : Grain → Engine → Except Stop (Grain × Nat × Engine)} {G' : Grain} {pc : Nat} {e' : Engine}
    (h : s.fetching g w = some (j, job)) (ha : s.mayAccess g ((s.grain g).x src2.toNat).toNat j job = true)
    (ht : (s.engine ((s.grain g).x src2.toNat).toNat).state ≠ .test)
    (ho : (s.engine ((s.grain g).x src2.toNat).toNat).openTo j = true)
    (hf : f (s.grain g) ((s.engine ((s.grain g).x src2.toNat).toNat).heldBy j) = .ok (G', pc, e')) :
    s.runAccess g w src2 f = (s.spend.modGrain g fun _ => G'.retire (Config.cyclesTaken s.free) pc).modEngine
      ((s.grain g).x src2.toNat).toNat fun _ => e' := by
  simp [State.runAccess, h, ha, ht, ho, hf]

/-- An engine command that its program fetches and that is not bad. -/
theorem runEngine_ok {s : State} {n : Nat} {w : W64} {cycles : Engine → Nat} {f : EngineOp} {e' : Engine}
    (hr : (s.engine n).state = .running) (hp : (s.engine n).pc ≤ 511) (hw : (s.engine n).cmds.get (s.engine n).pc 0 = w)
    (hf : f { s.engine n with pc := (s.engine n).pc + 1 } = some e') :
    s.runEngine n w cycles f = s.modEngine n fun _ => { e' with busy := e'.busy + cycles (s.engine n) } := by
  unfold State.runEngine
  dsimp only
  rw [if_pos ⟨hr, hp, hw⟩]
  dsimp only at hf
  rw [hf]

/-- A command that the engine refuses is a bad command. -/
theorem runEngine_bad {s : State} {n : Nat} {w : W64} {cycles : Engine → Nat} {f : EngineOp}
    (hr : (s.engine n).state = .running) (hp : (s.engine n).pc ≤ 511) (hw : (s.engine n).cmds.get (s.engine n).pc 0 = w)
    (hf : f { s.engine n with pc := (s.engine n).pc + 1 } = none) : s.runEngine n w cycles f = s.badCommand n := by
  unfold State.runEngine
  dsimp only
  rw [if_pos ⟨hr, hp, hw⟩]
  dsimp only at hf
  rw [hf]

/-- Nothing happens unless the engine's program stands at the command. -/
theorem runEngine_idle {s : State} {n : Nat} {w : W64} {cycles : Engine → Nat} {f : EngineOp}
    (h : ¬((s.engine n).state = .running ∧ (s.engine n).pc ≤ 511 ∧ (s.engine n).cmds.get (s.engine n).pc 0 = w)) :
    s.runEngine n w cycles f = s := by
  simp only [State.runEngine, if_neg h]

end Sys2Proof.Machine
end

