-- ==== Sys2Proof/Laws/Map.lean ====
section
/-!
SUPPORT. Tables by number: what a read gives after each write, and the canonical form under every operation.
-/
namespace Sys2Proof.Machine

variable {α : Type}

@[simp] theorem Map.find?_nil (k : Nat) : Map.find? ([] : Map α) k = none := rfl

/-- The first key of a rising table is below every other key, so nothing is listed below it. -/
theorem Map.find?_of_lt {m : Map α} {j k : Nat} {v : α} (h : Map.rising ((j, v) :: m) = true) (hk : k < j) :
    Map.find? ((j, v) :: m) k = none := by
  induction m generalizing j v with
  | nil => simp [Map.find?]; omega
  | cons e m ih =>
    obtain ⟨i, w⟩ := e
    simp only [Map.rising, Bool.and_eq_true, decide_eq_true_eq] at h
    have : j ≠ k := by omega
    rw [Map.find?, if_neg this]
    exact ih h.2 (by omega)

/-- Every entry behind the first has a larger key. -/
theorem Map.rising_tail {m : Map α} {e : Nat × α} (h : Map.rising (e :: m) = true) : Map.rising m = true := by
  cases m with
  | nil => rfl
  | cons f m => simp only [Map.rising, Bool.and_eq_true] at h; exact h.2

/-- A table rises when its head lies below its rising tail's first key. -/
theorem Map.rising_cons {m : Map α} {j : Nat} {v : α} (h : Map.rising m = true)
    (hj : ∀ e ∈ m.head?, j < e.1) : Map.rising ((j, v) :: m) = true := by
  cases m with
  | nil => rfl
  | cons f m =>
    simp only [Map.rising, Bool.and_eq_true, decide_eq_true_eq]
    exact ⟨hj f (by simp), h⟩

theorem Map.head_lt {m : Map α} {j : Nat} {v : α} (h : Map.rising ((j, v) :: m) = true) : ∀ e ∈ m.head?, j < e.1 := by
  cases m with
  | nil => simp
  | cons f m =>
    simp only [Map.rising, Bool.and_eq_true, decide_eq_true_eq] at h
    simp [h.1]

/-- In a rising table every key behind the first is larger. -/
theorem Map.all_lt {m : Map α} {j : Nat} {v : α} (h : Map.rising ((j, v) :: m) = true) : ∀ e ∈ m, j < e.1 := by
  induction m generalizing j v with
  | nil => simp
  | cons f m ih =>
    obtain ⟨i, w⟩ := f
    simp only [Map.rising, Bool.and_eq_true, decide_eq_true_eq] at h
    intro e he
    rcases List.mem_cons.1 he with rfl | he
    · exact h.1
    · have := ih h.2 e he
      omega

theorem Map.insert_head (m : Map α) (k : Nat) (v : α) :
    ∀ e ∈ (Map.insert m k v).head?, e.1 = k ∨ ∃ f ∈ m.head?, e.1 = f.1 := by
  cases m with
  | nil => simp [Map.insert]
  | cons f m =>
    obtain ⟨j, w⟩ := f
    simp only [Map.insert]
    split
    · simp
    · split
      · simp
      · simp

/-- Listing a value keeps the keys rising. -/
theorem Map.rising_insert {m : Map α} (h : Map.rising m = true) (k : Nat) (v : α) :
    Map.rising (Map.insert m k v) = true := by
  induction m with
  | nil => rfl
  | cons f m ih =>
    obtain ⟨j, w⟩ := f
    simp only [Map.insert]
    split
    · exact Map.rising_cons h (by simp; omega)
    · split
      · rename_i hk
        subst hk
        exact Map.rising_cons (Map.rising_tail h) (Map.head_lt h)
      · refine Map.rising_cons (ih (Map.rising_tail h)) ?_
        intro e he
        rcases Map.insert_head m k v e he with hk | ⟨f, hf, hk⟩
        · omega
        · rw [hk]; exact Map.head_lt h f hf

/-- A part of a rising table, in its order, rises. -/
theorem Map.rising_sublist {m n : Map α} (h : Map.rising m = true) (hs : n.Sublist m) : Map.rising n = true := by
  induction hs with
  | slnil => rfl
  | cons e _ ih => exact ih (Map.rising_tail h)
  | @cons_cons l₁ l₂ e hs ih =>
    obtain ⟨j, v⟩ := e
    refine Map.rising_cons (ih (Map.rising_tail h)) fun e he => ?_
    exact Map.all_lt h e (hs.mem (List.mem_of_mem_head? he))

theorem Map.erase_sublist (m : Map α) (k : Nat) : (Map.erase m k).Sublist m := by
  induction m with
  | nil => exact List.Sublist.refl _
  | cons f m ih =>
    obtain ⟨j, w⟩ := f
    simp only [Map.erase]
    split
    · exact List.sublist_cons_self _ _
    · exact ih.cons_cons _

/-- Taking a key out keeps the keys rising. -/
theorem Map.rising_erase {m : Map α} (h : Map.rising m = true) (k : Nat) : Map.rising (Map.erase m k) = true :=
  Map.rising_sublist h (Map.erase_sublist m k)

/-- A part of the entries rises. -/
theorem Map.rising_filter {m : Map α} (h : Map.rising m = true) (p : Nat × α → Bool) :
    Map.rising (List.filter p m) = true :=
  Map.rising_sublist h List.filter_sublist

/-- Changing the values keeps the keys rising. -/
theorem Map.rising_map {β : Type} {m : Map α} (h : Map.rising m = true) (f : Nat × α → β) :
    Map.rising (m.map fun e => (e.1, f e)) = true := by
  induction m with
  | nil => rfl
  | cons e m ih =>
    refine Map.rising_cons (ih (Map.rising_tail h)) ?_
    cases m with
    | nil => simp
    | cons f m => simpa using Map.head_lt h f (by simp)

theorem Map.rising_mapVals {m : Map α} (h : Map.rising m = true) (f : Nat → α → α) :
    Map.rising (Map.mapVals m f) = true := Map.rising_map h fun e => f e.1 e.2

theorem Map.rising_set [DecidableEq α] {m : Map α} (h : Map.rising m = true) (k : Nat) (v d : α) :
    Map.rising (Map.set m k v d) = true := by
  unfold Map.set
  split
  · exact Map.rising_erase h k
  · exact Map.rising_insert h k v

theorem Map.rising_modify [DecidableEq α] {m : Map α} (h : Map.rising m = true) (k : Nat) (d : α) (f : α → α) :
    Map.rising (Map.modify m k d f) = true := Map.rising_set h k _ d

/-- A table made from a rising list of numbers rises. -/
theorem Map.rising_ofList {β : Type} {l : List β} {k : β → Nat} {f : β → α} (h : l.Pairwise fun a b => k a < k b) :
    Map.rising (l.map fun b => (k b, f b)) = true := by
  induction l with
  | nil => rfl
  | cons b l ih =>
    rw [List.pairwise_cons] at h
    refine Map.rising_cons (ih h.2) ?_
    cases l with
    | nil => simp
    | cons c l => simpa using h.1 c (by simp)

/-! Reads after writes. -/

/-- A listed value reads back. -/
@[simp] theorem Map.find?_insert_self (m : Map α) (k : Nat) (v : α) : Map.find? (Map.insert m k v) k = some v := by
  induction m with
  | nil => simp [Map.insert, Map.find?]
  | cons f m ih =>
    obtain ⟨j, w⟩ := f
    simp only [Map.insert]
    split
    · simp [Map.find?]
    · split
      · simp [Map.find?]
      · rw [Map.find?, if_neg (by omega)]; exact ih

/-- Listing a value leaves every other key alone. -/
theorem Map.find?_insert_ne {m : Map α} {k i : Nat} (v : α) (h : i ≠ k) :
    Map.find? (Map.insert m k v) i = Map.find? m i := by
  induction m with
  | nil => simp [Map.insert, Map.find?]; omega
  | cons f m ih =>
    obtain ⟨j, w⟩ := f
    simp only [Map.insert]
    split
    · rw [Map.find?, if_neg (by omega)]
    · split
      · rename_i hk
        subst hk
        simp only [Map.find?]
        rw [if_neg (by omega), if_neg (by omega)]
      · simp only [Map.find?, ih]

theorem Map.find?_erase_ne {m : Map α} {k i : Nat} (h : i ≠ k) : Map.find? (Map.erase m k) i = Map.find? m i := by
  induction m with
  | nil => rfl
  | cons f m ih =>
    obtain ⟨j, w⟩ := f
    simp only [Map.erase]
    split
    · rename_i hk
      subst hk
      rw [Map.find?, if_neg (by omega)]
    · simp only [Map.find?, ih]

theorem Map.find?_erase_self {m : Map α} (hm : Map.rising m = true) (k : Nat) : Map.find? (Map.erase m k) k = none := by
  induction m with
  | nil => rfl
  | cons f m ih =>
    obtain ⟨j, w⟩ := f
    simp only [Map.erase]
    split
    · rename_i hk
      subst hk
      cases m with
      | nil => rfl
      | cons e m =>
        exact Map.find?_of_lt (j := e.1) (v := e.2) (Map.rising_tail hm) (Map.head_lt hm e (by simp))
    · rename_i hk
      rw [Map.find?, if_neg hk]
      exact ih (Map.rising_tail hm)

/-- A write leaves every other key alone. -/
theorem Map.get_set_ne [DecidableEq α] {m : Map α} {k i : Nat} (v d : α) (h : i ≠ k) :
    Map.get (Map.set m k v d) i d = Map.get m i d := by
  unfold Map.get Map.set
  split
  · rw [Map.find?_erase_ne h]
  · rw [Map.find?_insert_ne v h]

/-- A write reads back. -/
theorem Map.get_set_self [DecidableEq α] {m : Map α} (hm : Map.rising m = true) (k : Nat) (v d : α) :
    Map.get (Map.set m k v d) k d = v := by
  unfold Map.get Map.set
  split
  · rename_i h
    rw [Map.find?_erase_self hm, h]; rfl
  · simp

theorem Map.get_modify_ne [DecidableEq α] {m : Map α} {k i : Nat} (d : α) (f : α → α) (h : i ≠ k) :
    Map.get (Map.modify m k d f) i d = Map.get m i d := Map.get_set_ne _ d h

theorem Map.get_modify_self [DecidableEq α] {m : Map α} (hm : Map.rising m = true) (k : Nat) (d : α) (f : α → α) :
    Map.get (Map.modify m k d f) k d = f (Map.get m k d) := Map.get_set_self hm k _ d

/-! The canonical form. -/

theorem Map.all_insert {m : Map α} {k : Nat} {v : α} {p : Nat × α → Bool} (h : m.all p = true) (hv : p (k, v) = true) :
    (Map.insert m k v).all p = true := by
  induction m with
  | nil => simpa [Map.insert] using hv
  | cons f m ih =>
    obtain ⟨j, w⟩ := f
    simp only [List.all_cons, Bool.and_eq_true] at h
    simp only [Map.insert]
    split
    · simp only [List.all_cons, Bool.and_eq_true]; exact ⟨hv, h⟩
    · split
      · simp only [List.all_cons, Bool.and_eq_true]; exact ⟨hv, h.2⟩
      · simp only [List.all_cons, Bool.and_eq_true]; exact ⟨h.1, ih h.2⟩

/-- A write keeps the canonical form. -/
theorem Map.wf_set [DecidableEq α] {m : Map α} {d : α} (h : Map.wf m d = true) (k : Nat) (v : α) :
    Map.wf (Map.set m k v d) d = true := by
  unfold Map.wf at *
  rw [Bool.and_eq_true] at *
  refine ⟨Map.rising_set h.1 k v d, ?_⟩
  unfold Map.set
  split
  · rw [List.all_eq_true] at *
    exact fun e he => h.2 e ((Map.erase_sublist m k).mem he)
  · exact Map.all_insert h.2 (by simpa)

/-- Storing bytes keeps the canonical form of a memory. -/
theorem Memory.put_wf {m : Memory} (h : Memory.wf m = true) (a : Nat) (bs : List Byte) :
    Memory.wf (Memory.put m a bs) = true := by
  induction bs generalizing m a with
  | nil => exact h
  | cons b bs ih => exact ih (Map.wf_set h a b) (a + 1)

/-- Storing bytes leaves every byte outside them alone. -/
theorem Memory.put_frame (m : Memory) (a : Nat) (bs : List Byte) (x : Nat) (h : x < a ∨ a + bs.length ≤ x) :
    Map.get (Memory.put m a bs) x 0 = Map.get m x 0 := by
  induction bs generalizing m a with
  | nil => rfl
  | cons b bs ih =>
    simp only [List.length_cons] at h
    simp only [Memory.put]
    rw [ih _ _ (by omega), Map.get_set_ne _ _ (by omega)]

end Sys2Proof.Machine
end

