-- ==== Sys2Proof/Laws/SoundBase.lean ====
section
/-!
SUPPORT. What keeps a state sound: updates that leave the tables alone, choices, folds, and the parts of a command's outcome.
-/
namespace Sys2Proof.Machine

/-- An outcome whose next state is sound. -/
def SoundResult (r : Result) : Prop := ∀ t, r = .next t → t.Sound

theorem sound_next {t : State} (h : t.Sound) : SoundResult (.next t) := by
  intro u e
  cases e
  exact h

theorem sound_ite {c : Prop} [Decidable c] {a b : State} (ha : a.Sound) (hb : b.Sound) : (if c then a else b).Sound := by
  split <;> assumption

theorem sound_ite_fst {β : Type} {c : Prop} [Decidable c] {a b : State × β} (ha : a.1.Sound) (hb : b.1.Sound) :
    (if c then a else b).1.Sound := by
  split <;> assumption

theorem sound_foldl {β : Type} {f : State → β → State} {l : List β} {s : State} (h : s.Sound)
    (hf : ∀ s x, s.Sound → (f s x).Sound) : (l.foldl f s).Sound := by
  induction l generalizing s with
  | nil => exact h
  | cons x l ih => exact ih (hf s x h)

/-- The state of a pair whose value is known. -/
theorem sound_of_pair {β : Type} {r : State × β} {s : State} {b : β} (e : r = (s, b)) (h : r.1.Sound) : s.Sound := by
  rw [e] at h
  exact h

/-- An update of anything but the tables. -/
theorem sound_upd {s : State} (h : s.Sound) {pending free out nextJob glb vault grade uid rtc power boot hzn rng life uncel
    spdm tamper pgd obs i3c} (hv1 : vault.slots = s.vault.slots) (hv2 : vault.ctxs = s.vault.ctxs)
    (hv3 : vault.shelf = s.vault.shelf) (hv4 : tamper.battCfg = s.tamper.battCfg) :
    State.Sound { s with
      pending := pending, free := free, out := out, nextJob := nextJob, glb := glb, vault := vault, grade := grade
      uid := uid, rtc := rtc, power := power, boot := boot, hzn := hzn, rng := rng, life := life, uncel := uncel
      spdm := spdm, tamper := tamper, pgd := pgd, obs := obs, i3c := i3c } where
  sq := h.sq
  glbPf := h.glbPf
  guard := h.guard
  posted := h.posted
  queues := h.queues
  jobs := h.jobs
  ports := h.ports
  funcs := h.funcs
  tenants := h.tenants
  beds := h.beds
  grains := h.grains
  quads := h.quads
  engines := h.engines
  slots := by rw [hv1]; exact h.slots
  ctxs := by rw [hv2]; exact h.ctxs
  shelf := by rw [hv3]; exact h.shelf
  digests := h.digests
  tamperCfg := h.tamperCfg
  battCfg := by rw [hv4]; exact h.battCfg

theorem sound_upd_guard {s : State} (h : s.Sound) {g nextJob boot} (hm : Map.rising g = true) :
    State.Sound { s with guard := g, nextJob := nextJob, boot := boot } := { h with guard := hm }

theorem sound_upd_posted {s : State} (h : s.Sound) {p nextJob boot} (hm : Map.rising p = true) :
    State.Sound { s with posted := p, nextJob := nextJob, boot := boot } := { h with posted := hm }

theorem sound_upd_engines {s : State} (h : s.Sound) {e nextJob boot} (hm : Map.rising e = true) :
    State.Sound { s with engines := e, nextJob := nextJob, boot := boot } := { h with engines := hm }

theorem sound_upd_grains {s : State} (h : s.Sound) {g} (hm : Map.rising g = true) :
    State.Sound { s with grains := g } := { h with grains := hm }

theorem sound_upd_jobs {s : State} (h : s.Sound) {j nextJob boot} (hm : Map.rising j = true) :
    State.Sound { s with jobs := j, nextJob := nextJob, boot := boot } := { h with jobs := hm }

theorem sound_upd_tenants {s : State} (h : s.Sound) {t nextJob boot} (hm : Map.rising t = true) :
    State.Sound { s with tenants := t, nextJob := nextJob, boot := boot } := { h with tenants := hm }

theorem sound_upd_tamperCfg {s : State} (h : s.Sound) {c nextJob boot} (hm : Map.rising c = true) :
    State.Sound { s with tamperCfg := c, nextJob := nextJob, boot := boot } := { h with tamperCfg := hm }

theorem sound_upd_vault {s : State} (h : s.Sound) {v : Vault} (h1 : v.slots.rising = true) (h2 : v.ctxs.rising = true)
    (h3 : v.shelf.rising = true) : State.Sound { s with vault := v } := { h with slots := h1, ctxs := h2, shelf := h3 }

theorem rising_nil {α : Type} : Map.rising ([] : Map α) = true := rfl

theorem rising_ite {α : Type} {c : Prop} [Decidable c] {a b : Map α} (ha : a.rising = true) (hb : b.rising = true) :
    (if c then a else b).rising = true := by
  split <;> assumption

end Sys2Proof.Machine
end

