-- ==== Sys2Proof/Laws/SoundA.lean ====
section
/-!
SUPPORT. What the functions of Machine/Ops, Guard, UncelOps, Jobs, Beds keep sound.
-/
namespace Sys2Proof.Machine

set_option linter.unusedTactic false
set_option linter.unreachableTactic false

theorem sound_emit {s : State} {o} (h : s.Sound) :
    (State.emit s o).Sound := by
  unfold State.emit
  try dsimp only
  repeat' first
    | with_reducible assumption
    | exact fun _ h1 h2 h3 => ⟨h1, h2, h3⟩
    | exact fun _ h1 => h1
    | (intro _; try dsimp only)
    | with_reducible apply sound_ite
    | with_reducible apply sound_ite_fst
    | with_reducible apply sound_foldl
    | fail_if_no_progress (with_reducible (apply sound_upd; rotate_left; iterate 4 rfl))
    | with_reducible refine sound_of_pair (by assumption) ?_
    | split

theorem sound_send {s : State} {v} {o} (h : s.Sound) :
    (State.send s v o).Sound := by
  unfold State.send
  try dsimp only
  repeat' first
    | with_reducible assumption
    | exact fun _ h1 h2 h3 => ⟨h1, h2, h3⟩
    | exact fun _ h1 => h1
    | (intro _; try dsimp only)
    | with_reducible apply sound_emit
    | with_reducible apply sound_ite
    | with_reducible apply sound_ite_fst
    | with_reducible apply sound_foldl
    | fail_if_no_progress (with_reducible (apply sound_upd; rotate_left; iterate 4 rfl))
    | with_reducible refine sound_of_pair (by assumption) ?_
    | split

theorem sound_spend {s : State} (h : s.Sound) :
    (State.spend s).Sound := by
  unfold State.spend
  try dsimp only
  repeat' first
    | with_reducible assumption
    | exact fun _ h1 h2 h3 => ⟨h1, h2, h3⟩
    | exact fun _ h1 => h1
    | (intro _; try dsimp only)
    | with_reducible apply sound_ite
    | with_reducible apply sound_ite_fst
    | with_reducible apply sound_foldl
    | fail_if_no_progress (with_reducible (apply sound_upd; rotate_left; iterate 4 rfl))
    | with_reducible refine sound_of_pair (by assumption) ?_
    | split

theorem sound_modQueue {s : State} {q} {f} (h : s.Sound) :
    (State.modQueue s q f).Sound := by
  unfold State.modQueue
  exact { h with
    queues := Map.rising_modify h.queues .. }
theorem sound_modFunc {s : State} {k} {f} (h : s.Sound) :
    (State.modFunc s k f).Sound := by
  unfold State.modFunc
  exact { h with
    funcs := Map.rising_modify h.funcs .. }
theorem sound_modPort {s : State} {p} {f} (h : s.Sound) :
    (State.modPort s p f).Sound := by
  unfold State.modPort
  exact { h with
    ports := Map.rising_modify h.ports .. }
theorem sound_modTenant {s : State} {t} {f} (h : s.Sound) :
    (State.modTenant s t f).Sound := by
  unfold State.modTenant
  exact { h with
    tenants := Map.rising_modify h.tenants .. }
theorem sound_modBed {s : State} {b} {f} (h : s.Sound) :
    (State.modBed s b f).Sound := by
  unfold State.modBed
  exact { h with
    beds := Map.rising_modify h.beds .. }
theorem sound_modGrain {s : State} {g} {f} (h : s.Sound) :
    (State.modGrain s g f).Sound := by
  unfold State.modGrain
  exact { h with
    grains := Map.rising_modify h.grains .. }
theorem sound_modQuad {s : State} {q} {f} (h : s.Sound) :
    (State.modQuad s q f).Sound := by
  unfold State.modQuad
  exact { h with
    quads := Map.rising_modify h.quads .. }
theorem sound_modEngine {s : State} {n} {f} (h : s.Sound) :
    (State.modEngine s n f).Sound := by
  unfold State.modEngine
  exact { h with
    engines := Map.rising_modify h.engines .. }
theorem sound_modPf {s : State} {p} {f} (h : s.Sound) :
    (State.modPf s p f).Sound := by
  unfold State.modPf
  exact { h with
    glbPf := Map.rising_modify h.glbPf .. }
theorem sound_modSlot {s : State} {k} {f} (h : s.Sound) :
    (State.modSlot s k f).Sound := by
  unfold State.modSlot
  exact { h with
    slots := Map.rising_modify h.slots .. }
theorem sound_modCtx {s : State} {c} {f} (h : s.Sound) :
    (State.modCtx s c f).Sound := by
  unfold State.modCtx
  exact { h with
    ctxs := Map.rising_modify h.ctxs .. }
theorem sound_modJob {s : State} {j} {f} (h : s.Sound) :
    (State.modJob s j f).Sound := by
  unfold State.modJob
  split
  · exact { h with jobs := Map.rising_insert h.jobs .. }
  · exact h
theorem sound_raiseVector {s : State} {p} {f} {v} (h : s.Sound) :
    (State.raiseVector s p f v).Sound := by
  unfold State.raiseVector
  try dsimp only
  repeat' first
    | with_reducible assumption
    | exact fun _ h1 h2 h3 => ⟨h1, h2, h3⟩
    | exact fun _ h1 => h1
    | (intro _; try dsimp only)
    | with_reducible apply sound_modFunc
    | with_reducible apply sound_emit
    | with_reducible apply sound_ite
    | with_reducible apply sound_ite_fst
    | with_reducible apply sound_foldl
    | fail_if_no_progress (with_reducible (apply sound_upd; rotate_left; iterate 4 rfl))
    | with_reducible refine sound_of_pair (by assumption) ?_
    | split

theorem sound_modSq {s : State} {r} {f} (h : s.Sound) :
    (State.modSq s r f).Sound := by
  unfold State.modSq
  exact { h with
    sq := Map.rising_modify h.sq .. }
theorem sound_event {s : State} {r} {mask} (h : s.Sound) :
    (State.event s r mask).Sound := by
  unfold State.event
  try dsimp only
  repeat' first
    | with_reducible assumption
    | exact fun _ h1 h2 h3 => ⟨h1, h2, h3⟩
    | exact fun _ h1 => h1
    | (intro _; try dsimp only)
    | with_reducible apply sound_modSq
    | with_reducible apply sound_raiseVector
    | with_reducible apply sound_ite
    | with_reducible apply sound_ite_fst
    | with_reducible apply sound_foldl
    | fail_if_no_progress (with_reducible (apply sound_upd; rotate_left; iterate 4 rfl))
    | with_reducible refine sound_of_pair (by assumption) ?_
    | split

theorem sound_glbEvent {s : State} {mask} (h : s.Sound) :
    (State.glbEvent s mask).Sound := by
  unfold State.glbEvent
  try dsimp only
  repeat' first
    | with_reducible assumption
    | exact fun _ h1 h2 h3 => ⟨h1, h2, h3⟩
    | exact fun _ h1 => h1
    | (intro _; try dsimp only)
    | with_reducible apply sound_event
    | with_reducible apply sound_ite
    | with_reducible apply sound_ite_fst
    | with_reducible apply sound_foldl
    | fail_if_no_progress (with_reducible (apply sound_upd; rotate_left; iterate 4 rfl))
    | with_reducible refine sound_of_pair (by assumption) ?_
    | split

theorem sound_vfEventOf {s : State} {t} {mask} (h : s.Sound) :
    (State.vfEventOf s t mask).Sound := by
  unfold State.vfEventOf
  try dsimp only
  repeat' first
    | with_reducible assumption
    | exact fun _ h1 h2 h3 => ⟨h1, h2, h3⟩
    | exact fun _ h1 => h1
    | (intro _; try dsimp only)
    | with_reducible apply sound_event
    | with_reducible apply sound_ite
    | with_reducible apply sound_ite_fst
    | with_reducible apply sound_foldl
    | fail_if_no_progress (with_reducible (apply sound_upd; rotate_left; iterate 4 rfl))
    | with_reducible refine sound_of_pair (by assumption) ?_
    | split

theorem sound_vfEvent {s : State} {mask} (h : s.Sound) :
    (State.vfEvent s mask).Sound := by
  unfold State.vfEvent
  try dsimp only
  repeat' first
    | with_reducible assumption
    | exact fun _ h1 h2 h3 => ⟨h1, h2, h3⟩
    | exact fun _ h1 => h1
    | (intro _; try dsimp only)
    | with_reducible apply sound_vfEventOf
    | with_reducible apply sound_ite
    | with_reducible apply sound_ite_fst
    | with_reducible apply sound_foldl
    | fail_if_no_progress (with_reducible (apply sound_upd; rotate_left; iterate 4 rfl))
    | with_reducible refine sound_of_pair (by assumption) ?_
    | split

theorem sound_dmaWrite {s : State} {p} {f} {addr} {data} {relaxed} (h : s.Sound) :
    (State.dmaWrite s p f addr data relaxed).Sound := by
  unfold State.dmaWrite
  try dsimp only
  repeat' first
    | with_reducible assumption
    | exact fun _ h1 h2 h3 => ⟨h1, h2, h3⟩
    | exact fun _ h1 => h1
    | (intro _; try dsimp only)
    | with_reducible apply sound_modFunc
    | with_reducible apply sound_emit
    | with_reducible apply sound_ite
    | with_reducible apply sound_ite_fst
    | with_reducible apply sound_foldl
    | fail_if_no_progress (with_reducible (apply sound_upd; rotate_left; iterate 4 rfl))
    | with_reducible refine sound_of_pair (by assumption) ?_
    | split

theorem sound_dmaScatter {s : State} {p} {f} {es} {data} (h : s.Sound) :
    (State.dmaScatter s p f es data).Sound := by
  unfold State.dmaScatter
  try dsimp only
  repeat' first
    | with_reducible assumption
    | exact fun _ h1 h2 h3 => ⟨h1, h2, h3⟩
    | exact fun _ h1 => h1
    | (intro _; try dsimp only)
    | with_reducible apply sound_dmaWrite
    | with_reducible apply sound_ite
    | with_reducible apply sound_ite_fst
    | with_reducible apply sound_foldl
    | fail_if_no_progress (with_reducible (apply sound_upd; rotate_left; iterate 4 rfl))
    | with_reducible refine sound_of_pair (by assumption) ?_
    | split

theorem sound_tick {s : State} (h : s.Sound) :
    (State.tick s).Sound := by
  unfold State.tick
  try dsimp only
  repeat' first
    | with_reducible assumption
    | exact fun _ h1 h2 h3 => ⟨h1, h2, h3⟩
    | exact fun _ h1 => h1
    | (intro _; try dsimp only)
    | with_reducible apply sound_spend
    | with_reducible apply sound_ite
    | with_reducible apply sound_ite_fst
    | with_reducible apply sound_foldl
    | fail_if_no_progress (with_reducible (apply sound_upd; rotate_left; iterate 4 rfl))
    | with_reducible refine sound_of_pair (by assumption) ?_
    | split

theorem sound_logWrite {s : State} {time} {type} {data} (h : s.Sound) :
    (State.logWrite s time type data).Sound := by
  unfold State.logWrite
  try dsimp only
  repeat' first
    | with_reducible assumption
    | exact fun _ h1 h2 h3 => ⟨h1, h2, h3⟩
    | exact fun _ h1 => h1
    | (intro _; try dsimp only)
    | with_reducible apply sound_event
    | with_reducible apply sound_glbEvent
    | with_reducible apply sound_ite
    | with_reducible apply sound_ite_fst
    | with_reducible apply sound_foldl
    | fail_if_no_progress (with_reducible (apply sound_upd; rotate_left; iterate 4 rfl))
    | with_reducible refine sound_of_pair (by assumption) ?_
    | split

theorem sound_logAt {s : State} {time} {type} {data} (h : s.Sound) :
    (State.logAt s time type data).Sound := by
  unfold State.logAt
  try dsimp only
  repeat' first
    | with_reducible assumption
    | exact fun _ h1 h2 h3 => ⟨h1, h2, h3⟩
    | exact fun _ h1 => h1
    | (intro _; try dsimp only)
    | with_reducible apply sound_logWrite
    | with_reducible apply sound_ite
    | with_reducible apply sound_ite_fst
    | with_reducible apply sound_foldl
    | fail_if_no_progress (with_reducible (apply sound_upd; rotate_left; iterate 4 rfl))
    | with_reducible refine sound_of_pair (by assumption) ?_
    | split

theorem sound_log {s : State} {type} {data} (h : s.Sound) :
    (State.log s type data).Sound := by
  unfold State.log
  try dsimp only
  repeat' first
    | with_reducible assumption
    | exact fun _ h1 h2 h3 => ⟨h1, h2, h3⟩
    | exact fun _ h1 => h1
    | (intro _; try dsimp only)
    | with_reducible apply sound_tick
    | with_reducible apply sound_logAt
    | with_reducible apply sound_ite
    | with_reducible apply sound_ite_fst
    | with_reducible apply sound_foldl
    | fail_if_no_progress (with_reducible (apply sound_upd; rotate_left; iterate 4 rfl))
    | with_reducible refine sound_of_pair (by assumption) ?_
    | split

theorem sound_logFree {s : State} (h : s.Sound) :
    (State.logFree s).Sound := by
  unfold State.logFree
  try dsimp only
  repeat' first
    | with_reducible assumption
    | exact fun _ h1 h2 h3 => ⟨h1, h2, h3⟩
    | exact fun _ h1 => h1
    | (intro _; try dsimp only)
    | with_reducible apply sound_log
    | with_reducible apply sound_spend
    | with_reducible apply sound_ite
    | with_reducible apply sound_ite_fst
    | with_reducible apply sound_foldl
    | fail_if_no_progress (with_reducible (apply sound_upd; rotate_left; iterate 4 rfl))
    | with_reducible refine sound_of_pair (by assumption) ?_
    | split

theorem sound_logLost {s : State} (h : s.Sound) :
    (State.logLost s).Sound := by
  unfold State.logLost
  try dsimp only
  repeat' first
    | with_reducible assumption
    | exact fun _ h1 h2 h3 => ⟨h1, h2, h3⟩
    | exact fun _ h1 => h1
    | (intro _; try dsimp only)
    | with_reducible apply sound_logWrite
    | with_reducible apply sound_ite
    | with_reducible apply sound_ite_fst
    | with_reducible apply sound_foldl
    | fail_if_no_progress (with_reducible (apply sound_upd; rotate_left; iterate 4 rfl))
    | with_reducible refine sound_of_pair (by assumption) ?_
    | split

theorem sound_logFlush {s : State} (h : s.Sound) :
    (State.logFlush s).Sound := by
  unfold State.logFlush
  try dsimp only
  repeat' first
    | with_reducible assumption
    | exact fun _ h1 h2 h3 => ⟨h1, h2, h3⟩
    | exact fun _ h1 => h1
    | (intro _; try dsimp only)
    | with_reducible apply sound_logLost
    | with_reducible apply sound_logWrite
    | with_reducible apply sound_ite
    | with_reducible apply sound_ite_fst
    | with_reducible apply sound_foldl
    | fail_if_no_progress (with_reducible (apply sound_upd; rotate_left; iterate 4 rfl))
    | with_reducible refine sound_of_pair (by assumption) ?_
    | split

theorem sound_logHealth {s : State} {ev} {unit} (h : s.Sound) :
    (State.logHealth s ev unit).Sound := by
  unfold State.logHealth
  try dsimp only
  repeat' first
    | with_reducible assumption
    | exact fun _ h1 h2 h3 => ⟨h1, h2, h3⟩
    | exact fun _ h1 => h1
    | (intro _; try dsimp only)
    | with_reducible apply sound_log
    | with_reducible apply sound_ite
    | with_reducible apply sound_ite_fst
    | with_reducible apply sound_foldl
    | fail_if_no_progress (with_reducible (apply sound_upd; rotate_left; iterate 4 rfl))
    | with_reducible refine sound_of_pair (by assumption) ?_
    | split

theorem sound_logKeyEvent {s : State} {ev} {slot} {cause} (h : s.Sound) :
    (State.logKeyEvent s ev slot cause).Sound := by
  unfold State.logKeyEvent
  try dsimp only
  repeat' first
    | with_reducible assumption
    | exact fun _ h1 h2 h3 => ⟨h1, h2, h3⟩
    | exact fun _ h1 => h1
    | (intro _; try dsimp only)
    | with_reducible apply sound_log
    | with_reducible apply sound_ite
    | with_reducible apply sound_ite_fst
    | with_reducible apply sound_foldl
    | fail_if_no_progress (with_reducible (apply sound_upd; rotate_left; iterate 4 rfl))
    | with_reducible refine sound_of_pair (by assumption) ?_
    | split

theorem sound_modPosted {s : State} {b} {f} (h : s.Sound) :
    (State.modPosted s b f).Sound := by
  unfold State.modPosted
  exact { h with
    posted := Map.rising_modify h.posted .. }
theorem sound_dropPosted {s : State} {b} (h : s.Sound) :
    (State.dropPosted s b).1.Sound := by
  unfold State.dropPosted
  try dsimp only
  repeat' first
    | with_reducible assumption
    | exact fun _ h1 h2 h3 => ⟨h1, h2, h3⟩
    | exact fun _ h1 => h1
    | (intro _; try dsimp only)
    | with_reducible apply sound_modPosted
    | with_reducible apply sound_ite
    | with_reducible apply sound_ite_fst
    | with_reducible apply sound_foldl
    | fail_if_no_progress (with_reducible (apply sound_upd; rotate_left; iterate 4 rfl))
    | with_reducible refine sound_of_pair (by assumption) ?_
    | split

theorem sound_logPair {s : State} {off} {code} {who} (h : s.Sound) :
    (State.logPair s off code who).Sound := by
  unfold State.logPair
  try dsimp only
  repeat' first
    | with_reducible assumption
    | exact fun _ h1 h2 h3 => ⟨h1, h2, h3⟩
    | exact fun _ h1 => h1
    | (intro _; try dsimp only)
    | with_reducible apply sound_log
    | with_reducible apply sound_ite
    | with_reducible apply sound_ite_fst
    | with_reducible apply sound_foldl
    | fail_if_no_progress (with_reducible (apply sound_upd; rotate_left; iterate 4 rfl))
    | with_reducible refine sound_of_pair (by assumption) ?_
    | split

theorem sound_judged {s : State} {r} {off} {res} (h : s.Sound) :
    (State.judged s r off res).Sound := by
  unfold State.judged
  try dsimp only
  repeat' first
    | with_reducible assumption
    | exact fun _ h1 h2 h3 => ⟨h1, h2, h3⟩
    | exact fun _ h1 => h1
    | (intro _; try dsimp only)
    | with_reducible apply sound_modPosted
    | with_reducible apply sound_logPair
    | with_reducible apply sound_modPf
    | with_reducible apply sound_event
    | with_reducible apply sound_ite
    | with_reducible apply sound_ite_fst
    | with_reducible apply sound_foldl
    | fail_if_no_progress (with_reducible (apply sound_upd; rotate_left; iterate 4 rfl))
    | with_reducible (apply sound_upd_guard; any_goals (first | apply Map.rising_insert | apply Map.rising_erase | apply Map.rising_modify | apply Map.rising_filter | apply Map.rising_mapVals | apply rising_ite))
    | with_reducible apply State.Sound.guard
    | with_reducible apply Map.rising_insert
    | with_reducible apply Map.rising_erase
    | with_reducible apply Map.rising_modify
    | with_reducible apply Map.rising_filter
    | with_reducible apply Map.rising_mapVals
    | with_reducible apply rising_ite
    | with_reducible refine sound_of_pair (by assumption) ?_
    | split

theorem sound_noteWrite {s : State} {r} (h : s.Sound) :
    (State.noteWrite s r).Sound := by
  unfold State.noteWrite
  try dsimp only
  repeat' first
    | with_reducible assumption
    | exact fun _ h1 h2 h3 => ⟨h1, h2, h3⟩
    | exact fun _ h1 => h1
    | (intro _; try dsimp only)
    | with_reducible apply sound_judged
    | with_reducible apply sound_ite
    | with_reducible apply sound_ite_fst
    | with_reducible apply sound_foldl
    | fail_if_no_progress (with_reducible (apply sound_upd; rotate_left; iterate 4 rfl))
    | with_reducible refine sound_of_pair (by assumption) ?_
    | split

theorem sound_useArming {s : State} {r} {off} (h : s.Sound) :
    (State.useArming s r off).1.Sound := by
  unfold State.useArming
  try dsimp only
  repeat' first
    | with_reducible assumption
    | exact fun _ h1 h2 h3 => ⟨h1, h2, h3⟩
    | exact fun _ h1 => h1
    | (intro _; try dsimp only)
    | with_reducible apply sound_modPf
    | with_reducible apply sound_ite
    | with_reducible apply sound_ite_fst
    | with_reducible apply sound_foldl
    | fail_if_no_progress (with_reducible (apply sound_upd; rotate_left; iterate 4 rfl))
    | with_reducible refine sound_of_pair (by assumption) ?_
    | split

theorem sound_execGuardFirstWrite {s : State} {r} {off} {value} (h : s.Sound) :
    SoundResult (execGuardFirstWrite r off value s) := by
  unfold execGuardFirstWrite
  try dsimp only
  apply sound_next
  repeat' first
    | with_reducible assumption
    | exact fun _ h1 h2 h3 => ⟨h1, h2, h3⟩
    | exact fun _ h1 => h1
    | (intro _; try dsimp only)
    | with_reducible apply sound_noteWrite
    | with_reducible apply sound_useArming
    | with_reducible apply sound_dropPosted
    | with_reducible apply sound_modPosted
    | with_reducible apply sound_ite
    | with_reducible apply sound_ite_fst
    | with_reducible apply sound_foldl
    | fail_if_no_progress (with_reducible (apply sound_upd; rotate_left; iterate 4 rfl))
    | with_reducible (apply sound_upd_guard; any_goals (first | apply Map.rising_insert | apply Map.rising_erase | apply Map.rising_modify | apply Map.rising_filter | apply Map.rising_mapVals | apply rising_ite))
    | with_reducible apply State.Sound.guard
    | with_reducible apply Map.rising_insert
    | with_reducible apply Map.rising_erase
    | with_reducible apply Map.rising_modify
    | with_reducible apply Map.rising_filter
    | with_reducible apply Map.rising_mapVals
    | with_reducible apply rising_ite
    | with_reducible refine sound_of_pair (by assumption) ?_
    | split

theorem sound_guardPair {s : State} {r} {regs} {shadow} {complement} {apply} (h : s.Sound) (happly : ∀ x0 x1 x2, x2.Sound → State.Sound (apply x0 x1 x2).1) :
    (State.guardPair s r regs shadow complement apply).Sound := by
  unfold State.guardPair
  try dsimp only
  repeat' first
    | with_reducible assumption
    | exact fun _ h1 h2 h3 => ⟨h1, h2, h3⟩
    | exact fun _ h1 => h1
    | (intro _; try dsimp only)
    | with_reducible apply sound_judged
    | with_reducible apply happly
    | with_reducible apply sound_ite
    | with_reducible apply sound_ite_fst
    | with_reducible apply sound_foldl
    | fail_if_no_progress (with_reducible (apply sound_upd; rotate_left; iterate 4 rfl))
    | with_reducible refine sound_of_pair (by assumption) ?_
    | split

theorem sound_loamPair {s : State} {off} {value} {apply} (h : s.Sound) (happly : ∀ x0 x1 x2, x2.Sound → State.Sound (apply x0 x1 x2).1) :
    (State.loamPair s off value apply).1.Sound := by
  unfold State.loamPair
  try dsimp only
  repeat' first
    | with_reducible assumption
    | exact fun _ h1 h2 h3 => ⟨h1, h2, h3⟩
    | exact fun _ h1 => h1
    | (intro _; try dsimp only)
    | with_reducible apply sound_logPair
    | with_reducible apply happly
    | with_reducible apply sound_ite
    | with_reducible apply sound_ite_fst
    | with_reducible apply sound_foldl
    | fail_if_no_progress (with_reducible (apply sound_upd; rotate_left; iterate 4 rfl))
    | with_reducible refine sound_of_pair (by assumption) ?_
    | split

theorem sound_execGuardPairTimeout {s : State} {r} (h : s.Sound) :
    SoundResult (execGuardPairTimeout r s) := by
  unfold execGuardPairTimeout
  try dsimp only
  apply sound_next
  repeat' first
    | with_reducible assumption
    | exact fun _ h1 h2 h3 => ⟨h1, h2, h3⟩
    | exact fun _ h1 => h1
    | (intro _; try dsimp only)
    | with_reducible apply sound_judged
    | with_reducible apply sound_ite
    | with_reducible apply sound_ite_fst
    | with_reducible apply sound_foldl
    | fail_if_no_progress (with_reducible (apply sound_upd; rotate_left; iterate 4 rfl))
    | with_reducible refine sound_of_pair (by assumption) ?_
    | split

theorem sound_armFor {s : State} {p} {off} (h : s.Sound) :
    (State.armFor s p off).Sound := by
  unfold State.armFor
  try dsimp only
  repeat' first
    | with_reducible assumption
    | exact fun _ h1 h2 h3 => ⟨h1, h2, h3⟩
    | exact fun _ h1 => h1
    | (intro _; try dsimp only)
    | with_reducible apply sound_modPf
    | with_reducible apply sound_ite
    | with_reducible apply sound_ite_fst
    | with_reducible apply sound_foldl
    | fail_if_no_progress (with_reducible (apply sound_upd; rotate_left; iterate 4 rfl))
    | with_reducible refine sound_of_pair (by assumption) ?_
    | split

theorem sound_execArmingLapse {s : State} {p} (h : s.Sound) :
    SoundResult (execArmingLapse p s) := by
  unfold execArmingLapse
  try dsimp only
  apply sound_next
  repeat' first
    | with_reducible assumption
    | exact fun _ h1 h2 h3 => ⟨h1, h2, h3⟩
    | exact fun _ h1 => h1
    | (intro _; try dsimp only)
    | with_reducible apply sound_modPf
    | with_reducible apply sound_ite
    | with_reducible apply sound_ite_fst
    | with_reducible apply sound_foldl
    | fail_if_no_progress (with_reducible (apply sound_upd; rotate_left; iterate 4 rfl))
    | with_reducible refine sound_of_pair (by assumption) ?_
    | split

theorem sound_ackMiss {s : State} {r} (h : s.Sound) :
    (State.ackMiss s r).Sound := by
  unfold State.ackMiss
  try dsimp only
  repeat' first
    | with_reducible assumption
    | exact fun _ h1 h2 h3 => ⟨h1, h2, h3⟩
    | exact fun _ h1 => h1
    | (intro _; try dsimp only)
    | with_reducible apply sound_modPf
    | with_reducible apply sound_ite
    | with_reducible apply sound_ite_fst
    | with_reducible apply sound_foldl
    | fail_if_no_progress (with_reducible (apply sound_upd; rotate_left; iterate 4 rfl))
    | with_reducible refine sound_of_pair (by assumption) ?_
    | split

theorem sound_acknowledge {s : State} {r} {reg} {value} (h : s.Sound) :
    (State.acknowledge s r reg value).Sound := by
  unfold State.acknowledge
  try dsimp only
  repeat' first
    | with_reducible assumption
    | exact fun _ h1 h2 h3 => ⟨h1, h2, h3⟩
    | exact fun _ h1 => h1
    | (intro _; try dsimp only)
    | with_reducible apply sound_modSq
    | with_reducible apply sound_ackMiss
    | with_reducible apply sound_ite
    | with_reducible apply sound_ite_fst
    | with_reducible apply sound_foldl
    | fail_if_no_progress (with_reducible (apply sound_upd; rotate_left; iterate 4 rfl))
    | with_reducible refine sound_of_pair (by assumption) ?_
    | split

theorem sound_execSqAcknowledge {s : State} {r} {reg} {value} (h : s.Sound) :
    SoundResult (execSqAcknowledge r reg value s) := by
  unfold execSqAcknowledge
  try dsimp only
  apply sound_next
  repeat' first
    | with_reducible assumption
    | exact fun _ h1 h2 h3 => ⟨h1, h2, h3⟩
    | exact fun _ h1 => h1
    | (intro _; try dsimp only)
    | with_reducible apply sound_noteWrite
    | with_reducible apply sound_dropPosted
    | with_reducible apply sound_acknowledge
    | with_reducible apply sound_ite
    | with_reducible apply sound_ite_fst
    | with_reducible apply sound_foldl
    | fail_if_no_progress (with_reducible (apply sound_upd; rotate_left; iterate 4 rfl))
    | with_reducible refine sound_of_pair (by assumption) ?_
    | split

theorem sound_execSqPendingIncrement {s : State} {reg} (h : s.Sound) :
    SoundResult (execSqPendingIncrement reg s) := by
  unfold execSqPendingIncrement
  try dsimp only
  apply sound_next
  repeat' first
    | with_reducible assumption
    | exact fun _ h1 h2 h3 => ⟨h1, h2, h3⟩
    | exact fun _ h1 => h1
    | (intro _; try dsimp only)
    | with_reducible apply sound_modSq
    | with_reducible apply sound_ite
    | with_reducible apply sound_ite_fst
    | with_reducible apply sound_foldl
    | fail_if_no_progress (with_reducible (apply sound_upd; rotate_left; iterate 4 rfl))
    | with_reducible refine sound_of_pair (by assumption) ?_
    | split

theorem sound_post {s : State} {p} {off} {value} (h : s.Sound) :
    (State.post s p off value).Sound := by
  unfold State.post
  try dsimp only
  repeat' first
    | with_reducible assumption
    | exact fun _ h1 h2 h3 => ⟨h1, h2, h3⟩
    | exact fun _ h1 => h1
    | (intro _; try dsimp only)
    | with_reducible apply sound_dropPosted
    | with_reducible apply sound_modPosted
    | with_reducible apply sound_ite
    | with_reducible apply sound_ite_fst
    | with_reducible apply sound_foldl
    | fail_if_no_progress (with_reducible (apply sound_upd; rotate_left; iterate 4 rfl))
    | with_reducible refine sound_of_pair (by assumption) ?_
    | split

theorem sound_execPostedWrite {s : State} {p} {off} {value} (h : s.Sound) :
    SoundResult (execPostedWrite p off value s) := by
  unfold execPostedWrite
  try dsimp only
  apply sound_next
  repeat' first
    | with_reducible assumption
    | exact fun _ h1 h2 h3 => ⟨h1, h2, h3⟩
    | exact fun _ h1 => h1
    | (intro _; try dsimp only)
    | with_reducible apply sound_noteWrite
    | with_reducible apply sound_post
    | with_reducible apply sound_ite
    | with_reducible apply sound_ite_fst
    | with_reducible apply sound_foldl
    | fail_if_no_progress (with_reducible (apply sound_upd; rotate_left; iterate 4 rfl))
    | with_reducible refine sound_of_pair (by assumption) ?_
    | split

theorem sound_modUncel {s : State} {f} (h : s.Sound) :
    (State.modUncel s f).Sound := by
  unfold State.modUncel
  try dsimp only
  repeat' first
    | with_reducible assumption
    | exact fun _ h1 h2 h3 => ⟨h1, h2, h3⟩
    | exact fun _ h1 => h1
    | (intro _; try dsimp only)
    | with_reducible apply sound_ite
    | with_reducible apply sound_ite_fst
    | with_reducible apply sound_foldl
    | fail_if_no_progress (with_reducible (apply sound_upd; rotate_left; iterate 4 rfl))
    | with_reducible refine sound_of_pair (by assumption) ?_
    | split

theorem sound_transmit {s : State} {b} {f} (h : s.Sound) :
    (State.transmit s b f).Sound := by
  unfold State.transmit
  try dsimp only
  repeat' first
    | with_reducible assumption
    | exact fun _ h1 h2 h3 => ⟨h1, h2, h3⟩
    | exact fun _ h1 => h1
    | (intro _; try dsimp only)
    | with_reducible apply sound_emit
    | with_reducible apply sound_ite
    | with_reducible apply sound_ite_fst
    | with_reducible apply sound_foldl
    | fail_if_no_progress (with_reducible (apply sound_upd; rotate_left; iterate 4 rfl))
    | with_reducible refine sound_of_pair (by assumption) ?_
    | split

theorem sound_originate {s : State} {dst} {type} {payload} (h : s.Sound) :
    (State.originate s dst type payload).Sound := by
  unfold State.originate
  try dsimp only
  repeat' first
    | with_reducible assumption
    | exact fun _ h1 h2 h3 => ⟨h1, h2, h3⟩
    | exact fun _ h1 => h1
    | (intro _; try dsimp only)
    | with_reducible apply sound_modUncel
    | with_reducible apply sound_transmit
    | with_reducible apply sound_ite
    | with_reducible apply sound_ite_fst
    | with_reducible apply sound_foldl
    | fail_if_no_progress (with_reducible (apply sound_upd; rotate_left; iterate 4 rfl))
    | with_reducible refine sound_of_pair (by assumption) ?_
    | split

theorem sound_originateAuth {s : State} {dst} {type} {body} (h : s.Sound) :
    (State.originateAuth s dst type body).Sound := by
  unfold State.originateAuth
  try dsimp only
  repeat' first
    | with_reducible assumption
    | exact fun _ h1 h2 h3 => ⟨h1, h2, h3⟩
    | exact fun _ h1 => h1
    | (intro _; try dsimp only)
    | with_reducible apply sound_tick
    | with_reducible apply sound_modUncel
    | with_reducible apply sound_originate
    | with_reducible apply sound_ite
    | with_reducible apply sound_ite_fst
    | with_reducible apply sound_foldl
    | fail_if_no_progress (with_reducible (apply sound_upd; rotate_left; iterate 4 rfl))
    | with_reducible refine sound_of_pair (by assumption) ?_
    | split

theorem sound_reportEpoch {s : State} {dst} {target} {result} (h : s.Sound) :
    (State.reportEpoch s dst target result).Sound := by
  unfold State.reportEpoch
  try dsimp only
  repeat' first
    | with_reducible assumption
    | exact fun _ h1 h2 h3 => ⟨h1, h2, h3⟩
    | exact fun _ h1 => h1
    | (intro _; try dsimp only)
    | with_reducible apply sound_originateAuth
    | with_reducible apply sound_ite
    | with_reducible apply sound_ite_fst
    | with_reducible apply sound_foldl
    | fail_if_no_progress (with_reducible (apply sound_upd; rotate_left; iterate 4 rfl))
    | with_reducible refine sound_of_pair (by assumption) ?_
    | split

theorem sound_stopPair {s : State} {q} {code} (h : s.Sound) :
    (State.stopPair s q code).Sound := by
  unfold State.stopPair
  try dsimp only
  repeat' first
    | with_reducible assumption
    | exact fun _ h1 h2 h3 => ⟨h1, h2, h3⟩
    | exact fun _ h1 => h1
    | (intro _; try dsimp only)
    | with_reducible apply sound_modQueue
    | with_reducible apply sound_event
    | with_reducible apply sound_spend
    | with_reducible apply sound_ite
    | with_reducible apply sound_ite_fst
    | with_reducible apply sound_foldl
    | fail_if_no_progress (with_reducible (apply sound_upd; rotate_left; iterate 4 rfl))
    | with_reducible refine sound_of_pair (by assumption) ?_
    | split

theorem sound_countCompletion {s : State} {q} {o} {irq} (h : s.Sound) :
    (State.countCompletion s q o irq).Sound := by
  unfold State.countCompletion
  try dsimp only
  repeat' first
    | with_reducible assumption
    | exact fun _ h1 h2 h3 => ⟨h1, h2, h3⟩
    | exact fun _ h1 => h1
    | (intro _; try dsimp only)
    | with_reducible apply sound_raiseVector
    | with_reducible apply sound_modQueue
    | with_reducible apply sound_ite
    | with_reducible apply sound_ite_fst
    | with_reducible apply sound_foldl
    | fail_if_no_progress (with_reducible (apply sound_upd; rotate_left; iterate 4 rfl))
    | with_reducible refine sound_of_pair (by assumption) ?_
    | split

theorem sound_writeCompletion {s : State} {o} {job} {epoch} {status} {out} (h : s.Sound) :
    (State.writeCompletion s o job epoch status out).Sound := by
  unfold State.writeCompletion
  try dsimp only
  repeat' first
    | with_reducible assumption
    | exact fun _ h1 h2 h3 => ⟨h1, h2, h3⟩
    | exact fun _ h1 => h1
    | (intro _; try dsimp only)
    | with_reducible apply sound_dmaWrite
    | with_reducible apply sound_modQueue
    | with_reducible apply sound_modFunc
    | with_reducible apply sound_countCompletion
    | with_reducible apply sound_ite
    | with_reducible apply sound_ite_fst
    | with_reducible apply sound_foldl
    | fail_if_no_progress (with_reducible (apply sound_upd; rotate_left; iterate 4 rfl))
    | with_reducible refine sound_of_pair (by assumption) ?_
    | split

theorem sound_releaseClaim {s : State} {job} (h : s.Sound) :
    (State.releaseClaim s job).Sound := by
  unfold State.releaseClaim
  try dsimp only
  repeat' first
    | with_reducible assumption
    | exact fun _ h1 h2 h3 => ⟨h1, h2, h3⟩
    | exact fun _ h1 => h1
    | (intro _; try dsimp only)
    | with_reducible apply sound_modSlot
    | with_reducible apply sound_ite
    | with_reducible apply sound_ite_fst
    | with_reducible apply sound_foldl
    | fail_if_no_progress (with_reducible (apply sound_upd; rotate_left; iterate 4 rfl))
    | with_reducible refine sound_of_pair (by assumption) ?_
    | split

theorem sound_commitCtx {s : State} {job} (h : s.Sound) :
    (State.commitCtx s job).Sound := by
  unfold State.commitCtx
  try dsimp only
  repeat' first
    | with_reducible assumption
    | exact fun _ h1 h2 h3 => ⟨h1, h2, h3⟩
    | exact fun _ h1 => h1
    | (intro _; try dsimp only)
    | with_reducible apply sound_modCtx
    | with_reducible apply sound_ite
    | with_reducible apply sound_ite_fst
    | with_reducible apply sound_foldl
    | fail_if_no_progress (with_reducible (apply sound_upd; rotate_left; iterate 4 rfl))
    | with_reducible refine sound_of_pair (by assumption) ?_
    | split

theorem sound_releaseCtx {s : State} {job} (h : s.Sound) :
    (State.releaseCtx s job).Sound := by
  unfold State.releaseCtx
  try dsimp only
  repeat' first
    | with_reducible assumption
    | exact fun _ h1 h2 h3 => ⟨h1, h2, h3⟩
    | exact fun _ h1 => h1
    | (intro _; try dsimp only)
    | with_reducible apply sound_modCtx
    | with_reducible apply sound_ite
    | with_reducible apply sound_ite_fst
    | with_reducible apply sound_foldl
    | fail_if_no_progress (with_reducible (apply sound_upd; rotate_left; iterate 4 rfl))
    | with_reducible refine sound_of_pair (by assumption) ?_
    | split

theorem sound_dropEngines {s : State} {j} (h : s.Sound) :
    (State.dropEngines s j).Sound := by
  unfold State.dropEngines
  try dsimp only
  repeat' first
    | with_reducible assumption
    | exact fun _ h1 h2 h3 => ⟨h1, h2, h3⟩
    | exact fun _ h1 => h1
    | (intro _; try dsimp only)
    | with_reducible apply sound_modEngine
    | with_reducible apply sound_event
    | with_reducible apply sound_ite
    | with_reducible apply sound_ite_fst
    | with_reducible apply sound_foldl
    | fail_if_no_progress (with_reducible (apply sound_upd; rotate_left; iterate 4 rfl))
    | with_reducible (apply sound_upd_engines; any_goals (first | apply Map.rising_insert | apply Map.rising_erase | apply Map.rising_modify | apply Map.rising_filter | apply Map.rising_mapVals | apply rising_ite))
    | with_reducible apply State.Sound.engines
    | with_reducible apply Map.rising_insert
    | with_reducible apply Map.rising_erase
    | with_reducible apply Map.rising_modify
    | with_reducible apply Map.rising_filter
    | with_reducible apply Map.rising_mapVals
    | with_reducible apply rising_ite
    | with_reducible refine sound_of_pair (by assumption) ?_
    | split

theorem sound_modCounters {s : State} {t} {f} (h : s.Sound) :
    (State.modCounters s t f).Sound := by
  unfold State.modCounters
  try dsimp only
  repeat' first
    | with_reducible assumption
    | exact fun _ h1 h2 h3 => ⟨h1, h2, h3⟩
    | exact fun _ h1 => h1
    | (intro _; try dsimp only)
    | with_reducible apply sound_ite
    | with_reducible apply sound_ite_fst
    | with_reducible apply sound_foldl
    | fail_if_no_progress (with_reducible (apply sound_upd; rotate_left; iterate 4 rfl))
    | with_reducible refine sound_of_pair (by assumption) ?_
    | split

theorem sound_countJob {s : State} {job} {status} {out} (h : s.Sound) :
    (State.countJob s job status out).Sound := by
  unfold State.countJob
  try dsimp only
  repeat' first
    | with_reducible assumption
    | exact fun _ h1 h2 h3 => ⟨h1, h2, h3⟩
    | exact fun _ h1 => h1
    | (intro _; try dsimp only)
    | with_reducible apply sound_modCounters
    | with_reducible apply sound_spend
    | with_reducible apply sound_ite
    | with_reducible apply sound_ite_fst
    | with_reducible apply sound_foldl
    | fail_if_no_progress (with_reducible (apply sound_upd; rotate_left; iterate 4 rfl))
    | with_reducible refine sound_of_pair (by assumption) ?_
    | split

theorem sound_complete {s : State} {j} {status} {ring} (h : s.Sound) :
    (State.complete s j status ring).Sound := by
  unfold State.complete
  try dsimp only
  repeat' first
    | with_reducible assumption
    | exact fun _ h1 h2 h3 => ⟨h1, h2, h3⟩
    | exact fun _ h1 => h1
    | (intro _; try dsimp only)
    | with_reducible apply sound_releaseClaim
    | with_reducible apply sound_releaseCtx
    | with_reducible apply sound_commitCtx
    | with_reducible apply sound_modQueue
    | with_reducible apply sound_writeCompletion
    | with_reducible apply sound_countJob
    | with_reducible apply sound_stopPair
    | with_reducible apply sound_ite
    | with_reducible apply sound_ite_fst
    | with_reducible apply sound_foldl
    | fail_if_no_progress (with_reducible (apply sound_upd; rotate_left; iterate 4 rfl))
    | with_reducible (apply sound_upd_jobs; any_goals (first | apply Map.rising_insert | apply Map.rising_erase | apply Map.rising_modify | apply Map.rising_filter | apply Map.rising_mapVals | apply rising_ite))
    | with_reducible apply State.Sound.jobs
    | with_reducible apply Map.rising_insert
    | with_reducible apply Map.rising_erase
    | with_reducible apply Map.rising_modify
    | with_reducible apply Map.rising_filter
    | with_reducible apply Map.rising_mapVals
    | with_reducible apply rising_ite
    | with_reducible refine sound_of_pair (by assumption) ?_
    | split

theorem sound_grainEvent {s : State} {g} {mask} (h : s.Sound) :
    (State.grainEvent s g mask).Sound := by
  unfold State.grainEvent
  try dsimp only
  repeat' first
    | with_reducible assumption
    | exact fun _ h1 h2 h3 => ⟨h1, h2, h3⟩
    | exact fun _ h1 => h1
    | (intro _; try dsimp only)
    | with_reducible apply sound_event
    | with_reducible apply sound_ite
    | with_reducible apply sound_ite_fst
    | with_reducible apply sound_foldl
    | fail_if_no_progress (with_reducible (apply sound_upd; rotate_left; iterate 4 rfl))
    | with_reducible refine sound_of_pair (by assumption) ?_
    | split

theorem sound_endEvents {s : State} {g} {job} {status} {detail} (h : s.Sound) :
    (State.endEvents s g job status detail).Sound := by
  unfold State.endEvents
  try dsimp only
  repeat' first
    | with_reducible assumption
    | exact fun _ h1 h2 h3 => ⟨h1, h2, h3⟩
    | exact fun _ h1 => h1
    | (intro _; try dsimp only)
    | with_reducible apply sound_grainEvent
    | with_reducible apply sound_logKeyEvent
    | with_reducible apply sound_ite
    | with_reducible apply sound_ite_fst
    | with_reducible apply sound_foldl
    | fail_if_no_progress (with_reducible (apply sound_upd; rotate_left; iterate 4 rfl))
    | with_reducible refine sound_of_pair (by assumption) ?_
    | split

theorem sound_zeroPushed {s : State} {job} (h : s.Sound) :
    (State.zeroPushed s job).Sound := by
  unfold State.zeroPushed
  try dsimp only
  repeat' first
    | with_reducible assumption
    | exact fun _ h1 h2 h3 => ⟨h1, h2, h3⟩
    | exact fun _ h1 => h1
    | (intro _; try dsimp only)
    | with_reducible apply sound_dmaScatter
    | with_reducible apply sound_ite
    | with_reducible apply sound_ite_fst
    | with_reducible apply sound_foldl
    | fail_if_no_progress (with_reducible (apply sound_upd; rotate_left; iterate 4 rfl))
    | with_reducible refine sound_of_pair (by assumption) ?_
    | split

theorem sound_endExecution {s : State} {j} {g} {status} {out} {detail} (h : s.Sound) :
    (State.endExecution s j g status out detail).Sound := by
  unfold State.endExecution
  try dsimp only
  repeat' first
    | with_reducible assumption
    | exact fun _ h1 h2 h3 => ⟨h1, h2, h3⟩
    | exact fun _ h1 => h1
    | (intro _; try dsimp only)
    | with_reducible apply sound_modJob
    | with_reducible apply sound_dropEngines
    | with_reducible apply sound_endEvents
    | with_reducible apply sound_zeroPushed
    | with_reducible apply sound_modGrain
    | with_reducible apply sound_complete
    | with_reducible apply sound_ite
    | with_reducible apply sound_ite_fst
    | with_reducible apply sound_foldl
    | fail_if_no_progress (with_reducible (apply sound_upd; rotate_left; iterate 4 rfl))
    | with_reducible refine sound_of_pair (by assumption) ?_
    | split

theorem sound_endDirect {s : State} {j} {status} {out} (h : s.Sound) :
    (State.endDirect s j status out).Sound := by
  unfold State.endDirect
  try dsimp only
  repeat' first
    | with_reducible assumption
    | exact fun _ h1 h2 h3 => ⟨h1, h2, h3⟩
    | exact fun _ h1 => h1
    | (intro _; try dsimp only)
    | with_reducible apply sound_complete
    | with_reducible apply sound_modJob
    | with_reducible apply sound_ite
    | with_reducible apply sound_ite_fst
    | with_reducible apply sound_foldl
    | fail_if_no_progress (with_reducible (apply sound_upd; rotate_left; iterate 4 rfl))
    | with_reducible refine sound_of_pair (by assumption) ?_
    | split

theorem sound_abortJob {s : State} {j} {status} (h : s.Sound) :
    (State.abortJob s j status).Sound := by
  unfold State.abortJob
  try dsimp only
  repeat' first
    | with_reducible assumption
    | exact fun _ h1 h2 h3 => ⟨h1, h2, h3⟩
    | exact fun _ h1 => h1
    | (intro _; try dsimp only)
    | with_reducible apply sound_complete
    | with_reducible apply sound_releaseClaim
    | with_reducible apply sound_dropEngines
    | with_reducible apply sound_modGrain
    | with_reducible apply sound_modJob
    | with_reducible apply sound_ite
    | with_reducible apply sound_ite_fst
    | with_reducible apply sound_foldl
    | fail_if_no_progress (with_reducible (apply sound_upd; rotate_left; iterate 4 rfl))
    | with_reducible refine sound_of_pair (by assumption) ?_
    | split

theorem sound_discardJob {s : State} {j} (h : s.Sound) :
    (State.discardJob s j).Sound := by
  unfold State.discardJob
  try dsimp only
  repeat' first
    | with_reducible assumption
    | exact fun _ h1 h2 h3 => ⟨h1, h2, h3⟩
    | exact fun _ h1 => h1
    | (intro _; try dsimp only)
    | with_reducible apply sound_releaseClaim
    | with_reducible apply sound_releaseCtx
    | with_reducible apply sound_dropEngines
    | with_reducible apply sound_modGrain
    | with_reducible apply sound_modQueue
    | with_reducible apply sound_modCounters
    | with_reducible apply sound_ite
    | with_reducible apply sound_ite_fst
    | with_reducible apply sound_foldl
    | fail_if_no_progress (with_reducible (apply sound_upd; rotate_left; iterate 4 rfl))
    | with_reducible (apply sound_upd_jobs; any_goals (first | apply Map.rising_insert | apply Map.rising_erase | apply Map.rising_modify | apply Map.rising_filter | apply Map.rising_mapVals | apply rising_ite))
    | with_reducible apply State.Sound.jobs
    | with_reducible apply Map.rising_insert
    | with_reducible apply Map.rising_erase
    | with_reducible apply Map.rising_modify
    | with_reducible apply Map.rising_filter
    | with_reducible apply Map.rising_mapVals
    | with_reducible apply rising_ite
    | with_reducible refine sound_of_pair (by assumption) ?_
    | split

theorem sound_requeueJob {s : State} {j} {faulted} (h : s.Sound) :
    (State.requeueJob s j faulted).Sound := by
  unfold State.requeueJob
  try dsimp only
  repeat' first
    | with_reducible assumption
    | exact fun _ h1 h2 h3 => ⟨h1, h2, h3⟩
    | exact fun _ h1 => h1
    | (intro _; try dsimp only)
    | with_reducible apply sound_releaseClaim
    | with_reducible apply sound_dropEngines
    | with_reducible apply sound_modGrain
    | with_reducible apply sound_modJob
    | with_reducible apply sound_ite
    | with_reducible apply sound_ite_fst
    | with_reducible apply sound_foldl
    | fail_if_no_progress (with_reducible (apply sound_upd; rotate_left; iterate 4 rfl))
    | with_reducible refine sound_of_pair (by assumption) ?_
    | split

theorem sound_retireGrain {s : State} {g} (h : s.Sound) :
    (State.retireGrain s g).Sound := by
  unfold State.retireGrain
  try dsimp only
  repeat' first
    | with_reducible assumption
    | exact fun _ h1 h2 h3 => ⟨h1, h2, h3⟩
    | exact fun _ h1 => h1
    | (intro _; try dsimp only)
    | with_reducible apply sound_modBed
    | with_reducible apply sound_modGrain
    | with_reducible apply sound_event
    | with_reducible apply sound_log
    | with_reducible apply sound_glbEvent
    | with_reducible apply sound_vfEventOf
    | with_reducible apply sound_ite
    | with_reducible apply sound_ite_fst
    | with_reducible apply sound_foldl
    | fail_if_no_progress (with_reducible (apply sound_upd; rotate_left; iterate 4 rfl))
    | with_reducible refine sound_of_pair (by assumption) ?_
    | split

theorem sound_machineCheck {s : State} {g} {cause} (h : s.Sound) :
    (State.machineCheck s g cause).Sound := by
  unfold State.machineCheck
  try dsimp only
  repeat' first
    | with_reducible assumption
    | exact fun _ h1 h2 h3 => ⟨h1, h2, h3⟩
    | exact fun _ h1 => h1
    | (intro _; try dsimp only)
    | with_reducible apply sound_modGrain
    | with_reducible apply sound_requeueJob
    | with_reducible apply sound_endExecution
    | with_reducible apply sound_grainEvent
    | with_reducible apply sound_tick
    | with_reducible apply sound_modBed
    | with_reducible apply sound_retireGrain
    | with_reducible apply sound_modQuad
    | with_reducible apply sound_ite
    | with_reducible apply sound_ite_fst
    | with_reducible apply sound_foldl
    | fail_if_no_progress (with_reducible (apply sound_upd; rotate_left; iterate 4 rfl))
    | with_reducible refine sound_of_pair (by assumption) ?_
    | split

theorem sound_logUnstaged {s : State} (h : s.Sound) :
    (State.logUnstaged s).Sound := by
  unfold State.logUnstaged
  try dsimp only
  repeat' first
    | with_reducible assumption
    | exact fun _ h1 h2 h3 => ⟨h1, h2, h3⟩
    | exact fun _ h1 => h1
    | (intro _; try dsimp only)
    | with_reducible apply sound_logFree
    | with_reducible apply sound_ite
    | with_reducible apply sound_ite_fst
    | with_reducible apply sound_foldl
    | fail_if_no_progress (with_reducible (apply sound_upd; rotate_left; iterate 4 rfl))
    | with_reducible refine sound_of_pair (by assumption) ?_
    | split

theorem sound_startApply {s : State} {b} (h : s.Sound) :
    (State.startApply s b).Sound := by
  unfold State.startApply
  try dsimp only
  repeat' first
    | with_reducible assumption
    | exact fun _ h1 h2 h3 => ⟨h1, h2, h3⟩
    | exact fun _ h1 => h1
    | (intro _; try dsimp only)
    | with_reducible apply sound_modBed
    | with_reducible apply sound_ite
    | with_reducible apply sound_ite_fst
    | with_reducible apply sound_foldl
    | fail_if_no_progress (with_reducible (apply sound_upd; rotate_left; iterate 4 rfl))
    | with_reducible refine sound_of_pair (by assumption) ?_
    | split

theorem sound_settle {s : State} (h : s.Sound) :
    (State.settle s).Sound := by
  unfold State.settle
  try dsimp only
  repeat' first
    | with_reducible assumption
    | exact fun _ h1 h2 h3 => ⟨h1, h2, h3⟩
    | exact fun _ h1 => h1
    | (intro _; try dsimp only)
    | with_reducible apply sound_glbEvent
    | with_reducible apply sound_modUncel
    | with_reducible apply sound_reportEpoch
    | with_reducible apply sound_ite
    | with_reducible apply sound_ite_fst
    | with_reducible apply sound_foldl
    | fail_if_no_progress (with_reducible (apply sound_upd; rotate_left; iterate 4 rfl))
    | with_reducible refine sound_of_pair (by assumption) ?_
    | split

theorem sound_raiseEpoch {s : State} {target} (h : s.Sound) :
    (State.raiseEpoch s target).1.Sound := by
  unfold State.raiseEpoch
  try dsimp only
  repeat' first
    | with_reducible assumption
    | exact fun _ h1 h2 h3 => ⟨h1, h2, h3⟩
    | exact fun _ h1 => h1
    | (intro _; try dsimp only)
    | with_reducible apply sound_glbEvent
    | with_reducible apply sound_log
    | with_reducible apply sound_vfEvent
    | with_reducible apply sound_modBed
    | with_reducible apply sound_startApply
    | with_reducible apply sound_settle
    | with_reducible apply sound_ite
    | with_reducible apply sound_ite_fst
    | with_reducible apply sound_foldl
    | fail_if_no_progress (with_reducible (apply sound_upd; rotate_left; iterate 4 rfl))
    | with_reducible refine sound_of_pair (by assumption) ?_
    | split

theorem sound_epochPair {s : State} {_off} {v} (h : s.Sound) :
    (epochPair _off v s).1.Sound := by
  unfold epochPair
  try dsimp only
  repeat' first
    | with_reducible assumption
    | exact fun _ h1 h2 h3 => ⟨h1, h2, h3⟩
    | exact fun _ h1 => h1
    | (intro _; try dsimp only)
    | with_reducible apply sound_raiseEpoch
    | with_reducible apply sound_ite
    | with_reducible apply sound_ite_fst
    | with_reducible apply sound_foldl
    | fail_if_no_progress (with_reducible (apply sound_upd; rotate_left; iterate 4 rfl))
    | with_reducible refine sound_of_pair (by assumption) ?_
    | split

theorem sound_execGlbEpochRaise {s : State} {r} {off} {complement} (h : s.Sound) :
    SoundResult (execGlbEpochRaise r off complement s) := by
  unfold execGlbEpochRaise
  try dsimp only
  apply sound_next
  repeat' first
    | with_reducible assumption
    | exact fun _ h1 h2 h3 => ⟨h1, h2, h3⟩
    | exact fun _ h1 => h1
    | (intro _; try dsimp only)
    | with_reducible apply sound_guardPair
    | with_reducible apply sound_epochPair
    | with_reducible apply sound_ite
    | with_reducible apply sound_ite_fst
    | with_reducible apply sound_foldl
    | fail_if_no_progress (with_reducible (apply sound_upd; rotate_left; iterate 4 rfl))
    | with_reducible refine sound_of_pair (by assumption) ?_
    | split

theorem sound_execBedApplyDone {s : State} {b} (h : s.Sound) :
    SoundResult (execBedApplyDone b s) := by
  unfold execBedApplyDone
  try dsimp only
  apply sound_next
  repeat' first
    | with_reducible assumption
    | exact fun _ h1 h2 h3 => ⟨h1, h2, h3⟩
    | exact fun _ h1 => h1
    | (intro _; try dsimp only)
    | with_reducible apply sound_startApply
    | with_reducible apply sound_modBed
    | with_reducible apply sound_settle
    | with_reducible apply sound_ite
    | with_reducible apply sound_ite_fst
    | with_reducible apply sound_foldl
    | fail_if_no_progress (with_reducible (apply sound_upd; rotate_left; iterate 4 rfl))
    | with_reducible refine sound_of_pair (by assumption) ?_
    | split

theorem sound_execBedGateOpen {s : State} {b} (h : s.Sound) :
    SoundResult (execBedGateOpen b s) := by
  unfold execBedGateOpen
  try dsimp only
  apply sound_next
  repeat' first
    | with_reducible assumption
    | exact fun _ h1 h2 h3 => ⟨h1, h2, h3⟩
    | exact fun _ h1 => h1
    | (intro _; try dsimp only)
    | with_reducible apply sound_modBed
    | with_reducible apply sound_modQuad
    | with_reducible apply sound_ite
    | with_reducible apply sound_ite_fst
    | with_reducible apply sound_foldl
    | fail_if_no_progress (with_reducible (apply sound_upd; rotate_left; iterate 4 rfl))
    | with_reducible refine sound_of_pair (by assumption) ?_
    | split

theorem sound_execBedWakeDone {s : State} {b} (h : s.Sound) :
    SoundResult (execBedWakeDone b s) := by
  unfold execBedWakeDone
  try dsimp only
  apply sound_next
  repeat' first
    | with_reducible assumption
    | exact fun _ h1 h2 h3 => ⟨h1, h2, h3⟩
    | exact fun _ h1 => h1
    | (intro _; try dsimp only)
    | with_reducible apply sound_startApply
    | with_reducible apply sound_modBed
    | with_reducible apply sound_ite
    | with_reducible apply sound_ite_fst
    | with_reducible apply sound_foldl
    | fail_if_no_progress (with_reducible (apply sound_upd; rotate_left; iterate 4 rfl))
    | with_reducible refine sound_of_pair (by assumption) ?_
    | split

theorem sound_execBedIdleTimeout {s : State} {b} (h : s.Sound) :
    SoundResult (execBedIdleTimeout b s) := by
  unfold execBedIdleTimeout
  try dsimp only
  apply sound_next
  repeat' first
    | with_reducible assumption
    | exact fun _ h1 h2 h3 => ⟨h1, h2, h3⟩
    | exact fun _ h1 => h1
    | (intro _; try dsimp only)
    | with_reducible apply sound_modBed
    | with_reducible apply sound_ite
    | with_reducible apply sound_ite_fst
    | with_reducible apply sound_foldl
    | fail_if_no_progress (with_reducible (apply sound_upd; rotate_left; iterate 4 rfl))
    | with_reducible refine sound_of_pair (by assumption) ?_
    | split

theorem sound_stopPll {s : State} {q} (h : s.Sound) :
    (State.stopPll s q).Sound := by
  unfold State.stopPll
  try dsimp only
  repeat' first
    | with_reducible assumption
    | exact fun _ h1 h2 h3 => ⟨h1, h2, h3⟩
    | exact fun _ h1 => h1
    | (intro _; try dsimp only)
    | with_reducible apply sound_modQuad
    | with_reducible apply sound_ite
    | with_reducible apply sound_ite_fst
    | with_reducible apply sound_foldl
    | fail_if_no_progress (with_reducible (apply sound_upd; rotate_left; iterate 4 rfl))
    | with_reducible refine sound_of_pair (by assumption) ?_
    | split

theorem sound_execBedDormantEntryDone {s : State} {b} (h : s.Sound) :
    SoundResult (execBedDormantEntryDone b s) := by
  unfold execBedDormantEntryDone
  try dsimp only
  apply sound_next
  repeat' first
    | with_reducible assumption
    | exact fun _ h1 h2 h3 => ⟨h1, h2, h3⟩
    | exact fun _ h1 => h1
    | (intro _; try dsimp only)
    | with_reducible apply sound_stopPll
    | with_reducible apply sound_modBed
    | with_reducible apply sound_ite
    | with_reducible apply sound_ite_fst
    | with_reducible apply sound_foldl
    | fail_if_no_progress (with_reducible (apply sound_upd; rotate_left; iterate 4 rfl))
    | with_reducible refine sound_of_pair (by assumption) ?_
    | split

end Sys2Proof.Machine
end

