-- ==== Sys2Proof/Laws/SoundB.lean ====
section
/-!
SUPPORT. What the functions of Machine/Seeds, Operands, GrainScalar keep sound.
-/
namespace Sys2Proof.Machine

set_option linter.unusedTactic false
set_option linter.unreachableTactic false

theorem sound_modRng {s : State} {f} (h : s.Sound) :
    (State.modRng s f).Sound := by
  unfold State.modRng
  try dsimp only
  repeat' first
    | with_reducible assumption
    | exact fun _ h1 h2 h3 => ⟨h1, h2, h3⟩
    | exact fun _ h1 => h1
    | (intro _; try dsimp only)
    | with_reducible apply sound_ite
    | with_reducible apply sound_ite_fst
    | with_reducible apply sound_foldl
    | fail_if_no_progress (with_reducible (apply sound_upd; rotate_left; iterate 4 rfl))
    | with_reducible refine sound_of_pair (by assumption) ?_
    | split

theorem sound_modDrbg {s : State} {p} {f} (h : s.Sound) :
    (State.modDrbg s p f).Sound := by
  unfold State.modDrbg
  try dsimp only
  repeat' first
    | with_reducible assumption
    | exact fun _ h1 h2 h3 => ⟨h1, h2, h3⟩
    | exact fun _ h1 => h1
    | (intro _; try dsimp only)
    | with_reducible apply sound_modRng
    | with_reducible apply sound_ite
    | with_reducible apply sound_ite_fst
    | with_reducible apply sound_foldl
    | fail_if_no_progress (with_reducible (apply sound_upd; rotate_left; iterate 4 rfl))
    | with_reducible refine sound_of_pair (by assumption) ?_
    | split

theorem sound_gather {s : State} {j} {seed} (h : s.Sound) :
    (State.gather s j seed).Sound := by
  unfold State.gather
  try dsimp only
  repeat' first
    | with_reducible assumption
    | exact fun _ h1 h2 h3 => ⟨h1, h2, h3⟩
    | exact fun _ h1 => h1
    | (intro _; try dsimp only)
    | with_reducible apply sound_endDirect
    | with_reducible apply sound_modRng
    | with_reducible apply sound_modJob
    | with_reducible apply sound_ite
    | with_reducible apply sound_ite_fst
    | with_reducible apply sound_foldl
    | fail_if_no_progress (with_reducible (apply sound_upd; rotate_left; iterate 4 rfl))
    | with_reducible refine sound_of_pair (by assumption) ?_
    | split

theorem sound_deliverSeeds {s : State} {r} {seeds} (h : s.Sound) :
    (State.deliverSeeds s r seeds).Sound := by
  unfold State.deliverSeeds
  try dsimp only
  repeat' first
    | with_reducible assumption
    | exact fun _ h1 h2 h3 => ⟨h1, h2, h3⟩
    | exact fun _ h1 => h1
    | (intro _; try dsimp only)
    | with_reducible apply sound_modGrain
    | with_reducible apply sound_modRng
    | with_reducible apply sound_modDrbg
    | with_reducible apply sound_gather
    | with_reducible apply sound_ite
    | with_reducible apply sound_ite_fst
    | with_reducible apply sound_foldl
    | fail_if_no_progress (with_reducible (apply sound_upd; rotate_left; iterate 4 rfl))
    | with_reducible refine sound_of_pair (by assumption) ?_
    | split

theorem sound_arbitrate {s : State} {n : Nat} (h : s.Sound) : (State.arbitrate n s).Sound := by
  induction n generalizing s with
  | zero => exact h
  | succ n ih =>
    unfold State.arbitrate
    split
    · exact h
    · dsimp only
      exact sound_ite h (ih (sound_deliverSeeds (sound_modRng h)))
theorem sound_serve {s : State} (h : s.Sound) :
    (State.serve s).Sound := by
  unfold State.serve
  try dsimp only
  repeat' first
    | with_reducible assumption
    | exact fun _ h1 h2 h3 => ⟨h1, h2, h3⟩
    | exact fun _ h1 => h1
    | (intro _; try dsimp only)
    | with_reducible apply sound_arbitrate
    | with_reducible apply sound_ite
    | with_reducible apply sound_ite_fst
    | with_reducible apply sound_foldl
    | fail_if_no_progress (with_reducible (apply sound_upd; rotate_left; iterate 4 rfl))
    | with_reducible refine sound_of_pair (by assumption) ?_
    | split

theorem sound_requestSeed {s : State} {r} (h : s.Sound) :
    (State.requestSeed s r).Sound := by
  unfold State.requestSeed
  try dsimp only
  repeat' first
    | with_reducible assumption
    | exact fun _ h1 h2 h3 => ⟨h1, h2, h3⟩
    | exact fun _ h1 => h1
    | (intro _; try dsimp only)
    | with_reducible apply sound_serve
    | with_reducible apply sound_modRng
    | with_reducible apply sound_ite
    | with_reducible apply sound_ite_fst
    | with_reducible apply sound_foldl
    | fail_if_no_progress (with_reducible (apply sound_upd; rotate_left; iterate 4 rfl))
    | with_reducible refine sound_of_pair (by assumption) ?_
    | split

theorem sound_takeSeed {s : State} (h : s.Sound) :
    (State.takeSeed s).1.Sound := by
  unfold State.takeSeed
  try dsimp only
  repeat' first
    | with_reducible assumption
    | exact fun _ h1 h2 h3 => ⟨h1, h2, h3⟩
    | exact fun _ h1 => h1
    | (intro _; try dsimp only)
    | with_reducible apply sound_modRng
    | with_reducible apply sound_spend
    | with_reducible apply sound_ite
    | with_reducible apply sound_ite_fst
    | with_reducible apply sound_foldl
    | fail_if_no_progress (with_reducible (apply sound_upd; rotate_left; iterate 4 rfl))
    | with_reducible refine sound_of_pair (by assumption) ?_
    | split

theorem sound_askForGrain {s : State} {g} (h : s.Sound) :
    (State.askForGrain s g).Sound := by
  unfold State.askForGrain
  try dsimp only
  repeat' first
    | with_reducible assumption
    | exact fun _ h1 h2 h3 => ⟨h1, h2, h3⟩
    | exact fun _ h1 => h1
    | (intro _; try dsimp only)
    | with_reducible apply sound_requestSeed
    | with_reducible apply sound_ite
    | with_reducible apply sound_ite_fst
    | with_reducible apply sound_foldl
    | fail_if_no_progress (with_reducible (apply sound_upd; rotate_left; iterate 4 rfl))
    | with_reducible refine sound_of_pair (by assumption) ?_
    | split

theorem sound_reserveDrbg {s : State} {p} {rs} (h : s.Sound) :
    (State.reserveDrbg s p rs).Sound := by
  unfold State.reserveDrbg
  try dsimp only
  repeat' first
    | with_reducible assumption
    | exact fun _ h1 h2 h3 => ⟨h1, h2, h3⟩
    | exact fun _ h1 => h1
    | (intro _; try dsimp only)
    | with_reducible apply sound_modDrbg
    | with_reducible apply sound_ite
    | with_reducible apply sound_ite_fst
    | with_reducible apply sound_foldl
    | fail_if_no_progress (with_reducible (apply sound_upd; rotate_left; iterate 4 rfl))
    | with_reducible refine sound_of_pair (by assumption) ?_
    | split

theorem sound_askForDrbg {s : State} {p} (h : s.Sound) :
    (State.askForDrbg s p).Sound := by
  unfold State.askForDrbg
  try dsimp only
  repeat' first
    | with_reducible assumption
    | exact fun _ h1 h2 h3 => ⟨h1, h2, h3⟩
    | exact fun _ h1 => h1
    | (intro _; try dsimp only)
    | with_reducible apply sound_requestSeed
    | with_reducible apply sound_ite
    | with_reducible apply sound_ite_fst
    | with_reducible apply sound_foldl
    | fail_if_no_progress (with_reducible (apply sound_upd; rotate_left; iterate 4 rfl))
    | with_reducible refine sound_of_pair (by assumption) ?_
    | split

theorem sound_drawPort {s : State} {q} {p} {n} (h : s.Sound) :
    (State.drawPort s q p n).1.Sound := by
  unfold State.drawPort
  try dsimp only
  repeat' first
    | with_reducible assumption
    | exact fun _ h1 h2 h3 => ⟨h1, h2, h3⟩
    | exact fun _ h1 => h1
    | (intro _; try dsimp only)
    | with_reducible apply sound_modRng
    | with_reducible apply sound_reserveDrbg
    | with_reducible apply sound_ite
    | with_reducible apply sound_ite_fst
    | with_reducible apply sound_foldl
    | fail_if_no_progress (with_reducible (apply sound_upd; rotate_left; iterate 4 rfl))
    | with_reducible refine sound_of_pair (by assumption) ?_
    | split

theorem sound_drawKeyPort {s t : State} {q n : Nat} (e : s.drawKeyPort q n = some t) (h : s.Sound) : t.Sound := by
  unfold State.drawKeyPort at e
  split at e
  · dsimp only at e
    cases e
    exact sound_ite (sound_requestSeed (sound_modRng h)) (sound_modRng h)
  · cases e
theorem sound_stopGrain {s : State} {g} {j} {e} (h : s.Sound) :
    (State.stopGrain s g j e).Sound := by
  unfold State.stopGrain
  try dsimp only
  repeat' first
    | with_reducible assumption
    | exact fun _ h1 h2 h3 => ⟨h1, h2, h3⟩
    | exact fun _ h1 => h1
    | (intro _; try dsimp only)
    | with_reducible apply sound_endExecution
    | with_reducible apply sound_machineCheck
    | with_reducible apply sound_modGrain
    | with_reducible apply sound_ite
    | with_reducible apply sound_ite_fst
    | with_reducible apply sound_foldl
    | fail_if_no_progress (with_reducible (apply sound_upd; rotate_left; iterate 4 rfl))
    | with_reducible refine sound_of_pair (by assumption) ?_
    | split

theorem sound_runGrain {s : State} {g} {w} {f} (h : s.Sound) :
    (State.runGrain s g w f).Sound := by
  unfold State.runGrain
  try dsimp only
  repeat' first
    | with_reducible assumption
    | exact fun _ h1 h2 h3 => ⟨h1, h2, h3⟩
    | exact fun _ h1 => h1
    | (intro _; try dsimp only)
    | with_reducible apply sound_askForGrain
    | with_reducible apply sound_modGrain
    | with_reducible apply sound_spend
    | with_reducible apply sound_stopGrain
    | with_reducible apply sound_ite
    | with_reducible apply sound_ite_fst
    | with_reducible apply sound_foldl
    | fail_if_no_progress (with_reducible (apply sound_upd; rotate_left; iterate 4 rfl))
    | with_reducible refine sound_of_pair (by assumption) ?_
    | split

theorem sound_execAdd {s : State} {g} {w} {dst} {src1} {src2} (h : s.Sound) :
    SoundResult (execAdd g w dst src1 src2 s) := by
  unfold execAdd
  try dsimp only
  apply sound_next
  repeat' first
    | with_reducible assumption
    | exact fun _ h1 h2 h3 => ⟨h1, h2, h3⟩
    | exact fun _ h1 => h1
    | (intro _; try dsimp only)
    | with_reducible apply sound_runGrain
    | with_reducible apply sound_ite
    | with_reducible apply sound_ite_fst
    | with_reducible apply sound_foldl
    | fail_if_no_progress (with_reducible (apply sound_upd; rotate_left; iterate 4 rfl))
    | with_reducible refine sound_of_pair (by assumption) ?_
    | split

theorem sound_execSub {s : State} {g} {w} {dst} {src1} {src2} (h : s.Sound) :
    SoundResult (execSub g w dst src1 src2 s) := by
  unfold execSub
  try dsimp only
  apply sound_next
  repeat' first
    | with_reducible assumption
    | exact fun _ h1 h2 h3 => ⟨h1, h2, h3⟩
    | exact fun _ h1 => h1
    | (intro _; try dsimp only)
    | with_reducible apply sound_runGrain
    | with_reducible apply sound_ite
    | with_reducible apply sound_ite_fst
    | with_reducible apply sound_foldl
    | fail_if_no_progress (with_reducible (apply sound_upd; rotate_left; iterate 4 rfl))
    | with_reducible refine sound_of_pair (by assumption) ?_
    | split

theorem sound_execAnd {s : State} {g} {dst} {src1} {src2} (h : s.Sound) :
    SoundResult (execAnd g dst src1 src2 s) := by
  unfold execAnd
  try dsimp only
  apply sound_next
  repeat' first
    | with_reducible assumption
    | exact fun _ h1 h2 h3 => ⟨h1, h2, h3⟩
    | exact fun _ h1 => h1
    | (intro _; try dsimp only)
    | with_reducible apply sound_runGrain
    | with_reducible apply sound_ite
    | with_reducible apply sound_ite_fst
    | with_reducible apply sound_foldl
    | fail_if_no_progress (with_reducible (apply sound_upd; rotate_left; iterate 4 rfl))
    | with_reducible refine sound_of_pair (by assumption) ?_
    | split

theorem sound_execOr {s : State} {g} {dst} {src1} {src2} (h : s.Sound) :
    SoundResult (execOr g dst src1 src2 s) := by
  unfold execOr
  try dsimp only
  apply sound_next
  repeat' first
    | with_reducible assumption
    | exact fun _ h1 h2 h3 => ⟨h1, h2, h3⟩
    | exact fun _ h1 => h1
    | (intro _; try dsimp only)
    | with_reducible apply sound_runGrain
    | with_reducible apply sound_ite
    | with_reducible apply sound_ite_fst
    | with_reducible apply sound_foldl
    | fail_if_no_progress (with_reducible (apply sound_upd; rotate_left; iterate 4 rfl))
    | with_reducible refine sound_of_pair (by assumption) ?_
    | split

theorem sound_execXor {s : State} {g} {dst} {src1} {src2} (h : s.Sound) :
    SoundResult (execXor g dst src1 src2 s) := by
  unfold execXor
  try dsimp only
  apply sound_next
  repeat' first
    | with_reducible assumption
    | exact fun _ h1 h2 h3 => ⟨h1, h2, h3⟩
    | exact fun _ h1 => h1
    | (intro _; try dsimp only)
    | with_reducible apply sound_runGrain
    | with_reducible apply sound_ite
    | with_reducible apply sound_ite_fst
    | with_reducible apply sound_foldl
    | fail_if_no_progress (with_reducible (apply sound_upd; rotate_left; iterate 4 rfl))
    | with_reducible refine sound_of_pair (by assumption) ?_
    | split

theorem sound_execAndn {s : State} {g} {dst} {src1} {src2} (h : s.Sound) :
    SoundResult (execAndn g dst src1 src2 s) := by
  unfold execAndn
  try dsimp only
  apply sound_next
  repeat' first
    | with_reducible assumption
    | exact fun _ h1 h2 h3 => ⟨h1, h2, h3⟩
    | exact fun _ h1 => h1
    | (intro _; try dsimp only)
    | with_reducible apply sound_runGrain
    | with_reducible apply sound_ite
    | with_reducible apply sound_ite_fst
    | with_reducible apply sound_foldl
    | fail_if_no_progress (with_reducible (apply sound_upd; rotate_left; iterate 4 rfl))
    | with_reducible refine sound_of_pair (by assumption) ?_
    | split

theorem sound_execSll {s : State} {g} {w} {dst} {src1} {src2} (h : s.Sound) :
    SoundResult (execSll g w dst src1 src2 s) := by
  unfold execSll
  try dsimp only
  apply sound_next
  repeat' first
    | with_reducible assumption
    | exact fun _ h1 h2 h3 => ⟨h1, h2, h3⟩
    | exact fun _ h1 => h1
    | (intro _; try dsimp only)
    | with_reducible apply sound_runGrain
    | with_reducible apply sound_ite
    | with_reducible apply sound_ite_fst
    | with_reducible apply sound_foldl
    | fail_if_no_progress (with_reducible (apply sound_upd; rotate_left; iterate 4 rfl))
    | with_reducible refine sound_of_pair (by assumption) ?_
    | split

theorem sound_execSrl {s : State} {g} {w} {dst} {src1} {src2} (h : s.Sound) :
    SoundResult (execSrl g w dst src1 src2 s) := by
  unfold execSrl
  try dsimp only
  apply sound_next
  repeat' first
    | with_reducible assumption
    | exact fun _ h1 h2 h3 => ⟨h1, h2, h3⟩
    | exact fun _ h1 => h1
    | (intro _; try dsimp only)
    | with_reducible apply sound_runGrain
    | with_reducible apply sound_ite
    | with_reducible apply sound_ite_fst
    | with_reducible apply sound_foldl
    | fail_if_no_progress (with_reducible (apply sound_upd; rotate_left; iterate 4 rfl))
    | with_reducible refine sound_of_pair (by assumption) ?_
    | split

theorem sound_execSra {s : State} {g} {w} {dst} {src1} {src2} (h : s.Sound) :
    SoundResult (execSra g w dst src1 src2 s) := by
  unfold execSra
  try dsimp only
  apply sound_next
  repeat' first
    | with_reducible assumption
    | exact fun _ h1 h2 h3 => ⟨h1, h2, h3⟩
    | exact fun _ h1 => h1
    | (intro _; try dsimp only)
    | with_reducible apply sound_runGrain
    | with_reducible apply sound_ite
    | with_reducible apply sound_ite_fst
    | with_reducible apply sound_foldl
    | fail_if_no_progress (with_reducible (apply sound_upd; rotate_left; iterate 4 rfl))
    | with_reducible refine sound_of_pair (by assumption) ?_
    | split

theorem sound_execRol {s : State} {g} {w} {dst} {src1} {src2} (h : s.Sound) :
    SoundResult (execRol g w dst src1 src2 s) := by
  unfold execRol
  try dsimp only
  apply sound_next
  repeat' first
    | with_reducible assumption
    | exact fun _ h1 h2 h3 => ⟨h1, h2, h3⟩
    | exact fun _ h1 => h1
    | (intro _; try dsimp only)
    | with_reducible apply sound_runGrain
    | with_reducible apply sound_ite
    | with_reducible apply sound_ite_fst
    | with_reducible apply sound_foldl
    | fail_if_no_progress (with_reducible (apply sound_upd; rotate_left; iterate 4 rfl))
    | with_reducible refine sound_of_pair (by assumption) ?_
    | split

theorem sound_execRor {s : State} {g} {w} {dst} {src1} {src2} (h : s.Sound) :
    SoundResult (execRor g w dst src1 src2 s) := by
  unfold execRor
  try dsimp only
  apply sound_next
  repeat' first
    | with_reducible assumption
    | exact fun _ h1 h2 h3 => ⟨h1, h2, h3⟩
    | exact fun _ h1 => h1
    | (intro _; try dsimp only)
    | with_reducible apply sound_runGrain
    | with_reducible apply sound_ite
    | with_reducible apply sound_ite_fst
    | with_reducible apply sound_foldl
    | fail_if_no_progress (with_reducible (apply sound_upd; rotate_left; iterate 4 rfl))
    | with_reducible refine sound_of_pair (by assumption) ?_
    | split

theorem sound_execSlt {s : State} {g} {dst} {src1} {src2} (h : s.Sound) :
    SoundResult (execSlt g dst src1 src2 s) := by
  unfold execSlt
  try dsimp only
  apply sound_next
  repeat' first
    | with_reducible assumption
    | exact fun _ h1 h2 h3 => ⟨h1, h2, h3⟩
    | exact fun _ h1 => h1
    | (intro _; try dsimp only)
    | with_reducible apply sound_runGrain
    | with_reducible apply sound_ite
    | with_reducible apply sound_ite_fst
    | with_reducible apply sound_foldl
    | fail_if_no_progress (with_reducible (apply sound_upd; rotate_left; iterate 4 rfl))
    | with_reducible refine sound_of_pair (by assumption) ?_
    | split

theorem sound_execSltu {s : State} {g} {dst} {src1} {src2} (h : s.Sound) :
    SoundResult (execSltu g dst src1 src2 s) := by
  unfold execSltu
  try dsimp only
  apply sound_next
  repeat' first
    | with_reducible assumption
    | exact fun _ h1 h2 h3 => ⟨h1, h2, h3⟩
    | exact fun _ h1 => h1
    | (intro _; try dsimp only)
    | with_reducible apply sound_runGrain
    | with_reducible apply sound_ite
    | with_reducible apply sound_ite_fst
    | with_reducible apply sound_foldl
    | fail_if_no_progress (with_reducible (apply sound_upd; rotate_left; iterate 4 rfl))
    | with_reducible refine sound_of_pair (by assumption) ?_
    | split

theorem sound_execCsel {s : State} {g} {dst} {src1} {src2} (h : s.Sound) :
    SoundResult (execCsel g dst src1 src2 s) := by
  unfold execCsel
  try dsimp only
  apply sound_next
  repeat' first
    | with_reducible assumption
    | exact fun _ h1 h2 h3 => ⟨h1, h2, h3⟩
    | exact fun _ h1 => h1
    | (intro _; try dsimp only)
    | with_reducible apply sound_runGrain
    | with_reducible apply sound_ite
    | with_reducible apply sound_ite_fst
    | with_reducible apply sound_foldl
    | fail_if_no_progress (with_reducible (apply sound_upd; rotate_left; iterate 4 rfl))
    | with_reducible refine sound_of_pair (by assumption) ?_
    | split

theorem sound_execMul {s : State} {g} {w} {dst} {src1} {src2} (h : s.Sound) :
    SoundResult (execMul g w dst src1 src2 s) := by
  unfold execMul
  try dsimp only
  apply sound_next
  repeat' first
    | with_reducible assumption
    | exact fun _ h1 h2 h3 => ⟨h1, h2, h3⟩
    | exact fun _ h1 => h1
    | (intro _; try dsimp only)
    | with_reducible apply sound_runGrain
    | with_reducible apply sound_ite
    | with_reducible apply sound_ite_fst
    | with_reducible apply sound_foldl
    | fail_if_no_progress (with_reducible (apply sound_upd; rotate_left; iterate 4 rfl))
    | with_reducible refine sound_of_pair (by assumption) ?_
    | split

theorem sound_execMulhu {s : State} {g} {dst} {src1} {src2} (h : s.Sound) :
    SoundResult (execMulhu g dst src1 src2 s) := by
  unfold execMulhu
  try dsimp only
  apply sound_next
  repeat' first
    | with_reducible assumption
    | exact fun _ h1 h2 h3 => ⟨h1, h2, h3⟩
    | exact fun _ h1 => h1
    | (intro _; try dsimp only)
    | with_reducible apply sound_runGrain
    | with_reducible apply sound_ite
    | with_reducible apply sound_ite_fst
    | with_reducible apply sound_foldl
    | fail_if_no_progress (with_reducible (apply sound_upd; rotate_left; iterate 4 rfl))
    | with_reducible refine sound_of_pair (by assumption) ?_
    | split

theorem sound_execMulh {s : State} {g} {dst} {src1} {src2} (h : s.Sound) :
    SoundResult (execMulh g dst src1 src2 s) := by
  unfold execMulh
  try dsimp only
  apply sound_next
  repeat' first
    | with_reducible assumption
    | exact fun _ h1 h2 h3 => ⟨h1, h2, h3⟩
    | exact fun _ h1 => h1
    | (intro _; try dsimp only)
    | with_reducible apply sound_runGrain
    | with_reducible apply sound_ite
    | with_reducible apply sound_ite_fst
    | with_reducible apply sound_foldl
    | fail_if_no_progress (with_reducible (apply sound_upd; rotate_left; iterate 4 rfl))
    | with_reducible refine sound_of_pair (by assumption) ?_
    | split

theorem sound_execDivu {s : State} {g} {w} {dst} {src1} {src2} (h : s.Sound) :
    SoundResult (execDivu g w dst src1 src2 s) := by
  unfold execDivu
  try dsimp only
  apply sound_next
  repeat' first
    | with_reducible assumption
    | exact fun _ h1 h2 h3 => ⟨h1, h2, h3⟩
    | exact fun _ h1 => h1
    | (intro _; try dsimp only)
    | with_reducible apply sound_runGrain
    | with_reducible apply sound_ite
    | with_reducible apply sound_ite_fst
    | with_reducible apply sound_foldl
    | fail_if_no_progress (with_reducible (apply sound_upd; rotate_left; iterate 4 rfl))
    | with_reducible refine sound_of_pair (by assumption) ?_
    | split

theorem sound_execRemu {s : State} {g} {w} {dst} {src1} {src2} (h : s.Sound) :
    SoundResult (execRemu g w dst src1 src2 s) := by
  unfold execRemu
  try dsimp only
  apply sound_next
  repeat' first
    | with_reducible assumption
    | exact fun _ h1 h2 h3 => ⟨h1, h2, h3⟩
    | exact fun _ h1 => h1
    | (intro _; try dsimp only)
    | with_reducible apply sound_runGrain
    | with_reducible apply sound_ite
    | with_reducible apply sound_ite_fst
    | with_reducible apply sound_foldl
    | fail_if_no_progress (with_reducible (apply sound_upd; rotate_left; iterate 4 rfl))
    | with_reducible refine sound_of_pair (by assumption) ?_
    | split

theorem sound_execSextb {s : State} {g} {dst} {src1} (h : s.Sound) :
    SoundResult (execSextb g dst src1 s) := by
  unfold execSextb
  try dsimp only
  apply sound_next
  repeat' first
    | with_reducible assumption
    | exact fun _ h1 h2 h3 => ⟨h1, h2, h3⟩
    | exact fun _ h1 => h1
    | (intro _; try dsimp only)
    | with_reducible apply sound_runGrain
    | with_reducible apply sound_ite
    | with_reducible apply sound_ite_fst
    | with_reducible apply sound_foldl
    | fail_if_no_progress (with_reducible (apply sound_upd; rotate_left; iterate 4 rfl))
    | with_reducible refine sound_of_pair (by assumption) ?_
    | split

theorem sound_execSexth {s : State} {g} {dst} {src1} (h : s.Sound) :
    SoundResult (execSexth g dst src1 s) := by
  unfold execSexth
  try dsimp only
  apply sound_next
  repeat' first
    | with_reducible assumption
    | exact fun _ h1 h2 h3 => ⟨h1, h2, h3⟩
    | exact fun _ h1 => h1
    | (intro _; try dsimp only)
    | with_reducible apply sound_runGrain
    | with_reducible apply sound_ite
    | with_reducible apply sound_ite_fst
    | with_reducible apply sound_foldl
    | fail_if_no_progress (with_reducible (apply sound_upd; rotate_left; iterate 4 rfl))
    | with_reducible refine sound_of_pair (by assumption) ?_
    | split

theorem sound_execSextw {s : State} {g} {dst} {src1} (h : s.Sound) :
    SoundResult (execSextw g dst src1 s) := by
  unfold execSextw
  try dsimp only
  apply sound_next
  repeat' first
    | with_reducible assumption
    | exact fun _ h1 h2 h3 => ⟨h1, h2, h3⟩
    | exact fun _ h1 => h1
    | (intro _; try dsimp only)
    | with_reducible apply sound_runGrain
    | with_reducible apply sound_ite
    | with_reducible apply sound_ite_fst
    | with_reducible apply sound_foldl
    | fail_if_no_progress (with_reducible (apply sound_upd; rotate_left; iterate 4 rfl))
    | with_reducible refine sound_of_pair (by assumption) ?_
    | split

theorem sound_execPopcnt {s : State} {g} {dst} {src1} (h : s.Sound) :
    SoundResult (execPopcnt g dst src1 s) := by
  unfold execPopcnt
  try dsimp only
  apply sound_next
  repeat' first
    | with_reducible assumption
    | exact fun _ h1 h2 h3 => ⟨h1, h2, h3⟩
    | exact fun _ h1 => h1
    | (intro _; try dsimp only)
    | with_reducible apply sound_runGrain
    | with_reducible apply sound_ite
    | with_reducible apply sound_ite_fst
    | with_reducible apply sound_foldl
    | fail_if_no_progress (with_reducible (apply sound_upd; rotate_left; iterate 4 rfl))
    | with_reducible refine sound_of_pair (by assumption) ?_
    | split

theorem sound_execClz {s : State} {g} {dst} {src1} (h : s.Sound) :
    SoundResult (execClz g dst src1 s) := by
  unfold execClz
  try dsimp only
  apply sound_next
  repeat' first
    | with_reducible assumption
    | exact fun _ h1 h2 h3 => ⟨h1, h2, h3⟩
    | exact fun _ h1 => h1
    | (intro _; try dsimp only)
    | with_reducible apply sound_runGrain
    | with_reducible apply sound_ite
    | with_reducible apply sound_ite_fst
    | with_reducible apply sound_foldl
    | fail_if_no_progress (with_reducible (apply sound_upd; rotate_left; iterate 4 rfl))
    | with_reducible refine sound_of_pair (by assumption) ?_
    | split

theorem sound_execJr {s : State} {g} {dst} {src1} (h : s.Sound) :
    SoundResult (execJr g dst src1 s) := by
  unfold execJr
  try dsimp only
  apply sound_next
  repeat' first
    | with_reducible assumption
    | exact fun _ h1 h2 h3 => ⟨h1, h2, h3⟩
    | exact fun _ h1 => h1
    | (intro _; try dsimp only)
    | with_reducible apply sound_runGrain
    | with_reducible apply sound_ite
    | with_reducible apply sound_ite_fst
    | with_reducible apply sound_foldl
    | fail_if_no_progress (with_reducible (apply sound_upd; rotate_left; iterate 4 rfl))
    | with_reducible refine sound_of_pair (by assumption) ?_
    | split

theorem sound_execJal {s : State} {g} {dst} {target} (h : s.Sound) :
    SoundResult (execJal g dst target s) := by
  unfold execJal
  try dsimp only
  apply sound_next
  repeat' first
    | with_reducible assumption
    | exact fun _ h1 h2 h3 => ⟨h1, h2, h3⟩
    | exact fun _ h1 => h1
    | (intro _; try dsimp only)
    | with_reducible apply sound_runGrain
    | with_reducible apply sound_ite
    | with_reducible apply sound_ite_fst
    | with_reducible apply sound_foldl
    | fail_if_no_progress (with_reducible (apply sound_upd; rotate_left; iterate 4 rfl))
    | with_reducible refine sound_of_pair (by assumption) ?_
    | split

theorem sound_execAddi {s : State} {g} {dst} {src1} {imm} (h : s.Sound) :
    SoundResult (execAddi g dst src1 imm s) := by
  unfold execAddi
  try dsimp only
  apply sound_next
  repeat' first
    | with_reducible assumption
    | exact fun _ h1 h2 h3 => ⟨h1, h2, h3⟩
    | exact fun _ h1 => h1
    | (intro _; try dsimp only)
    | with_reducible apply sound_runGrain
    | with_reducible apply sound_ite
    | with_reducible apply sound_ite_fst
    | with_reducible apply sound_foldl
    | fail_if_no_progress (with_reducible (apply sound_upd; rotate_left; iterate 4 rfl))
    | with_reducible refine sound_of_pair (by assumption) ?_
    | split

theorem sound_execAndi {s : State} {g} {dst} {src1} {imm} (h : s.Sound) :
    SoundResult (execAndi g dst src1 imm s) := by
  unfold execAndi
  try dsimp only
  apply sound_next
  repeat' first
    | with_reducible assumption
    | exact fun _ h1 h2 h3 => ⟨h1, h2, h3⟩
    | exact fun _ h1 => h1
    | (intro _; try dsimp only)
    | with_reducible apply sound_runGrain
    | with_reducible apply sound_ite
    | with_reducible apply sound_ite_fst
    | with_reducible apply sound_foldl
    | fail_if_no_progress (with_reducible (apply sound_upd; rotate_left; iterate 4 rfl))
    | with_reducible refine sound_of_pair (by assumption) ?_
    | split

theorem sound_execOri {s : State} {g} {dst} {src1} {imm} (h : s.Sound) :
    SoundResult (execOri g dst src1 imm s) := by
  unfold execOri
  try dsimp only
  apply sound_next
  repeat' first
    | with_reducible assumption
    | exact fun _ h1 h2 h3 => ⟨h1, h2, h3⟩
    | exact fun _ h1 => h1
    | (intro _; try dsimp only)
    | with_reducible apply sound_runGrain
    | with_reducible apply sound_ite
    | with_reducible apply sound_ite_fst
    | with_reducible apply sound_foldl
    | fail_if_no_progress (with_reducible (apply sound_upd; rotate_left; iterate 4 rfl))
    | with_reducible refine sound_of_pair (by assumption) ?_
    | split

theorem sound_execXori {s : State} {g} {dst} {src1} {imm} (h : s.Sound) :
    SoundResult (execXori g dst src1 imm s) := by
  unfold execXori
  try dsimp only
  apply sound_next
  repeat' first
    | with_reducible assumption
    | exact fun _ h1 h2 h3 => ⟨h1, h2, h3⟩
    | exact fun _ h1 => h1
    | (intro _; try dsimp only)
    | with_reducible apply sound_runGrain
    | with_reducible apply sound_ite
    | with_reducible apply sound_ite_fst
    | with_reducible apply sound_foldl
    | fail_if_no_progress (with_reducible (apply sound_upd; rotate_left; iterate 4 rfl))
    | with_reducible refine sound_of_pair (by assumption) ?_
    | split

theorem sound_execShi {s : State} {g} {dst} {src1} {kind} {w} {amount} (h : s.Sound) :
    SoundResult (execShi g dst src1 kind w amount s) := by
  unfold execShi
  try dsimp only
  apply sound_next
  repeat' first
    | with_reducible assumption
    | exact fun _ h1 h2 h3 => ⟨h1, h2, h3⟩
    | exact fun _ h1 => h1
    | (intro _; try dsimp only)
    | with_reducible apply sound_runGrain
    | with_reducible apply sound_ite
    | with_reducible apply sound_ite_fst
    | with_reducible apply sound_foldl
    | fail_if_no_progress (with_reducible (apply sound_upd; rotate_left; iterate 4 rfl))
    | with_reducible refine sound_of_pair (by assumption) ?_
    | split

theorem sound_execMovz {s : State} {g} {dst} {hw} {imm} (h : s.Sound) :
    SoundResult (execMovz g dst hw imm s) := by
  unfold execMovz
  try dsimp only
  apply sound_next
  repeat' first
    | with_reducible assumption
    | exact fun _ h1 h2 h3 => ⟨h1, h2, h3⟩
    | exact fun _ h1 => h1
    | (intro _; try dsimp only)
    | with_reducible apply sound_runGrain
    | with_reducible apply sound_ite
    | with_reducible apply sound_ite_fst
    | with_reducible apply sound_foldl
    | fail_if_no_progress (with_reducible (apply sound_upd; rotate_left; iterate 4 rfl))
    | with_reducible refine sound_of_pair (by assumption) ?_
    | split

theorem sound_execMovk {s : State} {g} {dst} {hw} {imm} (h : s.Sound) :
    SoundResult (execMovk g dst hw imm s) := by
  unfold execMovk
  try dsimp only
  apply sound_next
  repeat' first
    | with_reducible assumption
    | exact fun _ h1 h2 h3 => ⟨h1, h2, h3⟩
    | exact fun _ h1 => h1
    | (intro _; try dsimp only)
    | with_reducible apply sound_runGrain
    | with_reducible apply sound_ite
    | with_reducible apply sound_ite_fst
    | with_reducible apply sound_foldl
    | fail_if_no_progress (with_reducible (apply sound_upd; rotate_left; iterate 4 rfl))
    | with_reducible refine sound_of_pair (by assumption) ?_
    | split

theorem sound_execLd {s : State} {g} {dst} {src1} {imm} {ecc} (h : s.Sound) :
    SoundResult (execLd g dst src1 imm ecc s) := by
  unfold execLd
  try dsimp only
  apply sound_next
  repeat' first
    | with_reducible assumption
    | exact fun _ h1 h2 h3 => ⟨h1, h2, h3⟩
    | exact fun _ h1 => h1
    | (intro _; try dsimp only)
    | with_reducible apply sound_runGrain
    | with_reducible apply sound_ite
    | with_reducible apply sound_ite_fst
    | with_reducible apply sound_foldl
    | fail_if_no_progress (with_reducible (apply sound_upd; rotate_left; iterate 4 rfl))
    | with_reducible refine sound_of_pair (by assumption) ?_
    | split

theorem sound_execLw {s : State} {g} {dst} {src1} {imm} {ecc} (h : s.Sound) :
    SoundResult (execLw g dst src1 imm ecc s) := by
  unfold execLw
  try dsimp only
  apply sound_next
  repeat' first
    | with_reducible assumption
    | exact fun _ h1 h2 h3 => ⟨h1, h2, h3⟩
    | exact fun _ h1 => h1
    | (intro _; try dsimp only)
    | with_reducible apply sound_runGrain
    | with_reducible apply sound_ite
    | with_reducible apply sound_ite_fst
    | with_reducible apply sound_foldl
    | fail_if_no_progress (with_reducible (apply sound_upd; rotate_left; iterate 4 rfl))
    | with_reducible refine sound_of_pair (by assumption) ?_
    | split

theorem sound_execLh {s : State} {g} {dst} {src1} {imm} {ecc} (h : s.Sound) :
    SoundResult (execLh g dst src1 imm ecc s) := by
  unfold execLh
  try dsimp only
  apply sound_next
  repeat' first
    | with_reducible assumption
    | exact fun _ h1 h2 h3 => ⟨h1, h2, h3⟩
    | exact fun _ h1 => h1
    | (intro _; try dsimp only)
    | with_reducible apply sound_runGrain
    | with_reducible apply sound_ite
    | with_reducible apply sound_ite_fst
    | with_reducible apply sound_foldl
    | fail_if_no_progress (with_reducible (apply sound_upd; rotate_left; iterate 4 rfl))
    | with_reducible refine sound_of_pair (by assumption) ?_
    | split

theorem sound_execLb {s : State} {g} {dst} {src1} {imm} {ecc} (h : s.Sound) :
    SoundResult (execLb g dst src1 imm ecc s) := by
  unfold execLb
  try dsimp only
  apply sound_next
  repeat' first
    | with_reducible assumption
    | exact fun _ h1 h2 h3 => ⟨h1, h2, h3⟩
    | exact fun _ h1 => h1
    | (intro _; try dsimp only)
    | with_reducible apply sound_runGrain
    | with_reducible apply sound_ite
    | with_reducible apply sound_ite_fst
    | with_reducible apply sound_foldl
    | fail_if_no_progress (with_reducible (apply sound_upd; rotate_left; iterate 4 rfl))
    | with_reducible refine sound_of_pair (by assumption) ?_
    | split

theorem sound_execSd {s : State} {g} {data} {src1} {imm} (h : s.Sound) :
    SoundResult (execSd g data src1 imm s) := by
  unfold execSd
  try dsimp only
  apply sound_next
  repeat' first
    | with_reducible assumption
    | exact fun _ h1 h2 h3 => ⟨h1, h2, h3⟩
    | exact fun _ h1 => h1
    | (intro _; try dsimp only)
    | with_reducible apply sound_runGrain
    | with_reducible apply sound_ite
    | with_reducible apply sound_ite_fst
    | with_reducible apply sound_foldl
    | fail_if_no_progress (with_reducible (apply sound_upd; rotate_left; iterate 4 rfl))
    | with_reducible refine sound_of_pair (by assumption) ?_
    | split

theorem sound_execSw {s : State} {g} {data} {src1} {imm} (h : s.Sound) :
    SoundResult (execSw g data src1 imm s) := by
  unfold execSw
  try dsimp only
  apply sound_next
  repeat' first
    | with_reducible assumption
    | exact fun _ h1 h2 h3 => ⟨h1, h2, h3⟩
    | exact fun _ h1 => h1
    | (intro _; try dsimp only)
    | with_reducible apply sound_runGrain
    | with_reducible apply sound_ite
    | with_reducible apply sound_ite_fst
    | with_reducible apply sound_foldl
    | fail_if_no_progress (with_reducible (apply sound_upd; rotate_left; iterate 4 rfl))
    | with_reducible refine sound_of_pair (by assumption) ?_
    | split

theorem sound_execSh {s : State} {g} {data} {src1} {imm} (h : s.Sound) :
    SoundResult (execSh g data src1 imm s) := by
  unfold execSh
  try dsimp only
  apply sound_next
  repeat' first
    | with_reducible assumption
    | exact fun _ h1 h2 h3 => ⟨h1, h2, h3⟩
    | exact fun _ h1 => h1
    | (intro _; try dsimp only)
    | with_reducible apply sound_runGrain
    | with_reducible apply sound_ite
    | with_reducible apply sound_ite_fst
    | with_reducible apply sound_foldl
    | fail_if_no_progress (with_reducible (apply sound_upd; rotate_left; iterate 4 rfl))
    | with_reducible refine sound_of_pair (by assumption) ?_
    | split

theorem sound_execSb {s : State} {g} {data} {src1} {imm} (h : s.Sound) :
    SoundResult (execSb g data src1 imm s) := by
  unfold execSb
  try dsimp only
  apply sound_next
  repeat' first
    | with_reducible assumption
    | exact fun _ h1 h2 h3 => ⟨h1, h2, h3⟩
    | exact fun _ h1 => h1
    | (intro _; try dsimp only)
    | with_reducible apply sound_runGrain
    | with_reducible apply sound_ite
    | with_reducible apply sound_ite_fst
    | with_reducible apply sound_foldl
    | fail_if_no_progress (with_reducible (apply sound_upd; rotate_left; iterate 4 rfl))
    | with_reducible refine sound_of_pair (by assumption) ?_
    | split

theorem sound_execFld {s : State} {g} {dst} {src1} {imm} {ecc} (h : s.Sound) :
    SoundResult (execFld g dst src1 imm ecc s) := by
  unfold execFld
  try dsimp only
  apply sound_next
  repeat' first
    | with_reducible assumption
    | exact fun _ h1 h2 h3 => ⟨h1, h2, h3⟩
    | exact fun _ h1 => h1
    | (intro _; try dsimp only)
    | with_reducible apply sound_runGrain
    | with_reducible apply sound_ite
    | with_reducible apply sound_ite_fst
    | with_reducible apply sound_foldl
    | fail_if_no_progress (with_reducible (apply sound_upd; rotate_left; iterate 4 rfl))
    | with_reducible refine sound_of_pair (by assumption) ?_
    | split

theorem sound_execFsd {s : State} {g} {data} {src1} {imm} (h : s.Sound) :
    SoundResult (execFsd g data src1 imm s) := by
  unfold execFsd
  try dsimp only
  apply sound_next
  repeat' first
    | with_reducible assumption
    | exact fun _ h1 h2 h3 => ⟨h1, h2, h3⟩
    | exact fun _ h1 => h1
    | (intro _; try dsimp only)
    | with_reducible apply sound_runGrain
    | with_reducible apply sound_ite
    | with_reducible apply sound_ite_fst
    | with_reducible apply sound_foldl
    | fail_if_no_progress (with_reducible (apply sound_upd; rotate_left; iterate 4 rfl))
    | with_reducible refine sound_of_pair (by assumption) ?_
    | split

theorem sound_execSld {s : State} {g} {dst} {src1} {imm} {ecc} (h : s.Sound) :
    SoundResult (execSld g dst src1 imm ecc s) := by
  unfold execSld
  try dsimp only
  apply sound_next
  repeat' first
    | with_reducible assumption
    | exact fun _ h1 h2 h3 => ⟨h1, h2, h3⟩
    | exact fun _ h1 => h1
    | (intro _; try dsimp only)
    | with_reducible apply sound_runGrain
    | with_reducible apply sound_ite
    | with_reducible apply sound_ite_fst
    | with_reducible apply sound_foldl
    | fail_if_no_progress (with_reducible (apply sound_upd; rotate_left; iterate 4 rfl))
    | with_reducible refine sound_of_pair (by assumption) ?_
    | split

theorem sound_execSst {s : State} {g} {data} {src1} {imm} (h : s.Sound) :
    SoundResult (execSst g data src1 imm s) := by
  unfold execSst
  try dsimp only
  apply sound_next
  repeat' first
    | with_reducible assumption
    | exact fun _ h1 h2 h3 => ⟨h1, h2, h3⟩
    | exact fun _ h1 => h1
    | (intro _; try dsimp only)
    | with_reducible apply sound_runGrain
    | with_reducible apply sound_ite
    | with_reducible apply sound_ite_fst
    | with_reducible apply sound_foldl
    | fail_if_no_progress (with_reducible (apply sound_upd; rotate_left; iterate 4 rfl))
    | with_reducible refine sound_of_pair (by assumption) ?_
    | split

theorem sound_execBeq {s : State} {g} {src1} {src2} {off} (h : s.Sound) :
    SoundResult (execBeq g src1 src2 off s) := by
  unfold execBeq
  try dsimp only
  apply sound_next
  repeat' first
    | with_reducible assumption
    | exact fun _ h1 h2 h3 => ⟨h1, h2, h3⟩
    | exact fun _ h1 => h1
    | (intro _; try dsimp only)
    | with_reducible apply sound_runGrain
    | with_reducible apply sound_ite
    | with_reducible apply sound_ite_fst
    | with_reducible apply sound_foldl
    | fail_if_no_progress (with_reducible (apply sound_upd; rotate_left; iterate 4 rfl))
    | with_reducible refine sound_of_pair (by assumption) ?_
    | split

theorem sound_execBne {s : State} {g} {src1} {src2} {off} (h : s.Sound) :
    SoundResult (execBne g src1 src2 off s) := by
  unfold execBne
  try dsimp only
  apply sound_next
  repeat' first
    | with_reducible assumption
    | exact fun _ h1 h2 h3 => ⟨h1, h2, h3⟩
    | exact fun _ h1 => h1
    | (intro _; try dsimp only)
    | with_reducible apply sound_runGrain
    | with_reducible apply sound_ite
    | with_reducible apply sound_ite_fst
    | with_reducible apply sound_foldl
    | fail_if_no_progress (with_reducible (apply sound_upd; rotate_left; iterate 4 rfl))
    | with_reducible refine sound_of_pair (by assumption) ?_
    | split

theorem sound_execBlt {s : State} {g} {src1} {src2} {off} (h : s.Sound) :
    SoundResult (execBlt g src1 src2 off s) := by
  unfold execBlt
  try dsimp only
  apply sound_next
  repeat' first
    | with_reducible assumption
    | exact fun _ h1 h2 h3 => ⟨h1, h2, h3⟩
    | exact fun _ h1 => h1
    | (intro _; try dsimp only)
    | with_reducible apply sound_runGrain
    | with_reducible apply sound_ite
    | with_reducible apply sound_ite_fst
    | with_reducible apply sound_foldl
    | fail_if_no_progress (with_reducible (apply sound_upd; rotate_left; iterate 4 rfl))
    | with_reducible refine sound_of_pair (by assumption) ?_
    | split

theorem sound_execBge {s : State} {g} {src1} {src2} {off} (h : s.Sound) :
    SoundResult (execBge g src1 src2 off s) := by
  unfold execBge
  try dsimp only
  apply sound_next
  repeat' first
    | with_reducible assumption
    | exact fun _ h1 h2 h3 => ⟨h1, h2, h3⟩
    | exact fun _ h1 => h1
    | (intro _; try dsimp only)
    | with_reducible apply sound_runGrain
    | with_reducible apply sound_ite
    | with_reducible apply sound_ite_fst
    | with_reducible apply sound_foldl
    | fail_if_no_progress (with_reducible (apply sound_upd; rotate_left; iterate 4 rfl))
    | with_reducible refine sound_of_pair (by assumption) ?_
    | split

theorem sound_execBltu {s : State} {g} {src1} {src2} {off} (h : s.Sound) :
    SoundResult (execBltu g src1 src2 off s) := by
  unfold execBltu
  try dsimp only
  apply sound_next
  repeat' first
    | with_reducible assumption
    | exact fun _ h1 h2 h3 => ⟨h1, h2, h3⟩
    | exact fun _ h1 => h1
    | (intro _; try dsimp only)
    | with_reducible apply sound_runGrain
    | with_reducible apply sound_ite
    | with_reducible apply sound_ite_fst
    | with_reducible apply sound_foldl
    | fail_if_no_progress (with_reducible (apply sound_upd; rotate_left; iterate 4 rfl))
    | with_reducible refine sound_of_pair (by assumption) ?_
    | split

theorem sound_execBgeu {s : State} {g} {src1} {src2} {off} (h : s.Sound) :
    SoundResult (execBgeu g src1 src2 off s) := by
  unfold execBgeu
  try dsimp only
  apply sound_next
  repeat' first
    | with_reducible assumption
    | exact fun _ h1 h2 h3 => ⟨h1, h2, h3⟩
    | exact fun _ h1 => h1
    | (intro _; try dsimp only)
    | with_reducible apply sound_runGrain
    | with_reducible apply sound_ite
    | with_reducible apply sound_ite_fst
    | with_reducible apply sound_foldl
    | fail_if_no_progress (with_reducible (apply sound_upd; rotate_left; iterate 4 rfl))
    | with_reducible refine sound_of_pair (by assumption) ?_
    | split

end Sys2Proof.Machine
end

