-- ==== Sys2Proof/Laws/SoundC.lean ====
section
/-!
SUPPORT. What the functions of Machine/LvArith, Bne, Keys, Digest keep sound.
-/
namespace Sys2Proof.Machine

set_option linter.unusedTactic false
set_option linter.unreachableTactic false

theorem sound_execVadd {s : State} {g} {o} (h : s.Sound) :
    SoundResult (execVadd g o s) := by
  unfold execVadd
  try dsimp only
  apply sound_next
  repeat' first
    | with_reducible assumption
    | exact fun _ h1 h2 h3 => ⟨h1, h2, h3⟩
    | exact fun _ h1 => h1
    | (intro _; try dsimp only)
    | with_reducible apply sound_runGrain
    | with_reducible apply sound_ite
    | with_reducible apply sound_ite_fst
    | with_reducible apply sound_foldl
    | fail_if_no_progress (with_reducible (apply sound_upd; rotate_left; iterate 4 rfl))
    | with_reducible refine sound_of_pair (by assumption) ?_
    | split

theorem sound_execVsub {s : State} {g} {o} (h : s.Sound) :
    SoundResult (execVsub g o s) := by
  unfold execVsub
  try dsimp only
  apply sound_next
  repeat' first
    | with_reducible assumption
    | exact fun _ h1 h2 h3 => ⟨h1, h2, h3⟩
    | exact fun _ h1 => h1
    | (intro _; try dsimp only)
    | with_reducible apply sound_runGrain
    | with_reducible apply sound_ite
    | with_reducible apply sound_ite_fst
    | with_reducible apply sound_foldl
    | fail_if_no_progress (with_reducible (apply sound_upd; rotate_left; iterate 4 rfl))
    | with_reducible refine sound_of_pair (by assumption) ?_
    | split

theorem sound_execVneg {s : State} {g} {o} (h : s.Sound) :
    SoundResult (execVneg g o s) := by
  unfold execVneg
  try dsimp only
  apply sound_next
  repeat' first
    | with_reducible assumption
    | exact fun _ h1 h2 h3 => ⟨h1, h2, h3⟩
    | exact fun _ h1 => h1
    | (intro _; try dsimp only)
    | with_reducible apply sound_runGrain
    | with_reducible apply sound_ite
    | with_reducible apply sound_ite_fst
    | with_reducible apply sound_foldl
    | fail_if_no_progress (with_reducible (apply sound_upd; rotate_left; iterate 4 rfl))
    | with_reducible refine sound_of_pair (by assumption) ?_
    | split

theorem sound_execVcabs {s : State} {g} {o} (h : s.Sound) :
    SoundResult (execVcabs g o s) := by
  unfold execVcabs
  try dsimp only
  apply sound_next
  repeat' first
    | with_reducible assumption
    | exact fun _ h1 h2 h3 => ⟨h1, h2, h3⟩
    | exact fun _ h1 => h1
    | (intro _; try dsimp only)
    | with_reducible apply sound_runGrain
    | with_reducible apply sound_ite
    | with_reducible apply sound_ite_fst
    | with_reducible apply sound_foldl
    | fail_if_no_progress (with_reducible (apply sound_upd; rotate_left; iterate 4 rfl))
    | with_reducible refine sound_of_pair (by assumption) ?_
    | split

theorem sound_execVand {s : State} {g} {o} (h : s.Sound) :
    SoundResult (execVand g o s) := by
  unfold execVand
  try dsimp only
  apply sound_next
  repeat' first
    | with_reducible assumption
    | exact fun _ h1 h2 h3 => ⟨h1, h2, h3⟩
    | exact fun _ h1 => h1
    | (intro _; try dsimp only)
    | with_reducible apply sound_runGrain
    | with_reducible apply sound_ite
    | with_reducible apply sound_ite_fst
    | with_reducible apply sound_foldl
    | fail_if_no_progress (with_reducible (apply sound_upd; rotate_left; iterate 4 rfl))
    | with_reducible refine sound_of_pair (by assumption) ?_
    | split

theorem sound_execVor {s : State} {g} {o} (h : s.Sound) :
    SoundResult (execVor g o s) := by
  unfold execVor
  try dsimp only
  apply sound_next
  repeat' first
    | with_reducible assumption
    | exact fun _ h1 h2 h3 => ⟨h1, h2, h3⟩
    | exact fun _ h1 => h1
    | (intro _; try dsimp only)
    | with_reducible apply sound_runGrain
    | with_reducible apply sound_ite
    | with_reducible apply sound_ite_fst
    | with_reducible apply sound_foldl
    | fail_if_no_progress (with_reducible (apply sound_upd; rotate_left; iterate 4 rfl))
    | with_reducible refine sound_of_pair (by assumption) ?_
    | split

theorem sound_execVxor {s : State} {g} {o} (h : s.Sound) :
    SoundResult (execVxor g o s) := by
  unfold execVxor
  try dsimp only
  apply sound_next
  repeat' first
    | with_reducible assumption
    | exact fun _ h1 h2 h3 => ⟨h1, h2, h3⟩
    | exact fun _ h1 => h1
    | (intro _; try dsimp only)
    | with_reducible apply sound_runGrain
    | with_reducible apply sound_ite
    | with_reducible apply sound_ite_fst
    | with_reducible apply sound_foldl
    | fail_if_no_progress (with_reducible (apply sound_upd; rotate_left; iterate 4 rfl))
    | with_reducible refine sound_of_pair (by assumption) ?_
    | split

theorem sound_execVandn {s : State} {g} {o} (h : s.Sound) :
    SoundResult (execVandn g o s) := by
  unfold execVandn
  try dsimp only
  apply sound_next
  repeat' first
    | with_reducible assumption
    | exact fun _ h1 h2 h3 => ⟨h1, h2, h3⟩
    | exact fun _ h1 => h1
    | (intro _; try dsimp only)
    | with_reducible apply sound_runGrain
    | with_reducible apply sound_ite
    | with_reducible apply sound_ite_fst
    | with_reducible apply sound_foldl
    | fail_if_no_progress (with_reducible (apply sound_upd; rotate_left; iterate 4 rfl))
    | with_reducible refine sound_of_pair (by assumption) ?_
    | split

theorem sound_execVsll {s : State} {g} {o} (h : s.Sound) :
    SoundResult (execVsll g o s) := by
  unfold execVsll
  try dsimp only
  apply sound_next
  repeat' first
    | with_reducible assumption
    | exact fun _ h1 h2 h3 => ⟨h1, h2, h3⟩
    | exact fun _ h1 => h1
    | (intro _; try dsimp only)
    | with_reducible apply sound_runGrain
    | with_reducible apply sound_ite
    | with_reducible apply sound_ite_fst
    | with_reducible apply sound_foldl
    | fail_if_no_progress (with_reducible (apply sound_upd; rotate_left; iterate 4 rfl))
    | with_reducible refine sound_of_pair (by assumption) ?_
    | split

theorem sound_execVsrl {s : State} {g} {o} (h : s.Sound) :
    SoundResult (execVsrl g o s) := by
  unfold execVsrl
  try dsimp only
  apply sound_next
  repeat' first
    | with_reducible assumption
    | exact fun _ h1 h2 h3 => ⟨h1, h2, h3⟩
    | exact fun _ h1 => h1
    | (intro _; try dsimp only)
    | with_reducible apply sound_runGrain
    | with_reducible apply sound_ite
    | with_reducible apply sound_ite_fst
    | with_reducible apply sound_foldl
    | fail_if_no_progress (with_reducible (apply sound_upd; rotate_left; iterate 4 rfl))
    | with_reducible refine sound_of_pair (by assumption) ?_
    | split

theorem sound_execVsra {s : State} {g} {o} (h : s.Sound) :
    SoundResult (execVsra g o s) := by
  unfold execVsra
  try dsimp only
  apply sound_next
  repeat' first
    | with_reducible assumption
    | exact fun _ h1 h2 h3 => ⟨h1, h2, h3⟩
    | exact fun _ h1 => h1
    | (intro _; try dsimp only)
    | with_reducible apply sound_runGrain
    | with_reducible apply sound_ite
    | with_reducible apply sound_ite_fst
    | with_reducible apply sound_foldl
    | fail_if_no_progress (with_reducible (apply sound_upd; rotate_left; iterate 4 rfl))
    | with_reducible refine sound_of_pair (by assumption) ?_
    | split

theorem sound_execVcmpeq {s : State} {g} {o} (h : s.Sound) :
    SoundResult (execVcmpeq g o s) := by
  unfold execVcmpeq
  try dsimp only
  apply sound_next
  repeat' first
    | with_reducible assumption
    | exact fun _ h1 h2 h3 => ⟨h1, h2, h3⟩
    | exact fun _ h1 => h1
    | (intro _; try dsimp only)
    | with_reducible apply sound_runGrain
    | with_reducible apply sound_ite
    | with_reducible apply sound_ite_fst
    | with_reducible apply sound_foldl
    | fail_if_no_progress (with_reducible (apply sound_upd; rotate_left; iterate 4 rfl))
    | with_reducible refine sound_of_pair (by assumption) ?_
    | split

theorem sound_execVcmpltu {s : State} {g} {o} (h : s.Sound) :
    SoundResult (execVcmpltu g o s) := by
  unfold execVcmpltu
  try dsimp only
  apply sound_next
  repeat' first
    | with_reducible assumption
    | exact fun _ h1 h2 h3 => ⟨h1, h2, h3⟩
    | exact fun _ h1 => h1
    | (intro _; try dsimp only)
    | with_reducible apply sound_runGrain
    | with_reducible apply sound_ite
    | with_reducible apply sound_ite_fst
    | with_reducible apply sound_foldl
    | fail_if_no_progress (with_reducible (apply sound_upd; rotate_left; iterate 4 rfl))
    | with_reducible refine sound_of_pair (by assumption) ?_
    | split

theorem sound_execVcmpgeu {s : State} {g} {o} (h : s.Sound) :
    SoundResult (execVcmpgeu g o s) := by
  unfold execVcmpgeu
  try dsimp only
  apply sound_next
  repeat' first
    | with_reducible assumption
    | exact fun _ h1 h2 h3 => ⟨h1, h2, h3⟩
    | exact fun _ h1 => h1
    | (intro _; try dsimp only)
    | with_reducible apply sound_runGrain
    | with_reducible apply sound_ite
    | with_reducible apply sound_ite_fst
    | with_reducible apply sound_foldl
    | fail_if_no_progress (with_reducible (apply sound_upd; rotate_left; iterate 4 rfl))
    | with_reducible refine sound_of_pair (by assumption) ?_
    | split

theorem sound_execVsel {s : State} {g} {o} (h : s.Sound) :
    SoundResult (execVsel g o s) := by
  unfold execVsel
  try dsimp only
  apply sound_next
  repeat' first
    | with_reducible assumption
    | exact fun _ h1 h2 h3 => ⟨h1, h2, h3⟩
    | exact fun _ h1 => h1
    | (intro _; try dsimp only)
    | with_reducible apply sound_runGrain
    | with_reducible apply sound_ite
    | with_reducible apply sound_ite_fst
    | with_reducible apply sound_foldl
    | fail_if_no_progress (with_reducible (apply sound_upd; rotate_left; iterate 4 rfl))
    | with_reducible refine sound_of_pair (by assumption) ?_
    | split

theorem sound_execVsplat {s : State} {g} {o} (h : s.Sound) :
    SoundResult (execVsplat g o s) := by
  unfold execVsplat
  try dsimp only
  apply sound_next
  repeat' first
    | with_reducible assumption
    | exact fun _ h1 h2 h3 => ⟨h1, h2, h3⟩
    | exact fun _ h1 => h1
    | (intro _; try dsimp only)
    | with_reducible apply sound_runGrain
    | with_reducible apply sound_ite
    | with_reducible apply sound_ite_fst
    | with_reducible apply sound_foldl
    | fail_if_no_progress (with_reducible (apply sound_upd; rotate_left; iterate 4 rfl))
    | with_reducible refine sound_of_pair (by assumption) ?_
    | split

theorem sound_execVmul {s : State} {g} {o} (h : s.Sound) :
    SoundResult (execVmul g o s) := by
  unfold execVmul
  try dsimp only
  apply sound_next
  repeat' first
    | with_reducible assumption
    | exact fun _ h1 h2 h3 => ⟨h1, h2, h3⟩
    | exact fun _ h1 => h1
    | (intro _; try dsimp only)
    | with_reducible apply sound_runGrain
    | with_reducible apply sound_ite
    | with_reducible apply sound_ite_fst
    | with_reducible apply sound_foldl
    | fail_if_no_progress (with_reducible (apply sound_upd; rotate_left; iterate 4 rfl))
    | with_reducible refine sound_of_pair (by assumption) ?_
    | split

theorem sound_execVmulm {s : State} {g} {o} (h : s.Sound) :
    SoundResult (execVmulm g o s) := by
  unfold execVmulm
  try dsimp only
  apply sound_next
  repeat' first
    | with_reducible assumption
    | exact fun _ h1 h2 h3 => ⟨h1, h2, h3⟩
    | exact fun _ h1 => h1
    | (intro _; try dsimp only)
    | with_reducible apply sound_runGrain
    | with_reducible apply sound_ite
    | with_reducible apply sound_ite_fst
    | with_reducible apply sound_foldl
    | fail_if_no_progress (with_reducible (apply sound_upd; rotate_left; iterate 4 rfl))
    | with_reducible refine sound_of_pair (by assumption) ?_
    | split

theorem sound_execVmac {s : State} {g} {o} (h : s.Sound) :
    SoundResult (execVmac g o s) := by
  unfold execVmac
  try dsimp only
  apply sound_next
  repeat' first
    | with_reducible assumption
    | exact fun _ h1 h2 h3 => ⟨h1, h2, h3⟩
    | exact fun _ h1 => h1
    | (intro _; try dsimp only)
    | with_reducible apply sound_runGrain
    | with_reducible apply sound_ite
    | with_reducible apply sound_ite_fst
    | with_reducible apply sound_foldl
    | fail_if_no_progress (with_reducible (apply sound_upd; rotate_left; iterate 4 rfl))
    | with_reducible refine sound_of_pair (by assumption) ?_
    | split

theorem sound_execVmacm {s : State} {g} {o} (h : s.Sound) :
    SoundResult (execVmacm g o s) := by
  unfold execVmacm
  try dsimp only
  apply sound_next
  repeat' first
    | with_reducible assumption
    | exact fun _ h1 h2 h3 => ⟨h1, h2, h3⟩
    | exact fun _ h1 => h1
    | (intro _; try dsimp only)
    | with_reducible apply sound_runGrain
    | with_reducible apply sound_ite
    | with_reducible apply sound_ite_fst
    | with_reducible apply sound_foldl
    | fail_if_no_progress (with_reducible (apply sound_upd; rotate_left; iterate 4 rfl))
    | with_reducible refine sound_of_pair (by assumption) ?_
    | split

theorem sound_execVred {s : State} {g} {o} (h : s.Sound) :
    SoundResult (execVred g o s) := by
  unfold execVred
  try dsimp only
  apply sound_next
  repeat' first
    | with_reducible assumption
    | exact fun _ h1 h2 h3 => ⟨h1, h2, h3⟩
    | exact fun _ h1 => h1
    | (intro _; try dsimp only)
    | with_reducible apply sound_runGrain
    | with_reducible apply sound_ite
    | with_reducible apply sound_ite_fst
    | with_reducible apply sound_foldl
    | fail_if_no_progress (with_reducible (apply sound_upd; rotate_left; iterate 4 rfl))
    | with_reducible refine sound_of_pair (by assumption) ?_
    | split

theorem sound_execVkbmul {s : State} {g} {o} (h : s.Sound) :
    SoundResult (execVkbmul g o s) := by
  unfold execVkbmul
  try dsimp only
  apply sound_next
  repeat' first
    | with_reducible assumption
    | exact fun _ h1 h2 h3 => ⟨h1, h2, h3⟩
    | exact fun _ h1 => h1
    | (intro _; try dsimp only)
    | with_reducible apply sound_runGrain
    | with_reducible apply sound_ite
    | with_reducible apply sound_ite_fst
    | with_reducible apply sound_foldl
    | fail_if_no_progress (with_reducible (apply sound_upd; rotate_left; iterate 4 rfl))
    | with_reducible refine sound_of_pair (by assumption) ?_
    | split

theorem sound_execVclmullo {s : State} {g} {o} (h : s.Sound) :
    SoundResult (execVclmullo g o s) := by
  unfold execVclmullo
  try dsimp only
  apply sound_next
  repeat' first
    | with_reducible assumption
    | exact fun _ h1 h2 h3 => ⟨h1, h2, h3⟩
    | exact fun _ h1 => h1
    | (intro _; try dsimp only)
    | with_reducible apply sound_runGrain
    | with_reducible apply sound_ite
    | with_reducible apply sound_ite_fst
    | with_reducible apply sound_foldl
    | fail_if_no_progress (with_reducible (apply sound_upd; rotate_left; iterate 4 rfl))
    | with_reducible refine sound_of_pair (by assumption) ?_
    | split

theorem sound_execVclmulhi {s : State} {g} {o} (h : s.Sound) :
    SoundResult (execVclmulhi g o s) := by
  unfold execVclmulhi
  try dsimp only
  apply sound_next
  repeat' first
    | with_reducible assumption
    | exact fun _ h1 h2 h3 => ⟨h1, h2, h3⟩
    | exact fun _ h1 => h1
    | (intro _; try dsimp only)
    | with_reducible apply sound_runGrain
    | with_reducible apply sound_ite
    | with_reducible apply sound_ite_fst
    | with_reducible apply sound_foldl
    | fail_if_no_progress (with_reducible (apply sound_upd; rotate_left; iterate 4 rfl))
    | with_reducible refine sound_of_pair (by assumption) ?_
    | split

theorem sound_execVgfmul {s : State} {g} {o} (h : s.Sound) :
    SoundResult (execVgfmul g o s) := by
  unfold execVgfmul
  try dsimp only
  apply sound_next
  repeat' first
    | with_reducible assumption
    | exact fun _ h1 h2 h3 => ⟨h1, h2, h3⟩
    | exact fun _ h1 => h1
    | (intro _; try dsimp only)
    | with_reducible apply sound_runGrain
    | with_reducible apply sound_ite
    | with_reducible apply sound_ite_fst
    | with_reducible apply sound_foldl
    | fail_if_no_progress (with_reducible (apply sound_upd; rotate_left; iterate 4 rfl))
    | with_reducible refine sound_of_pair (by assumption) ?_
    | split

theorem sound_execVgfinv {s : State} {g} {o} {trouble} (h : s.Sound) :
    SoundResult (execVgfinv g o trouble s) := by
  unfold execVgfinv
  try dsimp only
  apply sound_next
  repeat' first
    | with_reducible assumption
    | exact fun _ h1 h2 h3 => ⟨h1, h2, h3⟩
    | exact fun _ h1 => h1
    | (intro _; try dsimp only)
    | with_reducible apply sound_runGrain
    | with_reducible apply sound_ite
    | with_reducible apply sound_ite_fst
    | with_reducible apply sound_foldl
    | fail_if_no_progress (with_reducible (apply sound_upd; rotate_left; iterate 4 rfl))
    | with_reducible refine sound_of_pair (by assumption) ?_
    | split

theorem sound_execPand {s : State} {g} {dst} {src1} {src2} (h : s.Sound) :
    SoundResult (execPand g dst src1 src2 s) := by
  unfold execPand
  try dsimp only
  apply sound_next
  repeat' first
    | with_reducible assumption
    | exact fun _ h1 h2 h3 => ⟨h1, h2, h3⟩
    | exact fun _ h1 => h1
    | (intro _; try dsimp only)
    | with_reducible apply sound_runGrain
    | with_reducible apply sound_ite
    | with_reducible apply sound_ite_fst
    | with_reducible apply sound_foldl
    | fail_if_no_progress (with_reducible (apply sound_upd; rotate_left; iterate 4 rfl))
    | with_reducible refine sound_of_pair (by assumption) ?_
    | split

theorem sound_execPor {s : State} {g} {dst} {src1} {src2} (h : s.Sound) :
    SoundResult (execPor g dst src1 src2 s) := by
  unfold execPor
  try dsimp only
  apply sound_next
  repeat' first
    | with_reducible assumption
    | exact fun _ h1 h2 h3 => ⟨h1, h2, h3⟩
    | exact fun _ h1 => h1
    | (intro _; try dsimp only)
    | with_reducible apply sound_runGrain
    | with_reducible apply sound_ite
    | with_reducible apply sound_ite_fst
    | with_reducible apply sound_foldl
    | fail_if_no_progress (with_reducible (apply sound_upd; rotate_left; iterate 4 rfl))
    | with_reducible refine sound_of_pair (by assumption) ?_
    | split

theorem sound_execPxor {s : State} {g} {dst} {src1} {src2} (h : s.Sound) :
    SoundResult (execPxor g dst src1 src2 s) := by
  unfold execPxor
  try dsimp only
  apply sound_next
  repeat' first
    | with_reducible assumption
    | exact fun _ h1 h2 h3 => ⟨h1, h2, h3⟩
    | exact fun _ h1 => h1
    | (intro _; try dsimp only)
    | with_reducible apply sound_runGrain
    | with_reducible apply sound_ite
    | with_reducible apply sound_ite_fst
    | with_reducible apply sound_foldl
    | fail_if_no_progress (with_reducible (apply sound_upd; rotate_left; iterate 4 rfl))
    | with_reducible refine sound_of_pair (by assumption) ?_
    | split

theorem sound_execPandn {s : State} {g} {dst} {src1} {src2} (h : s.Sound) :
    SoundResult (execPandn g dst src1 src2 s) := by
  unfold execPandn
  try dsimp only
  apply sound_next
  repeat' first
    | with_reducible assumption
    | exact fun _ h1 h2 h3 => ⟨h1, h2, h3⟩
    | exact fun _ h1 => h1
    | (intro _; try dsimp only)
    | with_reducible apply sound_runGrain
    | with_reducible apply sound_ite
    | with_reducible apply sound_ite_fst
    | with_reducible apply sound_foldl
    | fail_if_no_progress (with_reducible (apply sound_upd; rotate_left; iterate 4 rfl))
    | with_reducible refine sound_of_pair (by assumption) ?_
    | split

theorem sound_execPsetn {s : State} {g} {dst} {src1} (h : s.Sound) :
    SoundResult (execPsetn g dst src1 s) := by
  unfold execPsetn
  try dsimp only
  apply sound_next
  repeat' first
    | with_reducible assumption
    | exact fun _ h1 h2 h3 => ⟨h1, h2, h3⟩
    | exact fun _ h1 => h1
    | (intro _; try dsimp only)
    | with_reducible apply sound_runGrain
    | with_reducible apply sound_ite
    | with_reducible apply sound_ite_fst
    | with_reducible apply sound_foldl
    | fail_if_no_progress (with_reducible (apply sound_upd; rotate_left; iterate 4 rfl))
    | with_reducible refine sound_of_pair (by assumption) ?_
    | split

theorem sound_execPcnt {s : State} {g} {dst} {src1} (h : s.Sound) :
    SoundResult (execPcnt g dst src1 s) := by
  unfold execPcnt
  try dsimp only
  apply sound_next
  repeat' first
    | with_reducible assumption
    | exact fun _ h1 h2 h3 => ⟨h1, h2, h3⟩
    | exact fun _ h1 => h1
    | (intro _; try dsimp only)
    | with_reducible apply sound_runGrain
    | with_reducible apply sound_ite
    | with_reducible apply sound_ite_fst
    | with_reducible apply sound_foldl
    | fail_if_no_progress (with_reducible (apply sound_upd; rotate_left; iterate 4 rfl))
    | with_reducible refine sound_of_pair (by assumption) ?_
    | split

theorem sound_engineEvent {s : State} {n} {mask} (h : s.Sound) :
    (State.engineEvent s n mask).Sound := by
  unfold State.engineEvent
  try dsimp only
  repeat' first
    | with_reducible assumption
    | exact fun _ h1 h2 h3 => ⟨h1, h2, h3⟩
    | exact fun _ h1 => h1
    | (intro _; try dsimp only)
    | with_reducible apply sound_event
    | with_reducible apply sound_ite
    | with_reducible apply sound_ite_fst
    | with_reducible apply sound_foldl
    | fail_if_no_progress (with_reducible (apply sound_upd; rotate_left; iterate 4 rfl))
    | with_reducible refine sound_of_pair (by assumption) ?_
    | split

theorem sound_runAccess {s : State} {g} {w} {src2} {f} (h : s.Sound) :
    (State.runAccess s g w src2 f).Sound := by
  unfold State.runAccess
  try dsimp only
  repeat' first
    | with_reducible assumption
    | exact fun _ h1 h2 h3 => ⟨h1, h2, h3⟩
    | exact fun _ h1 => h1
    | (intro _; try dsimp only)
    | with_reducible apply sound_stopGrain
    | with_reducible apply sound_modEngine
    | with_reducible apply sound_modGrain
    | with_reducible apply sound_spend
    | with_reducible apply sound_ite
    | with_reducible apply sound_ite_fst
    | with_reducible apply sound_foldl
    | fail_if_no_progress (with_reducible (apply sound_upd; rotate_left; iterate 4 rfl))
    | with_reducible refine sound_of_pair (by assumption) ?_
    | split

theorem sound_execBnput {s : State} {g} {src1} {src2} {index} (h : s.Sound) :
    SoundResult (execBnput g src1 src2 index s) := by
  unfold execBnput
  try dsimp only
  apply sound_next
  repeat' first
    | with_reducible assumption
    | exact fun _ h1 h2 h3 => ⟨h1, h2, h3⟩
    | exact fun _ h1 => h1
    | (intro _; try dsimp only)
    | with_reducible apply sound_runAccess
    | with_reducible apply sound_ite
    | with_reducible apply sound_ite_fst
    | with_reducible apply sound_foldl
    | fail_if_no_progress (with_reducible (apply sound_upd; rotate_left; iterate 4 rfl))
    | with_reducible refine sound_of_pair (by assumption) ?_
    | split

theorem sound_execBnget {s : State} {g} {src1} {src2} {index} (h : s.Sound) :
    SoundResult (execBnget g src1 src2 index s) := by
  unfold execBnget
  try dsimp only
  apply sound_next
  repeat' first
    | with_reducible assumption
    | exact fun _ h1 h2 h3 => ⟨h1, h2, h3⟩
    | exact fun _ h1 => h1
    | (intro _; try dsimp only)
    | with_reducible apply sound_runAccess
    | with_reducible apply sound_ite
    | with_reducible apply sound_ite_fst
    | with_reducible apply sound_foldl
    | fail_if_no_progress (with_reducible (apply sound_upd; rotate_left; iterate 4 rfl))
    | with_reducible refine sound_of_pair (by assumption) ?_
    | split

theorem sound_execBncmd {s : State} {g} {src1} {src2} {index} (h : s.Sound) :
    SoundResult (execBncmd g src1 src2 index s) := by
  unfold execBncmd
  try dsimp only
  apply sound_next
  repeat' first
    | with_reducible assumption
    | exact fun _ h1 h2 h3 => ⟨h1, h2, h3⟩
    | exact fun _ h1 => h1
    | (intro _; try dsimp only)
    | with_reducible apply sound_runAccess
    | with_reducible apply sound_ite
    | with_reducible apply sound_ite_fst
    | with_reducible apply sound_foldl
    | fail_if_no_progress (with_reducible (apply sound_upd; rotate_left; iterate 4 rfl))
    | with_reducible refine sound_of_pair (by assumption) ?_
    | split

theorem sound_execBngo {s : State} {g} {src1} {src2} (h : s.Sound) :
    SoundResult (execBngo g src1 src2 s) := by
  unfold execBngo
  try dsimp only
  apply sound_next
  repeat' first
    | with_reducible assumption
    | exact fun _ h1 h2 h3 => ⟨h1, h2, h3⟩
    | exact fun _ h1 => h1
    | (intro _; try dsimp only)
    | with_reducible apply sound_runAccess
    | with_reducible apply sound_ite
    | with_reducible apply sound_ite_fst
    | with_reducible apply sound_foldl
    | fail_if_no_progress (with_reducible (apply sound_upd; rotate_left; iterate 4 rfl))
    | with_reducible refine sound_of_pair (by assumption) ?_
    | split

theorem sound_execBnwait {s : State} {g} {dst} {src2} (h : s.Sound) :
    SoundResult (execBnwait g dst src2 s) := by
  unfold execBnwait
  try dsimp only
  apply sound_next
  repeat' first
    | with_reducible assumption
    | exact fun _ h1 h2 h3 => ⟨h1, h2, h3⟩
    | exact fun _ h1 => h1
    | (intro _; try dsimp only)
    | with_reducible apply sound_runAccess
    | with_reducible apply sound_ite
    | with_reducible apply sound_ite_fst
    | with_reducible apply sound_foldl
    | fail_if_no_progress (with_reducible (apply sound_upd; rotate_left; iterate 4 rfl))
    | with_reducible refine sound_of_pair (by assumption) ?_
    | split

theorem sound_execBnrel {s : State} {g} {src2} (h : s.Sound) :
    SoundResult (execBnrel g src2 s) := by
  unfold execBnrel
  try dsimp only
  apply sound_next
  repeat' first
    | with_reducible assumption
    | exact fun _ h1 h2 h3 => ⟨h1, h2, h3⟩
    | exact fun _ h1 => h1
    | (intro _; try dsimp only)
    | with_reducible apply sound_runAccess
    | with_reducible apply sound_ite
    | with_reducible apply sound_ite_fst
    | with_reducible apply sound_foldl
    | fail_if_no_progress (with_reducible (apply sound_upd; rotate_left; iterate 4 rfl))
    | with_reducible refine sound_of_pair (by assumption) ?_
    | split

theorem sound_execBneScrubDone {s : State} {n} (h : s.Sound) :
    SoundResult (execBneScrubDone n s) := by
  unfold execBneScrubDone
  try dsimp only
  apply sound_next
  repeat' first
    | with_reducible assumption
    | exact fun _ h1 h2 h3 => ⟨h1, h2, h3⟩
    | exact fun _ h1 => h1
    | (intro _; try dsimp only)
    | with_reducible apply sound_modEngine
    | with_reducible apply sound_ite
    | with_reducible apply sound_ite_fst
    | with_reducible apply sound_foldl
    | fail_if_no_progress (with_reducible (apply sound_upd; rotate_left; iterate 4 rfl))
    | with_reducible refine sound_of_pair (by assumption) ?_
    | split

theorem sound_badCommand {s : State} {n} (h : s.Sound) :
    (State.badCommand s n).Sound := by
  unfold State.badCommand
  try dsimp only
  repeat' first
    | with_reducible assumption
    | exact fun _ h1 h2 h3 => ⟨h1, h2, h3⟩
    | exact fun _ h1 => h1
    | (intro _; try dsimp only)
    | with_reducible apply sound_engineEvent
    | with_reducible apply sound_modEngine
    | with_reducible apply sound_ite
    | with_reducible apply sound_ite_fst
    | with_reducible apply sound_foldl
    | fail_if_no_progress (with_reducible (apply sound_upd; rotate_left; iterate 4 rfl))
    | with_reducible refine sound_of_pair (by assumption) ?_
    | split

theorem sound_runEngine {s : State} {n} {w} {cycles} {f} (h : s.Sound) :
    (State.runEngine s n w cycles f).Sound := by
  unfold State.runEngine
  try dsimp only
  repeat' first
    | with_reducible assumption
    | exact fun _ h1 h2 h3 => ⟨h1, h2, h3⟩
    | exact fun _ h1 => h1
    | (intro _; try dsimp only)
    | with_reducible apply sound_modEngine
    | with_reducible apply sound_badCommand
    | with_reducible apply sound_ite
    | with_reducible apply sound_ite_fst
    | with_reducible apply sound_foldl
    | fail_if_no_progress (with_reducible (apply sound_upd; rotate_left; iterate 4 rfl))
    | with_reducible refine sound_of_pair (by assumption) ?_
    | split

theorem sound_execModadd {s : State} {n} {d} {a} {b} {pset} (h : s.Sound) :
    SoundResult (execModadd n d a b pset s) := by
  unfold execModadd
  try dsimp only
  apply sound_next
  repeat' first
    | with_reducible assumption
    | exact fun _ h1 h2 h3 => ⟨h1, h2, h3⟩
    | exact fun _ h1 => h1
    | (intro _; try dsimp only)
    | with_reducible apply sound_runEngine
    | with_reducible apply sound_ite
    | with_reducible apply sound_ite_fst
    | with_reducible apply sound_foldl
    | fail_if_no_progress (with_reducible (apply sound_upd; rotate_left; iterate 4 rfl))
    | with_reducible refine sound_of_pair (by assumption) ?_
    | split

theorem sound_execModsub {s : State} {n} {d} {a} {b} {pset} (h : s.Sound) :
    SoundResult (execModsub n d a b pset s) := by
  unfold execModsub
  try dsimp only
  apply sound_next
  repeat' first
    | with_reducible assumption
    | exact fun _ h1 h2 h3 => ⟨h1, h2, h3⟩
    | exact fun _ h1 => h1
    | (intro _; try dsimp only)
    | with_reducible apply sound_runEngine
    | with_reducible apply sound_ite
    | with_reducible apply sound_ite_fst
    | with_reducible apply sound_foldl
    | fail_if_no_progress (with_reducible (apply sound_upd; rotate_left; iterate 4 rfl))
    | with_reducible refine sound_of_pair (by assumption) ?_
    | split

theorem sound_execModmul {s : State} {n} {d} {a} {b} {pset} (h : s.Sound) :
    SoundResult (execModmul n d a b pset s) := by
  unfold execModmul
  try dsimp only
  apply sound_next
  repeat' first
    | with_reducible assumption
    | exact fun _ h1 h2 h3 => ⟨h1, h2, h3⟩
    | exact fun _ h1 => h1
    | (intro _; try dsimp only)
    | with_reducible apply sound_runEngine
    | with_reducible apply sound_ite
    | with_reducible apply sound_ite_fst
    | with_reducible apply sound_foldl
    | fail_if_no_progress (with_reducible (apply sound_upd; rotate_left; iterate 4 rfl))
    | with_reducible refine sound_of_pair (by assumption) ?_
    | split

theorem sound_execModsqr {s : State} {n} {d} {a} {pset} (h : s.Sound) :
    SoundResult (execModsqr n d a pset s) := by
  unfold execModsqr
  try dsimp only
  apply sound_next
  repeat' first
    | with_reducible assumption
    | exact fun _ h1 h2 h3 => ⟨h1, h2, h3⟩
    | exact fun _ h1 => h1
    | (intro _; try dsimp only)
    | with_reducible apply sound_runEngine
    | with_reducible apply sound_ite
    | with_reducible apply sound_ite_fst
    | with_reducible apply sound_foldl
    | fail_if_no_progress (with_reducible (apply sound_upd; rotate_left; iterate 4 rfl))
    | with_reducible refine sound_of_pair (by assumption) ?_
    | split

theorem sound_execModinv {s : State} {n} {d} {a} {pset} (h : s.Sound) :
    SoundResult (execModinv n d a pset s) := by
  unfold execModinv
  try dsimp only
  apply sound_next
  repeat' first
    | with_reducible assumption
    | exact fun _ h1 h2 h3 => ⟨h1, h2, h3⟩
    | exact fun _ h1 => h1
    | (intro _; try dsimp only)
    | with_reducible apply sound_runEngine
    | with_reducible apply sound_ite
    | with_reducible apply sound_ite_fst
    | with_reducible apply sound_foldl
    | fail_if_no_progress (with_reducible (apply sound_upd; rotate_left; iterate 4 rfl))
    | with_reducible refine sound_of_pair (by assumption) ?_
    | split

theorem sound_execModexp {s : State} {n} {d} {a} {b} {pset} {crt} {blind} (h : s.Sound) :
    SoundResult (execModexp n d a b pset crt blind s) := by
  unfold execModexp
  try dsimp only
  apply sound_next
  repeat' first
    | with_reducible assumption
    | exact fun _ h1 h2 h3 => ⟨h1, h2, h3⟩
    | exact fun _ h1 => h1
    | (intro _; try dsimp only)
    | with_reducible apply sound_runEngine
    | with_reducible apply sound_ite
    | with_reducible apply sound_ite_fst
    | with_reducible apply sound_foldl
    | fail_if_no_progress (with_reducible (apply sound_upd; rotate_left; iterate 4 rfl))
    | with_reducible refine sound_of_pair (by assumption) ?_
    | split

theorem sound_execModred {s : State} {n} {d} {a} {pset} {off} {len} (h : s.Sound) :
    SoundResult (execModred n d a pset off len s) := by
  unfold execModred
  try dsimp only
  apply sound_next
  repeat' first
    | with_reducible assumption
    | exact fun _ h1 h2 h3 => ⟨h1, h2, h3⟩
    | exact fun _ h1 => h1
    | (intro _; try dsimp only)
    | with_reducible apply sound_runEngine
    | with_reducible apply sound_ite
    | with_reducible apply sound_ite_fst
    | with_reducible apply sound_foldl
    | fail_if_no_progress (with_reducible (apply sound_upd; rotate_left; iterate 4 rfl))
    | with_reducible refine sound_of_pair (by assumption) ?_
    | split

theorem sound_execBlind {s : State} {n} {d} {a} {b} {pset} {off} (h : s.Sound) :
    SoundResult (execBlind n d a b pset off s) := by
  unfold execBlind
  try dsimp only
  apply sound_next
  repeat' first
    | with_reducible assumption
    | exact fun _ h1 h2 h3 => ⟨h1, h2, h3⟩
    | exact fun _ h1 => h1
    | (intro _; try dsimp only)
    | with_reducible apply sound_runEngine
    | with_reducible apply sound_ite
    | with_reducible apply sound_ite_fst
    | with_reducible apply sound_foldl
    | fail_if_no_progress (with_reducible (apply sound_upd; rotate_left; iterate 4 rfl))
    | with_reducible refine sound_of_pair (by assumption) ?_
    | split

theorem sound_execSetmod {s : State} {n} {a} {pset} {cls} {half} (h : s.Sound) :
    SoundResult (execSetmod n a pset cls half s) := by
  unfold execSetmod
  try dsimp only
  apply sound_next
  repeat' first
    | with_reducible assumption
    | exact fun _ h1 h2 h3 => ⟨h1, h2, h3⟩
    | exact fun _ h1 => h1
    | (intro _; try dsimp only)
    | with_reducible apply sound_runEngine
    | with_reducible apply sound_ite
    | with_reducible apply sound_ite_fst
    | with_reducible apply sound_foldl
    | fail_if_no_progress (with_reducible (apply sound_upd; rotate_left; iterate 4 rfl))
    | with_reducible refine sound_of_pair (by assumption) ?_
    | split

theorem sound_execRawclr {s : State} {n} (h : s.Sound) :
    SoundResult (execRawclr n s) := by
  unfold execRawclr
  try dsimp only
  apply sound_next
  repeat' first
    | with_reducible assumption
    | exact fun _ h1 h2 h3 => ⟨h1, h2, h3⟩
    | exact fun _ h1 => h1
    | (intro _; try dsimp only)
    | with_reducible apply sound_runEngine
    | with_reducible apply sound_ite
    | with_reducible apply sound_ite_fst
    | with_reducible apply sound_foldl
    | fail_if_no_progress (with_reducible (apply sound_upd; rotate_left; iterate 4 rfl))
    | with_reducible refine sound_of_pair (by assumption) ?_
    | split

theorem sound_execRawmac {s : State} {n} {a} {b} {i} {j} {k} (h : s.Sound) :
    SoundResult (execRawmac n a b i j k s) := by
  unfold execRawmac
  try dsimp only
  apply sound_next
  repeat' first
    | with_reducible assumption
    | exact fun _ h1 h2 h3 => ⟨h1, h2, h3⟩
    | exact fun _ h1 => h1
    | (intro _; try dsimp only)
    | with_reducible apply sound_runEngine
    | with_reducible apply sound_ite
    | with_reducible apply sound_ite_fst
    | with_reducible apply sound_foldl
    | fail_if_no_progress (with_reducible (apply sound_upd; rotate_left; iterate 4 rfl))
    | with_reducible refine sound_of_pair (by assumption) ?_
    | split

theorem sound_execRawout {s : State} {n} {d} {t} (h : s.Sound) :
    SoundResult (execRawout n d t s) := by
  unfold execRawout
  try dsimp only
  apply sound_next
  repeat' first
    | with_reducible assumption
    | exact fun _ h1 h2 h3 => ⟨h1, h2, h3⟩
    | exact fun _ h1 => h1
    | (intro _; try dsimp only)
    | with_reducible apply sound_runEngine
    | with_reducible apply sound_ite
    | with_reducible apply sound_ite_fst
    | with_reducible apply sound_foldl
    | fail_if_no_progress (with_reducible (apply sound_upd; rotate_left; iterate 4 rfl))
    | with_reducible refine sound_of_pair (by assumption) ?_
    | split

theorem sound_execJoin {s : State} {n} {d} {a} {b} {x} (h : s.Sound) :
    SoundResult (execJoin n d a b x s) := by
  unfold execJoin
  try dsimp only
  apply sound_next
  repeat' first
    | with_reducible assumption
    | exact fun _ h1 h2 h3 => ⟨h1, h2, h3⟩
    | exact fun _ h1 => h1
    | (intro _; try dsimp only)
    | with_reducible apply sound_runEngine
    | with_reducible apply sound_ite
    | with_reducible apply sound_ite_fst
    | with_reducible apply sound_foldl
    | fail_if_no_progress (with_reducible (apply sound_upd; rotate_left; iterate 4 rfl))
    | with_reducible refine sound_of_pair (by assumption) ?_
    | split

theorem sound_execCopy {s : State} {n} {d} {a} (h : s.Sound) :
    SoundResult (execCopy n d a s) := by
  unfold execCopy
  try dsimp only
  apply sound_next
  repeat' first
    | with_reducible assumption
    | exact fun _ h1 h2 h3 => ⟨h1, h2, h3⟩
    | exact fun _ h1 => h1
    | (intro _; try dsimp only)
    | with_reducible apply sound_runEngine
    | with_reducible apply sound_ite
    | with_reducible apply sound_ite_fst
    | with_reducible apply sound_foldl
    | fail_if_no_progress (with_reducible (apply sound_upd; rotate_left; iterate 4 rfl))
    | with_reducible refine sound_of_pair (by assumption) ?_
    | split

theorem sound_execRevb {s : State} {n} {d} {a} {len} (h : s.Sound) :
    SoundResult (execRevb n d a len s) := by
  unfold execRevb
  try dsimp only
  apply sound_next
  repeat' first
    | with_reducible assumption
    | exact fun _ h1 h2 h3 => ⟨h1, h2, h3⟩
    | exact fun _ h1 => h1
    | (intro _; try dsimp only)
    | with_reducible apply sound_runEngine
    | with_reducible apply sound_ite
    | with_reducible apply sound_ite_fst
    | with_reducible apply sound_foldl
    | fail_if_no_progress (with_reducible (apply sound_upd; rotate_left; iterate 4 rfl))
    | with_reducible refine sound_of_pair (by assumption) ?_
    | split

theorem sound_execCswap {s : State} {n} {d} {a} {b} {counter} (h : s.Sound) :
    SoundResult (execCswap n d a b counter s) := by
  unfold execCswap
  try dsimp only
  apply sound_next
  repeat' first
    | with_reducible assumption
    | exact fun _ h1 h2 h3 => ⟨h1, h2, h3⟩
    | exact fun _ h1 => h1
    | (intro _; try dsimp only)
    | with_reducible apply sound_runEngine
    | with_reducible apply sound_ite
    | with_reducible apply sound_ite_fst
    | with_reducible apply sound_foldl
    | fail_if_no_progress (with_reducible (apply sound_upd; rotate_left; iterate 4 rfl))
    | with_reducible refine sound_of_pair (by assumption) ?_
    | split

theorem sound_execSetc {s : State} {n} {counter} {value} (h : s.Sound) :
    SoundResult (execSetc n counter value s) := by
  unfold execSetc
  try dsimp only
  apply sound_next
  repeat' first
    | with_reducible assumption
    | exact fun _ h1 h2 h3 => ⟨h1, h2, h3⟩
    | exact fun _ h1 => h1
    | (intro _; try dsimp only)
    | with_reducible apply sound_runEngine
    | with_reducible apply sound_ite
    | with_reducible apply sound_ite_fst
    | with_reducible apply sound_foldl
    | fail_if_no_progress (with_reducible (apply sound_upd; rotate_left; iterate 4 rfl))
    | with_reducible refine sound_of_pair (by assumption) ?_
    | split

theorem sound_execDjnz {s : State} {n} {counter} {target} (h : s.Sound) :
    SoundResult (execDjnz n counter target s) := by
  unfold execDjnz
  try dsimp only
  apply sound_next
  repeat' first
    | with_reducible assumption
    | exact fun _ h1 h2 h3 => ⟨h1, h2, h3⟩
    | exact fun _ h1 => h1
    | (intro _; try dsimp only)
    | with_reducible apply sound_runEngine
    | with_reducible apply sound_ite
    | with_reducible apply sound_ite_fst
    | with_reducible apply sound_foldl
    | fail_if_no_progress (with_reducible (apply sound_upd; rotate_left; iterate 4 rfl))
    | with_reducible refine sound_of_pair (by assumption) ?_
    | split

theorem sound_execChkeq {s : State} {n} {a} {b} {value} (h : s.Sound) :
    SoundResult (execChkeq n a b value s) := by
  unfold execChkeq
  try dsimp only
  apply sound_next
  repeat' first
    | with_reducible assumption
    | exact fun _ h1 h2 h3 => ⟨h1, h2, h3⟩
    | exact fun _ h1 => h1
    | (intro _; try dsimp only)
    | with_reducible apply sound_runEngine
    | with_reducible apply sound_ite
    | with_reducible apply sound_ite_fst
    | with_reducible apply sound_foldl
    | fail_if_no_progress (with_reducible (apply sound_upd; rotate_left; iterate 4 rfl))
    | with_reducible refine sound_of_pair (by assumption) ?_
    | split

theorem sound_execChknz {s : State} {n} {a} {value} (h : s.Sound) :
    SoundResult (execChknz n a value s) := by
  unfold execChknz
  try dsimp only
  apply sound_next
  repeat' first
    | with_reducible assumption
    | exact fun _ h1 h2 h3 => ⟨h1, h2, h3⟩
    | exact fun _ h1 => h1
    | (intro _; try dsimp only)
    | with_reducible apply sound_runEngine
    | with_reducible apply sound_ite
    | with_reducible apply sound_ite_fst
    | with_reducible apply sound_foldl
    | fail_if_no_progress (with_reducible (apply sound_upd; rotate_left; iterate 4 rfl))
    | with_reducible refine sound_of_pair (by assumption) ?_
    | split

theorem sound_execLdi {s : State} {n} {d} {value} (h : s.Sound) :
    SoundResult (execLdi n d value s) := by
  unfold execLdi
  try dsimp only
  apply sound_next
  repeat' first
    | with_reducible assumption
    | exact fun _ h1 h2 h3 => ⟨h1, h2, h3⟩
    | exact fun _ h1 => h1
    | (intro _; try dsimp only)
    | with_reducible apply sound_runEngine
    | with_reducible apply sound_ite
    | with_reducible apply sound_ite_fst
    | with_reducible apply sound_foldl
    | fail_if_no_progress (with_reducible (apply sound_upd; rotate_left; iterate 4 rfl))
    | with_reducible refine sound_of_pair (by assumption) ?_
    | split

theorem sound_execBnEnd {s : State} {n} (h : s.Sound) :
    SoundResult (execBnEnd n s) := by
  unfold execBnEnd
  try dsimp only
  apply sound_next
  repeat' first
    | with_reducible assumption
    | exact fun _ h1 h2 h3 => ⟨h1, h2, h3⟩
    | exact fun _ h1 => h1
    | (intro _; try dsimp only)
    | with_reducible apply sound_runEngine
    | with_reducible apply sound_ite
    | with_reducible apply sound_ite_fst
    | with_reducible apply sound_foldl
    | fail_if_no_progress (with_reducible (apply sound_upd; rotate_left; iterate 4 rfl))
    | with_reducible refine sound_of_pair (by assumption) ?_
    | split

theorem sound_execBadCommand {s : State} {n} (h : s.Sound) :
    SoundResult (execBadCommand n s) := by
  unfold execBadCommand
  try dsimp only
  apply sound_next
  repeat' first
    | with_reducible assumption
    | exact fun _ h1 h2 h3 => ⟨h1, h2, h3⟩
    | exact fun _ h1 => h1
    | (intro _; try dsimp only)
    | with_reducible apply sound_badCommand
    | with_reducible apply sound_ite
    | with_reducible apply sound_ite_fst
    | with_reducible apply sound_foldl
    | fail_if_no_progress (with_reducible (apply sound_upd; rotate_left; iterate 4 rfl))
    | with_reducible refine sound_of_pair (by assumption) ?_
    | split

theorem sound_charge {s : State} {k} (h : s.Sound) :
    (State.charge s k).Sound := by
  unfold State.charge
  try dsimp only
  repeat' first
    | with_reducible assumption
    | exact fun _ h1 h2 h3 => ⟨h1, h2, h3⟩
    | exact fun _ h1 => h1
    | (intro _; try dsimp only)
    | with_reducible apply sound_modSlot
    | with_reducible apply sound_logKeyEvent
    | with_reducible apply sound_event
    | with_reducible apply sound_ite
    | with_reducible apply sound_ite_fst
    | with_reducible apply sound_foldl
    | fail_if_no_progress (with_reducible (apply sound_upd; rotate_left; iterate 4 rfl))
    | with_reducible refine sound_of_pair (by assumption) ?_
    | split

theorem sound_modStateful {s : State} {k} {f} (h : s.Sound) :
    (State.modStateful s k f).Sound := by
  unfold State.modStateful
  try dsimp only
  repeat' first
    | with_reducible assumption
    | exact fun _ h1 h2 h3 => ⟨h1, h2, h3⟩
    | exact fun _ h1 => h1
    | (intro _; try dsimp only)
    | with_reducible apply sound_modSlot
    | with_reducible apply sound_ite
    | with_reducible apply sound_ite_fst
    | with_reducible apply sound_foldl
    | fail_if_no_progress (with_reducible (apply sound_upd; rotate_left; iterate 4 rfl))
    | with_reducible refine sound_of_pair (by assumption) ?_
    | split

theorem sound_handLeaf {s : State} {j} {k} (h : s.Sound) :
    (State.handLeaf s j k).Sound := by
  unfold State.handLeaf
  try dsimp only
  repeat' first
    | with_reducible assumption
    | exact fun _ h1 h2 h3 => ⟨h1, h2, h3⟩
    | exact fun _ h1 => h1
    | (intro _; try dsimp only)
    | with_reducible apply sound_modStateful
    | with_reducible apply sound_modJob
    | with_reducible apply sound_logKeyEvent
    | with_reducible apply sound_ite
    | with_reducible apply sound_ite_fst
    | with_reducible apply sound_foldl
    | fail_if_no_progress (with_reducible (apply sound_upd; rotate_left; iterate 4 rfl))
    | with_reducible refine sound_of_pair (by assumption) ?_
    | split

theorem sound_deliver {s : State} {g} {job} (h : s.Sound) :
    (State.deliver s g job).Sound := by
  unfold State.deliver
  try dsimp only
  repeat' first
    | with_reducible assumption
    | exact fun _ h1 h2 h3 => ⟨h1, h2, h3⟩
    | exact fun _ h1 => h1
    | (intro _; try dsimp only)
    | with_reducible apply sound_modGrain
    | with_reducible apply sound_spend
    | with_reducible apply sound_ite
    | with_reducible apply sound_ite_fst
    | with_reducible apply sound_foldl
    | fail_if_no_progress (with_reducible (apply sound_upd; rotate_left; iterate 4 rfl))
    | with_reducible refine sound_of_pair (by assumption) ?_
    | split

theorem sound_claim {s : State} {j} {k} (h : s.Sound) :
    (State.claim s j k).Sound := by
  unfold State.claim
  try dsimp only
  repeat' first
    | with_reducible assumption
    | exact fun _ h1 h2 h3 => ⟨h1, h2, h3⟩
    | exact fun _ h1 => h1
    | (intro _; try dsimp only)
    | with_reducible apply sound_modJob
    | with_reducible apply sound_modSlot
    | with_reducible apply sound_ite
    | with_reducible apply sound_ite_fst
    | with_reducible apply sound_foldl
    | fail_if_no_progress (with_reducible (apply sound_upd; rotate_left; iterate 4 rfl))
    | with_reducible refine sound_of_pair (by assumption) ?_
    | split

theorem sound_waitAtKey {s : State} {j} {forSeeds} (h : s.Sound) :
    (State.waitAtKey s j forSeeds).Sound := by
  unfold State.waitAtKey
  try dsimp only
  repeat' first
    | with_reducible assumption
    | exact fun _ h1 h2 h3 => ⟨h1, h2, h3⟩
    | exact fun _ h1 => h1
    | (intro _; try dsimp only)
    | with_reducible apply sound_modJob
    | with_reducible apply sound_ite
    | with_reducible apply sound_ite_fst
    | with_reducible apply sound_foldl
    | fail_if_no_progress (with_reducible (apply sound_upd; rotate_left; iterate 4 rfl))
    | with_reducible refine sound_of_pair (by assumption) ?_
    | split

theorem sound_passKeys {s : State} {j} {g} {job} {m1} {random} (h : s.Sound) :
    (State.passKeys s j g job m1 random).Sound := by
  unfold State.passKeys
  try dsimp only
  repeat' first
    | with_reducible assumption
    | exact fun _ h1 h2 h3 => ⟨h1, h2, h3⟩
    | exact fun _ h1 => h1
    | (intro _; try dsimp only)
    | with_reducible apply sound_charge
    | with_reducible apply sound_claim
    | with_reducible apply sound_modJob
    | with_reducible apply sound_deliver
    | with_reducible apply sound_ite
    | with_reducible apply sound_ite_fst
    | with_reducible apply sound_foldl
    | fail_if_no_progress (with_reducible (apply sound_upd; rotate_left; iterate 4 rfl))
    | with_reducible refine sound_of_pair (by assumption) ?_
    | split

theorem sound_supplyKeys {s : State} {j} {g} {job} {m1} (h : s.Sound) :
    (State.supplyKeys s j g job m1).Sound := by
  unfold State.supplyKeys
  try dsimp only
  repeat' first
    | with_reducible assumption
    | exact fun _ h1 h2 h3 => ⟨h1, h2, h3⟩
    | exact fun _ h1 => h1
    | (intro _; try dsimp only)
    | with_reducible apply sound_drawPort
    | with_reducible apply sound_endExecution
    | with_reducible apply sound_waitAtKey
    | with_reducible refine sound_drawKeyPort (by assumption) ?_
    | with_reducible apply sound_passKeys
    | with_reducible apply sound_ite
    | with_reducible apply sound_ite_fst
    | with_reducible apply sound_foldl
    | fail_if_no_progress (with_reducible (apply sound_upd; rotate_left; iterate 4 rfl))
    | with_reducible refine sound_of_pair (by assumption) ?_
    | split

theorem sound_keyStage {s : State} {j} {g} {job} {blob} (h : s.Sound) :
    (State.keyStage s j g job blob).Sound := by
  unfold State.keyStage
  try dsimp only
  repeat' first
    | with_reducible assumption
    | exact fun _ h1 h2 h3 => ⟨h1, h2, h3⟩
    | exact fun _ h1 => h1
    | (intro _; try dsimp only)
    | with_reducible apply sound_endExecution
    | with_reducible apply sound_waitAtKey
    | with_reducible apply sound_modSlot
    | with_reducible apply sound_deliver
    | with_reducible apply sound_modJob
    | with_reducible apply sound_modStateful
    | with_reducible apply sound_supplyKeys
    | with_reducible apply sound_handLeaf
    | with_reducible apply sound_ite
    | with_reducible apply sound_ite_fst
    | with_reducible apply sound_foldl
    | fail_if_no_progress (with_reducible (apply sound_upd; rotate_left; iterate 4 rfl))
    | with_reducible refine sound_of_pair (by assumption) ?_
    | split

theorem sound_modDigest {s : State} {e} {f} (h : s.Sound) :
    (State.modDigest s e f).Sound := by
  unfold State.modDigest
  exact { h with
    digests := Map.rising_modify h.digests .. }
theorem sound_digError {s : State} {e} {err} (h : s.Sound) :
    (State.digError s e err).Sound := by
  unfold State.digError
  try dsimp only
  repeat' first
    | with_reducible assumption
    | exact fun _ h1 h2 h3 => ⟨h1, h2, h3⟩
    | exact fun _ h1 => h1
    | (intro _; try dsimp only)
    | with_reducible apply sound_event
    | with_reducible apply sound_modDigest
    | with_reducible apply sound_ite
    | with_reducible apply sound_ite_fst
    | with_reducible apply sound_foldl
    | fail_if_no_progress (with_reducible (apply sound_upd; rotate_left; iterate 4 rfl))
    | with_reducible refine sound_of_pair (by assumption) ?_
    | split

theorem sound_digStop {s : State} {e} {err} (h : s.Sound) :
    (State.digStop s e err).Sound := by
  unfold State.digStop
  try dsimp only
  repeat' first
    | with_reducible assumption
    | exact fun _ h1 h2 h3 => ⟨h1, h2, h3⟩
    | exact fun _ h1 => h1
    | (intro _; try dsimp only)
    | with_reducible apply sound_event
    | with_reducible apply sound_modDigest
    | with_reducible apply sound_ite
    | with_reducible apply sound_ite_fst
    | with_reducible apply sound_foldl
    | fail_if_no_progress (with_reducible (apply sound_upd; rotate_left; iterate 4 rfl))
    | with_reducible refine sound_of_pair (by assumption) ?_
    | split

theorem sound_execDigCtlWrite {s : State} {r} {e} {value} (h : s.Sound) :
    SoundResult (execDigCtlWrite r e value s) := by
  unfold execDigCtlWrite
  try dsimp only
  apply sound_next
  repeat' first
    | with_reducible assumption
    | exact fun _ h1 h2 h3 => ⟨h1, h2, h3⟩
    | exact fun _ h1 => h1
    | (intro _; try dsimp only)
    | with_reducible apply sound_noteWrite
    | with_reducible apply sound_modDigest
    | with_reducible apply sound_digError
    | with_reducible apply sound_charge
    | with_reducible apply sound_ite
    | with_reducible apply sound_ite_fst
    | with_reducible apply sound_foldl
    | fail_if_no_progress (with_reducible (apply sound_upd; rotate_left; iterate 4 rfl))
    | with_reducible refine sound_of_pair (by assumption) ?_
    | split

theorem sound_digFeed {s : State} {e} {bs} {last} (h : s.Sound) :
    (State.digFeed s e bs last).Sound := by
  unfold State.digFeed
  try dsimp only
  repeat' first
    | with_reducible assumption
    | exact fun _ h1 h2 h3 => ⟨h1, h2, h3⟩
    | exact fun _ h1 => h1
    | (intro _; try dsimp only)
    | with_reducible apply sound_digError
    | with_reducible apply sound_modDigest
    | with_reducible apply sound_ite
    | with_reducible apply sound_ite_fst
    | with_reducible apply sound_foldl
    | fail_if_no_progress (with_reducible (apply sound_upd; rotate_left; iterate 4 rfl))
    | with_reducible refine sound_of_pair (by assumption) ?_
    | split

theorem sound_execDigDataWrite {s : State} {r} {e} {value} (h : s.Sound) :
    SoundResult (execDigDataWrite r e value s) := by
  unfold execDigDataWrite
  try dsimp only
  apply sound_next
  repeat' first
    | with_reducible assumption
    | exact fun _ h1 h2 h3 => ⟨h1, h2, h3⟩
    | exact fun _ h1 => h1
    | (intro _; try dsimp only)
    | with_reducible apply sound_noteWrite
    | with_reducible apply sound_digFeed
    | with_reducible apply sound_ite
    | with_reducible apply sound_ite_fst
    | with_reducible apply sound_foldl
    | fail_if_no_progress (with_reducible (apply sound_upd; rotate_left; iterate 4 rfl))
    | with_reducible refine sound_of_pair (by assumption) ?_
    | split

theorem sound_execDigLastWrite {s : State} {r} {e} {value} (h : s.Sound) :
    SoundResult (execDigLastWrite r e value s) := by
  unfold execDigLastWrite
  try dsimp only
  apply sound_next
  repeat' first
    | with_reducible assumption
    | exact fun _ h1 h2 h3 => ⟨h1, h2, h3⟩
    | exact fun _ h1 => h1
    | (intro _; try dsimp only)
    | with_reducible apply sound_noteWrite
    | with_reducible apply sound_digFeed
    | with_reducible apply sound_ite
    | with_reducible apply sound_ite_fst
    | with_reducible apply sound_foldl
    | fail_if_no_progress (with_reducible (apply sound_upd; rotate_left; iterate 4 rfl))
    | with_reducible refine sound_of_pair (by assumption) ?_
    | split

theorem sound_execDigLenWrite {s : State} {r} {e} {value} (h : s.Sound) :
    SoundResult (execDigLenWrite r e value s) := by
  unfold execDigLenWrite
  try dsimp only
  apply sound_next
  repeat' first
    | with_reducible assumption
    | exact fun _ h1 h2 h3 => ⟨h1, h2, h3⟩
    | exact fun _ h1 => h1
    | (intro _; try dsimp only)
    | with_reducible apply sound_noteWrite
    | with_reducible apply sound_modDigest
    | with_reducible apply sound_digError
    | with_reducible apply sound_ite
    | with_reducible apply sound_ite_fst
    | with_reducible apply sound_foldl
    | fail_if_no_progress (with_reducible (apply sound_upd; rotate_left; iterate 4 rfl))
    | with_reducible refine sound_of_pair (by assumption) ?_
    | split

theorem sound_execDigAddrHiWrite {s : State} {r} {e} {value} (h : s.Sound) :
    SoundResult (execDigAddrHiWrite r e value s) := by
  unfold execDigAddrHiWrite
  try dsimp only
  apply sound_next
  repeat' first
    | with_reducible assumption
    | exact fun _ h1 h2 h3 => ⟨h1, h2, h3⟩
    | exact fun _ h1 => h1
    | (intro _; try dsimp only)
    | with_reducible apply sound_noteWrite
    | with_reducible apply sound_digError
    | with_reducible apply sound_modDigest
    | with_reducible apply sound_ite
    | with_reducible apply sound_ite_fst
    | with_reducible apply sound_foldl
    | fail_if_no_progress (with_reducible (apply sound_upd; rotate_left; iterate 4 rfl))
    | with_reducible refine sound_of_pair (by assumption) ?_
    | split

theorem sound_execDigDmaDone {s : State} {e} {data} (h : s.Sound) :
    SoundResult (execDigDmaDone e data s) := by
  unfold execDigDmaDone
  try dsimp only
  apply sound_next
  repeat' first
    | with_reducible assumption
    | exact fun _ h1 h2 h3 => ⟨h1, h2, h3⟩
    | exact fun _ h1 => h1
    | (intro _; try dsimp only)
    | with_reducible apply sound_digError
    | with_reducible apply sound_modDigest
    | with_reducible apply sound_ite
    | with_reducible apply sound_ite_fst
    | with_reducible apply sound_foldl
    | fail_if_no_progress (with_reducible (apply sound_upd; rotate_left; iterate 4 rfl))
    | with_reducible refine sound_of_pair (by assumption) ?_
    | split

theorem sound_execDigResultReady {s : State} {e} (h : s.Sound) :
    SoundResult (execDigResultReady e s) := by
  unfold execDigResultReady
  try dsimp only
  apply sound_next
  repeat' first
    | with_reducible assumption
    | exact fun _ h1 h2 h3 => ⟨h1, h2, h3⟩
    | exact fun _ h1 => h1
    | (intro _; try dsimp only)
    | with_reducible apply sound_event
    | with_reducible apply sound_modDigest
    | with_reducible apply sound_ite
    | with_reducible apply sound_ite_fst
    | with_reducible apply sound_foldl
    | fail_if_no_progress (with_reducible (apply sound_upd; rotate_left; iterate 4 rfl))
    | with_reducible refine sound_of_pair (by assumption) ?_
    | split

theorem sound_digRegister {s : State} {e} {off} {value} (h : s.Sound) :
    (State.digRegister s e off value).Sound := by
  unfold State.digRegister
  try dsimp only
  repeat' first
    | with_reducible assumption
    | exact fun _ h1 h2 h3 => ⟨h1, h2, h3⟩
    | exact fun _ h1 => h1
    | (intro _; try dsimp only)
    | with_reducible apply sound_modDigest
    | with_reducible apply sound_ite
    | with_reducible apply sound_ite_fst
    | with_reducible apply sound_foldl
    | fail_if_no_progress (with_reducible (apply sound_upd; rotate_left; iterate 4 rfl))
    | with_reducible refine sound_of_pair (by assumption) ?_
    | split

end Sys2Proof.Machine
end

