-- ==== Sys2Proof/Laws/SoundD.lean ====
section
/-!
SUPPORT. What the functions of Machine/KeyWrite, GrainEnd, GrainFp, GrainShort, GrainUnits keep sound.
-/
namespace Sys2Proof.Machine

set_option linter.unusedTactic false
set_option linter.unreachableTactic false

theorem sound_logCreated {s : State} {k} {path} (h : s.Sound) :
    (State.logCreated s k path).Sound := by
  unfold State.logCreated
  try dsimp only
  repeat' first
    | with_reducible assumption
    | exact fun _ h1 h2 h3 => ⟨h1, h2, h3⟩
    | exact fun _ h1 => h1
    | (intro _; try dsimp only)
    | with_reducible apply sound_log
    | with_reducible apply sound_ite
    | with_reducible apply sound_ite_fst
    | with_reducible apply sound_foldl
    | fail_if_no_progress (with_reducible (apply sound_upd; rotate_left; iterate 4 rfl))
    | with_reducible refine sound_of_pair (by assumption) ?_
    | split

theorem sound_logDestroyed {s : State} {k} {path} (h : s.Sound) :
    (State.logDestroyed s k path).Sound := by
  unfold State.logDestroyed
  try dsimp only
  repeat' first
    | with_reducible assumption
    | exact fun _ h1 h2 h3 => ⟨h1, h2, h3⟩
    | exact fun _ h1 => h1
    | (intro _; try dsimp only)
    | with_reducible apply sound_log
    | with_reducible apply sound_ite
    | with_reducible apply sound_ite_fst
    | with_reducible apply sound_foldl
    | fail_if_no_progress (with_reducible (apply sound_upd; rotate_left; iterate 4 rfl))
    | with_reducible refine sound_of_pair (by assumption) ?_
    | split

theorem sound_writeKey {s : State} {j} {k} {m} {st} {path} (h : s.Sound) :
    (State.writeKey s j k m st path).1.Sound := by
  unfold State.writeKey
  try dsimp only
  repeat' first
    | with_reducible assumption
    | exact fun _ h1 h2 h3 => ⟨h1, h2, h3⟩
    | exact fun _ h1 => h1
    | (intro _; try dsimp only)
    | with_reducible apply sound_event
    | with_reducible apply sound_modJob
    | with_reducible apply sound_modSlot
    | with_reducible apply sound_logCreated
    | with_reducible apply sound_ite
    | with_reducible apply sound_ite_fst
    | with_reducible apply sound_foldl
    | fail_if_no_progress (with_reducible (apply sound_upd; rotate_left; iterate 4 rfl))
    | with_reducible (apply sound_upd_vault; any_goals (first | apply Map.rising_insert | apply Map.rising_erase | apply Map.rising_modify | apply Map.rising_filter | apply Map.rising_mapVals | apply rising_ite))
    | with_reducible apply State.Sound.slots
    | with_reducible apply State.Sound.ctxs
    | with_reducible apply State.Sound.shelf
    | with_reducible apply Map.rising_insert
    | with_reducible apply Map.rising_erase
    | with_reducible apply Map.rising_modify
    | with_reducible apply Map.rising_filter
    | with_reducible apply Map.rising_mapVals
    | with_reducible apply rising_ite
    | with_reducible refine sound_of_pair (by assumption) ?_
    | split

theorem sound_abortHolders {s : State} {k} (h : s.Sound) :
    (State.abortHolders s k).Sound := by
  unfold State.abortHolders
  try dsimp only
  repeat' first
    | with_reducible assumption
    | exact fun _ h1 h2 h3 => ⟨h1, h2, h3⟩
    | exact fun _ h1 => h1
    | (intro _; try dsimp only)
    | with_reducible apply sound_abortJob
    | with_reducible apply sound_ite
    | with_reducible apply sound_ite_fst
    | with_reducible apply sound_foldl
    | fail_if_no_progress (with_reducible (apply sound_upd; rotate_left; iterate 4 rfl))
    | with_reducible (apply sound_upd_vault; any_goals (first | apply Map.rising_insert | apply Map.rising_erase | apply Map.rising_modify | apply Map.rising_filter | apply Map.rising_mapVals | apply rising_ite))
    | with_reducible apply State.Sound.slots
    | with_reducible apply State.Sound.ctxs
    | with_reducible apply State.Sound.shelf
    | with_reducible apply Map.rising_insert
    | with_reducible apply Map.rising_erase
    | with_reducible apply Map.rising_modify
    | with_reducible apply Map.rising_filter
    | with_reducible apply Map.rising_mapVals
    | with_reducible apply rising_ite
    | with_reducible refine sound_of_pair (by assumption) ?_
    | split

theorem sound_destroySlot {s : State} {k} {path} (h : s.Sound) :
    (State.destroySlot s k path).Sound := by
  unfold State.destroySlot
  try dsimp only
  repeat' first
    | with_reducible assumption
    | exact fun _ h1 h2 h3 => ⟨h1, h2, h3⟩
    | exact fun _ h1 => h1
    | (intro _; try dsimp only)
    | with_reducible apply sound_abortHolders
    | with_reducible apply sound_logDestroyed
    | with_reducible apply sound_ite
    | with_reducible apply sound_ite_fst
    | with_reducible apply sound_foldl
    | fail_if_no_progress (with_reducible (apply sound_upd; rotate_left; iterate 4 rfl))
    | with_reducible (apply sound_upd_vault; any_goals (first | apply Map.rising_insert | apply Map.rising_erase | apply Map.rising_modify | apply Map.rising_filter | apply Map.rising_mapVals | apply rising_ite))
    | with_reducible apply State.Sound.slots
    | with_reducible apply State.Sound.ctxs
    | with_reducible apply State.Sound.shelf
    | with_reducible apply Map.rising_insert
    | with_reducible apply Map.rising_erase
    | with_reducible apply Map.rising_modify
    | with_reducible apply Map.rising_filter
    | with_reducible apply Map.rising_mapVals
    | with_reducible apply rising_ite
    | with_reducible refine sound_of_pair (by assumption) ?_
    | split

theorem sound_execInpull {s : State} {g} {dst} {data} (h : s.Sound) :
    SoundResult (execInpull g dst data s) := by
  unfold execInpull
  try dsimp only
  apply sound_next
  repeat' first
    | with_reducible assumption
    | exact fun _ h1 h2 h3 => ⟨h1, h2, h3⟩
    | exact fun _ h1 => h1
    | (intro _; try dsimp only)
    | with_reducible apply sound_modJob
    | with_reducible apply sound_runGrain
    | with_reducible apply sound_endExecution
    | with_reducible apply sound_ite
    | with_reducible apply sound_ite_fst
    | with_reducible apply sound_foldl
    | fail_if_no_progress (with_reducible (apply sound_upd; rotate_left; iterate 4 rfl))
    | with_reducible refine sound_of_pair (by assumption) ?_
    | split

theorem sound_execOutpush {s : State} {g} {dst} {src1} {list} {accepted} (h : s.Sound) :
    SoundResult (execOutpush g dst src1 list accepted s) := by
  unfold execOutpush
  try dsimp only
  apply sound_next
  repeat' first
    | with_reducible assumption
    | exact fun _ h1 h2 h3 => ⟨h1, h2, h3⟩
    | exact fun _ h1 => h1
    | (intro _; try dsimp only)
    | with_reducible apply sound_runGrain
    | with_reducible apply sound_stopGrain
    | with_reducible apply sound_endExecution
    | with_reducible apply sound_dmaScatter
    | with_reducible apply sound_modJob
    | with_reducible apply sound_ite
    | with_reducible apply sound_ite_fst
    | with_reducible apply sound_foldl
    | fail_if_no_progress (with_reducible (apply sound_upd; rotate_left; iterate 4 rfl))
    | with_reducible refine sound_of_pair (by assumption) ?_
    | split

theorem sound_finishOk {s : State} {j} {g} {job} {mat} {st} {out} {written} {detail} (h : s.Sound) :
    (State.finishOk s j g job mat st out written detail).Sound := by
  unfold State.finishOk
  try dsimp only
  repeat' first
    | with_reducible assumption
    | exact fun _ h1 h2 h3 => ⟨h1, h2, h3⟩
    | exact fun _ h1 => h1
    | (intro _; try dsimp only)
    | with_reducible apply sound_endExecution
    | with_reducible apply sound_modJob
    | with_reducible apply sound_writeKey
    | with_reducible apply sound_ite
    | with_reducible apply sound_ite_fst
    | with_reducible apply sound_foldl
    | fail_if_no_progress (with_reducible (apply sound_upd; rotate_left; iterate 4 rfl))
    | with_reducible refine sound_of_pair (by assumption) ?_
    | split

theorem sound_judgeEnd {s : State} {j} {g} {job} (h : s.Sound) :
    (State.judgeEnd s j g job).Sound := by
  unfold State.judgeEnd
  try dsimp only
  repeat' first
    | with_reducible assumption
    | exact fun _ h1 h2 h3 => ⟨h1, h2, h3⟩
    | exact fun _ h1 => h1
    | (intro _; try dsimp only)
    | with_reducible apply sound_stopGrain
    | with_reducible apply sound_endExecution
    | with_reducible apply sound_finishOk
    | with_reducible apply sound_spend
    | with_reducible apply sound_ite
    | with_reducible apply sound_ite_fst
    | with_reducible apply sound_foldl
    | fail_if_no_progress (with_reducible (apply sound_upd; rotate_left; iterate 4 rfl))
    | with_reducible refine sound_of_pair (by assumption) ?_
    | split

theorem sound_execEndJob {s : State} {g} (h : s.Sound) :
    SoundResult (execEndJob g s) := by
  unfold execEndJob
  try dsimp only
  apply sound_next
  repeat' first
    | with_reducible assumption
    | exact fun _ h1 h2 h3 => ⟨h1, h2, h3⟩
    | exact fun _ h1 => h1
    | (intro _; try dsimp only)
    | with_reducible apply sound_judgeEnd
    | with_reducible apply sound_ite
    | with_reducible apply sound_ite_fst
    | with_reducible apply sound_foldl
    | fail_if_no_progress (with_reducible (apply sound_upd; rotate_left; iterate 4 rfl))
    | with_reducible refine sound_of_pair (by assumption) ?_
    | split

theorem sound_execIllegalEncoding {s : State} {g} (h : s.Sound) :
    SoundResult (execIllegalEncoding g s) := by
  unfold execIllegalEncoding
  try dsimp only
  apply sound_next
  repeat' first
    | with_reducible assumption
    | exact fun _ h1 h2 h3 => ⟨h1, h2, h3⟩
    | exact fun _ h1 => h1
    | (intro _; try dsimp only)
    | with_reducible apply sound_stopGrain
    | with_reducible apply sound_ite
    | with_reducible apply sound_ite_fst
    | with_reducible apply sound_foldl
    | fail_if_no_progress (with_reducible (apply sound_upd; rotate_left; iterate 4 rfl))
    | with_reducible refine sound_of_pair (by assumption) ?_
    | split

theorem sound_execPmRangeFetch {s : State} {g} (h : s.Sound) :
    SoundResult (execPmRangeFetch g s) := by
  unfold execPmRangeFetch
  try dsimp only
  apply sound_next
  repeat' first
    | with_reducible assumption
    | exact fun _ h1 h2 h3 => ⟨h1, h2, h3⟩
    | exact fun _ h1 => h1
    | (intro _; try dsimp only)
    | with_reducible apply sound_stopGrain
    | with_reducible apply sound_ite
    | with_reducible apply sound_ite_fst
    | with_reducible apply sound_foldl
    | fail_if_no_progress (with_reducible (apply sound_upd; rotate_left; iterate 4 rfl))
    | with_reducible refine sound_of_pair (by assumption) ?_
    | split

theorem sound_execCycleBoundReached {s : State} {g} (h : s.Sound) :
    SoundResult (execCycleBoundReached g s) := by
  unfold execCycleBoundReached
  try dsimp only
  apply sound_next
  repeat' first
    | with_reducible assumption
    | exact fun _ h1 h2 h3 => ⟨h1, h2, h3⟩
    | exact fun _ h1 => h1
    | (intro _; try dsimp only)
    | with_reducible apply sound_stopGrain
    | with_reducible apply sound_ite
    | with_reducible apply sound_ite_fst
    | with_reducible apply sound_foldl
    | fail_if_no_progress (with_reducible (apply sound_upd; rotate_left; iterate 4 rfl))
    | with_reducible refine sound_of_pair (by assumption) ?_
    | split

theorem sound_execProgramLoadDone {s : State} {g} (h : s.Sound) :
    SoundResult (execProgramLoadDone g s) := by
  unfold execProgramLoadDone
  try dsimp only
  apply sound_next
  repeat' first
    | with_reducible assumption
    | exact fun _ h1 h2 h3 => ⟨h1, h2, h3⟩
    | exact fun _ h1 => h1
    | (intro _; try dsimp only)
    | with_reducible apply sound_modGrain
    | with_reducible apply sound_ite
    | with_reducible apply sound_ite_fst
    | with_reducible apply sound_foldl
    | fail_if_no_progress (with_reducible (apply sound_upd; rotate_left; iterate 4 rfl))
    | with_reducible refine sound_of_pair (by assumption) ?_
    | split

theorem sound_clearGrain {s : State} {g} (h : s.Sound) :
    (State.clearGrain s g).Sound := by
  unfold State.clearGrain
  try dsimp only
  repeat' first
    | with_reducible assumption
    | exact fun _ h1 h2 h3 => ⟨h1, h2, h3⟩
    | exact fun _ h1 => h1
    | (intro _; try dsimp only)
    | with_reducible apply sound_modGrain
    | with_reducible apply sound_requestSeed
    | with_reducible apply sound_ite
    | with_reducible apply sound_ite_fst
    | with_reducible apply sound_foldl
    | fail_if_no_progress (with_reducible (apply sound_upd; rotate_left; iterate 4 rfl))
    | with_reducible refine sound_of_pair (by assumption) ?_
    | split

theorem sound_scrubDone {s : State} {g} (h : s.Sound) :
    (State.scrubDone s g).Sound := by
  unfold State.scrubDone
  try dsimp only
  repeat' first
    | with_reducible assumption
    | exact fun _ h1 h2 h3 => ⟨h1, h2, h3⟩
    | exact fun _ h1 => h1
    | (intro _; try dsimp only)
    | with_reducible apply sound_complete
    | with_reducible apply sound_clearGrain
    | with_reducible apply sound_modGrain
    | with_reducible apply sound_ite
    | with_reducible apply sound_ite_fst
    | with_reducible apply sound_foldl
    | fail_if_no_progress (with_reducible (apply sound_upd; rotate_left; iterate 4 rfl))
    | with_reducible refine sound_of_pair (by assumption) ?_
    | split

theorem sound_execGrainScrubDone {s : State} {g} (h : s.Sound) :
    SoundResult (execGrainScrubDone g s) := by
  unfold execGrainScrubDone
  try dsimp only
  apply sound_next
  repeat' first
    | with_reducible assumption
    | exact fun _ h1 h2 h3 => ⟨h1, h2, h3⟩
    | exact fun _ h1 => h1
    | (intro _; try dsimp only)
    | with_reducible apply sound_startApply
    | with_reducible apply sound_scrubDone
    | with_reducible apply sound_ite
    | with_reducible apply sound_ite_fst
    | with_reducible apply sound_foldl
    | fail_if_no_progress (with_reducible (apply sound_upd; rotate_left; iterate 4 rfl))
    | with_reducible refine sound_of_pair (by assumption) ?_
    | split

theorem sound_execExpanderSeedArrival {s : State} {g} (h : s.Sound) :
    SoundResult (execExpanderSeedArrival g s) := by
  unfold execExpanderSeedArrival
  try dsimp only
  apply sound_next
  repeat' first
    | with_reducible assumption
    | exact fun _ h1 h2 h3 => ⟨h1, h2, h3⟩
    | exact fun _ h1 => h1
    | (intro _; try dsimp only)
    | with_reducible apply sound_modGrain
    | with_reducible apply sound_ite
    | with_reducible apply sound_ite_fst
    | with_reducible apply sound_foldl
    | fail_if_no_progress (with_reducible (apply sound_upd; rotate_left; iterate 4 rfl))
    | with_reducible refine sound_of_pair (by assumption) ?_
    | split

theorem sound_dropReservation {s : State} {j} (h : s.Sound) :
    (State.dropReservation s j).Sound := by
  unfold State.dropReservation
  try dsimp only
  repeat' first
    | with_reducible assumption
    | exact fun _ h1 h2 h3 => ⟨h1, h2, h3⟩
    | exact fun _ h1 => h1
    | (intro _; try dsimp only)
    | with_reducible apply sound_modRng
    | with_reducible apply sound_ite
    | with_reducible apply sound_ite_fst
    | with_reducible apply sound_foldl
    | fail_if_no_progress (with_reducible (apply sound_upd; rotate_left; iterate 4 rfl))
    | with_reducible refine sound_of_pair (by assumption) ?_
    | split

theorem sound_execRngTimeout {s : State} {j} (h : s.Sound) :
    SoundResult (execRngTimeout j s) := by
  unfold execRngTimeout
  try dsimp only
  apply sound_next
  repeat' first
    | with_reducible assumption
    | exact fun _ h1 h2 h3 => ⟨h1, h2, h3⟩
    | exact fun _ h1 => h1
    | (intro _; try dsimp only)
    | with_reducible apply sound_complete
    | with_reducible apply sound_dropReservation
    | with_reducible apply sound_endExecution
    | with_reducible apply sound_ite
    | with_reducible apply sound_ite_fst
    | with_reducible apply sound_foldl
    | fail_if_no_progress (with_reducible (apply sound_upd; rotate_left; iterate 4 rfl))
    | with_reducible refine sound_of_pair (by assumption) ?_
    | split

theorem sound_execCsPatrolRead {s : State} {g} {word} (h : s.Sound) :
    SoundResult (execCsPatrolRead g word s) := by
  unfold execCsPatrolRead
  try dsimp only
  apply sound_next
  repeat' first
    | with_reducible assumption
    | exact fun _ h1 h2 h3 => ⟨h1, h2, h3⟩
    | exact fun _ h1 => h1
    | (intro _; try dsimp only)
    | with_reducible apply sound_modGrain
    | with_reducible apply sound_machineCheck
    | with_reducible apply sound_ite
    | with_reducible apply sound_ite_fst
    | with_reducible apply sound_foldl
    | fail_if_no_progress (with_reducible (apply sound_upd; rotate_left; iterate 4 rfl))
    | with_reducible refine sound_of_pair (by assumption) ?_
    | split

theorem sound_execCsReloadDone {s : State} {g} {readBackOk} (h : s.Sound) :
    SoundResult (execCsReloadDone g readBackOk s) := by
  unfold execCsReloadDone
  try dsimp only
  apply sound_next
  repeat' first
    | with_reducible assumption
    | exact fun _ h1 h2 h3 => ⟨h1, h2, h3⟩
    | exact fun _ h1 => h1
    | (intro _; try dsimp only)
    | with_reducible apply sound_modQuad
    | with_reducible apply sound_modBed
    | with_reducible apply sound_modGrain
    | with_reducible apply sound_retireGrain
    | with_reducible apply sound_ite
    | with_reducible apply sound_ite_fst
    | with_reducible apply sound_foldl
    | fail_if_no_progress (with_reducible (apply sound_upd; rotate_left; iterate 4 rfl))
    | with_reducible refine sound_of_pair (by assumption) ?_
    | split

theorem sound_execFadd {s : State} {g} {rm} {dst} {src1} {src2} (h : s.Sound) :
    SoundResult (execFadd g rm dst src1 src2 s) := by
  unfold execFadd
  try dsimp only
  apply sound_next
  repeat' first
    | with_reducible assumption
    | exact fun _ h1 h2 h3 => ⟨h1, h2, h3⟩
    | exact fun _ h1 => h1
    | (intro _; try dsimp only)
    | with_reducible apply sound_runGrain
    | with_reducible apply sound_ite
    | with_reducible apply sound_ite_fst
    | with_reducible apply sound_foldl
    | fail_if_no_progress (with_reducible (apply sound_upd; rotate_left; iterate 4 rfl))
    | with_reducible refine sound_of_pair (by assumption) ?_
    | split

theorem sound_execFsub {s : State} {g} {rm} {dst} {src1} {src2} (h : s.Sound) :
    SoundResult (execFsub g rm dst src1 src2 s) := by
  unfold execFsub
  try dsimp only
  apply sound_next
  repeat' first
    | with_reducible assumption
    | exact fun _ h1 h2 h3 => ⟨h1, h2, h3⟩
    | exact fun _ h1 => h1
    | (intro _; try dsimp only)
    | with_reducible apply sound_runGrain
    | with_reducible apply sound_ite
    | with_reducible apply sound_ite_fst
    | with_reducible apply sound_foldl
    | fail_if_no_progress (with_reducible (apply sound_upd; rotate_left; iterate 4 rfl))
    | with_reducible refine sound_of_pair (by assumption) ?_
    | split

theorem sound_execFmul {s : State} {g} {rm} {dst} {src1} {src2} (h : s.Sound) :
    SoundResult (execFmul g rm dst src1 src2 s) := by
  unfold execFmul
  try dsimp only
  apply sound_next
  repeat' first
    | with_reducible assumption
    | exact fun _ h1 h2 h3 => ⟨h1, h2, h3⟩
    | exact fun _ h1 => h1
    | (intro _; try dsimp only)
    | with_reducible apply sound_runGrain
    | with_reducible apply sound_ite
    | with_reducible apply sound_ite_fst
    | with_reducible apply sound_foldl
    | fail_if_no_progress (with_reducible (apply sound_upd; rotate_left; iterate 4 rfl))
    | with_reducible refine sound_of_pair (by assumption) ?_
    | split

theorem sound_execFdiv {s : State} {g} {rm} {dst} {src1} {src2} (h : s.Sound) :
    SoundResult (execFdiv g rm dst src1 src2 s) := by
  unfold execFdiv
  try dsimp only
  apply sound_next
  repeat' first
    | with_reducible assumption
    | exact fun _ h1 h2 h3 => ⟨h1, h2, h3⟩
    | exact fun _ h1 => h1
    | (intro _; try dsimp only)
    | with_reducible apply sound_runGrain
    | with_reducible apply sound_ite
    | with_reducible apply sound_ite_fst
    | with_reducible apply sound_foldl
    | fail_if_no_progress (with_reducible (apply sound_upd; rotate_left; iterate 4 rfl))
    | with_reducible refine sound_of_pair (by assumption) ?_
    | split

theorem sound_execFsqrt {s : State} {g} {rm} {dst} {src1} (h : s.Sound) :
    SoundResult (execFsqrt g rm dst src1 s) := by
  unfold execFsqrt
  try dsimp only
  apply sound_next
  repeat' first
    | with_reducible assumption
    | exact fun _ h1 h2 h3 => ⟨h1, h2, h3⟩
    | exact fun _ h1 => h1
    | (intro _; try dsimp only)
    | with_reducible apply sound_runGrain
    | with_reducible apply sound_ite
    | with_reducible apply sound_ite_fst
    | with_reducible apply sound_foldl
    | fail_if_no_progress (with_reducible (apply sound_upd; rotate_left; iterate 4 rfl))
    | with_reducible refine sound_of_pair (by assumption) ?_
    | split

theorem sound_execFma {s : State} {g} {rm} {dst} {src1} {src2} (h : s.Sound) :
    SoundResult (execFma g rm dst src1 src2 s) := by
  unfold execFma
  try dsimp only
  apply sound_next
  repeat' first
    | with_reducible assumption
    | exact fun _ h1 h2 h3 => ⟨h1, h2, h3⟩
    | exact fun _ h1 => h1
    | (intro _; try dsimp only)
    | with_reducible apply sound_runGrain
    | with_reducible apply sound_ite
    | with_reducible apply sound_ite_fst
    | with_reducible apply sound_foldl
    | fail_if_no_progress (with_reducible (apply sound_upd; rotate_left; iterate 4 rfl))
    | with_reducible refine sound_of_pair (by assumption) ?_
    | split

theorem sound_execFmin {s : State} {g} {rm} {dst} {src1} {src2} (h : s.Sound) :
    SoundResult (execFmin g rm dst src1 src2 s) := by
  unfold execFmin
  try dsimp only
  apply sound_next
  repeat' first
    | with_reducible assumption
    | exact fun _ h1 h2 h3 => ⟨h1, h2, h3⟩
    | exact fun _ h1 => h1
    | (intro _; try dsimp only)
    | with_reducible apply sound_runGrain
    | with_reducible apply sound_ite
    | with_reducible apply sound_ite_fst
    | with_reducible apply sound_foldl
    | fail_if_no_progress (with_reducible (apply sound_upd; rotate_left; iterate 4 rfl))
    | with_reducible refine sound_of_pair (by assumption) ?_
    | split

theorem sound_execFmax {s : State} {g} {rm} {dst} {src1} {src2} (h : s.Sound) :
    SoundResult (execFmax g rm dst src1 src2 s) := by
  unfold execFmax
  try dsimp only
  apply sound_next
  repeat' first
    | with_reducible assumption
    | exact fun _ h1 h2 h3 => ⟨h1, h2, h3⟩
    | exact fun _ h1 => h1
    | (intro _; try dsimp only)
    | with_reducible apply sound_runGrain
    | with_reducible apply sound_ite
    | with_reducible apply sound_ite_fst
    | with_reducible apply sound_foldl
    | fail_if_no_progress (with_reducible (apply sound_upd; rotate_left; iterate 4 rfl))
    | with_reducible refine sound_of_pair (by assumption) ?_
    | split

theorem sound_execFneg {s : State} {g} {rm} {dst} {src1} (h : s.Sound) :
    SoundResult (execFneg g rm dst src1 s) := by
  unfold execFneg
  try dsimp only
  apply sound_next
  repeat' first
    | with_reducible assumption
    | exact fun _ h1 h2 h3 => ⟨h1, h2, h3⟩
    | exact fun _ h1 => h1
    | (intro _; try dsimp only)
    | with_reducible apply sound_runGrain
    | with_reducible apply sound_ite
    | with_reducible apply sound_ite_fst
    | with_reducible apply sound_foldl
    | fail_if_no_progress (with_reducible (apply sound_upd; rotate_left; iterate 4 rfl))
    | with_reducible refine sound_of_pair (by assumption) ?_
    | split

theorem sound_execFabs {s : State} {g} {rm} {dst} {src1} (h : s.Sound) :
    SoundResult (execFabs g rm dst src1 s) := by
  unfold execFabs
  try dsimp only
  apply sound_next
  repeat' first
    | with_reducible assumption
    | exact fun _ h1 h2 h3 => ⟨h1, h2, h3⟩
    | exact fun _ h1 => h1
    | (intro _; try dsimp only)
    | with_reducible apply sound_runGrain
    | with_reducible apply sound_ite
    | with_reducible apply sound_ite_fst
    | with_reducible apply sound_foldl
    | fail_if_no_progress (with_reducible (apply sound_upd; rotate_left; iterate 4 rfl))
    | with_reducible refine sound_of_pair (by assumption) ?_
    | split

theorem sound_execFeq {s : State} {g} {rm} {dst} {src1} {src2} (h : s.Sound) :
    SoundResult (execFeq g rm dst src1 src2 s) := by
  unfold execFeq
  try dsimp only
  apply sound_next
  repeat' first
    | with_reducible assumption
    | exact fun _ h1 h2 h3 => ⟨h1, h2, h3⟩
    | exact fun _ h1 => h1
    | (intro _; try dsimp only)
    | with_reducible apply sound_runGrain
    | with_reducible apply sound_ite
    | with_reducible apply sound_ite_fst
    | with_reducible apply sound_foldl
    | fail_if_no_progress (with_reducible (apply sound_upd; rotate_left; iterate 4 rfl))
    | with_reducible refine sound_of_pair (by assumption) ?_
    | split

theorem sound_execFlt {s : State} {g} {rm} {dst} {src1} {src2} (h : s.Sound) :
    SoundResult (execFlt g rm dst src1 src2 s) := by
  unfold execFlt
  try dsimp only
  apply sound_next
  repeat' first
    | with_reducible assumption
    | exact fun _ h1 h2 h3 => ⟨h1, h2, h3⟩
    | exact fun _ h1 => h1
    | (intro _; try dsimp only)
    | with_reducible apply sound_runGrain
    | with_reducible apply sound_ite
    | with_reducible apply sound_ite_fst
    | with_reducible apply sound_foldl
    | fail_if_no_progress (with_reducible (apply sound_upd; rotate_left; iterate 4 rfl))
    | with_reducible refine sound_of_pair (by assumption) ?_
    | split

theorem sound_execFle {s : State} {g} {rm} {dst} {src1} {src2} (h : s.Sound) :
    SoundResult (execFle g rm dst src1 src2 s) := by
  unfold execFle
  try dsimp only
  apply sound_next
  repeat' first
    | with_reducible assumption
    | exact fun _ h1 h2 h3 => ⟨h1, h2, h3⟩
    | exact fun _ h1 => h1
    | (intro _; try dsimp only)
    | with_reducible apply sound_runGrain
    | with_reducible apply sound_ite
    | with_reducible apply sound_ite_fst
    | with_reducible apply sound_foldl
    | fail_if_no_progress (with_reducible (apply sound_upd; rotate_left; iterate 4 rfl))
    | with_reducible refine sound_of_pair (by assumption) ?_
    | split

theorem sound_execFcvtld {s : State} {g} {rm} {dst} {src1} (h : s.Sound) :
    SoundResult (execFcvtld g rm dst src1 s) := by
  unfold execFcvtld
  try dsimp only
  apply sound_next
  repeat' first
    | with_reducible assumption
    | exact fun _ h1 h2 h3 => ⟨h1, h2, h3⟩
    | exact fun _ h1 => h1
    | (intro _; try dsimp only)
    | with_reducible apply sound_runGrain
    | with_reducible apply sound_ite
    | with_reducible apply sound_ite_fst
    | with_reducible apply sound_foldl
    | fail_if_no_progress (with_reducible (apply sound_upd; rotate_left; iterate 4 rfl))
    | with_reducible refine sound_of_pair (by assumption) ?_
    | split

theorem sound_execFcvtdl {s : State} {g} {rm} {dst} {src1} (h : s.Sound) :
    SoundResult (execFcvtdl g rm dst src1 s) := by
  unfold execFcvtdl
  try dsimp only
  apply sound_next
  repeat' first
    | with_reducible assumption
    | exact fun _ h1 h2 h3 => ⟨h1, h2, h3⟩
    | exact fun _ h1 => h1
    | (intro _; try dsimp only)
    | with_reducible apply sound_runGrain
    | with_reducible apply sound_ite
    | with_reducible apply sound_ite_fst
    | with_reducible apply sound_foldl
    | fail_if_no_progress (with_reducible (apply sound_upd; rotate_left; iterate 4 rfl))
    | with_reducible refine sound_of_pair (by assumption) ?_
    | split

theorem sound_execFmvxd {s : State} {g} {rm} {dst} {src1} (h : s.Sound) :
    SoundResult (execFmvxd g rm dst src1 s) := by
  unfold execFmvxd
  try dsimp only
  apply sound_next
  repeat' first
    | with_reducible assumption
    | exact fun _ h1 h2 h3 => ⟨h1, h2, h3⟩
    | exact fun _ h1 => h1
    | (intro _; try dsimp only)
    | with_reducible apply sound_runGrain
    | with_reducible apply sound_ite
    | with_reducible apply sound_ite_fst
    | with_reducible apply sound_foldl
    | fail_if_no_progress (with_reducible (apply sound_upd; rotate_left; iterate 4 rfl))
    | with_reducible refine sound_of_pair (by assumption) ?_
    | split

theorem sound_execFmvdx {s : State} {g} {rm} {dst} {src1} (h : s.Sound) :
    SoundResult (execFmvdx g rm dst src1 s) := by
  unfold execFmvdx
  try dsimp only
  apply sound_next
  repeat' first
    | with_reducible assumption
    | exact fun _ h1 h2 h3 => ⟨h1, h2, h3⟩
    | exact fun _ h1 => h1
    | (intro _; try dsimp only)
    | with_reducible apply sound_runGrain
    | with_reducible apply sound_ite
    | with_reducible apply sound_ite_fst
    | with_reducible apply sound_foldl
    | fail_if_no_progress (with_reducible (apply sound_upd; rotate_left; iterate 4 rfl))
    | with_reducible refine sound_of_pair (by assumption) ?_
    | split

theorem sound_execSvVadd {s : State} {g} {ew} {dst} {src1} {src2} (h : s.Sound) :
    SoundResult (execSvVadd g ew dst src1 src2 s) := by
  unfold execSvVadd
  try dsimp only
  apply sound_next
  repeat' first
    | with_reducible assumption
    | exact fun _ h1 h2 h3 => ⟨h1, h2, h3⟩
    | exact fun _ h1 => h1
    | (intro _; try dsimp only)
    | with_reducible apply sound_runGrain
    | with_reducible apply sound_ite
    | with_reducible apply sound_ite_fst
    | with_reducible apply sound_foldl
    | fail_if_no_progress (with_reducible (apply sound_upd; rotate_left; iterate 4 rfl))
    | with_reducible refine sound_of_pair (by assumption) ?_
    | split

theorem sound_execSvVsub {s : State} {g} {ew} {dst} {src1} {src2} (h : s.Sound) :
    SoundResult (execSvVsub g ew dst src1 src2 s) := by
  unfold execSvVsub
  try dsimp only
  apply sound_next
  repeat' first
    | with_reducible assumption
    | exact fun _ h1 h2 h3 => ⟨h1, h2, h3⟩
    | exact fun _ h1 => h1
    | (intro _; try dsimp only)
    | with_reducible apply sound_runGrain
    | with_reducible apply sound_ite
    | with_reducible apply sound_ite_fst
    | with_reducible apply sound_foldl
    | fail_if_no_progress (with_reducible (apply sound_upd; rotate_left; iterate 4 rfl))
    | with_reducible refine sound_of_pair (by assumption) ?_
    | split

theorem sound_execSvVand {s : State} {g} {ew} {dst} {src1} {src2} (h : s.Sound) :
    SoundResult (execSvVand g ew dst src1 src2 s) := by
  unfold execSvVand
  try dsimp only
  apply sound_next
  repeat' first
    | with_reducible assumption
    | exact fun _ h1 h2 h3 => ⟨h1, h2, h3⟩
    | exact fun _ h1 => h1
    | (intro _; try dsimp only)
    | with_reducible apply sound_runGrain
    | with_reducible apply sound_ite
    | with_reducible apply sound_ite_fst
    | with_reducible apply sound_foldl
    | fail_if_no_progress (with_reducible (apply sound_upd; rotate_left; iterate 4 rfl))
    | with_reducible refine sound_of_pair (by assumption) ?_
    | split

theorem sound_execSvVor {s : State} {g} {ew} {dst} {src1} {src2} (h : s.Sound) :
    SoundResult (execSvVor g ew dst src1 src2 s) := by
  unfold execSvVor
  try dsimp only
  apply sound_next
  repeat' first
    | with_reducible assumption
    | exact fun _ h1 h2 h3 => ⟨h1, h2, h3⟩
    | exact fun _ h1 => h1
    | (intro _; try dsimp only)
    | with_reducible apply sound_runGrain
    | with_reducible apply sound_ite
    | with_reducible apply sound_ite_fst
    | with_reducible apply sound_foldl
    | fail_if_no_progress (with_reducible (apply sound_upd; rotate_left; iterate 4 rfl))
    | with_reducible refine sound_of_pair (by assumption) ?_
    | split

theorem sound_execSvVxor {s : State} {g} {ew} {dst} {src1} {src2} (h : s.Sound) :
    SoundResult (execSvVxor g ew dst src1 src2 s) := by
  unfold execSvVxor
  try dsimp only
  apply sound_next
  repeat' first
    | with_reducible assumption
    | exact fun _ h1 h2 h3 => ⟨h1, h2, h3⟩
    | exact fun _ h1 => h1
    | (intro _; try dsimp only)
    | with_reducible apply sound_runGrain
    | with_reducible apply sound_ite
    | with_reducible apply sound_ite_fst
    | with_reducible apply sound_foldl
    | fail_if_no_progress (with_reducible (apply sound_upd; rotate_left; iterate 4 rfl))
    | with_reducible refine sound_of_pair (by assumption) ?_
    | split

theorem sound_execSvVandn {s : State} {g} {ew} {dst} {src1} {src2} (h : s.Sound) :
    SoundResult (execSvVandn g ew dst src1 src2 s) := by
  unfold execSvVandn
  try dsimp only
  apply sound_next
  repeat' first
    | with_reducible assumption
    | exact fun _ h1 h2 h3 => ⟨h1, h2, h3⟩
    | exact fun _ h1 => h1
    | (intro _; try dsimp only)
    | with_reducible apply sound_runGrain
    | with_reducible apply sound_ite
    | with_reducible apply sound_ite_fst
    | with_reducible apply sound_foldl
    | fail_if_no_progress (with_reducible (apply sound_upd; rotate_left; iterate 4 rfl))
    | with_reducible refine sound_of_pair (by assumption) ?_
    | split

theorem sound_execSvVshl {s : State} {g} {ew} {dst} {src1} {src2} (h : s.Sound) :
    SoundResult (execSvVshl g ew dst src1 src2 s) := by
  unfold execSvVshl
  try dsimp only
  apply sound_next
  repeat' first
    | with_reducible assumption
    | exact fun _ h1 h2 h3 => ⟨h1, h2, h3⟩
    | exact fun _ h1 => h1
    | (intro _; try dsimp only)
    | with_reducible apply sound_runGrain
    | with_reducible apply sound_ite
    | with_reducible apply sound_ite_fst
    | with_reducible apply sound_foldl
    | fail_if_no_progress (with_reducible (apply sound_upd; rotate_left; iterate 4 rfl))
    | with_reducible refine sound_of_pair (by assumption) ?_
    | split

theorem sound_execSvVsrl {s : State} {g} {ew} {dst} {src1} {src2} (h : s.Sound) :
    SoundResult (execSvVsrl g ew dst src1 src2 s) := by
  unfold execSvVsrl
  try dsimp only
  apply sound_next
  repeat' first
    | with_reducible assumption
    | exact fun _ h1 h2 h3 => ⟨h1, h2, h3⟩
    | exact fun _ h1 => h1
    | (intro _; try dsimp only)
    | with_reducible apply sound_runGrain
    | with_reducible apply sound_ite
    | with_reducible apply sound_ite_fst
    | with_reducible apply sound_foldl
    | fail_if_no_progress (with_reducible (apply sound_upd; rotate_left; iterate 4 rfl))
    | with_reducible refine sound_of_pair (by assumption) ?_
    | split

theorem sound_execSvVsra {s : State} {g} {ew} {dst} {src1} {src2} (h : s.Sound) :
    SoundResult (execSvVsra g ew dst src1 src2 s) := by
  unfold execSvVsra
  try dsimp only
  apply sound_next
  repeat' first
    | with_reducible assumption
    | exact fun _ h1 h2 h3 => ⟨h1, h2, h3⟩
    | exact fun _ h1 => h1
    | (intro _; try dsimp only)
    | with_reducible apply sound_runGrain
    | with_reducible apply sound_ite
    | with_reducible apply sound_ite_fst
    | with_reducible apply sound_foldl
    | fail_if_no_progress (with_reducible (apply sound_upd; rotate_left; iterate 4 rfl))
    | with_reducible refine sound_of_pair (by assumption) ?_
    | split

theorem sound_execSvVcmpeq {s : State} {g} {ew} {dst} {src1} {src2} (h : s.Sound) :
    SoundResult (execSvVcmpeq g ew dst src1 src2 s) := by
  unfold execSvVcmpeq
  try dsimp only
  apply sound_next
  repeat' first
    | with_reducible assumption
    | exact fun _ h1 h2 h3 => ⟨h1, h2, h3⟩
    | exact fun _ h1 => h1
    | (intro _; try dsimp only)
    | with_reducible apply sound_runGrain
    | with_reducible apply sound_ite
    | with_reducible apply sound_ite_fst
    | with_reducible apply sound_foldl
    | fail_if_no_progress (with_reducible (apply sound_upd; rotate_left; iterate 4 rfl))
    | with_reducible refine sound_of_pair (by assumption) ?_
    | split

theorem sound_execSvVcmpgt {s : State} {g} {ew} {dst} {src1} {src2} (h : s.Sound) :
    SoundResult (execSvVcmpgt g ew dst src1 src2 s) := by
  unfold execSvVcmpgt
  try dsimp only
  apply sound_next
  repeat' first
    | with_reducible assumption
    | exact fun _ h1 h2 h3 => ⟨h1, h2, h3⟩
    | exact fun _ h1 => h1
    | (intro _; try dsimp only)
    | with_reducible apply sound_runGrain
    | with_reducible apply sound_ite
    | with_reducible apply sound_ite_fst
    | with_reducible apply sound_foldl
    | fail_if_no_progress (with_reducible (apply sound_upd; rotate_left; iterate 4 rfl))
    | with_reducible refine sound_of_pair (by assumption) ?_
    | split

theorem sound_execSvVsel {s : State} {g} {ew} {dst} {src1} {src2} (h : s.Sound) :
    SoundResult (execSvVsel g ew dst src1 src2 s) := by
  unfold execSvVsel
  try dsimp only
  apply sound_next
  repeat' first
    | with_reducible assumption
    | exact fun _ h1 h2 h3 => ⟨h1, h2, h3⟩
    | exact fun _ h1 => h1
    | (intro _; try dsimp only)
    | with_reducible apply sound_runGrain
    | with_reducible apply sound_ite
    | with_reducible apply sound_ite_fst
    | with_reducible apply sound_foldl
    | fail_if_no_progress (with_reducible (apply sound_upd; rotate_left; iterate 4 rfl))
    | with_reducible refine sound_of_pair (by assumption) ?_
    | split

theorem sound_execSvVmullo {s : State} {g} {ew} {dst} {src1} {src2} (h : s.Sound) :
    SoundResult (execSvVmullo g ew dst src1 src2 s) := by
  unfold execSvVmullo
  try dsimp only
  apply sound_next
  repeat' first
    | with_reducible assumption
    | exact fun _ h1 h2 h3 => ⟨h1, h2, h3⟩
    | exact fun _ h1 => h1
    | (intro _; try dsimp only)
    | with_reducible apply sound_runGrain
    | with_reducible apply sound_ite
    | with_reducible apply sound_ite_fst
    | with_reducible apply sound_foldl
    | fail_if_no_progress (with_reducible (apply sound_upd; rotate_left; iterate 4 rfl))
    | with_reducible refine sound_of_pair (by assumption) ?_
    | split

theorem sound_execSvVmulhi {s : State} {g} {ew} {dst} {src1} {src2} (h : s.Sound) :
    SoundResult (execSvVmulhi g ew dst src1 src2 s) := by
  unfold execSvVmulhi
  try dsimp only
  apply sound_next
  repeat' first
    | with_reducible assumption
    | exact fun _ h1 h2 h3 => ⟨h1, h2, h3⟩
    | exact fun _ h1 => h1
    | (intro _; try dsimp only)
    | with_reducible apply sound_runGrain
    | with_reducible apply sound_ite
    | with_reducible apply sound_ite_fst
    | with_reducible apply sound_foldl
    | fail_if_no_progress (with_reducible (apply sound_upd; rotate_left; iterate 4 rfl))
    | with_reducible refine sound_of_pair (by assumption) ?_
    | split

theorem sound_execSvVpermb {s : State} {g} {ew} {dst} {src1} {src2} (h : s.Sound) :
    SoundResult (execSvVpermb g ew dst src1 src2 s) := by
  unfold execSvVpermb
  try dsimp only
  apply sound_next
  repeat' first
    | with_reducible assumption
    | exact fun _ h1 h2 h3 => ⟨h1, h2, h3⟩
    | exact fun _ h1 => h1
    | (intro _; try dsimp only)
    | with_reducible apply sound_runGrain
    | with_reducible apply sound_ite
    | with_reducible apply sound_ite_fst
    | with_reducible apply sound_foldl
    | fail_if_no_progress (with_reducible (apply sound_upd; rotate_left; iterate 4 rfl))
    | with_reducible refine sound_of_pair (by assumption) ?_
    | split

theorem sound_execSvVsplat {s : State} {g} {ew} {dst} {src1} (h : s.Sound) :
    SoundResult (execSvVsplat g ew dst src1 s) := by
  unfold execSvVsplat
  try dsimp only
  apply sound_next
  repeat' first
    | with_reducible assumption
    | exact fun _ h1 h2 h3 => ⟨h1, h2, h3⟩
    | exact fun _ h1 => h1
    | (intro _; try dsimp only)
    | with_reducible apply sound_runGrain
    | with_reducible apply sound_ite
    | with_reducible apply sound_ite_fst
    | with_reducible apply sound_foldl
    | fail_if_no_progress (with_reducible (apply sound_upd; rotate_left; iterate 4 rfl))
    | with_reducible refine sound_of_pair (by assumption) ?_
    | split

theorem sound_execSvVins {s : State} {g} {ew} {dst} {src1} {index} (h : s.Sound) :
    SoundResult (execSvVins g ew dst src1 index s) := by
  unfold execSvVins
  try dsimp only
  apply sound_next
  repeat' first
    | with_reducible assumption
    | exact fun _ h1 h2 h3 => ⟨h1, h2, h3⟩
    | exact fun _ h1 => h1
    | (intro _; try dsimp only)
    | with_reducible apply sound_runGrain
    | with_reducible apply sound_ite
    | with_reducible apply sound_ite_fst
    | with_reducible apply sound_foldl
    | fail_if_no_progress (with_reducible (apply sound_upd; rotate_left; iterate 4 rfl))
    | with_reducible refine sound_of_pair (by assumption) ?_
    | split

theorem sound_execSvVext {s : State} {g} {ew} {dst} {src1} {index} (h : s.Sound) :
    SoundResult (execSvVext g ew dst src1 index s) := by
  unfold execSvVext
  try dsimp only
  apply sound_next
  repeat' first
    | with_reducible assumption
    | exact fun _ h1 h2 h3 => ⟨h1, h2, h3⟩
    | exact fun _ h1 => h1
    | (intro _; try dsimp only)
    | with_reducible apply sound_runGrain
    | with_reducible apply sound_ite
    | with_reducible apply sound_ite_fst
    | with_reducible apply sound_foldl
    | fail_if_no_progress (with_reducible (apply sound_upd; rotate_left; iterate 4 rfl))
    | with_reducible refine sound_of_pair (by assumption) ?_
    | split

theorem sound_execShainit {s : State} {g} {variant} (h : s.Sound) :
    SoundResult (execShainit g variant s) := by
  unfold execShainit
  try dsimp only
  apply sound_next
  repeat' first
    | with_reducible assumption
    | exact fun _ h1 h2 h3 => ⟨h1, h2, h3⟩
    | exact fun _ h1 => h1
    | (intro _; try dsimp only)
    | with_reducible apply sound_runGrain
    | with_reducible apply sound_ite
    | with_reducible apply sound_ite_fst
    | with_reducible apply sound_foldl
    | fail_if_no_progress (with_reducible (apply sound_upd; rotate_left; iterate 4 rfl))
    | with_reducible refine sound_of_pair (by assumption) ?_
    | split

theorem sound_execShablk {s : State} {g} {src1} (h : s.Sound) :
    SoundResult (execShablk g src1 s) := by
  unfold execShablk
  try dsimp only
  apply sound_next
  repeat' first
    | with_reducible assumption
    | exact fun _ h1 h2 h3 => ⟨h1, h2, h3⟩
    | exact fun _ h1 => h1
    | (intro _; try dsimp only)
    | with_reducible apply sound_runGrain
    | with_reducible apply sound_ite
    | with_reducible apply sound_ite_fst
    | with_reducible apply sound_foldl
    | fail_if_no_progress (with_reducible (apply sound_upd; rotate_left; iterate 4 rfl))
    | with_reducible refine sound_of_pair (by assumption) ?_
    | split

theorem sound_execShaout {s : State} {g} {src1} (h : s.Sound) :
    SoundResult (execShaout g src1 s) := by
  unfold execShaout
  try dsimp only
  apply sound_next
  repeat' first
    | with_reducible assumption
    | exact fun _ h1 h2 h3 => ⟨h1, h2, h3⟩
    | exact fun _ h1 => h1
    | (intro _; try dsimp only)
    | with_reducible apply sound_runGrain
    | with_reducible apply sound_ite
    | with_reducible apply sound_ite_fst
    | with_reducible apply sound_foldl
    | fail_if_no_progress (with_reducible (apply sound_upd; rotate_left; iterate 4 rfl))
    | with_reducible refine sound_of_pair (by assumption) ?_
    | split

theorem sound_execShald {s : State} {g} {src1} (h : s.Sound) :
    SoundResult (execShald g src1 s) := by
  unfold execShald
  try dsimp only
  apply sound_next
  repeat' first
    | with_reducible assumption
    | exact fun _ h1 h2 h3 => ⟨h1, h2, h3⟩
    | exact fun _ h1 => h1
    | (intro _; try dsimp only)
    | with_reducible apply sound_runGrain
    | with_reducible apply sound_ite
    | with_reducible apply sound_ite_fst
    | with_reducible apply sound_foldl
    | fail_if_no_progress (with_reducible (apply sound_upd; rotate_left; iterate 4 rfl))
    | with_reducible refine sound_of_pair (by assumption) ?_
    | split

theorem sound_execAeskey {s : State} {g} {src1} {kind} (h : s.Sound) :
    SoundResult (execAeskey g src1 kind s) := by
  unfold execAeskey
  try dsimp only
  apply sound_next
  repeat' first
    | with_reducible assumption
    | exact fun _ h1 h2 h3 => ⟨h1, h2, h3⟩
    | exact fun _ h1 => h1
    | (intro _; try dsimp only)
    | with_reducible apply sound_runGrain
    | with_reducible apply sound_ite
    | with_reducible apply sound_ite_fst
    | with_reducible apply sound_foldl
    | fail_if_no_progress (with_reducible (apply sound_upd; rotate_left; iterate 4 rfl))
    | with_reducible refine sound_of_pair (by assumption) ?_
    | split

theorem sound_execAeskeym {s : State} {g} {src1} {kind} (h : s.Sound) :
    SoundResult (execAeskeym g src1 kind s) := by
  unfold execAeskeym
  try dsimp only
  apply sound_next
  repeat' first
    | with_reducible assumption
    | exact fun _ h1 h2 h3 => ⟨h1, h2, h3⟩
    | exact fun _ h1 => h1
    | (intro _; try dsimp only)
    | with_reducible apply sound_runGrain
    | with_reducible apply sound_ite
    | with_reducible apply sound_ite_fst
    | with_reducible apply sound_foldl
    | fail_if_no_progress (with_reducible (apply sound_upd; rotate_left; iterate 4 rfl))
    | with_reducible refine sound_of_pair (by assumption) ?_
    | split

theorem sound_execTdeskey {s : State} {g} {src1} {kind} (h : s.Sound) :
    SoundResult (execTdeskey g src1 kind s) := by
  unfold execTdeskey
  try dsimp only
  apply sound_next
  repeat' first
    | with_reducible assumption
    | exact fun _ h1 h2 h3 => ⟨h1, h2, h3⟩
    | exact fun _ h1 => h1
    | (intro _; try dsimp only)
    | with_reducible apply sound_runGrain
    | with_reducible apply sound_ite
    | with_reducible apply sound_ite_fst
    | with_reducible apply sound_foldl
    | fail_if_no_progress (with_reducible (apply sound_upd; rotate_left; iterate 4 rfl))
    | with_reducible refine sound_of_pair (by assumption) ?_
    | split

theorem sound_execTdeskeym {s : State} {g} {src1} {kind} (h : s.Sound) :
    SoundResult (execTdeskeym g src1 kind s) := by
  unfold execTdeskeym
  try dsimp only
  apply sound_next
  repeat' first
    | with_reducible assumption
    | exact fun _ h1 h2 h3 => ⟨h1, h2, h3⟩
    | exact fun _ h1 => h1
    | (intro _; try dsimp only)
    | with_reducible apply sound_runGrain
    | with_reducible apply sound_ite
    | with_reducible apply sound_ite_fst
    | with_reducible apply sound_foldl
    | fail_if_no_progress (with_reducible (apply sound_upd; rotate_left; iterate 4 rfl))
    | with_reducible refine sound_of_pair (by assumption) ?_
    | split

theorem sound_execAesenc {s : State} {g} {dst} {src1} (h : s.Sound) :
    SoundResult (execAesenc g dst src1 s) := by
  unfold execAesenc
  try dsimp only
  apply sound_next
  repeat' first
    | with_reducible assumption
    | exact fun _ h1 h2 h3 => ⟨h1, h2, h3⟩
    | exact fun _ h1 => h1
    | (intro _; try dsimp only)
    | with_reducible apply sound_runGrain
    | with_reducible apply sound_ite
    | with_reducible apply sound_ite_fst
    | with_reducible apply sound_foldl
    | fail_if_no_progress (with_reducible (apply sound_upd; rotate_left; iterate 4 rfl))
    | with_reducible refine sound_of_pair (by assumption) ?_
    | split

theorem sound_execAesdec {s : State} {g} {dst} {src1} (h : s.Sound) :
    SoundResult (execAesdec g dst src1 s) := by
  unfold execAesdec
  try dsimp only
  apply sound_next
  repeat' first
    | with_reducible assumption
    | exact fun _ h1 h2 h3 => ⟨h1, h2, h3⟩
    | exact fun _ h1 => h1
    | (intro _; try dsimp only)
    | with_reducible apply sound_runGrain
    | with_reducible apply sound_ite
    | with_reducible apply sound_ite_fst
    | with_reducible apply sound_foldl
    | fail_if_no_progress (with_reducible (apply sound_upd; rotate_left; iterate 4 rfl))
    | with_reducible refine sound_of_pair (by assumption) ?_
    | split

theorem sound_execAesencm {s : State} {g} {dst} {src1} (h : s.Sound) :
    SoundResult (execAesencm g dst src1 s) := by
  unfold execAesencm
  try dsimp only
  apply sound_next
  repeat' first
    | with_reducible assumption
    | exact fun _ h1 h2 h3 => ⟨h1, h2, h3⟩
    | exact fun _ h1 => h1
    | (intro _; try dsimp only)
    | with_reducible apply sound_runGrain
    | with_reducible apply sound_ite
    | with_reducible apply sound_ite_fst
    | with_reducible apply sound_foldl
    | fail_if_no_progress (with_reducible (apply sound_upd; rotate_left; iterate 4 rfl))
    | with_reducible refine sound_of_pair (by assumption) ?_
    | split

theorem sound_execAesdecm {s : State} {g} {dst} {src1} (h : s.Sound) :
    SoundResult (execAesdecm g dst src1 s) := by
  unfold execAesdecm
  try dsimp only
  apply sound_next
  repeat' first
    | with_reducible assumption
    | exact fun _ h1 h2 h3 => ⟨h1, h2, h3⟩
    | exact fun _ h1 => h1
    | (intro _; try dsimp only)
    | with_reducible apply sound_runGrain
    | with_reducible apply sound_ite
    | with_reducible apply sound_ite_fst
    | with_reducible apply sound_foldl
    | fail_if_no_progress (with_reducible (apply sound_upd; rotate_left; iterate 4 rfl))
    | with_reducible refine sound_of_pair (by assumption) ?_
    | split

theorem sound_execTdesenc {s : State} {g} {dst} {src1} (h : s.Sound) :
    SoundResult (execTdesenc g dst src1 s) := by
  unfold execTdesenc
  try dsimp only
  apply sound_next
  repeat' first
    | with_reducible assumption
    | exact fun _ h1 h2 h3 => ⟨h1, h2, h3⟩
    | exact fun _ h1 => h1
    | (intro _; try dsimp only)
    | with_reducible apply sound_runGrain
    | with_reducible apply sound_ite
    | with_reducible apply sound_ite_fst
    | with_reducible apply sound_foldl
    | fail_if_no_progress (with_reducible (apply sound_upd; rotate_left; iterate 4 rfl))
    | with_reducible refine sound_of_pair (by assumption) ?_
    | split

theorem sound_execTdesdec {s : State} {g} {dst} {src1} (h : s.Sound) :
    SoundResult (execTdesdec g dst src1 s) := by
  unfold execTdesdec
  try dsimp only
  apply sound_next
  repeat' first
    | with_reducible assumption
    | exact fun _ h1 h2 h3 => ⟨h1, h2, h3⟩
    | exact fun _ h1 => h1
    | (intro _; try dsimp only)
    | with_reducible apply sound_runGrain
    | with_reducible apply sound_ite
    | with_reducible apply sound_ite_fst
    | with_reducible apply sound_foldl
    | fail_if_no_progress (with_reducible (apply sound_upd; rotate_left; iterate 4 rfl))
    | with_reducible refine sound_of_pair (by assumption) ?_
    | split

theorem sound_execTdesencm {s : State} {g} {dst} {src1} (h : s.Sound) :
    SoundResult (execTdesencm g dst src1 s) := by
  unfold execTdesencm
  try dsimp only
  apply sound_next
  repeat' first
    | with_reducible assumption
    | exact fun _ h1 h2 h3 => ⟨h1, h2, h3⟩
    | exact fun _ h1 => h1
    | (intro _; try dsimp only)
    | with_reducible apply sound_runGrain
    | with_reducible apply sound_ite
    | with_reducible apply sound_ite_fst
    | with_reducible apply sound_foldl
    | fail_if_no_progress (with_reducible (apply sound_upd; rotate_left; iterate 4 rfl))
    | with_reducible refine sound_of_pair (by assumption) ?_
    | split

theorem sound_execTdesdecm {s : State} {g} {dst} {src1} (h : s.Sound) :
    SoundResult (execTdesdecm g dst src1 s) := by
  unfold execTdesdecm
  try dsimp only
  apply sound_next
  repeat' first
    | with_reducible assumption
    | exact fun _ h1 h2 h3 => ⟨h1, h2, h3⟩
    | exact fun _ h1 => h1
    | (intro _; try dsimp only)
    | with_reducible apply sound_runGrain
    | with_reducible apply sound_ite
    | with_reducible apply sound_ite_fst
    | with_reducible apply sound_foldl
    | fail_if_no_progress (with_reducible (apply sound_upd; rotate_left; iterate 4 rfl))
    | with_reducible refine sound_of_pair (by assumption) ?_
    | split

theorem sound_execKperm {s : State} {g} {src1} (h : s.Sound) :
    SoundResult (execKperm g src1 s) := by
  unfold execKperm
  try dsimp only
  apply sound_next
  repeat' first
    | with_reducible assumption
    | exact fun _ h1 h2 h3 => ⟨h1, h2, h3⟩
    | exact fun _ h1 => h1
    | (intro _; try dsimp only)
    | with_reducible apply sound_runGrain
    | with_reducible apply sound_ite
    | with_reducible apply sound_ite_fst
    | with_reducible apply sound_foldl
    | fail_if_no_progress (with_reducible (apply sound_upd; rotate_left; iterate 4 rfl))
    | with_reducible refine sound_of_pair (by assumption) ?_
    | split

theorem sound_execCsrr {s : State} {g} {dst} {csr} (h : s.Sound) :
    SoundResult (execCsrr g dst csr s) := by
  unfold execCsrr
  try dsimp only
  apply sound_next
  repeat' first
    | with_reducible assumption
    | exact fun _ h1 h2 h3 => ⟨h1, h2, h3⟩
    | exact fun _ h1 => h1
    | (intro _; try dsimp only)
    | with_reducible apply sound_runGrain
    | with_reducible apply sound_ite
    | with_reducible apply sound_ite_fst
    | with_reducible apply sound_foldl
    | fail_if_no_progress (with_reducible (apply sound_upd; rotate_left; iterate 4 rfl))
    | with_reducible refine sound_of_pair (by assumption) ?_
    | split

theorem sound_execCsrw {s : State} {g} {src1} {csr} (h : s.Sound) :
    SoundResult (execCsrw g src1 csr s) := by
  unfold execCsrw
  try dsimp only
  apply sound_next
  repeat' first
    | with_reducible assumption
    | exact fun _ h1 h2 h3 => ⟨h1, h2, h3⟩
    | exact fun _ h1 => h1
    | (intro _; try dsimp only)
    | with_reducible apply sound_runGrain
    | with_reducible apply sound_ite
    | with_reducible apply sound_ite_fst
    | with_reducible apply sound_foldl
    | fail_if_no_progress (with_reducible (apply sound_upd; rotate_left; iterate 4 rfl))
    | with_reducible refine sound_of_pair (by assumption) ?_
    | split

end Sys2Proof.Machine
end

