-- ==== Sys2Proof/Laws/SoundE.lean ====
section
/-!
SUPPORT. What the functions of Machine/I3c, JobPath, Queues, Reply, Rng keep sound.
-/
namespace Sys2Proof.Machine

set_option linter.unusedTactic false
set_option linter.unreachableTactic false

theorem sound_modI3c {s : State} {f} (h : s.Sound) :
    (State.modI3c s f).Sound := by
  unfold State.modI3c
  try dsimp only
  repeat' first
    | with_reducible assumption
    | exact fun _ h1 h2 h3 => ⟨h1, h2, h3⟩
    | exact fun _ h1 => h1
    | (intro _; try dsimp only)
    | with_reducible apply sound_ite
    | with_reducible apply sound_ite_fst
    | with_reducible apply sound_foldl
    | fail_if_no_progress (with_reducible (apply sound_upd; rotate_left; iterate 4 rfl))
    | with_reducible refine sound_of_pair (by assumption) ?_
    | split

theorem sound_i3cAnswer {s : State} {addr} {bytes} (h : s.Sound) :
    (State.i3cAnswer s addr bytes).Sound := by
  unfold State.i3cAnswer
  try dsimp only
  repeat' first
    | with_reducible assumption
    | exact fun _ h1 h2 h3 => ⟨h1, h2, h3⟩
    | exact fun _ h1 => h1
    | (intro _; try dsimp only)
    | with_reducible apply sound_emit
    | with_reducible apply sound_ite
    | with_reducible apply sound_ite_fst
    | with_reducible apply sound_foldl
    | fail_if_no_progress (with_reducible (apply sound_upd; rotate_left; iterate 4 rfl))
    | with_reducible refine sound_of_pair (by assumption) ?_
    | split

theorem sound_execEntdaa {s : State} {addr} (h : s.Sound) :
    SoundResult (execEntdaa addr s) := by
  unfold execEntdaa
  try dsimp only
  apply sound_next
  repeat' first
    | with_reducible assumption
    | exact fun _ h1 h2 h3 => ⟨h1, h2, h3⟩
    | exact fun _ h1 => h1
    | (intro _; try dsimp only)
    | with_reducible apply sound_modI3c
    | with_reducible apply sound_emit
    | with_reducible apply sound_ite
    | with_reducible apply sound_ite_fst
    | with_reducible apply sound_foldl
    | fail_if_no_progress (with_reducible (apply sound_upd; rotate_left; iterate 4 rfl))
    | with_reducible refine sound_of_pair (by assumption) ?_
    | split

theorem sound_execSetdasa {s : State} {static} {addr} (h : s.Sound) :
    SoundResult (execSetdasa static addr s) := by
  unfold execSetdasa
  try dsimp only
  apply sound_next
  repeat' first
    | with_reducible assumption
    | exact fun _ h1 h2 h3 => ⟨h1, h2, h3⟩
    | exact fun _ h1 => h1
    | (intro _; try dsimp only)
    | with_reducible apply sound_modI3c
    | with_reducible apply sound_ite
    | with_reducible apply sound_ite_fst
    | with_reducible apply sound_foldl
    | fail_if_no_progress (with_reducible (apply sound_upd; rotate_left; iterate 4 rfl))
    | with_reducible refine sound_of_pair (by assumption) ?_
    | split

theorem sound_execSetnewda {s : State} {old} {addr} (h : s.Sound) :
    SoundResult (execSetnewda old addr s) := by
  unfold execSetnewda
  try dsimp only
  apply sound_next
  repeat' first
    | with_reducible assumption
    | exact fun _ h1 h2 h3 => ⟨h1, h2, h3⟩
    | exact fun _ h1 => h1
    | (intro _; try dsimp only)
    | with_reducible apply sound_modI3c
    | with_reducible apply sound_ite
    | with_reducible apply sound_ite_fst
    | with_reducible apply sound_foldl
    | fail_if_no_progress (with_reducible (apply sound_upd; rotate_left; iterate 4 rfl))
    | with_reducible refine sound_of_pair (by assumption) ?_
    | split

theorem sound_execRstdaa {s : State} (h : s.Sound) :
    SoundResult (execRstdaa s) := by
  unfold execRstdaa
  try dsimp only
  apply sound_next
  repeat' first
    | with_reducible assumption
    | exact fun _ h1 h2 h3 => ⟨h1, h2, h3⟩
    | exact fun _ h1 => h1
    | (intro _; try dsimp only)
    | with_reducible apply sound_modI3c
    | with_reducible apply sound_ite
    | with_reducible apply sound_ite_fst
    | with_reducible apply sound_foldl
    | fail_if_no_progress (with_reducible (apply sound_upd; rotate_left; iterate 4 rfl))
    | with_reducible refine sound_of_pair (by assumption) ?_
    | split

theorem sound_execGetpid {s : State} {addr} (h : s.Sound) :
    SoundResult (execGetpid addr s) := by
  unfold execGetpid
  try dsimp only
  apply sound_next
  repeat' first
    | with_reducible assumption
    | exact fun _ h1 h2 h3 => ⟨h1, h2, h3⟩
    | exact fun _ h1 => h1
    | (intro _; try dsimp only)
    | with_reducible apply sound_i3cAnswer
    | with_reducible apply sound_ite
    | with_reducible apply sound_ite_fst
    | with_reducible apply sound_foldl
    | fail_if_no_progress (with_reducible (apply sound_upd; rotate_left; iterate 4 rfl))
    | with_reducible refine sound_of_pair (by assumption) ?_
    | split

theorem sound_execGetbcr {s : State} {addr} (h : s.Sound) :
    SoundResult (execGetbcr addr s) := by
  unfold execGetbcr
  try dsimp only
  apply sound_next
  repeat' first
    | with_reducible assumption
    | exact fun _ h1 h2 h3 => ⟨h1, h2, h3⟩
    | exact fun _ h1 => h1
    | (intro _; try dsimp only)
    | with_reducible apply sound_i3cAnswer
    | with_reducible apply sound_ite
    | with_reducible apply sound_ite_fst
    | with_reducible apply sound_foldl
    | fail_if_no_progress (with_reducible (apply sound_upd; rotate_left; iterate 4 rfl))
    | with_reducible refine sound_of_pair (by assumption) ?_
    | split

theorem sound_execGetdcr {s : State} {addr} (h : s.Sound) :
    SoundResult (execGetdcr addr s) := by
  unfold execGetdcr
  try dsimp only
  apply sound_next
  repeat' first
    | with_reducible assumption
    | exact fun _ h1 h2 h3 => ⟨h1, h2, h3⟩
    | exact fun _ h1 => h1
    | (intro _; try dsimp only)
    | with_reducible apply sound_i3cAnswer
    | with_reducible apply sound_ite
    | with_reducible apply sound_ite_fst
    | with_reducible apply sound_foldl
    | fail_if_no_progress (with_reducible (apply sound_upd; rotate_left; iterate 4 rfl))
    | with_reducible refine sound_of_pair (by assumption) ?_
    | split

theorem sound_execGetstatus {s : State} {addr} (h : s.Sound) :
    SoundResult (execGetstatus addr s) := by
  unfold execGetstatus
  try dsimp only
  apply sound_next
  repeat' first
    | with_reducible assumption
    | exact fun _ h1 h2 h3 => ⟨h1, h2, h3⟩
    | exact fun _ h1 => h1
    | (intro _; try dsimp only)
    | with_reducible apply sound_i3cAnswer
    | with_reducible apply sound_spend
    | with_reducible apply sound_ite
    | with_reducible apply sound_ite_fst
    | with_reducible apply sound_foldl
    | fail_if_no_progress (with_reducible (apply sound_upd; rotate_left; iterate 4 rfl))
    | with_reducible refine sound_of_pair (by assumption) ?_
    | split

theorem sound_execGetmrl {s : State} {addr} (h : s.Sound) :
    SoundResult (execGetmrl addr s) := by
  unfold execGetmrl
  try dsimp only
  apply sound_next
  repeat' first
    | with_reducible assumption
    | exact fun _ h1 h2 h3 => ⟨h1, h2, h3⟩
    | exact fun _ h1 => h1
    | (intro _; try dsimp only)
    | with_reducible apply sound_i3cAnswer
    | with_reducible apply sound_ite
    | with_reducible apply sound_ite_fst
    | with_reducible apply sound_foldl
    | fail_if_no_progress (with_reducible (apply sound_upd; rotate_left; iterate 4 rfl))
    | with_reducible refine sound_of_pair (by assumption) ?_
    | split

theorem sound_execGetmwl {s : State} {addr} (h : s.Sound) :
    SoundResult (execGetmwl addr s) := by
  unfold execGetmwl
  try dsimp only
  apply sound_next
  repeat' first
    | with_reducible assumption
    | exact fun _ h1 h2 h3 => ⟨h1, h2, h3⟩
    | exact fun _ h1 => h1
    | (intro _; try dsimp only)
    | with_reducible apply sound_i3cAnswer
    | with_reducible apply sound_ite
    | with_reducible apply sound_ite_fst
    | with_reducible apply sound_foldl
    | fail_if_no_progress (with_reducible (apply sound_upd; rotate_left; iterate 4 rfl))
    | with_reducible refine sound_of_pair (by assumption) ?_
    | split

theorem sound_execEnec {s : State} {addr} {events} (h : s.Sound) :
    SoundResult (execEnec addr events s) := by
  unfold execEnec
  try dsimp only
  apply sound_next
  repeat' first
    | with_reducible assumption
    | exact fun _ h1 h2 h3 => ⟨h1, h2, h3⟩
    | exact fun _ h1 => h1
    | (intro _; try dsimp only)
    | with_reducible apply sound_modI3c
    | with_reducible apply sound_ite
    | with_reducible apply sound_ite_fst
    | with_reducible apply sound_foldl
    | fail_if_no_progress (with_reducible (apply sound_upd; rotate_left; iterate 4 rfl))
    | with_reducible refine sound_of_pair (by assumption) ?_
    | split

theorem sound_execDisec {s : State} {addr} {events} (h : s.Sound) :
    SoundResult (execDisec addr events s) := by
  unfold execDisec
  try dsimp only
  apply sound_next
  repeat' first
    | with_reducible assumption
    | exact fun _ h1 h2 h3 => ⟨h1, h2, h3⟩
    | exact fun _ h1 => h1
    | (intro _; try dsimp only)
    | with_reducible apply sound_modI3c
    | with_reducible apply sound_ite
    | with_reducible apply sound_ite_fst
    | with_reducible apply sound_foldl
    | fail_if_no_progress (with_reducible (apply sound_upd; rotate_left; iterate 4 rfl))
    | with_reducible refine sound_of_pair (by assumption) ?_
    | split

theorem sound_execRstact {s : State} (h : s.Sound) :
    SoundResult (execRstact s) := by
  unfold execRstact
  try dsimp only
  apply sound_next
  repeat' first
    | with_reducible assumption
    | exact fun _ h1 h2 h3 => ⟨h1, h2, h3⟩
    | exact fun _ h1 => h1
    | (intro _; try dsimp only)
    | with_reducible apply sound_modI3c
    | with_reducible apply sound_ite
    | with_reducible apply sound_ite_fst
    | with_reducible apply sound_foldl
    | fail_if_no_progress (with_reducible (apply sound_upd; rotate_left; iterate 4 rfl))
    | with_reducible refine sound_of_pair (by assumption) ?_
    | split

theorem sound_execI3cPrivateTransfer {s : State} {addr} {read} {bytes} (h : s.Sound) :
    SoundResult (execI3cPrivateTransfer addr read bytes s) := by
  unfold execI3cPrivateTransfer
  try dsimp only
  apply sound_next
  repeat' first
    | with_reducible assumption
    | exact fun _ h1 h2 h3 => ⟨h1, h2, h3⟩
    | exact fun _ h1 => h1
    | (intro _; try dsimp only)
    | with_reducible apply sound_modI3c
    | with_reducible apply sound_ite
    | with_reducible apply sound_ite_fst
    | with_reducible apply sound_foldl
    | fail_if_no_progress (with_reducible (apply sound_upd; rotate_left; iterate 4 rfl))
    | with_reducible refine sound_of_pair (by assumption) ?_
    | split

theorem sound_fetchOne {s : State} {q} {o} {raw} (h : s.Sound) :
    (State.fetchOne s q o raw).Sound := by
  unfold State.fetchOne
  try dsimp only
  repeat' first
    | with_reducible assumption
    | exact fun _ h1 h2 h3 => ⟨h1, h2, h3⟩
    | exact fun _ h1 => h1
    | (intro _; try dsimp only)
    | with_reducible apply sound_modQueue
    | with_reducible apply sound_complete
    | with_reducible apply sound_modJob
    | with_reducible apply sound_ite
    | with_reducible apply sound_ite_fst
    | with_reducible apply sound_foldl
    | fail_if_no_progress (with_reducible (apply sound_upd; rotate_left; iterate 4 rfl))
    | with_reducible (apply sound_upd_jobs; any_goals (first | apply Map.rising_insert | apply Map.rising_erase | apply Map.rising_modify | apply Map.rising_filter | apply Map.rising_mapVals | apply rising_ite))
    | with_reducible apply State.Sound.jobs
    | with_reducible apply Map.rising_insert
    | with_reducible apply Map.rising_erase
    | with_reducible apply Map.rising_modify
    | with_reducible apply Map.rising_filter
    | with_reducible apply Map.rising_mapVals
    | with_reducible apply rising_ite
    | with_reducible refine sound_of_pair (by assumption) ?_
    | split

theorem sound_execDescriptorFetch {s : State} {q} {data} (h : s.Sound) :
    SoundResult (execDescriptorFetch q data s) := by
  unfold execDescriptorFetch
  try dsimp only
  apply sound_next
  repeat' first
    | with_reducible assumption
    | exact fun _ h1 h2 h3 => ⟨h1, h2, h3⟩
    | exact fun _ h1 => h1
    | (intro _; try dsimp only)
    | with_reducible apply sound_stopPair
    | with_reducible apply sound_fetchOne
    | with_reducible apply sound_ite
    | with_reducible apply sound_ite_fst
    | with_reducible apply sound_foldl
    | fail_if_no_progress (with_reducible (apply sound_upd; rotate_left; iterate 4 rfl))
    | with_reducible refine sound_of_pair (by assumption) ?_
    | split

theorem sound_placeJob {s : State} {j} {g} {job} {p} (h : s.Sound) :
    (State.placeJob s j g job p).Sound := by
  unfold State.placeJob
  try dsimp only
  repeat' first
    | with_reducible assumption
    | exact fun _ h1 h2 h3 => ⟨h1, h2, h3⟩
    | exact fun _ h1 => h1
    | (intro _; try dsimp only)
    | with_reducible apply sound_modEngine
    | with_reducible apply sound_modGrain
    | with_reducible apply sound_modJob
    | with_reducible apply sound_modCtx
    | with_reducible apply sound_modBed
    | with_reducible apply sound_ite
    | with_reducible apply sound_ite_fst
    | with_reducible apply sound_foldl
    | fail_if_no_progress (with_reducible (apply sound_upd; rotate_left; iterate 4 rfl))
    | with_reducible refine sound_of_pair (by assumption) ?_
    | split

theorem sound_startDirect {s : State} {j} {job} (h : s.Sound) :
    (State.startDirect s j job).Sound := by
  unfold State.startDirect
  try dsimp only
  repeat' first
    | with_reducible assumption
    | exact fun _ h1 h2 h3 => ⟨h1, h2, h3⟩
    | exact fun _ h1 => h1
    | (intro _; try dsimp only)
    | with_reducible apply sound_modJob
    | with_reducible apply sound_ite
    | with_reducible apply sound_ite_fst
    | with_reducible apply sound_foldl
    | fail_if_no_progress (with_reducible (apply sound_upd; rotate_left; iterate 4 rfl))
    | with_reducible refine sound_of_pair (by assumption) ?_
    | split

theorem sound_execJobPlacement {s : State} {q} (h : s.Sound) :
    SoundResult (execJobPlacement q s) := by
  unfold execJobPlacement
  try dsimp only
  apply sound_next
  repeat' first
    | with_reducible assumption
    | exact fun _ h1 h2 h3 => ⟨h1, h2, h3⟩
    | exact fun _ h1 => h1
    | (intro _; try dsimp only)
    | with_reducible apply sound_startDirect
    | with_reducible apply sound_complete
    | with_reducible apply sound_placeJob
    | with_reducible apply sound_ite
    | with_reducible apply sound_ite_fst
    | with_reducible apply sound_foldl
    | fail_if_no_progress (with_reducible (apply sound_upd; rotate_left; iterate 4 rfl))
    | with_reducible refine sound_of_pair (by assumption) ?_
    | split

theorem sound_execNop {s : State} {j} (h : s.Sound) :
    SoundResult (execNop j s) := by
  unfold execNop
  try dsimp only
  apply sound_next
  repeat' first
    | with_reducible assumption
    | exact fun _ h1 h2 h3 => ⟨h1, h2, h3⟩
    | exact fun _ h1 => h1
    | (intro _; try dsimp only)
    | with_reducible apply sound_complete
    | with_reducible apply sound_ite
    | with_reducible apply sound_ite_fst
    | with_reducible apply sound_foldl
    | fail_if_no_progress (with_reducible (apply sound_upd; rotate_left; iterate 4 rfl))
    | with_reducible refine sound_of_pair (by assumption) ?_
    | split

theorem sound_execKeyStage {s : State} {j} {blob} (h : s.Sound) :
    SoundResult (execKeyStage j blob s) := by
  unfold execKeyStage
  try dsimp only
  apply sound_next
  repeat' first
    | with_reducible assumption
    | exact fun _ h1 h2 h3 => ⟨h1, h2, h3⟩
    | exact fun _ h1 => h1
    | (intro _; try dsimp only)
    | with_reducible apply sound_keyStage
    | with_reducible apply sound_endExecution
    | with_reducible apply sound_ite
    | with_reducible apply sound_ite_fst
    | with_reducible apply sound_foldl
    | fail_if_no_progress (with_reducible (apply sound_upd; rotate_left; iterate 4 rfl))
    | with_reducible refine sound_of_pair (by assumption) ?_
    | split

theorem sound_startProgram {s : State} {j} {g} {job} {data} (h : s.Sound) :
    (State.startProgram s j g job data).Sound := by
  unfold State.startProgram
  try dsimp only
  repeat' first
    | with_reducible assumption
    | exact fun _ h1 h2 h3 => ⟨h1, h2, h3⟩
    | exact fun _ h1 => h1
    | (intro _; try dsimp only)
    | with_reducible apply sound_modGrain
    | with_reducible apply sound_modJob
    | with_reducible apply sound_ite
    | with_reducible apply sound_ite_fst
    | with_reducible apply sound_foldl
    | fail_if_no_progress (with_reducible (apply sound_upd; rotate_left; iterate 4 rfl))
    | with_reducible refine sound_of_pair (by assumption) ?_
    | split

theorem sound_execInputDmaDone {s : State} {j} {inList} {data} (h : s.Sound) :
    SoundResult (execInputDmaDone j inList data s) := by
  unfold execInputDmaDone
  try dsimp only
  apply sound_next
  repeat' first
    | with_reducible assumption
    | exact fun _ h1 h2 h3 => ⟨h1, h2, h3⟩
    | exact fun _ h1 => h1
    | (intro _; try dsimp only)
    | with_reducible apply sound_endExecution
    | with_reducible apply sound_endDirect
    | with_reducible apply sound_startProgram
    | with_reducible apply sound_modJob
    | with_reducible apply sound_ite
    | with_reducible apply sound_ite_fst
    | with_reducible apply sound_foldl
    | fail_if_no_progress (with_reducible (apply sound_upd; rotate_left; iterate 4 rfl))
    | with_reducible refine sound_of_pair (by assumption) ?_
    | split

theorem sound_leaveGrain {s : State} {job} (h : s.Sound) :
    (State.leaveGrain s job).Sound := by
  unfold State.leaveGrain
  try dsimp only
  repeat' first
    | with_reducible assumption
    | exact fun _ h1 h2 h3 => ⟨h1, h2, h3⟩
    | exact fun _ h1 => h1
    | (intro _; try dsimp only)
    | with_reducible apply sound_modGrain
    | with_reducible apply sound_ite
    | with_reducible apply sound_ite_fst
    | with_reducible apply sound_foldl
    | fail_if_no_progress (with_reducible (apply sound_upd; rotate_left; iterate 4 rfl))
    | with_reducible refine sound_of_pair (by assumption) ?_
    | split

theorem sound_execOutputStageDone {s : State} {j} {outList} {accepted} {ring} (h : s.Sound) :
    SoundResult (execOutputStageDone j outList accepted ring s) := by
  unfold execOutputStageDone
  try dsimp only
  apply sound_next
  repeat' first
    | with_reducible assumption
    | exact fun _ h1 h2 h3 => ⟨h1, h2, h3⟩
    | exact fun _ h1 => h1
    | (intro _; try dsimp only)
    | with_reducible apply sound_complete
    | with_reducible apply sound_leaveGrain
    | with_reducible apply sound_dmaScatter
    | with_reducible apply sound_ite
    | with_reducible apply sound_ite_fst
    | with_reducible apply sound_foldl
    | fail_if_no_progress (with_reducible (apply sound_upd; rotate_left; iterate 4 rfl))
    | with_reducible refine sound_of_pair (by assumption) ?_
    | split

theorem sound_execIrqCoalesceTimeout {s : State} {q} (h : s.Sound) :
    SoundResult (execIrqCoalesceTimeout q s) := by
  unfold execIrqCoalesceTimeout
  try dsimp only
  apply sound_next
  repeat' first
    | with_reducible assumption
    | exact fun _ h1 h2 h3 => ⟨h1, h2, h3⟩
    | exact fun _ h1 => h1
    | (intro _; try dsimp only)
    | with_reducible apply sound_raiseVector
    | with_reducible apply sound_modQueue
    | with_reducible apply sound_ite
    | with_reducible apply sound_ite_fst
    | with_reducible apply sound_foldl
    | fail_if_no_progress (with_reducible (apply sound_upd; rotate_left; iterate 4 rfl))
    | with_reducible refine sound_of_pair (by assumption) ?_
    | split

theorem sound_execMsixVectorUnmask {s : State} {p} {f} {v} (h : s.Sound) :
    SoundResult (execMsixVectorUnmask p f v s) := by
  unfold execMsixVectorUnmask
  try dsimp only
  apply sound_next
  repeat' first
    | with_reducible assumption
    | exact fun _ h1 h2 h3 => ⟨h1, h2, h3⟩
    | exact fun _ h1 => h1
    | (intro _; try dsimp only)
    | with_reducible apply sound_modFunc
    | with_reducible apply sound_emit
    | with_reducible apply sound_ite
    | with_reducible apply sound_ite_fst
    | with_reducible apply sound_foldl
    | fail_if_no_progress (with_reducible (apply sound_upd; rotate_left; iterate 4 rfl))
    | with_reducible refine sound_of_pair (by assumption) ?_
    | split

theorem sound_execQueueEnable {s : State} {p} {q} {ctl} (h : s.Sound) :
    SoundResult (execQueueEnable p q ctl s) := by
  unfold execQueueEnable
  try dsimp only
  apply sound_next
  repeat' first
    | with_reducible assumption
    | exact fun _ h1 h2 h3 => ⟨h1, h2, h3⟩
    | exact fun _ h1 => h1
    | (intro _; try dsimp only)
    | with_reducible apply sound_noteWrite
    | with_reducible apply sound_modQueue
    | with_reducible apply sound_ite
    | with_reducible apply sound_ite_fst
    | with_reducible apply sound_foldl
    | fail_if_no_progress (with_reducible (apply sound_upd; rotate_left; iterate 4 rfl))
    | with_reducible refine sound_of_pair (by assumption) ?_
    | split

theorem sound_drainQueue {s : State} {q} (h : s.Sound) :
    (State.drainQueue s q).Sound := by
  unfold State.drainQueue
  try dsimp only
  repeat' first
    | with_reducible assumption
    | exact fun _ h1 h2 h3 => ⟨h1, h2, h3⟩
    | exact fun _ h1 => h1
    | (intro _; try dsimp only)
    | with_reducible apply sound_modQueue
    | with_reducible apply sound_ite
    | with_reducible apply sound_ite_fst
    | with_reducible apply sound_foldl
    | fail_if_no_progress (with_reducible (apply sound_upd; rotate_left; iterate 4 rfl))
    | with_reducible refine sound_of_pair (by assumption) ?_
    | split

theorem sound_execQueueDisable {s : State} {p} {q} {ctl} (h : s.Sound) :
    SoundResult (execQueueDisable p q ctl s) := by
  unfold execQueueDisable
  try dsimp only
  apply sound_next
  repeat' first
    | with_reducible assumption
    | exact fun _ h1 h2 h3 => ⟨h1, h2, h3⟩
    | exact fun _ h1 => h1
    | (intro _; try dsimp only)
    | with_reducible apply sound_noteWrite
    | with_reducible apply sound_modQueue
    | with_reducible apply sound_abortJob
    | with_reducible apply sound_ite
    | with_reducible apply sound_ite_fst
    | with_reducible apply sound_foldl
    | fail_if_no_progress (with_reducible (apply sound_upd; rotate_left; iterate 4 rfl))
    | with_reducible refine sound_of_pair (by assumption) ?_
    | split

theorem sound_execQueueDrainDone {s : State} {q} (h : s.Sound) :
    SoundResult (execQueueDrainDone q s) := by
  unfold execQueueDrainDone
  try dsimp only
  apply sound_next
  repeat' first
    | with_reducible assumption
    | exact fun _ h1 h2 h3 => ⟨h1, h2, h3⟩
    | exact fun _ h1 => h1
    | (intro _; try dsimp only)
    | with_reducible apply sound_drainQueue
    | with_reducible apply sound_ite
    | with_reducible apply sound_ite_fst
    | with_reducible apply sound_foldl
    | fail_if_no_progress (with_reducible (apply sound_upd; rotate_left; iterate 4 rfl))
    | with_reducible refine sound_of_pair (by assumption) ?_
    | split

theorem sound_doorbell {s : State} {p} {f} {k} {act} (h : s.Sound) (hact : ∀ x0 x1, x1.Sound → State.Sound (act x0 x1)) :
    (State.doorbell s p f k act).Sound := by
  unfold State.doorbell
  try dsimp only
  repeat' first
    | with_reducible assumption
    | exact fun _ h1 h2 h3 => ⟨h1, h2, h3⟩
    | exact fun _ h1 => h1
    | (intro _; try dsimp only)
    | with_reducible apply sound_noteWrite
    | with_reducible apply hact
    | with_reducible apply sound_ite
    | with_reducible apply sound_ite_fst
    | with_reducible apply sound_foldl
    | fail_if_no_progress (with_reducible (apply sound_upd; rotate_left; iterate 4 rfl))
    | with_reducible refine sound_of_pair (by assumption) ?_
    | split

theorem sound_execSqTailDoorbell {s : State} {p} {f} {k} {value} {accepted} (h : s.Sound) :
    SoundResult (execSqTailDoorbell p f k value accepted s) := by
  unfold execSqTailDoorbell
  try dsimp only
  apply sound_next
  repeat' first
    | with_reducible assumption
    | exact fun _ h1 h2 h3 => ⟨h1, h2, h3⟩
    | exact fun _ h1 => h1
    | (intro _; try dsimp only)
    | with_reducible apply sound_doorbell
    | with_reducible apply sound_stopPair
    | with_reducible apply sound_modQueue
    | with_reducible apply sound_ite
    | with_reducible apply sound_ite_fst
    | with_reducible apply sound_foldl
    | fail_if_no_progress (with_reducible (apply sound_upd; rotate_left; iterate 4 rfl))
    | with_reducible refine sound_of_pair (by assumption) ?_
    | split

theorem sound_execCqHeadDoorbell {s : State} {p} {f} {k} {value} {accepted} (h : s.Sound) :
    SoundResult (execCqHeadDoorbell p f k value accepted s) := by
  unfold execCqHeadDoorbell
  try dsimp only
  apply sound_next
  repeat' first
    | with_reducible assumption
    | exact fun _ h1 h2 h3 => ⟨h1, h2, h3⟩
    | exact fun _ h1 => h1
    | (intro _; try dsimp only)
    | with_reducible apply sound_doorbell
    | with_reducible apply sound_stopPair
    | with_reducible apply sound_modQueue
    | with_reducible apply sound_ite
    | with_reducible apply sound_ite_fst
    | with_reducible apply sound_foldl
    | fail_if_no_progress (with_reducible (apply sound_upd; rotate_left; iterate 4 rfl))
    | with_reducible refine sound_of_pair (by assumption) ?_
    | split

theorem sound_queueRegister {s : State} {p} {q} {off} {value} (h : s.Sound) :
    (State.queueRegister s p q off value).Sound := by
  unfold State.queueRegister
  try dsimp only
  repeat' first
    | with_reducible assumption
    | exact fun _ h1 h2 h3 => ⟨h1, h2, h3⟩
    | exact fun _ h1 => h1
    | (intro _; try dsimp only)
    | with_reducible apply sound_modQueue
    | with_reducible apply sound_ite
    | with_reducible apply sound_ite_fst
    | with_reducible apply sound_foldl
    | fail_if_no_progress (with_reducible (apply sound_upd; rotate_left; iterate 4 rfl))
    | with_reducible refine sound_of_pair (by assumption) ?_
    | split

theorem sound_modSpdm {s : State} {f} (h : s.Sound) :
    (State.modSpdm s f).Sound := by
  unfold State.modSpdm
  try dsimp only
  repeat' first
    | with_reducible assumption
    | exact fun _ h1 h2 h3 => ⟨h1, h2, h3⟩
    | exact fun _ h1 => h1
    | (intro _; try dsimp only)
    | with_reducible apply sound_ite
    | with_reducible apply sound_ite_fst
    | with_reducible apply sound_foldl
    | fail_if_no_progress (with_reducible (apply sound_upd; rotate_left; iterate 4 rfl))
    | with_reducible refine sound_of_pair (by assumption) ?_
    | split

theorem sound_answerJob {s : State} {j} {status} {body} (h : s.Sound) :
    (State.answerJob s j status body).Sound := by
  unfold State.answerJob
  try dsimp only
  repeat' first
    | with_reducible assumption
    | exact fun _ h1 h2 h3 => ⟨h1, h2, h3⟩
    | exact fun _ h1 => h1
    | (intro _; try dsimp only)
    | with_reducible apply sound_complete
    | with_reducible apply sound_modJob
    | with_reducible apply sound_ite
    | with_reducible apply sound_ite_fst
    | with_reducible apply sound_foldl
    | fail_if_no_progress (with_reducible (apply sound_upd; rotate_left; iterate 4 rfl))
    | with_reducible refine sound_of_pair (by assumption) ?_
    | split

theorem sound_respond {s : State} {v} {status} {payload} (h : s.Sound) :
    (State.respond s v status payload).Sound := by
  unfold State.respond
  try dsimp only
  repeat' first
    | with_reducible assumption
    | exact fun _ h1 h2 h3 => ⟨h1, h2, h3⟩
    | exact fun _ h1 => h1
    | (intro _; try dsimp only)
    | with_reducible apply sound_answerJob
    | with_reducible apply sound_send
    | with_reducible apply sound_ite
    | with_reducible apply sound_ite_fst
    | with_reducible apply sound_foldl
    | fail_if_no_progress (with_reducible (apply sound_upd; rotate_left; iterate 4 rfl))
    | with_reducible refine sound_of_pair (by assumption) ?_
    | split

theorem sound_sendSpdm {s : State} {v} {r} (h : s.Sound) :
    (State.sendSpdm s v r).Sound := by
  unfold State.sendSpdm
  try dsimp only
  repeat' first
    | with_reducible assumption
    | exact fun _ h1 h2 h3 => ⟨h1, h2, h3⟩
    | exact fun _ h1 => h1
    | (intro _; try dsimp only)
    | with_reducible apply sound_send
    | with_reducible apply sound_answerJob
    | with_reducible apply sound_spend
    | with_reducible apply sound_ite
    | with_reducible apply sound_ite_fst
    | with_reducible apply sound_foldl
    | fail_if_no_progress (with_reducible (apply sound_upd; rotate_left; iterate 4 rfl))
    | with_reducible refine sound_of_pair (by assumption) ?_
    | split

theorem sound_arm {s : State} {v} {off} {value} {apply} (h : s.Sound) (happly : ∀ x0 x1 x2, x2.Sound → State.Sound (apply x0 x1 x2).1) :
    (State.arm s v off value apply).1.Sound := by
  unfold State.arm
  try dsimp only
  repeat' first
    | with_reducible assumption
    | exact fun _ h1 h2 h3 => ⟨h1, h2, h3⟩
    | exact fun _ h1 => h1
    | (intro _; try dsimp only)
    | with_reducible apply sound_armFor
    | with_reducible apply sound_loamPair
    | with_reducible apply happly
    | with_reducible apply sound_ite
    | with_reducible apply sound_ite_fst
    | with_reducible apply sound_foldl
    | fail_if_no_progress (with_reducible (apply sound_upd; rotate_left; iterate 4 rfl))
    | with_reducible refine sound_of_pair (by assumption) ?_
    | split

theorem sound_modSource {s : State} {k} {f} (h : s.Sound) :
    (State.modSource s k f).Sound := by
  unfold State.modSource
  try dsimp only
  repeat' first
    | with_reducible assumption
    | exact fun _ h1 h2 h3 => ⟨h1, h2, h3⟩
    | exact fun _ h1 => h1
    | (intro _; try dsimp only)
    | with_reducible apply sound_modRng
    | with_reducible apply sound_ite
    | with_reducible apply sound_ite_fst
    | with_reducible apply sound_foldl
    | fail_if_no_progress (with_reducible (apply sound_upd; rotate_left; iterate 4 rfl))
    | with_reducible refine sound_of_pair (by assumption) ?_
    | split

theorem sound_rngFail {s : State} (h : s.Sound) :
    (State.rngFail s).Sound := by
  unfold State.rngFail
  try dsimp only
  repeat' first
    | with_reducible assumption
    | exact fun _ h1 h2 h3 => ⟨h1, h2, h3⟩
    | exact fun _ h1 => h1
    | (intro _; try dsimp only)
    | with_reducible apply sound_event
    | with_reducible apply sound_modRng
    | with_reducible apply sound_ite
    | with_reducible apply sound_ite_fst
    | with_reducible apply sound_foldl
    | fail_if_no_progress (with_reducible (apply sound_upd; rotate_left; iterate 4 rfl))
    | with_reducible refine sound_of_pair (by assumption) ?_
    | split

theorem sound_retireSource {s : State} {k} (h : s.Sound) :
    (State.retireSource s k).Sound := by
  unfold State.retireSource
  try dsimp only
  repeat' first
    | with_reducible assumption
    | exact fun _ h1 h2 h3 => ⟨h1, h2, h3⟩
    | exact fun _ h1 => h1
    | (intro _; try dsimp only)
    | with_reducible apply sound_modSource
    | with_reducible apply sound_modRng
    | with_reducible apply sound_event
    | with_reducible apply sound_log
    | with_reducible apply sound_rngFail
    | with_reducible apply sound_ite
    | with_reducible apply sound_ite_fst
    | with_reducible apply sound_foldl
    | fail_if_no_progress (with_reducible (apply sound_upd; rotate_left; iterate 4 rfl))
    | with_reducible refine sound_of_pair (by assumption) ?_
    | split

theorem sound_blockFailed {s : State} {k} (h : s.Sound) :
    (State.blockFailed s k).Sound := by
  unfold State.blockFailed
  try dsimp only
  repeat' first
    | with_reducible assumption
    | exact fun _ h1 h2 h3 => ⟨h1, h2, h3⟩
    | exact fun _ h1 => h1
    | (intro _; try dsimp only)
    | with_reducible apply sound_modSource
    | with_reducible apply sound_retireSource
    | with_reducible apply sound_ite
    | with_reducible apply sound_ite_fst
    | with_reducible apply sound_foldl
    | fail_if_no_progress (with_reducible (apply sound_upd; rotate_left; iterate 4 rfl))
    | with_reducible refine sound_of_pair (by assumption) ?_
    | split

theorem sound_blockPassed {s : State} {k} {b} (h : s.Sound) :
    (State.blockPassed s k b).Sound := by
  unfold State.blockPassed
  try dsimp only
  repeat' first
    | with_reducible assumption
    | exact fun _ h1 h2 h3 => ⟨h1, h2, h3⟩
    | exact fun _ h1 => h1
    | (intro _; try dsimp only)
    | with_reducible apply sound_modSource
    | with_reducible apply sound_ite
    | with_reducible apply sound_ite_fst
    | with_reducible apply sound_foldl
    | fail_if_no_progress (with_reducible (apply sound_upd; rotate_left; iterate 4 rfl))
    | with_reducible refine sound_of_pair (by assumption) ?_
    | split

theorem sound_execNoiseBlockDone {s : State} {src} {samples} (h : s.Sound) :
    SoundResult (execNoiseBlockDone src samples s) := by
  unfold execNoiseBlockDone
  try dsimp only
  apply sound_next
  repeat' first
    | with_reducible assumption
    | exact fun _ h1 h2 h3 => ⟨h1, h2, h3⟩
    | exact fun _ h1 => h1
    | (intro _; try dsimp only)
    | with_reducible apply sound_modSource
    | with_reducible apply sound_blockPassed
    | with_reducible apply sound_blockFailed
    | with_reducible apply sound_ite
    | with_reducible apply sound_ite_fst
    | with_reducible apply sound_foldl
    | fail_if_no_progress (with_reducible (apply sound_upd; rotate_left; iterate 4 rfl))
    | with_reducible refine sound_of_pair (by assumption) ?_
    | split

theorem sound_execSourceCalibrationDone {s : State} {src} (h : s.Sound) :
    SoundResult (execSourceCalibrationDone src s) := by
  unfold execSourceCalibrationDone
  try dsimp only
  apply sound_next
  repeat' first
    | with_reducible assumption
    | exact fun _ h1 h2 h3 => ⟨h1, h2, h3⟩
    | exact fun _ h1 => h1
    | (intro _; try dsimp only)
    | with_reducible apply sound_modSource
    | with_reducible apply sound_ite
    | with_reducible apply sound_ite_fst
    | with_reducible apply sound_foldl
    | fail_if_no_progress (with_reducible (apply sound_upd; rotate_left; iterate 4 rfl))
    | with_reducible refine sound_of_pair (by assumption) ?_
    | split

theorem sound_srcSelPair {s : State} {_off} {v} (h : s.Sound) :
    (srcSelPair _off v s).1.Sound := by
  unfold srcSelPair
  try dsimp only
  repeat' first
    | with_reducible assumption
    | exact fun _ h1 h2 h3 => ⟨h1, h2, h3⟩
    | exact fun _ h1 => h1
    | (intro _; try dsimp only)
    | with_reducible apply sound_retireSource
    | with_reducible apply sound_ite
    | with_reducible apply sound_ite_fst
    | with_reducible apply sound_foldl
    | fail_if_no_progress (with_reducible (apply sound_upd; rotate_left; iterate 4 rfl))
    | with_reducible refine sound_of_pair (by assumption) ?_
    | split

theorem sound_execRngSrcSel {s : State} {r} {off} {complement} (h : s.Sound) :
    SoundResult (execRngSrcSel r off complement s) := by
  unfold execRngSrcSel
  try dsimp only
  apply sound_next
  repeat' first
    | with_reducible assumption
    | exact fun _ h1 h2 h3 => ⟨h1, h2, h3⟩
    | exact fun _ h1 => h1
    | (intro _; try dsimp only)
    | with_reducible apply sound_guardPair
    | with_reducible apply sound_srcSelPair
    | with_reducible apply sound_ite
    | with_reducible apply sound_ite_fst
    | with_reducible apply sound_foldl
    | fail_if_no_progress (with_reducible (apply sound_upd; rotate_left; iterate 4 rfl))
    | with_reducible refine sound_of_pair (by assumption) ?_
    | split

theorem sound_rngFirst {s : State} (h : s.Sound) :
    (State.rngFirst s).Sound := by
  unfold State.rngFirst
  try dsimp only
  repeat' first
    | with_reducible assumption
    | exact fun _ h1 h2 h3 => ⟨h1, h2, h3⟩
    | exact fun _ h1 => h1
    | (intro _; try dsimp only)
    | with_reducible apply sound_event
    | with_reducible apply sound_modRng
    | with_reducible apply sound_ite
    | with_reducible apply sound_ite_fst
    | with_reducible apply sound_foldl
    | fail_if_no_progress (with_reducible (apply sound_upd; rotate_left; iterate 4 rfl))
    | with_reducible refine sound_of_pair (by assumption) ?_
    | split

theorem sound_execConditionerSeedOut {s : State} (h : s.Sound) :
    SoundResult (execConditionerSeedOut s) := by
  unfold execConditionerSeedOut
  try dsimp only
  apply sound_next
  repeat' first
    | with_reducible assumption
    | exact fun _ h1 h2 h3 => ⟨h1, h2, h3⟩
    | exact fun _ h1 => h1
    | (intro _; try dsimp only)
    | with_reducible apply sound_modSource
    | with_reducible apply sound_modRng
    | with_reducible apply sound_serve
    | with_reducible apply sound_rngFirst
    | with_reducible apply sound_ite
    | with_reducible apply sound_ite_fst
    | with_reducible apply sound_foldl
    | fail_if_no_progress (with_reducible (apply sound_upd; rotate_left; iterate 4 rfl))
    | with_reducible refine sound_of_pair (by assumption) ?_
    | split

theorem sound_execRngFirstSeedTimeout {s : State} (h : s.Sound) :
    SoundResult (execRngFirstSeedTimeout s) := by
  unfold execRngFirstSeedTimeout
  try dsimp only
  apply sound_next
  repeat' first
    | with_reducible assumption
    | exact fun _ h1 h2 h3 => ⟨h1, h2, h3⟩
    | exact fun _ h1 => h1
    | (intro _; try dsimp only)
    | with_reducible apply sound_rngFail
    | with_reducible apply sound_ite
    | with_reducible apply sound_ite_fst
    | with_reducible apply sound_foldl
    | fail_if_no_progress (with_reducible (apply sound_upd; rotate_left; iterate 4 rfl))
    | with_reducible refine sound_of_pair (by assumption) ?_
    | split

theorem sound_execDrbgInstantiate {s : State} {p} {katOk} (h : s.Sound) :
    SoundResult (execDrbgInstantiate p katOk s) := by
  unfold execDrbgInstantiate
  try dsimp only
  apply sound_next
  repeat' first
    | with_reducible assumption
    | exact fun _ h1 h2 h3 => ⟨h1, h2, h3⟩
    | exact fun _ h1 => h1
    | (intro _; try dsimp only)
    | with_reducible apply sound_event
    | with_reducible apply sound_modDrbg
    | with_reducible apply sound_modRng
    | with_reducible apply sound_ite
    | with_reducible apply sound_ite_fst
    | with_reducible apply sound_foldl
    | fail_if_no_progress (with_reducible (apply sound_upd; rotate_left; iterate 4 rfl))
    | with_reducible refine sound_of_pair (by assumption) ?_
    | split

theorem sound_randomPart {s : State} {j} {bytes} (h : s.Sound) :
    (State.randomPart s j bytes).Sound := by
  unfold State.randomPart
  try dsimp only
  repeat' first
    | with_reducible assumption
    | exact fun _ h1 h2 h3 => ⟨h1, h2, h3⟩
    | exact fun _ h1 => h1
    | (intro _; try dsimp only)
    | with_reducible apply sound_modJob
    | with_reducible apply sound_dmaWrite
    | with_reducible apply sound_ite
    | with_reducible apply sound_ite_fst
    | with_reducible apply sound_foldl
    | fail_if_no_progress (with_reducible (apply sound_upd; rotate_left; iterate 4 rfl))
    | with_reducible refine sound_of_pair (by assumption) ?_
    | split

theorem sound_refill {s : State} {q} {p} {bytes} (h : s.Sound) :
    (State.refill s q p bytes).Sound := by
  unfold State.refill
  try dsimp only
  repeat' first
    | with_reducible assumption
    | exact fun _ h1 h2 h3 => ⟨h1, h2, h3⟩
    | exact fun _ h1 => h1
    | (intro _; try dsimp only)
    | with_reducible apply sound_modRng
    | with_reducible apply sound_ite
    | with_reducible apply sound_ite_fst
    | with_reducible apply sound_foldl
    | fail_if_no_progress (with_reducible (apply sound_upd; rotate_left; iterate 4 rfl))
    | with_reducible refine sound_of_pair (by assumption) ?_
    | split

theorem sound_generate {s : State} {p} {who} (h : s.Sound) :
    (State.generate s p who).Sound := by
  unfold State.generate
  try dsimp only
  repeat' first
    | with_reducible assumption
    | exact fun _ h1 h2 h3 => ⟨h1, h2, h3⟩
    | exact fun _ h1 => h1
    | (intro _; try dsimp only)
    | with_reducible apply sound_modDrbg
    | with_reducible apply sound_randomPart
    | with_reducible apply sound_refill
    | with_reducible apply sound_askForDrbg
    | with_reducible apply sound_ite
    | with_reducible apply sound_ite_fst
    | with_reducible apply sound_foldl
    | fail_if_no_progress (with_reducible (apply sound_upd; rotate_left; iterate 4 rfl))
    | with_reducible refine sound_of_pair (by assumption) ?_
    | split

theorem sound_execDrbgGenerateDone {s : State} {p} (h : s.Sound) :
    SoundResult (execDrbgGenerateDone p s) := by
  unfold execDrbgGenerateDone
  try dsimp only
  apply sound_next
  repeat' first
    | with_reducible assumption
    | exact fun _ h1 h2 h3 => ⟨h1, h2, h3⟩
    | exact fun _ h1 => h1
    | (intro _; try dsimp only)
    | with_reducible apply sound_generate
    | with_reducible apply sound_ite
    | with_reducible apply sound_ite_fst
    | with_reducible apply sound_foldl
    | fail_if_no_progress (with_reducible (apply sound_upd; rotate_left; iterate 4 rfl))
    | with_reducible refine sound_of_pair (by assumption) ?_
    | split

theorem sound_execKeyPortBufferRefill {s : State} {q} {p} (h : s.Sound) :
    SoundResult (execKeyPortBufferRefill q p s) := by
  unfold execKeyPortBufferRefill
  try dsimp only
  apply sound_next
  repeat' first
    | with_reducible assumption
    | exact fun _ h1 h2 h3 => ⟨h1, h2, h3⟩
    | exact fun _ h1 => h1
    | (intro _; try dsimp only)
    | with_reducible apply sound_generate
    | with_reducible apply sound_ite
    | with_reducible apply sound_ite_fst
    | with_reducible apply sound_foldl
    | fail_if_no_progress (with_reducible (apply sound_upd; rotate_left; iterate 4 rfl))
    | with_reducible refine sound_of_pair (by assumption) ?_
    | split

theorem sound_execDrbgReseedDone {s : State} {p} (h : s.Sound) :
    SoundResult (execDrbgReseedDone p s) := by
  unfold execDrbgReseedDone
  try dsimp only
  apply sound_next
  repeat' first
    | with_reducible assumption
    | exact fun _ h1 h2 h3 => ⟨h1, h2, h3⟩
    | exact fun _ h1 => h1
    | (intro _; try dsimp only)
    | with_reducible apply sound_askForDrbg
    | with_reducible apply sound_modDrbg
    | with_reducible apply sound_ite
    | with_reducible apply sound_ite_fst
    | with_reducible apply sound_foldl
    | fail_if_no_progress (with_reducible (apply sound_upd; rotate_left; iterate 4 rfl))
    | with_reducible refine sound_of_pair (by assumption) ?_
    | split

theorem sound_randomJob {s : State} {j} {predict} (h : s.Sound) :
    (State.randomJob s j predict).Sound := by
  unfold State.randomJob
  try dsimp only
  repeat' first
    | with_reducible assumption
    | exact fun _ h1 h2 h3 => ⟨h1, h2, h3⟩
    | exact fun _ h1 => h1
    | (intro _; try dsimp only)
    | with_reducible apply sound_endDirect
    | with_reducible apply sound_modJob
    | with_reducible apply sound_reserveDrbg
    | with_reducible apply sound_requestSeed
    | with_reducible apply sound_askForDrbg
    | with_reducible apply sound_ite
    | with_reducible apply sound_ite_fst
    | with_reducible apply sound_foldl
    | fail_if_no_progress (with_reducible (apply sound_upd; rotate_left; iterate 4 rfl))
    | with_reducible refine sound_of_pair (by assumption) ?_
    | split

theorem sound_execRandomBytes {s : State} {j} (h : s.Sound) :
    SoundResult (execRandomBytes j s) := by
  unfold execRandomBytes
  try dsimp only
  apply sound_next
  repeat' first
    | with_reducible assumption
    | exact fun _ h1 h2 h3 => ⟨h1, h2, h3⟩
    | exact fun _ h1 => h1
    | (intro _; try dsimp only)
    | with_reducible apply sound_randomJob
    | with_reducible apply sound_ite
    | with_reducible apply sound_ite_fst
    | with_reducible apply sound_foldl
    | fail_if_no_progress (with_reducible (apply sound_upd; rotate_left; iterate 4 rfl))
    | with_reducible refine sound_of_pair (by assumption) ?_
    | split

theorem sound_execRandomBytesPr {s : State} {j} (h : s.Sound) :
    SoundResult (execRandomBytesPr j s) := by
  unfold execRandomBytesPr
  try dsimp only
  apply sound_next
  repeat' first
    | with_reducible assumption
    | exact fun _ h1 h2 h3 => ⟨h1, h2, h3⟩
    | exact fun _ h1 => h1
    | (intro _; try dsimp only)
    | with_reducible apply sound_randomJob
    | with_reducible apply sound_ite
    | with_reducible apply sound_ite_fst
    | with_reducible apply sound_foldl
    | fail_if_no_progress (with_reducible (apply sound_upd; rotate_left; iterate 4 rfl))
    | with_reducible refine sound_of_pair (by assumption) ?_
    | split

theorem sound_execConditionedEntropy {s : State} {j} (h : s.Sound) :
    SoundResult (execConditionedEntropy j s) := by
  unfold execConditionedEntropy
  try dsimp only
  apply sound_next
  repeat' first
    | with_reducible assumption
    | exact fun _ h1 h2 h3 => ⟨h1, h2, h3⟩
    | exact fun _ h1 => h1
    | (intro _; try dsimp only)
    | with_reducible apply sound_endDirect
    | with_reducible apply sound_requestSeed
    | with_reducible apply sound_modJob
    | with_reducible apply sound_ite
    | with_reducible apply sound_ite_fst
    | with_reducible apply sound_foldl
    | fail_if_no_progress (with_reducible (apply sound_upd; rotate_left; iterate 4 rfl))
    | with_reducible refine sound_of_pair (by assumption) ?_
    | split

theorem sound_captureStart {s : State} {src} (h : s.Sound) :
    (State.captureStart s src).Sound := by
  unfold State.captureStart
  try dsimp only
  repeat' first
    | with_reducible assumption
    | exact fun _ h1 h2 h3 => ⟨h1, h2, h3⟩
    | exact fun _ h1 => h1
    | (intro _; try dsimp only)
    | with_reducible apply sound_modRng
    | with_reducible apply sound_ite
    | with_reducible apply sound_ite_fst
    | with_reducible apply sound_foldl
    | fail_if_no_progress (with_reducible (apply sound_upd; rotate_left; iterate 4 rfl))
    | with_reducible refine sound_of_pair (by assumption) ?_
    | split

theorem sound_writeRngTest {s : State} {v} (h : s.Sound) :
    (State.writeRngTest s v).Sound := by
  unfold State.writeRngTest
  try dsimp only
  repeat' first
    | with_reducible assumption
    | exact fun _ h1 h2 h3 => ⟨h1, h2, h3⟩
    | exact fun _ h1 => h1
    | (intro _; try dsimp only)
    | with_reducible apply sound_modRng
    | with_reducible apply sound_captureStart
    | with_reducible apply sound_ite
    | with_reducible apply sound_ite_fst
    | with_reducible apply sound_foldl
    | fail_if_no_progress (with_reducible (apply sound_upd; rotate_left; iterate 4 rfl))
    | with_reducible refine sound_of_pair (by assumption) ?_
    | split

theorem sound_execRngCaptureStart {s : State} {src} (h : s.Sound) :
    SoundResult (execRngCaptureStart src s) := by
  unfold execRngCaptureStart
  try dsimp only
  apply sound_next
  repeat' first
    | with_reducible assumption
    | exact fun _ h1 h2 h3 => ⟨h1, h2, h3⟩
    | exact fun _ h1 => h1
    | (intro _; try dsimp only)
    | with_reducible apply sound_captureStart
    | with_reducible apply sound_ite
    | with_reducible apply sound_ite_fst
    | with_reducible apply sound_foldl
    | fail_if_no_progress (with_reducible (apply sound_upd; rotate_left; iterate 4 rfl))
    | with_reducible refine sound_of_pair (by assumption) ?_
    | split

theorem sound_execRngCaptureDone {s : State} {samples} (h : s.Sound) :
    SoundResult (execRngCaptureDone samples s) := by
  unfold execRngCaptureDone
  try dsimp only
  apply sound_next
  repeat' first
    | with_reducible assumption
    | exact fun _ h1 h2 h3 => ⟨h1, h2, h3⟩
    | exact fun _ h1 => h1
    | (intro _; try dsimp only)
    | with_reducible apply sound_modRng
    | with_reducible apply sound_ite
    | with_reducible apply sound_ite_fst
    | with_reducible apply sound_foldl
    | fail_if_no_progress (with_reducible (apply sound_upd; rotate_left; iterate 4 rfl))
    | with_reducible refine sound_of_pair (by assumption) ?_
    | split

theorem sound_zeroizeRng {s : State} (h : s.Sound) :
    (State.zeroizeRng s).Sound := by
  unfold State.zeroizeRng
  try dsimp only
  repeat' first
    | with_reducible assumption
    | exact fun _ h1 h2 h3 => ⟨h1, h2, h3⟩
    | exact fun _ h1 => h1
    | (intro _; try dsimp only)
    | with_reducible apply sound_modRng
    | with_reducible apply sound_modGrain
    | with_reducible apply sound_endDirect
    | with_reducible apply sound_ite
    | with_reducible apply sound_ite_fst
    | with_reducible apply sound_foldl
    | fail_if_no_progress (with_reducible (apply sound_upd; rotate_left; iterate 4 rfl))
    | with_reducible refine sound_of_pair (by assumption) ?_
    | split

theorem sound_clearBuffers {s : State} {sel} (h : s.Sound) :
    (State.clearBuffers s sel).Sound := by
  unfold State.clearBuffers
  try dsimp only
  repeat' first
    | with_reducible assumption
    | exact fun _ h1 h2 h3 => ⟨h1, h2, h3⟩
    | exact fun _ h1 => h1
    | (intro _; try dsimp only)
    | with_reducible apply sound_modRng
    | with_reducible apply sound_ite
    | with_reducible apply sound_ite_fst
    | with_reducible apply sound_foldl
    | fail_if_no_progress (with_reducible (apply sound_upd; rotate_left; iterate 4 rfl))
    | with_reducible refine sound_of_pair (by assumption) ?_
    | split

end Sys2Proof.Machine
end

