-- ==== Sys2Proof/Laws/SoundF.lean ====
section
/-!
SUPPORT. What the functions of Machine/Ports, KeyEvents, Tenancy, Hold, Resets keep sound.
-/
namespace Sys2Proof.Machine

set_option linter.unusedTactic false
set_option linter.unreachableTactic false

theorem sound_stopFunction {s : State} {p} {f} (h : s.Sound) :
    (State.stopFunction s p f).Sound := by
  unfold State.stopFunction
  try dsimp only
  repeat' first
    | with_reducible assumption
    | exact fun _ h1 h2 h3 => ⟨h1, h2, h3⟩
    | exact fun _ h1 => h1
    | (intro _; try dsimp only)
    | with_reducible apply sound_discardJob
    | with_reducible apply sound_ite
    | with_reducible apply sound_ite_fst
    | with_reducible apply sound_foldl
    | fail_if_no_progress (with_reducible (apply sound_upd; rotate_left; iterate 4 rfl))
    | with_reducible refine sound_of_pair (by assumption) ?_
    | split

theorem sound_clearFunction {s : State} {p} {f} (h : s.Sound) :
    (State.clearFunction s p f).Sound := by
  unfold State.clearFunction
  try dsimp only
  repeat' first
    | with_reducible assumption
    | exact fun _ h1 h2 h3 => ⟨h1, h2, h3⟩
    | exact fun _ h1 => h1
    | (intro _; try dsimp only)
    | with_reducible apply sound_modQueue
    | with_reducible apply sound_modFunc
    | with_reducible apply sound_modSq
    | with_reducible apply sound_ite
    | with_reducible apply sound_ite_fst
    | with_reducible apply sound_foldl
    | fail_if_no_progress (with_reducible (apply sound_upd; rotate_left; iterate 4 rfl))
    | with_reducible refine sound_of_pair (by assumption) ?_
    | split

theorem sound_flrStart {s : State} {p} {f} (h : s.Sound) :
    (State.flrStart s p f).Sound := by
  unfold State.flrStart
  try dsimp only
  repeat' first
    | with_reducible assumption
    | exact fun _ h1 h2 h3 => ⟨h1, h2, h3⟩
    | exact fun _ h1 => h1
    | (intro _; try dsimp only)
    | with_reducible apply sound_modFunc
    | with_reducible apply sound_stopFunction
    | with_reducible apply sound_ite
    | with_reducible apply sound_ite_fst
    | with_reducible apply sound_foldl
    | fail_if_no_progress (with_reducible (apply sound_upd; rotate_left; iterate 4 rfl))
    | with_reducible refine sound_of_pair (by assumption) ?_
    | split

theorem sound_execFunctionLevelReset {s : State} {p} {f} (h : s.Sound) :
    SoundResult (execFunctionLevelReset p f s) := by
  unfold execFunctionLevelReset
  try dsimp only
  apply sound_next
  repeat' first
    | with_reducible assumption
    | exact fun _ h1 h2 h3 => ⟨h1, h2, h3⟩
    | exact fun _ h1 => h1
    | (intro _; try dsimp only)
    | with_reducible apply sound_flrStart
    | with_reducible apply sound_modPort
    | with_reducible apply sound_ite
    | with_reducible apply sound_ite_fst
    | with_reducible apply sound_foldl
    | fail_if_no_progress (with_reducible (apply sound_upd; rotate_left; iterate 4 rfl))
    | with_reducible refine sound_of_pair (by assumption) ?_
    | split

theorem sound_flrEnd {s : State} {p} {f} (h : s.Sound) :
    (State.flrEnd s p f).Sound := by
  unfold State.flrEnd
  try dsimp only
  repeat' first
    | with_reducible assumption
    | exact fun _ h1 h2 h3 => ⟨h1, h2, h3⟩
    | exact fun _ h1 => h1
    | (intro _; try dsimp only)
    | with_reducible apply sound_modFunc
    | with_reducible apply sound_clearFunction
    | with_reducible apply sound_ite
    | with_reducible apply sound_ite_fst
    | with_reducible apply sound_foldl
    | fail_if_no_progress (with_reducible (apply sound_upd; rotate_left; iterate 4 rfl))
    | with_reducible refine sound_of_pair (by assumption) ?_
    | split

theorem sound_execFlrComplete {s : State} {p} {f} (h : s.Sound) :
    SoundResult (execFlrComplete p f s) := by
  unfold execFlrComplete
  try dsimp only
  apply sound_next
  repeat' first
    | with_reducible assumption
    | exact fun _ h1 h2 h3 => ⟨h1, h2, h3⟩
    | exact fun _ h1 => h1
    | (intro _; try dsimp only)
    | with_reducible apply sound_flrEnd
    | with_reducible apply sound_ite
    | with_reducible apply sound_ite_fst
    | with_reducible apply sound_foldl
    | fail_if_no_progress (with_reducible (apply sound_upd; rotate_left; iterate 4 rfl))
    | with_reducible refine sound_of_pair (by assumption) ?_
    | split

theorem sound_perst {s : State} {p} (h : s.Sound) :
    (State.perst s p).Sound := by
  unfold State.perst
  try dsimp only
  repeat' first
    | with_reducible assumption
    | exact fun _ h1 h2 h3 => ⟨h1, h2, h3⟩
    | exact fun _ h1 => h1
    | (intro _; try dsimp only)
    | with_reducible apply sound_flrEnd
    | with_reducible apply sound_flrStart
    | with_reducible apply sound_modFunc
    | with_reducible apply sound_modPort
    | with_reducible apply sound_ite
    | with_reducible apply sound_ite_fst
    | with_reducible apply sound_foldl
    | fail_if_no_progress (with_reducible (apply sound_upd; rotate_left; iterate 4 rfl))
    | with_reducible refine sound_of_pair (by assumption) ?_
    | split

theorem sound_execPerstAssert {s : State} {p} (h : s.Sound) :
    SoundResult (execPerstAssert p s) := by
  unfold execPerstAssert
  try dsimp only
  apply sound_next
  repeat' first
    | with_reducible assumption
    | exact fun _ h1 h2 h3 => ⟨h1, h2, h3⟩
    | exact fun _ h1 => h1
    | (intro _; try dsimp only)
    | with_reducible apply sound_clearBuffers
    | with_reducible apply sound_modPort
    | with_reducible apply sound_perst
    | with_reducible apply sound_event
    | with_reducible apply sound_ite
    | with_reducible apply sound_ite_fst
    | with_reducible apply sound_foldl
    | fail_if_no_progress (with_reducible (apply sound_upd; rotate_left; iterate 4 rfl))
    | with_reducible refine sound_of_pair (by assumption) ?_
    | split

theorem sound_execPerstRelease {s : State} {p} (h : s.Sound) :
    SoundResult (execPerstRelease p s) := by
  unfold execPerstRelease
  try dsimp only
  apply sound_next
  repeat' first
    | with_reducible assumption
    | exact fun _ h1 h2 h3 => ⟨h1, h2, h3⟩
    | exact fun _ h1 => h1
    | (intro _; try dsimp only)
    | with_reducible apply sound_modPort
    | with_reducible apply sound_ite
    | with_reducible apply sound_ite_fst
    | with_reducible apply sound_foldl
    | fail_if_no_progress (with_reducible (apply sound_upd; rotate_left; iterate 4 rfl))
    | with_reducible refine sound_of_pair (by assumption) ?_
    | split

theorem sound_execLinkRetrain {s : State} {p} {width} {rate} (h : s.Sound) :
    SoundResult (execLinkRetrain p width rate s) := by
  unfold execLinkRetrain
  try dsimp only
  apply sound_next
  repeat' first
    | with_reducible assumption
    | exact fun _ h1 h2 h3 => ⟨h1, h2, h3⟩
    | exact fun _ h1 => h1
    | (intro _; try dsimp only)
    | with_reducible apply sound_modPort
    | with_reducible apply sound_ite
    | with_reducible apply sound_ite_fst
    | with_reducible apply sound_foldl
    | fail_if_no_progress (with_reducible (apply sound_upd; rotate_left; iterate 4 rfl))
    | with_reducible refine sound_of_pair (by assumption) ?_
    | split

theorem sound_logTdisp {s : State} {p} {v} (h : s.Sound) :
    (State.logTdisp s p v).Sound := by
  unfold State.logTdisp
  try dsimp only
  repeat' first
    | with_reducible assumption
    | exact fun _ h1 h2 h3 => ⟨h1, h2, h3⟩
    | exact fun _ h1 => h1
    | (intro _; try dsimp only)
    | with_reducible apply sound_log
    | with_reducible apply sound_spend
    | with_reducible apply sound_ite
    | with_reducible apply sound_ite_fst
    | with_reducible apply sound_foldl
    | fail_if_no_progress (with_reducible (apply sound_upd; rotate_left; iterate 4 rfl))
    | with_reducible refine sound_of_pair (by assumption) ?_
    | split

theorem sound_tdispError {s : State} {p} {v} (h : s.Sound) :
    (State.tdispError s p v).Sound := by
  unfold State.tdispError
  try dsimp only
  repeat' first
    | with_reducible assumption
    | exact fun _ h1 h2 h3 => ⟨h1, h2, h3⟩
    | exact fun _ h1 => h1
    | (intro _; try dsimp only)
    | with_reducible apply sound_clearFunction
    | with_reducible apply sound_stopFunction
    | with_reducible apply sound_logTdisp
    | with_reducible apply sound_modFunc
    | with_reducible apply sound_ite
    | with_reducible apply sound_ite_fst
    | with_reducible apply sound_foldl
    | fail_if_no_progress (with_reducible (apply sound_upd; rotate_left; iterate 4 rfl))
    | with_reducible refine sound_of_pair (by assumption) ?_
    | split

theorem sound_breakTdisp {s : State} {t} (h : s.Sound) :
    (State.breakTdisp s t).Sound := by
  unfold State.breakTdisp
  try dsimp only
  repeat' first
    | with_reducible assumption
    | exact fun _ h1 h2 h3 => ⟨h1, h2, h3⟩
    | exact fun _ h1 => h1
    | (intro _; try dsimp only)
    | with_reducible apply sound_tdispError
    | with_reducible apply sound_ite
    | with_reducible apply sound_ite_fst
    | with_reducible apply sound_foldl
    | fail_if_no_progress (with_reducible (apply sound_upd; rotate_left; iterate 4 rfl))
    | with_reducible refine sound_of_pair (by assumption) ?_
    | split

theorem sound_tdispMessage {s : State} {v} {vf} {ok} {next4} (h : s.Sound) :
    (State.tdispMessage s v vf ok next4).Sound := by
  unfold State.tdispMessage
  try dsimp only
  repeat' first
    | with_reducible assumption
    | exact fun _ h1 h2 h3 => ⟨h1, h2, h3⟩
    | exact fun _ h1 => h1
    | (intro _; try dsimp only)
    | with_reducible apply sound_sendSpdm
    | with_reducible apply sound_modFunc
    | with_reducible apply sound_logTdisp
    | with_reducible apply sound_ite
    | with_reducible apply sound_ite_fst
    | with_reducible apply sound_foldl
    | fail_if_no_progress (with_reducible (apply sound_upd; rotate_left; iterate 4 rfl))
    | with_reducible refine sound_of_pair (by assumption) ?_
    | split

theorem sound_execLockInterface {s : State} {v} {vf} (h : s.Sound) :
    SoundResult (execLockInterface v vf s) := by
  unfold execLockInterface
  try dsimp only
  apply sound_next
  repeat' first
    | with_reducible assumption
    | exact fun _ h1 h2 h3 => ⟨h1, h2, h3⟩
    | exact fun _ h1 => h1
    | (intro _; try dsimp only)
    | with_reducible apply sound_tdispMessage
    | with_reducible apply sound_ite
    | with_reducible apply sound_ite_fst
    | with_reducible apply sound_foldl
    | fail_if_no_progress (with_reducible (apply sound_upd; rotate_left; iterate 4 rfl))
    | with_reducible refine sound_of_pair (by assumption) ?_
    | split

theorem sound_execStartInterface {s : State} {v} {vf} (h : s.Sound) :
    SoundResult (execStartInterface v vf s) := by
  unfold execStartInterface
  try dsimp only
  apply sound_next
  repeat' first
    | with_reducible assumption
    | exact fun _ h1 h2 h3 => ⟨h1, h2, h3⟩
    | exact fun _ h1 => h1
    | (intro _; try dsimp only)
    | with_reducible apply sound_tdispMessage
    | with_reducible apply sound_ite
    | with_reducible apply sound_ite_fst
    | with_reducible apply sound_foldl
    | fail_if_no_progress (with_reducible (apply sound_upd; rotate_left; iterate 4 rfl))
    | with_reducible refine sound_of_pair (by assumption) ?_
    | split

theorem sound_execStopInterface {s : State} {v} {vf} (h : s.Sound) :
    SoundResult (execStopInterface v vf s) := by
  unfold execStopInterface
  try dsimp only
  apply sound_next
  repeat' first
    | with_reducible assumption
    | exact fun _ h1 h2 h3 => ⟨h1, h2, h3⟩
    | exact fun _ h1 => h1
    | (intro _; try dsimp only)
    | with_reducible apply sound_tdispMessage
    | with_reducible apply sound_ite
    | with_reducible apply sound_ite_fst
    | with_reducible apply sound_foldl
    | fail_if_no_progress (with_reducible (apply sound_upd; rotate_left; iterate 4 rfl))
    | with_reducible refine sound_of_pair (by assumption) ?_
    | split

theorem sound_execIdeKmKeyProg {s : State} {v} {stream} {keySet} {key} (h : s.Sound) :
    SoundResult (execIdeKmKeyProg v stream keySet key s) := by
  unfold execIdeKmKeyProg
  try dsimp only
  apply sound_next
  repeat' first
    | with_reducible assumption
    | exact fun _ h1 h2 h3 => ⟨h1, h2, h3⟩
    | exact fun _ h1 => h1
    | (intro _; try dsimp only)
    | with_reducible apply sound_sendSpdm
    | with_reducible apply sound_modPort
    | with_reducible apply sound_ite
    | with_reducible apply sound_ite_fst
    | with_reducible apply sound_foldl
    | fail_if_no_progress (with_reducible (apply sound_upd; rotate_left; iterate 4 rfl))
    | with_reducible refine sound_of_pair (by assumption) ?_
    | split

theorem sound_dlogRegister {s : State} {p} {v} {reg} {value} (h : s.Sound) :
    (State.dlogRegister s p v reg value).Sound := by
  unfold State.dlogRegister
  try dsimp only
  repeat' first
    | with_reducible assumption
    | exact fun _ h1 h2 h3 => ⟨h1, h2, h3⟩
    | exact fun _ h1 => h1
    | (intro _; try dsimp only)
    | with_reducible apply sound_modFunc
    | with_reducible apply sound_ite
    | with_reducible apply sound_ite_fst
    | with_reducible apply sound_foldl
    | fail_if_no_progress (with_reducible (apply sound_upd; rotate_left; iterate 4 rfl))
    | with_reducible refine sound_of_pair (by assumption) ?_
    | split

theorem sound_execDlogFlip {s : State} {p} {v} {value} (h : s.Sound) :
    SoundResult (execDlogFlip p v value s) := by
  unfold execDlogFlip
  try dsimp only
  apply sound_next
  repeat' first
    | with_reducible assumption
    | exact fun _ h1 h2 h3 => ⟨h1, h2, h3⟩
    | exact fun _ h1 => h1
    | (intro _; try dsimp only)
    | with_reducible apply sound_dlogRegister
    | with_reducible apply sound_noteWrite
    | with_reducible apply sound_ite
    | with_reducible apply sound_ite_fst
    | with_reducible apply sound_foldl
    | fail_if_no_progress (with_reducible (apply sound_upd; rotate_left; iterate 4 rfl))
    | with_reducible refine sound_of_pair (by assumption) ?_
    | split

theorem sound_execDlogFlipDone {s : State} {p} {v} (h : s.Sound) :
    SoundResult (execDlogFlipDone p v s) := by
  unfold execDlogFlipDone
  try dsimp only
  apply sound_next
  repeat' first
    | with_reducible assumption
    | exact fun _ h1 h2 h3 => ⟨h1, h2, h3⟩
    | exact fun _ h1 => h1
    | (intro _; try dsimp only)
    | with_reducible apply sound_modFunc
    | with_reducible apply sound_emit
    | with_reducible apply sound_ite
    | with_reducible apply sound_ite_fst
    | with_reducible apply sound_foldl
    | fail_if_no_progress (with_reducible (apply sound_upd; rotate_left; iterate 4 rfl))
    | with_reducible refine sound_of_pair (by assumption) ?_
    | split

theorem sound_startDestroy {s : State} {k} (h : s.Sound) :
    (State.startDestroy s k).Sound := by
  unfold State.startDestroy
  try dsimp only
  repeat' first
    | with_reducible assumption
    | exact fun _ h1 h2 h3 => ⟨h1, h2, h3⟩
    | exact fun _ h1 => h1
    | (intro _; try dsimp only)
    | with_reducible apply sound_respond
    | with_reducible apply sound_destroySlot
    | with_reducible apply sound_modSlot
    | with_reducible apply sound_ite
    | with_reducible apply sound_ite_fst
    | with_reducible apply sound_foldl
    | fail_if_no_progress (with_reducible (apply sound_upd; rotate_left; iterate 4 rfl))
    | with_reducible refine sound_of_pair (by assumption) ?_
    | split

theorem sound_destroyPair {s : State} {_off} {v} (h : s.Sound) :
    (destroyPair _off v s).1.Sound := by
  unfold destroyPair
  try dsimp only
  repeat' first
    | with_reducible assumption
    | exact fun _ h1 h2 h3 => ⟨h1, h2, h3⟩
    | exact fun _ h1 => h1
    | (intro _; try dsimp only)
    | with_reducible apply sound_startDestroy
    | with_reducible apply sound_ite
    | with_reducible apply sound_ite_fst
    | with_reducible apply sound_foldl
    | fail_if_no_progress (with_reducible (apply sound_upd; rotate_left; iterate 4 rfl))
    | with_reducible refine sound_of_pair (by assumption) ?_
    | split

theorem sound_execKeySlotDestroy {s : State} {r} {off} {complement} (h : s.Sound) :
    SoundResult (execKeySlotDestroy r off complement s) := by
  unfold execKeySlotDestroy
  try dsimp only
  apply sound_next
  repeat' first
    | with_reducible assumption
    | exact fun _ h1 h2 h3 => ⟨h1, h2, h3⟩
    | exact fun _ h1 => h1
    | (intro _; try dsimp only)
    | with_reducible apply sound_guardPair
    | with_reducible apply sound_destroyPair
    | with_reducible apply sound_ite
    | with_reducible apply sound_ite_fst
    | with_reducible apply sound_foldl
    | fail_if_no_progress (with_reducible (apply sound_upd; rotate_left; iterate 4 rfl))
    | with_reducible refine sound_of_pair (by assumption) ?_
    | split

theorem sound_execSlotDestroyDone {s : State} {slot} (h : s.Sound) :
    SoundResult (execSlotDestroyDone slot s) := by
  unfold execSlotDestroyDone
  try dsimp only
  apply sound_next
  repeat' first
    | with_reducible assumption
    | exact fun _ h1 h2 h3 => ⟨h1, h2, h3⟩
    | exact fun _ h1 => h1
    | (intro _; try dsimp only)
    | with_reducible apply sound_event
    | with_reducible apply sound_modSlot
    | with_reducible apply sound_ite
    | with_reducible apply sound_ite_fst
    | with_reducible apply sound_foldl
    | fail_if_no_progress (with_reducible (apply sound_upd; rotate_left; iterate 4 rfl))
    | with_reducible refine sound_of_pair (by assumption) ?_
    | split

theorem sound_modRecord {s : State} {k} {f} (h : s.Sound) :
    (State.modRecord s k f).Sound := by
  unfold State.modRecord
  try dsimp only
  repeat' first
    | with_reducible assumption
    | exact fun _ h1 h2 h3 => ⟨h1, h2, h3⟩
    | exact fun _ h1 => h1
    | (intro _; try dsimp only)
    | with_reducible apply sound_ite
    | with_reducible apply sound_ite_fst
    | with_reducible apply sound_foldl
    | fail_if_no_progress (with_reducible (apply sound_upd; rotate_left; iterate 4 rfl))
    | with_reducible (apply sound_upd_vault; any_goals (first | apply Map.rising_insert | apply Map.rising_erase | apply Map.rising_modify | apply Map.rising_filter | apply Map.rising_mapVals | apply rising_ite))
    | with_reducible apply State.Sound.slots
    | with_reducible apply State.Sound.ctxs
    | with_reducible apply State.Sound.shelf
    | with_reducible apply Map.rising_insert
    | with_reducible apply Map.rising_erase
    | with_reducible apply Map.rising_modify
    | with_reducible apply Map.rising_filter
    | with_reducible apply Map.rising_mapVals
    | with_reducible apply rising_ite
    | with_reducible refine sound_of_pair (by assumption) ?_
    | split

theorem sound_lowerBudget {s : State} {k} {b} (h : s.Sound) :
    (State.lowerBudget s k b).Sound := by
  unfold State.lowerBudget
  try dsimp only
  repeat' first
    | with_reducible assumption
    | exact fun _ h1 h2 h3 => ⟨h1, h2, h3⟩
    | exact fun _ h1 => h1
    | (intro _; try dsimp only)
    | with_reducible apply sound_modSlot
    | with_reducible apply sound_event
    | with_reducible apply sound_ite
    | with_reducible apply sound_ite_fst
    | with_reducible apply sound_foldl
    | fail_if_no_progress (with_reducible (apply sound_upd; rotate_left; iterate 4 rfl))
    | with_reducible refine sound_of_pair (by assumption) ?_
    | split

theorem sound_execBudgetFloorWriteDone {s : State} {slot} (h : s.Sound) :
    SoundResult (execBudgetFloorWriteDone slot s) := by
  unfold execBudgetFloorWriteDone
  try dsimp only
  apply sound_next
  repeat' first
    | with_reducible assumption
    | exact fun _ h1 h2 h3 => ⟨h1, h2, h3⟩
    | exact fun _ h1 => h1
    | (intro _; try dsimp only)
    | with_reducible apply sound_modSlot
    | with_reducible apply sound_modRecord
    | with_reducible apply sound_lowerBudget
    | with_reducible apply sound_respond
    | with_reducible apply sound_ite
    | with_reducible apply sound_ite_fst
    | with_reducible apply sound_foldl
    | fail_if_no_progress (with_reducible (apply sound_upd; rotate_left; iterate 4 rfl))
    | with_reducible refine sound_of_pair (by assumption) ?_
    | split

theorem sound_restoreRecord {s : State} {bad} {k} {r} (h : s.Sound) :
    (State.restoreRecord s bad k r).Sound := by
  unfold State.restoreRecord
  try dsimp only
  repeat' first
    | with_reducible assumption
    | exact fun _ h1 h2 h3 => ⟨h1, h2, h3⟩
    | exact fun _ h1 => h1
    | (intro _; try dsimp only)
    | with_reducible apply sound_logKeyEvent
    | with_reducible apply sound_logCreated
    | with_reducible apply sound_modSlot
    | with_reducible apply sound_ite
    | with_reducible apply sound_ite_fst
    | with_reducible apply sound_foldl
    | fail_if_no_progress (with_reducible (apply sound_upd; rotate_left; iterate 4 rfl))
    | with_reducible (apply sound_upd_vault; any_goals (first | apply Map.rising_insert | apply Map.rising_erase | apply Map.rising_modify | apply Map.rising_filter | apply Map.rising_mapVals | apply rising_ite))
    | with_reducible apply State.Sound.slots
    | with_reducible apply State.Sound.ctxs
    | with_reducible apply State.Sound.shelf
    | with_reducible apply Map.rising_insert
    | with_reducible apply Map.rising_erase
    | with_reducible apply Map.rising_modify
    | with_reducible apply Map.rising_filter
    | with_reducible apply Map.rising_mapVals
    | with_reducible apply rising_ite
    | with_reducible refine sound_of_pair (by assumption) ?_
    | split

theorem sound_execShelfRestoreDone {s : State} {bad} (h : s.Sound) :
    SoundResult (execShelfRestoreDone bad s) := by
  unfold execShelfRestoreDone
  try dsimp only
  apply sound_next
  repeat' first
    | with_reducible assumption
    | exact fun _ h1 h2 h3 => ⟨h1, h2, h3⟩
    | exact fun _ h1 => h1
    | (intro _; try dsimp only)
    | with_reducible apply sound_restoreRecord
    | with_reducible apply sound_ite
    | with_reducible apply sound_ite_fst
    | with_reducible apply sound_foldl
    | fail_if_no_progress (with_reducible (apply sound_upd; rotate_left; iterate 4 rfl))
    | with_reducible refine sound_of_pair (by assumption) ?_
    | split

theorem sound_execLeafReservationDone {s : State} {slot} (h : s.Sound) :
    SoundResult (execLeafReservationDone slot s) := by
  unfold execLeafReservationDone
  try dsimp only
  apply sound_next
  repeat' first
    | with_reducible assumption
    | exact fun _ h1 h2 h3 => ⟨h1, h2, h3⟩
    | exact fun _ h1 => h1
    | (intro _; try dsimp only)
    | with_reducible apply sound_modStateful
    | with_reducible apply sound_modRecord
    | with_reducible apply sound_ite
    | with_reducible apply sound_ite_fst
    | with_reducible apply sound_foldl
    | fail_if_no_progress (with_reducible (apply sound_upd; rotate_left; iterate 4 rfl))
    | with_reducible refine sound_of_pair (by assumption) ?_
    | split

theorem sound_execLeafHandoutInterval {s : State} {slot} (h : s.Sound) :
    SoundResult (execLeafHandoutInterval slot s) := by
  unfold execLeafHandoutInterval
  try dsimp only
  apply sound_next
  repeat' first
    | with_reducible assumption
    | exact fun _ h1 h2 h3 => ⟨h1, h2, h3⟩
    | exact fun _ h1 => h1
    | (intro _; try dsimp only)
    | with_reducible apply sound_modStateful
    | with_reducible apply sound_ite
    | with_reducible apply sound_ite_fst
    | with_reducible apply sound_foldl
    | fail_if_no_progress (with_reducible (apply sound_upd; rotate_left; iterate 4 rfl))
    | with_reducible refine sound_of_pair (by assumption) ?_
    | split

theorem sound_execTreeRestorationJob {s : State} {slot} (h : s.Sound) :
    SoundResult (execTreeRestorationJob slot s) := by
  unfold execTreeRestorationJob
  try dsimp only
  apply sound_next
  repeat' first
    | with_reducible assumption
    | exact fun _ h1 h2 h3 => ⟨h1, h2, h3⟩
    | exact fun _ h1 => h1
    | (intro _; try dsimp only)
    | with_reducible apply sound_modStateful
    | with_reducible apply sound_ite
    | with_reducible apply sound_ite_fst
    | with_reducible apply sound_foldl
    | fail_if_no_progress (with_reducible (apply sound_upd; rotate_left; iterate 4 rfl))
    | with_reducible refine sound_of_pair (by assumption) ?_
    | split

theorem sound_slotAssign {s : State} {k} {owner} {system} (h : s.Sound) :
    (State.slotAssign s k owner system).1.Sound := by
  unfold State.slotAssign
  try dsimp only
  repeat' first
    | with_reducible assumption
    | exact fun _ h1 h2 h3 => ⟨h1, h2, h3⟩
    | exact fun _ h1 => h1
    | (intro _; try dsimp only)
    | with_reducible apply sound_modSlot
    | with_reducible apply sound_ite
    | with_reducible apply sound_ite_fst
    | with_reducible apply sound_foldl
    | fail_if_no_progress (with_reducible (apply sound_upd; rotate_left; iterate 4 rfl))
    | with_reducible refine sound_of_pair (by assumption) ?_
    | split

theorem sound_budgetLower {s : State} {v} {k} {b} (h : s.Sound) :
    (State.budgetLower s v k b).1.Sound := by
  unfold State.budgetLower
  try dsimp only
  repeat' first
    | with_reducible assumption
    | exact fun _ h1 h2 h3 => ⟨h1, h2, h3⟩
    | exact fun _ h1 => h1
    | (intro _; try dsimp only)
    | with_reducible apply sound_modSlot
    | with_reducible apply sound_lowerBudget
    | with_reducible apply sound_ite
    | with_reducible apply sound_ite_fst
    | with_reducible apply sound_foldl
    | fail_if_no_progress (with_reducible (apply sound_upd; rotate_left; iterate 4 rfl))
    | with_reducible refine sound_of_pair (by assumption) ?_
    | split

theorem sound_destroyArm {s : State} {v} {k} {value} (h : s.Sound) :
    (State.destroyArm s v k value).1.Sound := by
  unfold State.destroyArm
  try dsimp only
  repeat' first
    | with_reducible assumption
    | exact fun _ h1 h2 h3 => ⟨h1, h2, h3⟩
    | exact fun _ h1 => h1
    | (intro _; try dsimp only)
    | with_reducible apply sound_arm
    | with_reducible apply sound_destroyPair
    | with_reducible apply sound_ite
    | with_reducible apply sound_ite_fst
    | with_reducible apply sound_foldl
    | fail_if_no_progress (with_reducible (apply sound_upd; rotate_left; iterate 4 rfl))
    | with_reducible refine sound_of_pair (by assumption) ?_
    | split

theorem sound_clearEngine {s : State} {n} (h : s.Sound) :
    (State.clearEngine s n).Sound := by
  unfold State.clearEngine
  try dsimp only
  repeat' first
    | with_reducible assumption
    | exact fun _ h1 h2 h3 => ⟨h1, h2, h3⟩
    | exact fun _ h1 => h1
    | (intro _; try dsimp only)
    | with_reducible apply sound_modEngine
    | with_reducible apply sound_ite
    | with_reducible apply sound_ite_fst
    | with_reducible apply sound_foldl
    | fail_if_no_progress (with_reducible (apply sound_upd; rotate_left; iterate 4 rfl))
    | with_reducible refine sound_of_pair (by assumption) ?_
    | split

theorem sound_moveUnits {s : State} {old} {new} (h : s.Sound) :
    (State.moveUnits s old new).Sound := by
  unfold State.moveUnits
  exact sound_foldl (sound_foldl (sound_foldl h fun _ _ h => sound_clearGrain h) fun _ _ h => sound_clearEngine h)
    fun _ _ h => sound_modGrain h
theorem sound_noteGrains {s before : State} {a b} (h : s.Sound) : (State.noteGrains s before a b).Sound :=
  sound_foldl h fun _ _ h => sound_event h
theorem sound_tenantSet {s : State} {t} {f} (h : s.Sound) :
    (State.tenantSet s t f).1.Sound := by
  unfold State.tenantSet
  try dsimp only
  repeat' first
    | with_reducible assumption
    | exact fun _ h1 h2 h3 => ⟨h1, h2, h3⟩
    | exact fun _ h1 => h1
    | (intro _; try dsimp only)
    | with_reducible apply sound_breakTdisp
    | with_reducible apply sound_modTenant
    | with_reducible apply sound_moveUnits
    | with_reducible apply sound_noteGrains
    | with_reducible apply sound_modQueue
    | with_reducible apply sound_ite
    | with_reducible apply sound_ite_fst
    | with_reducible apply sound_foldl
    | fail_if_no_progress (with_reducible (apply sound_upd; rotate_left; iterate 4 rfl))
    | with_reducible refine sound_of_pair (by assumption) ?_
    | split

theorem sound_quiesce {s : State} {v} {t} (h : s.Sound) :
    (State.quiesce s v t).1.Sound := by
  unfold State.quiesce
  try dsimp only
  repeat' first
    | with_reducible assumption
    | exact fun _ h1 h2 h3 => ⟨h1, h2, h3⟩
    | exact fun _ h1 => h1
    | (intro _; try dsimp only)
    | with_reducible apply sound_modTenant
    | with_reducible apply sound_breakTdisp
    | with_reducible apply sound_complete
    | with_reducible apply sound_ite
    | with_reducible apply sound_ite_fst
    | with_reducible apply sound_foldl
    | fail_if_no_progress (with_reducible (apply sound_upd; rotate_left; iterate 4 rfl))
    | with_reducible refine sound_of_pair (by assumption) ?_
    | split

theorem sound_execTenantDrained {s : State} {t} (h : s.Sound) :
    SoundResult (execTenantDrained t s) := by
  unfold execTenantDrained
  try dsimp only
  apply sound_next
  repeat' first
    | with_reducible assumption
    | exact fun _ h1 h2 h3 => ⟨h1, h2, h3⟩
    | exact fun _ h1 => h1
    | (intro _; try dsimp only)
    | with_reducible apply sound_modQueue
    | with_reducible apply sound_modTenant
    | with_reducible apply sound_vfEventOf
    | with_reducible apply sound_respond
    | with_reducible apply sound_ite
    | with_reducible apply sound_ite_fst
    | with_reducible apply sound_foldl
    | fail_if_no_progress (with_reducible (apply sound_upd; rotate_left; iterate 4 rfl))
    | with_reducible refine sound_of_pair (by assumption) ?_
    | split

theorem sound_resume {s : State} {t} (h : s.Sound) :
    (State.resume s t).1.Sound := by
  unfold State.resume
  try dsimp only
  repeat' first
    | with_reducible assumption
    | exact fun _ h1 h2 h3 => ⟨h1, h2, h3⟩
    | exact fun _ h1 => h1
    | (intro _; try dsimp only)
    | with_reducible apply sound_breakTdisp
    | with_reducible apply sound_modQueue
    | with_reducible apply sound_modTenant
    | with_reducible apply sound_ite
    | with_reducible apply sound_ite_fst
    | with_reducible apply sound_foldl
    | fail_if_no_progress (with_reducible (apply sound_upd; rotate_left; iterate 4 rfl))
    | with_reducible refine sound_of_pair (by assumption) ?_
    | split

theorem sound_unassignSlot {s : State} {k} (h : s.Sound) :
    (State.unassignSlot s k).Sound := by
  unfold State.unassignSlot
  try dsimp only
  repeat' first
    | with_reducible assumption
    | exact fun _ h1 h2 h3 => ⟨h1, h2, h3⟩
    | exact fun _ h1 => h1
    | (intro _; try dsimp only)
    | with_reducible apply sound_ite
    | with_reducible apply sound_ite_fst
    | with_reducible apply sound_foldl
    | fail_if_no_progress (with_reducible (apply sound_upd; rotate_left; iterate 4 rfl))
    | with_reducible (apply sound_upd_vault; any_goals (first | apply Map.rising_insert | apply Map.rising_erase | apply Map.rising_modify | apply Map.rising_filter | apply Map.rising_mapVals | apply rising_ite))
    | with_reducible apply State.Sound.slots
    | with_reducible apply State.Sound.ctxs
    | with_reducible apply State.Sound.shelf
    | with_reducible apply Map.rising_insert
    | with_reducible apply Map.rising_erase
    | with_reducible apply Map.rising_modify
    | with_reducible apply Map.rising_filter
    | with_reducible apply Map.rising_mapVals
    | with_reducible apply rising_ite
    | with_reducible refine sound_of_pair (by assumption) ?_
    | split

theorem sound_removeTenant {s : State} {t} (h : s.Sound) :
    (State.removeTenant s t).1.Sound := by
  unfold State.removeTenant
  try dsimp only
  repeat' first
    | with_reducible assumption
    | exact fun _ h1 h2 h3 => ⟨h1, h2, h3⟩
    | exact fun _ h1 => h1
    | (intro _; try dsimp only)
    | with_reducible apply sound_breakTdisp
    | with_reducible apply sound_unassignSlot
    | with_reducible apply sound_destroySlot
    | with_reducible apply sound_modTenant
    | with_reducible apply sound_ite
    | with_reducible apply sound_ite_fst
    | with_reducible apply sound_foldl
    | fail_if_no_progress (with_reducible (apply sound_upd; rotate_left; iterate 4 rfl))
    | with_reducible (apply sound_upd_vault; any_goals (first | apply Map.rising_insert | apply Map.rising_erase | apply Map.rising_modify | apply Map.rising_filter | apply Map.rising_mapVals | apply rising_ite))
    | with_reducible apply State.Sound.slots
    | with_reducible apply State.Sound.ctxs
    | with_reducible apply State.Sound.shelf
    | with_reducible apply Map.rising_insert
    | with_reducible apply Map.rising_erase
    | with_reducible apply Map.rising_modify
    | with_reducible apply Map.rising_filter
    | with_reducible apply Map.rising_mapVals
    | with_reducible apply rising_ite
    | with_reducible refine sound_of_pair (by assumption) ?_
    | split

theorem sound_removePair {s : State} {_off} {v} (h : s.Sound) :
    (removePair _off v s).1.Sound := by
  unfold removePair
  try dsimp only
  repeat' first
    | with_reducible assumption
    | exact fun _ h1 h2 h3 => ⟨h1, h2, h3⟩
    | exact fun _ h1 => h1
    | (intro _; try dsimp only)
    | with_reducible apply sound_removeTenant
    | with_reducible apply sound_ite
    | with_reducible apply sound_ite_fst
    | with_reducible apply sound_foldl
    | fail_if_no_progress (with_reducible (apply sound_upd; rotate_left; iterate 4 rfl))
    | with_reducible refine sound_of_pair (by assumption) ?_
    | split

theorem sound_execGlbTenantRemove {s : State} {r} {off} {complement} (h : s.Sound) :
    SoundResult (execGlbTenantRemove r off complement s) := by
  unfold execGlbTenantRemove
  try dsimp only
  apply sound_next
  repeat' first
    | with_reducible assumption
    | exact fun _ h1 h2 h3 => ⟨h1, h2, h3⟩
    | exact fun _ h1 => h1
    | (intro _; try dsimp only)
    | with_reducible apply sound_guardPair
    | with_reducible apply sound_removePair
    | with_reducible apply sound_ite
    | with_reducible apply sound_ite_fst
    | with_reducible apply sound_foldl
    | fail_if_no_progress (with_reducible (apply sound_upd; rotate_left; iterate 4 rfl))
    | with_reducible refine sound_of_pair (by assumption) ?_
    | split

theorem sound_execTenantRemoveDone {s : State} {t} (h : s.Sound) :
    SoundResult (execTenantRemoveDone t s) := by
  unfold execTenantRemoveDone
  try dsimp only
  apply sound_next
  repeat' first
    | with_reducible assumption
    | exact fun _ h1 h2 h3 => ⟨h1, h2, h3⟩
    | exact fun _ h1 => h1
    | (intro _; try dsimp only)
    | with_reducible apply sound_modQueue
    | with_reducible apply sound_modCounters
    | with_reducible apply sound_moveUnits
    | with_reducible apply sound_noteGrains
    | with_reducible apply sound_modTenant
    | with_reducible apply sound_ite
    | with_reducible apply sound_ite_fst
    | with_reducible apply sound_foldl
    | fail_if_no_progress (with_reducible (apply sound_upd; rotate_left; iterate 4 rfl))
    | with_reducible refine sound_of_pair (by assumption) ?_
    | split

theorem sound_removeArm {s : State} {v} {t} {value} (h : s.Sound) :
    (State.removeArm s v t value).1.Sound := by
  unfold State.removeArm
  try dsimp only
  repeat' first
    | with_reducible assumption
    | exact fun _ h1 h2 h3 => ⟨h1, h2, h3⟩
    | exact fun _ h1 => h1
    | (intro _; try dsimp only)
    | with_reducible apply sound_arm
    | with_reducible apply sound_removePair
    | with_reducible apply sound_ite
    | with_reducible apply sound_ite_fst
    | with_reducible apply sound_foldl
    | fail_if_no_progress (with_reducible (apply sound_upd; rotate_left; iterate 4 rfl))
    | with_reducible refine sound_of_pair (by assumption) ?_
    | split

theorem sound_execDmaFrameBoundary {s : State} {p} (h : s.Sound) :
    SoundResult (execDmaFrameBoundary p s) := by
  unfold execDmaFrameBoundary
  try dsimp only
  apply sound_next
  repeat' first
    | with_reducible assumption
    | exact fun _ h1 h2 h3 => ⟨h1, h2, h3⟩
    | exact fun _ h1 => h1
    | (intro _; try dsimp only)
    | with_reducible apply sound_modTenant
    | with_reducible apply sound_modPort
    | with_reducible apply sound_log
    | with_reducible apply sound_spend
    | with_reducible apply sound_ite
    | with_reducible apply sound_ite_fst
    | with_reducible apply sound_foldl
    | fail_if_no_progress (with_reducible (apply sound_upd; rotate_left; iterate 4 rfl))
    | with_reducible refine sound_of_pair (by assumption) ?_
    | split

theorem sound_migrateExport {s : State} {t} {addr} {len} {accepted} (h : s.Sound) :
    (State.migrateExport s t addr len accepted).1.Sound := by
  unfold State.migrateExport
  try dsimp only
  repeat' first
    | with_reducible assumption
    | exact fun _ h1 h2 h3 => ⟨h1, h2, h3⟩
    | exact fun _ h1 => h1
    | (intro _; try dsimp only)
    | with_reducible apply sound_dmaWrite
    | with_reducible apply sound_spend
    | with_reducible apply sound_breakTdisp
    | with_reducible apply sound_destroySlot
    | with_reducible apply sound_modTenant
    | with_reducible apply sound_ite
    | with_reducible apply sound_ite_fst
    | with_reducible apply sound_foldl
    | fail_if_no_progress (with_reducible (apply sound_upd; rotate_left; iterate 4 rfl))
    | with_reducible (apply sound_upd_vault; any_goals (first | apply Map.rising_insert | apply Map.rising_erase | apply Map.rising_modify | apply Map.rising_filter | apply Map.rising_mapVals | apply rising_ite))
    | with_reducible apply State.Sound.slots
    | with_reducible apply State.Sound.ctxs
    | with_reducible apply State.Sound.shelf
    | with_reducible apply Map.rising_insert
    | with_reducible apply Map.rising_erase
    | with_reducible apply Map.rising_modify
    | with_reducible apply Map.rising_filter
    | with_reducible apply Map.rising_mapVals
    | with_reducible apply rising_ite
    | with_reducible refine sound_of_pair (by assumption) ?_
    | split

theorem sound_importSlot {s : State} {t} {r} (h : s.Sound) :
    (State.importSlot s t r).Sound := by
  unfold State.importSlot
  try dsimp only
  repeat' first
    | with_reducible assumption
    | exact fun _ h1 h2 h3 => ⟨h1, h2, h3⟩
    | exact fun _ h1 => h1
    | (intro _; try dsimp only)
    | with_reducible apply sound_modSlot
    | with_reducible apply sound_spend
    | with_reducible apply sound_logCreated
    | with_reducible apply sound_ite
    | with_reducible apply sound_ite_fst
    | with_reducible apply sound_foldl
    | fail_if_no_progress (with_reducible (apply sound_upd; rotate_left; iterate 4 rfl))
    | with_reducible (apply sound_upd_vault; any_goals (first | apply Map.rising_insert | apply Map.rising_erase | apply Map.rising_modify | apply Map.rising_filter | apply Map.rising_mapVals | apply rising_ite))
    | with_reducible apply State.Sound.slots
    | with_reducible apply State.Sound.ctxs
    | with_reducible apply State.Sound.shelf
    | with_reducible apply Map.rising_insert
    | with_reducible apply Map.rising_erase
    | with_reducible apply Map.rising_modify
    | with_reducible apply Map.rising_filter
    | with_reducible apply Map.rising_mapVals
    | with_reducible apply rising_ite
    | with_reducible refine sound_of_pair (by assumption) ?_
    | split

theorem sound_migrateImport {s : State} {t} {blob} (h : s.Sound) :
    (State.migrateImport s t blob).1.Sound := by
  unfold State.migrateImport
  try dsimp only
  repeat' first
    | with_reducible assumption
    | exact fun _ h1 h2 h3 => ⟨h1, h2, h3⟩
    | exact fun _ h1 => h1
    | (intro _; try dsimp only)
    | with_reducible apply sound_breakTdisp
    | with_reducible apply sound_modQueue
    | with_reducible apply sound_importSlot
    | with_reducible apply sound_modCtx
    | with_reducible apply sound_modTenant
    | with_reducible apply sound_ite
    | with_reducible apply sound_ite_fst
    | with_reducible apply sound_foldl
    | fail_if_no_progress (with_reducible (apply sound_upd; rotate_left; iterate 4 rfl))
    | with_reducible refine sound_of_pair (by assumption) ?_
    | split

theorem sound_holdJob {s : State} {j} (h : s.Sound) :
    (State.holdJob s j).Sound := by
  unfold State.holdJob
  try dsimp only
  repeat' first
    | with_reducible assumption
    | exact fun _ h1 h2 h3 => ⟨h1, h2, h3⟩
    | exact fun _ h1 => h1
    | (intro _; try dsimp only)
    | with_reducible apply sound_modJob
    | with_reducible apply sound_modGrain
    | with_reducible apply sound_ite
    | with_reducible apply sound_ite_fst
    | with_reducible apply sound_foldl
    | fail_if_no_progress (with_reducible (apply sound_upd; rotate_left; iterate 4 rfl))
    | with_reducible refine sound_of_pair (by assumption) ?_
    | split

theorem sound_holdEngines {s : State} {sel} (h : s.Sound) :
    (State.holdEngines s sel).Sound := by
  unfold State.holdEngines
  try dsimp only
  repeat' first
    | with_reducible assumption
    | exact fun _ h1 h2 h3 => ⟨h1, h2, h3⟩
    | exact fun _ h1 => h1
    | (intro _; try dsimp only)
    | with_reducible apply sound_ite
    | with_reducible apply sound_ite_fst
    | with_reducible apply sound_foldl
    | fail_if_no_progress (with_reducible (apply sound_upd; rotate_left; iterate 4 rfl))
    | with_reducible (apply sound_upd_engines; any_goals (first | apply Map.rising_insert | apply Map.rising_erase | apply Map.rising_modify | apply Map.rising_filter | apply Map.rising_mapVals | apply rising_ite))
    | with_reducible apply State.Sound.engines
    | with_reducible apply Map.rising_insert
    | with_reducible apply Map.rising_erase
    | with_reducible apply Map.rising_modify
    | with_reducible apply Map.rising_filter
    | with_reducible apply Map.rising_mapVals
    | with_reducible apply rising_ite
    | with_reducible refine sound_of_pair (by assumption) ?_
    | split

theorem sound_holdWork {s : State} {grains} {engines} (h : s.Sound) :
    (State.holdWork s grains engines).Sound := by
  unfold State.holdWork
  try dsimp only
  repeat' first
    | with_reducible assumption
    | exact fun _ h1 h2 h3 => ⟨h1, h2, h3⟩
    | exact fun _ h1 => h1
    | (intro _; try dsimp only)
    | with_reducible apply sound_holdEngines
    | with_reducible apply sound_holdJob
    | with_reducible apply sound_ite
    | with_reducible apply sound_ite_fst
    | with_reducible apply sound_foldl
    | fail_if_no_progress (with_reducible (apply sound_upd; rotate_left; iterate 4 rfl))
    | with_reducible refine sound_of_pair (by assumption) ?_
    | split

theorem sound_releaseEngines {s : State} {sel} (h : s.Sound) :
    (State.releaseEngines s sel).Sound := by
  unfold State.releaseEngines
  try dsimp only
  repeat' first
    | with_reducible assumption
    | exact fun _ h1 h2 h3 => ⟨h1, h2, h3⟩
    | exact fun _ h1 => h1
    | (intro _; try dsimp only)
    | with_reducible apply sound_ite
    | with_reducible apply sound_ite_fst
    | with_reducible apply sound_foldl
    | fail_if_no_progress (with_reducible (apply sound_upd; rotate_left; iterate 4 rfl))
    | with_reducible (apply sound_upd_engines; any_goals (first | apply Map.rising_insert | apply Map.rising_erase | apply Map.rising_modify | apply Map.rising_filter | apply Map.rising_mapVals | apply rising_ite))
    | with_reducible apply State.Sound.engines
    | with_reducible apply Map.rising_insert
    | with_reducible apply Map.rising_erase
    | with_reducible apply Map.rising_modify
    | with_reducible apply Map.rising_filter
    | with_reducible apply Map.rising_mapVals
    | with_reducible apply rising_ite
    | with_reducible refine sound_of_pair (by assumption) ?_
    | split

theorem sound_rerunJob {s : State} {j} {g} {job} (h : s.Sound) :
    (State.rerunJob s j g job).Sound := by
  unfold State.rerunJob
  try dsimp only
  repeat' first
    | with_reducible assumption
    | exact fun _ h1 h2 h3 => ⟨h1, h2, h3⟩
    | exact fun _ h1 => h1
    | (intro _; try dsimp only)
    | with_reducible apply sound_dropEngines
    | with_reducible apply sound_releaseClaim
    | with_reducible apply sound_modGrain
    | with_reducible apply sound_modJob
    | with_reducible apply sound_endExecution
    | with_reducible apply sound_ite
    | with_reducible apply sound_ite_fst
    | with_reducible apply sound_foldl
    | fail_if_no_progress (with_reducible (apply sound_upd; rotate_left; iterate 4 rfl))
    | with_reducible refine sound_of_pair (by assumption) ?_
    | split

theorem sound_releaseJob {s : State} {j} (h : s.Sound) :
    (State.releaseJob s j).Sound := by
  unfold State.releaseJob
  try dsimp only
  repeat' first
    | with_reducible assumption
    | exact fun _ h1 h2 h3 => ⟨h1, h2, h3⟩
    | exact fun _ h1 => h1
    | (intro _; try dsimp only)
    | with_reducible apply sound_modJob
    | with_reducible apply sound_rerunJob
    | with_reducible apply sound_modGrain
    | with_reducible apply sound_ite
    | with_reducible apply sound_ite_fst
    | with_reducible apply sound_foldl
    | fail_if_no_progress (with_reducible (apply sound_upd; rotate_left; iterate 4 rfl))
    | with_reducible refine sound_of_pair (by assumption) ?_
    | split

theorem sound_releaseWork {s : State} {grains} {engines} (h : s.Sound) :
    (State.releaseWork s grains engines).Sound := by
  unfold State.releaseWork
  try dsimp only
  repeat' first
    | with_reducible assumption
    | exact fun _ h1 h2 h3 => ⟨h1, h2, h3⟩
    | exact fun _ h1 => h1
    | (intro _; try dsimp only)
    | with_reducible apply sound_releaseJob
    | with_reducible apply sound_releaseEngines
    | with_reducible apply sound_ite
    | with_reducible apply sound_ite_fst
    | with_reducible apply sound_foldl
    | fail_if_no_progress (with_reducible (apply sound_upd; rotate_left; iterate 4 rfl))
    | with_reducible refine sound_of_pair (by assumption) ?_
    | split

theorem sound_pauseDigests {s : State} {on} (h : s.Sound) :
    (State.pauseDigests s on).Sound := by
  unfold State.pauseDigests
  try dsimp only
  repeat' first
    | with_reducible assumption
    | exact fun _ h1 h2 h3 => ⟨h1, h2, h3⟩
    | exact fun _ h1 => h1
    | (intro _; try dsimp only)
    | with_reducible apply sound_modDigest
    | with_reducible apply sound_ite
    | with_reducible apply sound_ite_fst
    | with_reducible apply sound_foldl
    | fail_if_no_progress (with_reducible (apply sound_upd; rotate_left; iterate 4 rfl))
    | with_reducible refine sound_of_pair (by assumption) ?_
    | split

theorem sound_modPower {s : State} {f} (h : s.Sound) :
    (State.modPower s f).Sound := by
  unfold State.modPower
  try dsimp only
  repeat' first
    | with_reducible assumption
    | exact fun _ h1 h2 h3 => ⟨h1, h2, h3⟩
    | exact fun _ h1 => h1
    | (intro _; try dsimp only)
    | with_reducible apply sound_ite
    | with_reducible apply sound_ite_fst
    | with_reducible apply sound_foldl
    | fail_if_no_progress (with_reducible (apply sound_upd; rotate_left; iterate 4 rfl))
    | with_reducible refine sound_of_pair (by assumption) ?_
    | split

theorem sound_modBoot {s : State} {f} (h : s.Sound) :
    (State.modBoot s f).Sound := by
  unfold State.modBoot
  try dsimp only
  repeat' first
    | with_reducible assumption
    | exact fun _ h1 h2 h3 => ⟨h1, h2, h3⟩
    | exact fun _ h1 => h1
    | (intro _; try dsimp only)
    | with_reducible apply sound_ite
    | with_reducible apply sound_ite_fst
    | with_reducible apply sound_foldl
    | fail_if_no_progress (with_reducible (apply sound_upd; rotate_left; iterate 4 rfl))
    | with_reducible refine sound_of_pair (by assumption) ?_
    | split

theorem sound_modVault {s : State} {f} (h : s.Sound) (hf : ∀ v : Vault, v.slots.rising = true → v.ctxs.rising = true → v.shelf.rising = true →
      (f v).slots.rising = true ∧ (f v).ctxs.rising = true ∧ (f v).shelf.rising = true) :
    (State.modVault s f).Sound := by
  have k := hf s.vault h.slots h.ctxs h.shelf
  unfold State.modVault
  exact { h with slots := k.1, ctxs := k.2.1, shelf := k.2.2 }
theorem sound_modGlb {s : State} {f} (h : s.Sound) :
    (State.modGlb s f).Sound := by
  unfold State.modGlb
  try dsimp only
  repeat' first
    | with_reducible assumption
    | exact fun _ h1 h2 h3 => ⟨h1, h2, h3⟩
    | exact fun _ h1 => h1
    | (intro _; try dsimp only)
    | with_reducible apply sound_ite
    | with_reducible apply sound_ite_fst
    | with_reducible apply sound_foldl
    | fail_if_no_progress (with_reducible (apply sound_upd; rotate_left; iterate 4 rfl))
    | with_reducible refine sound_of_pair (by assumption) ?_
    | split

theorem sound_modPgd {s : State} {f} (h : s.Sound) :
    (State.modPgd s f).Sound := by
  unfold State.modPgd
  try dsimp only
  repeat' first
    | with_reducible assumption
    | exact fun _ h1 h2 h3 => ⟨h1, h2, h3⟩
    | exact fun _ h1 => h1
    | (intro _; try dsimp only)
    | with_reducible apply sound_ite
    | with_reducible apply sound_ite_fst
    | with_reducible apply sound_foldl
    | fail_if_no_progress (with_reducible (apply sound_upd; rotate_left; iterate 4 rfl))
    | with_reducible refine sound_of_pair (by assumption) ?_
    | split

theorem sound_modTamper {s : State} {f} (h : s.Sound) (hf : ∀ t : Tamper, t.battCfg.rising = true → (f t).battCfg.rising = true) :
    (State.modTamper s f).Sound := by
  have k := hf s.tamper h.battCfg
  unfold State.modTamper
  exact { h with battCfg := k }
theorem sound_modLife {s : State} {f} (h : s.Sound) :
    (State.modLife s f).Sound := by
  unfold State.modLife
  try dsimp only
  repeat' first
    | with_reducible assumption
    | exact fun _ h1 h2 h3 => ⟨h1, h2, h3⟩
    | exact fun _ h1 => h1
    | (intro _; try dsimp only)
    | with_reducible apply sound_ite
    | with_reducible apply sound_ite_fst
    | with_reducible apply sound_foldl
    | fail_if_no_progress (with_reducible (apply sound_upd; rotate_left; iterate 4 rfl))
    | with_reducible refine sound_of_pair (by assumption) ?_
    | split

theorem sound_modHzn {s : State} {f} (h : s.Sound) :
    (State.modHzn s f).Sound := by
  unfold State.modHzn
  try dsimp only
  repeat' first
    | with_reducible assumption
    | exact fun _ h1 h2 h3 => ⟨h1, h2, h3⟩
    | exact fun _ h1 => h1
    | (intro _; try dsimp only)
    | with_reducible apply sound_ite
    | with_reducible apply sound_ite_fst
    | with_reducible apply sound_foldl
    | fail_if_no_progress (with_reducible (apply sound_upd; rotate_left; iterate 4 rfl))
    | with_reducible refine sound_of_pair (by assumption) ?_
    | split

theorem sound_modObs {s : State} {f} (h : s.Sound) :
    (State.modObs s f).Sound := by
  unfold State.modObs
  try dsimp only
  repeat' first
    | with_reducible assumption
    | exact fun _ h1 h2 h3 => ⟨h1, h2, h3⟩
    | exact fun _ h1 => h1
    | (intro _; try dsimp only)
    | with_reducible apply sound_ite
    | with_reducible apply sound_ite_fst
    | with_reducible apply sound_foldl
    | fail_if_no_progress (with_reducible (apply sound_upd; rotate_left; iterate 4 rfl))
    | with_reducible refine sound_of_pair (by assumption) ?_
    | split

theorem sound_clearTopsoil {s : State} {logged} (h : s.Sound) :
    (State.clearTopsoil s logged).Sound := by
  unfold State.clearTopsoil
  have k : (if logged = true then s.volatileKeys.foldl (fun s k => s.logDestroyed k 6) s else s).Sound :=
    sound_ite (sound_foldl h fun _ _ h => sound_logDestroyed h) h
  dsimp only
  generalize (if logged = true then s.volatileKeys.foldl (fun s k => s.logDestroyed k 6) s else s) = t at k ⊢
  have k2 := sound_modVault k (f := fun v => { v with
    slots := v.slots.mapVals fun _ x => x.emptied
    ctxs := [], slotKekValid := false, cacheKekValid := false, ctxKekValid := false, shelfLoading := false
    scrubSlots := false, scrubCtxs := false, scrubCache := false }) fun v h1 _ h3 =>
      ⟨by dsimp only; exact Map.rising_mapVals h1 _, rfl, h3⟩
  generalize State.modVault t _ = u at k2 ⊢
  exact { k2 with
    jobs := rfl, queues := rfl, funcs := rfl, engines := rfl, guard := rfl, posted := rfl
    sq := by dsimp only; exact Map.rising_filter k2.sq _
    glbPf := by dsimp only; exact Map.rising_mapVals k2.glbPf _
    ports := by dsimp only; exact Map.rising_mapVals k2.ports _
    tenants := by dsimp only; exact Map.rising_mapVals k2.tenants _
    beds := by dsimp only; exact Map.rising_mapVals k2.beds _
    grains := by dsimp only; exact Map.rising_filter k2.grains _
    quads := by dsimp only; exact Map.rising_mapVals k2.quads _
    digests := by dsimp only; exact Map.rising_filter k2.digests _ }
theorem sound_fullReset {s : State} {cause} {phase} {logged} (h : s.Sound) :
    (State.fullReset s cause phase logged).Sound := by
  unfold State.fullReset
  have k : (s.clearTopsoil logged).Sound := sound_clearTopsoil h
  dsimp only
  generalize s.clearTopsoil logged = t at k ⊢
  exact { k with sq := rfl, glbPf := rfl, posted := rfl, tenants := rfl, digests := rfl, tamperCfg := rfl }
theorem sound_innerReset {s : State} {cause} (h : s.Sound) :
    (State.innerReset s cause).Sound := by
  unfold State.innerReset
  try dsimp only
  repeat' first
    | with_reducible assumption
    | exact fun _ h1 h2 h3 => ⟨h1, h2, h3⟩
    | exact fun _ h1 => h1
    | (intro _; try dsimp only)
    | with_reducible apply sound_fullReset
    | with_reducible apply sound_ite
    | with_reducible apply sound_ite_fst
    | with_reducible apply sound_foldl
    | fail_if_no_progress (with_reducible (apply sound_upd; rotate_left; iterate 4 rfl))
    | with_reducible refine sound_of_pair (by assumption) ?_
    | split

theorem sound_escalated {s : State} {own} {event} (h : s.Sound) :
    (State.escalated s own event).Sound := by
  unfold State.escalated
  try dsimp only
  repeat' first
    | with_reducible assumption
    | exact fun _ h1 h2 h3 => ⟨h1, h2, h3⟩
    | exact fun _ h1 => h1
    | (intro _; try dsimp only)
    | with_reducible apply sound_innerReset
    | with_reducible apply sound_event
    | with_reducible apply sound_ite
    | with_reducible apply sound_ite_fst
    | with_reducible apply sound_foldl
    | fail_if_no_progress (with_reducible (apply sound_upd; rotate_left; iterate 4 rfl))
    | with_reducible refine sound_of_pair (by assumption) ?_
    | split

theorem sound_runDue {s : State} (h : s.Sound) :
    (State.runDue s).Sound := by
  unfold State.runDue
  try dsimp only
  repeat' first
    | with_reducible assumption
    | exact fun _ h1 h2 h3 => ⟨h1, h2, h3⟩
    | exact fun _ h1 => h1
    | (intro _; try dsimp only)
    | with_reducible apply sound_innerReset
    | with_reducible apply sound_escalated
    | with_reducible apply sound_ite
    | with_reducible apply sound_ite_fst
    | with_reducible apply sound_foldl
    | fail_if_no_progress (with_reducible (apply sound_upd; rotate_left; iterate 4 rfl))
    | with_reducible refine sound_of_pair (by assumption) ?_
    | split

theorem sound_callReset {s : State} {cause} (h : s.Sound) :
    (State.callReset s cause).Sound := by
  unfold State.callReset
  try dsimp only
  repeat' first
    | with_reducible assumption
    | exact fun _ h1 h2 h3 => ⟨h1, h2, h3⟩
    | exact fun _ h1 => h1
    | (intro _; try dsimp only)
    | with_reducible apply sound_modPower
    | with_reducible apply sound_ite
    | with_reducible apply sound_ite_fst
    | with_reducible apply sound_foldl
    | fail_if_no_progress (with_reducible (apply sound_upd; rotate_left; iterate 4 rfl))
    | with_reducible refine sound_of_pair (by assumption) ?_
    | split

theorem sound_resetPair {s : State} {_off} {v} (h : s.Sound) :
    (resetPair _off v s).1.Sound := by
  unfold resetPair
  try dsimp only
  repeat' first
    | with_reducible assumption
    | exact fun _ h1 h2 h3 => ⟨h1, h2, h3⟩
    | exact fun _ h1 => h1
    | (intro _; try dsimp only)
    | with_reducible apply sound_callReset
    | with_reducible apply sound_ite
    | with_reducible apply sound_ite_fst
    | with_reducible apply sound_foldl
    | fail_if_no_progress (with_reducible (apply sound_upd; rotate_left; iterate 4 rfl))
    | with_reducible refine sound_of_pair (by assumption) ?_
    | split

theorem sound_execGlbReset {s : State} {r} {off} {complement} (h : s.Sound) :
    SoundResult (execGlbReset r off complement s) := by
  unfold execGlbReset
  try dsimp only
  apply sound_next
  repeat' first
    | with_reducible assumption
    | exact fun _ h1 h2 h3 => ⟨h1, h2, h3⟩
    | exact fun _ h1 => h1
    | (intro _; try dsimp only)
    | with_reducible apply sound_runDue
    | with_reducible apply sound_guardPair
    | with_reducible apply sound_resetPair
    | with_reducible apply sound_ite
    | with_reducible apply sound_ite_fst
    | with_reducible apply sound_foldl
    | fail_if_no_progress (with_reducible (apply sound_upd; rotate_left; iterate 4 rfl))
    | with_reducible refine sound_of_pair (by assumption) ?_
    | split

end Sys2Proof.Machine
end

