-- ==== Sys2Proof/Laws/SoundG.lean ====
section
/-!
SUPPORT. What the functions of Machine/LifeCycle, Images, Identity, Tamper, Start, Install, LvNtt keep sound.
-/
namespace Sys2Proof.Machine

set_option linter.unusedTactic false
set_option linter.unreachableTactic false

theorem sound_lcsPair {s : State} {_off} {v} (h : s.Sound) :
    (lcsPair _off v s).1.Sound := by
  unfold lcsPair
  try dsimp only
  repeat' first
    | with_reducible assumption
    | exact fun _ h1 h2 h3 => ⟨h1, h2, h3⟩
    | exact fun _ h1 => h1
    | (intro _; try dsimp only)
    | with_reducible apply sound_modLife
    | with_reducible apply sound_log
    | with_reducible apply sound_callReset
    | with_reducible apply sound_ite
    | with_reducible apply sound_ite_fst
    | with_reducible apply sound_foldl
    | fail_if_no_progress (with_reducible (apply sound_upd; rotate_left; iterate 4 rfl))
    | with_reducible refine sound_of_pair (by assumption) ?_
    | split

theorem sound_execLcsReq {s : State} {r} {off} {complement} (h : s.Sound) :
    SoundResult (execLcsReq r off complement s) := by
  unfold execLcsReq
  try dsimp only
  apply sound_next
  repeat' first
    | with_reducible assumption
    | exact fun _ h1 h2 h3 => ⟨h1, h2, h3⟩
    | exact fun _ h1 => h1
    | (intro _; try dsimp only)
    | with_reducible apply sound_runDue
    | with_reducible apply sound_guardPair
    | with_reducible apply sound_lcsPair
    | with_reducible apply sound_ite
    | with_reducible apply sound_ite_fst
    | with_reducible apply sound_foldl
    | fail_if_no_progress (with_reducible (apply sound_upd; rotate_left; iterate 4 rfl))
    | with_reducible refine sound_of_pair (by assumption) ?_
    | split

theorem sound_lcStage {s : State} {v} {r} (h : s.Sound) :
    (State.lcStage s v r).1.Sound := by
  unfold State.lcStage
  try dsimp only
  repeat' first
    | with_reducible assumption
    | exact fun _ h1 h2 h3 => ⟨h1, h2, h3⟩
    | exact fun _ h1 => h1
    | (intro _; try dsimp only)
    | with_reducible apply sound_modLife
    | with_reducible apply sound_arm
    | with_reducible apply sound_lcsPair
    | with_reducible apply sound_ite
    | with_reducible apply sound_ite_fst
    | with_reducible apply sound_foldl
    | fail_if_no_progress (with_reducible (apply sound_upd; rotate_left; iterate 4 rfl))
    | with_reducible refine sound_of_pair (by assumption) ?_
    | split

theorem sound_cutPower {s : State} (h : s.Sound) :
    (State.cutPower s).Sound := by
  unfold State.cutPower
  try dsimp only
  repeat' first
    | with_reducible assumption
    | exact fun _ h1 h2 h3 => ⟨h1, h2, h3⟩
    | exact fun _ h1 => h1
    | (intro _; try dsimp only)
    | with_reducible apply sound_fullReset
    | with_reducible apply sound_ite
    | with_reducible apply sound_ite_fst
    | with_reducible apply sound_foldl
    | fail_if_no_progress (with_reducible (apply sound_upd; rotate_left; iterate 4 rfl))
    | with_reducible refine sound_of_pair (by assumption) ?_
    | split

theorem sound_eraseStateArea {s : State} (h : s.Sound) :
    (State.eraseStateArea s).Sound := by
  unfold State.eraseStateArea
  try dsimp only
  repeat' first
    | with_reducible assumption
    | exact fun _ h1 h2 h3 => ⟨h1, h2, h3⟩
    | exact fun _ h1 => h1
    | (intro _; try dsimp only)
    | with_reducible apply sound_ite
    | with_reducible apply sound_ite_fst
    | with_reducible apply sound_foldl
    | fail_if_no_progress (with_reducible (apply sound_upd; rotate_left; iterate 4 rfl))
    | with_reducible refine sound_of_pair (by assumption) ?_
    | split

theorem sound_eraseStore {s : State} (h : s.Sound) :
    (State.eraseStore s).Sound := by
  unfold State.eraseStore
  try dsimp only
  repeat' first
    | with_reducible assumption
    | exact fun _ h1 h2 h3 => ⟨h1, h2, h3⟩
    | exact fun _ h1 => h1
    | (intro _; try dsimp only)
    | with_reducible apply sound_eraseStateArea
    | with_reducible apply sound_ite
    | with_reducible apply sound_ite_fst
    | with_reducible apply sound_foldl
    | fail_if_no_progress (with_reducible (apply sound_upd; rotate_left; iterate 4 rfl))
    | with_reducible refine sound_of_pair (by assumption) ?_
    | split

theorem sound_wipeKeys {s : State} (h : s.Sound) :
    (State.wipeKeys s).Sound := by
  unfold State.wipeKeys
  try dsimp only
  repeat' first
    | with_reducible assumption
    | exact fun _ h1 h2 h3 => ⟨h1, h2, h3⟩
    | exact fun _ h1 => h1
    | (intro _; try dsimp only)
    | with_reducible apply sound_log
    | with_reducible apply sound_modVault
    | with_reducible apply sound_ite
    | with_reducible apply sound_ite_fst
    | with_reducible apply sound_foldl
    | fail_if_no_progress (with_reducible (apply sound_upd; rotate_left; iterate 4 rfl))
    | with_reducible exact rising_nil
    | with_reducible apply Map.rising_insert
    | with_reducible apply Map.rising_erase
    | with_reducible apply Map.rising_modify
    | with_reducible apply Map.rising_filter
    | with_reducible apply Map.rising_mapVals
    | with_reducible apply rising_ite
    | (with_reducible apply And.intro <;> try dsimp only)
    | with_reducible refine sound_of_pair (by assumption) ?_
    | split

theorem sound_newRoot {s : State} (h : s.Sound) :
    (State.newRoot s).Sound := by
  unfold State.newRoot
  try dsimp only
  repeat' first
    | with_reducible assumption
    | exact fun _ h1 h2 h3 => ⟨h1, h2, h3⟩
    | exact fun _ h1 => h1
    | (intro _; try dsimp only)
    | with_reducible apply sound_takeSeed
    | with_reducible apply sound_modVault
    | with_reducible apply sound_ite
    | with_reducible apply sound_ite_fst
    | with_reducible apply sound_foldl
    | fail_if_no_progress (with_reducible (apply sound_upd; rotate_left; iterate 4 rfl))
    | with_reducible exact rising_nil
    | with_reducible apply Map.rising_insert
    | with_reducible apply Map.rising_erase
    | with_reducible apply Map.rising_modify
    | with_reducible apply Map.rising_filter
    | with_reducible apply Map.rising_mapVals
    | with_reducible apply rising_ite
    | (with_reducible apply And.intro <;> try dsimp only)
    | with_reducible refine sound_of_pair (by assumption) ?_
    | split

theorem sound_clearRoot {s : State} (h : s.Sound) :
    (State.clearRoot s).Sound := by
  unfold State.clearRoot
  try dsimp only
  repeat' first
    | with_reducible assumption
    | exact fun _ h1 h2 h3 => ⟨h1, h2, h3⟩
    | exact fun _ h1 => h1
    | (intro _; try dsimp only)
    | with_reducible apply sound_modVault
    | with_reducible apply sound_ite
    | with_reducible apply sound_ite_fst
    | with_reducible apply sound_foldl
    | fail_if_no_progress (with_reducible (apply sound_upd; rotate_left; iterate 4 rfl))
    | with_reducible exact rising_nil
    | with_reducible apply Map.rising_insert
    | with_reducible apply Map.rising_erase
    | with_reducible apply Map.rising_modify
    | with_reducible apply Map.rising_filter
    | with_reducible apply Map.rising_mapVals
    | with_reducible apply rising_ite
    | (with_reducible apply And.intro <;> try dsimp only)
    | with_reducible refine sound_of_pair (by assumption) ?_
    | split

theorem sound_programKeys {s : State} {base} {keys} (h : s.Sound) :
    (State.programKeys s base keys).Sound := by
  unfold State.programKeys
  try dsimp only
  repeat' first
    | with_reducible assumption
    | exact fun _ h1 h2 h3 => ⟨h1, h2, h3⟩
    | exact fun _ h1 => h1
    | (intro _; try dsimp only)
    | with_reducible apply sound_modBoot
    | with_reducible apply sound_ite
    | with_reducible apply sound_ite_fst
    | with_reducible apply sound_foldl
    | fail_if_no_progress (with_reducible (apply sound_upd; rotate_left; iterate 4 rfl))
    | with_reducible refine sound_of_pair (by assumption) ?_
    | split

theorem sound_wipe {s : State} {dest} {keys} (h : s.Sound) :
    (State.wipe s dest keys).Sound := by
  unfold State.wipe
  try dsimp only
  repeat' first
    | with_reducible assumption
    | exact fun _ h1 h2 h3 => ⟨h1, h2, h3⟩
    | exact fun _ h1 => h1
    | (intro _; try dsimp only)
    | with_reducible apply sound_wipeKeys
    | with_reducible apply sound_takeSeed
    | with_reducible apply sound_programKeys
    | with_reducible apply sound_eraseStore
    | with_reducible apply sound_newRoot
    | with_reducible apply sound_modVault
    | with_reducible apply sound_modBoot
    | with_reducible apply sound_eraseStateArea
    | with_reducible apply sound_clearRoot
    | with_reducible apply sound_modLife
    | with_reducible apply sound_ite
    | with_reducible apply sound_ite_fst
    | with_reducible apply sound_foldl
    | fail_if_no_progress (with_reducible (apply sound_upd; rotate_left; iterate 4 rfl))
    | with_reducible exact rising_nil
    | with_reducible apply Map.rising_insert
    | with_reducible apply Map.rising_erase
    | with_reducible apply Map.rising_modify
    | with_reducible apply Map.rising_filter
    | with_reducible apply Map.rising_mapVals
    | with_reducible apply rising_ite
    | (with_reducible apply And.intro <;> try dsimp only)
    | with_reducible refine sound_of_pair (by assumption) ?_
    | split

theorem sound_lcCommit {s : State} {dest} (h : s.Sound) :
    (State.lcCommit s dest).Sound := by
  unfold State.lcCommit
  try dsimp only
  repeat' first
    | with_reducible assumption
    | exact fun _ h1 h2 h3 => ⟨h1, h2, h3⟩
    | exact fun _ h1 => h1
    | (intro _; try dsimp only)
    | with_reducible apply sound_event
    | with_reducible apply sound_modLife
    | with_reducible apply sound_ite
    | with_reducible apply sound_ite_fst
    | with_reducible apply sound_foldl
    | fail_if_no_progress (with_reducible (apply sound_upd; rotate_left; iterate 4 rfl))
    | with_reducible refine sound_of_pair (by assumption) ?_
    | split

theorem sound_lcWipe {s : State} {keys} (h : s.Sound) :
    (State.lcWipe s keys).Sound := by
  unfold State.lcWipe
  try dsimp only
  repeat' first
    | with_reducible assumption
    | exact fun _ h1 h2 h3 => ⟨h1, h2, h3⟩
    | exact fun _ h1 => h1
    | (intro _; try dsimp only)
    | with_reducible apply sound_modLife
    | with_reducible apply sound_wipe
    | with_reducible apply sound_ite
    | with_reducible apply sound_ite_fst
    | with_reducible apply sound_foldl
    | fail_if_no_progress (with_reducible (apply sound_upd; rotate_left; iterate 4 rfl))
    | with_reducible refine sound_of_pair (by assumption) ?_
    | split

theorem sound_transition {s : State} {r} {cut} (h : s.Sound) :
    (State.transition s r cut).Sound := by
  unfold State.transition
  try dsimp only
  repeat' first
    | with_reducible assumption
    | exact fun _ h1 h2 h3 => ⟨h1, h2, h3⟩
    | exact fun _ h1 => h1
    | (intro _; try dsimp only)
    | with_reducible apply sound_cutPower
    | with_reducible apply sound_modLife
    | with_reducible apply sound_lcCommit
    | with_reducible apply sound_lcWipe
    | with_reducible apply sound_ite
    | with_reducible apply sound_ite_fst
    | with_reducible apply sound_foldl
    | fail_if_no_progress (with_reducible (apply sound_upd; rotate_left; iterate 4 rfl))
    | with_reducible refine sound_of_pair (by assumption) ?_
    | split

theorem sound_modRegion {s : State} {i} {f} (h : s.Sound) :
    (State.modRegion s i f).Sound := by
  unfold State.modRegion
  try dsimp only
  repeat' first
    | with_reducible assumption
    | exact fun _ h1 h2 h3 => ⟨h1, h2, h3⟩
    | exact fun _ h1 => h1
    | (intro _; try dsimp only)
    | with_reducible apply sound_ite
    | with_reducible apply sound_ite_fst
    | with_reducible apply sound_foldl
    | fail_if_no_progress (with_reducible (apply sound_upd; rotate_left; iterate 4 rfl))
    | with_reducible refine sound_of_pair (by assumption) ?_
    | split

theorem sound_newAlias {s : State} (h : s.Sound) :
    (State.newAlias s).Sound := by
  unfold State.newAlias
  try dsimp only
  repeat' first
    | with_reducible assumption
    | exact fun _ h1 h2 h3 => ⟨h1, h2, h3⟩
    | exact fun _ h1 => h1
    | (intro _; try dsimp only)
    | with_reducible apply sound_spend
    | with_reducible apply sound_modVault
    | with_reducible apply sound_ite
    | with_reducible apply sound_ite_fst
    | with_reducible apply sound_foldl
    | fail_if_no_progress (with_reducible (apply sound_upd; rotate_left; iterate 4 rfl))
    | with_reducible exact rising_nil
    | with_reducible apply Map.rising_insert
    | with_reducible apply Map.rising_erase
    | with_reducible apply Map.rising_modify
    | with_reducible apply Map.rising_filter
    | with_reducible apply Map.rising_mapVals
    | with_reducible apply rising_ite
    | (with_reducible apply And.intro <;> try dsimp only)
    | with_reducible refine sound_of_pair (by assumption) ?_
    | split

theorem sound_logZeroized {s : State} (h : s.Sound) :
    (State.logZeroized s).Sound := by
  unfold State.logZeroized
  try dsimp only
  repeat' first
    | with_reducible assumption
    | exact fun _ h1 h2 h3 => ⟨h1, h2, h3⟩
    | exact fun _ h1 => h1
    | (intro _; try dsimp only)
    | with_reducible apply sound_logDestroyed
    | with_reducible apply sound_ite
    | with_reducible apply sound_ite_fst
    | with_reducible apply sound_foldl
    | fail_if_no_progress (with_reducible (apply sound_upd; rotate_left; iterate 4 rfl))
    | with_reducible refine sound_of_pair (by assumption) ?_
    | split

theorem sound_zeroize {s : State} (h : s.Sound) :
    (State.zeroize s).Sound := by
  unfold State.zeroize
  try dsimp only
  repeat' first
    | with_reducible assumption
    | exact fun _ h1 h2 h3 => ⟨h1, h2, h3⟩
    | exact fun _ h1 => h1
    | (intro _; try dsimp only)
    | with_reducible apply sound_logZeroized
    | with_reducible apply sound_modVault
    | with_reducible apply sound_clearRoot
    | with_reducible apply sound_zeroizeRng
    | with_reducible apply sound_abortJob
    | with_reducible apply sound_digStop
    | with_reducible apply sound_event
    | with_reducible apply sound_ite
    | with_reducible apply sound_ite_fst
    | with_reducible apply sound_foldl
    | fail_if_no_progress (with_reducible (apply sound_upd; rotate_left; iterate 4 rfl))
    | with_reducible exact rising_nil
    | with_reducible apply Map.rising_insert
    | with_reducible apply Map.rising_erase
    | with_reducible apply Map.rising_modify
    | with_reducible apply Map.rising_filter
    | with_reducible apply Map.rising_mapVals
    | with_reducible apply rising_ite
    | (with_reducible apply And.intro <;> try dsimp only)
    | with_reducible refine sound_of_pair (by assumption) ?_
    | split

theorem sound_execZeroizeRequest {s : State} (h : s.Sound) :
    SoundResult (execZeroizeRequest s) := by
  unfold execZeroizeRequest
  try dsimp only
  apply sound_next
  repeat' first
    | with_reducible assumption
    | exact fun _ h1 h2 h3 => ⟨h1, h2, h3⟩
    | exact fun _ h1 => h1
    | (intro _; try dsimp only)
    | with_reducible apply sound_zeroize
    | with_reducible apply sound_ite
    | with_reducible apply sound_ite_fst
    | with_reducible apply sound_foldl
    | fail_if_no_progress (with_reducible (apply sound_upd; rotate_left; iterate 4 rfl))
    | with_reducible refine sound_of_pair (by assumption) ?_
    | split

theorem sound_execZeroizeScrubDone {s : State} {store} (h : s.Sound) :
    SoundResult (execZeroizeScrubDone store s) := by
  unfold execZeroizeScrubDone
  try dsimp only
  apply sound_next
  repeat' first
    | with_reducible assumption
    | exact fun _ h1 h2 h3 => ⟨h1, h2, h3⟩
    | exact fun _ h1 => h1
    | (intro _; try dsimp only)
    | with_reducible apply sound_modVault
    | with_reducible apply sound_ite
    | with_reducible apply sound_ite_fst
    | with_reducible apply sound_foldl
    | fail_if_no_progress (with_reducible (apply sound_upd; rotate_left; iterate 4 rfl))
    | with_reducible exact rising_nil
    | with_reducible apply Map.rising_insert
    | with_reducible apply Map.rising_erase
    | with_reducible apply Map.rising_modify
    | with_reducible apply Map.rising_filter
    | with_reducible apply Map.rising_mapVals
    | with_reducible apply rising_ite
    | (with_reducible apply And.intro <;> try dsimp only)
    | with_reducible refine sound_of_pair (by assumption) ?_
    | split

theorem sound_setTamper {s : State} {src} {c} (h : s.Sound) :
    (State.setTamper s src c).Sound := by
  exact { h with tamperCfg := Map.rising_insert h.tamperCfg _ _, battCfg := Map.rising_insert h.battCfg _ _ }
theorem sound_tamperHolds {s : State} (h : s.Sound) :
    (State.tamperHolds s).Sound := by
  unfold State.tamperHolds
  try dsimp only
  repeat' first
    | with_reducible assumption
    | exact fun _ h1 h2 h3 => ⟨h1, h2, h3⟩
    | exact fun _ h1 => h1
    | (intro _; try dsimp only)
    | with_reducible apply sound_modPgd
    | with_reducible apply sound_ite
    | with_reducible apply sound_ite_fst
    | with_reducible apply sound_foldl
    | fail_if_no_progress (with_reducible (apply sound_upd; rotate_left; iterate 4 rfl))
    | with_reducible refine sound_of_pair (by assumption) ?_
    | split

theorem sound_enterLockService {s : State} (h : s.Sound) :
    (State.enterLockService s).Sound := by
  unfold State.enterLockService
  try dsimp only
  repeat' first
    | with_reducible assumption
    | exact fun _ h1 h2 h3 => ⟨h1, h2, h3⟩
    | exact fun _ h1 => h1
    | (intro _; try dsimp only)
    | with_reducible apply sound_ite
    | with_reducible apply sound_ite_fst
    | with_reducible apply sound_foldl
    | fail_if_no_progress (with_reducible (apply sound_upd; rotate_left; iterate 4 rfl))
    | with_reducible refine sound_of_pair (by assumption) ?_
    | split

theorem sound_becomeLocked {s : State} (h : s.Sound) :
    (State.becomeLocked s).Sound := by
  unfold State.becomeLocked
  try dsimp only
  repeat' first
    | with_reducible assumption
    | exact fun _ h1 h2 h3 => ⟨h1, h2, h3⟩
    | exact fun _ h1 => h1
    | (intro _; try dsimp only)
    | with_reducible apply sound_event
    | with_reducible apply sound_modTamper
    | with_reducible apply sound_vfEvent
    | with_reducible apply sound_glbEvent
    | with_reducible apply sound_ite
    | with_reducible apply sound_ite_fst
    | with_reducible apply sound_foldl
    | fail_if_no_progress (with_reducible (apply sound_upd; rotate_left; iterate 4 rfl))
    | with_reducible exact rising_nil
    | with_reducible apply Map.rising_insert
    | with_reducible apply Map.rising_erase
    | with_reducible apply Map.rising_modify
    | with_reducible apply Map.rising_filter
    | with_reducible apply Map.rising_mapVals
    | with_reducible apply rising_ite
    | (with_reducible apply And.intro <;> try dsimp only)
    | with_reducible refine sound_of_pair (by assumption) ?_
    | split

theorem sound_lockResponse {s : State} (h : s.Sound) :
    (State.lockResponse s).Sound := by
  unfold State.lockResponse
  try dsimp only
  repeat' first
    | with_reducible assumption
    | exact fun _ h1 h2 h3 => ⟨h1, h2, h3⟩
    | exact fun _ h1 => h1
    | (intro _; try dsimp only)
    | with_reducible apply sound_becomeLocked
    | with_reducible apply sound_escalated
    | with_reducible apply sound_modTamper
    | with_reducible apply sound_enterLockService
    | with_reducible apply sound_event
    | with_reducible apply sound_ite
    | with_reducible apply sound_ite_fst
    | with_reducible apply sound_foldl
    | fail_if_no_progress (with_reducible (apply sound_upd; rotate_left; iterate 4 rfl))
    | with_reducible exact rising_nil
    | with_reducible apply Map.rising_insert
    | with_reducible apply Map.rising_erase
    | with_reducible apply Map.rising_modify
    | with_reducible apply Map.rising_filter
    | with_reducible apply Map.rising_mapVals
    | with_reducible apply rising_ite
    | (with_reducible apply And.intro <;> try dsimp only)
    | with_reducible refine sound_of_pair (by assumption) ?_
    | split

theorem sound_driveOut {s : State} {srcs} {lock} (h : s.Sound) :
    (State.driveOut s srcs lock).Sound := by
  unfold State.driveOut
  try dsimp only
  repeat' first
    | with_reducible assumption
    | exact fun _ h1 h2 h3 => ⟨h1, h2, h3⟩
    | exact fun _ h1 => h1
    | (intro _; try dsimp only)
    | with_reducible apply sound_modTamper
    | with_reducible apply sound_ite
    | with_reducible apply sound_ite_fst
    | with_reducible apply sound_foldl
    | fail_if_no_progress (with_reducible (apply sound_upd; rotate_left; iterate 4 rfl))
    | with_reducible exact rising_nil
    | with_reducible apply Map.rising_insert
    | with_reducible apply Map.rising_erase
    | with_reducible apply Map.rising_modify
    | with_reducible apply Map.rising_filter
    | with_reducible apply Map.rising_mapVals
    | with_reducible apply rising_ite
    | (with_reducible apply And.intro <;> try dsimp only)
    | with_reducible refine sound_of_pair (by assumption) ?_
    | split

theorem sound_broadcastTamper {s : State} {srcs} {responses} (h : s.Sound) :
    (State.broadcastTamper s srcs responses).Sound := by
  unfold State.broadcastTamper
  try dsimp only
  repeat' first
    | with_reducible assumption
    | exact fun _ h1 h2 h3 => ⟨h1, h2, h3⟩
    | exact fun _ h1 => h1
    | (intro _; try dsimp only)
    | with_reducible apply sound_originateAuth
    | with_reducible apply sound_ite
    | with_reducible apply sound_ite_fst
    | with_reducible apply sound_foldl
    | fail_if_no_progress (with_reducible (apply sound_upd; rotate_left; iterate 4 rfl))
    | with_reducible refine sound_of_pair (by assumption) ?_
    | split

theorem sound_logTamper {s : State} {time} {src} {responses} {battery} (h : s.Sound) :
    (State.logTamper s time src responses battery).Sound := by
  unfold State.logTamper
  try dsimp only
  repeat' first
    | with_reducible assumption
    | exact fun _ h1 h2 h3 => ⟨h1, h2, h3⟩
    | exact fun _ h1 => h1
    | (intro _; try dsimp only)
    | with_reducible apply sound_logAt
    | with_reducible apply sound_ite
    | with_reducible apply sound_ite_fst
    | with_reducible apply sound_foldl
    | fail_if_no_progress (with_reducible (apply sound_upd; rotate_left; iterate 4 rfl))
    | with_reducible refine sound_of_pair (by assumption) ?_
    | split

theorem sound_alarm {s : State} {srcs} (h : s.Sound) :
    (State.alarm s srcs).Sound := by
  unfold State.alarm
  try dsimp only
  repeat' first
    | with_reducible assumption
    | exact fun _ h1 h2 h3 => ⟨h1, h2, h3⟩
    | exact fun _ h1 => h1
    | (intro _; try dsimp only)
    | with_reducible apply sound_broadcastTamper
    | with_reducible apply sound_event
    | with_reducible apply sound_modTamper
    | with_reducible apply sound_zeroize
    | with_reducible apply sound_tamperHolds
    | with_reducible apply sound_driveOut
    | with_reducible apply sound_lockResponse
    | with_reducible apply sound_tick
    | with_reducible apply sound_logTamper
    | with_reducible apply sound_glbEvent
    | with_reducible apply sound_ite
    | with_reducible apply sound_ite_fst
    | with_reducible apply sound_foldl
    | fail_if_no_progress (with_reducible (apply sound_upd; rotate_left; iterate 4 rfl))
    | with_reducible exact rising_nil
    | with_reducible apply Map.rising_insert
    | with_reducible apply Map.rising_erase
    | with_reducible apply Map.rising_modify
    | with_reducible apply Map.rising_filter
    | with_reducible apply Map.rising_mapVals
    | with_reducible apply rising_ite
    | (with_reducible apply And.intro <;> try dsimp only)
    | with_reducible refine sound_of_pair (by assumption) ?_
    | split

theorem sound_battAlarm {s : State} {src} (h : s.Sound) :
    (State.battAlarm s src).Sound := by
  unfold State.battAlarm
  try dsimp only
  repeat' first
    | with_reducible assumption
    | exact fun _ h1 h2 h3 => ⟨h1, h2, h3⟩
    | exact fun _ h1 => h1
    | (intro _; try dsimp only)
    | with_reducible apply sound_tick
    | with_reducible apply sound_modTamper
    | with_reducible apply sound_clearRoot
    | with_reducible apply sound_driveOut
    | with_reducible apply sound_ite
    | with_reducible apply sound_ite_fst
    | with_reducible apply sound_foldl
    | fail_if_no_progress (with_reducible (apply sound_upd; rotate_left; iterate 4 rfl))
    | with_reducible exact rising_nil
    | with_reducible apply Map.rising_insert
    | with_reducible apply Map.rising_erase
    | with_reducible apply Map.rising_modify
    | with_reducible apply Map.rising_filter
    | with_reducible apply Map.rising_mapVals
    | with_reducible apply rising_ite
    | (with_reducible apply And.intro <;> try dsimp only)
    | with_reducible refine sound_of_pair (by assumption) ?_
    | split

theorem sound_raise {s : State} {srcs} (h : s.Sound) :
    (State.raise s srcs).Sound := by
  unfold State.raise
  try dsimp only
  repeat' first
    | with_reducible assumption
    | exact fun _ h1 h2 h3 => ⟨h1, h2, h3⟩
    | exact fun _ h1 => h1
    | (intro _; try dsimp only)
    | with_reducible apply sound_battAlarm
    | with_reducible apply sound_alarm
    | with_reducible apply sound_ite
    | with_reducible apply sound_ite_fst
    | with_reducible apply sound_foldl
    | fail_if_no_progress (with_reducible (apply sound_upd; rotate_left; iterate 4 rfl))
    | with_reducible refine sound_of_pair (by assumption) ?_
    | split

theorem sound_sample {s : State} {key} {abnormal} (h : s.Sound) :
    (State.sample s key abnormal).Sound := by
  unfold State.sample
  try dsimp only
  repeat' first
    | with_reducible assumption
    | exact fun _ h1 h2 h3 => ⟨h1, h2, h3⟩
    | exact fun _ h1 => h1
    | (intro _; try dsimp only)
    | with_reducible apply sound_modTamper
    | with_reducible apply sound_ite
    | with_reducible apply sound_ite_fst
    | with_reducible apply sound_foldl
    | fail_if_no_progress (with_reducible (apply sound_upd; rotate_left; iterate 4 rfl))
    | with_reducible exact rising_nil
    | with_reducible apply Map.rising_insert
    | with_reducible apply Map.rising_erase
    | with_reducible apply Map.rising_modify
    | with_reducible apply Map.rising_filter
    | with_reducible apply Map.rising_mapVals
    | with_reducible apply rising_ite
    | (with_reducible apply And.intro <;> try dsimp only)
    | with_reducible refine sound_of_pair (by assumption) ?_
    | split

theorem sound_execTamperSampleTick {s : State} {switches} {loops} (h : s.Sound) :
    SoundResult (execTamperSampleTick switches loops s) := by
  unfold execTamperSampleTick
  try dsimp only
  apply sound_next
  repeat' first
    | with_reducible assumption
    | exact fun _ h1 h2 h3 => ⟨h1, h2, h3⟩
    | exact fun _ h1 => h1
    | (intro _; try dsimp only)
    | with_reducible apply sound_sample
    | with_reducible apply sound_modTamper
    | with_reducible apply sound_raise
    | with_reducible apply sound_ite
    | with_reducible apply sound_ite_fst
    | with_reducible apply sound_foldl
    | fail_if_no_progress (with_reducible (apply sound_upd; rotate_left; iterate 4 rfl))
    | with_reducible exact rising_nil
    | with_reducible apply Map.rising_insert
    | with_reducible apply Map.rising_erase
    | with_reducible apply Map.rising_modify
    | with_reducible apply Map.rising_filter
    | with_reducible apply Map.rising_mapVals
    | with_reducible apply rising_ite
    | (with_reducible apply And.intro <;> try dsimp only)
    | with_reducible refine sound_of_pair (by assumption) ?_
    | split

theorem sound_execLoopMismatch {s : State} {k} (h : s.Sound) :
    SoundResult (execLoopMismatch k s) := by
  unfold execLoopMismatch
  try dsimp only
  apply sound_next
  repeat' first
    | with_reducible assumption
    | exact fun _ h1 h2 h3 => ⟨h1, h2, h3⟩
    | exact fun _ h1 => h1
    | (intro _; try dsimp only)
    | with_reducible apply sound_raise
    | with_reducible apply sound_ite
    | with_reducible apply sound_ite_fst
    | with_reducible apply sound_foldl
    | fail_if_no_progress (with_reducible (apply sound_upd; rotate_left; iterate 4 rfl))
    | with_reducible refine sound_of_pair (by assumption) ?_
    | split

theorem sound_execVoltageTamper {s : State} {supply} (h : s.Sound) :
    SoundResult (execVoltageTamper supply s) := by
  unfold execVoltageTamper
  try dsimp only
  apply sound_next
  repeat' first
    | with_reducible assumption
    | exact fun _ h1 h2 h3 => ⟨h1, h2, h3⟩
    | exact fun _ h1 => h1
    | (intro _; try dsimp only)
    | with_reducible apply sound_raise
    | with_reducible apply sound_ite
    | with_reducible apply sound_ite_fst
    | with_reducible apply sound_foldl
    | fail_if_no_progress (with_reducible (apply sound_upd; rotate_left; iterate 4 rfl))
    | with_reducible refine sound_of_pair (by assumption) ?_
    | split

theorem sound_execTemperatureReading {s : State} {readings} (h : s.Sound) :
    SoundResult (execTemperatureReading readings s) := by
  unfold execTemperatureReading
  try dsimp only
  apply sound_next
  repeat' first
    | with_reducible assumption
    | exact fun _ h1 h2 h3 => ⟨h1, h2, h3⟩
    | exact fun _ h1 => h1
    | (intro _; try dsimp only)
    | with_reducible apply sound_modTamper
    | with_reducible apply sound_sample
    | with_reducible apply sound_event
    | with_reducible apply sound_raise
    | with_reducible apply sound_ite
    | with_reducible apply sound_ite_fst
    | with_reducible apply sound_foldl
    | fail_if_no_progress (with_reducible (apply sound_upd; rotate_left; iterate 4 rfl))
    | with_reducible exact rising_nil
    | with_reducible apply Map.rising_insert
    | with_reducible apply Map.rising_erase
    | with_reducible apply Map.rising_modify
    | with_reducible apply Map.rising_filter
    | with_reducible apply Map.rising_mapVals
    | with_reducible apply rising_ite
    | (with_reducible apply And.intro <;> try dsimp only)
    | with_reducible refine sound_of_pair (by assumption) ?_
    | split

theorem sound_execClockMonitorWindow {s : State} {clock} {abnormal} {stopped} (h : s.Sound) :
    SoundResult (execClockMonitorWindow clock abnormal stopped s) := by
  unfold execClockMonitorWindow
  try dsimp only
  apply sound_next
  repeat' first
    | with_reducible assumption
    | exact fun _ h1 h2 h3 => ⟨h1, h2, h3⟩
    | exact fun _ h1 => h1
    | (intro _; try dsimp only)
    | with_reducible apply sound_sample
    | with_reducible apply sound_modTamper
    | with_reducible apply sound_raise
    | with_reducible apply sound_ite
    | with_reducible apply sound_ite_fst
    | with_reducible apply sound_foldl
    | fail_if_no_progress (with_reducible (apply sound_upd; rotate_left; iterate 4 rfl))
    | with_reducible exact rising_nil
    | with_reducible apply Map.rising_insert
    | with_reducible apply Map.rising_erase
    | with_reducible apply Map.rising_modify
    | with_reducible apply Map.rising_filter
    | with_reducible apply Map.rising_mapVals
    | with_reducible apply rising_ite
    | (with_reducible apply And.intro <;> try dsimp only)
    | with_reducible refine sound_of_pair (by assumption) ?_
    | split

theorem sound_execOscillatorFallback {s : State} (h : s.Sound) :
    SoundResult (execOscillatorFallback s) := by
  unfold execOscillatorFallback
  try dsimp only
  apply sound_next
  repeat' first
    | with_reducible assumption
    | exact fun _ h1 h2 h3 => ⟨h1, h2, h3⟩
    | exact fun _ h1 => h1
    | (intro _; try dsimp only)
    | with_reducible apply sound_modTamper
    | with_reducible apply sound_ite
    | with_reducible apply sound_ite_fst
    | with_reducible apply sound_foldl
    | fail_if_no_progress (with_reducible (apply sound_upd; rotate_left; iterate 4 rfl))
    | with_reducible exact rising_nil
    | with_reducible apply Map.rising_insert
    | with_reducible apply Map.rising_erase
    | with_reducible apply Map.rising_modify
    | with_reducible apply Map.rising_filter
    | with_reducible apply Map.rising_mapVals
    | with_reducible apply rising_ite
    | (with_reducible apply And.intro <;> try dsimp only)
    | with_reducible refine sound_of_pair (by assumption) ?_
    | split

theorem sound_execTamperOutRelease {s : State} (h : s.Sound) :
    SoundResult (execTamperOutRelease s) := by
  unfold execTamperOutRelease
  try dsimp only
  apply sound_next
  repeat' first
    | with_reducible assumption
    | exact fun _ h1 h2 h3 => ⟨h1, h2, h3⟩
    | exact fun _ h1 => h1
    | (intro _; try dsimp only)
    | with_reducible apply sound_modTamper
    | with_reducible apply sound_ite
    | with_reducible apply sound_ite_fst
    | with_reducible apply sound_foldl
    | fail_if_no_progress (with_reducible (apply sound_upd; rotate_left; iterate 4 rfl))
    | with_reducible exact rising_nil
    | with_reducible apply Map.rising_insert
    | with_reducible apply Map.rising_erase
    | with_reducible apply Map.rising_modify
    | with_reducible apply Map.rising_filter
    | with_reducible apply Map.rising_mapVals
    | with_reducible apply rising_ite
    | (with_reducible apply And.intro <;> try dsimp only)
    | with_reducible refine sound_of_pair (by assumption) ?_
    | split

theorem sound_positionDone {s : State} {old} (h : s.Sound) :
    (State.positionDone s old).Sound := by
  unfold State.positionDone
  try dsimp only
  repeat' first
    | with_reducible assumption
    | exact fun _ h1 h2 h3 => ⟨h1, h2, h3⟩
    | exact fun _ h1 => h1
    | (intro _; try dsimp only)
    | with_reducible apply sound_log
    | with_reducible apply sound_event
    | with_reducible apply sound_ite
    | with_reducible apply sound_ite_fst
    | with_reducible apply sound_foldl
    | fail_if_no_progress (with_reducible (apply sound_upd; rotate_left; iterate 4 rfl))
    | with_reducible refine sound_of_pair (by assumption) ?_
    | split

theorem sound_increment {s : State} {ok} (h : s.Sound) :
    (State.increment s ok).Sound := by
  unfold State.increment
  try dsimp only
  repeat' first
    | with_reducible assumption
    | exact fun _ h1 h2 h3 => ⟨h1, h2, h3⟩
    | exact fun _ h1 => h1
    | (intro _; try dsimp only)
    | with_reducible apply sound_modTamper
    | with_reducible apply sound_positionDone
    | with_reducible apply sound_ite
    | with_reducible apply sound_ite_fst
    | with_reducible apply sound_foldl
    | fail_if_no_progress (with_reducible (apply sound_upd; rotate_left; iterate 4 rfl))
    | with_reducible exact rising_nil
    | with_reducible apply Map.rising_insert
    | with_reducible apply Map.rising_erase
    | with_reducible apply Map.rising_modify
    | with_reducible apply Map.rising_filter
    | with_reducible apply Map.rising_mapVals
    | with_reducible apply rising_ite
    | (with_reducible apply And.intro <;> try dsimp only)
    | with_reducible refine sound_of_pair (by assumption) ?_
    | split

theorem sound_saturate {s : State} {before} (h : s.Sound) :
    (State.saturate s before).Sound := by
  unfold State.saturate
  try dsimp only
  repeat' first
    | with_reducible assumption
    | exact fun _ h1 h2 h3 => ⟨h1, h2, h3⟩
    | exact fun _ h1 => h1
    | (intro _; try dsimp only)
    | with_reducible apply sound_lockResponse
    | with_reducible apply sound_event
    | with_reducible apply sound_ite
    | with_reducible apply sound_ite_fst
    | with_reducible apply sound_foldl
    | fail_if_no_progress (with_reducible (apply sound_upd; rotate_left; iterate 4 rfl))
    | with_reducible refine sound_of_pair (by assumption) ?_
    | split

theorem sound_execEvidenceIncrementDone {s : State} {readBackOk} (h : s.Sound) :
    SoundResult (execEvidenceIncrementDone readBackOk s) := by
  unfold execEvidenceIncrementDone
  try dsimp only
  apply sound_next
  repeat' first
    | with_reducible assumption
    | exact fun _ h1 h2 h3 => ⟨h1, h2, h3⟩
    | exact fun _ h1 => h1
    | (intro _; try dsimp only)
    | with_reducible apply sound_increment
    | with_reducible apply sound_modTamper
    | with_reducible apply sound_saturate
    | with_reducible apply sound_ite
    | with_reducible apply sound_ite_fst
    | with_reducible apply sound_foldl
    | fail_if_no_progress (with_reducible (apply sound_upd; rotate_left; iterate 4 rfl))
    | with_reducible exact rising_nil
    | with_reducible apply Map.rising_insert
    | with_reducible apply Map.rising_erase
    | with_reducible apply Map.rising_modify
    | with_reducible apply Map.rising_filter
    | with_reducible apply Map.rising_mapVals
    | with_reducible apply rising_ite
    | (with_reducible apply And.intro <;> try dsimp only)
    | with_reducible refine sound_of_pair (by assumption) ?_
    | split

theorem sound_tamperPair {s : State} {off} {v} (h : s.Sound) :
    (tamperPair off v s).1.Sound := by
  unfold tamperPair
  try dsimp only
  repeat' first
    | with_reducible assumption
    | exact fun _ h1 h2 h3 => ⟨h1, h2, h3⟩
    | exact fun _ h1 => h1
    | (intro _; try dsimp only)
    | with_reducible apply sound_setTamper
    | with_reducible apply sound_ite
    | with_reducible apply sound_ite_fst
    | with_reducible apply sound_foldl
    | fail_if_no_progress (with_reducible (apply sound_upd; rotate_left; iterate 4 rfl))
    | with_reducible refine sound_of_pair (by assumption) ?_
    | split

theorem sound_execTmpCfgs {s : State} {r} {off} {complement} (h : s.Sound) :
    SoundResult (execTmpCfgs r off complement s) := by
  unfold execTmpCfgs
  try dsimp only
  apply sound_next
  repeat' first
    | with_reducible assumption
    | exact fun _ h1 h2 h3 => ⟨h1, h2, h3⟩
    | exact fun _ h1 => h1
    | (intro _; try dsimp only)
    | with_reducible apply sound_guardPair
    | with_reducible apply sound_tamperPair
    | with_reducible apply sound_ite
    | with_reducible apply sound_ite_fst
    | with_reducible apply sound_foldl
    | fail_if_no_progress (with_reducible (apply sound_upd; rotate_left; iterate 4 rfl))
    | with_reducible refine sound_of_pair (by assumption) ?_
    | split

theorem sound_tamperArm {s : State} {v} {off} {value} (h : s.Sound) :
    (State.tamperArm s v off value).1.Sound := by
  unfold State.tamperArm
  try dsimp only
  repeat' first
    | with_reducible assumption
    | exact fun _ h1 h2 h3 => ⟨h1, h2, h3⟩
    | exact fun _ h1 => h1
    | (intro _; try dsimp only)
    | with_reducible apply sound_arm
    | with_reducible apply sound_tamperPair
    | with_reducible apply sound_ite
    | with_reducible apply sound_ite_fst
    | with_reducible apply sound_foldl
    | fail_if_no_progress (with_reducible (apply sound_upd; rotate_left; iterate 4 rfl))
    | with_reducible refine sound_of_pair (by assumption) ?_
    | split

theorem sound_execLockStatus {s : State} {v} (h : s.Sound) :
    SoundResult (execLockStatus v s) := by
  unfold execLockStatus
  try dsimp only
  apply sound_next
  repeat' first
    | with_reducible assumption
    | exact fun _ h1 h2 h3 => ⟨h1, h2, h3⟩
    | exact fun _ h1 => h1
    | (intro _; try dsimp only)
    | with_reducible apply sound_send
    | with_reducible apply sound_ite
    | with_reducible apply sound_ite_fst
    | with_reducible apply sound_foldl
    | fail_if_no_progress (with_reducible (apply sound_upd; rotate_left; iterate 4 rfl))
    | with_reducible refine sound_of_pair (by assumption) ?_
    | split

theorem sound_execUnlock {s : State} {v} {request} (h : s.Sound) :
    SoundResult (execUnlock v request s) := by
  unfold execUnlock
  try dsimp only
  apply sound_next
  repeat' first
    | with_reducible assumption
    | exact fun _ h1 h2 h3 => ⟨h1, h2, h3⟩
    | exact fun _ h1 => h1
    | (intro _; try dsimp only)
    | with_reducible apply sound_send
    | with_reducible apply sound_log
    | with_reducible apply sound_modTamper
    | with_reducible apply sound_innerReset
    | with_reducible apply sound_ite
    | with_reducible apply sound_ite_fst
    | with_reducible apply sound_foldl
    | fail_if_no_progress (with_reducible (apply sound_upd; rotate_left; iterate 4 rfl))
    | with_reducible exact rising_nil
    | with_reducible apply Map.rising_insert
    | with_reducible apply Map.rising_erase
    | with_reducible apply Map.rising_modify
    | with_reducible apply Map.rising_filter
    | with_reducible apply Map.rising_mapVals
    | with_reducible apply rising_ite
    | (with_reducible apply And.intro <;> try dsimp only)
    | with_reducible refine sound_of_pair (by assumption) ?_
    | split

theorem sound_transferLatch {s : State} {bad} (h : s.Sound) :
    (State.transferLatch s bad).Sound := by
  unfold State.transferLatch
  try dsimp only
  repeat' first
    | with_reducible assumption
    | exact fun _ h1 h2 h3 => ⟨h1, h2, h3⟩
    | exact fun _ h1 => h1
    | (intro _; try dsimp only)
    | with_reducible apply sound_increment
    | with_reducible apply sound_modTamper
    | with_reducible apply sound_logTamper
    | with_reducible apply sound_logFree
    | with_reducible apply sound_event
    | with_reducible apply sound_ite
    | with_reducible apply sound_ite_fst
    | with_reducible apply sound_foldl
    | fail_if_no_progress (with_reducible (apply sound_upd; rotate_left; iterate 4 rfl))
    | with_reducible exact rising_nil
    | with_reducible apply Map.rising_insert
    | with_reducible apply Map.rising_erase
    | with_reducible apply Map.rising_modify
    | with_reducible apply Map.rising_filter
    | with_reducible apply Map.rising_mapVals
    | with_reducible apply rising_ite
    | (with_reducible apply And.intro <;> try dsimp only)
    | with_reducible refine sound_of_pair (by assumption) ?_
    | split

theorem sound_execDieLinkIntegrityEvent {s : State} (h : s.Sound) :
    SoundResult (execDieLinkIntegrityEvent s) := by
  unfold execDieLinkIntegrityEvent
  try dsimp only
  apply sound_next
  repeat' first
    | with_reducible assumption
    | exact fun _ h1 h2 h3 => ⟨h1, h2, h3⟩
    | exact fun _ h1 => h1
    | (intro _; try dsimp only)
    | with_reducible apply sound_glbEvent
    | with_reducible apply sound_abortJob
    | with_reducible apply sound_digStop
    | with_reducible apply sound_logHealth
    | with_reducible apply sound_modTamper
    | with_reducible apply sound_raise
    | with_reducible apply sound_ite
    | with_reducible apply sound_ite_fst
    | with_reducible apply sound_foldl
    | fail_if_no_progress (with_reducible (apply sound_upd; rotate_left; iterate 4 rfl))
    | with_reducible exact rising_nil
    | with_reducible apply Map.rising_insert
    | with_reducible apply Map.rising_erase
    | with_reducible apply Map.rising_modify
    | with_reducible apply Map.rising_filter
    | with_reducible apply Map.rising_mapVals
    | with_reducible apply rising_ite
    | (with_reducible apply And.intro <;> try dsimp only)
    | with_reducible refine sound_of_pair (by assumption) ?_
    | split

theorem sound_logStart {s : State} (h : s.Sound) :
    (State.logStart s).Sound := by
  unfold State.logStart
  try dsimp only
  repeat' first
    | with_reducible assumption
    | exact fun _ h1 h2 h3 => ⟨h1, h2, h3⟩
    | exact fun _ h1 => h1
    | (intro _; try dsimp only)
    | with_reducible apply sound_log
    | with_reducible apply sound_ite
    | with_reducible apply sound_ite_fst
    | with_reducible apply sound_foldl
    | fail_if_no_progress (with_reducible (apply sound_upd; rotate_left; iterate 4 rfl))
    | with_reducible refine sound_of_pair (by assumption) ?_
    | split

theorem sound_enterFallow {s : State} {why} (h : s.Sound) :
    (State.enterFallow s why).Sound := by
  unfold State.enterFallow
  try dsimp only
  repeat' first
    | with_reducible assumption
    | exact fun _ h1 h2 h3 => ⟨h1, h2, h3⟩
    | exact fun _ h1 => h1
    | (intro _; try dsimp only)
    | with_reducible apply sound_modPower
    | with_reducible apply sound_modGlb
    | with_reducible apply sound_modBoot
    | with_reducible apply sound_logStart
    | with_reducible apply sound_logFlush
    | with_reducible apply sound_ite
    | with_reducible apply sound_ite_fst
    | with_reducible apply sound_foldl
    | fail_if_no_progress (with_reducible (apply sound_upd; rotate_left; iterate 4 rfl))
    | with_reducible refine sound_of_pair (by assumption) ?_
    | split

theorem sound_startLocked {s : State} (h : s.Sound) :
    (State.startLocked s).Sound := by
  unfold State.startLocked
  try dsimp only
  repeat' first
    | with_reducible assumption
    | exact fun _ h1 h2 h3 => ⟨h1, h2, h3⟩
    | exact fun _ h1 => h1
    | (intro _; try dsimp only)
    | with_reducible apply sound_logFlush
    | with_reducible apply sound_becomeLocked
    | with_reducible apply sound_enterLockService
    | with_reducible apply sound_ite
    | with_reducible apply sound_ite_fst
    | with_reducible apply sound_foldl
    | fail_if_no_progress (with_reducible (apply sound_upd; rotate_left; iterate 4 rfl))
    | with_reducible refine sound_of_pair (by assumption) ?_
    | split

theorem sound_resealOne {s : State} {i} (h : s.Sound) :
    (State.resealOne s i).Sound := by
  unfold State.resealOne
  try dsimp only
  repeat' first
    | with_reducible assumption
    | exact fun _ h1 h2 h3 => ⟨h1, h2, h3⟩
    | exact fun _ h1 => h1
    | (intro _; try dsimp only)
    | with_reducible apply sound_modRegion
    | with_reducible apply sound_ite
    | with_reducible apply sound_ite_fst
    | with_reducible apply sound_foldl
    | fail_if_no_progress (with_reducible (apply sound_upd; rotate_left; iterate 4 rfl))
    | with_reducible refine sound_of_pair (by assumption) ?_
    | split

theorem sound_resealPass {s : State} (h : s.Sound) :
    (State.resealPass s).Sound := by
  unfold State.resealPass
  try dsimp only
  repeat' first
    | with_reducible assumption
    | exact fun _ h1 h2 h3 => ⟨h1, h2, h3⟩
    | exact fun _ h1 => h1
    | (intro _; try dsimp only)
    | with_reducible apply sound_event
    | with_reducible apply sound_modBoot
    | with_reducible apply sound_resealOne
    | with_reducible apply sound_ite
    | with_reducible apply sound_ite_fst
    | with_reducible apply sound_foldl
    | fail_if_no_progress (with_reducible (apply sound_upd; rotate_left; iterate 4 rfl))
    | with_reducible refine sound_of_pair (by assumption) ?_
    | split

theorem sound_runSlot {s : State} {i} (h : s.Sound) :
    (State.runSlot s i).Sound := by
  unfold State.runSlot
  try dsimp only
  repeat' first
    | with_reducible assumption
    | exact fun _ h1 h2 h3 => ⟨h1, h2, h3⟩
    | exact fun _ h1 => h1
    | (intro _; try dsimp only)
    | with_reducible apply sound_modBoot
    | with_reducible apply sound_ite
    | with_reducible apply sound_ite_fst
    | with_reducible apply sound_foldl
    | fail_if_no_progress (with_reducible (apply sound_upd; rotate_left; iterate 4 rfl))
    | with_reducible refine sound_of_pair (by assumption) ?_
    | split

theorem sound_decideStart {s : State} (h : s.Sound) :
    (State.decideStart s).Sound := by
  unfold State.decideStart
  try dsimp only
  repeat' first
    | with_reducible assumption
    | exact fun _ h1 h2 h3 => ⟨h1, h2, h3⟩
    | exact fun _ h1 => h1
    | (intro _; try dsimp only)
    | with_reducible apply sound_logFree
    | with_reducible apply sound_enterFallow
    | with_reducible apply sound_modBoot
    | with_reducible apply sound_logStart
    | with_reducible apply sound_modPower
    | with_reducible apply sound_runSlot
    | with_reducible apply sound_ite
    | with_reducible apply sound_ite_fst
    | with_reducible apply sound_foldl
    | fail_if_no_progress (with_reducible (apply sound_upd; rotate_left; iterate 4 rfl))
    | with_reducible refine sound_of_pair (by assumption) ?_
    | split

theorem sound_continueStart {s : State} (h : s.Sound) :
    (State.continueStart s).Sound := by
  unfold State.continueStart
  try dsimp only
  repeat' first
    | with_reducible assumption
    | exact fun _ h1 h2 h3 => ⟨h1, h2, h3⟩
    | exact fun _ h1 => h1
    | (intro _; try dsimp only)
    | with_reducible apply sound_startLocked
    | with_reducible apply sound_decideStart
    | with_reducible apply sound_resealPass
    | with_reducible apply sound_ite
    | with_reducible apply sound_ite_fst
    | with_reducible apply sound_foldl
    | fail_if_no_progress (with_reducible (apply sound_upd; rotate_left; iterate 4 rfl))
    | with_reducible refine sound_of_pair (by assumption) ?_
    | split

theorem sound_checkRoot {s : State} (h : s.Sound) :
    (State.checkRoot s).Sound := by
  unfold State.checkRoot
  try dsimp only
  repeat' first
    | with_reducible assumption
    | exact fun _ h1 h2 h3 => ⟨h1, h2, h3⟩
    | exact fun _ h1 => h1
    | (intro _; try dsimp only)
    | with_reducible apply sound_modPower
    | with_reducible apply sound_continueStart
    | with_reducible apply sound_ite
    | with_reducible apply sound_ite_fst
    | with_reducible apply sound_foldl
    | fail_if_no_progress (with_reducible (apply sound_upd; rotate_left; iterate 4 rfl))
    | with_reducible refine sound_of_pair (by assumption) ?_
    | split

theorem sound_dispatchStart {s : State} (h : s.Sound) :
    (State.dispatchStart s).Sound := by
  unfold State.dispatchStart
  try dsimp only
  repeat' first
    | with_reducible assumption
    | exact fun _ h1 h2 h3 => ⟨h1, h2, h3⟩
    | exact fun _ h1 => h1
    | (intro _; try dsimp only)
    | with_reducible apply sound_modPower
    | with_reducible apply sound_checkRoot
    | with_reducible apply sound_ite
    | with_reducible apply sound_ite_fst
    | with_reducible apply sound_foldl
    | fail_if_no_progress (with_reducible (apply sound_upd; rotate_left; iterate 4 rfl))
    | with_reducible refine sound_of_pair (by assumption) ?_
    | split

theorem sound_scanLog {s : State} {torn} (h : s.Sound) :
    (State.scanLog s torn).Sound := by
  unfold State.scanLog
  try dsimp only
  repeat' first
    | with_reducible assumption
    | exact fun _ h1 h2 h3 => ⟨h1, h2, h3⟩
    | exact fun _ h1 => h1
    | (intro _; try dsimp only)
    | with_reducible apply sound_event
    | with_reducible apply sound_log
    | with_reducible apply sound_ite
    | with_reducible apply sound_ite_fst
    | with_reducible apply sound_foldl
    | fail_if_no_progress (with_reducible (apply sound_upd; rotate_left; iterate 4 rfl))
    | with_reducible refine sound_of_pair (by assumption) ?_
    | split

theorem sound_lifeDuties {s : State} {cut} (h : s.Sound) :
    (State.lifeDuties s cut).Sound := by
  unfold State.lifeDuties
  try dsimp only
  repeat' first
    | with_reducible assumption
    | exact fun _ h1 h2 h3 => ⟨h1, h2, h3⟩
    | exact fun _ h1 => h1
    | (intro _; try dsimp only)
    | with_reducible apply sound_modLife
    | with_reducible apply sound_event
    | with_reducible apply sound_lcWipe
    | with_reducible apply sound_transition
    | with_reducible apply sound_ite
    | with_reducible apply sound_ite_fst
    | with_reducible apply sound_foldl
    | fail_if_no_progress (with_reducible (apply sound_upd; rotate_left; iterate 4 rfl))
    | with_reducible refine sound_of_pair (by assumption) ?_
    | split

theorem sound_execFullResetStart {s : State} {torn} {condKat} {cut} {bad} (h : s.Sound) :
    SoundResult (execFullResetStart torn condKat cut bad s) := by
  unfold execFullResetStart
  try dsimp only
  apply sound_next
  repeat' first
    | with_reducible assumption
    | exact fun _ h1 h2 h3 => ⟨h1, h2, h3⟩
    | exact fun _ h1 => h1
    | (intro _; try dsimp only)
    | with_reducible apply sound_rngFail
    | with_reducible apply sound_scanLog
    | with_reducible apply sound_modPower
    | with_reducible apply sound_log
    | with_reducible apply sound_lifeDuties
    | with_reducible apply sound_transferLatch
    | with_reducible apply sound_modLife
    | with_reducible apply sound_modTamper
    | with_reducible apply sound_event
    | with_reducible apply sound_dispatchStart
    | with_reducible apply sound_ite
    | with_reducible apply sound_ite_fst
    | with_reducible apply sound_foldl
    | fail_if_no_progress (with_reducible (apply sound_upd; rotate_left; iterate 4 rfl))
    | with_reducible exact rising_nil
    | with_reducible apply Map.rising_insert
    | with_reducible apply Map.rising_erase
    | with_reducible apply Map.rising_modify
    | with_reducible apply Map.rising_filter
    | with_reducible apply Map.rising_mapVals
    | with_reducible apply rising_ite
    | (with_reducible apply And.intro <;> try dsimp only)
    | with_reducible refine sound_of_pair (by assumption) ?_
    | split

theorem sound_execRootSecretRenewal {s : State} (h : s.Sound) :
    SoundResult (execRootSecretRenewal s) := by
  unfold execRootSecretRenewal
  try dsimp only
  apply sound_next
  repeat' first
    | with_reducible assumption
    | exact fun _ h1 h2 h3 => ⟨h1, h2, h3⟩
    | exact fun _ h1 => h1
    | (intro _; try dsimp only)
    | with_reducible apply sound_modVault
    | with_reducible apply sound_newRoot
    | with_reducible apply sound_log
    | with_reducible apply sound_event
    | with_reducible apply sound_continueStart
    | with_reducible apply sound_modBoot
    | with_reducible apply sound_ite
    | with_reducible apply sound_ite_fst
    | with_reducible apply sound_foldl
    | fail_if_no_progress (with_reducible (apply sound_upd; rotate_left; iterate 4 rfl))
    | with_reducible exact rising_nil
    | with_reducible apply Map.rising_insert
    | with_reducible apply Map.rising_erase
    | with_reducible apply Map.rising_modify
    | with_reducible apply Map.rising_filter
    | with_reducible apply Map.rising_mapVals
    | with_reducible apply rising_ite
    | (with_reducible apply And.intro <;> try dsimp only)
    | with_reducible refine sound_of_pair (by assumption) ?_
    | split

theorem sound_execSealCheckStart {s : State} (h : s.Sound) :
    SoundResult (execSealCheckStart s) := by
  unfold execSealCheckStart
  try dsimp only
  apply sound_next
  repeat' first
    | with_reducible assumption
    | exact fun _ h1 h2 h3 => ⟨h1, h2, h3⟩
    | exact fun _ h1 => h1
    | (intro _; try dsimp only)
    | with_reducible apply sound_modPower
    | with_reducible apply sound_takeSeed
    | with_reducible apply sound_ite
    | with_reducible apply sound_ite_fst
    | with_reducible apply sound_foldl
    | fail_if_no_progress (with_reducible (apply sound_upd; rotate_left; iterate 4 rfl))
    | with_reducible refine sound_of_pair (by assumption) ?_
    | split

theorem sound_assignSlots {s : State} {t} (h : s.Sound) :
    (State.assignSlots s t).Sound := by
  unfold State.assignSlots
  try dsimp only
  repeat' first
    | with_reducible assumption
    | exact fun _ h1 h2 h3 => ⟨h1, h2, h3⟩
    | exact fun _ h1 => h1
    | (intro _; try dsimp only)
    | with_reducible apply sound_modSlot
    | with_reducible apply sound_ite
    | with_reducible apply sound_ite_fst
    | with_reducible apply sound_foldl
    | fail_if_no_progress (with_reducible (apply sound_upd; rotate_left; iterate 4 rfl))
    | with_reducible refine sound_of_pair (by assumption) ?_
    | split

theorem sound_ownedSlots {s : State} (h : s.Sound) :
    (State.ownedSlots s).Sound := by
  unfold State.ownedSlots
  try dsimp only
  repeat' first
    | with_reducible assumption
    | exact fun _ h1 h2 h3 => ⟨h1, h2, h3⟩
    | exact fun _ h1 => h1
    | (intro _; try dsimp only)
    | with_reducible apply sound_modSlot
    | with_reducible apply sound_ite
    | with_reducible apply sound_ite_fst
    | with_reducible apply sound_foldl
    | fail_if_no_progress (with_reducible (apply sound_upd; rotate_left; iterate 4 rfl))
    | with_reducible refine sound_of_pair (by assumption) ?_
    | split

theorem sound_applyTamper {s : State} {t} (h : s.Sound) :
    (State.applyTamper s t).Sound := by
  unfold State.applyTamper
  try dsimp only
  repeat' first
    | with_reducible assumption
    | exact fun _ h1 h2 h3 => ⟨h1, h2, h3⟩
    | exact fun _ h1 => h1
    | (intro _; try dsimp only)
    | with_reducible apply sound_setTamper
    | with_reducible apply sound_modTamper
    | with_reducible apply sound_ite
    | with_reducible apply sound_ite_fst
    | with_reducible apply sound_foldl
    | fail_if_no_progress (with_reducible (apply sound_upd; rotate_left; iterate 4 rfl))
    | with_reducible exact rising_nil
    | with_reducible apply Map.rising_insert
    | with_reducible apply Map.rising_erase
    | with_reducible apply Map.rising_modify
    | with_reducible apply Map.rising_filter
    | with_reducible apply Map.rising_mapVals
    | with_reducible apply rising_ite
    | (with_reducible apply And.intro <;> try dsimp only)
    | with_reducible refine sound_of_pair (by assumption) ?_
    | split

theorem sound_applyGuard {s : State} {t} (h : s.Sound) :
    (State.applyGuard s t).Sound := by
  unfold State.applyGuard
  try dsimp only
  repeat' first
    | with_reducible assumption
    | exact fun _ h1 h2 h3 => ⟨h1, h2, h3⟩
    | exact fun _ h1 => h1
    | (intro _; try dsimp only)
    | with_reducible apply sound_modPgd
    | with_reducible apply sound_ite
    | with_reducible apply sound_ite_fst
    | with_reducible apply sound_foldl
    | fail_if_no_progress (with_reducible (apply sound_upd; rotate_left; iterate 4 rfl))
    | with_reducible refine sound_of_pair (by assumption) ?_
    | split

theorem sound_applyTilth {s : State} {i} {t} (h : s.Sound) :
    (State.applyTilth s i t).Sound := by
  unfold State.applyTilth
  try dsimp only
  repeat' first
    | with_reducible assumption
    | exact fun _ h1 h2 h3 => ⟨h1, h2, h3⟩
    | exact fun _ h1 => h1
    | (intro _; try dsimp only)
    | with_reducible apply sound_modBoot
    | with_reducible apply sound_modTenant
    | with_reducible apply sound_applyGuard
    | with_reducible apply sound_applyTamper
    | with_reducible apply sound_assignSlots
    | with_reducible apply sound_ownedSlots
    | with_reducible apply sound_ite
    | with_reducible apply sound_ite_fst
    | with_reducible apply sound_foldl
    | fail_if_no_progress (with_reducible (apply sound_upd; rotate_left; iterate 4 rfl))
    | with_reducible refine sound_of_pair (by assumption) ?_
    | split

theorem sound_readTilthCopies {s : State} (h : s.Sound) :
    (State.readTilthCopies s).Sound := by
  unfold State.readTilthCopies
  try dsimp only
  repeat' first
    | with_reducible assumption
    | exact fun _ h1 h2 h3 => ⟨h1, h2, h3⟩
    | exact fun _ h1 => h1
    | (intro _; try dsimp only)
    | with_reducible apply sound_event
    | with_reducible apply sound_applyTilth
    | with_reducible apply sound_ite
    | with_reducible apply sound_ite_fst
    | with_reducible apply sound_foldl
    | fail_if_no_progress (with_reducible (apply sound_upd; rotate_left; iterate 4 rfl))
    | with_reducible refine sound_of_pair (by assumption) ?_
    | split

theorem sound_execSealCheckDone {s : State} (h : s.Sound) :
    SoundResult (execSealCheckDone s) := by
  unfold execSealCheckDone
  try dsimp only
  apply sound_next
  repeat' first
    | with_reducible assumption
    | exact fun _ h1 h2 h3 => ⟨h1, h2, h3⟩
    | exact fun _ h1 => h1
    | (intro _; try dsimp only)
    | with_reducible apply sound_modRegion
    | with_reducible apply sound_event
    | with_reducible apply sound_innerReset
    | with_reducible apply sound_modBoot
    | with_reducible apply sound_modPower
    | with_reducible apply sound_newAlias
    | with_reducible apply sound_readTilthCopies
    | with_reducible apply sound_logFlush
    | with_reducible apply sound_ite
    | with_reducible apply sound_ite_fst
    | with_reducible apply sound_foldl
    | fail_if_no_progress (with_reducible (apply sound_upd; rotate_left; iterate 4 rfl))
    | with_reducible refine sound_of_pair (by assumption) ?_
    | split

theorem sound_drawKeys {s : State} (h : s.Sound) :
    (State.drawKeys s).Sound := by
  unfold State.drawKeys
  try dsimp only
  repeat' first
    | with_reducible assumption
    | exact fun _ h1 h2 h3 => ⟨h1, h2, h3⟩
    | exact fun _ h1 => h1
    | (intro _; try dsimp only)
    | with_reducible apply sound_takeSeed
    | with_reducible apply sound_modVault
    | with_reducible apply sound_ite
    | with_reducible apply sound_ite_fst
    | with_reducible apply sound_foldl
    | fail_if_no_progress (with_reducible (apply sound_upd; rotate_left; iterate 4 rfl))
    | with_reducible exact rising_nil
    | with_reducible apply Map.rising_insert
    | with_reducible apply Map.rising_erase
    | with_reducible apply Map.rising_modify
    | with_reducible apply Map.rising_filter
    | with_reducible apply Map.rising_mapVals
    | with_reducible apply rising_ite
    | (with_reducible apply And.intro <;> try dsimp only)
    | with_reducible refine sound_of_pair (by assumption) ?_
    | split

theorem sound_releaseUnits {s : State} (h : s.Sound) :
    (State.releaseUnits s).Sound := by
  unfold State.releaseUnits
  try dsimp only
  repeat' first
    | with_reducible assumption
    | exact fun _ h1 h2 h3 => ⟨h1, h2, h3⟩
    | exact fun _ h1 => h1
    | (intro _; try dsimp only)
    | with_reducible apply sound_modBed
    | with_reducible apply sound_modQuad
    | with_reducible apply sound_modRng
    | with_reducible apply sound_logUnstaged
    | with_reducible apply sound_serve
    | with_reducible apply sound_ite
    | with_reducible apply sound_ite_fst
    | with_reducible apply sound_foldl
    | fail_if_no_progress (with_reducible (apply sound_upd; rotate_left; iterate 4 rfl))
    | ((with_reducible (apply sound_upd_grains; rotate_left)); exact Map.rising_ofList (k := id) (List.pairwise_lt_range.filter _))
    | with_reducible refine sound_of_pair (by assumption) ?_
    | split

theorem sound_execTopsoilPowerUp {s : State} {supplies} {refclk0} (h : s.Sound) :
    SoundResult (execTopsoilPowerUp supplies refclk0 s) := by
  unfold execTopsoilPowerUp
  try dsimp only
  apply sound_next
  repeat' first
    | with_reducible assumption
    | exact fun _ h1 h2 h3 => ⟨h1, h2, h3⟩
    | exact fun _ h1 => h1
    | (intro _; try dsimp only)
    | with_reducible apply sound_modPower
    | with_reducible apply sound_drawKeys
    | with_reducible apply sound_modGlb
    | with_reducible apply sound_modVault
    | with_reducible apply sound_releaseUnits
    | with_reducible apply sound_ite
    | with_reducible apply sound_ite_fst
    | with_reducible apply sound_foldl
    | fail_if_no_progress (with_reducible (apply sound_upd; rotate_left; iterate 4 rfl))
    | with_reducible exact rising_nil
    | with_reducible apply Map.rising_insert
    | with_reducible apply Map.rising_erase
    | with_reducible apply Map.rising_modify
    | with_reducible apply Map.rising_filter
    | with_reducible apply Map.rising_mapVals
    | with_reducible apply rising_ite
    | (with_reducible apply And.intro <;> try dsimp only)
    | with_reducible refine sound_of_pair (by assumption) ?_
    | split

theorem sound_execStartOk {s : State} (h : s.Sound) :
    SoundResult (execStartOk s) := by
  unfold execStartOk
  try dsimp only
  apply sound_next
  repeat' first
    | with_reducible assumption
    | exact fun _ h1 h2 h3 => ⟨h1, h2, h3⟩
    | exact fun _ h1 => h1
    | (intro _; try dsimp only)
    | with_reducible apply sound_modGlb
    | with_reducible apply sound_modBoot
    | with_reducible apply sound_event
    | with_reducible apply sound_ite
    | with_reducible apply sound_ite_fst
    | with_reducible apply sound_foldl
    | fail_if_no_progress (with_reducible (apply sound_upd; rotate_left; iterate 4 rfl))
    | with_reducible refine sound_of_pair (by assumption) ?_
    | split

theorem sound_imageBegin {s : State} {target} {len} (h : s.Sound) :
    (State.imageBegin s target len).1.Sound := by
  unfold State.imageBegin
  try dsimp only
  repeat' first
    | with_reducible assumption
    | exact fun _ h1 h2 h3 => ⟨h1, h2, h3⟩
    | exact fun _ h1 => h1
    | (intro _; try dsimp only)
    | with_reducible apply sound_modRegion
    | with_reducible apply sound_modBoot
    | with_reducible apply sound_ite
    | with_reducible apply sound_ite_fst
    | with_reducible apply sound_foldl
    | fail_if_no_progress (with_reducible (apply sound_upd; rotate_left; iterate 4 rfl))
    | with_reducible refine sound_of_pair (by assumption) ?_
    | split

theorem sound_imageData {s : State} {off} {bytes} (h : s.Sound) :
    (State.imageData s off bytes).1.Sound := by
  unfold State.imageData
  try dsimp only
  repeat' first
    | with_reducible assumption
    | exact fun _ h1 h2 h3 => ⟨h1, h2, h3⟩
    | exact fun _ h1 => h1
    | (intro _; try dsimp only)
    | with_reducible apply sound_modRegion
    | with_reducible apply sound_ite
    | with_reducible apply sound_ite_fst
    | with_reducible apply sound_foldl
    | fail_if_no_progress (with_reducible (apply sound_upd; rotate_left; iterate 4 rfl))
    | with_reducible refine sound_of_pair (by assumption) ?_
    | split

theorem sound_imageCommit {s : State} (h : s.Sound) :
    (State.imageCommit s).1.Sound := by
  unfold State.imageCommit
  try dsimp only
  repeat' first
    | with_reducible assumption
    | exact fun _ h1 h2 h3 => ⟨h1, h2, h3⟩
    | exact fun _ h1 => h1
    | (intro _; try dsimp only)
    | with_reducible apply sound_tick
    | with_reducible apply sound_modRegion
    | with_reducible apply sound_modBoot
    | with_reducible apply sound_event
    | with_reducible apply sound_ite
    | with_reducible apply sound_ite_fst
    | with_reducible apply sound_foldl
    | fail_if_no_progress (with_reducible (apply sound_upd; rotate_left; iterate 4 rfl))
    | with_reducible refine sound_of_pair (by assumption) ?_
    | split

theorem sound_imageActivate {s : State} {primary} {raiseSvn} (h : s.Sound) :
    (State.imageActivate s primary raiseSvn).1.Sound := by
  unfold State.imageActivate
  try dsimp only
  repeat' first
    | with_reducible assumption
    | exact fun _ h1 h2 h3 => ⟨h1, h2, h3⟩
    | exact fun _ h1 => h1
    | (intro _; try dsimp only)
    | with_reducible apply sound_modBoot
    | with_reducible apply sound_ite
    | with_reducible apply sound_ite_fst
    | with_reducible apply sound_foldl
    | fail_if_no_progress (with_reducible (apply sound_upd; rotate_left; iterate 4 rfl))
    | with_reducible refine sound_of_pair (by assumption) ?_
    | split

theorem sound_dropSigned {s : State} {k} (h : s.Sound) :
    (State.dropSigned s k).Sound := by
  unfold State.dropSigned
  try dsimp only
  repeat' first
    | with_reducible assumption
    | exact fun _ h1 h2 h3 => ⟨h1, h2, h3⟩
    | exact fun _ h1 => h1
    | (intro _; try dsimp only)
    | with_reducible apply sound_modRegion
    | with_reducible apply sound_ite
    | with_reducible apply sound_ite_fst
    | with_reducible apply sound_foldl
    | fail_if_no_progress (with_reducible (apply sound_upd; rotate_left; iterate 4 rfl))
    | with_reducible refine sound_of_pair (by assumption) ?_
    | split

theorem sound_revokePair {s : State} {_off} {v} (h : s.Sound) :
    (revokePair _off v s).1.Sound := by
  unfold revokePair
  try dsimp only
  repeat' first
    | with_reducible assumption
    | exact fun _ h1 h2 h3 => ⟨h1, h2, h3⟩
    | exact fun _ h1 => h1
    | (intro _; try dsimp only)
    | with_reducible apply sound_modBoot
    | with_reducible apply sound_event
    | with_reducible apply sound_dropSigned
    | with_reducible apply sound_ite
    | with_reducible apply sound_ite_fst
    | with_reducible apply sound_foldl
    | fail_if_no_progress (with_reducible (apply sound_upd; rotate_left; iterate 4 rfl))
    | with_reducible refine sound_of_pair (by assumption) ?_
    | split

theorem sound_execBootRevoke {s : State} {r} {off} {complement} (h : s.Sound) :
    SoundResult (execBootRevoke r off complement s) := by
  unfold execBootRevoke
  try dsimp only
  apply sound_next
  repeat' first
    | with_reducible assumption
    | exact fun _ h1 h2 h3 => ⟨h1, h2, h3⟩
    | exact fun _ h1 => h1
    | (intro _; try dsimp only)
    | with_reducible apply sound_guardPair
    | with_reducible apply sound_revokePair
    | with_reducible apply sound_ite
    | with_reducible apply sound_ite_fst
    | with_reducible apply sound_foldl
    | fail_if_no_progress (with_reducible (apply sound_upd; rotate_left; iterate 4 rfl))
    | with_reducible refine sound_of_pair (by assumption) ?_
    | split

theorem sound_revokeArm {s : State} {v} {entry} {value} (h : s.Sound) :
    (State.revokeArm s v entry value).1.Sound := by
  unfold State.revokeArm
  try dsimp only
  repeat' first
    | with_reducible assumption
    | exact fun _ h1 h2 h3 => ⟨h1, h2, h3⟩
    | exact fun _ h1 => h1
    | (intro _; try dsimp only)
    | with_reducible apply sound_arm
    | with_reducible apply sound_revokePair
    | with_reducible apply sound_ite
    | with_reducible apply sound_ite_fst
    | with_reducible apply sound_foldl
    | fail_if_no_progress (with_reducible (apply sound_upd; rotate_left; iterate 4 rfl))
    | with_reducible refine sound_of_pair (by assumption) ?_
    | split

theorem sound_execVntts {s : State} {g} {o} {layer} {trouble} (h : s.Sound) :
    SoundResult (execVntts g o layer trouble s) := by
  unfold execVntts
  try dsimp only
  apply sound_next
  repeat' first
    | with_reducible assumption
    | exact fun _ h1 h2 h3 => ⟨h1, h2, h3⟩
    | exact fun _ h1 => h1
    | (intro _; try dsimp only)
    | with_reducible apply sound_runGrain
    | with_reducible apply sound_ite
    | with_reducible apply sound_ite_fst
    | with_reducible apply sound_foldl
    | fail_if_no_progress (with_reducible (apply sound_upd; rotate_left; iterate 4 rfl))
    | with_reducible refine sound_of_pair (by assumption) ?_
    | split

theorem sound_execVintts {s : State} {g} {o} {layer} {trouble} (h : s.Sound) :
    SoundResult (execVintts g o layer trouble s) := by
  unfold execVintts
  try dsimp only
  apply sound_next
  repeat' first
    | with_reducible assumption
    | exact fun _ h1 h2 h3 => ⟨h1, h2, h3⟩
    | exact fun _ h1 => h1
    | (intro _; try dsimp only)
    | with_reducible apply sound_runGrain
    | with_reducible apply sound_ite
    | with_reducible apply sound_ite_fst
    | with_reducible apply sound_foldl
    | fail_if_no_progress (with_reducible (apply sound_upd; rotate_left; iterate 4 rfl))
    | with_reducible refine sound_of_pair (by assumption) ?_
    | split

theorem sound_execVbfct {s : State} {g} {o} {wreg} (h : s.Sound) :
    SoundResult (execVbfct g o wreg s) := by
  unfold execVbfct
  try dsimp only
  apply sound_next
  repeat' first
    | with_reducible assumption
    | exact fun _ h1 h2 h3 => ⟨h1, h2, h3⟩
    | exact fun _ h1 => h1
    | (intro _; try dsimp only)
    | with_reducible apply sound_runGrain
    | with_reducible apply sound_ite
    | with_reducible apply sound_ite_fst
    | with_reducible apply sound_foldl
    | fail_if_no_progress (with_reducible (apply sound_upd; rotate_left; iterate 4 rfl))
    | with_reducible refine sound_of_pair (by assumption) ?_
    | split

theorem sound_execVbfgs {s : State} {g} {o} {wreg} (h : s.Sound) :
    SoundResult (execVbfgs g o wreg s) := by
  unfold execVbfgs
  try dsimp only
  apply sound_next
  repeat' first
    | with_reducible assumption
    | exact fun _ h1 h2 h3 => ⟨h1, h2, h3⟩
    | exact fun _ h1 => h1
    | (intro _; try dsimp only)
    | with_reducible apply sound_runGrain
    | with_reducible apply sound_ite
    | with_reducible apply sound_ite_fst
    | with_reducible apply sound_foldl
    | fail_if_no_progress (with_reducible (apply sound_upd; rotate_left; iterate 4 rfl))
    | with_reducible refine sound_of_pair (by assumption) ?_
    | split

end Sys2Proof.Machine
end

