-- ==== Sys2Proof/Laws/State.lean ====
section
/-!
SUPPORT. What each update of the state leaves as it was, field by field, and the field it changes: no later proof unfolds an
update. The second part says the same of raising an event and of recording an entry of the horizon log.
-/
namespace Sys2Proof.Machine

variable (s : State)


@[simp] theorem State.emit_pending (x : Out) : (s.emit x).pending = s.pending := rfl
@[simp] theorem State.emit_free (x : Out) : (s.emit x).free = s.free := rfl
@[simp] theorem State.emit_out (x : Out) : (s.emit x).out = s.out ++ [x] := rfl
@[simp] theorem State.emit_nextJob (x : Out) : (s.emit x).nextJob = s.nextJob := rfl
@[simp] theorem State.emit_sq (x : Out) : (s.emit x).sq = s.sq := rfl
@[simp] theorem State.emit_glb (x : Out) : (s.emit x).glb = s.glb := rfl
@[simp] theorem State.emit_glbPf (x : Out) : (s.emit x).glbPf = s.glbPf := rfl
@[simp] theorem State.emit_guard (x : Out) : (s.emit x).guard = s.guard := rfl
@[simp] theorem State.emit_posted (x : Out) : (s.emit x).posted = s.posted := rfl
@[simp] theorem State.emit_queues (x : Out) : (s.emit x).queues = s.queues := rfl
@[simp] theorem State.emit_jobs (x : Out) : (s.emit x).jobs = s.jobs := rfl
@[simp] theorem State.emit_ports (x : Out) : (s.emit x).ports = s.ports := rfl
@[simp] theorem State.emit_funcs (x : Out) : (s.emit x).funcs = s.funcs := rfl
@[simp] theorem State.emit_tenants (x : Out) : (s.emit x).tenants = s.tenants := rfl
@[simp] theorem State.emit_beds (x : Out) : (s.emit x).beds = s.beds := rfl
@[simp] theorem State.emit_grains (x : Out) : (s.emit x).grains = s.grains := rfl
@[simp] theorem State.emit_quads (x : Out) : (s.emit x).quads = s.quads := rfl
@[simp] theorem State.emit_engines (x : Out) : (s.emit x).engines = s.engines := rfl
@[simp] theorem State.emit_vault (x : Out) : (s.emit x).vault = s.vault := rfl
@[simp] theorem State.emit_grade (x : Out) : (s.emit x).grade = s.grade := rfl
@[simp] theorem State.emit_uid (x : Out) : (s.emit x).uid = s.uid := rfl
@[simp] theorem State.emit_rtc (x : Out) : (s.emit x).rtc = s.rtc := rfl
@[simp] theorem State.emit_power (x : Out) : (s.emit x).power = s.power := rfl
@[simp] theorem State.emit_boot (x : Out) : (s.emit x).boot = s.boot := rfl
@[simp] theorem State.emit_hzn (x : Out) : (s.emit x).hzn = s.hzn := rfl
@[simp] theorem State.emit_rng (x : Out) : (s.emit x).rng = s.rng := rfl
@[simp] theorem State.emit_life (x : Out) : (s.emit x).life = s.life := rfl
@[simp] theorem State.emit_uncel (x : Out) : (s.emit x).uncel = s.uncel := rfl
@[simp] theorem State.emit_digests (x : Out) : (s.emit x).digests = s.digests := rfl
@[simp] theorem State.emit_spdm (x : Out) : (s.emit x).spdm = s.spdm := rfl
@[simp] theorem State.emit_tamper (x : Out) : (s.emit x).tamper = s.tamper := rfl
@[simp] theorem State.emit_tamperCfg (x : Out) : (s.emit x).tamperCfg = s.tamperCfg := rfl
@[simp] theorem State.emit_pgd (x : Out) : (s.emit x).pgd = s.pgd := rfl
@[simp] theorem State.emit_obs (x : Out) : (s.emit x).obs = s.obs := rfl
@[simp] theorem State.emit_i3c (x : Out) : (s.emit x).i3c = s.i3c := rfl

@[simp] theorem State.spend_pending : s.spend.pending = s.pending := rfl
@[simp] theorem State.spend_free : s.spend.free = s.free + 1 := rfl
@[simp] theorem State.spend_out : s.spend.out = s.out := rfl
@[simp] theorem State.spend_nextJob : s.spend.nextJob = s.nextJob := rfl
@[simp] theorem State.spend_sq : s.spend.sq = s.sq := rfl
@[simp] theorem State.spend_glb : s.spend.glb = s.glb := rfl
@[simp] theorem State.spend_glbPf : s.spend.glbPf = s.glbPf := rfl
@[simp] theorem State.spend_guard : s.spend.guard = s.guard := rfl
@[simp] theorem State.spend_posted : s.spend.posted = s.posted := rfl
@[simp] theorem State.spend_queues : s.spend.queues = s.queues := rfl
@[simp] theorem State.spend_jobs : s.spend.jobs = s.jobs := rfl
@[simp] theorem State.spend_ports : s.spend.ports = s.ports := rfl
@[simp] theorem State.spend_funcs : s.spend.funcs = s.funcs := rfl
@[simp] theorem State.spend_tenants : s.spend.tenants = s.tenants := rfl
@[simp] theorem State.spend_beds : s.spend.beds = s.beds := rfl
@[simp] theorem State.spend_grains : s.spend.grains = s.grains := rfl
@[simp] theorem State.spend_quads : s.spend.quads = s.quads := rfl
@[simp] theorem State.spend_engines : s.spend.engines = s.engines := rfl
@[simp] theorem State.spend_vault : s.spend.vault = s.vault := rfl
@[simp] theorem State.spend_grade : s.spend.grade = s.grade := rfl
@[simp] theorem State.spend_uid : s.spend.uid = s.uid := rfl
@[simp] theorem State.spend_rtc : s.spend.rtc = s.rtc := rfl
@[simp] theorem State.spend_power : s.spend.power = s.power := rfl
@[simp] theorem State.spend_boot : s.spend.boot = s.boot := rfl
@[simp] theorem State.spend_hzn : s.spend.hzn = s.hzn := rfl
@[simp] theorem State.spend_rng : s.spend.rng = s.rng := rfl
@[simp] theorem State.spend_life : s.spend.life = s.life := rfl
@[simp] theorem State.spend_uncel : s.spend.uncel = s.uncel := rfl
@[simp] theorem State.spend_digests : s.spend.digests = s.digests := rfl
@[simp] theorem State.spend_spdm : s.spend.spdm = s.spdm := rfl
@[simp] theorem State.spend_tamper : s.spend.tamper = s.tamper := rfl
@[simp] theorem State.spend_tamperCfg : s.spend.tamperCfg = s.tamperCfg := rfl
@[simp] theorem State.spend_pgd : s.spend.pgd = s.pgd := rfl
@[simp] theorem State.spend_obs : s.spend.obs = s.obs := rfl
@[simp] theorem State.spend_i3c : s.spend.i3c = s.i3c := rfl

@[simp] theorem State.modQueue_pending (k : Nat) (f : Queue → Queue) : (s.modQueue k f).pending = s.pending := rfl
@[simp] theorem State.modQueue_free (k : Nat) (f : Queue → Queue) : (s.modQueue k f).free = s.free := rfl
@[simp] theorem State.modQueue_out (k : Nat) (f : Queue → Queue) : (s.modQueue k f).out = s.out := rfl
@[simp] theorem State.modQueue_nextJob (k : Nat) (f : Queue → Queue) : (s.modQueue k f).nextJob = s.nextJob := rfl
@[simp] theorem State.modQueue_sq (k : Nat) (f : Queue → Queue) : (s.modQueue k f).sq = s.sq := rfl
@[simp] theorem State.modQueue_glb (k : Nat) (f : Queue → Queue) : (s.modQueue k f).glb = s.glb := rfl
@[simp] theorem State.modQueue_glbPf (k : Nat) (f : Queue → Queue) : (s.modQueue k f).glbPf = s.glbPf := rfl
@[simp] theorem State.modQueue_guard (k : Nat) (f : Queue → Queue) : (s.modQueue k f).guard = s.guard := rfl
@[simp] theorem State.modQueue_posted (k : Nat) (f : Queue → Queue) : (s.modQueue k f).posted = s.posted := rfl
@[simp] theorem State.modQueue_queues (k : Nat) (f : Queue → Queue) : (s.modQueue k f).queues = s.queues.modify k {} f := rfl
@[simp] theorem State.modQueue_jobs (k : Nat) (f : Queue → Queue) : (s.modQueue k f).jobs = s.jobs := rfl
@[simp] theorem State.modQueue_ports (k : Nat) (f : Queue → Queue) : (s.modQueue k f).ports = s.ports := rfl
@[simp] theorem State.modQueue_funcs (k : Nat) (f : Queue → Queue) : (s.modQueue k f).funcs = s.funcs := rfl
@[simp] theorem State.modQueue_tenants (k : Nat) (f : Queue → Queue) : (s.modQueue k f).tenants = s.tenants := rfl
@[simp] theorem State.modQueue_beds (k : Nat) (f : Queue → Queue) : (s.modQueue k f).beds = s.beds := rfl
@[simp] theorem State.modQueue_grains (k : Nat) (f : Queue → Queue) : (s.modQueue k f).grains = s.grains := rfl
@[simp] theorem State.modQueue_quads (k : Nat) (f : Queue → Queue) : (s.modQueue k f).quads = s.quads := rfl
@[simp] theorem State.modQueue_engines (k : Nat) (f : Queue → Queue) : (s.modQueue k f).engines = s.engines := rfl
@[simp] theorem State.modQueue_vault (k : Nat) (f : Queue → Queue) : (s.modQueue k f).vault = s.vault := rfl
@[simp] theorem State.modQueue_grade (k : Nat) (f : Queue → Queue) : (s.modQueue k f).grade = s.grade := rfl
@[simp] theorem State.modQueue_uid (k : Nat) (f : Queue → Queue) : (s.modQueue k f).uid = s.uid := rfl
@[simp] theorem State.modQueue_rtc (k : Nat) (f : Queue → Queue) : (s.modQueue k f).rtc = s.rtc := rfl
@[simp] theorem State.modQueue_power (k : Nat) (f : Queue → Queue) : (s.modQueue k f).power = s.power := rfl
@[simp] theorem State.modQueue_boot (k : Nat) (f : Queue → Queue) : (s.modQueue k f).boot = s.boot := rfl
@[simp] theorem State.modQueue_hzn (k : Nat) (f : Queue → Queue) : (s.modQueue k f).hzn = s.hzn := rfl
@[simp] theorem State.modQueue_rng (k : Nat) (f : Queue → Queue) : (s.modQueue k f).rng = s.rng := rfl
@[simp] theorem State.modQueue_life (k : Nat) (f : Queue → Queue) : (s.modQueue k f).life = s.life := rfl
@[simp] theorem State.modQueue_uncel (k : Nat) (f : Queue → Queue) : (s.modQueue k f).uncel = s.uncel := rfl
@[simp] theorem State.modQueue_digests (k : Nat) (f : Queue → Queue) : (s.modQueue k f).digests = s.digests := rfl
@[simp] theorem State.modQueue_spdm (k : Nat) (f : Queue → Queue) : (s.modQueue k f).spdm = s.spdm := rfl
@[simp] theorem State.modQueue_tamper (k : Nat) (f : Queue → Queue) : (s.modQueue k f).tamper = s.tamper := rfl
@[simp] theorem State.modQueue_tamperCfg (k : Nat) (f : Queue → Queue) : (s.modQueue k f).tamperCfg = s.tamperCfg := rfl
@[simp] theorem State.modQueue_pgd (k : Nat) (f : Queue → Queue) : (s.modQueue k f).pgd = s.pgd := rfl
@[simp] theorem State.modQueue_obs (k : Nat) (f : Queue → Queue) : (s.modQueue k f).obs = s.obs := rfl
@[simp] theorem State.modQueue_i3c (k : Nat) (f : Queue → Queue) : (s.modQueue k f).i3c = s.i3c := rfl

@[simp] theorem State.modFunc_pending (k : Nat) (f : Func → Func) : (s.modFunc k f).pending = s.pending := rfl
@[simp] theorem State.modFunc_free (k : Nat) (f : Func → Func) : (s.modFunc k f).free = s.free := rfl
@[simp] theorem State.modFunc_out (k : Nat) (f : Func → Func) : (s.modFunc k f).out = s.out := rfl
@[simp] theorem State.modFunc_nextJob (k : Nat) (f : Func → Func) : (s.modFunc k f).nextJob = s.nextJob := rfl
@[simp] theorem State.modFunc_sq (k : Nat) (f : Func → Func) : (s.modFunc k f).sq = s.sq := rfl
@[simp] theorem State.modFunc_glb (k : Nat) (f : Func → Func) : (s.modFunc k f).glb = s.glb := rfl
@[simp] theorem State.modFunc_glbPf (k : Nat) (f : Func → Func) : (s.modFunc k f).glbPf = s.glbPf := rfl
@[simp] theorem State.modFunc_guard (k : Nat) (f : Func → Func) : (s.modFunc k f).guard = s.guard := rfl
@[simp] theorem State.modFunc_posted (k : Nat) (f : Func → Func) : (s.modFunc k f).posted = s.posted := rfl
@[simp] theorem State.modFunc_queues (k : Nat) (f : Func → Func) : (s.modFunc k f).queues = s.queues := rfl
@[simp] theorem State.modFunc_jobs (k : Nat) (f : Func → Func) : (s.modFunc k f).jobs = s.jobs := rfl
@[simp] theorem State.modFunc_ports (k : Nat) (f : Func → Func) : (s.modFunc k f).ports = s.ports := rfl
@[simp] theorem State.modFunc_funcs (k : Nat) (f : Func → Func) : (s.modFunc k f).funcs = s.funcs.modify k {} f := rfl
@[simp] theorem State.modFunc_tenants (k : Nat) (f : Func → Func) : (s.modFunc k f).tenants = s.tenants := rfl
@[simp] theorem State.modFunc_beds (k : Nat) (f : Func → Func) : (s.modFunc k f).beds = s.beds := rfl
@[simp] theorem State.modFunc_grains (k : Nat) (f : Func → Func) : (s.modFunc k f).grains = s.grains := rfl
@[simp] theorem State.modFunc_quads (k : Nat) (f : Func → Func) : (s.modFunc k f).quads = s.quads := rfl
@[simp] theorem State.modFunc_engines (k : Nat) (f : Func → Func) : (s.modFunc k f).engines = s.engines := rfl
@[simp] theorem State.modFunc_vault (k : Nat) (f : Func → Func) : (s.modFunc k f).vault = s.vault := rfl
@[simp] theorem State.modFunc_grade (k : Nat) (f : Func → Func) : (s.modFunc k f).grade = s.grade := rfl
@[simp] theorem State.modFunc_uid (k : Nat) (f : Func → Func) : (s.modFunc k f).uid = s.uid := rfl
@[simp] theorem State.modFunc_rtc (k : Nat) (f : Func → Func) : (s.modFunc k f).rtc = s.rtc := rfl
@[simp] theorem State.modFunc_power (k : Nat) (f : Func → Func) : (s.modFunc k f).power = s.power := rfl
@[simp] theorem State.modFunc_boot (k : Nat) (f : Func → Func) : (s.modFunc k f).boot = s.boot := rfl
@[simp] theorem State.modFunc_hzn (k : Nat) (f : Func → Func) : (s.modFunc k f).hzn = s.hzn := rfl
@[simp] theorem State.modFunc_rng (k : Nat) (f : Func → Func) : (s.modFunc k f).rng = s.rng := rfl
@[simp] theorem State.modFunc_life (k : Nat) (f : Func → Func) : (s.modFunc k f).life = s.life := rfl
@[simp] theorem State.modFunc_uncel (k : Nat) (f : Func → Func) : (s.modFunc k f).uncel = s.uncel := rfl
@[simp] theorem State.modFunc_digests (k : Nat) (f : Func → Func) : (s.modFunc k f).digests = s.digests := rfl
@[simp] theorem State.modFunc_spdm (k : Nat) (f : Func → Func) : (s.modFunc k f).spdm = s.spdm := rfl
@[simp] theorem State.modFunc_tamper (k : Nat) (f : Func → Func) : (s.modFunc k f).tamper = s.tamper := rfl
@[simp] theorem State.modFunc_tamperCfg (k : Nat) (f : Func → Func) : (s.modFunc k f).tamperCfg = s.tamperCfg := rfl
@[simp] theorem State.modFunc_pgd (k : Nat) (f : Func → Func) : (s.modFunc k f).pgd = s.pgd := rfl
@[simp] theorem State.modFunc_obs (k : Nat) (f : Func → Func) : (s.modFunc k f).obs = s.obs := rfl
@[simp] theorem State.modFunc_i3c (k : Nat) (f : Func → Func) : (s.modFunc k f).i3c = s.i3c := rfl

@[simp] theorem State.modPort_pending (k : Nat) (f : Port → Port) : (s.modPort k f).pending = s.pending := rfl
@[simp] theorem State.modPort_free (k : Nat) (f : Port → Port) : (s.modPort k f).free = s.free := rfl
@[simp] theorem State.modPort_out (k : Nat) (f : Port → Port) : (s.modPort k f).out = s.out := rfl
@[simp] theorem State.modPort_nextJob (k : Nat) (f : Port → Port) : (s.modPort k f).nextJob = s.nextJob := rfl
@[simp] theorem State.modPort_sq (k : Nat) (f : Port → Port) : (s.modPort k f).sq = s.sq := rfl
@[simp] theorem State.modPort_glb (k : Nat) (f : Port → Port) : (s.modPort k f).glb = s.glb := rfl
@[simp] theorem State.modPort_glbPf (k : Nat) (f : Port → Port) : (s.modPort k f).glbPf = s.glbPf := rfl
@[simp] theorem State.modPort_guard (k : Nat) (f : Port → Port) : (s.modPort k f).guard = s.guard := rfl
@[simp] theorem State.modPort_posted (k : Nat) (f : Port → Port) : (s.modPort k f).posted = s.posted := rfl
@[simp] theorem State.modPort_queues (k : Nat) (f : Port → Port) : (s.modPort k f).queues = s.queues := rfl
@[simp] theorem State.modPort_jobs (k : Nat) (f : Port → Port) : (s.modPort k f).jobs = s.jobs := rfl
@[simp] theorem State.modPort_ports (k : Nat) (f : Port → Port) : (s.modPort k f).ports = s.ports.modify k {} f := rfl
@[simp] theorem State.modPort_funcs (k : Nat) (f : Port → Port) : (s.modPort k f).funcs = s.funcs := rfl
@[simp] theorem State.modPort_tenants (k : Nat) (f : Port → Port) : (s.modPort k f).tenants = s.tenants := rfl
@[simp] theorem State.modPort_beds (k : Nat) (f : Port → Port) : (s.modPort k f).beds = s.beds := rfl
@[simp] theorem State.modPort_grains (k : Nat) (f : Port → Port) : (s.modPort k f).grains = s.grains := rfl
@[simp] theorem State.modPort_quads (k : Nat) (f : Port → Port) : (s.modPort k f).quads = s.quads := rfl
@[simp] theorem State.modPort_engines (k : Nat) (f : Port → Port) : (s.modPort k f).engines = s.engines := rfl
@[simp] theorem State.modPort_vault (k : Nat) (f : Port → Port) : (s.modPort k f).vault = s.vault := rfl
@[simp] theorem State.modPort_grade (k : Nat) (f : Port → Port) : (s.modPort k f).grade = s.grade := rfl
@[simp] theorem State.modPort_uid (k : Nat) (f : Port → Port) : (s.modPort k f).uid = s.uid := rfl
@[simp] theorem State.modPort_rtc (k : Nat) (f : Port → Port) : (s.modPort k f).rtc = s.rtc := rfl
@[simp] theorem State.modPort_power (k : Nat) (f : Port → Port) : (s.modPort k f).power = s.power := rfl
@[simp] theorem State.modPort_boot (k : Nat) (f : Port → Port) : (s.modPort k f).boot = s.boot := rfl
@[simp] theorem State.modPort_hzn (k : Nat) (f : Port → Port) : (s.modPort k f).hzn = s.hzn := rfl
@[simp] theorem State.modPort_rng (k : Nat) (f : Port → Port) : (s.modPort k f).rng = s.rng := rfl
@[simp] theorem State.modPort_life (k : Nat) (f : Port → Port) : (s.modPort k f).life = s.life := rfl
@[simp] theorem State.modPort_uncel (k : Nat) (f : Port → Port) : (s.modPort k f).uncel = s.uncel := rfl
@[simp] theorem State.modPort_digests (k : Nat) (f : Port → Port) : (s.modPort k f).digests = s.digests := rfl
@[simp] theorem State.modPort_spdm (k : Nat) (f : Port → Port) : (s.modPort k f).spdm = s.spdm := rfl
@[simp] theorem State.modPort_tamper (k : Nat) (f : Port → Port) : (s.modPort k f).tamper = s.tamper := rfl
@[simp] theorem State.modPort_tamperCfg (k : Nat) (f : Port → Port) : (s.modPort k f).tamperCfg = s.tamperCfg := rfl
@[simp] theorem State.modPort_pgd (k : Nat) (f : Port → Port) : (s.modPort k f).pgd = s.pgd := rfl
@[simp] theorem State.modPort_obs (k : Nat) (f : Port → Port) : (s.modPort k f).obs = s.obs := rfl
@[simp] theorem State.modPort_i3c (k : Nat) (f : Port → Port) : (s.modPort k f).i3c = s.i3c := rfl

@[simp] theorem State.modTenant_pending (k : Nat) (f : Tenant → Tenant) : (s.modTenant k f).pending = s.pending := rfl
@[simp] theorem State.modTenant_free (k : Nat) (f : Tenant → Tenant) : (s.modTenant k f).free = s.free := rfl
@[simp] theorem State.modTenant_out (k : Nat) (f : Tenant → Tenant) : (s.modTenant k f).out = s.out := rfl
@[simp] theorem State.modTenant_nextJob (k : Nat) (f : Tenant → Tenant) : (s.modTenant k f).nextJob = s.nextJob := rfl
@[simp] theorem State.modTenant_sq (k : Nat) (f : Tenant → Tenant) : (s.modTenant k f).sq = s.sq := rfl
@[simp] theorem State.modTenant_glb (k : Nat) (f : Tenant → Tenant) : (s.modTenant k f).glb = s.glb := rfl
@[simp] theorem State.modTenant_glbPf (k : Nat) (f : Tenant → Tenant) : (s.modTenant k f).glbPf = s.glbPf := rfl
@[simp] theorem State.modTenant_guard (k : Nat) (f : Tenant → Tenant) : (s.modTenant k f).guard = s.guard := rfl
@[simp] theorem State.modTenant_posted (k : Nat) (f : Tenant → Tenant) : (s.modTenant k f).posted = s.posted := rfl
@[simp] theorem State.modTenant_queues (k : Nat) (f : Tenant → Tenant) : (s.modTenant k f).queues = s.queues := rfl
@[simp] theorem State.modTenant_jobs (k : Nat) (f : Tenant → Tenant) : (s.modTenant k f).jobs = s.jobs := rfl
@[simp] theorem State.modTenant_ports (k : Nat) (f : Tenant → Tenant) : (s.modTenant k f).ports = s.ports := rfl
@[simp] theorem State.modTenant_funcs (k : Nat) (f : Tenant → Tenant) : (s.modTenant k f).funcs = s.funcs := rfl
@[simp] theorem State.modTenant_tenants (k : Nat) (f : Tenant → Tenant) : (s.modTenant k f).tenants = s.tenants.modify k {} f := rfl
@[simp] theorem State.modTenant_beds (k : Nat) (f : Tenant → Tenant) : (s.modTenant k f).beds = s.beds := rfl
@[simp] theorem State.modTenant_grains (k : Nat) (f : Tenant → Tenant) : (s.modTenant k f).grains = s.grains := rfl
@[simp] theorem State.modTenant_quads (k : Nat) (f : Tenant → Tenant) : (s.modTenant k f).quads = s.quads := rfl
@[simp] theorem State.modTenant_engines (k : Nat) (f : Tenant → Tenant) : (s.modTenant k f).engines = s.engines := rfl
@[simp] theorem State.modTenant_vault (k : Nat) (f : Tenant → Tenant) : (s.modTenant k f).vault = s.vault := rfl
@[simp] theorem State.modTenant_grade (k : Nat) (f : Tenant → Tenant) : (s.modTenant k f).grade = s.grade := rfl
@[simp] theorem State.modTenant_uid (k : Nat) (f : Tenant → Tenant) : (s.modTenant k f).uid = s.uid := rfl
@[simp] theorem State.modTenant_rtc (k : Nat) (f : Tenant → Tenant) : (s.modTenant k f).rtc = s.rtc := rfl
@[simp] theorem State.modTenant_power (k : Nat) (f : Tenant → Tenant) : (s.modTenant k f).power = s.power := rfl
@[simp] theorem State.modTenant_boot (k : Nat) (f : Tenant → Tenant) : (s.modTenant k f).boot = s.boot := rfl
@[simp] theorem State.modTenant_hzn (k : Nat) (f : Tenant → Tenant) : (s.modTenant k f).hzn = s.hzn := rfl
@[simp] theorem State.modTenant_rng (k : Nat) (f : Tenant → Tenant) : (s.modTenant k f).rng = s.rng := rfl
@[simp] theorem State.modTenant_life (k : Nat) (f : Tenant → Tenant) : (s.modTenant k f).life = s.life := rfl
@[simp] theorem State.modTenant_uncel (k : Nat) (f : Tenant → Tenant) : (s.modTenant k f).uncel = s.uncel := rfl
@[simp] theorem State.modTenant_digests (k : Nat) (f : Tenant → Tenant) : (s.modTenant k f).digests = s.digests := rfl
@[simp] theorem State.modTenant_spdm (k : Nat) (f : Tenant → Tenant) : (s.modTenant k f).spdm = s.spdm := rfl
@[simp] theorem State.modTenant_tamper (k : Nat) (f : Tenant → Tenant) : (s.modTenant k f).tamper = s.tamper := rfl
@[simp] theorem State.modTenant_tamperCfg (k : Nat) (f : Tenant → Tenant) : (s.modTenant k f).tamperCfg = s.tamperCfg := rfl
@[simp] theorem State.modTenant_pgd (k : Nat) (f : Tenant → Tenant) : (s.modTenant k f).pgd = s.pgd := rfl
@[simp] theorem State.modTenant_obs (k : Nat) (f : Tenant → Tenant) : (s.modTenant k f).obs = s.obs := rfl
@[simp] theorem State.modTenant_i3c (k : Nat) (f : Tenant → Tenant) : (s.modTenant k f).i3c = s.i3c := rfl

@[simp] theorem State.modBed_pending (k : Nat) (f : Bed → Bed) : (s.modBed k f).pending = s.pending := rfl
@[simp] theorem State.modBed_free (k : Nat) (f : Bed → Bed) : (s.modBed k f).free = s.free := rfl
@[simp] theorem State.modBed_out (k : Nat) (f : Bed → Bed) : (s.modBed k f).out = s.out := rfl
@[simp] theorem State.modBed_nextJob (k : Nat) (f : Bed → Bed) : (s.modBed k f).nextJob = s.nextJob := rfl
@[simp] theorem State.modBed_sq (k : Nat) (f : Bed → Bed) : (s.modBed k f).sq = s.sq := rfl
@[simp] theorem State.modBed_glb (k : Nat) (f : Bed → Bed) : (s.modBed k f).glb = s.glb := rfl
@[simp] theorem State.modBed_glbPf (k : Nat) (f : Bed → Bed) : (s.modBed k f).glbPf = s.glbPf := rfl
@[simp] theorem State.modBed_guard (k : Nat) (f : Bed → Bed) : (s.modBed k f).guard = s.guard := rfl
@[simp] theorem State.modBed_posted (k : Nat) (f : Bed → Bed) : (s.modBed k f).posted = s.posted := rfl
@[simp] theorem State.modBed_queues (k : Nat) (f : Bed → Bed) : (s.modBed k f).queues = s.queues := rfl
@[simp] theorem State.modBed_jobs (k : Nat) (f : Bed → Bed) : (s.modBed k f).jobs = s.jobs := rfl
@[simp] theorem State.modBed_ports (k : Nat) (f : Bed → Bed) : (s.modBed k f).ports = s.ports := rfl
@[simp] theorem State.modBed_funcs (k : Nat) (f : Bed → Bed) : (s.modBed k f).funcs = s.funcs := rfl
@[simp] theorem State.modBed_tenants (k : Nat) (f : Bed → Bed) : (s.modBed k f).tenants = s.tenants := rfl
@[simp] theorem State.modBed_beds (k : Nat) (f : Bed → Bed) : (s.modBed k f).beds = s.beds.modify k {} f := rfl
@[simp] theorem State.modBed_grains (k : Nat) (f : Bed → Bed) : (s.modBed k f).grains = s.grains := rfl
@[simp] theorem State.modBed_quads (k : Nat) (f : Bed → Bed) : (s.modBed k f).quads = s.quads := rfl
@[simp] theorem State.modBed_engines (k : Nat) (f : Bed → Bed) : (s.modBed k f).engines = s.engines := rfl
@[simp] theorem State.modBed_vault (k : Nat) (f : Bed → Bed) : (s.modBed k f).vault = s.vault := rfl
@[simp] theorem State.modBed_grade (k : Nat) (f : Bed → Bed) : (s.modBed k f).grade = s.grade := rfl
@[simp] theorem State.modBed_uid (k : Nat) (f : Bed → Bed) : (s.modBed k f).uid = s.uid := rfl
@[simp] theorem State.modBed_rtc (k : Nat) (f : Bed → Bed) : (s.modBed k f).rtc = s.rtc := rfl
@[simp] theorem State.modBed_power (k : Nat) (f : Bed → Bed) : (s.modBed k f).power = s.power := rfl
@[simp] theorem State.modBed_boot (k : Nat) (f : Bed → Bed) : (s.modBed k f).boot = s.boot := rfl
@[simp] theorem State.modBed_hzn (k : Nat) (f : Bed → Bed) : (s.modBed k f).hzn = s.hzn := rfl
@[simp] theorem State.modBed_rng (k : Nat) (f : Bed → Bed) : (s.modBed k f).rng = s.rng := rfl
@[simp] theorem State.modBed_life (k : Nat) (f : Bed → Bed) : (s.modBed k f).life = s.life := rfl
@[simp] theorem State.modBed_uncel (k : Nat) (f : Bed → Bed) : (s.modBed k f).uncel = s.uncel := rfl
@[simp] theorem State.modBed_digests (k : Nat) (f : Bed → Bed) : (s.modBed k f).digests = s.digests := rfl
@[simp] theorem State.modBed_spdm (k : Nat) (f : Bed → Bed) : (s.modBed k f).spdm = s.spdm := rfl
@[simp] theorem State.modBed_tamper (k : Nat) (f : Bed → Bed) : (s.modBed k f).tamper = s.tamper := rfl
@[simp] theorem State.modBed_tamperCfg (k : Nat) (f : Bed → Bed) : (s.modBed k f).tamperCfg = s.tamperCfg := rfl
@[simp] theorem State.modBed_pgd (k : Nat) (f : Bed → Bed) : (s.modBed k f).pgd = s.pgd := rfl
@[simp] theorem State.modBed_obs (k : Nat) (f : Bed → Bed) : (s.modBed k f).obs = s.obs := rfl
@[simp] theorem State.modBed_i3c (k : Nat) (f : Bed → Bed) : (s.modBed k f).i3c = s.i3c := rfl

@[simp] theorem State.modGrain_pending (k : Nat) (f : Grain → Grain) : (s.modGrain k f).pending = s.pending := rfl
@[simp] theorem State.modGrain_free (k : Nat) (f : Grain → Grain) : (s.modGrain k f).free = s.free := rfl
@[simp] theorem State.modGrain_out (k : Nat) (f : Grain → Grain) : (s.modGrain k f).out = s.out := rfl
@[simp] theorem State.modGrain_nextJob (k : Nat) (f : Grain → Grain) : (s.modGrain k f).nextJob = s.nextJob := rfl
@[simp] theorem State.modGrain_sq (k : Nat) (f : Grain → Grain) : (s.modGrain k f).sq = s.sq := rfl
@[simp] theorem State.modGrain_glb (k : Nat) (f : Grain → Grain) : (s.modGrain k f).glb = s.glb := rfl
@[simp] theorem State.modGrain_glbPf (k : Nat) (f : Grain → Grain) : (s.modGrain k f).glbPf = s.glbPf := rfl
@[simp] theorem State.modGrain_guard (k : Nat) (f : Grain → Grain) : (s.modGrain k f).guard = s.guard := rfl
@[simp] theorem State.modGrain_posted (k : Nat) (f : Grain → Grain) : (s.modGrain k f).posted = s.posted := rfl
@[simp] theorem State.modGrain_queues (k : Nat) (f : Grain → Grain) : (s.modGrain k f).queues = s.queues := rfl
@[simp] theorem State.modGrain_jobs (k : Nat) (f : Grain → Grain) : (s.modGrain k f).jobs = s.jobs := rfl
@[simp] theorem State.modGrain_ports (k : Nat) (f : Grain → Grain) : (s.modGrain k f).ports = s.ports := rfl
@[simp] theorem State.modGrain_funcs (k : Nat) (f : Grain → Grain) : (s.modGrain k f).funcs = s.funcs := rfl
@[simp] theorem State.modGrain_tenants (k : Nat) (f : Grain → Grain) : (s.modGrain k f).tenants = s.tenants := rfl
@[simp] theorem State.modGrain_beds (k : Nat) (f : Grain → Grain) : (s.modGrain k f).beds = s.beds := rfl
@[simp] theorem State.modGrain_grains (k : Nat) (f : Grain → Grain) : (s.modGrain k f).grains = s.grains.modify k {} f := rfl
@[simp] theorem State.modGrain_quads (k : Nat) (f : Grain → Grain) : (s.modGrain k f).quads = s.quads := rfl
@[simp] theorem State.modGrain_engines (k : Nat) (f : Grain → Grain) : (s.modGrain k f).engines = s.engines := rfl
@[simp] theorem State.modGrain_vault (k : Nat) (f : Grain → Grain) : (s.modGrain k f).vault = s.vault := rfl
@[simp] theorem State.modGrain_grade (k : Nat) (f : Grain → Grain) : (s.modGrain k f).grade = s.grade := rfl
@[simp] theorem State.modGrain_uid (k : Nat) (f : Grain → Grain) : (s.modGrain k f).uid = s.uid := rfl
@[simp] theorem State.modGrain_rtc (k : Nat) (f : Grain → Grain) : (s.modGrain k f).rtc = s.rtc := rfl
@[simp] theorem State.modGrain_power (k : Nat) (f : Grain → Grain) : (s.modGrain k f).power = s.power := rfl
@[simp] theorem State.modGrain_boot (k : Nat) (f : Grain → Grain) : (s.modGrain k f).boot = s.boot := rfl
@[simp] theorem State.modGrain_hzn (k : Nat) (f : Grain → Grain) : (s.modGrain k f).hzn = s.hzn := rfl
@[simp] theorem State.modGrain_rng (k : Nat) (f : Grain → Grain) : (s.modGrain k f).rng = s.rng := rfl
@[simp] theorem State.modGrain_life (k : Nat) (f : Grain → Grain) : (s.modGrain k f).life = s.life := rfl
@[simp] theorem State.modGrain_uncel (k : Nat) (f : Grain → Grain) : (s.modGrain k f).uncel = s.uncel := rfl
@[simp] theorem State.modGrain_digests (k : Nat) (f : Grain → Grain) : (s.modGrain k f).digests = s.digests := rfl
@[simp] theorem State.modGrain_spdm (k : Nat) (f : Grain → Grain) : (s.modGrain k f).spdm = s.spdm := rfl
@[simp] theorem State.modGrain_tamper (k : Nat) (f : Grain → Grain) : (s.modGrain k f).tamper = s.tamper := rfl
@[simp] theorem State.modGrain_tamperCfg (k : Nat) (f : Grain → Grain) : (s.modGrain k f).tamperCfg = s.tamperCfg := rfl
@[simp] theorem State.modGrain_pgd (k : Nat) (f : Grain → Grain) : (s.modGrain k f).pgd = s.pgd := rfl
@[simp] theorem State.modGrain_obs (k : Nat) (f : Grain → Grain) : (s.modGrain k f).obs = s.obs := rfl
@[simp] theorem State.modGrain_i3c (k : Nat) (f : Grain → Grain) : (s.modGrain k f).i3c = s.i3c := rfl

@[simp] theorem State.modQuad_pending (k : Nat) (f : Quadrant → Quadrant) : (s.modQuad k f).pending = s.pending := rfl
@[simp] theorem State.modQuad_free (k : Nat) (f : Quadrant → Quadrant) : (s.modQuad k f).free = s.free := rfl
@[simp] theorem State.modQuad_out (k : Nat) (f : Quadrant → Quadrant) : (s.modQuad k f).out = s.out := rfl
@[simp] theorem State.modQuad_nextJob (k : Nat) (f : Quadrant → Quadrant) : (s.modQuad k f).nextJob = s.nextJob := rfl
@[simp] theorem State.modQuad_sq (k : Nat) (f : Quadrant → Quadrant) : (s.modQuad k f).sq = s.sq := rfl
@[simp] theorem State.modQuad_glb (k : Nat) (f : Quadrant → Quadrant) : (s.modQuad k f).glb = s.glb := rfl
@[simp] theorem State.modQuad_glbPf (k : Nat) (f : Quadrant → Quadrant) : (s.modQuad k f).glbPf = s.glbPf := rfl
@[simp] theorem State.modQuad_guard (k : Nat) (f : Quadrant → Quadrant) : (s.modQuad k f).guard = s.guard := rfl
@[simp] theorem State.modQuad_posted (k : Nat) (f : Quadrant → Quadrant) : (s.modQuad k f).posted = s.posted := rfl
@[simp] theorem State.modQuad_queues (k : Nat) (f : Quadrant → Quadrant) : (s.modQuad k f).queues = s.queues := rfl
@[simp] theorem State.modQuad_jobs (k : Nat) (f : Quadrant → Quadrant) : (s.modQuad k f).jobs = s.jobs := rfl
@[simp] theorem State.modQuad_ports (k : Nat) (f : Quadrant → Quadrant) : (s.modQuad k f).ports = s.ports := rfl
@[simp] theorem State.modQuad_funcs (k : Nat) (f : Quadrant → Quadrant) : (s.modQuad k f).funcs = s.funcs := rfl
@[simp] theorem State.modQuad_tenants (k : Nat) (f : Quadrant → Quadrant) : (s.modQuad k f).tenants = s.tenants := rfl
@[simp] theorem State.modQuad_beds (k : Nat) (f : Quadrant → Quadrant) : (s.modQuad k f).beds = s.beds := rfl
@[simp] theorem State.modQuad_grains (k : Nat) (f : Quadrant → Quadrant) : (s.modQuad k f).grains = s.grains := rfl
@[simp] theorem State.modQuad_quads (k : Nat) (f : Quadrant → Quadrant) : (s.modQuad k f).quads = s.quads.modify k {} f := rfl
@[simp] theorem State.modQuad_engines (k : Nat) (f : Quadrant → Quadrant) : (s.modQuad k f).engines = s.engines := rfl
@[simp] theorem State.modQuad_vault (k : Nat) (f : Quadrant → Quadrant) : (s.modQuad k f).vault = s.vault := rfl
@[simp] theorem State.modQuad_grade (k : Nat) (f : Quadrant → Quadrant) : (s.modQuad k f).grade = s.grade := rfl
@[simp] theorem State.modQuad_uid (k : Nat) (f : Quadrant → Quadrant) : (s.modQuad k f).uid = s.uid := rfl
@[simp] theorem State.modQuad_rtc (k : Nat) (f : Quadrant → Quadrant) : (s.modQuad k f).rtc = s.rtc := rfl
@[simp] theorem State.modQuad_power (k : Nat) (f : Quadrant → Quadrant) : (s.modQuad k f).power = s.power := rfl
@[simp] theorem State.modQuad_boot (k : Nat) (f : Quadrant → Quadrant) : (s.modQuad k f).boot = s.boot := rfl
@[simp] theorem State.modQuad_hzn (k : Nat) (f : Quadrant → Quadrant) : (s.modQuad k f).hzn = s.hzn := rfl
@[simp] theorem State.modQuad_rng (k : Nat) (f : Quadrant → Quadrant) : (s.modQuad k f).rng = s.rng := rfl
@[simp] theorem State.modQuad_life (k : Nat) (f : Quadrant → Quadrant) : (s.modQuad k f).life = s.life := rfl
@[simp] theorem State.modQuad_uncel (k : Nat) (f : Quadrant → Quadrant) : (s.modQuad k f).uncel = s.uncel := rfl
@[simp] theorem State.modQuad_digests (k : Nat) (f : Quadrant → Quadrant) : (s.modQuad k f).digests = s.digests := rfl
@[simp] theorem State.modQuad_spdm (k : Nat) (f : Quadrant → Quadrant) : (s.modQuad k f).spdm = s.spdm := rfl
@[simp] theorem State.modQuad_tamper (k : Nat) (f : Quadrant → Quadrant) : (s.modQuad k f).tamper = s.tamper := rfl
@[simp] theorem State.modQuad_tamperCfg (k : Nat) (f : Quadrant → Quadrant) : (s.modQuad k f).tamperCfg = s.tamperCfg := rfl
@[simp] theorem State.modQuad_pgd (k : Nat) (f : Quadrant → Quadrant) : (s.modQuad k f).pgd = s.pgd := rfl
@[simp] theorem State.modQuad_obs (k : Nat) (f : Quadrant → Quadrant) : (s.modQuad k f).obs = s.obs := rfl
@[simp] theorem State.modQuad_i3c (k : Nat) (f : Quadrant → Quadrant) : (s.modQuad k f).i3c = s.i3c := rfl

@[simp] theorem State.modEngine_pending (k : Nat) (f : Engine → Engine) : (s.modEngine k f).pending = s.pending := rfl
@[simp] theorem State.modEngine_free (k : Nat) (f : Engine → Engine) : (s.modEngine k f).free = s.free := rfl
@[simp] theorem State.modEngine_out (k : Nat) (f : Engine → Engine) : (s.modEngine k f).out = s.out := rfl
@[simp] theorem State.modEngine_nextJob (k : Nat) (f : Engine → Engine) : (s.modEngine k f).nextJob = s.nextJob := rfl
@[simp] theorem State.modEngine_sq (k : Nat) (f : Engine → Engine) : (s.modEngine k f).sq = s.sq := rfl
@[simp] theorem State.modEngine_glb (k : Nat) (f : Engine → Engine) : (s.modEngine k f).glb = s.glb := rfl
@[simp] theorem State.modEngine_glbPf (k : Nat) (f : Engine → Engine) : (s.modEngine k f).glbPf = s.glbPf := rfl
@[simp] theorem State.modEngine_guard (k : Nat) (f : Engine → Engine) : (s.modEngine k f).guard = s.guard := rfl
@[simp] theorem State.modEngine_posted (k : Nat) (f : Engine → Engine) : (s.modEngine k f).posted = s.posted := rfl
@[simp] theorem State.modEngine_queues (k : Nat) (f : Engine → Engine) : (s.modEngine k f).queues = s.queues := rfl
@[simp] theorem State.modEngine_jobs (k : Nat) (f : Engine → Engine) : (s.modEngine k f).jobs = s.jobs := rfl
@[simp] theorem State.modEngine_ports (k : Nat) (f : Engine → Engine) : (s.modEngine k f).ports = s.ports := rfl
@[simp] theorem State.modEngine_funcs (k : Nat) (f : Engine → Engine) : (s.modEngine k f).funcs = s.funcs := rfl
@[simp] theorem State.modEngine_tenants (k : Nat) (f : Engine → Engine) : (s.modEngine k f).tenants = s.tenants := rfl
@[simp] theorem State.modEngine_beds (k : Nat) (f : Engine → Engine) : (s.modEngine k f).beds = s.beds := rfl
@[simp] theorem State.modEngine_grains (k : Nat) (f : Engine → Engine) : (s.modEngine k f).grains = s.grains := rfl
@[simp] theorem State.modEngine_quads (k : Nat) (f : Engine → Engine) : (s.modEngine k f).quads = s.quads := rfl
@[simp] theorem State.modEngine_engines (k : Nat) (f : Engine → Engine) : (s.modEngine k f).engines = s.engines.modify k {} f := rfl
@[simp] theorem State.modEngine_vault (k : Nat) (f : Engine → Engine) : (s.modEngine k f).vault = s.vault := rfl
@[simp] theorem State.modEngine_grade (k : Nat) (f : Engine → Engine) : (s.modEngine k f).grade = s.grade := rfl
@[simp] theorem State.modEngine_uid (k : Nat) (f : Engine → Engine) : (s.modEngine k f).uid = s.uid := rfl
@[simp] theorem State.modEngine_rtc (k : Nat) (f : Engine → Engine) : (s.modEngine k f).rtc = s.rtc := rfl
@[simp] theorem State.modEngine_power (k : Nat) (f : Engine → Engine) : (s.modEngine k f).power = s.power := rfl
@[simp] theorem State.modEngine_boot (k : Nat) (f : Engine → Engine) : (s.modEngine k f).boot = s.boot := rfl
@[simp] theorem State.modEngine_hzn (k : Nat) (f : Engine → Engine) : (s.modEngine k f).hzn = s.hzn := rfl
@[simp] theorem State.modEngine_rng (k : Nat) (f : Engine → Engine) : (s.modEngine k f).rng = s.rng := rfl
@[simp] theorem State.modEngine_life (k : Nat) (f : Engine → Engine) : (s.modEngine k f).life = s.life := rfl
@[simp] theorem State.modEngine_uncel (k : Nat) (f : Engine → Engine) : (s.modEngine k f).uncel = s.uncel := rfl
@[simp] theorem State.modEngine_digests (k : Nat) (f : Engine → Engine) : (s.modEngine k f).digests = s.digests := rfl
@[simp] theorem State.modEngine_spdm (k : Nat) (f : Engine → Engine) : (s.modEngine k f).spdm = s.spdm := rfl
@[simp] theorem State.modEngine_tamper (k : Nat) (f : Engine → Engine) : (s.modEngine k f).tamper = s.tamper := rfl
@[simp] theorem State.modEngine_tamperCfg (k : Nat) (f : Engine → Engine) : (s.modEngine k f).tamperCfg = s.tamperCfg := rfl
@[simp] theorem State.modEngine_pgd (k : Nat) (f : Engine → Engine) : (s.modEngine k f).pgd = s.pgd := rfl
@[simp] theorem State.modEngine_obs (k : Nat) (f : Engine → Engine) : (s.modEngine k f).obs = s.obs := rfl
@[simp] theorem State.modEngine_i3c (k : Nat) (f : Engine → Engine) : (s.modEngine k f).i3c = s.i3c := rfl

@[simp] theorem State.modPf_pending (k : Nat) (f : GlbPf → GlbPf) : (s.modPf k f).pending = s.pending := rfl
@[simp] theorem State.modPf_free (k : Nat) (f : GlbPf → GlbPf) : (s.modPf k f).free = s.free := rfl
@[simp] theorem State.modPf_out (k : Nat) (f : GlbPf → GlbPf) : (s.modPf k f).out = s.out := rfl
@[simp] theorem State.modPf_nextJob (k : Nat) (f : GlbPf → GlbPf) : (s.modPf k f).nextJob = s.nextJob := rfl
@[simp] theorem State.modPf_sq (k : Nat) (f : GlbPf → GlbPf) : (s.modPf k f).sq = s.sq := rfl
@[simp] theorem State.modPf_glb (k : Nat) (f : GlbPf → GlbPf) : (s.modPf k f).glb = s.glb := rfl
@[simp] theorem State.modPf_glbPf (k : Nat) (f : GlbPf → GlbPf) : (s.modPf k f).glbPf = s.glbPf.modify k {} f := rfl
@[simp] theorem State.modPf_guard (k : Nat) (f : GlbPf → GlbPf) : (s.modPf k f).guard = s.guard := rfl
@[simp] theorem State.modPf_posted (k : Nat) (f : GlbPf → GlbPf) : (s.modPf k f).posted = s.posted := rfl
@[simp] theorem State.modPf_queues (k : Nat) (f : GlbPf → GlbPf) : (s.modPf k f).queues = s.queues := rfl
@[simp] theorem State.modPf_jobs (k : Nat) (f : GlbPf → GlbPf) : (s.modPf k f).jobs = s.jobs := rfl
@[simp] theorem State.modPf_ports (k : Nat) (f : GlbPf → GlbPf) : (s.modPf k f).ports = s.ports := rfl
@[simp] theorem State.modPf_funcs (k : Nat) (f : GlbPf → GlbPf) : (s.modPf k f).funcs = s.funcs := rfl
@[simp] theorem State.modPf_tenants (k : Nat) (f : GlbPf → GlbPf) : (s.modPf k f).tenants = s.tenants := rfl
@[simp] theorem State.modPf_beds (k : Nat) (f : GlbPf → GlbPf) : (s.modPf k f).beds = s.beds := rfl
@[simp] theorem State.modPf_grains (k : Nat) (f : GlbPf → GlbPf) : (s.modPf k f).grains = s.grains := rfl
@[simp] theorem State.modPf_quads (k : Nat) (f : GlbPf → GlbPf) : (s.modPf k f).quads = s.quads := rfl
@[simp] theorem State.modPf_engines (k : Nat) (f : GlbPf → GlbPf) : (s.modPf k f).engines = s.engines := rfl
@[simp] theorem State.modPf_vault (k : Nat) (f : GlbPf → GlbPf) : (s.modPf k f).vault = s.vault := rfl
@[simp] theorem State.modPf_grade (k : Nat) (f : GlbPf → GlbPf) : (s.modPf k f).grade = s.grade := rfl
@[simp] theorem State.modPf_uid (k : Nat) (f : GlbPf → GlbPf) : (s.modPf k f).uid = s.uid := rfl
@[simp] theorem State.modPf_rtc (k : Nat) (f : GlbPf → GlbPf) : (s.modPf k f).rtc = s.rtc := rfl
@[simp] theorem State.modPf_power (k : Nat) (f : GlbPf → GlbPf) : (s.modPf k f).power = s.power := rfl
@[simp] theorem State.modPf_boot (k : Nat) (f : GlbPf → GlbPf) : (s.modPf k f).boot = s.boot := rfl
@[simp] theorem State.modPf_hzn (k : Nat) (f : GlbPf → GlbPf) : (s.modPf k f).hzn = s.hzn := rfl
@[simp] theorem State.modPf_rng (k : Nat) (f : GlbPf → GlbPf) : (s.modPf k f).rng = s.rng := rfl
@[simp] theorem State.modPf_life (k : Nat) (f : GlbPf → GlbPf) : (s.modPf k f).life = s.life := rfl
@[simp] theorem State.modPf_uncel (k : Nat) (f : GlbPf → GlbPf) : (s.modPf k f).uncel = s.uncel := rfl
@[simp] theorem State.modPf_digests (k : Nat) (f : GlbPf → GlbPf) : (s.modPf k f).digests = s.digests := rfl
@[simp] theorem State.modPf_spdm (k : Nat) (f : GlbPf → GlbPf) : (s.modPf k f).spdm = s.spdm := rfl
@[simp] theorem State.modPf_tamper (k : Nat) (f : GlbPf → GlbPf) : (s.modPf k f).tamper = s.tamper := rfl
@[simp] theorem State.modPf_tamperCfg (k : Nat) (f : GlbPf → GlbPf) : (s.modPf k f).tamperCfg = s.tamperCfg := rfl
@[simp] theorem State.modPf_pgd (k : Nat) (f : GlbPf → GlbPf) : (s.modPf k f).pgd = s.pgd := rfl
@[simp] theorem State.modPf_obs (k : Nat) (f : GlbPf → GlbPf) : (s.modPf k f).obs = s.obs := rfl
@[simp] theorem State.modPf_i3c (k : Nat) (f : GlbPf → GlbPf) : (s.modPf k f).i3c = s.i3c := rfl

@[simp] theorem State.modSlot_pending (k : Nat) (f : Slot → Slot) : (s.modSlot k f).pending = s.pending := rfl
@[simp] theorem State.modSlot_free (k : Nat) (f : Slot → Slot) : (s.modSlot k f).free = s.free := rfl
@[simp] theorem State.modSlot_out (k : Nat) (f : Slot → Slot) : (s.modSlot k f).out = s.out := rfl
@[simp] theorem State.modSlot_nextJob (k : Nat) (f : Slot → Slot) : (s.modSlot k f).nextJob = s.nextJob := rfl
@[simp] theorem State.modSlot_sq (k : Nat) (f : Slot → Slot) : (s.modSlot k f).sq = s.sq := rfl
@[simp] theorem State.modSlot_glb (k : Nat) (f : Slot → Slot) : (s.modSlot k f).glb = s.glb := rfl
@[simp] theorem State.modSlot_glbPf (k : Nat) (f : Slot → Slot) : (s.modSlot k f).glbPf = s.glbPf := rfl
@[simp] theorem State.modSlot_guard (k : Nat) (f : Slot → Slot) : (s.modSlot k f).guard = s.guard := rfl
@[simp] theorem State.modSlot_posted (k : Nat) (f : Slot → Slot) : (s.modSlot k f).posted = s.posted := rfl
@[simp] theorem State.modSlot_queues (k : Nat) (f : Slot → Slot) : (s.modSlot k f).queues = s.queues := rfl
@[simp] theorem State.modSlot_jobs (k : Nat) (f : Slot → Slot) : (s.modSlot k f).jobs = s.jobs := rfl
@[simp] theorem State.modSlot_ports (k : Nat) (f : Slot → Slot) : (s.modSlot k f).ports = s.ports := rfl
@[simp] theorem State.modSlot_funcs (k : Nat) (f : Slot → Slot) : (s.modSlot k f).funcs = s.funcs := rfl
@[simp] theorem State.modSlot_tenants (k : Nat) (f : Slot → Slot) : (s.modSlot k f).tenants = s.tenants := rfl
@[simp] theorem State.modSlot_beds (k : Nat) (f : Slot → Slot) : (s.modSlot k f).beds = s.beds := rfl
@[simp] theorem State.modSlot_grains (k : Nat) (f : Slot → Slot) : (s.modSlot k f).grains = s.grains := rfl
@[simp] theorem State.modSlot_quads (k : Nat) (f : Slot → Slot) : (s.modSlot k f).quads = s.quads := rfl
@[simp] theorem State.modSlot_engines (k : Nat) (f : Slot → Slot) : (s.modSlot k f).engines = s.engines := rfl
@[simp] theorem State.modSlot_vault (k : Nat) (f : Slot → Slot) : (s.modSlot k f).vault = { s.vault with slots := s.vault.slots.modify k {} f } := rfl
@[simp] theorem State.modSlot_grade (k : Nat) (f : Slot → Slot) : (s.modSlot k f).grade = s.grade := rfl
@[simp] theorem State.modSlot_uid (k : Nat) (f : Slot → Slot) : (s.modSlot k f).uid = s.uid := rfl
@[simp] theorem State.modSlot_rtc (k : Nat) (f : Slot → Slot) : (s.modSlot k f).rtc = s.rtc := rfl
@[simp] theorem State.modSlot_power (k : Nat) (f : Slot → Slot) : (s.modSlot k f).power = s.power := rfl
@[simp] theorem State.modSlot_boot (k : Nat) (f : Slot → Slot) : (s.modSlot k f).boot = s.boot := rfl
@[simp] theorem State.modSlot_hzn (k : Nat) (f : Slot → Slot) : (s.modSlot k f).hzn = s.hzn := rfl
@[simp] theorem State.modSlot_rng (k : Nat) (f : Slot → Slot) : (s.modSlot k f).rng = s.rng := rfl
@[simp] theorem State.modSlot_life (k : Nat) (f : Slot → Slot) : (s.modSlot k f).life = s.life := rfl
@[simp] theorem State.modSlot_uncel (k : Nat) (f : Slot → Slot) : (s.modSlot k f).uncel = s.uncel := rfl
@[simp] theorem State.modSlot_digests (k : Nat) (f : Slot → Slot) : (s.modSlot k f).digests = s.digests := rfl
@[simp] theorem State.modSlot_spdm (k : Nat) (f : Slot → Slot) : (s.modSlot k f).spdm = s.spdm := rfl
@[simp] theorem State.modSlot_tamper (k : Nat) (f : Slot → Slot) : (s.modSlot k f).tamper = s.tamper := rfl
@[simp] theorem State.modSlot_tamperCfg (k : Nat) (f : Slot → Slot) : (s.modSlot k f).tamperCfg = s.tamperCfg := rfl
@[simp] theorem State.modSlot_pgd (k : Nat) (f : Slot → Slot) : (s.modSlot k f).pgd = s.pgd := rfl
@[simp] theorem State.modSlot_obs (k : Nat) (f : Slot → Slot) : (s.modSlot k f).obs = s.obs := rfl
@[simp] theorem State.modSlot_i3c (k : Nat) (f : Slot → Slot) : (s.modSlot k f).i3c = s.i3c := rfl

@[simp] theorem State.modCtx_pending (k : Nat) (f : Ctx → Ctx) : (s.modCtx k f).pending = s.pending := rfl
@[simp] theorem State.modCtx_free (k : Nat) (f : Ctx → Ctx) : (s.modCtx k f).free = s.free := rfl
@[simp] theorem State.modCtx_out (k : Nat) (f : Ctx → Ctx) : (s.modCtx k f).out = s.out := rfl
@[simp] theorem State.modCtx_nextJob (k : Nat) (f : Ctx → Ctx) : (s.modCtx k f).nextJob = s.nextJob := rfl
@[simp] theorem State.modCtx_sq (k : Nat) (f : Ctx → Ctx) : (s.modCtx k f).sq = s.sq := rfl
@[simp] theorem State.modCtx_glb (k : Nat) (f : Ctx → Ctx) : (s.modCtx k f).glb = s.glb := rfl
@[simp] theorem State.modCtx_glbPf (k : Nat) (f : Ctx → Ctx) : (s.modCtx k f).glbPf = s.glbPf := rfl
@[simp] theorem State.modCtx_guard (k : Nat) (f : Ctx → Ctx) : (s.modCtx k f).guard = s.guard := rfl
@[simp] theorem State.modCtx_posted (k : Nat) (f : Ctx → Ctx) : (s.modCtx k f).posted = s.posted := rfl
@[simp] theorem State.modCtx_queues (k : Nat) (f : Ctx → Ctx) : (s.modCtx k f).queues = s.queues := rfl
@[simp] theorem State.modCtx_jobs (k : Nat) (f : Ctx → Ctx) : (s.modCtx k f).jobs = s.jobs := rfl
@[simp] theorem State.modCtx_ports (k : Nat) (f : Ctx → Ctx) : (s.modCtx k f).ports = s.ports := rfl
@[simp] theorem State.modCtx_funcs (k : Nat) (f : Ctx → Ctx) : (s.modCtx k f).funcs = s.funcs := rfl
@[simp] theorem State.modCtx_tenants (k : Nat) (f : Ctx → Ctx) : (s.modCtx k f).tenants = s.tenants := rfl
@[simp] theorem State.modCtx_beds (k : Nat) (f : Ctx → Ctx) : (s.modCtx k f).beds = s.beds := rfl
@[simp] theorem State.modCtx_grains (k : Nat) (f : Ctx → Ctx) : (s.modCtx k f).grains = s.grains := rfl
@[simp] theorem State.modCtx_quads (k : Nat) (f : Ctx → Ctx) : (s.modCtx k f).quads = s.quads := rfl
@[simp] theorem State.modCtx_engines (k : Nat) (f : Ctx → Ctx) : (s.modCtx k f).engines = s.engines := rfl
@[simp] theorem State.modCtx_vault (k : Nat) (f : Ctx → Ctx) : (s.modCtx k f).vault = { s.vault with ctxs := s.vault.ctxs.modify k {} f } := rfl
@[simp] theorem State.modCtx_grade (k : Nat) (f : Ctx → Ctx) : (s.modCtx k f).grade = s.grade := rfl
@[simp] theorem State.modCtx_uid (k : Nat) (f : Ctx → Ctx) : (s.modCtx k f).uid = s.uid := rfl
@[simp] theorem State.modCtx_rtc (k : Nat) (f : Ctx → Ctx) : (s.modCtx k f).rtc = s.rtc := rfl
@[simp] theorem State.modCtx_power (k : Nat) (f : Ctx → Ctx) : (s.modCtx k f).power = s.power := rfl
@[simp] theorem State.modCtx_boot (k : Nat) (f : Ctx → Ctx) : (s.modCtx k f).boot = s.boot := rfl
@[simp] theorem State.modCtx_hzn (k : Nat) (f : Ctx → Ctx) : (s.modCtx k f).hzn = s.hzn := rfl
@[simp] theorem State.modCtx_rng (k : Nat) (f : Ctx → Ctx) : (s.modCtx k f).rng = s.rng := rfl
@[simp] theorem State.modCtx_life (k : Nat) (f : Ctx → Ctx) : (s.modCtx k f).life = s.life := rfl
@[simp] theorem State.modCtx_uncel (k : Nat) (f : Ctx → Ctx) : (s.modCtx k f).uncel = s.uncel := rfl
@[simp] theorem State.modCtx_digests (k : Nat) (f : Ctx → Ctx) : (s.modCtx k f).digests = s.digests := rfl
@[simp] theorem State.modCtx_spdm (k : Nat) (f : Ctx → Ctx) : (s.modCtx k f).spdm = s.spdm := rfl
@[simp] theorem State.modCtx_tamper (k : Nat) (f : Ctx → Ctx) : (s.modCtx k f).tamper = s.tamper := rfl
@[simp] theorem State.modCtx_tamperCfg (k : Nat) (f : Ctx → Ctx) : (s.modCtx k f).tamperCfg = s.tamperCfg := rfl
@[simp] theorem State.modCtx_pgd (k : Nat) (f : Ctx → Ctx) : (s.modCtx k f).pgd = s.pgd := rfl
@[simp] theorem State.modCtx_obs (k : Nat) (f : Ctx → Ctx) : (s.modCtx k f).obs = s.obs := rfl
@[simp] theorem State.modCtx_i3c (k : Nat) (f : Ctx → Ctx) : (s.modCtx k f).i3c = s.i3c := rfl

@[simp] theorem State.modSq_pending (k : SqId) (f : Sq → Sq) : (s.modSq k f).pending = s.pending := rfl
@[simp] theorem State.modSq_free (k : SqId) (f : Sq → Sq) : (s.modSq k f).free = s.free := rfl
@[simp] theorem State.modSq_out (k : SqId) (f : Sq → Sq) : (s.modSq k f).out = s.out := rfl
@[simp] theorem State.modSq_nextJob (k : SqId) (f : Sq → Sq) : (s.modSq k f).nextJob = s.nextJob := rfl
@[simp] theorem State.modSq_sq (k : SqId) (f : Sq → Sq) : (s.modSq k f).sq = s.sq.modify (sqKey k) {} f := rfl
@[simp] theorem State.modSq_glb (k : SqId) (f : Sq → Sq) : (s.modSq k f).glb = s.glb := rfl
@[simp] theorem State.modSq_glbPf (k : SqId) (f : Sq → Sq) : (s.modSq k f).glbPf = s.glbPf := rfl
@[simp] theorem State.modSq_guard (k : SqId) (f : Sq → Sq) : (s.modSq k f).guard = s.guard := rfl
@[simp] theorem State.modSq_posted (k : SqId) (f : Sq → Sq) : (s.modSq k f).posted = s.posted := rfl
@[simp] theorem State.modSq_queues (k : SqId) (f : Sq → Sq) : (s.modSq k f).queues = s.queues := rfl
@[simp] theorem State.modSq_jobs (k : SqId) (f : Sq → Sq) : (s.modSq k f).jobs = s.jobs := rfl
@[simp] theorem State.modSq_ports (k : SqId) (f : Sq → Sq) : (s.modSq k f).ports = s.ports := rfl
@[simp] theorem State.modSq_funcs (k : SqId) (f : Sq → Sq) : (s.modSq k f).funcs = s.funcs := rfl
@[simp] theorem State.modSq_tenants (k : SqId) (f : Sq → Sq) : (s.modSq k f).tenants = s.tenants := rfl
@[simp] theorem State.modSq_beds (k : SqId) (f : Sq → Sq) : (s.modSq k f).beds = s.beds := rfl
@[simp] theorem State.modSq_grains (k : SqId) (f : Sq → Sq) : (s.modSq k f).grains = s.grains := rfl
@[simp] theorem State.modSq_quads (k : SqId) (f : Sq → Sq) : (s.modSq k f).quads = s.quads := rfl
@[simp] theorem State.modSq_engines (k : SqId) (f : Sq → Sq) : (s.modSq k f).engines = s.engines := rfl
@[simp] theorem State.modSq_vault (k : SqId) (f : Sq → Sq) : (s.modSq k f).vault = s.vault := rfl
@[simp] theorem State.modSq_grade (k : SqId) (f : Sq → Sq) : (s.modSq k f).grade = s.grade := rfl
@[simp] theorem State.modSq_uid (k : SqId) (f : Sq → Sq) : (s.modSq k f).uid = s.uid := rfl
@[simp] theorem State.modSq_rtc (k : SqId) (f : Sq → Sq) : (s.modSq k f).rtc = s.rtc := rfl
@[simp] theorem State.modSq_power (k : SqId) (f : Sq → Sq) : (s.modSq k f).power = s.power := rfl
@[simp] theorem State.modSq_boot (k : SqId) (f : Sq → Sq) : (s.modSq k f).boot = s.boot := rfl
@[simp] theorem State.modSq_hzn (k : SqId) (f : Sq → Sq) : (s.modSq k f).hzn = s.hzn := rfl
@[simp] theorem State.modSq_rng (k : SqId) (f : Sq → Sq) : (s.modSq k f).rng = s.rng := rfl
@[simp] theorem State.modSq_life (k : SqId) (f : Sq → Sq) : (s.modSq k f).life = s.life := rfl
@[simp] theorem State.modSq_uncel (k : SqId) (f : Sq → Sq) : (s.modSq k f).uncel = s.uncel := rfl
@[simp] theorem State.modSq_digests (k : SqId) (f : Sq → Sq) : (s.modSq k f).digests = s.digests := rfl
@[simp] theorem State.modSq_spdm (k : SqId) (f : Sq → Sq) : (s.modSq k f).spdm = s.spdm := rfl
@[simp] theorem State.modSq_tamper (k : SqId) (f : Sq → Sq) : (s.modSq k f).tamper = s.tamper := rfl
@[simp] theorem State.modSq_tamperCfg (k : SqId) (f : Sq → Sq) : (s.modSq k f).tamperCfg = s.tamperCfg := rfl
@[simp] theorem State.modSq_pgd (k : SqId) (f : Sq → Sq) : (s.modSq k f).pgd = s.pgd := rfl
@[simp] theorem State.modSq_obs (k : SqId) (f : Sq → Sq) : (s.modSq k f).obs = s.obs := rfl
@[simp] theorem State.modSq_i3c (k : SqId) (f : Sq → Sq) : (s.modSq k f).i3c = s.i3c := rfl

@[simp] theorem State.modPosted_pending (k : PostedBlock) (f : Posted → Posted) : (s.modPosted k f).pending = s.pending := rfl
@[simp] theorem State.modPosted_free (k : PostedBlock) (f : Posted → Posted) : (s.modPosted k f).free = s.free := rfl
@[simp] theorem State.modPosted_out (k : PostedBlock) (f : Posted → Posted) : (s.modPosted k f).out = s.out := rfl
@[simp] theorem State.modPosted_nextJob (k : PostedBlock) (f : Posted → Posted) : (s.modPosted k f).nextJob = s.nextJob := rfl
@[simp] theorem State.modPosted_sq (k : PostedBlock) (f : Posted → Posted) : (s.modPosted k f).sq = s.sq := rfl
@[simp] theorem State.modPosted_glb (k : PostedBlock) (f : Posted → Posted) : (s.modPosted k f).glb = s.glb := rfl
@[simp] theorem State.modPosted_glbPf (k : PostedBlock) (f : Posted → Posted) : (s.modPosted k f).glbPf = s.glbPf := rfl
@[simp] theorem State.modPosted_guard (k : PostedBlock) (f : Posted → Posted) : (s.modPosted k f).guard = s.guard := rfl
@[simp] theorem State.modPosted_posted (k : PostedBlock) (f : Posted → Posted) : (s.modPosted k f).posted = s.posted.modify (blockKey k) {} f := rfl
@[simp] theorem State.modPosted_queues (k : PostedBlock) (f : Posted → Posted) : (s.modPosted k f).queues = s.queues := rfl
@[simp] theorem State.modPosted_jobs (k : PostedBlock) (f : Posted → Posted) : (s.modPosted k f).jobs = s.jobs := rfl
@[simp] theorem State.modPosted_ports (k : PostedBlock) (f : Posted → Posted) : (s.modPosted k f).ports = s.ports := rfl
@[simp] theorem State.modPosted_funcs (k : PostedBlock) (f : Posted → Posted) : (s.modPosted k f).funcs = s.funcs := rfl
@[simp] theorem State.modPosted_tenants (k : PostedBlock) (f : Posted → Posted) : (s.modPosted k f).tenants = s.tenants := rfl
@[simp] theorem State.modPosted_beds (k : PostedBlock) (f : Posted → Posted) : (s.modPosted k f).beds = s.beds := rfl
@[simp] theorem State.modPosted_grains (k : PostedBlock) (f : Posted → Posted) : (s.modPosted k f).grains = s.grains := rfl
@[simp] theorem State.modPosted_quads (k : PostedBlock) (f : Posted → Posted) : (s.modPosted k f).quads = s.quads := rfl
@[simp] theorem State.modPosted_engines (k : PostedBlock) (f : Posted → Posted) : (s.modPosted k f).engines = s.engines := rfl
@[simp] theorem State.modPosted_vault (k : PostedBlock) (f : Posted → Posted) : (s.modPosted k f).vault = s.vault := rfl
@[simp] theorem State.modPosted_grade (k : PostedBlock) (f : Posted → Posted) : (s.modPosted k f).grade = s.grade := rfl
@[simp] theorem State.modPosted_uid (k : PostedBlock) (f : Posted → Posted) : (s.modPosted k f).uid = s.uid := rfl
@[simp] theorem State.modPosted_rtc (k : PostedBlock) (f : Posted → Posted) : (s.modPosted k f).rtc = s.rtc := rfl
@[simp] theorem State.modPosted_power (k : PostedBlock) (f : Posted → Posted) : (s.modPosted k f).power = s.power := rfl
@[simp] theorem State.modPosted_boot (k : PostedBlock) (f : Posted → Posted) : (s.modPosted k f).boot = s.boot := rfl
@[simp] theorem State.modPosted_hzn (k : PostedBlock) (f : Posted → Posted) : (s.modPosted k f).hzn = s.hzn := rfl
@[simp] theorem State.modPosted_rng (k : PostedBlock) (f : Posted → Posted) : (s.modPosted k f).rng = s.rng := rfl
@[simp] theorem State.modPosted_life (k : PostedBlock) (f : Posted → Posted) : (s.modPosted k f).life = s.life := rfl
@[simp] theorem State.modPosted_uncel (k : PostedBlock) (f : Posted → Posted) : (s.modPosted k f).uncel = s.uncel := rfl
@[simp] theorem State.modPosted_digests (k : PostedBlock) (f : Posted → Posted) : (s.modPosted k f).digests = s.digests := rfl
@[simp] theorem State.modPosted_spdm (k : PostedBlock) (f : Posted → Posted) : (s.modPosted k f).spdm = s.spdm := rfl
@[simp] theorem State.modPosted_tamper (k : PostedBlock) (f : Posted → Posted) : (s.modPosted k f).tamper = s.tamper := rfl
@[simp] theorem State.modPosted_tamperCfg (k : PostedBlock) (f : Posted → Posted) : (s.modPosted k f).tamperCfg = s.tamperCfg := rfl
@[simp] theorem State.modPosted_pgd (k : PostedBlock) (f : Posted → Posted) : (s.modPosted k f).pgd = s.pgd := rfl
@[simp] theorem State.modPosted_obs (k : PostedBlock) (f : Posted → Posted) : (s.modPosted k f).obs = s.obs := rfl
@[simp] theorem State.modPosted_i3c (k : PostedBlock) (f : Posted → Posted) : (s.modPosted k f).i3c = s.i3c := rfl

@[simp] theorem State.modDigest_pending (k : Nat) (f : Digest → Digest) : (s.modDigest k f).pending = s.pending := rfl
@[simp] theorem State.modDigest_free (k : Nat) (f : Digest → Digest) : (s.modDigest k f).free = s.free := rfl
@[simp] theorem State.modDigest_out (k : Nat) (f : Digest → Digest) : (s.modDigest k f).out = s.out := rfl
@[simp] theorem State.modDigest_nextJob (k : Nat) (f : Digest → Digest) : (s.modDigest k f).nextJob = s.nextJob := rfl
@[simp] theorem State.modDigest_sq (k : Nat) (f : Digest → Digest) : (s.modDigest k f).sq = s.sq := rfl
@[simp] theorem State.modDigest_glb (k : Nat) (f : Digest → Digest) : (s.modDigest k f).glb = s.glb := rfl
@[simp] theorem State.modDigest_glbPf (k : Nat) (f : Digest → Digest) : (s.modDigest k f).glbPf = s.glbPf := rfl
@[simp] theorem State.modDigest_guard (k : Nat) (f : Digest → Digest) : (s.modDigest k f).guard = s.guard := rfl
@[simp] theorem State.modDigest_posted (k : Nat) (f : Digest → Digest) : (s.modDigest k f).posted = s.posted := rfl
@[simp] theorem State.modDigest_queues (k : Nat) (f : Digest → Digest) : (s.modDigest k f).queues = s.queues := rfl
@[simp] theorem State.modDigest_jobs (k : Nat) (f : Digest → Digest) : (s.modDigest k f).jobs = s.jobs := rfl
@[simp] theorem State.modDigest_ports (k : Nat) (f : Digest → Digest) : (s.modDigest k f).ports = s.ports := rfl
@[simp] theorem State.modDigest_funcs (k : Nat) (f : Digest → Digest) : (s.modDigest k f).funcs = s.funcs := rfl
@[simp] theorem State.modDigest_tenants (k : Nat) (f : Digest → Digest) : (s.modDigest k f).tenants = s.tenants := rfl
@[simp] theorem State.modDigest_beds (k : Nat) (f : Digest → Digest) : (s.modDigest k f).beds = s.beds := rfl
@[simp] theorem State.modDigest_grains (k : Nat) (f : Digest → Digest) : (s.modDigest k f).grains = s.grains := rfl
@[simp] theorem State.modDigest_quads (k : Nat) (f : Digest → Digest) : (s.modDigest k f).quads = s.quads := rfl
@[simp] theorem State.modDigest_engines (k : Nat) (f : Digest → Digest) : (s.modDigest k f).engines = s.engines := rfl
@[simp] theorem State.modDigest_vault (k : Nat) (f : Digest → Digest) : (s.modDigest k f).vault = s.vault := rfl
@[simp] theorem State.modDigest_grade (k : Nat) (f : Digest → Digest) : (s.modDigest k f).grade = s.grade := rfl
@[simp] theorem State.modDigest_uid (k : Nat) (f : Digest → Digest) : (s.modDigest k f).uid = s.uid := rfl
@[simp] theorem State.modDigest_rtc (k : Nat) (f : Digest → Digest) : (s.modDigest k f).rtc = s.rtc := rfl
@[simp] theorem State.modDigest_power (k : Nat) (f : Digest → Digest) : (s.modDigest k f).power = s.power := rfl
@[simp] theorem State.modDigest_boot (k : Nat) (f : Digest → Digest) : (s.modDigest k f).boot = s.boot := rfl
@[simp] theorem State.modDigest_hzn (k : Nat) (f : Digest → Digest) : (s.modDigest k f).hzn = s.hzn := rfl
@[simp] theorem State.modDigest_rng (k : Nat) (f : Digest → Digest) : (s.modDigest k f).rng = s.rng := rfl
@[simp] theorem State.modDigest_life (k : Nat) (f : Digest → Digest) : (s.modDigest k f).life = s.life := rfl
@[simp] theorem State.modDigest_uncel (k : Nat) (f : Digest → Digest) : (s.modDigest k f).uncel = s.uncel := rfl
@[simp] theorem State.modDigest_digests (k : Nat) (f : Digest → Digest) : (s.modDigest k f).digests = s.digests.modify k {} f := rfl
@[simp] theorem State.modDigest_spdm (k : Nat) (f : Digest → Digest) : (s.modDigest k f).spdm = s.spdm := rfl
@[simp] theorem State.modDigest_tamper (k : Nat) (f : Digest → Digest) : (s.modDigest k f).tamper = s.tamper := rfl
@[simp] theorem State.modDigest_tamperCfg (k : Nat) (f : Digest → Digest) : (s.modDigest k f).tamperCfg = s.tamperCfg := rfl
@[simp] theorem State.modDigest_pgd (k : Nat) (f : Digest → Digest) : (s.modDigest k f).pgd = s.pgd := rfl
@[simp] theorem State.modDigest_obs (k : Nat) (f : Digest → Digest) : (s.modDigest k f).obs = s.obs := rfl
@[simp] theorem State.modDigest_i3c (k : Nat) (f : Digest → Digest) : (s.modDigest k f).i3c = s.i3c := rfl

@[simp] theorem State.modCounters_pending (k : Nat) (f : Counters → Counters) : (s.modCounters k f).pending = s.pending := rfl
@[simp] theorem State.modCounters_free (k : Nat) (f : Counters → Counters) : (s.modCounters k f).free = s.free := rfl
@[simp] theorem State.modCounters_out (k : Nat) (f : Counters → Counters) : (s.modCounters k f).out = s.out := rfl
@[simp] theorem State.modCounters_nextJob (k : Nat) (f : Counters → Counters) : (s.modCounters k f).nextJob = s.nextJob := rfl
@[simp] theorem State.modCounters_sq (k : Nat) (f : Counters → Counters) : (s.modCounters k f).sq = s.sq := rfl
@[simp] theorem State.modCounters_glb (k : Nat) (f : Counters → Counters) : (s.modCounters k f).glb = s.glb := rfl
@[simp] theorem State.modCounters_glbPf (k : Nat) (f : Counters → Counters) : (s.modCounters k f).glbPf = s.glbPf := rfl
@[simp] theorem State.modCounters_guard (k : Nat) (f : Counters → Counters) : (s.modCounters k f).guard = s.guard := rfl
@[simp] theorem State.modCounters_posted (k : Nat) (f : Counters → Counters) : (s.modCounters k f).posted = s.posted := rfl
@[simp] theorem State.modCounters_queues (k : Nat) (f : Counters → Counters) : (s.modCounters k f).queues = s.queues := rfl
@[simp] theorem State.modCounters_jobs (k : Nat) (f : Counters → Counters) : (s.modCounters k f).jobs = s.jobs := rfl
@[simp] theorem State.modCounters_ports (k : Nat) (f : Counters → Counters) : (s.modCounters k f).ports = s.ports := rfl
@[simp] theorem State.modCounters_funcs (k : Nat) (f : Counters → Counters) : (s.modCounters k f).funcs = s.funcs := rfl
@[simp] theorem State.modCounters_tenants (k : Nat) (f : Counters → Counters) : (s.modCounters k f).tenants = s.tenants := rfl
@[simp] theorem State.modCounters_beds (k : Nat) (f : Counters → Counters) : (s.modCounters k f).beds = s.beds := rfl
@[simp] theorem State.modCounters_grains (k : Nat) (f : Counters → Counters) : (s.modCounters k f).grains = s.grains := rfl
@[simp] theorem State.modCounters_quads (k : Nat) (f : Counters → Counters) : (s.modCounters k f).quads = s.quads := rfl
@[simp] theorem State.modCounters_engines (k : Nat) (f : Counters → Counters) : (s.modCounters k f).engines = s.engines := rfl
@[simp] theorem State.modCounters_vault (k : Nat) (f : Counters → Counters) : (s.modCounters k f).vault = s.vault := rfl
@[simp] theorem State.modCounters_grade (k : Nat) (f : Counters → Counters) : (s.modCounters k f).grade = s.grade := rfl
@[simp] theorem State.modCounters_uid (k : Nat) (f : Counters → Counters) : (s.modCounters k f).uid = s.uid := rfl
@[simp] theorem State.modCounters_rtc (k : Nat) (f : Counters → Counters) : (s.modCounters k f).rtc = s.rtc := rfl
@[simp] theorem State.modCounters_power (k : Nat) (f : Counters → Counters) : (s.modCounters k f).power = s.power := rfl
@[simp] theorem State.modCounters_boot (k : Nat) (f : Counters → Counters) : (s.modCounters k f).boot = s.boot := rfl
@[simp] theorem State.modCounters_hzn (k : Nat) (f : Counters → Counters) : (s.modCounters k f).hzn = s.hzn := rfl
@[simp] theorem State.modCounters_rng (k : Nat) (f : Counters → Counters) : (s.modCounters k f).rng = s.rng := rfl
@[simp] theorem State.modCounters_life (k : Nat) (f : Counters → Counters) : (s.modCounters k f).life = s.life := rfl
@[simp] theorem State.modCounters_uncel (k : Nat) (f : Counters → Counters) : (s.modCounters k f).uncel = s.uncel := rfl
@[simp] theorem State.modCounters_digests (k : Nat) (f : Counters → Counters) : (s.modCounters k f).digests = s.digests := rfl
@[simp] theorem State.modCounters_spdm (k : Nat) (f : Counters → Counters) : (s.modCounters k f).spdm = s.spdm := rfl
@[simp] theorem State.modCounters_tamper (k : Nat) (f : Counters → Counters) : (s.modCounters k f).tamper = s.tamper := rfl
@[simp] theorem State.modCounters_tamperCfg (k : Nat) (f : Counters → Counters) : (s.modCounters k f).tamperCfg = s.tamperCfg := rfl
@[simp] theorem State.modCounters_pgd (k : Nat) (f : Counters → Counters) : (s.modCounters k f).pgd = s.pgd := rfl
@[simp] theorem State.modCounters_obs (k : Nat) (f : Counters → Counters) : (s.modCounters k f).obs = { s.obs with counters := s.obs.counters.modify k {} f } := rfl
@[simp] theorem State.modCounters_i3c (k : Nat) (f : Counters → Counters) : (s.modCounters k f).i3c = s.i3c := rfl

@[simp] theorem State.modChan_pending (k : Nat) (f : Chan → Chan) : (s.modChan k f).pending = s.pending := rfl
@[simp] theorem State.modChan_free (k : Nat) (f : Chan → Chan) : (s.modChan k f).free = s.free := rfl
@[simp] theorem State.modChan_out (k : Nat) (f : Chan → Chan) : (s.modChan k f).out = s.out := rfl
@[simp] theorem State.modChan_nextJob (k : Nat) (f : Chan → Chan) : (s.modChan k f).nextJob = s.nextJob := rfl
@[simp] theorem State.modChan_sq (k : Nat) (f : Chan → Chan) : (s.modChan k f).sq = s.sq := rfl
@[simp] theorem State.modChan_glb (k : Nat) (f : Chan → Chan) : (s.modChan k f).glb = s.glb := rfl
@[simp] theorem State.modChan_glbPf (k : Nat) (f : Chan → Chan) : (s.modChan k f).glbPf = s.glbPf := rfl
@[simp] theorem State.modChan_guard (k : Nat) (f : Chan → Chan) : (s.modChan k f).guard = s.guard := rfl
@[simp] theorem State.modChan_posted (k : Nat) (f : Chan → Chan) : (s.modChan k f).posted = s.posted := rfl
@[simp] theorem State.modChan_queues (k : Nat) (f : Chan → Chan) : (s.modChan k f).queues = s.queues := rfl
@[simp] theorem State.modChan_jobs (k : Nat) (f : Chan → Chan) : (s.modChan k f).jobs = s.jobs := rfl
@[simp] theorem State.modChan_ports (k : Nat) (f : Chan → Chan) : (s.modChan k f).ports = s.ports := rfl
@[simp] theorem State.modChan_funcs (k : Nat) (f : Chan → Chan) : (s.modChan k f).funcs = s.funcs := rfl
@[simp] theorem State.modChan_tenants (k : Nat) (f : Chan → Chan) : (s.modChan k f).tenants = s.tenants := rfl
@[simp] theorem State.modChan_beds (k : Nat) (f : Chan → Chan) : (s.modChan k f).beds = s.beds := rfl
@[simp] theorem State.modChan_grains (k : Nat) (f : Chan → Chan) : (s.modChan k f).grains = s.grains := rfl
@[simp] theorem State.modChan_quads (k : Nat) (f : Chan → Chan) : (s.modChan k f).quads = s.quads := rfl
@[simp] theorem State.modChan_engines (k : Nat) (f : Chan → Chan) : (s.modChan k f).engines = s.engines := rfl
@[simp] theorem State.modChan_vault (k : Nat) (f : Chan → Chan) : (s.modChan k f).vault = s.vault := rfl
@[simp] theorem State.modChan_grade (k : Nat) (f : Chan → Chan) : (s.modChan k f).grade = s.grade := rfl
@[simp] theorem State.modChan_uid (k : Nat) (f : Chan → Chan) : (s.modChan k f).uid = s.uid := rfl
@[simp] theorem State.modChan_rtc (k : Nat) (f : Chan → Chan) : (s.modChan k f).rtc = s.rtc := rfl
@[simp] theorem State.modChan_power (k : Nat) (f : Chan → Chan) : (s.modChan k f).power = s.power := rfl
@[simp] theorem State.modChan_boot (k : Nat) (f : Chan → Chan) : (s.modChan k f).boot = s.boot := rfl
@[simp] theorem State.modChan_hzn (k : Nat) (f : Chan → Chan) : (s.modChan k f).hzn = s.hzn := rfl
@[simp] theorem State.modChan_rng (k : Nat) (f : Chan → Chan) : (s.modChan k f).rng = s.rng := rfl
@[simp] theorem State.modChan_life (k : Nat) (f : Chan → Chan) : (s.modChan k f).life = s.life := rfl
@[simp] theorem State.modChan_uncel (k : Nat) (f : Chan → Chan) : (s.modChan k f).uncel = s.uncel := rfl
@[simp] theorem State.modChan_digests (k : Nat) (f : Chan → Chan) : (s.modChan k f).digests = s.digests := rfl
@[simp] theorem State.modChan_spdm (k : Nat) (f : Chan → Chan) : (s.modChan k f).spdm = s.spdm := rfl
@[simp] theorem State.modChan_tamper (k : Nat) (f : Chan → Chan) : (s.modChan k f).tamper = s.tamper := rfl
@[simp] theorem State.modChan_tamperCfg (k : Nat) (f : Chan → Chan) : (s.modChan k f).tamperCfg = s.tamperCfg := rfl
@[simp] theorem State.modChan_pgd (k : Nat) (f : Chan → Chan) : (s.modChan k f).pgd = { s.pgd with chans := s.pgd.chans.modify k {} f } := rfl
@[simp] theorem State.modChan_obs (k : Nat) (f : Chan → Chan) : (s.modChan k f).obs = s.obs := rfl
@[simp] theorem State.modChan_i3c (k : Nat) (f : Chan → Chan) : (s.modChan k f).i3c = s.i3c := rfl

@[simp] theorem State.modRegion_pending (k : Nat) (f : Region → Region) : (s.modRegion k f).pending = s.pending := rfl
@[simp] theorem State.modRegion_free (k : Nat) (f : Region → Region) : (s.modRegion k f).free = s.free := rfl
@[simp] theorem State.modRegion_out (k : Nat) (f : Region → Region) : (s.modRegion k f).out = s.out := rfl
@[simp] theorem State.modRegion_nextJob (k : Nat) (f : Region → Region) : (s.modRegion k f).nextJob = s.nextJob := rfl
@[simp] theorem State.modRegion_sq (k : Nat) (f : Region → Region) : (s.modRegion k f).sq = s.sq := rfl
@[simp] theorem State.modRegion_glb (k : Nat) (f : Region → Region) : (s.modRegion k f).glb = s.glb := rfl
@[simp] theorem State.modRegion_glbPf (k : Nat) (f : Region → Region) : (s.modRegion k f).glbPf = s.glbPf := rfl
@[simp] theorem State.modRegion_guard (k : Nat) (f : Region → Region) : (s.modRegion k f).guard = s.guard := rfl
@[simp] theorem State.modRegion_posted (k : Nat) (f : Region → Region) : (s.modRegion k f).posted = s.posted := rfl
@[simp] theorem State.modRegion_queues (k : Nat) (f : Region → Region) : (s.modRegion k f).queues = s.queues := rfl
@[simp] theorem State.modRegion_jobs (k : Nat) (f : Region → Region) : (s.modRegion k f).jobs = s.jobs := rfl
@[simp] theorem State.modRegion_ports (k : Nat) (f : Region → Region) : (s.modRegion k f).ports = s.ports := rfl
@[simp] theorem State.modRegion_funcs (k : Nat) (f : Region → Region) : (s.modRegion k f).funcs = s.funcs := rfl
@[simp] theorem State.modRegion_tenants (k : Nat) (f : Region → Region) : (s.modRegion k f).tenants = s.tenants := rfl
@[simp] theorem State.modRegion_beds (k : Nat) (f : Region → Region) : (s.modRegion k f).beds = s.beds := rfl
@[simp] theorem State.modRegion_grains (k : Nat) (f : Region → Region) : (s.modRegion k f).grains = s.grains := rfl
@[simp] theorem State.modRegion_quads (k : Nat) (f : Region → Region) : (s.modRegion k f).quads = s.quads := rfl
@[simp] theorem State.modRegion_engines (k : Nat) (f : Region → Region) : (s.modRegion k f).engines = s.engines := rfl
@[simp] theorem State.modRegion_vault (k : Nat) (f : Region → Region) : (s.modRegion k f).vault = s.vault := rfl
@[simp] theorem State.modRegion_grade (k : Nat) (f : Region → Region) : (s.modRegion k f).grade = s.grade := rfl
@[simp] theorem State.modRegion_uid (k : Nat) (f : Region → Region) : (s.modRegion k f).uid = s.uid := rfl
@[simp] theorem State.modRegion_rtc (k : Nat) (f : Region → Region) : (s.modRegion k f).rtc = s.rtc := rfl
@[simp] theorem State.modRegion_power (k : Nat) (f : Region → Region) : (s.modRegion k f).power = s.power := rfl
@[simp] theorem State.modRegion_hzn (k : Nat) (f : Region → Region) : (s.modRegion k f).hzn = s.hzn := rfl
@[simp] theorem State.modRegion_rng (k : Nat) (f : Region → Region) : (s.modRegion k f).rng = s.rng := rfl
@[simp] theorem State.modRegion_life (k : Nat) (f : Region → Region) : (s.modRegion k f).life = s.life := rfl
@[simp] theorem State.modRegion_uncel (k : Nat) (f : Region → Region) : (s.modRegion k f).uncel = s.uncel := rfl
@[simp] theorem State.modRegion_digests (k : Nat) (f : Region → Region) : (s.modRegion k f).digests = s.digests := rfl
@[simp] theorem State.modRegion_spdm (k : Nat) (f : Region → Region) : (s.modRegion k f).spdm = s.spdm := rfl
@[simp] theorem State.modRegion_tamper (k : Nat) (f : Region → Region) : (s.modRegion k f).tamper = s.tamper := rfl
@[simp] theorem State.modRegion_tamperCfg (k : Nat) (f : Region → Region) : (s.modRegion k f).tamperCfg = s.tamperCfg := rfl
@[simp] theorem State.modRegion_pgd (k : Nat) (f : Region → Region) : (s.modRegion k f).pgd = s.pgd := rfl
@[simp] theorem State.modRegion_obs (k : Nat) (f : Region → Region) : (s.modRegion k f).obs = s.obs := rfl
@[simp] theorem State.modRegion_i3c (k : Nat) (f : Region → Region) : (s.modRegion k f).i3c = s.i3c := rfl

@[simp] theorem State.modSource_pending (k : Nat) (f : Source → Source) : (s.modSource k f).pending = s.pending := rfl
@[simp] theorem State.modSource_free (k : Nat) (f : Source → Source) : (s.modSource k f).free = s.free := rfl
@[simp] theorem State.modSource_out (k : Nat) (f : Source → Source) : (s.modSource k f).out = s.out := rfl
@[simp] theorem State.modSource_nextJob (k : Nat) (f : Source → Source) : (s.modSource k f).nextJob = s.nextJob := rfl
@[simp] theorem State.modSource_sq (k : Nat) (f : Source → Source) : (s.modSource k f).sq = s.sq := rfl
@[simp] theorem State.modSource_glb (k : Nat) (f : Source → Source) : (s.modSource k f).glb = s.glb := rfl
@[simp] theorem State.modSource_glbPf (k : Nat) (f : Source → Source) : (s.modSource k f).glbPf = s.glbPf := rfl
@[simp] theorem State.modSource_guard (k : Nat) (f : Source → Source) : (s.modSource k f).guard = s.guard := rfl
@[simp] theorem State.modSource_posted (k : Nat) (f : Source → Source) : (s.modSource k f).posted = s.posted := rfl
@[simp] theorem State.modSource_queues (k : Nat) (f : Source → Source) : (s.modSource k f).queues = s.queues := rfl
@[simp] theorem State.modSource_jobs (k : Nat) (f : Source → Source) : (s.modSource k f).jobs = s.jobs := rfl
@[simp] theorem State.modSource_ports (k : Nat) (f : Source → Source) : (s.modSource k f).ports = s.ports := rfl
@[simp] theorem State.modSource_funcs (k : Nat) (f : Source → Source) : (s.modSource k f).funcs = s.funcs := rfl
@[simp] theorem State.modSource_tenants (k : Nat) (f : Source → Source) : (s.modSource k f).tenants = s.tenants := rfl
@[simp] theorem State.modSource_beds (k : Nat) (f : Source → Source) : (s.modSource k f).beds = s.beds := rfl
@[simp] theorem State.modSource_grains (k : Nat) (f : Source → Source) : (s.modSource k f).grains = s.grains := rfl
@[simp] theorem State.modSource_quads (k : Nat) (f : Source → Source) : (s.modSource k f).quads = s.quads := rfl
@[simp] theorem State.modSource_engines (k : Nat) (f : Source → Source) : (s.modSource k f).engines = s.engines := rfl
@[simp] theorem State.modSource_vault (k : Nat) (f : Source → Source) : (s.modSource k f).vault = s.vault := rfl
@[simp] theorem State.modSource_grade (k : Nat) (f : Source → Source) : (s.modSource k f).grade = s.grade := rfl
@[simp] theorem State.modSource_uid (k : Nat) (f : Source → Source) : (s.modSource k f).uid = s.uid := rfl
@[simp] theorem State.modSource_rtc (k : Nat) (f : Source → Source) : (s.modSource k f).rtc = s.rtc := rfl
@[simp] theorem State.modSource_power (k : Nat) (f : Source → Source) : (s.modSource k f).power = s.power := rfl
@[simp] theorem State.modSource_boot (k : Nat) (f : Source → Source) : (s.modSource k f).boot = s.boot := rfl
@[simp] theorem State.modSource_hzn (k : Nat) (f : Source → Source) : (s.modSource k f).hzn = s.hzn := rfl
@[simp] theorem State.modSource_rng (k : Nat) (f : Source → Source) : (s.modSource k f).rng = { s.rng with sources := s.rng.sources.modify k {} f } := rfl
@[simp] theorem State.modSource_life (k : Nat) (f : Source → Source) : (s.modSource k f).life = s.life := rfl
@[simp] theorem State.modSource_uncel (k : Nat) (f : Source → Source) : (s.modSource k f).uncel = s.uncel := rfl
@[simp] theorem State.modSource_digests (k : Nat) (f : Source → Source) : (s.modSource k f).digests = s.digests := rfl
@[simp] theorem State.modSource_spdm (k : Nat) (f : Source → Source) : (s.modSource k f).spdm = s.spdm := rfl
@[simp] theorem State.modSource_tamper (k : Nat) (f : Source → Source) : (s.modSource k f).tamper = s.tamper := rfl
@[simp] theorem State.modSource_tamperCfg (k : Nat) (f : Source → Source) : (s.modSource k f).tamperCfg = s.tamperCfg := rfl
@[simp] theorem State.modSource_pgd (k : Nat) (f : Source → Source) : (s.modSource k f).pgd = s.pgd := rfl
@[simp] theorem State.modSource_obs (k : Nat) (f : Source → Source) : (s.modSource k f).obs = s.obs := rfl
@[simp] theorem State.modSource_i3c (k : Nat) (f : Source → Source) : (s.modSource k f).i3c = s.i3c := rfl

@[simp] theorem State.modDrbg_pending (k : Nat) (f : Drbg → Drbg) : (s.modDrbg k f).pending = s.pending := rfl
@[simp] theorem State.modDrbg_free (k : Nat) (f : Drbg → Drbg) : (s.modDrbg k f).free = s.free := rfl
@[simp] theorem State.modDrbg_out (k : Nat) (f : Drbg → Drbg) : (s.modDrbg k f).out = s.out := rfl
@[simp] theorem State.modDrbg_nextJob (k : Nat) (f : Drbg → Drbg) : (s.modDrbg k f).nextJob = s.nextJob := rfl
@[simp] theorem State.modDrbg_sq (k : Nat) (f : Drbg → Drbg) : (s.modDrbg k f).sq = s.sq := rfl
@[simp] theorem State.modDrbg_glb (k : Nat) (f : Drbg → Drbg) : (s.modDrbg k f).glb = s.glb := rfl
@[simp] theorem State.modDrbg_glbPf (k : Nat) (f : Drbg → Drbg) : (s.modDrbg k f).glbPf = s.glbPf := rfl
@[simp] theorem State.modDrbg_guard (k : Nat) (f : Drbg → Drbg) : (s.modDrbg k f).guard = s.guard := rfl
@[simp] theorem State.modDrbg_posted (k : Nat) (f : Drbg → Drbg) : (s.modDrbg k f).posted = s.posted := rfl
@[simp] theorem State.modDrbg_queues (k : Nat) (f : Drbg → Drbg) : (s.modDrbg k f).queues = s.queues := rfl
@[simp] theorem State.modDrbg_jobs (k : Nat) (f : Drbg → Drbg) : (s.modDrbg k f).jobs = s.jobs := rfl
@[simp] theorem State.modDrbg_ports (k : Nat) (f : Drbg → Drbg) : (s.modDrbg k f).ports = s.ports := rfl
@[simp] theorem State.modDrbg_funcs (k : Nat) (f : Drbg → Drbg) : (s.modDrbg k f).funcs = s.funcs := rfl
@[simp] theorem State.modDrbg_tenants (k : Nat) (f : Drbg → Drbg) : (s.modDrbg k f).tenants = s.tenants := rfl
@[simp] theorem State.modDrbg_beds (k : Nat) (f : Drbg → Drbg) : (s.modDrbg k f).beds = s.beds := rfl
@[simp] theorem State.modDrbg_grains (k : Nat) (f : Drbg → Drbg) : (s.modDrbg k f).grains = s.grains := rfl
@[simp] theorem State.modDrbg_quads (k : Nat) (f : Drbg → Drbg) : (s.modDrbg k f).quads = s.quads := rfl
@[simp] theorem State.modDrbg_engines (k : Nat) (f : Drbg → Drbg) : (s.modDrbg k f).engines = s.engines := rfl
@[simp] theorem State.modDrbg_vault (k : Nat) (f : Drbg → Drbg) : (s.modDrbg k f).vault = s.vault := rfl
@[simp] theorem State.modDrbg_grade (k : Nat) (f : Drbg → Drbg) : (s.modDrbg k f).grade = s.grade := rfl
@[simp] theorem State.modDrbg_uid (k : Nat) (f : Drbg → Drbg) : (s.modDrbg k f).uid = s.uid := rfl
@[simp] theorem State.modDrbg_rtc (k : Nat) (f : Drbg → Drbg) : (s.modDrbg k f).rtc = s.rtc := rfl
@[simp] theorem State.modDrbg_power (k : Nat) (f : Drbg → Drbg) : (s.modDrbg k f).power = s.power := rfl
@[simp] theorem State.modDrbg_boot (k : Nat) (f : Drbg → Drbg) : (s.modDrbg k f).boot = s.boot := rfl
@[simp] theorem State.modDrbg_hzn (k : Nat) (f : Drbg → Drbg) : (s.modDrbg k f).hzn = s.hzn := rfl
@[simp] theorem State.modDrbg_rng (k : Nat) (f : Drbg → Drbg) : (s.modDrbg k f).rng = { s.rng with drbgs := s.rng.drbgs.modify k {} f } := rfl
@[simp] theorem State.modDrbg_life (k : Nat) (f : Drbg → Drbg) : (s.modDrbg k f).life = s.life := rfl
@[simp] theorem State.modDrbg_uncel (k : Nat) (f : Drbg → Drbg) : (s.modDrbg k f).uncel = s.uncel := rfl
@[simp] theorem State.modDrbg_digests (k : Nat) (f : Drbg → Drbg) : (s.modDrbg k f).digests = s.digests := rfl
@[simp] theorem State.modDrbg_spdm (k : Nat) (f : Drbg → Drbg) : (s.modDrbg k f).spdm = s.spdm := rfl
@[simp] theorem State.modDrbg_tamper (k : Nat) (f : Drbg → Drbg) : (s.modDrbg k f).tamper = s.tamper := rfl
@[simp] theorem State.modDrbg_tamperCfg (k : Nat) (f : Drbg → Drbg) : (s.modDrbg k f).tamperCfg = s.tamperCfg := rfl
@[simp] theorem State.modDrbg_pgd (k : Nat) (f : Drbg → Drbg) : (s.modDrbg k f).pgd = s.pgd := rfl
@[simp] theorem State.modDrbg_obs (k : Nat) (f : Drbg → Drbg) : (s.modDrbg k f).obs = s.obs := rfl
@[simp] theorem State.modDrbg_i3c (k : Nat) (f : Drbg → Drbg) : (s.modDrbg k f).i3c = s.i3c := rfl

@[simp] theorem State.modPower_pending (f : Power → Power) : (s.modPower f).pending = s.pending := rfl
@[simp] theorem State.modPower_free (f : Power → Power) : (s.modPower f).free = s.free := rfl
@[simp] theorem State.modPower_out (f : Power → Power) : (s.modPower f).out = s.out := rfl
@[simp] theorem State.modPower_nextJob (f : Power → Power) : (s.modPower f).nextJob = s.nextJob := rfl
@[simp] theorem State.modPower_sq (f : Power → Power) : (s.modPower f).sq = s.sq := rfl
@[simp] theorem State.modPower_glb (f : Power → Power) : (s.modPower f).glb = s.glb := rfl
@[simp] theorem State.modPower_glbPf (f : Power → Power) : (s.modPower f).glbPf = s.glbPf := rfl
@[simp] theorem State.modPower_guard (f : Power → Power) : (s.modPower f).guard = s.guard := rfl
@[simp] theorem State.modPower_posted (f : Power → Power) : (s.modPower f).posted = s.posted := rfl
@[simp] theorem State.modPower_queues (f : Power → Power) : (s.modPower f).queues = s.queues := rfl
@[simp] theorem State.modPower_jobs (f : Power → Power) : (s.modPower f).jobs = s.jobs := rfl
@[simp] theorem State.modPower_ports (f : Power → Power) : (s.modPower f).ports = s.ports := rfl
@[simp] theorem State.modPower_funcs (f : Power → Power) : (s.modPower f).funcs = s.funcs := rfl
@[simp] theorem State.modPower_tenants (f : Power → Power) : (s.modPower f).tenants = s.tenants := rfl
@[simp] theorem State.modPower_beds (f : Power → Power) : (s.modPower f).beds = s.beds := rfl
@[simp] theorem State.modPower_grains (f : Power → Power) : (s.modPower f).grains = s.grains := rfl
@[simp] theorem State.modPower_quads (f : Power → Power) : (s.modPower f).quads = s.quads := rfl
@[simp] theorem State.modPower_engines (f : Power → Power) : (s.modPower f).engines = s.engines := rfl
@[simp] theorem State.modPower_vault (f : Power → Power) : (s.modPower f).vault = s.vault := rfl
@[simp] theorem State.modPower_grade (f : Power → Power) : (s.modPower f).grade = s.grade := rfl
@[simp] theorem State.modPower_uid (f : Power → Power) : (s.modPower f).uid = s.uid := rfl
@[simp] theorem State.modPower_rtc (f : Power → Power) : (s.modPower f).rtc = s.rtc := rfl
@[simp] theorem State.modPower_power (f : Power → Power) : (s.modPower f).power = f s.power := rfl
@[simp] theorem State.modPower_boot (f : Power → Power) : (s.modPower f).boot = s.boot := rfl
@[simp] theorem State.modPower_hzn (f : Power → Power) : (s.modPower f).hzn = s.hzn := rfl
@[simp] theorem State.modPower_rng (f : Power → Power) : (s.modPower f).rng = s.rng := rfl
@[simp] theorem State.modPower_life (f : Power → Power) : (s.modPower f).life = s.life := rfl
@[simp] theorem State.modPower_uncel (f : Power → Power) : (s.modPower f).uncel = s.uncel := rfl
@[simp] theorem State.modPower_digests (f : Power → Power) : (s.modPower f).digests = s.digests := rfl
@[simp] theorem State.modPower_spdm (f : Power → Power) : (s.modPower f).spdm = s.spdm := rfl
@[simp] theorem State.modPower_tamper (f : Power → Power) : (s.modPower f).tamper = s.tamper := rfl
@[simp] theorem State.modPower_tamperCfg (f : Power → Power) : (s.modPower f).tamperCfg = s.tamperCfg := rfl
@[simp] theorem State.modPower_pgd (f : Power → Power) : (s.modPower f).pgd = s.pgd := rfl
@[simp] theorem State.modPower_obs (f : Power → Power) : (s.modPower f).obs = s.obs := rfl
@[simp] theorem State.modPower_i3c (f : Power → Power) : (s.modPower f).i3c = s.i3c := rfl

@[simp] theorem State.modBoot_pending (f : Boot → Boot) : (s.modBoot f).pending = s.pending := rfl
@[simp] theorem State.modBoot_free (f : Boot → Boot) : (s.modBoot f).free = s.free := rfl
@[simp] theorem State.modBoot_out (f : Boot → Boot) : (s.modBoot f).out = s.out := rfl
@[simp] theorem State.modBoot_nextJob (f : Boot → Boot) : (s.modBoot f).nextJob = s.nextJob := rfl
@[simp] theorem State.modBoot_sq (f : Boot → Boot) : (s.modBoot f).sq = s.sq := rfl
@[simp] theorem State.modBoot_glb (f : Boot → Boot) : (s.modBoot f).glb = s.glb := rfl
@[simp] theorem State.modBoot_glbPf (f : Boot → Boot) : (s.modBoot f).glbPf = s.glbPf := rfl
@[simp] theorem State.modBoot_guard (f : Boot → Boot) : (s.modBoot f).guard = s.guard := rfl
@[simp] theorem State.modBoot_posted (f : Boot → Boot) : (s.modBoot f).posted = s.posted := rfl
@[simp] theorem State.modBoot_queues (f : Boot → Boot) : (s.modBoot f).queues = s.queues := rfl
@[simp] theorem State.modBoot_jobs (f : Boot → Boot) : (s.modBoot f).jobs = s.jobs := rfl
@[simp] theorem State.modBoot_ports (f : Boot → Boot) : (s.modBoot f).ports = s.ports := rfl
@[simp] theorem State.modBoot_funcs (f : Boot → Boot) : (s.modBoot f).funcs = s.funcs := rfl
@[simp] theorem State.modBoot_tenants (f : Boot → Boot) : (s.modBoot f).tenants = s.tenants := rfl
@[simp] theorem State.modBoot_beds (f : Boot → Boot) : (s.modBoot f).beds = s.beds := rfl
@[simp] theorem State.modBoot_grains (f : Boot → Boot) : (s.modBoot f).grains = s.grains := rfl
@[simp] theorem State.modBoot_quads (f : Boot → Boot) : (s.modBoot f).quads = s.quads := rfl
@[simp] theorem State.modBoot_engines (f : Boot → Boot) : (s.modBoot f).engines = s.engines := rfl
@[simp] theorem State.modBoot_vault (f : Boot → Boot) : (s.modBoot f).vault = s.vault := rfl
@[simp] theorem State.modBoot_grade (f : Boot → Boot) : (s.modBoot f).grade = s.grade := rfl
@[simp] theorem State.modBoot_uid (f : Boot → Boot) : (s.modBoot f).uid = s.uid := rfl
@[simp] theorem State.modBoot_rtc (f : Boot → Boot) : (s.modBoot f).rtc = s.rtc := rfl
@[simp] theorem State.modBoot_power (f : Boot → Boot) : (s.modBoot f).power = s.power := rfl
@[simp] theorem State.modBoot_boot (f : Boot → Boot) : (s.modBoot f).boot = f s.boot := rfl
@[simp] theorem State.modBoot_hzn (f : Boot → Boot) : (s.modBoot f).hzn = s.hzn := rfl
@[simp] theorem State.modBoot_rng (f : Boot → Boot) : (s.modBoot f).rng = s.rng := rfl
@[simp] theorem State.modBoot_life (f : Boot → Boot) : (s.modBoot f).life = s.life := rfl
@[simp] theorem State.modBoot_uncel (f : Boot → Boot) : (s.modBoot f).uncel = s.uncel := rfl
@[simp] theorem State.modBoot_digests (f : Boot → Boot) : (s.modBoot f).digests = s.digests := rfl
@[simp] theorem State.modBoot_spdm (f : Boot → Boot) : (s.modBoot f).spdm = s.spdm := rfl
@[simp] theorem State.modBoot_tamper (f : Boot → Boot) : (s.modBoot f).tamper = s.tamper := rfl
@[simp] theorem State.modBoot_tamperCfg (f : Boot → Boot) : (s.modBoot f).tamperCfg = s.tamperCfg := rfl
@[simp] theorem State.modBoot_pgd (f : Boot → Boot) : (s.modBoot f).pgd = s.pgd := rfl
@[simp] theorem State.modBoot_obs (f : Boot → Boot) : (s.modBoot f).obs = s.obs := rfl
@[simp] theorem State.modBoot_i3c (f : Boot → Boot) : (s.modBoot f).i3c = s.i3c := rfl

@[simp] theorem State.modVault_pending (f : Vault → Vault) : (s.modVault f).pending = s.pending := rfl
@[simp] theorem State.modVault_free (f : Vault → Vault) : (s.modVault f).free = s.free := rfl
@[simp] theorem State.modVault_out (f : Vault → Vault) : (s.modVault f).out = s.out := rfl
@[simp] theorem State.modVault_nextJob (f : Vault → Vault) : (s.modVault f).nextJob = s.nextJob := rfl
@[simp] theorem State.modVault_sq (f : Vault → Vault) : (s.modVault f).sq = s.sq := rfl
@[simp] theorem State.modVault_glb (f : Vault → Vault) : (s.modVault f).glb = s.glb := rfl
@[simp] theorem State.modVault_glbPf (f : Vault → Vault) : (s.modVault f).glbPf = s.glbPf := rfl
@[simp] theorem State.modVault_guard (f : Vault → Vault) : (s.modVault f).guard = s.guard := rfl
@[simp] theorem State.modVault_posted (f : Vault → Vault) : (s.modVault f).posted = s.posted := rfl
@[simp] theorem State.modVault_queues (f : Vault → Vault) : (s.modVault f).queues = s.queues := rfl
@[simp] theorem State.modVault_jobs (f : Vault → Vault) : (s.modVault f).jobs = s.jobs := rfl
@[simp] theorem State.modVault_ports (f : Vault → Vault) : (s.modVault f).ports = s.ports := rfl
@[simp] theorem State.modVault_funcs (f : Vault → Vault) : (s.modVault f).funcs = s.funcs := rfl
@[simp] theorem State.modVault_tenants (f : Vault → Vault) : (s.modVault f).tenants = s.tenants := rfl
@[simp] theorem State.modVault_beds (f : Vault → Vault) : (s.modVault f).beds = s.beds := rfl
@[simp] theorem State.modVault_grains (f : Vault → Vault) : (s.modVault f).grains = s.grains := rfl
@[simp] theorem State.modVault_quads (f : Vault → Vault) : (s.modVault f).quads = s.quads := rfl
@[simp] theorem State.modVault_engines (f : Vault → Vault) : (s.modVault f).engines = s.engines := rfl
@[simp] theorem State.modVault_vault (f : Vault → Vault) : (s.modVault f).vault = f s.vault := rfl
@[simp] theorem State.modVault_grade (f : Vault → Vault) : (s.modVault f).grade = s.grade := rfl
@[simp] theorem State.modVault_uid (f : Vault → Vault) : (s.modVault f).uid = s.uid := rfl
@[simp] theorem State.modVault_rtc (f : Vault → Vault) : (s.modVault f).rtc = s.rtc := rfl
@[simp] theorem State.modVault_power (f : Vault → Vault) : (s.modVault f).power = s.power := rfl
@[simp] theorem State.modVault_boot (f : Vault → Vault) : (s.modVault f).boot = s.boot := rfl
@[simp] theorem State.modVault_hzn (f : Vault → Vault) : (s.modVault f).hzn = s.hzn := rfl
@[simp] theorem State.modVault_rng (f : Vault → Vault) : (s.modVault f).rng = s.rng := rfl
@[simp] theorem State.modVault_life (f : Vault → Vault) : (s.modVault f).life = s.life := rfl
@[simp] theorem State.modVault_uncel (f : Vault → Vault) : (s.modVault f).uncel = s.uncel := rfl
@[simp] theorem State.modVault_digests (f : Vault → Vault) : (s.modVault f).digests = s.digests := rfl
@[simp] theorem State.modVault_spdm (f : Vault → Vault) : (s.modVault f).spdm = s.spdm := rfl
@[simp] theorem State.modVault_tamper (f : Vault → Vault) : (s.modVault f).tamper = s.tamper := rfl
@[simp] theorem State.modVault_tamperCfg (f : Vault → Vault) : (s.modVault f).tamperCfg = s.tamperCfg := rfl
@[simp] theorem State.modVault_pgd (f : Vault → Vault) : (s.modVault f).pgd = s.pgd := rfl
@[simp] theorem State.modVault_obs (f : Vault → Vault) : (s.modVault f).obs = s.obs := rfl
@[simp] theorem State.modVault_i3c (f : Vault → Vault) : (s.modVault f).i3c = s.i3c := rfl

@[simp] theorem State.modGlb_pending (f : Glb → Glb) : (s.modGlb f).pending = s.pending := rfl
@[simp] theorem State.modGlb_free (f : Glb → Glb) : (s.modGlb f).free = s.free := rfl
@[simp] theorem State.modGlb_out (f : Glb → Glb) : (s.modGlb f).out = s.out := rfl
@[simp] theorem State.modGlb_nextJob (f : Glb → Glb) : (s.modGlb f).nextJob = s.nextJob := rfl
@[simp] theorem State.modGlb_sq (f : Glb → Glb) : (s.modGlb f).sq = s.sq := rfl
@[simp] theorem State.modGlb_glb (f : Glb → Glb) : (s.modGlb f).glb = f s.glb := rfl
@[simp] theorem State.modGlb_glbPf (f : Glb → Glb) : (s.modGlb f).glbPf = s.glbPf := rfl
@[simp] theorem State.modGlb_guard (f : Glb → Glb) : (s.modGlb f).guard = s.guard := rfl
@[simp] theorem State.modGlb_posted (f : Glb → Glb) : (s.modGlb f).posted = s.posted := rfl
@[simp] theorem State.modGlb_queues (f : Glb → Glb) : (s.modGlb f).queues = s.queues := rfl
@[simp] theorem State.modGlb_jobs (f : Glb → Glb) : (s.modGlb f).jobs = s.jobs := rfl
@[simp] theorem State.modGlb_ports (f : Glb → Glb) : (s.modGlb f).ports = s.ports := rfl
@[simp] theorem State.modGlb_funcs (f : Glb → Glb) : (s.modGlb f).funcs = s.funcs := rfl
@[simp] theorem State.modGlb_tenants (f : Glb → Glb) : (s.modGlb f).tenants = s.tenants := rfl
@[simp] theorem State.modGlb_beds (f : Glb → Glb) : (s.modGlb f).beds = s.beds := rfl
@[simp] theorem State.modGlb_grains (f : Glb → Glb) : (s.modGlb f).grains = s.grains := rfl
@[simp] theorem State.modGlb_quads (f : Glb → Glb) : (s.modGlb f).quads = s.quads := rfl
@[simp] theorem State.modGlb_engines (f : Glb → Glb) : (s.modGlb f).engines = s.engines := rfl
@[simp] theorem State.modGlb_vault (f : Glb → Glb) : (s.modGlb f).vault = s.vault := rfl
@[simp] theorem State.modGlb_grade (f : Glb → Glb) : (s.modGlb f).grade = s.grade := rfl
@[simp] theorem State.modGlb_uid (f : Glb → Glb) : (s.modGlb f).uid = s.uid := rfl
@[simp] theorem State.modGlb_rtc (f : Glb → Glb) : (s.modGlb f).rtc = s.rtc := rfl
@[simp] theorem State.modGlb_power (f : Glb → Glb) : (s.modGlb f).power = s.power := rfl
@[simp] theorem State.modGlb_boot (f : Glb → Glb) : (s.modGlb f).boot = s.boot := rfl
@[simp] theorem State.modGlb_hzn (f : Glb → Glb) : (s.modGlb f).hzn = s.hzn := rfl
@[simp] theorem State.modGlb_rng (f : Glb → Glb) : (s.modGlb f).rng = s.rng := rfl
@[simp] theorem State.modGlb_life (f : Glb → Glb) : (s.modGlb f).life = s.life := rfl
@[simp] theorem State.modGlb_uncel (f : Glb → Glb) : (s.modGlb f).uncel = s.uncel := rfl
@[simp] theorem State.modGlb_digests (f : Glb → Glb) : (s.modGlb f).digests = s.digests := rfl
@[simp] theorem State.modGlb_spdm (f : Glb → Glb) : (s.modGlb f).spdm = s.spdm := rfl
@[simp] theorem State.modGlb_tamper (f : Glb → Glb) : (s.modGlb f).tamper = s.tamper := rfl
@[simp] theorem State.modGlb_tamperCfg (f : Glb → Glb) : (s.modGlb f).tamperCfg = s.tamperCfg := rfl
@[simp] theorem State.modGlb_pgd (f : Glb → Glb) : (s.modGlb f).pgd = s.pgd := rfl
@[simp] theorem State.modGlb_obs (f : Glb → Glb) : (s.modGlb f).obs = s.obs := rfl
@[simp] theorem State.modGlb_i3c (f : Glb → Glb) : (s.modGlb f).i3c = s.i3c := rfl

@[simp] theorem State.modPgd_pending (f : Pgd → Pgd) : (s.modPgd f).pending = s.pending := rfl
@[simp] theorem State.modPgd_free (f : Pgd → Pgd) : (s.modPgd f).free = s.free := rfl
@[simp] theorem State.modPgd_out (f : Pgd → Pgd) : (s.modPgd f).out = s.out := rfl
@[simp] theorem State.modPgd_nextJob (f : Pgd → Pgd) : (s.modPgd f).nextJob = s.nextJob := rfl
@[simp] theorem State.modPgd_sq (f : Pgd → Pgd) : (s.modPgd f).sq = s.sq := rfl
@[simp] theorem State.modPgd_glb (f : Pgd → Pgd) : (s.modPgd f).glb = s.glb := rfl
@[simp] theorem State.modPgd_glbPf (f : Pgd → Pgd) : (s.modPgd f).glbPf = s.glbPf := rfl
@[simp] theorem State.modPgd_guard (f : Pgd → Pgd) : (s.modPgd f).guard = s.guard := rfl
@[simp] theorem State.modPgd_posted (f : Pgd → Pgd) : (s.modPgd f).posted = s.posted := rfl
@[simp] theorem State.modPgd_queues (f : Pgd → Pgd) : (s.modPgd f).queues = s.queues := rfl
@[simp] theorem State.modPgd_jobs (f : Pgd → Pgd) : (s.modPgd f).jobs = s.jobs := rfl
@[simp] theorem State.modPgd_ports (f : Pgd → Pgd) : (s.modPgd f).ports = s.ports := rfl
@[simp] theorem State.modPgd_funcs (f : Pgd → Pgd) : (s.modPgd f).funcs = s.funcs := rfl
@[simp] theorem State.modPgd_tenants (f : Pgd → Pgd) : (s.modPgd f).tenants = s.tenants := rfl
@[simp] theorem State.modPgd_beds (f : Pgd → Pgd) : (s.modPgd f).beds = s.beds := rfl
@[simp] theorem State.modPgd_grains (f : Pgd → Pgd) : (s.modPgd f).grains = s.grains := rfl
@[simp] theorem State.modPgd_quads (f : Pgd → Pgd) : (s.modPgd f).quads = s.quads := rfl
@[simp] theorem State.modPgd_engines (f : Pgd → Pgd) : (s.modPgd f).engines = s.engines := rfl
@[simp] theorem State.modPgd_vault (f : Pgd → Pgd) : (s.modPgd f).vault = s.vault := rfl
@[simp] theorem State.modPgd_grade (f : Pgd → Pgd) : (s.modPgd f).grade = s.grade := rfl
@[simp] theorem State.modPgd_uid (f : Pgd → Pgd) : (s.modPgd f).uid = s.uid := rfl
@[simp] theorem State.modPgd_rtc (f : Pgd → Pgd) : (s.modPgd f).rtc = s.rtc := rfl
@[simp] theorem State.modPgd_power (f : Pgd → Pgd) : (s.modPgd f).power = s.power := rfl
@[simp] theorem State.modPgd_boot (f : Pgd → Pgd) : (s.modPgd f).boot = s.boot := rfl
@[simp] theorem State.modPgd_hzn (f : Pgd → Pgd) : (s.modPgd f).hzn = s.hzn := rfl
@[simp] theorem State.modPgd_rng (f : Pgd → Pgd) : (s.modPgd f).rng = s.rng := rfl
@[simp] theorem State.modPgd_life (f : Pgd → Pgd) : (s.modPgd f).life = s.life := rfl
@[simp] theorem State.modPgd_uncel (f : Pgd → Pgd) : (s.modPgd f).uncel = s.uncel := rfl
@[simp] theorem State.modPgd_digests (f : Pgd → Pgd) : (s.modPgd f).digests = s.digests := rfl
@[simp] theorem State.modPgd_spdm (f : Pgd → Pgd) : (s.modPgd f).spdm = s.spdm := rfl
@[simp] theorem State.modPgd_tamper (f : Pgd → Pgd) : (s.modPgd f).tamper = s.tamper := rfl
@[simp] theorem State.modPgd_tamperCfg (f : Pgd → Pgd) : (s.modPgd f).tamperCfg = s.tamperCfg := rfl
@[simp] theorem State.modPgd_pgd (f : Pgd → Pgd) : (s.modPgd f).pgd = f s.pgd := rfl
@[simp] theorem State.modPgd_obs (f : Pgd → Pgd) : (s.modPgd f).obs = s.obs := rfl
@[simp] theorem State.modPgd_i3c (f : Pgd → Pgd) : (s.modPgd f).i3c = s.i3c := rfl

@[simp] theorem State.modTamper_pending (f : Tamper → Tamper) : (s.modTamper f).pending = s.pending := rfl
@[simp] theorem State.modTamper_free (f : Tamper → Tamper) : (s.modTamper f).free = s.free := rfl
@[simp] theorem State.modTamper_out (f : Tamper → Tamper) : (s.modTamper f).out = s.out := rfl
@[simp] theorem State.modTamper_nextJob (f : Tamper → Tamper) : (s.modTamper f).nextJob = s.nextJob := rfl
@[simp] theorem State.modTamper_sq (f : Tamper → Tamper) : (s.modTamper f).sq = s.sq := rfl
@[simp] theorem State.modTamper_glb (f : Tamper → Tamper) : (s.modTamper f).glb = s.glb := rfl
@[simp] theorem State.modTamper_glbPf (f : Tamper → Tamper) : (s.modTamper f).glbPf = s.glbPf := rfl
@[simp] theorem State.modTamper_guard (f : Tamper → Tamper) : (s.modTamper f).guard = s.guard := rfl
@[simp] theorem State.modTamper_posted (f : Tamper → Tamper) : (s.modTamper f).posted = s.posted := rfl
@[simp] theorem State.modTamper_queues (f : Tamper → Tamper) : (s.modTamper f).queues = s.queues := rfl
@[simp] theorem State.modTamper_jobs (f : Tamper → Tamper) : (s.modTamper f).jobs = s.jobs := rfl
@[simp] theorem State.modTamper_ports (f : Tamper → Tamper) : (s.modTamper f).ports = s.ports := rfl
@[simp] theorem State.modTamper_funcs (f : Tamper → Tamper) : (s.modTamper f).funcs = s.funcs := rfl
@[simp] theorem State.modTamper_tenants (f : Tamper → Tamper) : (s.modTamper f).tenants = s.tenants := rfl
@[simp] theorem State.modTamper_beds (f : Tamper → Tamper) : (s.modTamper f).beds = s.beds := rfl
@[simp] theorem State.modTamper_grains (f : Tamper → Tamper) : (s.modTamper f).grains = s.grains := rfl
@[simp] theorem State.modTamper_quads (f : Tamper → Tamper) : (s.modTamper f).quads = s.quads := rfl
@[simp] theorem State.modTamper_engines (f : Tamper → Tamper) : (s.modTamper f).engines = s.engines := rfl
@[simp] theorem State.modTamper_vault (f : Tamper → Tamper) : (s.modTamper f).vault = s.vault := rfl
@[simp] theorem State.modTamper_grade (f : Tamper → Tamper) : (s.modTamper f).grade = s.grade := rfl
@[simp] theorem State.modTamper_uid (f : Tamper → Tamper) : (s.modTamper f).uid = s.uid := rfl
@[simp] theorem State.modTamper_rtc (f : Tamper → Tamper) : (s.modTamper f).rtc = s.rtc := rfl
@[simp] theorem State.modTamper_power (f : Tamper → Tamper) : (s.modTamper f).power = s.power := rfl
@[simp] theorem State.modTamper_boot (f : Tamper → Tamper) : (s.modTamper f).boot = s.boot := rfl
@[simp] theorem State.modTamper_hzn (f : Tamper → Tamper) : (s.modTamper f).hzn = s.hzn := rfl
@[simp] theorem State.modTamper_rng (f : Tamper → Tamper) : (s.modTamper f).rng = s.rng := rfl
@[simp] theorem State.modTamper_life (f : Tamper → Tamper) : (s.modTamper f).life = s.life := rfl
@[simp] theorem State.modTamper_uncel (f : Tamper → Tamper) : (s.modTamper f).uncel = s.uncel := rfl
@[simp] theorem State.modTamper_digests (f : Tamper → Tamper) : (s.modTamper f).digests = s.digests := rfl
@[simp] theorem State.modTamper_spdm (f : Tamper → Tamper) : (s.modTamper f).spdm = s.spdm := rfl
@[simp] theorem State.modTamper_tamper (f : Tamper → Tamper) : (s.modTamper f).tamper = f s.tamper := rfl
@[simp] theorem State.modTamper_tamperCfg (f : Tamper → Tamper) : (s.modTamper f).tamperCfg = s.tamperCfg := rfl
@[simp] theorem State.modTamper_pgd (f : Tamper → Tamper) : (s.modTamper f).pgd = s.pgd := rfl
@[simp] theorem State.modTamper_obs (f : Tamper → Tamper) : (s.modTamper f).obs = s.obs := rfl
@[simp] theorem State.modTamper_i3c (f : Tamper → Tamper) : (s.modTamper f).i3c = s.i3c := rfl

@[simp] theorem State.modLife_pending (f : Life → Life) : (s.modLife f).pending = s.pending := rfl
@[simp] theorem State.modLife_free (f : Life → Life) : (s.modLife f).free = s.free := rfl
@[simp] theorem State.modLife_out (f : Life → Life) : (s.modLife f).out = s.out := rfl
@[simp] theorem State.modLife_nextJob (f : Life → Life) : (s.modLife f).nextJob = s.nextJob := rfl
@[simp] theorem State.modLife_sq (f : Life → Life) : (s.modLife f).sq = s.sq := rfl
@[simp] theorem State.modLife_glb (f : Life → Life) : (s.modLife f).glb = s.glb := rfl
@[simp] theorem State.modLife_glbPf (f : Life → Life) : (s.modLife f).glbPf = s.glbPf := rfl
@[simp] theorem State.modLife_guard (f : Life → Life) : (s.modLife f).guard = s.guard := rfl
@[simp] theorem State.modLife_posted (f : Life → Life) : (s.modLife f).posted = s.posted := rfl
@[simp] theorem State.modLife_queues (f : Life → Life) : (s.modLife f).queues = s.queues := rfl
@[simp] theorem State.modLife_jobs (f : Life → Life) : (s.modLife f).jobs = s.jobs := rfl
@[simp] theorem State.modLife_ports (f : Life → Life) : (s.modLife f).ports = s.ports := rfl
@[simp] theorem State.modLife_funcs (f : Life → Life) : (s.modLife f).funcs = s.funcs := rfl
@[simp] theorem State.modLife_tenants (f : Life → Life) : (s.modLife f).tenants = s.tenants := rfl
@[simp] theorem State.modLife_beds (f : Life → Life) : (s.modLife f).beds = s.beds := rfl
@[simp] theorem State.modLife_grains (f : Life → Life) : (s.modLife f).grains = s.grains := rfl
@[simp] theorem State.modLife_quads (f : Life → Life) : (s.modLife f).quads = s.quads := rfl
@[simp] theorem State.modLife_engines (f : Life → Life) : (s.modLife f).engines = s.engines := rfl
@[simp] theorem State.modLife_vault (f : Life → Life) : (s.modLife f).vault = s.vault := rfl
@[simp] theorem State.modLife_grade (f : Life → Life) : (s.modLife f).grade = s.grade := rfl
@[simp] theorem State.modLife_uid (f : Life → Life) : (s.modLife f).uid = s.uid := rfl
@[simp] theorem State.modLife_rtc (f : Life → Life) : (s.modLife f).rtc = s.rtc := rfl
@[simp] theorem State.modLife_power (f : Life → Life) : (s.modLife f).power = s.power := rfl
@[simp] theorem State.modLife_boot (f : Life → Life) : (s.modLife f).boot = s.boot := rfl
@[simp] theorem State.modLife_hzn (f : Life → Life) : (s.modLife f).hzn = s.hzn := rfl
@[simp] theorem State.modLife_rng (f : Life → Life) : (s.modLife f).rng = s.rng := rfl
@[simp] theorem State.modLife_life (f : Life → Life) : (s.modLife f).life = f s.life := rfl
@[simp] theorem State.modLife_uncel (f : Life → Life) : (s.modLife f).uncel = s.uncel := rfl
@[simp] theorem State.modLife_digests (f : Life → Life) : (s.modLife f).digests = s.digests := rfl
@[simp] theorem State.modLife_spdm (f : Life → Life) : (s.modLife f).spdm = s.spdm := rfl
@[simp] theorem State.modLife_tamper (f : Life → Life) : (s.modLife f).tamper = s.tamper := rfl
@[simp] theorem State.modLife_tamperCfg (f : Life → Life) : (s.modLife f).tamperCfg = s.tamperCfg := rfl
@[simp] theorem State.modLife_pgd (f : Life → Life) : (s.modLife f).pgd = s.pgd := rfl
@[simp] theorem State.modLife_obs (f : Life → Life) : (s.modLife f).obs = s.obs := rfl
@[simp] theorem State.modLife_i3c (f : Life → Life) : (s.modLife f).i3c = s.i3c := rfl

@[simp] theorem State.modObs_pending (f : Obs → Obs) : (s.modObs f).pending = s.pending := rfl
@[simp] theorem State.modObs_free (f : Obs → Obs) : (s.modObs f).free = s.free := rfl
@[simp] theorem State.modObs_out (f : Obs → Obs) : (s.modObs f).out = s.out := rfl
@[simp] theorem State.modObs_nextJob (f : Obs → Obs) : (s.modObs f).nextJob = s.nextJob := rfl
@[simp] theorem State.modObs_sq (f : Obs → Obs) : (s.modObs f).sq = s.sq := rfl
@[simp] theorem State.modObs_glb (f : Obs → Obs) : (s.modObs f).glb = s.glb := rfl
@[simp] theorem State.modObs_glbPf (f : Obs → Obs) : (s.modObs f).glbPf = s.glbPf := rfl
@[simp] theorem State.modObs_guard (f : Obs → Obs) : (s.modObs f).guard = s.guard := rfl
@[simp] theorem State.modObs_posted (f : Obs → Obs) : (s.modObs f).posted = s.posted := rfl
@[simp] theorem State.modObs_queues (f : Obs → Obs) : (s.modObs f).queues = s.queues := rfl
@[simp] theorem State.modObs_jobs (f : Obs → Obs) : (s.modObs f).jobs = s.jobs := rfl
@[simp] theorem State.modObs_ports (f : Obs → Obs) : (s.modObs f).ports = s.ports := rfl
@[simp] theorem State.modObs_funcs (f : Obs → Obs) : (s.modObs f).funcs = s.funcs := rfl
@[simp] theorem State.modObs_tenants (f : Obs → Obs) : (s.modObs f).tenants = s.tenants := rfl
@[simp] theorem State.modObs_beds (f : Obs → Obs) : (s.modObs f).beds = s.beds := rfl
@[simp] theorem State.modObs_grains (f : Obs → Obs) : (s.modObs f).grains = s.grains := rfl
@[simp] theorem State.modObs_quads (f : Obs → Obs) : (s.modObs f).quads = s.quads := rfl
@[simp] theorem State.modObs_engines (f : Obs → Obs) : (s.modObs f).engines = s.engines := rfl
@[simp] theorem State.modObs_vault (f : Obs → Obs) : (s.modObs f).vault = s.vault := rfl
@[simp] theorem State.modObs_grade (f : Obs → Obs) : (s.modObs f).grade = s.grade := rfl
@[simp] theorem State.modObs_uid (f : Obs → Obs) : (s.modObs f).uid = s.uid := rfl
@[simp] theorem State.modObs_rtc (f : Obs → Obs) : (s.modObs f).rtc = s.rtc := rfl
@[simp] theorem State.modObs_power (f : Obs → Obs) : (s.modObs f).power = s.power := rfl
@[simp] theorem State.modObs_boot (f : Obs → Obs) : (s.modObs f).boot = s.boot := rfl
@[simp] theorem State.modObs_hzn (f : Obs → Obs) : (s.modObs f).hzn = s.hzn := rfl
@[simp] theorem State.modObs_rng (f : Obs → Obs) : (s.modObs f).rng = s.rng := rfl
@[simp] theorem State.modObs_life (f : Obs → Obs) : (s.modObs f).life = s.life := rfl
@[simp] theorem State.modObs_uncel (f : Obs → Obs) : (s.modObs f).uncel = s.uncel := rfl
@[simp] theorem State.modObs_digests (f : Obs → Obs) : (s.modObs f).digests = s.digests := rfl
@[simp] theorem State.modObs_spdm (f : Obs → Obs) : (s.modObs f).spdm = s.spdm := rfl
@[simp] theorem State.modObs_tamper (f : Obs → Obs) : (s.modObs f).tamper = s.tamper := rfl
@[simp] theorem State.modObs_tamperCfg (f : Obs → Obs) : (s.modObs f).tamperCfg = s.tamperCfg := rfl
@[simp] theorem State.modObs_pgd (f : Obs → Obs) : (s.modObs f).pgd = s.pgd := rfl
@[simp] theorem State.modObs_obs (f : Obs → Obs) : (s.modObs f).obs = f s.obs := rfl
@[simp] theorem State.modObs_i3c (f : Obs → Obs) : (s.modObs f).i3c = s.i3c := rfl

@[simp] theorem State.modRng_pending (f : Rng → Rng) : (s.modRng f).pending = s.pending := rfl
@[simp] theorem State.modRng_free (f : Rng → Rng) : (s.modRng f).free = s.free := rfl
@[simp] theorem State.modRng_out (f : Rng → Rng) : (s.modRng f).out = s.out := rfl
@[simp] theorem State.modRng_nextJob (f : Rng → Rng) : (s.modRng f).nextJob = s.nextJob := rfl
@[simp] theorem State.modRng_sq (f : Rng → Rng) : (s.modRng f).sq = s.sq := rfl
@[simp] theorem State.modRng_glb (f : Rng → Rng) : (s.modRng f).glb = s.glb := rfl
@[simp] theorem State.modRng_glbPf (f : Rng → Rng) : (s.modRng f).glbPf = s.glbPf := rfl
@[simp] theorem State.modRng_guard (f : Rng → Rng) : (s.modRng f).guard = s.guard := rfl
@[simp] theorem State.modRng_posted (f : Rng → Rng) : (s.modRng f).posted = s.posted := rfl
@[simp] theorem State.modRng_queues (f : Rng → Rng) : (s.modRng f).queues = s.queues := rfl
@[simp] theorem State.modRng_jobs (f : Rng → Rng) : (s.modRng f).jobs = s.jobs := rfl
@[simp] theorem State.modRng_ports (f : Rng → Rng) : (s.modRng f).ports = s.ports := rfl
@[simp] theorem State.modRng_funcs (f : Rng → Rng) : (s.modRng f).funcs = s.funcs := rfl
@[simp] theorem State.modRng_tenants (f : Rng → Rng) : (s.modRng f).tenants = s.tenants := rfl
@[simp] theorem State.modRng_beds (f : Rng → Rng) : (s.modRng f).beds = s.beds := rfl
@[simp] theorem State.modRng_grains (f : Rng → Rng) : (s.modRng f).grains = s.grains := rfl
@[simp] theorem State.modRng_quads (f : Rng → Rng) : (s.modRng f).quads = s.quads := rfl
@[simp] theorem State.modRng_engines (f : Rng → Rng) : (s.modRng f).engines = s.engines := rfl
@[simp] theorem State.modRng_vault (f : Rng → Rng) : (s.modRng f).vault = s.vault := rfl
@[simp] theorem State.modRng_grade (f : Rng → Rng) : (s.modRng f).grade = s.grade := rfl
@[simp] theorem State.modRng_uid (f : Rng → Rng) : (s.modRng f).uid = s.uid := rfl
@[simp] theorem State.modRng_rtc (f : Rng → Rng) : (s.modRng f).rtc = s.rtc := rfl
@[simp] theorem State.modRng_power (f : Rng → Rng) : (s.modRng f).power = s.power := rfl
@[simp] theorem State.modRng_boot (f : Rng → Rng) : (s.modRng f).boot = s.boot := rfl
@[simp] theorem State.modRng_hzn (f : Rng → Rng) : (s.modRng f).hzn = s.hzn := rfl
@[simp] theorem State.modRng_rng (f : Rng → Rng) : (s.modRng f).rng = f s.rng := rfl
@[simp] theorem State.modRng_life (f : Rng → Rng) : (s.modRng f).life = s.life := rfl
@[simp] theorem State.modRng_uncel (f : Rng → Rng) : (s.modRng f).uncel = s.uncel := rfl
@[simp] theorem State.modRng_digests (f : Rng → Rng) : (s.modRng f).digests = s.digests := rfl
@[simp] theorem State.modRng_spdm (f : Rng → Rng) : (s.modRng f).spdm = s.spdm := rfl
@[simp] theorem State.modRng_tamper (f : Rng → Rng) : (s.modRng f).tamper = s.tamper := rfl
@[simp] theorem State.modRng_tamperCfg (f : Rng → Rng) : (s.modRng f).tamperCfg = s.tamperCfg := rfl
@[simp] theorem State.modRng_pgd (f : Rng → Rng) : (s.modRng f).pgd = s.pgd := rfl
@[simp] theorem State.modRng_obs (f : Rng → Rng) : (s.modRng f).obs = s.obs := rfl
@[simp] theorem State.modRng_i3c (f : Rng → Rng) : (s.modRng f).i3c = s.i3c := rfl

@[simp] theorem State.modUncel_pending (f : Uncel → Uncel) : (s.modUncel f).pending = s.pending := rfl
@[simp] theorem State.modUncel_free (f : Uncel → Uncel) : (s.modUncel f).free = s.free := rfl
@[simp] theorem State.modUncel_out (f : Uncel → Uncel) : (s.modUncel f).out = s.out := rfl
@[simp] theorem State.modUncel_nextJob (f : Uncel → Uncel) : (s.modUncel f).nextJob = s.nextJob := rfl
@[simp] theorem State.modUncel_sq (f : Uncel → Uncel) : (s.modUncel f).sq = s.sq := rfl
@[simp] theorem State.modUncel_glb (f : Uncel → Uncel) : (s.modUncel f).glb = s.glb := rfl
@[simp] theorem State.modUncel_glbPf (f : Uncel → Uncel) : (s.modUncel f).glbPf = s.glbPf := rfl
@[simp] theorem State.modUncel_guard (f : Uncel → Uncel) : (s.modUncel f).guard = s.guard := rfl
@[simp] theorem State.modUncel_posted (f : Uncel → Uncel) : (s.modUncel f).posted = s.posted := rfl
@[simp] theorem State.modUncel_queues (f : Uncel → Uncel) : (s.modUncel f).queues = s.queues := rfl
@[simp] theorem State.modUncel_jobs (f : Uncel → Uncel) : (s.modUncel f).jobs = s.jobs := rfl
@[simp] theorem State.modUncel_ports (f : Uncel → Uncel) : (s.modUncel f).ports = s.ports := rfl
@[simp] theorem State.modUncel_funcs (f : Uncel → Uncel) : (s.modUncel f).funcs = s.funcs := rfl
@[simp] theorem State.modUncel_tenants (f : Uncel → Uncel) : (s.modUncel f).tenants = s.tenants := rfl
@[simp] theorem State.modUncel_beds (f : Uncel → Uncel) : (s.modUncel f).beds = s.beds := rfl
@[simp] theorem State.modUncel_grains (f : Uncel → Uncel) : (s.modUncel f).grains = s.grains := rfl
@[simp] theorem State.modUncel_quads (f : Uncel → Uncel) : (s.modUncel f).quads = s.quads := rfl
@[simp] theorem State.modUncel_engines (f : Uncel → Uncel) : (s.modUncel f).engines = s.engines := rfl
@[simp] theorem State.modUncel_vault (f : Uncel → Uncel) : (s.modUncel f).vault = s.vault := rfl
@[simp] theorem State.modUncel_grade (f : Uncel → Uncel) : (s.modUncel f).grade = s.grade := rfl
@[simp] theorem State.modUncel_uid (f : Uncel → Uncel) : (s.modUncel f).uid = s.uid := rfl
@[simp] theorem State.modUncel_rtc (f : Uncel → Uncel) : (s.modUncel f).rtc = s.rtc := rfl
@[simp] theorem State.modUncel_power (f : Uncel → Uncel) : (s.modUncel f).power = s.power := rfl
@[simp] theorem State.modUncel_boot (f : Uncel → Uncel) : (s.modUncel f).boot = s.boot := rfl
@[simp] theorem State.modUncel_hzn (f : Uncel → Uncel) : (s.modUncel f).hzn = s.hzn := rfl
@[simp] theorem State.modUncel_rng (f : Uncel → Uncel) : (s.modUncel f).rng = s.rng := rfl
@[simp] theorem State.modUncel_life (f : Uncel → Uncel) : (s.modUncel f).life = s.life := rfl
@[simp] theorem State.modUncel_uncel (f : Uncel → Uncel) : (s.modUncel f).uncel = f s.uncel := rfl
@[simp] theorem State.modUncel_digests (f : Uncel → Uncel) : (s.modUncel f).digests = s.digests := rfl
@[simp] theorem State.modUncel_spdm (f : Uncel → Uncel) : (s.modUncel f).spdm = s.spdm := rfl
@[simp] theorem State.modUncel_tamper (f : Uncel → Uncel) : (s.modUncel f).tamper = s.tamper := rfl
@[simp] theorem State.modUncel_tamperCfg (f : Uncel → Uncel) : (s.modUncel f).tamperCfg = s.tamperCfg := rfl
@[simp] theorem State.modUncel_pgd (f : Uncel → Uncel) : (s.modUncel f).pgd = s.pgd := rfl
@[simp] theorem State.modUncel_obs (f : Uncel → Uncel) : (s.modUncel f).obs = s.obs := rfl
@[simp] theorem State.modUncel_i3c (f : Uncel → Uncel) : (s.modUncel f).i3c = s.i3c := rfl

@[simp] theorem State.modI3c_pending (f : I3c → I3c) : (s.modI3c f).pending = s.pending := rfl
@[simp] theorem State.modI3c_free (f : I3c → I3c) : (s.modI3c f).free = s.free := rfl
@[simp] theorem State.modI3c_out (f : I3c → I3c) : (s.modI3c f).out = s.out := rfl
@[simp] theorem State.modI3c_nextJob (f : I3c → I3c) : (s.modI3c f).nextJob = s.nextJob := rfl
@[simp] theorem State.modI3c_sq (f : I3c → I3c) : (s.modI3c f).sq = s.sq := rfl
@[simp] theorem State.modI3c_glb (f : I3c → I3c) : (s.modI3c f).glb = s.glb := rfl
@[simp] theorem State.modI3c_glbPf (f : I3c → I3c) : (s.modI3c f).glbPf = s.glbPf := rfl
@[simp] theorem State.modI3c_guard (f : I3c → I3c) : (s.modI3c f).guard = s.guard := rfl
@[simp] theorem State.modI3c_posted (f : I3c → I3c) : (s.modI3c f).posted = s.posted := rfl
@[simp] theorem State.modI3c_queues (f : I3c → I3c) : (s.modI3c f).queues = s.queues := rfl
@[simp] theorem State.modI3c_jobs (f : I3c → I3c) : (s.modI3c f).jobs = s.jobs := rfl
@[simp] theorem State.modI3c_ports (f : I3c → I3c) : (s.modI3c f).ports = s.ports := rfl
@[simp] theorem State.modI3c_funcs (f : I3c → I3c) : (s.modI3c f).funcs = s.funcs := rfl
@[simp] theorem State.modI3c_tenants (f : I3c → I3c) : (s.modI3c f).tenants = s.tenants := rfl
@[simp] theorem State.modI3c_beds (f : I3c → I3c) : (s.modI3c f).beds = s.beds := rfl
@[simp] theorem State.modI3c_grains (f : I3c → I3c) : (s.modI3c f).grains = s.grains := rfl
@[simp] theorem State.modI3c_quads (f : I3c → I3c) : (s.modI3c f).quads = s.quads := rfl
@[simp] theorem State.modI3c_engines (f : I3c → I3c) : (s.modI3c f).engines = s.engines := rfl
@[simp] theorem State.modI3c_vault (f : I3c → I3c) : (s.modI3c f).vault = s.vault := rfl
@[simp] theorem State.modI3c_grade (f : I3c → I3c) : (s.modI3c f).grade = s.grade := rfl
@[simp] theorem State.modI3c_uid (f : I3c → I3c) : (s.modI3c f).uid = s.uid := rfl
@[simp] theorem State.modI3c_rtc (f : I3c → I3c) : (s.modI3c f).rtc = s.rtc := rfl
@[simp] theorem State.modI3c_power (f : I3c → I3c) : (s.modI3c f).power = s.power := rfl
@[simp] theorem State.modI3c_boot (f : I3c → I3c) : (s.modI3c f).boot = s.boot := rfl
@[simp] theorem State.modI3c_hzn (f : I3c → I3c) : (s.modI3c f).hzn = s.hzn := rfl
@[simp] theorem State.modI3c_rng (f : I3c → I3c) : (s.modI3c f).rng = s.rng := rfl
@[simp] theorem State.modI3c_life (f : I3c → I3c) : (s.modI3c f).life = s.life := rfl
@[simp] theorem State.modI3c_uncel (f : I3c → I3c) : (s.modI3c f).uncel = s.uncel := rfl
@[simp] theorem State.modI3c_digests (f : I3c → I3c) : (s.modI3c f).digests = s.digests := rfl
@[simp] theorem State.modI3c_spdm (f : I3c → I3c) : (s.modI3c f).spdm = s.spdm := rfl
@[simp] theorem State.modI3c_tamper (f : I3c → I3c) : (s.modI3c f).tamper = s.tamper := rfl
@[simp] theorem State.modI3c_tamperCfg (f : I3c → I3c) : (s.modI3c f).tamperCfg = s.tamperCfg := rfl
@[simp] theorem State.modI3c_pgd (f : I3c → I3c) : (s.modI3c f).pgd = s.pgd := rfl
@[simp] theorem State.modI3c_obs (f : I3c → I3c) : (s.modI3c f).obs = s.obs := rfl
@[simp] theorem State.modI3c_i3c (f : I3c → I3c) : (s.modI3c f).i3c = f s.i3c := rfl

@[simp] theorem State.modSpdm_pending (f : Spdm → Spdm) : (s.modSpdm f).pending = s.pending := rfl
@[simp] theorem State.modSpdm_free (f : Spdm → Spdm) : (s.modSpdm f).free = s.free := rfl
@[simp] theorem State.modSpdm_out (f : Spdm → Spdm) : (s.modSpdm f).out = s.out := rfl
@[simp] theorem State.modSpdm_nextJob (f : Spdm → Spdm) : (s.modSpdm f).nextJob = s.nextJob := rfl
@[simp] theorem State.modSpdm_sq (f : Spdm → Spdm) : (s.modSpdm f).sq = s.sq := rfl
@[simp] theorem State.modSpdm_glb (f : Spdm → Spdm) : (s.modSpdm f).glb = s.glb := rfl
@[simp] theorem State.modSpdm_glbPf (f : Spdm → Spdm) : (s.modSpdm f).glbPf = s.glbPf := rfl
@[simp] theorem State.modSpdm_guard (f : Spdm → Spdm) : (s.modSpdm f).guard = s.guard := rfl
@[simp] theorem State.modSpdm_posted (f : Spdm → Spdm) : (s.modSpdm f).posted = s.posted := rfl
@[simp] theorem State.modSpdm_queues (f : Spdm → Spdm) : (s.modSpdm f).queues = s.queues := rfl
@[simp] theorem State.modSpdm_jobs (f : Spdm → Spdm) : (s.modSpdm f).jobs = s.jobs := rfl
@[simp] theorem State.modSpdm_ports (f : Spdm → Spdm) : (s.modSpdm f).ports = s.ports := rfl
@[simp] theorem State.modSpdm_funcs (f : Spdm → Spdm) : (s.modSpdm f).funcs = s.funcs := rfl
@[simp] theorem State.modSpdm_tenants (f : Spdm → Spdm) : (s.modSpdm f).tenants = s.tenants := rfl
@[simp] theorem State.modSpdm_beds (f : Spdm → Spdm) : (s.modSpdm f).beds = s.beds := rfl
@[simp] theorem State.modSpdm_grains (f : Spdm → Spdm) : (s.modSpdm f).grains = s.grains := rfl
@[simp] theorem State.modSpdm_quads (f : Spdm → Spdm) : (s.modSpdm f).quads = s.quads := rfl
@[simp] theorem State.modSpdm_engines (f : Spdm → Spdm) : (s.modSpdm f).engines = s.engines := rfl
@[simp] theorem State.modSpdm_vault (f : Spdm → Spdm) : (s.modSpdm f).vault = s.vault := rfl
@[simp] theorem State.modSpdm_grade (f : Spdm → Spdm) : (s.modSpdm f).grade = s.grade := rfl
@[simp] theorem State.modSpdm_uid (f : Spdm → Spdm) : (s.modSpdm f).uid = s.uid := rfl
@[simp] theorem State.modSpdm_rtc (f : Spdm → Spdm) : (s.modSpdm f).rtc = s.rtc := rfl
@[simp] theorem State.modSpdm_power (f : Spdm → Spdm) : (s.modSpdm f).power = s.power := rfl
@[simp] theorem State.modSpdm_boot (f : Spdm → Spdm) : (s.modSpdm f).boot = s.boot := rfl
@[simp] theorem State.modSpdm_hzn (f : Spdm → Spdm) : (s.modSpdm f).hzn = s.hzn := rfl
@[simp] theorem State.modSpdm_rng (f : Spdm → Spdm) : (s.modSpdm f).rng = s.rng := rfl
@[simp] theorem State.modSpdm_life (f : Spdm → Spdm) : (s.modSpdm f).life = s.life := rfl
@[simp] theorem State.modSpdm_uncel (f : Spdm → Spdm) : (s.modSpdm f).uncel = s.uncel := rfl
@[simp] theorem State.modSpdm_digests (f : Spdm → Spdm) : (s.modSpdm f).digests = s.digests := rfl
@[simp] theorem State.modSpdm_spdm (f : Spdm → Spdm) : (s.modSpdm f).spdm = f s.spdm := rfl
@[simp] theorem State.modSpdm_tamper (f : Spdm → Spdm) : (s.modSpdm f).tamper = s.tamper := rfl
@[simp] theorem State.modSpdm_tamperCfg (f : Spdm → Spdm) : (s.modSpdm f).tamperCfg = s.tamperCfg := rfl
@[simp] theorem State.modSpdm_pgd (f : Spdm → Spdm) : (s.modSpdm f).pgd = s.pgd := rfl
@[simp] theorem State.modSpdm_obs (f : Spdm → Spdm) : (s.modSpdm f).obs = s.obs := rfl
@[simp] theorem State.modSpdm_i3c (f : Spdm → Spdm) : (s.modSpdm f).i3c = s.i3c := rfl

@[simp] theorem State.modHzn_pending (f : Horizon → Horizon) : (s.modHzn f).pending = s.pending := rfl
@[simp] theorem State.modHzn_free (f : Horizon → Horizon) : (s.modHzn f).free = s.free := rfl
@[simp] theorem State.modHzn_out (f : Horizon → Horizon) : (s.modHzn f).out = s.out := rfl
@[simp] theorem State.modHzn_nextJob (f : Horizon → Horizon) : (s.modHzn f).nextJob = s.nextJob := rfl
@[simp] theorem State.modHzn_sq (f : Horizon → Horizon) : (s.modHzn f).sq = s.sq := rfl
@[simp] theorem State.modHzn_glb (f : Horizon → Horizon) : (s.modHzn f).glb = s.glb := rfl
@[simp] theorem State.modHzn_glbPf (f : Horizon → Horizon) : (s.modHzn f).glbPf = s.glbPf := rfl
@[simp] theorem State.modHzn_guard (f : Horizon → Horizon) : (s.modHzn f).guard = s.guard := rfl
@[simp] theorem State.modHzn_posted (f : Horizon → Horizon) : (s.modHzn f).posted = s.posted := rfl
@[simp] theorem State.modHzn_queues (f : Horizon → Horizon) : (s.modHzn f).queues = s.queues := rfl
@[simp] theorem State.modHzn_jobs (f : Horizon → Horizon) : (s.modHzn f).jobs = s.jobs := rfl
@[simp] theorem State.modHzn_ports (f : Horizon → Horizon) : (s.modHzn f).ports = s.ports := rfl
@[simp] theorem State.modHzn_funcs (f : Horizon → Horizon) : (s.modHzn f).funcs = s.funcs := rfl
@[simp] theorem State.modHzn_tenants (f : Horizon → Horizon) : (s.modHzn f).tenants = s.tenants := rfl
@[simp] theorem State.modHzn_beds (f : Horizon → Horizon) : (s.modHzn f).beds = s.beds := rfl
@[simp] theorem State.modHzn_grains (f : Horizon → Horizon) : (s.modHzn f).grains = s.grains := rfl
@[simp] theorem State.modHzn_quads (f : Horizon → Horizon) : (s.modHzn f).quads = s.quads := rfl
@[simp] theorem State.modHzn_engines (f : Horizon → Horizon) : (s.modHzn f).engines = s.engines := rfl
@[simp] theorem State.modHzn_vault (f : Horizon → Horizon) : (s.modHzn f).vault = s.vault := rfl
@[simp] theorem State.modHzn_grade (f : Horizon → Horizon) : (s.modHzn f).grade = s.grade := rfl
@[simp] theorem State.modHzn_uid (f : Horizon → Horizon) : (s.modHzn f).uid = s.uid := rfl
@[simp] theorem State.modHzn_rtc (f : Horizon → Horizon) : (s.modHzn f).rtc = s.rtc := rfl
@[simp] theorem State.modHzn_power (f : Horizon → Horizon) : (s.modHzn f).power = s.power := rfl
@[simp] theorem State.modHzn_boot (f : Horizon → Horizon) : (s.modHzn f).boot = s.boot := rfl
@[simp] theorem State.modHzn_hzn (f : Horizon → Horizon) : (s.modHzn f).hzn = f s.hzn := rfl
@[simp] theorem State.modHzn_rng (f : Horizon → Horizon) : (s.modHzn f).rng = s.rng := rfl
@[simp] theorem State.modHzn_life (f : Horizon → Horizon) : (s.modHzn f).life = s.life := rfl
@[simp] theorem State.modHzn_uncel (f : Horizon → Horizon) : (s.modHzn f).uncel = s.uncel := rfl
@[simp] theorem State.modHzn_digests (f : Horizon → Horizon) : (s.modHzn f).digests = s.digests := rfl
@[simp] theorem State.modHzn_spdm (f : Horizon → Horizon) : (s.modHzn f).spdm = s.spdm := rfl
@[simp] theorem State.modHzn_tamper (f : Horizon → Horizon) : (s.modHzn f).tamper = s.tamper := rfl
@[simp] theorem State.modHzn_tamperCfg (f : Horizon → Horizon) : (s.modHzn f).tamperCfg = s.tamperCfg := rfl
@[simp] theorem State.modHzn_pgd (f : Horizon → Horizon) : (s.modHzn f).pgd = s.pgd := rfl
@[simp] theorem State.modHzn_obs (f : Horizon → Horizon) : (s.modHzn f).obs = s.obs := rfl
@[simp] theorem State.modHzn_i3c (f : Horizon → Horizon) : (s.modHzn f).i3c = s.i3c := rfl

/-! Events and the log. -/

/-- A fold of steps that each leave a reading as it was leaves it as it was. -/
theorem foldl_keeps {α β : Type} (g : State → β) (f : State → α → State) (h : ∀ s x, g (f s x) = g s) (l : List α) :
    g (l.foldl f s) = g s := by
  induction l generalizing s with
  | nil => rfl
  | cons x l ih => rw [List.foldl_cons, ih, h]


@[simp] theorem State.raiseVector_pending (p f v : Nat) : (s.raiseVector p f v).pending = s.pending := by
  unfold State.raiseVector; dsimp only; repeat' split
  all_goals rfl
@[simp] theorem State.raiseVector_free (p f v : Nat) : (s.raiseVector p f v).free = s.free := by
  unfold State.raiseVector; dsimp only; repeat' split
  all_goals rfl
@[simp] theorem State.raiseVector_nextJob (p f v : Nat) : (s.raiseVector p f v).nextJob = s.nextJob := by
  unfold State.raiseVector; dsimp only; repeat' split
  all_goals rfl
@[simp] theorem State.raiseVector_sq (p f v : Nat) : (s.raiseVector p f v).sq = s.sq := by
  unfold State.raiseVector; dsimp only; repeat' split
  all_goals rfl
@[simp] theorem State.raiseVector_glb (p f v : Nat) : (s.raiseVector p f v).glb = s.glb := by
  unfold State.raiseVector; dsimp only; repeat' split
  all_goals rfl
@[simp] theorem State.raiseVector_glbPf (p f v : Nat) : (s.raiseVector p f v).glbPf = s.glbPf := by
  unfold State.raiseVector; dsimp only; repeat' split
  all_goals rfl
@[simp] theorem State.raiseVector_guard (p f v : Nat) : (s.raiseVector p f v).guard = s.guard := by
  unfold State.raiseVector; dsimp only; repeat' split
  all_goals rfl
@[simp] theorem State.raiseVector_posted (p f v : Nat) : (s.raiseVector p f v).posted = s.posted := by
  unfold State.raiseVector; dsimp only; repeat' split
  all_goals rfl
@[simp] theorem State.raiseVector_queues (p f v : Nat) : (s.raiseVector p f v).queues = s.queues := by
  unfold State.raiseVector; dsimp only; repeat' split
  all_goals rfl
@[simp] theorem State.raiseVector_jobs (p f v : Nat) : (s.raiseVector p f v).jobs = s.jobs := by
  unfold State.raiseVector; dsimp only; repeat' split
  all_goals rfl
@[simp] theorem State.raiseVector_ports (p f v : Nat) : (s.raiseVector p f v).ports = s.ports := by
  unfold State.raiseVector; dsimp only; repeat' split
  all_goals rfl
@[simp] theorem State.raiseVector_tenants (p f v : Nat) : (s.raiseVector p f v).tenants = s.tenants := by
  unfold State.raiseVector; dsimp only; repeat' split
  all_goals rfl
@[simp] theorem State.raiseVector_beds (p f v : Nat) : (s.raiseVector p f v).beds = s.beds := by
  unfold State.raiseVector; dsimp only; repeat' split
  all_goals rfl
@[simp] theorem State.raiseVector_grains (p f v : Nat) : (s.raiseVector p f v).grains = s.grains := by
  unfold State.raiseVector; dsimp only; repeat' split
  all_goals rfl
@[simp] theorem State.raiseVector_quads (p f v : Nat) : (s.raiseVector p f v).quads = s.quads := by
  unfold State.raiseVector; dsimp only; repeat' split
  all_goals rfl
@[simp] theorem State.raiseVector_engines (p f v : Nat) : (s.raiseVector p f v).engines = s.engines := by
  unfold State.raiseVector; dsimp only; repeat' split
  all_goals rfl
@[simp] theorem State.raiseVector_vault (p f v : Nat) : (s.raiseVector p f v).vault = s.vault := by
  unfold State.raiseVector; dsimp only; repeat' split
  all_goals rfl
@[simp] theorem State.raiseVector_grade (p f v : Nat) : (s.raiseVector p f v).grade = s.grade := by
  unfold State.raiseVector; dsimp only; repeat' split
  all_goals rfl
@[simp] theorem State.raiseVector_uid (p f v : Nat) : (s.raiseVector p f v).uid = s.uid := by
  unfold State.raiseVector; dsimp only; repeat' split
  all_goals rfl
@[simp] theorem State.raiseVector_rtc (p f v : Nat) : (s.raiseVector p f v).rtc = s.rtc := by
  unfold State.raiseVector; dsimp only; repeat' split
  all_goals rfl
@[simp] theorem State.raiseVector_power (p f v : Nat) : (s.raiseVector p f v).power = s.power := by
  unfold State.raiseVector; dsimp only; repeat' split
  all_goals rfl
@[simp] theorem State.raiseVector_boot (p f v : Nat) : (s.raiseVector p f v).boot = s.boot := by
  unfold State.raiseVector; dsimp only; repeat' split
  all_goals rfl
@[simp] theorem State.raiseVector_hzn (p f v : Nat) : (s.raiseVector p f v).hzn = s.hzn := by
  unfold State.raiseVector; dsimp only; repeat' split
  all_goals rfl
@[simp] theorem State.raiseVector_rng (p f v : Nat) : (s.raiseVector p f v).rng = s.rng := by
  unfold State.raiseVector; dsimp only; repeat' split
  all_goals rfl
@[simp] theorem State.raiseVector_life (p f v : Nat) : (s.raiseVector p f v).life = s.life := by
  unfold State.raiseVector; dsimp only; repeat' split
  all_goals rfl
@[simp] theorem State.raiseVector_uncel (p f v : Nat) : (s.raiseVector p f v).uncel = s.uncel := by
  unfold State.raiseVector; dsimp only; repeat' split
  all_goals rfl
@[simp] theorem State.raiseVector_digests (p f v : Nat) : (s.raiseVector p f v).digests = s.digests := by
  unfold State.raiseVector; dsimp only; repeat' split
  all_goals rfl
@[simp] theorem State.raiseVector_spdm (p f v : Nat) : (s.raiseVector p f v).spdm = s.spdm := by
  unfold State.raiseVector; dsimp only; repeat' split
  all_goals rfl
@[simp] theorem State.raiseVector_tamper (p f v : Nat) : (s.raiseVector p f v).tamper = s.tamper := by
  unfold State.raiseVector; dsimp only; repeat' split
  all_goals rfl
@[simp] theorem State.raiseVector_tamperCfg (p f v : Nat) : (s.raiseVector p f v).tamperCfg = s.tamperCfg := by
  unfold State.raiseVector; dsimp only; repeat' split
  all_goals rfl
@[simp] theorem State.raiseVector_pgd (p f v : Nat) : (s.raiseVector p f v).pgd = s.pgd := by
  unfold State.raiseVector; dsimp only; repeat' split
  all_goals rfl
@[simp] theorem State.raiseVector_obs (p f v : Nat) : (s.raiseVector p f v).obs = s.obs := by
  unfold State.raiseVector; dsimp only; repeat' split
  all_goals rfl
@[simp] theorem State.raiseVector_i3c (p f v : Nat) : (s.raiseVector p f v).i3c = s.i3c := by
  unfold State.raiseVector; dsimp only; repeat' split
  all_goals rfl

@[simp] theorem State.event_pending (r : SqId) (m : Nat) : (s.event r m).pending = s.pending := by
  unfold State.event; dsimp only; split
  · rfl
  · exact foldl_keeps _ (fun s => s.pending) _ (fun _ _ => by simp) _
@[simp] theorem State.event_free (r : SqId) (m : Nat) : (s.event r m).free = s.free := by
  unfold State.event; dsimp only; split
  · rfl
  · exact foldl_keeps _ (fun s => s.free) _ (fun _ _ => by simp) _
@[simp] theorem State.event_nextJob (r : SqId) (m : Nat) : (s.event r m).nextJob = s.nextJob := by
  unfold State.event; dsimp only; split
  · rfl
  · exact foldl_keeps _ (fun s => s.nextJob) _ (fun _ _ => by simp) _
@[simp] theorem State.event_glb (r : SqId) (m : Nat) : (s.event r m).glb = s.glb := by
  unfold State.event; dsimp only; split
  · rfl
  · exact foldl_keeps _ (fun s => s.glb) _ (fun _ _ => by simp) _
@[simp] theorem State.event_glbPf (r : SqId) (m : Nat) : (s.event r m).glbPf = s.glbPf := by
  unfold State.event; dsimp only; split
  · rfl
  · exact foldl_keeps _ (fun s => s.glbPf) _ (fun _ _ => by simp) _
@[simp] theorem State.event_guard (r : SqId) (m : Nat) : (s.event r m).guard = s.guard := by
  unfold State.event; dsimp only; split
  · rfl
  · exact foldl_keeps _ (fun s => s.guard) _ (fun _ _ => by simp) _
@[simp] theorem State.event_posted (r : SqId) (m : Nat) : (s.event r m).posted = s.posted := by
  unfold State.event; dsimp only; split
  · rfl
  · exact foldl_keeps _ (fun s => s.posted) _ (fun _ _ => by simp) _
@[simp] theorem State.event_queues (r : SqId) (m : Nat) : (s.event r m).queues = s.queues := by
  unfold State.event; dsimp only; split
  · rfl
  · exact foldl_keeps _ (fun s => s.queues) _ (fun _ _ => by simp) _
@[simp] theorem State.event_jobs (r : SqId) (m : Nat) : (s.event r m).jobs = s.jobs := by
  unfold State.event; dsimp only; split
  · rfl
  · exact foldl_keeps _ (fun s => s.jobs) _ (fun _ _ => by simp) _
@[simp] theorem State.event_ports (r : SqId) (m : Nat) : (s.event r m).ports = s.ports := by
  unfold State.event; dsimp only; split
  · rfl
  · exact foldl_keeps _ (fun s => s.ports) _ (fun _ _ => by simp) _
@[simp] theorem State.event_tenants (r : SqId) (m : Nat) : (s.event r m).tenants = s.tenants := by
  unfold State.event; dsimp only; split
  · rfl
  · exact foldl_keeps _ (fun s => s.tenants) _ (fun _ _ => by simp) _
@[simp] theorem State.event_beds (r : SqId) (m : Nat) : (s.event r m).beds = s.beds := by
  unfold State.event; dsimp only; split
  · rfl
  · exact foldl_keeps _ (fun s => s.beds) _ (fun _ _ => by simp) _
@[simp] theorem State.event_grains (r : SqId) (m : Nat) : (s.event r m).grains = s.grains := by
  unfold State.event; dsimp only; split
  · rfl
  · exact foldl_keeps _ (fun s => s.grains) _ (fun _ _ => by simp) _
@[simp] theorem State.event_quads (r : SqId) (m : Nat) : (s.event r m).quads = s.quads := by
  unfold State.event; dsimp only; split
  · rfl
  · exact foldl_keeps _ (fun s => s.quads) _ (fun _ _ => by simp) _
@[simp] theorem State.event_engines (r : SqId) (m : Nat) : (s.event r m).engines = s.engines := by
  unfold State.event; dsimp only; split
  · rfl
  · exact foldl_keeps _ (fun s => s.engines) _ (fun _ _ => by simp) _
@[simp] theorem State.event_vault (r : SqId) (m : Nat) : (s.event r m).vault = s.vault := by
  unfold State.event; dsimp only; split
  · rfl
  · exact foldl_keeps _ (fun s => s.vault) _ (fun _ _ => by simp) _
@[simp] theorem State.event_grade (r : SqId) (m : Nat) : (s.event r m).grade = s.grade := by
  unfold State.event; dsimp only; split
  · rfl
  · exact foldl_keeps _ (fun s => s.grade) _ (fun _ _ => by simp) _
@[simp] theorem State.event_uid (r : SqId) (m : Nat) : (s.event r m).uid = s.uid := by
  unfold State.event; dsimp only; split
  · rfl
  · exact foldl_keeps _ (fun s => s.uid) _ (fun _ _ => by simp) _
@[simp] theorem State.event_rtc (r : SqId) (m : Nat) : (s.event r m).rtc = s.rtc := by
  unfold State.event; dsimp only; split
  · rfl
  · exact foldl_keeps _ (fun s => s.rtc) _ (fun _ _ => by simp) _
@[simp] theorem State.event_power (r : SqId) (m : Nat) : (s.event r m).power = s.power := by
  unfold State.event; dsimp only; split
  · rfl
  · exact foldl_keeps _ (fun s => s.power) _ (fun _ _ => by simp) _
@[simp] theorem State.event_boot (r : SqId) (m : Nat) : (s.event r m).boot = s.boot := by
  unfold State.event; dsimp only; split
  · rfl
  · exact foldl_keeps _ (fun s => s.boot) _ (fun _ _ => by simp) _
@[simp] theorem State.event_hzn (r : SqId) (m : Nat) : (s.event r m).hzn = s.hzn := by
  unfold State.event; dsimp only; split
  · rfl
  · exact foldl_keeps _ (fun s => s.hzn) _ (fun _ _ => by simp) _
@[simp] theorem State.event_rng (r : SqId) (m : Nat) : (s.event r m).rng = s.rng := by
  unfold State.event; dsimp only; split
  · rfl
  · exact foldl_keeps _ (fun s => s.rng) _ (fun _ _ => by simp) _
@[simp] theorem State.event_life (r : SqId) (m : Nat) : (s.event r m).life = s.life := by
  unfold State.event; dsimp only; split
  · rfl
  · exact foldl_keeps _ (fun s => s.life) _ (fun _ _ => by simp) _
@[simp] theorem State.event_uncel (r : SqId) (m : Nat) : (s.event r m).uncel = s.uncel := by
  unfold State.event; dsimp only; split
  · rfl
  · exact foldl_keeps _ (fun s => s.uncel) _ (fun _ _ => by simp) _
@[simp] theorem State.event_digests (r : SqId) (m : Nat) : (s.event r m).digests = s.digests := by
  unfold State.event; dsimp only; split
  · rfl
  · exact foldl_keeps _ (fun s => s.digests) _ (fun _ _ => by simp) _
@[simp] theorem State.event_spdm (r : SqId) (m : Nat) : (s.event r m).spdm = s.spdm := by
  unfold State.event; dsimp only; split
  · rfl
  · exact foldl_keeps _ (fun s => s.spdm) _ (fun _ _ => by simp) _
@[simp] theorem State.event_tamper (r : SqId) (m : Nat) : (s.event r m).tamper = s.tamper := by
  unfold State.event; dsimp only; split
  · rfl
  · exact foldl_keeps _ (fun s => s.tamper) _ (fun _ _ => by simp) _
@[simp] theorem State.event_tamperCfg (r : SqId) (m : Nat) : (s.event r m).tamperCfg = s.tamperCfg := by
  unfold State.event; dsimp only; split
  · rfl
  · exact foldl_keeps _ (fun s => s.tamperCfg) _ (fun _ _ => by simp) _
@[simp] theorem State.event_pgd (r : SqId) (m : Nat) : (s.event r m).pgd = s.pgd := by
  unfold State.event; dsimp only; split
  · rfl
  · exact foldl_keeps _ (fun s => s.pgd) _ (fun _ _ => by simp) _
@[simp] theorem State.event_obs (r : SqId) (m : Nat) : (s.event r m).obs = s.obs := by
  unfold State.event; dsimp only; split
  · rfl
  · exact foldl_keeps _ (fun s => s.obs) _ (fun _ _ => by simp) _
@[simp] theorem State.event_i3c (r : SqId) (m : Nat) : (s.event r m).i3c = s.i3c := by
  unfold State.event; dsimp only; split
  · rfl
  · exact foldl_keeps _ (fun s => s.i3c) _ (fun _ _ => by simp) _

@[simp] theorem State.glbEvent_pending (m : Nat) : (s.glbEvent m).pending = s.pending := foldl_keeps _ (fun s => s.pending) _ (fun _ _ => by simp) _
@[simp] theorem State.glbEvent_free (m : Nat) : (s.glbEvent m).free = s.free := foldl_keeps _ (fun s => s.free) _ (fun _ _ => by simp) _
@[simp] theorem State.glbEvent_nextJob (m : Nat) : (s.glbEvent m).nextJob = s.nextJob := foldl_keeps _ (fun s => s.nextJob) _ (fun _ _ => by simp) _
@[simp] theorem State.glbEvent_glb (m : Nat) : (s.glbEvent m).glb = s.glb := foldl_keeps _ (fun s => s.glb) _ (fun _ _ => by simp) _
@[simp] theorem State.glbEvent_glbPf (m : Nat) : (s.glbEvent m).glbPf = s.glbPf := foldl_keeps _ (fun s => s.glbPf) _ (fun _ _ => by simp) _
@[simp] theorem State.glbEvent_guard (m : Nat) : (s.glbEvent m).guard = s.guard := foldl_keeps _ (fun s => s.guard) _ (fun _ _ => by simp) _
@[simp] theorem State.glbEvent_posted (m : Nat) : (s.glbEvent m).posted = s.posted := foldl_keeps _ (fun s => s.posted) _ (fun _ _ => by simp) _
@[simp] theorem State.glbEvent_queues (m : Nat) : (s.glbEvent m).queues = s.queues := foldl_keeps _ (fun s => s.queues) _ (fun _ _ => by simp) _
@[simp] theorem State.glbEvent_jobs (m : Nat) : (s.glbEvent m).jobs = s.jobs := foldl_keeps _ (fun s => s.jobs) _ (fun _ _ => by simp) _
@[simp] theorem State.glbEvent_ports (m : Nat) : (s.glbEvent m).ports = s.ports := foldl_keeps _ (fun s => s.ports) _ (fun _ _ => by simp) _
@[simp] theorem State.glbEvent_tenants (m : Nat) : (s.glbEvent m).tenants = s.tenants := foldl_keeps _ (fun s => s.tenants) _ (fun _ _ => by simp) _
@[simp] theorem State.glbEvent_beds (m : Nat) : (s.glbEvent m).beds = s.beds := foldl_keeps _ (fun s => s.beds) _ (fun _ _ => by simp) _
@[simp] theorem State.glbEvent_grains (m : Nat) : (s.glbEvent m).grains = s.grains := foldl_keeps _ (fun s => s.grains) _ (fun _ _ => by simp) _
@[simp] theorem State.glbEvent_quads (m : Nat) : (s.glbEvent m).quads = s.quads := foldl_keeps _ (fun s => s.quads) _ (fun _ _ => by simp) _
@[simp] theorem State.glbEvent_engines (m : Nat) : (s.glbEvent m).engines = s.engines := foldl_keeps _ (fun s => s.engines) _ (fun _ _ => by simp) _
@[simp] theorem State.glbEvent_vault (m : Nat) : (s.glbEvent m).vault = s.vault := foldl_keeps _ (fun s => s.vault) _ (fun _ _ => by simp) _
@[simp] theorem State.glbEvent_grade (m : Nat) : (s.glbEvent m).grade = s.grade := foldl_keeps _ (fun s => s.grade) _ (fun _ _ => by simp) _
@[simp] theorem State.glbEvent_uid (m : Nat) : (s.glbEvent m).uid = s.uid := foldl_keeps _ (fun s => s.uid) _ (fun _ _ => by simp) _
@[simp] theorem State.glbEvent_rtc (m : Nat) : (s.glbEvent m).rtc = s.rtc := foldl_keeps _ (fun s => s.rtc) _ (fun _ _ => by simp) _
@[simp] theorem State.glbEvent_power (m : Nat) : (s.glbEvent m).power = s.power := foldl_keeps _ (fun s => s.power) _ (fun _ _ => by simp) _
@[simp] theorem State.glbEvent_boot (m : Nat) : (s.glbEvent m).boot = s.boot := foldl_keeps _ (fun s => s.boot) _ (fun _ _ => by simp) _
@[simp] theorem State.glbEvent_hzn (m : Nat) : (s.glbEvent m).hzn = s.hzn := foldl_keeps _ (fun s => s.hzn) _ (fun _ _ => by simp) _
@[simp] theorem State.glbEvent_rng (m : Nat) : (s.glbEvent m).rng = s.rng := foldl_keeps _ (fun s => s.rng) _ (fun _ _ => by simp) _
@[simp] theorem State.glbEvent_life (m : Nat) : (s.glbEvent m).life = s.life := foldl_keeps _ (fun s => s.life) _ (fun _ _ => by simp) _
@[simp] theorem State.glbEvent_uncel (m : Nat) : (s.glbEvent m).uncel = s.uncel := foldl_keeps _ (fun s => s.uncel) _ (fun _ _ => by simp) _
@[simp] theorem State.glbEvent_digests (m : Nat) : (s.glbEvent m).digests = s.digests := foldl_keeps _ (fun s => s.digests) _ (fun _ _ => by simp) _
@[simp] theorem State.glbEvent_spdm (m : Nat) : (s.glbEvent m).spdm = s.spdm := foldl_keeps _ (fun s => s.spdm) _ (fun _ _ => by simp) _
@[simp] theorem State.glbEvent_tamper (m : Nat) : (s.glbEvent m).tamper = s.tamper := foldl_keeps _ (fun s => s.tamper) _ (fun _ _ => by simp) _
@[simp] theorem State.glbEvent_tamperCfg (m : Nat) : (s.glbEvent m).tamperCfg = s.tamperCfg := foldl_keeps _ (fun s => s.tamperCfg) _ (fun _ _ => by simp) _
@[simp] theorem State.glbEvent_pgd (m : Nat) : (s.glbEvent m).pgd = s.pgd := foldl_keeps _ (fun s => s.pgd) _ (fun _ _ => by simp) _
@[simp] theorem State.glbEvent_obs (m : Nat) : (s.glbEvent m).obs = s.obs := foldl_keeps _ (fun s => s.obs) _ (fun _ _ => by simp) _
@[simp] theorem State.glbEvent_i3c (m : Nat) : (s.glbEvent m).i3c = s.i3c := foldl_keeps _ (fun s => s.i3c) _ (fun _ _ => by simp) _

@[simp] theorem State.vfEventOf_pending (t m : Nat) : (s.vfEventOf t m).pending = s.pending := foldl_keeps _ (fun s => s.pending) _ (fun _ _ => by simp) _
@[simp] theorem State.vfEventOf_free (t m : Nat) : (s.vfEventOf t m).free = s.free := foldl_keeps _ (fun s => s.free) _ (fun _ _ => by simp) _
@[simp] theorem State.vfEventOf_nextJob (t m : Nat) : (s.vfEventOf t m).nextJob = s.nextJob := foldl_keeps _ (fun s => s.nextJob) _ (fun _ _ => by simp) _
@[simp] theorem State.vfEventOf_glb (t m : Nat) : (s.vfEventOf t m).glb = s.glb := foldl_keeps _ (fun s => s.glb) _ (fun _ _ => by simp) _
@[simp] theorem State.vfEventOf_glbPf (t m : Nat) : (s.vfEventOf t m).glbPf = s.glbPf := foldl_keeps _ (fun s => s.glbPf) _ (fun _ _ => by simp) _
@[simp] theorem State.vfEventOf_guard (t m : Nat) : (s.vfEventOf t m).guard = s.guard := foldl_keeps _ (fun s => s.guard) _ (fun _ _ => by simp) _
@[simp] theorem State.vfEventOf_posted (t m : Nat) : (s.vfEventOf t m).posted = s.posted := foldl_keeps _ (fun s => s.posted) _ (fun _ _ => by simp) _
@[simp] theorem State.vfEventOf_queues (t m : Nat) : (s.vfEventOf t m).queues = s.queues := foldl_keeps _ (fun s => s.queues) _ (fun _ _ => by simp) _
@[simp] theorem State.vfEventOf_jobs (t m : Nat) : (s.vfEventOf t m).jobs = s.jobs := foldl_keeps _ (fun s => s.jobs) _ (fun _ _ => by simp) _
@[simp] theorem State.vfEventOf_ports (t m : Nat) : (s.vfEventOf t m).ports = s.ports := foldl_keeps _ (fun s => s.ports) _ (fun _ _ => by simp) _
@[simp] theorem State.vfEventOf_tenants (t m : Nat) : (s.vfEventOf t m).tenants = s.tenants := foldl_keeps _ (fun s => s.tenants) _ (fun _ _ => by simp) _
@[simp] theorem State.vfEventOf_beds (t m : Nat) : (s.vfEventOf t m).beds = s.beds := foldl_keeps _ (fun s => s.beds) _ (fun _ _ => by simp) _
@[simp] theorem State.vfEventOf_grains (t m : Nat) : (s.vfEventOf t m).grains = s.grains := foldl_keeps _ (fun s => s.grains) _ (fun _ _ => by simp) _
@[simp] theorem State.vfEventOf_quads (t m : Nat) : (s.vfEventOf t m).quads = s.quads := foldl_keeps _ (fun s => s.quads) _ (fun _ _ => by simp) _
@[simp] theorem State.vfEventOf_engines (t m : Nat) : (s.vfEventOf t m).engines = s.engines := foldl_keeps _ (fun s => s.engines) _ (fun _ _ => by simp) _
@[simp] theorem State.vfEventOf_vault (t m : Nat) : (s.vfEventOf t m).vault = s.vault := foldl_keeps _ (fun s => s.vault) _ (fun _ _ => by simp) _
@[simp] theorem State.vfEventOf_grade (t m : Nat) : (s.vfEventOf t m).grade = s.grade := foldl_keeps _ (fun s => s.grade) _ (fun _ _ => by simp) _
@[simp] theorem State.vfEventOf_uid (t m : Nat) : (s.vfEventOf t m).uid = s.uid := foldl_keeps _ (fun s => s.uid) _ (fun _ _ => by simp) _
@[simp] theorem State.vfEventOf_rtc (t m : Nat) : (s.vfEventOf t m).rtc = s.rtc := foldl_keeps _ (fun s => s.rtc) _ (fun _ _ => by simp) _
@[simp] theorem State.vfEventOf_power (t m : Nat) : (s.vfEventOf t m).power = s.power := foldl_keeps _ (fun s => s.power) _ (fun _ _ => by simp) _
@[simp] theorem State.vfEventOf_boot (t m : Nat) : (s.vfEventOf t m).boot = s.boot := foldl_keeps _ (fun s => s.boot) _ (fun _ _ => by simp) _
@[simp] theorem State.vfEventOf_hzn (t m : Nat) : (s.vfEventOf t m).hzn = s.hzn := foldl_keeps _ (fun s => s.hzn) _ (fun _ _ => by simp) _
@[simp] theorem State.vfEventOf_rng (t m : Nat) : (s.vfEventOf t m).rng = s.rng := foldl_keeps _ (fun s => s.rng) _ (fun _ _ => by simp) _
@[simp] theorem State.vfEventOf_life (t m : Nat) : (s.vfEventOf t m).life = s.life := foldl_keeps _ (fun s => s.life) _ (fun _ _ => by simp) _
@[simp] theorem State.vfEventOf_uncel (t m : Nat) : (s.vfEventOf t m).uncel = s.uncel := foldl_keeps _ (fun s => s.uncel) _ (fun _ _ => by simp) _
@[simp] theorem State.vfEventOf_digests (t m : Nat) : (s.vfEventOf t m).digests = s.digests := foldl_keeps _ (fun s => s.digests) _ (fun _ _ => by simp) _
@[simp] theorem State.vfEventOf_spdm (t m : Nat) : (s.vfEventOf t m).spdm = s.spdm := foldl_keeps _ (fun s => s.spdm) _ (fun _ _ => by simp) _
@[simp] theorem State.vfEventOf_tamper (t m : Nat) : (s.vfEventOf t m).tamper = s.tamper := foldl_keeps _ (fun s => s.tamper) _ (fun _ _ => by simp) _
@[simp] theorem State.vfEventOf_tamperCfg (t m : Nat) : (s.vfEventOf t m).tamperCfg = s.tamperCfg := foldl_keeps _ (fun s => s.tamperCfg) _ (fun _ _ => by simp) _
@[simp] theorem State.vfEventOf_pgd (t m : Nat) : (s.vfEventOf t m).pgd = s.pgd := foldl_keeps _ (fun s => s.pgd) _ (fun _ _ => by simp) _
@[simp] theorem State.vfEventOf_obs (t m : Nat) : (s.vfEventOf t m).obs = s.obs := foldl_keeps _ (fun s => s.obs) _ (fun _ _ => by simp) _
@[simp] theorem State.vfEventOf_i3c (t m : Nat) : (s.vfEventOf t m).i3c = s.i3c := foldl_keeps _ (fun s => s.i3c) _ (fun _ _ => by simp) _

@[simp] theorem State.vfEvent_pending (m : Nat) : (s.vfEvent m).pending = s.pending := foldl_keeps _ (fun s => s.pending) _ (fun _ _ => by simp) _
@[simp] theorem State.vfEvent_free (m : Nat) : (s.vfEvent m).free = s.free := foldl_keeps _ (fun s => s.free) _ (fun _ _ => by simp) _
@[simp] theorem State.vfEvent_nextJob (m : Nat) : (s.vfEvent m).nextJob = s.nextJob := foldl_keeps _ (fun s => s.nextJob) _ (fun _ _ => by simp) _
@[simp] theorem State.vfEvent_glb (m : Nat) : (s.vfEvent m).glb = s.glb := foldl_keeps _ (fun s => s.glb) _ (fun _ _ => by simp) _
@[simp] theorem State.vfEvent_glbPf (m : Nat) : (s.vfEvent m).glbPf = s.glbPf := foldl_keeps _ (fun s => s.glbPf) _ (fun _ _ => by simp) _
@[simp] theorem State.vfEvent_guard (m : Nat) : (s.vfEvent m).guard = s.guard := foldl_keeps _ (fun s => s.guard) _ (fun _ _ => by simp) _
@[simp] theorem State.vfEvent_posted (m : Nat) : (s.vfEvent m).posted = s.posted := foldl_keeps _ (fun s => s.posted) _ (fun _ _ => by simp) _
@[simp] theorem State.vfEvent_queues (m : Nat) : (s.vfEvent m).queues = s.queues := foldl_keeps _ (fun s => s.queues) _ (fun _ _ => by simp) _
@[simp] theorem State.vfEvent_jobs (m : Nat) : (s.vfEvent m).jobs = s.jobs := foldl_keeps _ (fun s => s.jobs) _ (fun _ _ => by simp) _
@[simp] theorem State.vfEvent_ports (m : Nat) : (s.vfEvent m).ports = s.ports := foldl_keeps _ (fun s => s.ports) _ (fun _ _ => by simp) _
@[simp] theorem State.vfEvent_tenants (m : Nat) : (s.vfEvent m).tenants = s.tenants := foldl_keeps _ (fun s => s.tenants) _ (fun _ _ => by simp) _
@[simp] theorem State.vfEvent_beds (m : Nat) : (s.vfEvent m).beds = s.beds := foldl_keeps _ (fun s => s.beds) _ (fun _ _ => by simp) _
@[simp] theorem State.vfEvent_grains (m : Nat) : (s.vfEvent m).grains = s.grains := foldl_keeps _ (fun s => s.grains) _ (fun _ _ => by simp) _
@[simp] theorem State.vfEvent_quads (m : Nat) : (s.vfEvent m).quads = s.quads := foldl_keeps _ (fun s => s.quads) _ (fun _ _ => by simp) _
@[simp] theorem State.vfEvent_engines (m : Nat) : (s.vfEvent m).engines = s.engines := foldl_keeps _ (fun s => s.engines) _ (fun _ _ => by simp) _
@[simp] theorem State.vfEvent_vault (m : Nat) : (s.vfEvent m).vault = s.vault := foldl_keeps _ (fun s => s.vault) _ (fun _ _ => by simp) _
@[simp] theorem State.vfEvent_grade (m : Nat) : (s.vfEvent m).grade = s.grade := foldl_keeps _ (fun s => s.grade) _ (fun _ _ => by simp) _
@[simp] theorem State.vfEvent_uid (m : Nat) : (s.vfEvent m).uid = s.uid := foldl_keeps _ (fun s => s.uid) _ (fun _ _ => by simp) _
@[simp] theorem State.vfEvent_rtc (m : Nat) : (s.vfEvent m).rtc = s.rtc := foldl_keeps _ (fun s => s.rtc) _ (fun _ _ => by simp) _
@[simp] theorem State.vfEvent_power (m : Nat) : (s.vfEvent m).power = s.power := foldl_keeps _ (fun s => s.power) _ (fun _ _ => by simp) _
@[simp] theorem State.vfEvent_boot (m : Nat) : (s.vfEvent m).boot = s.boot := foldl_keeps _ (fun s => s.boot) _ (fun _ _ => by simp) _
@[simp] theorem State.vfEvent_hzn (m : Nat) : (s.vfEvent m).hzn = s.hzn := foldl_keeps _ (fun s => s.hzn) _ (fun _ _ => by simp) _
@[simp] theorem State.vfEvent_rng (m : Nat) : (s.vfEvent m).rng = s.rng := foldl_keeps _ (fun s => s.rng) _ (fun _ _ => by simp) _
@[simp] theorem State.vfEvent_life (m : Nat) : (s.vfEvent m).life = s.life := foldl_keeps _ (fun s => s.life) _ (fun _ _ => by simp) _
@[simp] theorem State.vfEvent_uncel (m : Nat) : (s.vfEvent m).uncel = s.uncel := foldl_keeps _ (fun s => s.uncel) _ (fun _ _ => by simp) _
@[simp] theorem State.vfEvent_digests (m : Nat) : (s.vfEvent m).digests = s.digests := foldl_keeps _ (fun s => s.digests) _ (fun _ _ => by simp) _
@[simp] theorem State.vfEvent_spdm (m : Nat) : (s.vfEvent m).spdm = s.spdm := foldl_keeps _ (fun s => s.spdm) _ (fun _ _ => by simp) _
@[simp] theorem State.vfEvent_tamper (m : Nat) : (s.vfEvent m).tamper = s.tamper := foldl_keeps _ (fun s => s.tamper) _ (fun _ _ => by simp) _
@[simp] theorem State.vfEvent_tamperCfg (m : Nat) : (s.vfEvent m).tamperCfg = s.tamperCfg := foldl_keeps _ (fun s => s.tamperCfg) _ (fun _ _ => by simp) _
@[simp] theorem State.vfEvent_pgd (m : Nat) : (s.vfEvent m).pgd = s.pgd := foldl_keeps _ (fun s => s.pgd) _ (fun _ _ => by simp) _
@[simp] theorem State.vfEvent_obs (m : Nat) : (s.vfEvent m).obs = s.obs := foldl_keeps _ (fun s => s.obs) _ (fun _ _ => by simp) _
@[simp] theorem State.vfEvent_i3c (m : Nat) : (s.vfEvent m).i3c = s.i3c := foldl_keeps _ (fun s => s.i3c) _ (fun _ _ => by simp) _

@[simp] theorem State.logWrite_pending (a b : Nat) (d : List Byte) : (s.logWrite a b d).pending = s.pending := by
  unfold State.logWrite; dsimp only; repeat' split
  all_goals simp
@[simp] theorem State.logWrite_free (a b : Nat) (d : List Byte) : (s.logWrite a b d).free = s.free := by
  unfold State.logWrite; dsimp only; repeat' split
  all_goals simp
@[simp] theorem State.logWrite_nextJob (a b : Nat) (d : List Byte) : (s.logWrite a b d).nextJob = s.nextJob := by
  unfold State.logWrite; dsimp only; repeat' split
  all_goals simp
@[simp] theorem State.logWrite_glbPf (a b : Nat) (d : List Byte) : (s.logWrite a b d).glbPf = s.glbPf := by
  unfold State.logWrite; dsimp only; repeat' split
  all_goals simp
@[simp] theorem State.logWrite_guard (a b : Nat) (d : List Byte) : (s.logWrite a b d).guard = s.guard := by
  unfold State.logWrite; dsimp only; repeat' split
  all_goals simp
@[simp] theorem State.logWrite_posted (a b : Nat) (d : List Byte) : (s.logWrite a b d).posted = s.posted := by
  unfold State.logWrite; dsimp only; repeat' split
  all_goals simp
@[simp] theorem State.logWrite_queues (a b : Nat) (d : List Byte) : (s.logWrite a b d).queues = s.queues := by
  unfold State.logWrite; dsimp only; repeat' split
  all_goals simp
@[simp] theorem State.logWrite_jobs (a b : Nat) (d : List Byte) : (s.logWrite a b d).jobs = s.jobs := by
  unfold State.logWrite; dsimp only; repeat' split
  all_goals simp
@[simp] theorem State.logWrite_ports (a b : Nat) (d : List Byte) : (s.logWrite a b d).ports = s.ports := by
  unfold State.logWrite; dsimp only; repeat' split
  all_goals simp
@[simp] theorem State.logWrite_tenants (a b : Nat) (d : List Byte) : (s.logWrite a b d).tenants = s.tenants := by
  unfold State.logWrite; dsimp only; repeat' split
  all_goals simp
@[simp] theorem State.logWrite_beds (a b : Nat) (d : List Byte) : (s.logWrite a b d).beds = s.beds := by
  unfold State.logWrite; dsimp only; repeat' split
  all_goals simp
@[simp] theorem State.logWrite_grains (a b : Nat) (d : List Byte) : (s.logWrite a b d).grains = s.grains := by
  unfold State.logWrite; dsimp only; repeat' split
  all_goals simp
@[simp] theorem State.logWrite_quads (a b : Nat) (d : List Byte) : (s.logWrite a b d).quads = s.quads := by
  unfold State.logWrite; dsimp only; repeat' split
  all_goals simp
@[simp] theorem State.logWrite_engines (a b : Nat) (d : List Byte) : (s.logWrite a b d).engines = s.engines := by
  unfold State.logWrite; dsimp only; repeat' split
  all_goals simp
@[simp] theorem State.logWrite_vault (a b : Nat) (d : List Byte) : (s.logWrite a b d).vault = s.vault := by
  unfold State.logWrite; dsimp only; repeat' split
  all_goals simp
@[simp] theorem State.logWrite_grade (a b : Nat) (d : List Byte) : (s.logWrite a b d).grade = s.grade := by
  unfold State.logWrite; dsimp only; repeat' split
  all_goals simp
@[simp] theorem State.logWrite_uid (a b : Nat) (d : List Byte) : (s.logWrite a b d).uid = s.uid := by
  unfold State.logWrite; dsimp only; repeat' split
  all_goals simp
@[simp] theorem State.logWrite_rtc (a b : Nat) (d : List Byte) : (s.logWrite a b d).rtc = s.rtc := by
  unfold State.logWrite; dsimp only; repeat' split
  all_goals simp
@[simp] theorem State.logWrite_power (a b : Nat) (d : List Byte) : (s.logWrite a b d).power = s.power := by
  unfold State.logWrite; dsimp only; repeat' split
  all_goals simp
@[simp] theorem State.logWrite_boot (a b : Nat) (d : List Byte) : (s.logWrite a b d).boot = s.boot := by
  unfold State.logWrite; dsimp only; repeat' split
  all_goals simp
@[simp] theorem State.logWrite_rng (a b : Nat) (d : List Byte) : (s.logWrite a b d).rng = s.rng := by
  unfold State.logWrite; dsimp only; repeat' split
  all_goals simp
@[simp] theorem State.logWrite_life (a b : Nat) (d : List Byte) : (s.logWrite a b d).life = s.life := by
  unfold State.logWrite; dsimp only; repeat' split
  all_goals simp
@[simp] theorem State.logWrite_uncel (a b : Nat) (d : List Byte) : (s.logWrite a b d).uncel = s.uncel := by
  unfold State.logWrite; dsimp only; repeat' split
  all_goals simp
@[simp] theorem State.logWrite_digests (a b : Nat) (d : List Byte) : (s.logWrite a b d).digests = s.digests := by
  unfold State.logWrite; dsimp only; repeat' split
  all_goals simp
@[simp] theorem State.logWrite_spdm (a b : Nat) (d : List Byte) : (s.logWrite a b d).spdm = s.spdm := by
  unfold State.logWrite; dsimp only; repeat' split
  all_goals simp
@[simp] theorem State.logWrite_tamper (a b : Nat) (d : List Byte) : (s.logWrite a b d).tamper = s.tamper := by
  unfold State.logWrite; dsimp only; repeat' split
  all_goals simp
@[simp] theorem State.logWrite_tamperCfg (a b : Nat) (d : List Byte) : (s.logWrite a b d).tamperCfg = s.tamperCfg := by
  unfold State.logWrite; dsimp only; repeat' split
  all_goals simp
@[simp] theorem State.logWrite_pgd (a b : Nat) (d : List Byte) : (s.logWrite a b d).pgd = s.pgd := by
  unfold State.logWrite; dsimp only; repeat' split
  all_goals simp
@[simp] theorem State.logWrite_obs (a b : Nat) (d : List Byte) : (s.logWrite a b d).obs = s.obs := by
  unfold State.logWrite; dsimp only; repeat' split
  all_goals simp
@[simp] theorem State.logWrite_i3c (a b : Nat) (d : List Byte) : (s.logWrite a b d).i3c = s.i3c := by
  unfold State.logWrite; dsimp only; repeat' split
  all_goals simp
@[simp] theorem State.logWrite_glb_epoch (a b : Nat) (d : List Byte) : (s.logWrite a b d).glb.epoch = s.glb.epoch := by
  unfold State.logWrite; dsimp only; repeat' split
  all_goals simp
@[simp] theorem State.logWrite_glb_lastSettled (a b : Nat) (d : List Byte) : (s.logWrite a b d).glb.lastSettled = s.glb.lastSettled := by
  unfold State.logWrite; dsimp only; repeat' split
  all_goals simp
@[simp] theorem State.logWrite_glb_rngReady (a b : Nat) (d : List Byte) : (s.logWrite a b d).glb.rngReady = s.glb.rngReady := by
  unfold State.logWrite; dsimp only; repeat' split
  all_goals simp
@[simp] theorem State.logWrite_glb_startOk (a b : Nat) (d : List Byte) : (s.logWrite a b d).glb.startOk = s.glb.startOk := by
  unfold State.logWrite; dsimp only; repeat' split
  all_goals simp
@[simp] theorem State.logWrite_glb_fallow (a b : Nat) (d : List Byte) : (s.logWrite a b d).glb.fallow = s.glb.fallow := by
  unfold State.logWrite; dsimp only; repeat' split
  all_goals simp
@[simp] theorem State.logWrite_glb_locked (a b : Nat) (d : List Byte) : (s.logWrite a b d).glb.locked = s.glb.locked := by
  unfold State.logWrite; dsimp only; repeat' split
  all_goals simp
@[simp] theorem State.logWrite_glb_linkDown (a b : Nat) (d : List Byte) : (s.logWrite a b d).glb.linkDown = s.glb.linkDown := by
  unfold State.logWrite; dsimp only; repeat' split
  all_goals simp

@[simp] theorem State.logAt_pending (a b : Nat) (d : List Byte) : (s.logAt a b d).pending = s.pending := by
  unfold State.logAt; dsimp only; repeat' split
  all_goals simp
@[simp] theorem State.logAt_free (a b : Nat) (d : List Byte) : (s.logAt a b d).free = s.free := by
  unfold State.logAt; dsimp only; repeat' split
  all_goals simp
@[simp] theorem State.logAt_nextJob (a b : Nat) (d : List Byte) : (s.logAt a b d).nextJob = s.nextJob := by
  unfold State.logAt; dsimp only; repeat' split
  all_goals simp
@[simp] theorem State.logAt_glbPf (a b : Nat) (d : List Byte) : (s.logAt a b d).glbPf = s.glbPf := by
  unfold State.logAt; dsimp only; repeat' split
  all_goals simp
@[simp] theorem State.logAt_guard (a b : Nat) (d : List Byte) : (s.logAt a b d).guard = s.guard := by
  unfold State.logAt; dsimp only; repeat' split
  all_goals simp
@[simp] theorem State.logAt_posted (a b : Nat) (d : List Byte) : (s.logAt a b d).posted = s.posted := by
  unfold State.logAt; dsimp only; repeat' split
  all_goals simp
@[simp] theorem State.logAt_queues (a b : Nat) (d : List Byte) : (s.logAt a b d).queues = s.queues := by
  unfold State.logAt; dsimp only; repeat' split
  all_goals simp
@[simp] theorem State.logAt_jobs (a b : Nat) (d : List Byte) : (s.logAt a b d).jobs = s.jobs := by
  unfold State.logAt; dsimp only; repeat' split
  all_goals simp
@[simp] theorem State.logAt_ports (a b : Nat) (d : List Byte) : (s.logAt a b d).ports = s.ports := by
  unfold State.logAt; dsimp only; repeat' split
  all_goals simp
@[simp] theorem State.logAt_tenants (a b : Nat) (d : List Byte) : (s.logAt a b d).tenants = s.tenants := by
  unfold State.logAt; dsimp only; repeat' split
  all_goals simp
@[simp] theorem State.logAt_beds (a b : Nat) (d : List Byte) : (s.logAt a b d).beds = s.beds := by
  unfold State.logAt; dsimp only; repeat' split
  all_goals simp
@[simp] theorem State.logAt_grains (a b : Nat) (d : List Byte) : (s.logAt a b d).grains = s.grains := by
  unfold State.logAt; dsimp only; repeat' split
  all_goals simp
@[simp] theorem State.logAt_quads (a b : Nat) (d : List Byte) : (s.logAt a b d).quads = s.quads := by
  unfold State.logAt; dsimp only; repeat' split
  all_goals simp
@[simp] theorem State.logAt_engines (a b : Nat) (d : List Byte) : (s.logAt a b d).engines = s.engines := by
  unfold State.logAt; dsimp only; repeat' split
  all_goals simp
@[simp] theorem State.logAt_vault (a b : Nat) (d : List Byte) : (s.logAt a b d).vault = s.vault := by
  unfold State.logAt; dsimp only; repeat' split
  all_goals simp
@[simp] theorem State.logAt_grade (a b : Nat) (d : List Byte) : (s.logAt a b d).grade = s.grade := by
  unfold State.logAt; dsimp only; repeat' split
  all_goals simp
@[simp] theorem State.logAt_uid (a b : Nat) (d : List Byte) : (s.logAt a b d).uid = s.uid := by
  unfold State.logAt; dsimp only; repeat' split
  all_goals simp
@[simp] theorem State.logAt_rtc (a b : Nat) (d : List Byte) : (s.logAt a b d).rtc = s.rtc := by
  unfold State.logAt; dsimp only; repeat' split
  all_goals simp
@[simp] theorem State.logAt_power (a b : Nat) (d : List Byte) : (s.logAt a b d).power = s.power := by
  unfold State.logAt; dsimp only; repeat' split
  all_goals simp
@[simp] theorem State.logAt_boot (a b : Nat) (d : List Byte) : (s.logAt a b d).boot = s.boot := by
  unfold State.logAt; dsimp only; repeat' split
  all_goals simp
@[simp] theorem State.logAt_rng (a b : Nat) (d : List Byte) : (s.logAt a b d).rng = s.rng := by
  unfold State.logAt; dsimp only; repeat' split
  all_goals simp
@[simp] theorem State.logAt_life (a b : Nat) (d : List Byte) : (s.logAt a b d).life = s.life := by
  unfold State.logAt; dsimp only; repeat' split
  all_goals simp
@[simp] theorem State.logAt_uncel (a b : Nat) (d : List Byte) : (s.logAt a b d).uncel = s.uncel := by
  unfold State.logAt; dsimp only; repeat' split
  all_goals simp
@[simp] theorem State.logAt_digests (a b : Nat) (d : List Byte) : (s.logAt a b d).digests = s.digests := by
  unfold State.logAt; dsimp only; repeat' split
  all_goals simp
@[simp] theorem State.logAt_spdm (a b : Nat) (d : List Byte) : (s.logAt a b d).spdm = s.spdm := by
  unfold State.logAt; dsimp only; repeat' split
  all_goals simp
@[simp] theorem State.logAt_tamper (a b : Nat) (d : List Byte) : (s.logAt a b d).tamper = s.tamper := by
  unfold State.logAt; dsimp only; repeat' split
  all_goals simp
@[simp] theorem State.logAt_tamperCfg (a b : Nat) (d : List Byte) : (s.logAt a b d).tamperCfg = s.tamperCfg := by
  unfold State.logAt; dsimp only; repeat' split
  all_goals simp
@[simp] theorem State.logAt_pgd (a b : Nat) (d : List Byte) : (s.logAt a b d).pgd = s.pgd := by
  unfold State.logAt; dsimp only; repeat' split
  all_goals simp
@[simp] theorem State.logAt_obs (a b : Nat) (d : List Byte) : (s.logAt a b d).obs = s.obs := by
  unfold State.logAt; dsimp only; repeat' split
  all_goals simp
@[simp] theorem State.logAt_i3c (a b : Nat) (d : List Byte) : (s.logAt a b d).i3c = s.i3c := by
  unfold State.logAt; dsimp only; repeat' split
  all_goals simp
@[simp] theorem State.logAt_glb_epoch (a b : Nat) (d : List Byte) : (s.logAt a b d).glb.epoch = s.glb.epoch := by
  unfold State.logAt; dsimp only; repeat' split
  all_goals simp
@[simp] theorem State.logAt_glb_lastSettled (a b : Nat) (d : List Byte) : (s.logAt a b d).glb.lastSettled = s.glb.lastSettled := by
  unfold State.logAt; dsimp only; repeat' split
  all_goals simp
@[simp] theorem State.logAt_glb_rngReady (a b : Nat) (d : List Byte) : (s.logAt a b d).glb.rngReady = s.glb.rngReady := by
  unfold State.logAt; dsimp only; repeat' split
  all_goals simp
@[simp] theorem State.logAt_glb_startOk (a b : Nat) (d : List Byte) : (s.logAt a b d).glb.startOk = s.glb.startOk := by
  unfold State.logAt; dsimp only; repeat' split
  all_goals simp
@[simp] theorem State.logAt_glb_fallow (a b : Nat) (d : List Byte) : (s.logAt a b d).glb.fallow = s.glb.fallow := by
  unfold State.logAt; dsimp only; repeat' split
  all_goals simp
@[simp] theorem State.logAt_glb_locked (a b : Nat) (d : List Byte) : (s.logAt a b d).glb.locked = s.glb.locked := by
  unfold State.logAt; dsimp only; repeat' split
  all_goals simp
@[simp] theorem State.logAt_glb_linkDown (a b : Nat) (d : List Byte) : (s.logAt a b d).glb.linkDown = s.glb.linkDown := by
  unfold State.logAt; dsimp only; repeat' split
  all_goals simp

@[simp] theorem State.log_pending (a : Nat) (d : List Byte) : (s.log a d).pending = s.pending := by
  simp [State.log, State.tick]
@[simp] theorem State.log_nextJob (a : Nat) (d : List Byte) : (s.log a d).nextJob = s.nextJob := by
  simp [State.log, State.tick]
@[simp] theorem State.log_glbPf (a : Nat) (d : List Byte) : (s.log a d).glbPf = s.glbPf := by
  simp [State.log, State.tick]
@[simp] theorem State.log_guard (a : Nat) (d : List Byte) : (s.log a d).guard = s.guard := by
  simp [State.log, State.tick]
@[simp] theorem State.log_posted (a : Nat) (d : List Byte) : (s.log a d).posted = s.posted := by
  simp [State.log, State.tick]
@[simp] theorem State.log_queues (a : Nat) (d : List Byte) : (s.log a d).queues = s.queues := by
  simp [State.log, State.tick]
@[simp] theorem State.log_jobs (a : Nat) (d : List Byte) : (s.log a d).jobs = s.jobs := by
  simp [State.log, State.tick]
@[simp] theorem State.log_ports (a : Nat) (d : List Byte) : (s.log a d).ports = s.ports := by
  simp [State.log, State.tick]
@[simp] theorem State.log_tenants (a : Nat) (d : List Byte) : (s.log a d).tenants = s.tenants := by
  simp [State.log, State.tick]
@[simp] theorem State.log_beds (a : Nat) (d : List Byte) : (s.log a d).beds = s.beds := by
  simp [State.log, State.tick]
@[simp] theorem State.log_grains (a : Nat) (d : List Byte) : (s.log a d).grains = s.grains := by
  simp [State.log, State.tick]
@[simp] theorem State.log_quads (a : Nat) (d : List Byte) : (s.log a d).quads = s.quads := by
  simp [State.log, State.tick]
@[simp] theorem State.log_engines (a : Nat) (d : List Byte) : (s.log a d).engines = s.engines := by
  simp [State.log, State.tick]
@[simp] theorem State.log_vault (a : Nat) (d : List Byte) : (s.log a d).vault = s.vault := by
  simp [State.log, State.tick]
@[simp] theorem State.log_grade (a : Nat) (d : List Byte) : (s.log a d).grade = s.grade := by
  simp [State.log, State.tick]
@[simp] theorem State.log_uid (a : Nat) (d : List Byte) : (s.log a d).uid = s.uid := by
  simp [State.log, State.tick]
@[simp] theorem State.log_power (a : Nat) (d : List Byte) : (s.log a d).power = s.power := by
  simp [State.log, State.tick]
@[simp] theorem State.log_boot (a : Nat) (d : List Byte) : (s.log a d).boot = s.boot := by
  simp [State.log, State.tick]
@[simp] theorem State.log_rng (a : Nat) (d : List Byte) : (s.log a d).rng = s.rng := by
  simp [State.log, State.tick]
@[simp] theorem State.log_life (a : Nat) (d : List Byte) : (s.log a d).life = s.life := by
  simp [State.log, State.tick]
@[simp] theorem State.log_uncel (a : Nat) (d : List Byte) : (s.log a d).uncel = s.uncel := by
  simp [State.log, State.tick]
@[simp] theorem State.log_digests (a : Nat) (d : List Byte) : (s.log a d).digests = s.digests := by
  simp [State.log, State.tick]
@[simp] theorem State.log_spdm (a : Nat) (d : List Byte) : (s.log a d).spdm = s.spdm := by
  simp [State.log, State.tick]
@[simp] theorem State.log_tamper (a : Nat) (d : List Byte) : (s.log a d).tamper = s.tamper := by
  simp [State.log, State.tick]
@[simp] theorem State.log_tamperCfg (a : Nat) (d : List Byte) : (s.log a d).tamperCfg = s.tamperCfg := by
  simp [State.log, State.tick]
@[simp] theorem State.log_pgd (a : Nat) (d : List Byte) : (s.log a d).pgd = s.pgd := by
  simp [State.log, State.tick]
@[simp] theorem State.log_obs (a : Nat) (d : List Byte) : (s.log a d).obs = s.obs := by
  simp [State.log, State.tick]
@[simp] theorem State.log_i3c (a : Nat) (d : List Byte) : (s.log a d).i3c = s.i3c := by
  simp [State.log, State.tick]
@[simp] theorem State.log_glb_epoch (a : Nat) (d : List Byte) : (s.log a d).glb.epoch = s.glb.epoch := by
  simp [State.log, State.tick]
@[simp] theorem State.log_glb_lastSettled (a : Nat) (d : List Byte) : (s.log a d).glb.lastSettled = s.glb.lastSettled := by
  simp [State.log, State.tick]
@[simp] theorem State.log_glb_rngReady (a : Nat) (d : List Byte) : (s.log a d).glb.rngReady = s.glb.rngReady := by
  simp [State.log, State.tick]
@[simp] theorem State.log_glb_startOk (a : Nat) (d : List Byte) : (s.log a d).glb.startOk = s.glb.startOk := by
  simp [State.log, State.tick]
@[simp] theorem State.log_glb_fallow (a : Nat) (d : List Byte) : (s.log a d).glb.fallow = s.glb.fallow := by
  simp [State.log, State.tick]
@[simp] theorem State.log_glb_locked (a : Nat) (d : List Byte) : (s.log a d).glb.locked = s.glb.locked := by
  simp [State.log, State.tick]
@[simp] theorem State.log_glb_linkDown (a : Nat) (d : List Byte) : (s.log a d).glb.linkDown = s.glb.linkDown := by
  simp [State.log, State.tick]

@[simp] theorem State.logPair_pending (a b k : Nat) : (s.logPair a b k).pending = s.pending := by
  simp [State.logPair]
@[simp] theorem State.logPair_nextJob (a b k : Nat) : (s.logPair a b k).nextJob = s.nextJob := by
  simp [State.logPair]
@[simp] theorem State.logPair_glbPf (a b k : Nat) : (s.logPair a b k).glbPf = s.glbPf := by
  simp [State.logPair]
@[simp] theorem State.logPair_guard (a b k : Nat) : (s.logPair a b k).guard = s.guard := by
  simp [State.logPair]
@[simp] theorem State.logPair_posted (a b k : Nat) : (s.logPair a b k).posted = s.posted := by
  simp [State.logPair]
@[simp] theorem State.logPair_queues (a b k : Nat) : (s.logPair a b k).queues = s.queues := by
  simp [State.logPair]
@[simp] theorem State.logPair_jobs (a b k : Nat) : (s.logPair a b k).jobs = s.jobs := by
  simp [State.logPair]
@[simp] theorem State.logPair_ports (a b k : Nat) : (s.logPair a b k).ports = s.ports := by
  simp [State.logPair]
@[simp] theorem State.logPair_tenants (a b k : Nat) : (s.logPair a b k).tenants = s.tenants := by
  simp [State.logPair]
@[simp] theorem State.logPair_beds (a b k : Nat) : (s.logPair a b k).beds = s.beds := by
  simp [State.logPair]
@[simp] theorem State.logPair_grains (a b k : Nat) : (s.logPair a b k).grains = s.grains := by
  simp [State.logPair]
@[simp] theorem State.logPair_quads (a b k : Nat) : (s.logPair a b k).quads = s.quads := by
  simp [State.logPair]
@[simp] theorem State.logPair_engines (a b k : Nat) : (s.logPair a b k).engines = s.engines := by
  simp [State.logPair]
@[simp] theorem State.logPair_vault (a b k : Nat) : (s.logPair a b k).vault = s.vault := by
  simp [State.logPair]
@[simp] theorem State.logPair_grade (a b k : Nat) : (s.logPair a b k).grade = s.grade := by
  simp [State.logPair]
@[simp] theorem State.logPair_uid (a b k : Nat) : (s.logPair a b k).uid = s.uid := by
  simp [State.logPair]
@[simp] theorem State.logPair_power (a b k : Nat) : (s.logPair a b k).power = s.power := by
  simp [State.logPair]
@[simp] theorem State.logPair_boot (a b k : Nat) : (s.logPair a b k).boot = s.boot := by
  simp [State.logPair]
@[simp] theorem State.logPair_rng (a b k : Nat) : (s.logPair a b k).rng = s.rng := by
  simp [State.logPair]
@[simp] theorem State.logPair_life (a b k : Nat) : (s.logPair a b k).life = s.life := by
  simp [State.logPair]
@[simp] theorem State.logPair_uncel (a b k : Nat) : (s.logPair a b k).uncel = s.uncel := by
  simp [State.logPair]
@[simp] theorem State.logPair_digests (a b k : Nat) : (s.logPair a b k).digests = s.digests := by
  simp [State.logPair]
@[simp] theorem State.logPair_spdm (a b k : Nat) : (s.logPair a b k).spdm = s.spdm := by
  simp [State.logPair]
@[simp] theorem State.logPair_tamper (a b k : Nat) : (s.logPair a b k).tamper = s.tamper := by
  simp [State.logPair]
@[simp] theorem State.logPair_tamperCfg (a b k : Nat) : (s.logPair a b k).tamperCfg = s.tamperCfg := by
  simp [State.logPair]
@[simp] theorem State.logPair_pgd (a b k : Nat) : (s.logPair a b k).pgd = s.pgd := by
  simp [State.logPair]
@[simp] theorem State.logPair_obs (a b k : Nat) : (s.logPair a b k).obs = s.obs := by
  simp [State.logPair]
@[simp] theorem State.logPair_i3c (a b k : Nat) : (s.logPair a b k).i3c = s.i3c := by
  simp [State.logPair]
@[simp] theorem State.logPair_glb_epoch (a b k : Nat) : (s.logPair a b k).glb.epoch = s.glb.epoch := by
  simp [State.logPair]
@[simp] theorem State.logPair_glb_lastSettled (a b k : Nat) : (s.logPair a b k).glb.lastSettled = s.glb.lastSettled := by
  simp [State.logPair]
@[simp] theorem State.logPair_glb_rngReady (a b k : Nat) : (s.logPair a b k).glb.rngReady = s.glb.rngReady := by
  simp [State.logPair]
@[simp] theorem State.logPair_glb_startOk (a b k : Nat) : (s.logPair a b k).glb.startOk = s.glb.startOk := by
  simp [State.logPair]
@[simp] theorem State.logPair_glb_fallow (a b k : Nat) : (s.logPair a b k).glb.fallow = s.glb.fallow := by
  simp [State.logPair]
@[simp] theorem State.logPair_glb_locked (a b k : Nat) : (s.logPair a b k).glb.locked = s.glb.locked := by
  simp [State.logPair]
@[simp] theorem State.logPair_glb_linkDown (a b k : Nat) : (s.logPair a b k).glb.linkDown = s.glb.linkDown := by
  simp [State.logPair]

@[simp] theorem State.judged_pending (r : Requester) (o : Nat) (x : GuardResult) : (s.judged r o x).pending = s.pending := by
  unfold State.judged; dsimp only; repeat' split
  all_goals simp
@[simp] theorem State.judged_nextJob (r : Requester) (o : Nat) (x : GuardResult) : (s.judged r o x).nextJob = s.nextJob := by
  unfold State.judged; dsimp only; repeat' split
  all_goals simp
@[simp] theorem State.judged_queues (r : Requester) (o : Nat) (x : GuardResult) : (s.judged r o x).queues = s.queues := by
  unfold State.judged; dsimp only; repeat' split
  all_goals simp
@[simp] theorem State.judged_jobs (r : Requester) (o : Nat) (x : GuardResult) : (s.judged r o x).jobs = s.jobs := by
  unfold State.judged; dsimp only; repeat' split
  all_goals simp
@[simp] theorem State.judged_ports (r : Requester) (o : Nat) (x : GuardResult) : (s.judged r o x).ports = s.ports := by
  unfold State.judged; dsimp only; repeat' split
  all_goals simp
@[simp] theorem State.judged_tenants (r : Requester) (o : Nat) (x : GuardResult) : (s.judged r o x).tenants = s.tenants := by
  unfold State.judged; dsimp only; repeat' split
  all_goals simp
@[simp] theorem State.judged_beds (r : Requester) (o : Nat) (x : GuardResult) : (s.judged r o x).beds = s.beds := by
  unfold State.judged; dsimp only; repeat' split
  all_goals simp
@[simp] theorem State.judged_grains (r : Requester) (o : Nat) (x : GuardResult) : (s.judged r o x).grains = s.grains := by
  unfold State.judged; dsimp only; repeat' split
  all_goals simp
@[simp] theorem State.judged_quads (r : Requester) (o : Nat) (x : GuardResult) : (s.judged r o x).quads = s.quads := by
  unfold State.judged; dsimp only; repeat' split
  all_goals simp
@[simp] theorem State.judged_engines (r : Requester) (o : Nat) (x : GuardResult) : (s.judged r o x).engines = s.engines := by
  unfold State.judged; dsimp only; repeat' split
  all_goals simp
@[simp] theorem State.judged_vault (r : Requester) (o : Nat) (x : GuardResult) : (s.judged r o x).vault = s.vault := by
  unfold State.judged; dsimp only; repeat' split
  all_goals simp
@[simp] theorem State.judged_grade (r : Requester) (o : Nat) (x : GuardResult) : (s.judged r o x).grade = s.grade := by
  unfold State.judged; dsimp only; repeat' split
  all_goals simp
@[simp] theorem State.judged_uid (r : Requester) (o : Nat) (x : GuardResult) : (s.judged r o x).uid = s.uid := by
  unfold State.judged; dsimp only; repeat' split
  all_goals simp
@[simp] theorem State.judged_power (r : Requester) (o : Nat) (x : GuardResult) : (s.judged r o x).power = s.power := by
  unfold State.judged; dsimp only; repeat' split
  all_goals simp
@[simp] theorem State.judged_boot (r : Requester) (o : Nat) (x : GuardResult) : (s.judged r o x).boot = s.boot := by
  unfold State.judged; dsimp only; repeat' split
  all_goals simp
@[simp] theorem State.judged_rng (r : Requester) (o : Nat) (x : GuardResult) : (s.judged r o x).rng = s.rng := by
  unfold State.judged; dsimp only; repeat' split
  all_goals simp
@[simp] theorem State.judged_uncel (r : Requester) (o : Nat) (x : GuardResult) : (s.judged r o x).uncel = s.uncel := by
  unfold State.judged; dsimp only; repeat' split
  all_goals simp
@[simp] theorem State.judged_digests (r : Requester) (o : Nat) (x : GuardResult) : (s.judged r o x).digests = s.digests := by
  unfold State.judged; dsimp only; repeat' split
  all_goals simp
@[simp] theorem State.judged_spdm (r : Requester) (o : Nat) (x : GuardResult) : (s.judged r o x).spdm = s.spdm := by
  unfold State.judged; dsimp only; repeat' split
  all_goals simp
@[simp] theorem State.judged_tamper (r : Requester) (o : Nat) (x : GuardResult) : (s.judged r o x).tamper = s.tamper := by
  unfold State.judged; dsimp only; repeat' split
  all_goals simp
@[simp] theorem State.judged_tamperCfg (r : Requester) (o : Nat) (x : GuardResult) : (s.judged r o x).tamperCfg = s.tamperCfg := by
  unfold State.judged; dsimp only; repeat' split
  all_goals simp
@[simp] theorem State.judged_pgd (r : Requester) (o : Nat) (x : GuardResult) : (s.judged r o x).pgd = s.pgd := by
  unfold State.judged; dsimp only; repeat' split
  all_goals simp
@[simp] theorem State.judged_obs (r : Requester) (o : Nat) (x : GuardResult) : (s.judged r o x).obs = s.obs := by
  unfold State.judged; dsimp only; repeat' split
  all_goals simp
@[simp] theorem State.judged_i3c (r : Requester) (o : Nat) (x : GuardResult) : (s.judged r o x).i3c = s.i3c := by
  unfold State.judged; dsimp only; repeat' split
  all_goals simp
@[simp] theorem State.judged_glb_epoch (r : Requester) (o : Nat) (x : GuardResult) : (s.judged r o x).glb.epoch = s.glb.epoch := by
  unfold State.judged; dsimp only; repeat' split
  all_goals simp
@[simp] theorem State.judged_glb_lastSettled (r : Requester) (o : Nat) (x : GuardResult) : (s.judged r o x).glb.lastSettled = s.glb.lastSettled := by
  unfold State.judged; dsimp only; repeat' split
  all_goals simp
@[simp] theorem State.judged_glb_rngReady (r : Requester) (o : Nat) (x : GuardResult) : (s.judged r o x).glb.rngReady = s.glb.rngReady := by
  unfold State.judged; dsimp only; repeat' split
  all_goals simp
@[simp] theorem State.judged_glb_startOk (r : Requester) (o : Nat) (x : GuardResult) : (s.judged r o x).glb.startOk = s.glb.startOk := by
  unfold State.judged; dsimp only; repeat' split
  all_goals simp
@[simp] theorem State.judged_glb_fallow (r : Requester) (o : Nat) (x : GuardResult) : (s.judged r o x).glb.fallow = s.glb.fallow := by
  unfold State.judged; dsimp only; repeat' split
  all_goals simp
@[simp] theorem State.judged_glb_locked (r : Requester) (o : Nat) (x : GuardResult) : (s.judged r o x).glb.locked = s.glb.locked := by
  unfold State.judged; dsimp only; repeat' split
  all_goals simp
@[simp] theorem State.judged_glb_linkDown (r : Requester) (o : Nat) (x : GuardResult) : (s.judged r o x).glb.linkDown = s.glb.linkDown := by
  unfold State.judged; dsimp only; repeat' split
  all_goals simp

@[simp] theorem State.logHealth_pending (a b : Nat) : (s.logHealth a b).pending = s.pending := by
  simp [State.logHealth]
@[simp] theorem State.logHealth_nextJob (a b : Nat) : (s.logHealth a b).nextJob = s.nextJob := by
  simp [State.logHealth]
@[simp] theorem State.logHealth_glbPf (a b : Nat) : (s.logHealth a b).glbPf = s.glbPf := by
  simp [State.logHealth]
@[simp] theorem State.logHealth_guard (a b : Nat) : (s.logHealth a b).guard = s.guard := by
  simp [State.logHealth]
@[simp] theorem State.logHealth_posted (a b : Nat) : (s.logHealth a b).posted = s.posted := by
  simp [State.logHealth]
@[simp] theorem State.logHealth_queues (a b : Nat) : (s.logHealth a b).queues = s.queues := by
  simp [State.logHealth]
@[simp] theorem State.logHealth_jobs (a b : Nat) : (s.logHealth a b).jobs = s.jobs := by
  simp [State.logHealth]
@[simp] theorem State.logHealth_ports (a b : Nat) : (s.logHealth a b).ports = s.ports := by
  simp [State.logHealth]
@[simp] theorem State.logHealth_tenants (a b : Nat) : (s.logHealth a b).tenants = s.tenants := by
  simp [State.logHealth]
@[simp] theorem State.logHealth_beds (a b : Nat) : (s.logHealth a b).beds = s.beds := by
  simp [State.logHealth]
@[simp] theorem State.logHealth_grains (a b : Nat) : (s.logHealth a b).grains = s.grains := by
  simp [State.logHealth]
@[simp] theorem State.logHealth_quads (a b : Nat) : (s.logHealth a b).quads = s.quads := by
  simp [State.logHealth]
@[simp] theorem State.logHealth_engines (a b : Nat) : (s.logHealth a b).engines = s.engines := by
  simp [State.logHealth]
@[simp] theorem State.logHealth_vault (a b : Nat) : (s.logHealth a b).vault = s.vault := by
  simp [State.logHealth]
@[simp] theorem State.logHealth_grade (a b : Nat) : (s.logHealth a b).grade = s.grade := by
  simp [State.logHealth]
@[simp] theorem State.logHealth_uid (a b : Nat) : (s.logHealth a b).uid = s.uid := by
  simp [State.logHealth]
@[simp] theorem State.logHealth_power (a b : Nat) : (s.logHealth a b).power = s.power := by
  simp [State.logHealth]
@[simp] theorem State.logHealth_boot (a b : Nat) : (s.logHealth a b).boot = s.boot := by
  simp [State.logHealth]
@[simp] theorem State.logHealth_rng (a b : Nat) : (s.logHealth a b).rng = s.rng := by
  simp [State.logHealth]
@[simp] theorem State.logHealth_life (a b : Nat) : (s.logHealth a b).life = s.life := by
  simp [State.logHealth]
@[simp] theorem State.logHealth_uncel (a b : Nat) : (s.logHealth a b).uncel = s.uncel := by
  simp [State.logHealth]
@[simp] theorem State.logHealth_digests (a b : Nat) : (s.logHealth a b).digests = s.digests := by
  simp [State.logHealth]
@[simp] theorem State.logHealth_spdm (a b : Nat) : (s.logHealth a b).spdm = s.spdm := by
  simp [State.logHealth]
@[simp] theorem State.logHealth_tamper (a b : Nat) : (s.logHealth a b).tamper = s.tamper := by
  simp [State.logHealth]
@[simp] theorem State.logHealth_tamperCfg (a b : Nat) : (s.logHealth a b).tamperCfg = s.tamperCfg := by
  simp [State.logHealth]
@[simp] theorem State.logHealth_pgd (a b : Nat) : (s.logHealth a b).pgd = s.pgd := by
  simp [State.logHealth]
@[simp] theorem State.logHealth_obs (a b : Nat) : (s.logHealth a b).obs = s.obs := by
  simp [State.logHealth]
@[simp] theorem State.logHealth_i3c (a b : Nat) : (s.logHealth a b).i3c = s.i3c := by
  simp [State.logHealth]
@[simp] theorem State.logHealth_glb_epoch (a b : Nat) : (s.logHealth a b).glb.epoch = s.glb.epoch := by
  simp [State.logHealth]
@[simp] theorem State.logHealth_glb_lastSettled (a b : Nat) : (s.logHealth a b).glb.lastSettled = s.glb.lastSettled := by
  simp [State.logHealth]
@[simp] theorem State.logHealth_glb_rngReady (a b : Nat) : (s.logHealth a b).glb.rngReady = s.glb.rngReady := by
  simp [State.logHealth]
@[simp] theorem State.logHealth_glb_startOk (a b : Nat) : (s.logHealth a b).glb.startOk = s.glb.startOk := by
  simp [State.logHealth]
@[simp] theorem State.logHealth_glb_fallow (a b : Nat) : (s.logHealth a b).glb.fallow = s.glb.fallow := by
  simp [State.logHealth]
@[simp] theorem State.logHealth_glb_locked (a b : Nat) : (s.logHealth a b).glb.locked = s.glb.locked := by
  simp [State.logHealth]
@[simp] theorem State.logHealth_glb_linkDown (a b : Nat) : (s.logHealth a b).glb.linkDown = s.glb.linkDown := by
  simp [State.logHealth]

@[simp] theorem State.logKeyEvent_pending (a b k : Nat) : (s.logKeyEvent a b k).pending = s.pending := by
  simp [State.logKeyEvent]
@[simp] theorem State.logKeyEvent_nextJob (a b k : Nat) : (s.logKeyEvent a b k).nextJob = s.nextJob := by
  simp [State.logKeyEvent]
@[simp] theorem State.logKeyEvent_glbPf (a b k : Nat) : (s.logKeyEvent a b k).glbPf = s.glbPf := by
  simp [State.logKeyEvent]
@[simp] theorem State.logKeyEvent_guard (a b k : Nat) : (s.logKeyEvent a b k).guard = s.guard := by
  simp [State.logKeyEvent]
@[simp] theorem State.logKeyEvent_posted (a b k : Nat) : (s.logKeyEvent a b k).posted = s.posted := by
  simp [State.logKeyEvent]
@[simp] theorem State.logKeyEvent_queues (a b k : Nat) : (s.logKeyEvent a b k).queues = s.queues := by
  simp [State.logKeyEvent]
@[simp] theorem State.logKeyEvent_jobs (a b k : Nat) : (s.logKeyEvent a b k).jobs = s.jobs := by
  simp [State.logKeyEvent]
@[simp] theorem State.logKeyEvent_ports (a b k : Nat) : (s.logKeyEvent a b k).ports = s.ports := by
  simp [State.logKeyEvent]
@[simp] theorem State.logKeyEvent_tenants (a b k : Nat) : (s.logKeyEvent a b k).tenants = s.tenants := by
  simp [State.logKeyEvent]
@[simp] theorem State.logKeyEvent_beds (a b k : Nat) : (s.logKeyEvent a b k).beds = s.beds := by
  simp [State.logKeyEvent]
@[simp] theorem State.logKeyEvent_grains (a b k : Nat) : (s.logKeyEvent a b k).grains = s.grains := by
  simp [State.logKeyEvent]
@[simp] theorem State.logKeyEvent_quads (a b k : Nat) : (s.logKeyEvent a b k).quads = s.quads := by
  simp [State.logKeyEvent]
@[simp] theorem State.logKeyEvent_engines (a b k : Nat) : (s.logKeyEvent a b k).engines = s.engines := by
  simp [State.logKeyEvent]
@[simp] theorem State.logKeyEvent_vault (a b k : Nat) : (s.logKeyEvent a b k).vault = s.vault := by
  simp [State.logKeyEvent]
@[simp] theorem State.logKeyEvent_grade (a b k : Nat) : (s.logKeyEvent a b k).grade = s.grade := by
  simp [State.logKeyEvent]
@[simp] theorem State.logKeyEvent_uid (a b k : Nat) : (s.logKeyEvent a b k).uid = s.uid := by
  simp [State.logKeyEvent]
@[simp] theorem State.logKeyEvent_power (a b k : Nat) : (s.logKeyEvent a b k).power = s.power := by
  simp [State.logKeyEvent]
@[simp] theorem State.logKeyEvent_boot (a b k : Nat) : (s.logKeyEvent a b k).boot = s.boot := by
  simp [State.logKeyEvent]
@[simp] theorem State.logKeyEvent_rng (a b k : Nat) : (s.logKeyEvent a b k).rng = s.rng := by
  simp [State.logKeyEvent]
@[simp] theorem State.logKeyEvent_life (a b k : Nat) : (s.logKeyEvent a b k).life = s.life := by
  simp [State.logKeyEvent]
@[simp] theorem State.logKeyEvent_uncel (a b k : Nat) : (s.logKeyEvent a b k).uncel = s.uncel := by
  simp [State.logKeyEvent]
@[simp] theorem State.logKeyEvent_digests (a b k : Nat) : (s.logKeyEvent a b k).digests = s.digests := by
  simp [State.logKeyEvent]
@[simp] theorem State.logKeyEvent_spdm (a b k : Nat) : (s.logKeyEvent a b k).spdm = s.spdm := by
  simp [State.logKeyEvent]
@[simp] theorem State.logKeyEvent_tamper (a b k : Nat) : (s.logKeyEvent a b k).tamper = s.tamper := by
  simp [State.logKeyEvent]
@[simp] theorem State.logKeyEvent_tamperCfg (a b k : Nat) : (s.logKeyEvent a b k).tamperCfg = s.tamperCfg := by
  simp [State.logKeyEvent]
@[simp] theorem State.logKeyEvent_pgd (a b k : Nat) : (s.logKeyEvent a b k).pgd = s.pgd := by
  simp [State.logKeyEvent]
@[simp] theorem State.logKeyEvent_obs (a b k : Nat) : (s.logKeyEvent a b k).obs = s.obs := by
  simp [State.logKeyEvent]
@[simp] theorem State.logKeyEvent_i3c (a b k : Nat) : (s.logKeyEvent a b k).i3c = s.i3c := by
  simp [State.logKeyEvent]
@[simp] theorem State.logKeyEvent_glb_epoch (a b k : Nat) : (s.logKeyEvent a b k).glb.epoch = s.glb.epoch := by
  simp [State.logKeyEvent]
@[simp] theorem State.logKeyEvent_glb_lastSettled (a b k : Nat) : (s.logKeyEvent a b k).glb.lastSettled = s.glb.lastSettled := by
  simp [State.logKeyEvent]
@[simp] theorem State.logKeyEvent_glb_rngReady (a b k : Nat) : (s.logKeyEvent a b k).glb.rngReady = s.glb.rngReady := by
  simp [State.logKeyEvent]
@[simp] theorem State.logKeyEvent_glb_startOk (a b k : Nat) : (s.logKeyEvent a b k).glb.startOk = s.glb.startOk := by
  simp [State.logKeyEvent]
@[simp] theorem State.logKeyEvent_glb_fallow (a b k : Nat) : (s.logKeyEvent a b k).glb.fallow = s.glb.fallow := by
  simp [State.logKeyEvent]
@[simp] theorem State.logKeyEvent_glb_locked (a b k : Nat) : (s.logKeyEvent a b k).glb.locked = s.glb.locked := by
  simp [State.logKeyEvent]
@[simp] theorem State.logKeyEvent_glb_linkDown (a b k : Nat) : (s.logKeyEvent a b k).glb.linkDown = s.glb.linkDown := by
  simp [State.logKeyEvent]

@[simp] theorem State.logFree_pending : (s.logFree).pending = s.pending := by
  simp [State.logFree]
@[simp] theorem State.logFree_nextJob : (s.logFree).nextJob = s.nextJob := by
  simp [State.logFree]
@[simp] theorem State.logFree_glbPf : (s.logFree).glbPf = s.glbPf := by
  simp [State.logFree]
@[simp] theorem State.logFree_guard : (s.logFree).guard = s.guard := by
  simp [State.logFree]
@[simp] theorem State.logFree_posted : (s.logFree).posted = s.posted := by
  simp [State.logFree]
@[simp] theorem State.logFree_queues : (s.logFree).queues = s.queues := by
  simp [State.logFree]
@[simp] theorem State.logFree_jobs : (s.logFree).jobs = s.jobs := by
  simp [State.logFree]
@[simp] theorem State.logFree_ports : (s.logFree).ports = s.ports := by
  simp [State.logFree]
@[simp] theorem State.logFree_tenants : (s.logFree).tenants = s.tenants := by
  simp [State.logFree]
@[simp] theorem State.logFree_beds : (s.logFree).beds = s.beds := by
  simp [State.logFree]
@[simp] theorem State.logFree_grains : (s.logFree).grains = s.grains := by
  simp [State.logFree]
@[simp] theorem State.logFree_quads : (s.logFree).quads = s.quads := by
  simp [State.logFree]
@[simp] theorem State.logFree_engines : (s.logFree).engines = s.engines := by
  simp [State.logFree]
@[simp] theorem State.logFree_vault : (s.logFree).vault = s.vault := by
  simp [State.logFree]
@[simp] theorem State.logFree_grade : (s.logFree).grade = s.grade := by
  simp [State.logFree]
@[simp] theorem State.logFree_uid : (s.logFree).uid = s.uid := by
  simp [State.logFree]
@[simp] theorem State.logFree_power : (s.logFree).power = s.power := by
  simp [State.logFree]
@[simp] theorem State.logFree_boot : (s.logFree).boot = s.boot := by
  simp [State.logFree]
@[simp] theorem State.logFree_rng : (s.logFree).rng = s.rng := by
  simp [State.logFree]
@[simp] theorem State.logFree_life : (s.logFree).life = s.life := by
  simp [State.logFree]
@[simp] theorem State.logFree_uncel : (s.logFree).uncel = s.uncel := by
  simp [State.logFree]
@[simp] theorem State.logFree_digests : (s.logFree).digests = s.digests := by
  simp [State.logFree]
@[simp] theorem State.logFree_spdm : (s.logFree).spdm = s.spdm := by
  simp [State.logFree]
@[simp] theorem State.logFree_tamper : (s.logFree).tamper = s.tamper := by
  simp [State.logFree]
@[simp] theorem State.logFree_tamperCfg : (s.logFree).tamperCfg = s.tamperCfg := by
  simp [State.logFree]
@[simp] theorem State.logFree_pgd : (s.logFree).pgd = s.pgd := by
  simp [State.logFree]
@[simp] theorem State.logFree_obs : (s.logFree).obs = s.obs := by
  simp [State.logFree]
@[simp] theorem State.logFree_i3c : (s.logFree).i3c = s.i3c := by
  simp [State.logFree]
@[simp] theorem State.logFree_glb_epoch : (s.logFree).glb.epoch = s.glb.epoch := by
  simp [State.logFree]
@[simp] theorem State.logFree_glb_lastSettled : (s.logFree).glb.lastSettled = s.glb.lastSettled := by
  simp [State.logFree]
@[simp] theorem State.logFree_glb_rngReady : (s.logFree).glb.rngReady = s.glb.rngReady := by
  simp [State.logFree]
@[simp] theorem State.logFree_glb_startOk : (s.logFree).glb.startOk = s.glb.startOk := by
  simp [State.logFree]
@[simp] theorem State.logFree_glb_fallow : (s.logFree).glb.fallow = s.glb.fallow := by
  simp [State.logFree]
@[simp] theorem State.logFree_glb_locked : (s.logFree).glb.locked = s.glb.locked := by
  simp [State.logFree]
@[simp] theorem State.logFree_glb_linkDown : (s.logFree).glb.linkDown = s.glb.linkDown := by
  simp [State.logFree]

@[simp] theorem State.logPlatform_pending (a b k : Nat) : (s.logPlatform a b k).pending = s.pending := by
  simp [State.logPlatform]
@[simp] theorem State.logPlatform_nextJob (a b k : Nat) : (s.logPlatform a b k).nextJob = s.nextJob := by
  simp [State.logPlatform]
@[simp] theorem State.logPlatform_glbPf (a b k : Nat) : (s.logPlatform a b k).glbPf = s.glbPf := by
  simp [State.logPlatform]
@[simp] theorem State.logPlatform_guard (a b k : Nat) : (s.logPlatform a b k).guard = s.guard := by
  simp [State.logPlatform]
@[simp] theorem State.logPlatform_posted (a b k : Nat) : (s.logPlatform a b k).posted = s.posted := by
  simp [State.logPlatform]
@[simp] theorem State.logPlatform_queues (a b k : Nat) : (s.logPlatform a b k).queues = s.queues := by
  simp [State.logPlatform]
@[simp] theorem State.logPlatform_jobs (a b k : Nat) : (s.logPlatform a b k).jobs = s.jobs := by
  simp [State.logPlatform]
@[simp] theorem State.logPlatform_ports (a b k : Nat) : (s.logPlatform a b k).ports = s.ports := by
  simp [State.logPlatform]
@[simp] theorem State.logPlatform_tenants (a b k : Nat) : (s.logPlatform a b k).tenants = s.tenants := by
  simp [State.logPlatform]
@[simp] theorem State.logPlatform_beds (a b k : Nat) : (s.logPlatform a b k).beds = s.beds := by
  simp [State.logPlatform]
@[simp] theorem State.logPlatform_grains (a b k : Nat) : (s.logPlatform a b k).grains = s.grains := by
  simp [State.logPlatform]
@[simp] theorem State.logPlatform_quads (a b k : Nat) : (s.logPlatform a b k).quads = s.quads := by
  simp [State.logPlatform]
@[simp] theorem State.logPlatform_engines (a b k : Nat) : (s.logPlatform a b k).engines = s.engines := by
  simp [State.logPlatform]
@[simp] theorem State.logPlatform_vault (a b k : Nat) : (s.logPlatform a b k).vault = s.vault := by
  simp [State.logPlatform]
@[simp] theorem State.logPlatform_grade (a b k : Nat) : (s.logPlatform a b k).grade = s.grade := by
  simp [State.logPlatform]
@[simp] theorem State.logPlatform_uid (a b k : Nat) : (s.logPlatform a b k).uid = s.uid := by
  simp [State.logPlatform]
@[simp] theorem State.logPlatform_power (a b k : Nat) : (s.logPlatform a b k).power = s.power := by
  simp [State.logPlatform]
@[simp] theorem State.logPlatform_boot (a b k : Nat) : (s.logPlatform a b k).boot = s.boot := by
  simp [State.logPlatform]
@[simp] theorem State.logPlatform_rng (a b k : Nat) : (s.logPlatform a b k).rng = s.rng := by
  simp [State.logPlatform]
@[simp] theorem State.logPlatform_life (a b k : Nat) : (s.logPlatform a b k).life = s.life := by
  simp [State.logPlatform]
@[simp] theorem State.logPlatform_uncel (a b k : Nat) : (s.logPlatform a b k).uncel = s.uncel := by
  simp [State.logPlatform]
@[simp] theorem State.logPlatform_digests (a b k : Nat) : (s.logPlatform a b k).digests = s.digests := by
  simp [State.logPlatform]
@[simp] theorem State.logPlatform_spdm (a b k : Nat) : (s.logPlatform a b k).spdm = s.spdm := by
  simp [State.logPlatform]
@[simp] theorem State.logPlatform_tamper (a b k : Nat) : (s.logPlatform a b k).tamper = s.tamper := by
  simp [State.logPlatform]
@[simp] theorem State.logPlatform_tamperCfg (a b k : Nat) : (s.logPlatform a b k).tamperCfg = s.tamperCfg := by
  simp [State.logPlatform]
@[simp] theorem State.logPlatform_pgd (a b k : Nat) : (s.logPlatform a b k).pgd = s.pgd := by
  simp [State.logPlatform]
@[simp] theorem State.logPlatform_obs (a b k : Nat) : (s.logPlatform a b k).obs = s.obs := by
  simp [State.logPlatform]
@[simp] theorem State.logPlatform_i3c (a b k : Nat) : (s.logPlatform a b k).i3c = s.i3c := by
  simp [State.logPlatform]
@[simp] theorem State.logPlatform_glb_epoch (a b k : Nat) : (s.logPlatform a b k).glb.epoch = s.glb.epoch := by
  simp [State.logPlatform]
@[simp] theorem State.logPlatform_glb_lastSettled (a b k : Nat) : (s.logPlatform a b k).glb.lastSettled = s.glb.lastSettled := by
  simp [State.logPlatform]
@[simp] theorem State.logPlatform_glb_rngReady (a b k : Nat) : (s.logPlatform a b k).glb.rngReady = s.glb.rngReady := by
  simp [State.logPlatform]
@[simp] theorem State.logPlatform_glb_startOk (a b k : Nat) : (s.logPlatform a b k).glb.startOk = s.glb.startOk := by
  simp [State.logPlatform]
@[simp] theorem State.logPlatform_glb_fallow (a b k : Nat) : (s.logPlatform a b k).glb.fallow = s.glb.fallow := by
  simp [State.logPlatform]
@[simp] theorem State.logPlatform_glb_locked (a b k : Nat) : (s.logPlatform a b k).glb.locked = s.glb.locked := by
  simp [State.logPlatform]
@[simp] theorem State.logPlatform_glb_linkDown (a b k : Nat) : (s.logPlatform a b k).glb.linkDown = s.glb.linkDown := by
  simp [State.logPlatform]

end Sys2Proof.Machine
end

