-- ==== Sys2Proof/Laws/Uncel.lean ====
section
/-!
SUPPORT. Byte fields, the lengths of Keccak outputs, and frames of the chain: a frame is read as it was sent, and a tag does not
cover itself.
-/
namespace Sys2Proof.Machine

theorem squeezeBlocks_length (rate n st : Nat) : (squeezeBlocks rate n st).length = n * rate := by
  induction n generalizing st with
  | zero => simp [squeezeBlocks]
  | succ n ih => simp [squeezeBlocks, ih, Nat.succ_mul, Nat.add_comm]

theorem sponge_length {rate : Nat} (h : 0 < rate) (suf n : Nat) (m : List Byte) : (sponge rate suf n m).length = n := by
  have e := Nat.lt_div_mul_add (a := n) h
  simp only [sponge, List.length_take, squeezeBlocks_length, Nat.add_mul, Nat.one_mul]
  omega

theorem kmac_length (n : Nat) (key m s : List Byte) : (kmac 256 n key m s).length = n := by
  unfold kmac cshake
  simp only
  split
  · exact sponge_length (by decide) _ _ _
  · exact sponge_length (by decide) _ _ _

theorem leNat_leBytes (n v : Nat) (h : v < 256 ^ n) : leNat (leBytes n v) = v := by
  induction n generalizing v with
  | zero => simp at h; simp [leBytes, leNat, h]
  | succ n ih =>
    have h2 : v / 256 < 256 ^ n := Nat.div_lt_of_lt_mul (by rw [Nat.pow_succ] at h; omega)
    simp only [leBytes, leNat, ih _ h2, BitVec.toNat_ofNat]
    omega

theorem crc32_lt (b : List Byte) : crc32 b < 256 ^ 4 := BitVec.isLt _

/-- A field of its own width behind what precedes it. -/
theorem field_append (a b : List Byte) (off n v : Nat) (ho : a.length = off) (h : v < 256 ^ n) :
    field (a ++ (leBytes n v ++ b)) off n = v := by
  subst ho
  simp [field, slice, leNat_leBytes n v h]

/-- A frame is read as it was sent. -/
theorem parseFrame_bytes (f : Frame) (h1 : f.dst < 65536) (h2 : f.src < 65536) (h3 : f.type < 256) (h4 : f.hops < 256) (h5 : f.tag < 65536)
    (h6 : f.payload.length ≤ 256) : parseFrame f.bytes = some f := by
  have hl : f.body.length = f.payload.length + 10 := by simp [Frame.body]; omega
  have hb : f.bytes.length = f.payload.length + 14 := by simp [Frame.bytes, hl]
  have k : f.bytes = leBytes 2 f.dst ++ (leBytes 2 f.src ++ (leBytes 1 f.type ++ (leBytes 1 f.hops ++ (leBytes 2 f.payload.length ++
      (leBytes 2 f.tag ++ (f.payload ++ leBytes 4 (crc32 f.body))))))) := by simp [Frame.bytes, Frame.body]
  have e0 : field f.bytes 0 2 = f.dst := by rw [k]; exact field_append [] _ 0 2 _ rfl h1
  have e1 : field f.bytes 2 2 = f.src := by rw [k]; exact field_append (leBytes 2 f.dst) _ 2 2 _ (by simp) h2
  have e2 : field f.bytes 4 1 = f.type := by
    rw [k, ← List.append_assoc]; exact field_append _ _ 4 1 _ (by simp) h3
  have e3 : field f.bytes 5 1 = f.hops := by
    rw [k, ← List.append_assoc, ← List.append_assoc]; exact field_append _ _ 5 1 _ (by simp) h4
  have e4 : field f.bytes 6 2 = f.payload.length := by
    rw [k, ← List.append_assoc, ← List.append_assoc, ← List.append_assoc]; exact field_append _ _ 6 2 _ (by simp) (by omega)
  have e5 : field f.bytes 8 2 = f.tag := by
    rw [k, ← List.append_assoc, ← List.append_assoc, ← List.append_assoc, ← List.append_assoc]; exact field_append _ _ 8 2 _ (by simp) h5
  have e6 : field f.bytes (f.payload.length + 10) 4 = crc32 f.body := by
    have := field_append f.body [] (f.payload.length + 10) 4 _ hl (crc32_lt f.body)
    simpa [Frame.bytes] using this
  have e7 : f.bytes.take (f.payload.length + 10) = f.body := by rw [← hl]; simp [Frame.bytes]
  have e8 : slice f.bytes 10 f.payload.length = f.payload := by
    have p : (leBytes 2 f.dst ++ leBytes 2 f.src ++ leBytes 1 f.type ++ leBytes 1 f.hops ++ leBytes 2 f.payload.length ++ leBytes 2 f.tag).length = 10 := by simp
    have q : f.bytes = (leBytes 2 f.dst ++ leBytes 2 f.src ++ leBytes 1 f.type ++ leBytes 1 f.hops ++ leBytes 2 f.payload.length ++ leBytes 2 f.tag) ++
        (f.payload ++ leBytes 4 (crc32 f.body)) := by simp [Frame.bytes, Frame.body]
    rw [slice, q, List.drop_append_of_le_length (by omega), List.drop_of_length_le (by omega)]
    simp
  unfold parseFrame
  simp only [hb, Nat.add_sub_cancel, e0, e1, e2, e3, e4, e5, e6, e7, e8]
  simp [h6]

/-- The tag of a payload does not depend on the 16 bytes in its place. -/
theorem frameTag_append (key : List Byte) (f : Frame) (plain a b : List Byte) (ha : a.length = 16) (hb : b.length = 16) :
    frameTag key { f with payload := plain ++ a } = frameTag key { f with payload := plain ++ b } := by
  simp [frameTag, Frame.body, ha, hb, slice, leBytes]

/-- A frame whose payload ends with its tag. -/
theorem frameTag_sealed (key : List Byte) (f : Frame) (plain : List Byte) :
    let g : Frame := { f with payload := plain ++ frameTag key { f with payload := plain ++ List.replicate 16 0#8 } }
    frameTag key g = g.payload.drop (g.payload.length - 16) := by
  have h : ∀ g : Frame, (frameTag key g).length = 16 := fun g => kmac_length 16 _ _ _
  simp only [List.length_append, h, Nat.add_sub_cancel, List.drop_left]
  exact frameTag_append key f plain _ _ (h _) (by simp)

end Sys2Proof.Machine
end

