-- ==== Sys2Proof/WellFormed.lean ====
section
/-!
DEFINITION. Well-formed commands: every number that names a unit of the device is one that the device has (R2, R9, R14, R33,
R48, R76, R281, R308, R326, R372). A meaning asks nothing of this: a command whose subject is absent changes nothing.
-/
namespace Sys2Proof

/-- Logical grains. -/
def grainCount : Nat := 1024
/-- Logical big-number engines. -/
def engineCount : Nat := 64
/-- Queue pairs. -/
def pairCount : Nat := 8192
/-- Beds. -/
def bedCount : Nat := 64
/-- Key slots. -/
def slotCount : Nat := 4096
/-- Tenants of the TPT. -/
def tenantCount : Nat := 1024
/-- Digest windows, the subsoil engines' two among them. -/
def digestCount : Nat := 18

/-- A requester that exists: a PF of one of four ports, a VF of a port, one of four loam cores (R33). -/
def Requester.ok : Requester → Bool
  | .pf p => decide (p < 4)
  | .vf p v => decide (p < 4) && decide (v < 1024)
  | .loam k => decide (k < 4)

/-- A transport that exists (R427). -/
def Transport.ok : Transport → Bool
  | .vdm p => decide (p < 4)
  | .admin p => decide (p < 4)
  | .i3c => true
  | .uncel => true
  | .tap => true

/-- A command names units that the device has. -/
def wellFormed (i : Instr) : Bool :=
  match i with
  | .dieLinkIntegrityEvent => true
  | .zeroizeRequest => true
  | .zeroizeScrubDone _ => true
  | .sqAcknowledge r _ _ => r.ok
  | .sqPendingIncrement _ => true
  | .guardFirstWrite r _ _ => r.ok
  | .guardPairTimeout r => r.ok
  | .armingLapse p => decide (p < 4)
  | .postedWrite p _ _ => decide (p < 4)
  | .postedWriteApplied _ => true
  | .registerWrite r _ => r.ok
  | .glbEpochRaise r _ _ => r.ok
  | .glbReset r _ _ => r.ok
  | .glbTenantRemove r _ _ => r.ok
  | .tenantRemoveDone t => decide (t < tenantCount)
  | .keySlotDestroy r _ _ => r.ok
  | .slotDestroyDone slot => decide (slot < slotCount)
  | .bootRevoke r _ _ => r.ok
  | .pgdHoldAssert r _ _ => r.ok
  | .pgdHoldRelease r _ _ => r.ok
  | .pgdSieveEn r _ _ => r.ok
  | .pgdUpdWin r _ _ => r.ok
  | .tmpCfgs r _ _ => r.ok
  | .lcsReq r _ _ => r.ok
  | .rngSrcSel r _ _ => r.ok
  | .queueEnable p _ _ => decide (p < 4)
  | .queueDisable p _ _ => decide (p < 4)
  | .queueDrainDone q => decide (q < pairCount)
  | .sqTailDoorbell p _ _ _ _ => decide (p < 4)
  | .cqHeadDoorbell p _ _ _ _ => decide (p < 4)
  | .descriptorFetch q _ => decide (q < pairCount)
  | .jobPlacement q => decide (q < pairCount)
  | .keyStage _ _ => true
  | .inputDmaDone _ _ _ => true
  | .outputStageDone _ _ _ _ => true
  | .irqCoalesceTimeout q => decide (q < pairCount)
  | .msixVectorUnmask p _ _ => decide (p < 4)
  | .dlogFlip p _ _ => decide (p < 4)
  | .dlogFlipDone p _ => decide (p < 4)
  | .perstAssert p => decide (p < 4)
  | .functionLevelReset p _ => decide (p < 4)
  | .flrComplete p _ => decide (p < 4)
  | .ideKmKeyProg v _ _ _ => v.transport.ok
  | .lockInterface v _ => v.transport.ok
  | .startInterface v _ => v.transport.ok
  | .stopInterface v _ => v.transport.ok
  | .getDeviceInterfaceReport v _ => v.transport.ok
  | .dmaFrameBoundary p => decide (p < 4)
  | .linkRetrain p _ _ => decide (p < 4)
  | .tenantSet v t _ => v.transport.ok && decide (t < tenantCount)
  | .quiesce v t => v.transport.ok && decide (t < tenantCount)
  | .tenantDrained t => decide (t < tenantCount)
  | .resume v t => v.transport.ok && decide (t < tenantCount)
  | .removeArm v t _ => v.transport.ok && decide (t < tenantCount)
  | .migrateExport v t _ _ _ => v.transport.ok && decide (t < tenantCount)
  | .migrateImport v t _ => v.transport.ok && decide (t < tenantCount)
  | .globalArm v _ _ => v.transport.ok
  | .bedApplyDone b => decide (b < bedCount)
  | .bedGateOpen b => decide (b < bedCount)
  | .quadrantPllLock q => decide (q < 4)
  | .bedWakeDone b => decide (b < bedCount)
  | .bedIdleTimeout b => decide (b < bedCount)
  | .bedDormantEntryDone b => decide (b < bedCount)
  | .quadrantPllUnlock q => decide (q < 4)
  | .pllRelockTimeout q => decide (q < 4)
  | .programLoadDone g => decide (g < grainCount)
  | .grainScrubDone g => decide (g < grainCount)
  | .cycleBoundReached g => decide (g < grainCount)
  | .expanderSeedArrival g => decide (g < grainCount)
  | .rngTimeout _ => true
  | .csPatrolRead g _ => decide (g < grainCount)
  | .csReloadDone g _ => decide (g < grainCount)
  | .add g _ _ _ _ => decide (g < grainCount)
  | .sub g _ _ _ _ => decide (g < grainCount)
  | .and g _ _ _ => decide (g < grainCount)
  | .or g _ _ _ => decide (g < grainCount)
  | .xor g _ _ _ => decide (g < grainCount)
  | .andn g _ _ _ => decide (g < grainCount)
  | .sll g _ _ _ _ => decide (g < grainCount)
  | .srl g _ _ _ _ => decide (g < grainCount)
  | .sra g _ _ _ _ => decide (g < grainCount)
  | .rol g _ _ _ _ => decide (g < grainCount)
  | .ror g _ _ _ _ => decide (g < grainCount)
  | .slt g _ _ _ => decide (g < grainCount)
  | .sltu g _ _ _ => decide (g < grainCount)
  | .csel g _ _ _ => decide (g < grainCount)
  | .mul g _ _ _ _ => decide (g < grainCount)
  | .mulhu g _ _ _ => decide (g < grainCount)
  | .mulh g _ _ _ => decide (g < grainCount)
  | .divu g _ _ _ _ => decide (g < grainCount)
  | .remu g _ _ _ _ => decide (g < grainCount)
  | .sextb g _ _ => decide (g < grainCount)
  | .sexth g _ _ => decide (g < grainCount)
  | .sextw g _ _ => decide (g < grainCount)
  | .popcnt g _ _ => decide (g < grainCount)
  | .clz g _ _ => decide (g < grainCount)
  | .jr g _ _ => decide (g < grainCount)
  | .addi g _ _ _ => decide (g < grainCount)
  | .andi g _ _ _ => decide (g < grainCount)
  | .ori g _ _ _ => decide (g < grainCount)
  | .xori g _ _ _ => decide (g < grainCount)
  | .shi g _ _ _ _ _ => decide (g < grainCount)
  | .movz g _ _ _ => decide (g < grainCount)
  | .movk g _ _ _ => decide (g < grainCount)
  | .ld g _ _ _ _ => decide (g < grainCount)
  | .lw g _ _ _ _ => decide (g < grainCount)
  | .lh g _ _ _ _ => decide (g < grainCount)
  | .lb g _ _ _ _ => decide (g < grainCount)
  | .sd g _ _ _ => decide (g < grainCount)
  | .sw g _ _ _ => decide (g < grainCount)
  | .sh g _ _ _ => decide (g < grainCount)
  | .sb g _ _ _ => decide (g < grainCount)
  | .fld g _ _ _ _ => decide (g < grainCount)
  | .fsd g _ _ _ => decide (g < grainCount)
  | .sld g _ _ _ _ => decide (g < grainCount)
  | .sst g _ _ _ => decide (g < grainCount)
  | .beq g _ _ _ => decide (g < grainCount)
  | .bne g _ _ _ => decide (g < grainCount)
  | .blt g _ _ _ => decide (g < grainCount)
  | .bge g _ _ _ => decide (g < grainCount)
  | .bltu g _ _ _ => decide (g < grainCount)
  | .bgeu g _ _ _ => decide (g < grainCount)
  | .jal g _ _ => decide (g < grainCount)
  | .endJob g => decide (g < grainCount)
  | .fadd g _ _ _ _ => decide (g < grainCount)
  | .fsub g _ _ _ _ => decide (g < grainCount)
  | .fmul g _ _ _ _ => decide (g < grainCount)
  | .fdiv g _ _ _ _ => decide (g < grainCount)
  | .fsqrt g _ _ _ => decide (g < grainCount)
  | .fma g _ _ _ _ => decide (g < grainCount)
  | .fmin g _ _ _ _ => decide (g < grainCount)
  | .fmax g _ _ _ _ => decide (g < grainCount)
  | .fneg g _ _ _ => decide (g < grainCount)
  | .fabs g _ _ _ => decide (g < grainCount)
  | .feq g _ _ _ _ => decide (g < grainCount)
  | .flt g _ _ _ _ => decide (g < grainCount)
  | .fle g _ _ _ _ => decide (g < grainCount)
  | .fcvtld g _ _ _ => decide (g < grainCount)
  | .fcvtdl g _ _ _ => decide (g < grainCount)
  | .fmvxd g _ _ _ => decide (g < grainCount)
  | .fmvdx g _ _ _ => decide (g < grainCount)
  | .svVadd g _ _ _ _ => decide (g < grainCount)
  | .svVsub g _ _ _ _ => decide (g < grainCount)
  | .svVand g _ _ _ _ => decide (g < grainCount)
  | .svVor g _ _ _ _ => decide (g < grainCount)
  | .svVxor g _ _ _ _ => decide (g < grainCount)
  | .svVandn g _ _ _ _ => decide (g < grainCount)
  | .svVshl g _ _ _ _ => decide (g < grainCount)
  | .svVsrl g _ _ _ _ => decide (g < grainCount)
  | .svVsra g _ _ _ _ => decide (g < grainCount)
  | .svVcmpeq g _ _ _ _ => decide (g < grainCount)
  | .svVcmpgt g _ _ _ _ => decide (g < grainCount)
  | .svVsel g _ _ _ _ => decide (g < grainCount)
  | .svVmullo g _ _ _ _ => decide (g < grainCount)
  | .svVmulhi g _ _ _ _ => decide (g < grainCount)
  | .svVpermb g _ _ _ _ => decide (g < grainCount)
  | .svVsplat g _ _ _ => decide (g < grainCount)
  | .svVins g _ _ _ _ => decide (g < grainCount)
  | .svVext g _ _ _ _ => decide (g < grainCount)
  | .shainit g _ => decide (g < grainCount)
  | .shablk g _ => decide (g < grainCount)
  | .shaout g _ => decide (g < grainCount)
  | .shald g _ => decide (g < grainCount)
  | .aeskey g _ _ => decide (g < grainCount)
  | .aeskeym g _ _ => decide (g < grainCount)
  | .aesenc g _ _ => decide (g < grainCount)
  | .aesdec g _ _ => decide (g < grainCount)
  | .aesencm g _ _ => decide (g < grainCount)
  | .aesdecm g _ _ => decide (g < grainCount)
  | .tdeskey g _ _ => decide (g < grainCount)
  | .tdeskeym g _ _ => decide (g < grainCount)
  | .tdesenc g _ _ => decide (g < grainCount)
  | .tdesdec g _ _ => decide (g < grainCount)
  | .tdesencm g _ _ => decide (g < grainCount)
  | .tdesdecm g _ _ => decide (g < grainCount)
  | .kperm g _ => decide (g < grainCount)
  | .inpull g _ _ => decide (g < grainCount)
  | .outpush g _ _ _ _ => decide (g < grainCount)
  | .bnput g _ _ _ => decide (g < grainCount)
  | .bnget g _ _ _ => decide (g < grainCount)
  | .bncmd g _ _ _ => decide (g < grainCount)
  | .bngo g _ _ => decide (g < grainCount)
  | .bnwait g _ _ => decide (g < grainCount)
  | .bnrel g _ => decide (g < grainCount)
  | .csrr g _ _ => decide (g < grainCount)
  | .csrw g _ _ => decide (g < grainCount)
  | .vadd g _ => decide (g < grainCount)
  | .vsub g _ => decide (g < grainCount)
  | .vneg g _ => decide (g < grainCount)
  | .vcabs g _ => decide (g < grainCount)
  | .vand g _ => decide (g < grainCount)
  | .vor g _ => decide (g < grainCount)
  | .vxor g _ => decide (g < grainCount)
  | .vandn g _ => decide (g < grainCount)
  | .vsll g _ => decide (g < grainCount)
  | .vsrl g _ => decide (g < grainCount)
  | .vsra g _ => decide (g < grainCount)
  | .vcmpeq g _ => decide (g < grainCount)
  | .vcmpltu g _ => decide (g < grainCount)
  | .vcmpgeu g _ => decide (g < grainCount)
  | .vsel g _ => decide (g < grainCount)
  | .vsplat g _ => decide (g < grainCount)
  | .vmul g _ => decide (g < grainCount)
  | .vmulm g _ => decide (g < grainCount)
  | .vmac g _ => decide (g < grainCount)
  | .vmacm g _ => decide (g < grainCount)
  | .vred g _ => decide (g < grainCount)
  | .vkbmul g _ => decide (g < grainCount)
  | .vclmullo g _ => decide (g < grainCount)
  | .vclmulhi g _ => decide (g < grainCount)
  | .vgfmul g _ => decide (g < grainCount)
  | .vgfinv g _ _ => decide (g < grainCount)
  | .vntts g _ _ _ => decide (g < grainCount)
  | .vintts g _ _ _ => decide (g < grainCount)
  | .vbfct g _ _ => decide (g < grainCount)
  | .vbfgs g _ _ => decide (g < grainCount)
  | .vld g _ _ _ _ _ _ => decide (g < grainCount)
  | .vst g _ _ _ _ _ => decide (g < grainCount)
  | .vmov g _ => decide (g < grainCount)
  | .vgather g _ => decide (g < grainCount)
  | .vscatter g _ => decide (g < grainCount)
  | .vcompact g _ => decide (g < grainCount)
  | .vpermgen g _ _ => decide (g < grainCount)
  | .vgatherm g _ _ => decide (g < grainCount)
  | .vscatterm g _ => decide (g < grainCount)
  | .vext g _ => decide (g < grainCount)
  | .vins g _ => decide (g < grainCount)
  | .vkeccak g _ _ => decide (g < grainCount)
  | .vkabs g _ _ => decide (g < grainCount)
  | .vsqz g _ => decide (g < grainCount)
  | .vrej g _ => decide (g < grainCount)
  | .vcbd g _ => decide (g < grainCount)
  | .vsib g _ _ => decide (g < grainCount)
  | .vrefreshb g _ _ _ => decide (g < grainCount)
  | .vrefresha g _ _ _ => decide (g < grainCount)
  | .va2b g _ _ _ => decide (g < grainCount)
  | .vb2a g _ _ _ => decide (g < grainCount)
  | .vmand g _ _ _ => decide (g < grainCount)
  | .vmcmpeq g _ _ _ => decide (g < grainCount)
  | .vmcmplt g _ _ _ => decide (g < grainCount)
  | .vmall g _ _ _ => decide (g < grainCount)
  | .vmdecomp g _ _ _ => decide (g < grainCount)
  | .vunmaskb g _ => decide (g < grainCount)
  | .vunmaska g _ => decide (g < grainCount)
  | .pand g _ _ _ => decide (g < grainCount)
  | .por g _ _ _ => decide (g < grainCount)
  | .pxor g _ _ _ => decide (g < grainCount)
  | .pandn g _ _ _ => decide (g < grainCount)
  | .psetn g _ _ => decide (g < grainCount)
  | .pcnt g _ _ => decide (g < grainCount)
  | .bnEnd n => decide (n < engineCount)
  | .modadd n _ _ _ _ => decide (n < engineCount)
  | .modsub n _ _ _ _ => decide (n < engineCount)
  | .modmul n _ _ _ _ => decide (n < engineCount)
  | .modsqr n _ _ _ => decide (n < engineCount)
  | .modinv n _ _ _ => decide (n < engineCount)
  | .modexp n _ _ _ _ _ _ => decide (n < engineCount)
  | .modred n _ _ _ _ _ => decide (n < engineCount)
  | .blind n _ _ _ _ _ => decide (n < engineCount)
  | .setmod n _ _ _ _ => decide (n < engineCount)
  | .rawclr n => decide (n < engineCount)
  | .rawmac n _ _ _ _ _ => decide (n < engineCount)
  | .rawout n _ _ => decide (n < engineCount)
  | .join n _ _ _ _ => decide (n < engineCount)
  | .copy n _ _ => decide (n < engineCount)
  | .revb n _ _ _ => decide (n < engineCount)
  | .cswap n _ _ _ _ => decide (n < engineCount)
  | .setc n _ _ => decide (n < engineCount)
  | .djnz n _ _ => decide (n < engineCount)
  | .chkeq n _ _ _ => decide (n < engineCount)
  | .chknz n _ _ => decide (n < engineCount)
  | .ldi n _ _ => decide (n < engineCount)
  | .bneScrubDone n => decide (n < engineCount)
  | .katSchedule _ => true
  | .katDone _ _ => true
  | .agingRead _ => true
  | .obsCounterLoRead p t _ => decide (p < 4) && decide (t < tenantCount)
  | .digCtlWrite r e _ => r.ok && decide (e < digestCount)
  | .digDataWrite r e _ => r.ok && decide (e < digestCount)
  | .digLastWrite r e _ => r.ok && decide (e < digestCount)
  | .digLenWrite r e _ => r.ok && decide (e < digestCount)
  | .digAddrHiWrite r e _ => r.ok && decide (e < digestCount)
  | .digDmaDone e _ => decide (e < digestCount)
  | .digResultReady e => decide (e < digestCount)
  | .noiseBlockDone src _ => decide (src < 20)
  | .sourceCalibrationDone src => decide (src < 20)
  | .conditionerSeedOut => true
  | .rngFirstSeedTimeout => true
  | .drbgInstantiate p _ => decide (p < 4)
  | .drbgGenerateDone p => decide (p < 4)
  | .drbgReseedDone p => decide (p < 4)
  | .keyPortBufferRefill q p => decide (q < 4) && decide (p < 4)
  | .rngCaptureStart _ => true
  | .rngCaptureDone _ => true
  | .randomBytes _ => true
  | .randomBytesPr _ => true
  | .conditionedEntropy _ => true
  | .nop _ => true
  | .mlKemKeygen _ => true
  | .mlKemEncaps _ => true
  | .mlKemDecaps _ _ => true
  | .mlDsaKeygen _ => true
  | .mlDsaSignHedged _ _ => true
  | .mlDsaSignDeterministic _ _ => true
  | .hashmlDsaSignHedged _ _ => true
  | .hashmlDsaSignDeterministic _ _ => true
  | .mlDsaVerify _ => true
  | .hashmlDsaVerify _ => true
  | .fnDsaKeygen _ => true
  | .fnDsaSign _ _ => true
  | .hashfnDsaSign _ _ => true
  | .fnDsaVerify _ => true
  | .hashfnDsaVerify _ => true
  | .compositeSign _ _ => true
  | .compositeVerify _ => true
  | .slhDsaKeygen _ => true
  | .slhDsaSignHedged _ => true
  | .slhDsaSignDeterministic _ => true
  | .hashslhDsaSignHedged _ => true
  | .hashslhDsaSignDeterministic _ => true
  | .slhDsaVerify _ => true
  | .hashslhDsaVerify _ => true
  | .hssKeygen _ => true
  | .hssSign _ _ => true
  | .hssVerify _ => true
  | .lmsVerify _ => true
  | .xmssMtKeygen _ => true
  | .xmssMtSign _ _ => true
  | .xmssVerify _ => true
  | .xmssMtVerify _ => true
  | .leafReservationDone slot => decide (slot < slotCount)
  | .treeRestorationJob slot => decide (slot < slotCount)
  | .hqcKeygen _ => true
  | .hqcEncaps _ => true
  | .mcelieceEncaps _ => true
  | .hqcDecaps _ _ => true
  | .mcelieceDecaps _ _ => true
  | .ecdsaKeygen _ => true
  | .ecdsaSignMessage _ => true
  | .ecdsaSignDigest _ => true
  | .ecdsaVerifyMessage _ => true
  | .ecdsaVerifyDigest _ => true
  | .eddsaKeygen _ => true
  | .eddsaSign _ => true
  | .eddsaVerify _ => true
  | .kaKeygen _ => true
  | .kaDerive _ => true
  | .rsassaPssSign _ _ => true
  | .rsaesOaepDecrypt _ _ => true
  | .rsaesOaepEncrypt _ => true
  | .rsassaPssVerify _ => true
  | .pkcs1V15Verify _ => true
  | .hash _ => true
  | .hmacGenerate _ => true
  | .hmacVerify _ => true
  | .kmacGenerate _ => true
  | .kmacVerify _ => true
  | .aesEncrypt _ => true
  | .aesDecrypt _ => true
  | .tdesEncrypt _ => true
  | .tdesDecrypt _ => true
  | .cmacGenerate _ => true
  | .cmacVerify _ => true
  | .wrap _ => true
  | .unwrap _ => true
  | .pinTranslate _ _ => true
  | .pinCompare _ _ => true
  | .macAlgorithm3Generate _ => true
  | .macAlgorithm3Verify _ => true
  | .dukptInitialKeyExport _ => true
  | .dukptPinTranslate _ _ => true
  | .dukptCmacGenerate _ => true
  | .dukptCmacVerify _ => true
  | .keyBlockImport _ => true
  | .keyBlockExport _ => true
  | .slotPrepare _ => true
  | .symmetricGenerate _ => true
  | .importPublicKey _ => true
  | .importWrapped _ => true
  | .importBlob _ => true
  | .exportBlob _ => true
  | .derive _ => true
  | .readPublicKey _ => true
  | .contextOpen _ => true
  | .contextStep _ => true
  | .contextClose _ => true
  | .contextDiscard _ => true
  | .ownerExtension _ => true
  | .mctpMessage _ => true
  | .budgetFloorWriteDone slot => decide (slot < slotCount)
  | .shelfRestoreDone _ => true
  | .slotAssign v slot _ _ => v.transport.ok && decide (slot < slotCount)
  | .budgetLower v slot _ => v.transport.ok && decide (slot < slotCount)
  | .destroyArm v slot _ => v.transport.ok && decide (slot < slotCount)
  | .settleHoldStart supply => decide (supply < 9)
  | .settleHoldRelease supply => decide (supply < 9)
  | .settleHoldTimeout => true
  | .topsoilBrownOut supply => decide (supply < 9)
  | .subsoilBrownOut supply => decide (supply < 9)
  | .vddSmWarning => true
  | .vddSmRelease => true
  | .vddSWarning _ => true
  | .powerOnReset _ _ _ => true
  | .porRelease _ _ _ _ => true
  | .sysResetAssert => true
  | .sysResetRelease _ _ _ _ => true
  | .subsoilPllLock => true
  | .fullResetStart _ _ _ _ => true
  | .rootSecretRenewal => true
  | .sealCheckStart => true
  | .sealCheckDone => true
  | .topsoilPowerUp _ _ => true
  | .startOk => true
  | .bringupTimeout => true
  | .loamWatchdogTimeout k => decide (k < 4)
  | .loamMachineCheck => true
  | .imageBegin v _ _ => v.transport.ok
  | .imageData v _ _ => v.transport.ok
  | .imageCommit v => v.transport.ok
  | .imageActivate v _ _ => v.transport.ok
  | .revokeArm v _ _ => v.transport.ok
  | .fallowStatus v => v.transport.ok
  | .fallowExit v _ => v.transport.ok
  | .channelInitDone c _ _ _ _ _ => decide (c < 2)
  | .manifestVerifyDone c _ => decide (c < 2)
  | .blockScanDone c _ => decide (c < 2)
  | .holdAutoRelease k => decide (k < 8)
  | .hostFlashRead c _ _ _ _ _ _ => decide (c < 2)
  | .hostFlashProgram c _ _ _ => decide (c < 2)
  | .hostFlashErase c _ _ => decide (c < 2)
  | .hostFlashStatus c _ _ => decide (c < 2)
  | .hostFlashConfig c _ _ _ => decide (c < 2)
  | .hostFlashReset c => decide (c < 2)
  | .watchedCompletionRead c _ _ => decide (c < 2)
  | .watchedBlockHashDone c _ => decide (c < 2)
  | .updateWindowTimeout c => decide (c < 2)
  | .flashIdleTimeout c => decide (c < 2)
  | .sieveSet v _ => v.transport.ok
  | .pgdArm v _ _ => v.transport.ok
  | .platformCycle v => v.transport.ok
  | .hostImageBegin v _ _ _ => v.transport.ok
  | .hostImageData v _ _ => v.transport.ok
  | .hostImageCommit v => v.transport.ok
  | .lcStage v _ => v.transport.ok
  | .lcDirectRequest v _ _ => v.transport.ok
  | .tapInstruction _ _ => true
  | .tamperSampleTick _ _ => true
  | .loopMismatch _ => true
  | .voltageTamper supply => decide (supply < 9)
  | .temperatureReading _ => true
  | .clockMonitorWindow _ _ _ => true
  | .oscillatorFallback => true
  | .tamperOutRelease => true
  | .evidenceIncrementDone _ => true
  | .lockStatus v => v.transport.ok
  | .unlock v _ => v.transport.ok
  | .tamperArm v _ _ => v.transport.ok
  | .getVersion v => v.transport.ok
  | .getCapabilities v _ => v.transport.ok
  | .negotiateAlgorithms v _ _ _ => v.transport.ok
  | .getDigests v => v.transport.ok
  | .getCertificate v _ _ _ => v.transport.ok
  | .challenge v _ => v.transport.ok
  | .getMeasurements v _ _ => v.transport.ok
  | .keyExchange v _ => v.transport.ok
  | .finish v _ _ _ _ => v.transport.ok
  | .heartbeat v => v.transport.ok
  | .heartbeatTimeout _ => true
  | .keyUpdate v => v.transport.ok
  | .endSession v => v.transport.ok
  | .setCertificate v _ _ => v.transport.ok
  | .chunkSend v _ _ _ _ => v.transport.ok
  | .chunkGet v _ _ => v.transport.ok
  | .managerBind v _ => v.transport.ok
  | .setEndpointId v _ => v.transport.ok
  | .checkpoint v _ => v.transport.ok
  | .checkpointAck v _ _ => v.transport.ok
  | .logRead v _ _ => v.transport.ok
  | .keyUsage v _ _ => v.transport.ok
  | .timeSet v _ => v.transport.ok
  | .ceremonyApprove v _ _ _ _ => v.transport.ok
  | .ceremonyExpiry => true
  | .uncMkeyNew v => v.transport.ok
  | .uncMkeyJoin v _ _ => v.transport.ok
  | .uncEpoch v _ => v.transport.ok
  | .uncReenumerate v => v.transport.ok
  | .keepalive _ _ => true
  | .keepaliveTimer _ => true
  | .linkLossTimeout _ => true
  | .enumerate _ _ => true
  | .disown _ _ => true
  | .uncelMctpFrame _ _ => true
  | .uncelEpochFrame _ _ => true
  | .epochDone _ _ => true
  | .mkeyOffer _ _ => true
  | .uncJoinRequest _ _ _ _ _ => true
  | .uncJoinResponse _ _ _ _ _ => true
  | .uncelTamperFrame _ _ => true
  | .uncelTimeFrame _ _ => true
  | .timeLeaderTick => true
  | .alignmentTimeout => true
  | .entdaa _ => true
  | .setdasa _ _ => true
  | .setnewda _ _ => true
  | .rstdaa => true
  | .getpid _ => true
  | .getbcr _ => true
  | .getdcr _ => true
  | .getstatus _ => true
  | .getmrl _ => true
  | .getmwl _ => true
  | .enec _ _ => true
  | .disec _ _ => true
  | .rstact => true
  | .i3cPrivateTransfer _ _ _ => true
  | .perstRelease p => decide (p < 4)
  | .uncelReceiverLinkUp _ => true
  | .uncelOtherFrame _ _ => true
  | .flashProgramEraseDone c => decide (c < 2)
  | .leafHandoutInterval slot => decide (slot < slotCount)
  | .illegalEncoding g => decide (g < grainCount)
  | .pmRangeFetch g => decide (g < grainCount)
  | .badCommand n => decide (n < engineCount)

end Sys2Proof
end

