-- ==== Sys2Proof/Tests/Slice0.lean ====
section
/-!
SUPPORT. Tests: states and operands that meet the premises of each statement, clause by clause; small steps with results that the
spec gives; and an ill-formed instruction for each check of WellFormed.
-/
namespace Sys2Proof.Tests
open Sys2Proof Sys2Proof.Machine Sys2Proof.Claims
set_option linter.unusedVariables false
set_option Elab.async false
set_option linter.unreachableTactic false
set_option linter.unusedTactic false

/-- A tenant with grains 0 and 1, engine N0, the PF and VFs 0 and 1 of port 0, and pairs 0 to 11. -/
def tenant0 : Tenant :=
  { state := .active, tpt := { pfOwned := true, vfNum := 2, qpPerFunc := 4, bne := 1, grains := 3, slotQuota := 4, ctxQuota := 4 } }

/-- A tilth record with port 0 and two VFs. -/
def tilth0 : Tilth := { vfCount := [4], ownerKey := [1] }

/-- A device that runs the Secure Executive, with one port, its link and one tenant. -/
def up : State :=
  { State.reset with
    power := { valid := 511, phase := .gateOpen, topsoilUp := true, pciePermitted := true }
    boot := { gateOpen := true, tilth := some tilth0 }
    ports := [(0, { numVFs := 2, vfEnable := true })]
    tenants := [(1, tenant0)] }

/-- `up` with a first write of PF 0 held. -/
def heldUp (off : Nat) (value : W32) (armed : Bool) : State := { up with guard := [(0, (off, value, armed))] }

/-- `up` with one queue pair. -/
def withQueue (q : Nat) (x : Queue) : State := { up with queues := [(q, x)] }

/-- A grain that runs job 0. -/
def grain0 (header : ProgHeader) (w : W32) : Grain :=
  { state := .running, job := some 0, prog := some { header with textWords := 1 }, pm := [(0, w)] }

/-- The job that the tests run. -/
def job0 : Job := { pair := 0, index := 0, desc := {}, tenant := 1, stage := .execute, grain := some 0 }

/-- `up` with job 0 on grain 0, whose program is the word `w`. -/
def fetching (header : ProgHeader) (w : W32) : State :=
  { up with jobs := [(0, job0)], grains := [(0, grain0 header w)], beds := [(0, { state := .awake, applied := true })] }

/-- The tables of `up` are in their canonical form. -/
theorem up_sound : up.Sound := by constructor <;> decide

/-- A quadrant PLL that is unlocked a second time. -/
def unlocked0 : State :=
  { up with quads := [(3, { pllRun := true, lastUnlock := some ((up.rtc + Config.elapsed up.free) % 2 ^ 48) })] }

theorem unlocked0_again : (unlocked0.tick.rtc + 2 ^ 48 - (up.rtc + Config.elapsed up.free) % 2 ^ 48) % 2 ^ 48 ≤ 32768 := by
  have h : unlocked0.tick.rtc = (up.rtc + Config.elapsed up.free) % 2 ^ 48 := rfl
  rw [h]
  omega

/-- A slot whose seal value is the seal of no bytes. -/
def sealing0 : State :=
  { State.reset with
    power := { phase := .sealing }
    boot := { running := 0, regions := [(0, { page := { sealVal := State.reset.sealOf 0 0 0 [] } })] } }

theorem sealing0_checks : sealing0.sealChecks sealing0.boot.running = true := by
  have h : sealing0.sealOf 0 0 0 [] = State.reset.sealOf 0 0 0 [] := by
    simp only [State.sealOf, State.kdf, State.ownerHash]
    rfl
  have e : sealing0.sealChecks sealing0.boot.running = decide (State.reset.sealOf 0 0 0 [] = sealing0.sealOf 0 0 0 []) := by
    unfold State.sealChecks
    rfl
  rw [e, h]
  exact decide_eq_true rfl

/-- A command that writes no data sets no dummy count. -/
theorem noDummies (s : State) (c op a : Nat) : s.fewDummies c op a [] = false := by
  unfold State.fewDummies
  split <;> simp

/-- `up` behind an open output gate, as a leaf and as a bridge. -/
def heard : State := { up with boot := { gateOpen := true } }
def heardB : State := { heard with power := { phase := .gateOpen, strapEff := 256 } }

/-- A frame of TYPE `type` with `n` zero bytes. -/
def frame0 (dst type n : Nat) : Frame := ⟨dst, 0, type, 0, 0, List.replicate n 0⟩

/-- The owner hash of a message is not the device's. -/
theorem stranger (s : State) (chain message signature : List Byte) (h : decide (([] : List Byte) = s.ownerHash) = false) :
    s.joinParty chain [] message signature = false := by
  simp only [State.joinParty, h, Bool.and_false]

/-- The time 24 hours before `now`. -/
def aged (now : Nat) : Nat := (now + 2 ^ 48 - 2831155200) % 2 ^ 48

theorem aged_due (now : Nat) (h : now < 2 ^ 48) : dayTicks ≤ (now + 2 ^ 48 - aged now) % 2 ^ 48 := by
  have e : dayTicks = 2831155200 := by decide
  simp only [aged, e]
  omega

/-- A ceremony that was opened 24 hours ago. -/
def aged0 : Ceremony := { id := 1, request := .resume 1, opened := aged up.tick.rtc }

def agedCeremony : State := { up with uncel := { ceremony := some aged0 } }

theorem agedCeremony_now : agedCeremony.tick.rtc = up.tick.rtc := rfl

theorem aged0_opened : aged0.opened = aged up.tick.rtc := rfl

theorem up_now : up.tick.rtc < 2 ^ 48 := Nat.mod_lt _ (by decide)

theorem due_of {a b c : Nat} (h : dayTicks ≤ (b + 2 ^ 48 - aged b) % 2 ^ 48) (g : a = b) (e : c = aged b) :
    dayTicks ≤ (a + 2 ^ 48 - c) % 2 ^ 48 := by
  rw [g, e]
  exact h

theorem agedCeremony_due : dayTicks ≤ (agedCeremony.tick.rtc + 2 ^ 48 - aged0.opened) % 2 ^ 48 :=
  @due_of _ _ _ (aged_due _ up_now) agedCeremony_now aged0_opened

theorem witness_GuardedWrites :
    (∃ (s : State) (p : _) (off : Nat), s.pfLive p = true ∧ s.heldPair (.pf p) = none ∧ off ∈ gdOffsets ∧ s.gdVisible (.pf p) off = true ∧ postedOf off = none) ∧
    (∃ (s : State) (p : _) (off : Nat) (b : _), s.pfLive p = true ∧ s.heldPair (.pf p) = none ∧ off ∈ gdOffsets ∧ s.gdVisible (.pf p) off = true ∧ postedOf off = some b ∧ s.glb.linkDown = false ∧ (s.postedBlock b).busy = false) ∧
    (∃ (s : State) (p : _) (off : Nat) (b : _), s.pfLive p = true ∧ s.heldPair (.pf p) = none ∧ off ∈ gdOffsets ∧ s.gdVisible (.pf p) off = true ∧ postedOf off = some b ∧ s.glb.linkDown = true) ∧
    (∃ (s : State) (p : _) (off : Nat) (b : _), s.pfLive p = true ∧ s.heldPair (.pf p) = none ∧ off ∈ gdOffsets ∧ s.gdVisible (.pf p) off = true ∧ postedOf off = some b ∧ s.glb.linkDown = false ∧ (s.postedBlock b).busy = true) ∧
    (∃ (s : State) (k : _) (off : Nat), s.heldPair (.loam k) = none ∧ off ∈ gdOffsets ∧ postedOf off = none) ∧
    (∃ (s : State) (r : _) (off : Nat) (value : W32) (armed : _), s.heldPair r = some (off, value, armed)) ∧
    (∃ (s : State) (p : _), (s.pf p).arm ≠ some ⟨gdLcsReq⟩) ∧
    (∃ (s : State) (p : _), (s.pf p).arm = some ⟨gdLcsReq⟩) :=
  ⟨⟨up, 0, 0x100, by decide⟩,
   ⟨up, 0, 0x300104, .pgd, by decide⟩,
   ⟨{ up with glb := { linkDown := true } }, 0, 0x320100, .tmp, by decide⟩,
   ⟨{ up with posted := [(1, { busy := true })] }, 0, 0x300100, .pgd, by decide⟩,
   ⟨up, 2, 0x108, by decide⟩,
   ⟨heldUp 0x104 7 true, .pf 0, 0x104, 7, true, by decide⟩,
   ⟨{ up with glbPf := [(0, { arm := some ⟨0x100⟩ })] }, 0, by decide⟩,
   ⟨{ up with glbPf := [(0, { arm := some ⟨0x310100⟩ })] }, 0, by decide⟩⟩

theorem witness_SequencedEvents :
    (∃ (s : State) (r : _) (reg : _) (b : _), s.live r = true ∧ s.heldPair r = none ∧ s.sqVisible r reg = true ∧ sqBlock reg = some b ∧ s.glb.linkDown = false ∧ (s.postedBlock b).busy = true) ∧
    (∃ (s : State) (reg : _), (s.sqReg reg).incPending = true) ∧
    (∃ (s : State) (reg : _), (s.sqReg reg).incPending = false) :=
  ⟨⟨{ up with posted := [(1, { busy := true })] }, .pf 0, .pgd, .pgd, by decide⟩,
   ⟨{ up with sq := [(0, { incPending := true })] }, .glb 0, by decide⟩,
   ⟨up, .glb 0, by decide⟩⟩

theorem witness_RegisterWrites :
    (∃ (s : State) (off : Nat) (b : _), s.pfLive s.mgmt = true ∧ s.heldPair (.pf s.mgmt) = none ∧ postedOf off = some b ∧ s.glb.linkDown = false ∧ (s.postedBlock b).busy = false) ∧
    (∃ (s : State) (off : Nat) (b : _), s.pfLive s.mgmt = true ∧ s.heldPair (.pf s.mgmt) = none ∧ postedOf off = some b ∧ s.glb.linkDown = false ∧ (s.postedBlock b).busy = true) ∧
    (∃ (s : State) (p : _), s.heldPair (.pf p) = none ∧ p ≠ s.mgmt) ∧
    (∃ (s : State) (b : _) (off : Nat) (p : _) (value : W32), (s.postedBlock b).held = some (off, p, value) ∧ s.glb.linkDown = false) ∧
    (∃ (s : State) (p : _), s.pfLive p = true ∧ s.heldPair (.pf p) = none) ∧
    (∃ (s : State) (p : _) (q : _), s.pfLive p = true ∧ s.heldPair (.pf p) = none ∧ s.pairWritable p q = true ∧ q < 8192) ∧
    (∃ (s : State) (p : _) (q : _), s.pfLive p = true ∧ s.heldPair (.pf p) = none ∧ s.pairWritable p q = true ∧ q < 8192 ∧ (s.queue q).state = .disabled) ∧
    (∃ (s : State) (p : _) (q : _), s.pfLive p = true ∧ s.heldPair (.pf p) = none ∧ s.pairWritable p q = true ∧ q < 8192 ∧ (s.queue q).state ≠ .disabled) ∧
    (∃ (s : State) (p : _) (n : _), s.pfLive p = true ∧ (s.port p).vfEnable = false ∧ n ≤ s.vfCount p) ∧
    (∃ (s : State) (p : _), s.pfLive p = true) ∧
    (∃ (s : State) (p : _) (f : _), s.pfLive p = true ∧ f ≤ (s.port p).numVFs) :=
  ⟨⟨up, 0x300040, .pgd, by decide⟩,
   ⟨{ up with posted := [(1, { busy := true })] }, 0x300040, .pgd, by decide⟩,
   ⟨up, 1, by decide⟩,
   ⟨{ up with posted := [(1, { busy := true, held := some (0x300040, 0, 5) })] }, .pgd, 0x300040, 0, 5, by decide⟩,
   ⟨up, 0, by decide⟩,
   ⟨up, 0, 11, by decide⟩,
   ⟨up, 0, 0, by decide⟩,
   ⟨withQueue 0 { state := .enabled }, 0, 0, by decide⟩,
   ⟨{ up with ports := [(0, {})] }, 0, 4, by decide⟩,
   ⟨up, 0, by decide⟩,
   ⟨up, 0, 2, by decide⟩⟩

theorem witness_QueuePairs :
    (∃ (s : State) (p : _) (q : _) (ctl : W32), s.pfLive p = true ∧ s.heldPair (.pf p) = none ∧ s.pairWritable p q = true ∧ (s.queue q).en = false ∧ bit ctl.toNat 0 = true ∧ (s.queue q).enableOk = true) ∧
    (∃ (s : State) (p : _) (q : _) (ctl : W32), s.pfLive p = true ∧ s.heldPair (.pf p) = none ∧ s.pairWritable p q = true ∧ (s.queue q).en = false ∧ bit ctl.toNat 0 = true ∧ (s.queue q).enableOk = false) ∧
    (∃ (s : State) (p : _) (q : _) (ctl : W32), s.pfLive p = true ∧ s.heldPair (.pf p) = none ∧ s.pairWritable p q = true ∧ (s.queue q).en = true ∧ bit ctl.toNat 0 = false) ∧
    (∃ (s : State) (q : _), (s.queue q).state = .stopping ∧ (s.queue q).inflight = 0) ∧
    (∃ (s : State) (q : _), (s.queue q).state = .stopping ∧ (s.queue q).inflight ≠ 0) ∧
    (∃ (s : State) (p : _) (f : _) (k : _) (q : _) (value : W32), s.live (doorbellWriter p f) = true ∧ s.heldPair (doorbellWriter p f) = none ∧ s.pairOf p f k = some q ∧ ((s.queue q).state = .enabled ∨ (s.queue q).state = .quiesced) ∧ bits value.toNat 15 0 < 2 ^ (s.queue q).sqLog2) ∧
    (∃ (s : State) (p : _) (f : _) (k : _) (q : _) (value : W32), s.live (doorbellWriter p f) = true ∧ s.heldPair (doorbellWriter p f) = none ∧ s.pairOf p f k = some q ∧ ((s.queue q).state = .enabled ∨ (s.queue q).state = .quiesced) ∧ 2 ^ (s.queue q).sqLog2 ≤ bits value.toNat 15 0) ∧
    (∃ (s : State) (p : _) (f : _) (k : _) (q : _) (value : W32), s.live (doorbellWriter p f) = true ∧ s.heldPair (doorbellWriter p f) = none ∧ s.pairOf p f k = some q ∧ ((s.queue q).state = .enabled ∨ (s.queue q).state = .quiesced) ∧ bits value.toNat 15 0 < 2 ^ (s.queue q).cqLog2 ∧ (bits value.toNat 15 0 + 2 ^ (s.queue q).cqLog2 - (s.queue q).cqHead) % 2 ^ (s.queue q).cqLog2 ≤ ((s.queue q).cqTail + 2 ^ (s.queue q).cqLog2 - (s.queue q).cqHead) % 2 ^ (s.queue q).cqLog2) ∧
    (∃ (s : State) (p : _) (f : _) (k : _) (q : _) (value : W32), s.live (doorbellWriter p f) = true ∧ s.heldPair (doorbellWriter p f) = none ∧ s.pairOf p f k = some q ∧ ((s.queue q).state = .enabled ∨ (s.queue q).state = .quiesced) ∧ (2 ^ (s.queue q).cqLog2 ≤ bits value.toNat 15 0 ∨ ¬ (bits value.toNat 15 0 + 2 ^ (s.queue q).cqLog2 - (s.queue q).cqHead) % 2 ^ (s.queue q).cqLog2 ≤ ((s.queue q).cqTail + 2 ^ (s.queue q).cqLog2 - (s.queue q).cqHead) % 2 ^ (s.queue q).cqLog2)) ∧
    (∃ (s : State) (p : _) (f : _) (k : _) (q : _), s.live (doorbellWriter p f) = true ∧ s.heldPair (doorbellWriter p f) = none ∧ s.pairOf p f k = some q ∧ ((s.queue q).state = .enabled ∨ (s.queue q).state = .quiesced)) ∧
    (∃ (s : State) (p : _) (f : _) (k : _) (q : _), s.live (doorbellWriter p f) = true ∧ s.heldPair (doorbellWriter p f) = none ∧ s.pairOf p f k = some q ∧ (s.queue q).state ≠ .enabled ∧ (s.queue q).state ≠ .quiesced) ∧
    (∃ (s : State) (p : _) (f : _) (k : _) (q : _), s.live (doorbellWriter p f) = true ∧ s.heldPair (doorbellWriter p f) = none ∧ s.pairOf p f k = some q ∧ ((s.queue q).state = .enabled ∨ (s.queue q).state = .quiesced)) ∧
    (∃ (s : State) (p : _) (f : _) (k : _) (q : _), s.live (doorbellWriter p f) = true ∧ s.heldPair (doorbellWriter p f) = none ∧ s.pairOf p f k = some q ∧ (s.queue q).state ≠ .enabled ∧ (s.queue q).state ≠ .quiesced) :=
  ⟨⟨withQueue 3 { sqLog2 := 4, cqLog2 := 16 }, 0, 3, 1, by decide⟩,
   ⟨withQueue 3 { sqLog2 := 3, cqLog2 := 4 }, 0, 3, 1, by decide⟩,
   ⟨withQueue 3 { state := .enabled, en := true, sqLog2 := 4, cqLog2 := 4 }, 0, 3, 0, by decide⟩,
   ⟨withQueue 3 { state := .stopping }, 3, by decide⟩,
   ⟨withQueue 3 { state := .stopping, inflight := 1 }, 3, by decide⟩,
   ⟨withQueue 4 { state := .enabled, en := true, sqLog2 := 4, cqLog2 := 4 }, 0, 1, 0, 4, 15, by decide⟩,
   ⟨withQueue 4 { state := .enabled, en := true, sqLog2 := 4, cqLog2 := 4 }, 0, 1, 0, 4, 16, by decide⟩,
   ⟨withQueue 4 { state := .enabled, sqLog2 := 4, cqLog2 := 4, cqTail := 3 }, 0, 1, 0, 4, 3, by decide⟩,
   ⟨withQueue 4 { state := .enabled, sqLog2 := 4, cqLog2 := 4, cqTail := 3 }, 0, 1, 0, 4, 4, by decide⟩,
   ⟨withQueue 0 { state := .enabled, en := true, sqLog2 := 4, cqLog2 := 4 }, 0, 0, 0, 0, by decide⟩,
   ⟨withQueue 0 {}, 0, 0, 0, 0, by decide⟩,
   ⟨withQueue 0 { state := .enabled, en := true, sqLog2 := 4, cqLog2 := 4 }, 0, 0, 0, 0, by decide⟩,
   ⟨withQueue 0 {}, 0, 0, 0, 0, by decide⟩⟩

theorem witness_FetchAndPlacement :
    (∃ (s : State) (q : _) (o : PairOwner), s.pairOwner q = some o ∧ s.mayFetch q o = true ∧ (s.queue q).fetchable ≠ 0) ∧
    (∃ (s : State) (q : _) (o : PairOwner), s.pairOwner q = some o ∧ s.mayFetch q o = true ∧ (s.queue q).fetchable ≠ 0) ∧
    (∃ (s : State) (q : _) (j : _) (job : Job), (s.jobsWhere fun x => decide (x.pair = q ∧ x.stage = Stage.admitted)).head? = some j ∧ s.job j = some job ∧ s.heldBack j job = false ∧ s.power.holdActive = false ∧ s.kindOf job ≠ .nop ∧ grainless (s.kindOf job) = true) ∧
    (∃ (s : State) (q : _) (j : _) (job : Job) (g : _) (p : _), (s.jobsWhere fun x => decide (x.pair = q ∧ x.stage = Stage.admitted)).head? = some j ∧ s.job j = some job ∧ s.heldBack j job = false ∧ s.power.holdActive = false ∧ s.kindOf job ≠ .nop ∧ grainless (s.kindOf job) = false ∧ s.chooseGrain job = some g ∧ s.shelved (g / 16) job.desc.opcode = some p) ∧
    (∃ (s : State) (q : _) (j : _) (job : Job) (g : _), (s.jobsWhere fun x => decide (x.pair = q ∧ x.stage = Stage.admitted)).head? = some j ∧ s.job j = some job ∧ s.heldBack j job = false ∧ s.power.holdActive = false ∧ s.kindOf job ≠ .nop ∧ grainless (s.kindOf job) = false ∧ s.chooseGrain job = some g ∧ s.shelved (g / 16) job.desc.opcode = none) ∧
    (∃ (s : State) (q : _) (j : _) (job : Job), (s.jobsWhere fun x => decide (x.pair = q ∧ x.stage = Stage.admitted)).head? = some j ∧ s.job j = some job ∧ s.heldBack j job = false ∧ s.power.holdActive = false ∧ s.kindOf job ≠ .nop ∧ grainless (s.kindOf job) = false ∧ s.chooseGrain job = none) ∧
    (∃ (s : State) (q : _) (j : _) (job : Job), (s.jobsWhere fun x => decide (x.pair = q ∧ x.stage = Stage.admitted)).head? = some j ∧ s.job j = some job ∧ s.heldBack j job = true) ∧
    (∃ (s : State) (j : _) (job : Job), s.job j = some job ∧ s.kindOf job = .nop ∧ job.stage = .admitted ∧ s.heldBack j job = false) ∧
    (∃ (s : State) (j : _) (job : Job), s.job j = some job ∧ s.kindOf job = .nop ∧ job.stage = .admitted ∧ s.heldBack j job = true) :=
  ⟨⟨withQueue 0 { state := .enabled, sqLog2 := 4, cqLog2 := 4, sqTail := 1 }, 0, ⟨1, 0, 0, 0⟩, by decide⟩,
   ⟨withQueue 0 { state := .enabled, sqLog2 := 4, cqLog2 := 4, sqTail := 1 }, 0, ⟨1, 0, 0, 0⟩, by decide⟩,
   ⟨{ up with jobs := [(0, { pair := 0, index := 0, desc := { opcode := 0x7100, flags := 0 }, tenant := 1, stage := .admitted, grain := none })] }, 0, 0, { pair := 0, index := 0, desc := { opcode := 0x7100, flags := 0 }, tenant := 1, stage := .admitted, grain := none }, by decide⟩,
   ⟨{ up with jobs := [(0, { pair := 0, index := 0, desc := { opcode := 0x5110, flags := 0 }, tenant := 1, stage := .admitted, grain := none })], beds := [(0, { state := .awake, applied := true, shelf := [(7, {})] })], grains := [(0, { state := .idle })], boot := { up.boot with directory := [(0x5110, 7)] } }, 0, 0, { pair := 0, index := 0, desc := { opcode := 0x5110, flags := 0 }, tenant := 1, stage := .admitted, grain := none }, 0, {}, by decide +kernel⟩,
   ⟨{ up with jobs := [(0, { pair := 0, index := 0, desc := { opcode := 0x5110, flags := 0 }, tenant := 1, stage := .admitted, grain := none })], beds := [(0, { state := .awake, applied := true, shelf := [] })], grains := [(0, { state := .idle })], boot := { up.boot with directory := [(0x5110, 7)] } }, 0, 0, { pair := 0, index := 0, desc := { opcode := 0x5110, flags := 0 }, tenant := 1, stage := .admitted, grain := none }, 0, by decide +kernel⟩,
   ⟨{ up with jobs := [(0, { pair := 0, index := 0, desc := { opcode := 0x5110, flags := 0 }, tenant := 1, stage := .admitted, grain := none })] }, 0, 0, { pair := 0, index := 0, desc := { opcode := 0x5110, flags := 0 }, tenant := 1, stage := .admitted, grain := none }, by decide +kernel⟩,
   ⟨{ up with jobs := [(0, { pair := 0, index := 0, desc := { opcode := 0x5110, flags := 0 }, tenant := 1, stage := .execute, grain := none }), (1, { pair := 0, index := 0, desc := { opcode := 0x5110, flags := 16 }, tenant := 1, stage := .admitted, grain := none })] }, 0, 1, { pair := 0, index := 0, desc := { opcode := 0x5110, flags := 16 }, tenant := 1, stage := .admitted, grain := none }, by decide⟩,
   ⟨{ up with jobs := [(0, { pair := 0, index := 0, desc := { opcode := 0, flags := 0 }, tenant := 1, stage := .admitted, grain := none })] }, 0, { pair := 0, index := 0, desc := { opcode := 0, flags := 0 }, tenant := 1, stage := .admitted, grain := none }, by decide⟩,
   ⟨{ up with jobs := [(0, { pair := 0, index := 0, desc := { opcode := 0x5110, flags := 0 }, tenant := 1, stage := .admitted, grain := none }), (1, { pair := 0, index := 0, desc := { opcode := 0, flags := 16 }, tenant := 1, stage := .admitted, grain := none })] }, 1, { pair := 0, index := 0, desc := { opcode := 0, flags := 16 }, tenant := 1, stage := .admitted, grain := none }, by decide⟩⟩

theorem witness_JobStages :
    (∃ (s : State) (j : _) (job : Job) (g : _), s.job j = some job ∧ job.grain = some g ∧ (job.stage = .placed ∨ job.stage = .key) ∧ (s.bed (g / 16)).state = .awake ∧ (s.grain g).state = .running ∧ s.power.holdActive = false ∧ (s.quad (g / 256)).unlocked = false ∧ s.waitsForShelf job = false ∧ job.desc.keyForm = 3) ∧
    (∃ (s : State) (j : _) (job : Job) (g : _), s.job j = some job ∧ job.grain = some g ∧ (job.stage = .placed ∨ job.stage = .key) ∧ (s.bed (g / 16)).state = .awake ∧ (s.grain g).state = .running ∧ s.power.holdActive = false ∧ (s.quad (g / 256)).unlocked = false ∧ s.waitsForShelf job = false ∧ job.desc.keyForm ≠ 3 ∧ (s.judge1 job ((s.grain g).header.flags.testBit 4) []).1 ≠ Status.ok) ∧
    (∃ (s : State) (j : _) (job : Job) (g : _) (m1 : _), s.job j = some job ∧ job.grain = some g ∧ (job.stage = .placed ∨ job.stage = .key) ∧ (s.bed (g / 16)).state = .awake ∧ (s.grain g).state = .running ∧ s.power.holdActive = false ∧ (s.quad (g / 256)).unlocked = false ∧ s.waitsForShelf job = false ∧ job.desc.keyForm ≠ 3 ∧ s.judge1 job ((s.grain g).header.flags.testBit 4) [] = (Status.ok, m1) ∧ s.judge2 job ((s.grain g).header.flags.testBit 4) m1 ≠ Status.ok) ∧
    (∃ (s : State) (j : _) (job : Job) (g : _) (m1 : _) (bytes : _) (t : _) (u : _) (o : PairOwner), s.job j = some job ∧ job.grain = some g ∧ (job.stage = .placed ∨ job.stage = .key) ∧ (s.bed (g / 16)).state = .awake ∧ (s.grain g).state = .running ∧ s.power.holdActive = false ∧ (s.quad (g / 256)).unlocked = false ∧ s.waitsForShelf job = false ∧ job.desc.keyForm ≠ 3 ∧ s.judge1 job ((s.grain g).header.flags.testBit 4) [] = (Status.ok, m1) ∧ s.judge2 job ((s.grain g).header.flags.testBit 4) m1 = Status.ok ∧ (∀ k ∈ s.chargedSlots job, (s.slot k).holdsCharges = false ∧ s.needsFloor k = false) ∧ leafKind (s.kindOf job) = false ∧ s.pairOwner job.pair = some o ∧ s.drawPort (g / 256) o.port
      (drbgBytes (s.kindOf job) (setOf job.desc.opcode) job.desc.param (attrLen m1.attr)) = (t, .bytes bytes) ∧ t.drawKeyPort (g / 256) (shareWords { job with order2 := attrOrder2 m1.attr } (m1.secret.length + bytes.length)) = some u) ∧
    (∃ (s : State) (j : _) (job : Job) (g : _) (l : Option (List Byte)) (x : Option (List Byte)) (d : List Byte), s.job j = some job ∧ job.stage = .input ∧ job.held = false ∧ s.power.holdActive = false ∧ job.grain = some g ∧ inputOf job.desc l x = .ok d) ∧
    (∃ (s : State) (j : _) (job : Job) (l : Option (List Byte)) (x : Option (List Byte)) (d : List Byte), s.job j = some job ∧ job.stage = .input ∧ job.held = false ∧ s.power.holdActive = false ∧ job.grain = none ∧ inputOf job.desc l x = .ok d) ∧
    (∃ (s : State) (j : _) (job : Job) (g : _) (l : Option (List Byte)) (x : Option (List Byte)) (e : _), s.job j = some job ∧ job.stage = .input ∧ job.held = false ∧ s.power.holdActive = false ∧ job.grain = some g ∧ inputOf job.desc l x = .error e) ∧
    (∃ (s : State) (j : _) (job : Job) (l : Option (List Byte)) (x : Option (List Byte)) (e : _), s.job j = some job ∧ job.stage = .input ∧ job.held = false ∧ s.power.holdActive = false ∧ job.grain = none ∧ inputOf job.desc l x = .error e) ∧
    (∃ (s : State) (j : _) (job : Job) (l : Option (List Byte)) (e : _), s.job j = some job ∧ job.stage = .output ∧ job.held = false ∧ outputRanges job l = .error e) ∧
    (∃ (s : State) (j : _) (job : Job) (l : Option (List Byte)) (es : _), s.job j = some job ∧ job.stage = .output ∧ job.held = false ∧ outputRanges job l = .ok es) ∧
    (∃ (s : State) (j : _) (job : Job) (l : Option (List Byte)) (es : _) (o : PairOwner), s.job j = some job ∧ job.stage = .output ∧ job.held = false ∧ outputRanges job l = .ok es ∧ s.pairOwner job.pair = some o) ∧
    (∃ (s : State) (q : _) (o : PairOwner), s.pairOwner q = some o ∧ (s.queue q).counted ≠ 0 ∧ (s.queue q).timeUs ≠ 0) ∧
    (∃ (s : State) (p : _) (f : _) (v : _), (s.func (fnKey p f)).msixPending.testBit v = true ∧ (s.port p).perstLow = false) ∧
    (∃ (s : State) (p : _) (f : _) (v : _), (s.func (fnKey p f)).msixPending.testBit v = false) :=
  ⟨⟨{ up with jobs := [(0, { pair := 0, index := 0, desc := { opcode := 0x5410, flags := 0, keyForm := 3 }, tenant := 1, stage := .placed, grain := some 0 })], grains := [(0, { state := .running, job := some 0 })], beds := [(0, { state := .awake })] }, 0, { pair := 0, index := 0, desc := { opcode := 0x5410, flags := 0, keyForm := 3 }, tenant := 1, stage := .placed, grain := some 0 }, 0, by decide⟩,
   ⟨{ up with jobs := [(0, { pair := 0, index := 0, desc := { opcode := 0x5410, flags := 0, keyForm := 1, keyIndex := 2 }, tenant := 1, stage := .placed, grain := some 0 })], grains := [(0, { state := .running, job := some 0 })], beds := [(0, { state := .awake })] }, 0, { pair := 0, index := 0, desc := { opcode := 0x5410, flags := 0, keyForm := 1, keyIndex := 2 }, tenant := 1, stage := .placed, grain := some 0 }, 0, by decide⟩,
   ⟨{ up with jobs := [(0, { pair := 0, index := 0, desc := { opcode := 0x5710, flags := 0, key2Form := 1, key2Index := 5 }, tenant := 1, stage := .placed, grain := some 0 })], grains := [(0, { state := .running, job := some 0 })], beds := [(0, { state := .awake })] }, 0, { pair := 0, index := 0, desc := { opcode := 0x5710, flags := 0, key2Form := 1, key2Index := 5 }, tenant := 1, stage := .placed, grain := some 0 }, 0, {}, by decide⟩,
   ⟨{ up with jobs := [(0, { pair := 0, index := 0, desc := { opcode := 0x5110, flags := 0 }, tenant := 1, stage := .placed, grain := some 0 })], grains := [(0, { state := .running, job := some 0 })], beds := [(0, { state := .awake })] }, 0, { pair := 0, index := 0, desc := { opcode := 0x5110, flags := 0 }, tenant := 1, stage := .placed, grain := some 0 }, 0, {}, [], { up with jobs := [(0, { pair := 0, index := 0, desc := { opcode := 0x5110, flags := 0 }, tenant := 1, stage := .placed, grain := some 0 })], grains := [(0, { state := .running, job := some 0 })], beds := [(0, { state := .awake })] }, { up with jobs := [(0, { pair := 0, index := 0, desc := { opcode := 0x5110, flags := 0 }, tenant := 1, stage := .placed, grain := some 0 })], grains := [(0, { state := .running, job := some 0 })], beds := [(0, { state := .awake })] }, ⟨1, 0, 0, 0⟩, by (repeat' apply And.intro) <;> first | decide | rfl | (constructor <;> rfl)⟩,
   ⟨{ up with jobs := [(0, { pair := 0, index := 0, desc := { opcode := 0x5110, flags := 0 }, tenant := 1, stage := .input, grain := some 0 })], grains := [(0, { state := .running, job := some 0 })], beds := [(0, { state := .awake })] }, 0, { pair := 0, index := 0, desc := { opcode := 0x5110, flags := 0 }, tenant := 1, stage := .input, grain := some 0 }, 0, none, some [], [], by (repeat' apply And.intro) <;> first | decide | rfl | (constructor <;> rfl)⟩,
   ⟨{ up with jobs := [(0, { pair := 0, index := 0, desc := { opcode := 0x7100, flags := 0 }, tenant := 1, stage := .input, grain := none })] }, 0, { pair := 0, index := 0, desc := { opcode := 0x7100, flags := 0 }, tenant := 1, stage := .input, grain := none }, none, some [], [], by (repeat' apply And.intro) <;> first | decide | rfl | (constructor <;> rfl)⟩,
   ⟨{ up with jobs := [(0, { pair := 0, index := 0, desc := { opcode := 0x5110, flags := 0, inLen := 1 }, tenant := 1, stage := .input, grain := some 0 })], grains := [(0, { state := .running, job := some 0 })], beds := [(0, { state := .awake })] }, 0, { pair := 0, index := 0, desc := { opcode := 0x5110, flags := 0, inLen := 1 }, tenant := 1, stage := .input, grain := some 0 }, 0, none, none, Status.dmaError, by (repeat' apply And.intro) <;> first | decide | rfl | (constructor <;> rfl)⟩,
   ⟨{ up with jobs := [(0, { pair := 0, index := 0, desc := { opcode := 0x0100, flags := 1, inSgl := 257 }, tenant := 1, stage := .input, grain := none })] }, 0, { pair := 0, index := 0, desc := { opcode := 0x0100, flags := 1, inSgl := 257 }, tenant := 1, stage := .input, grain := none }, none, none, Status.sglFormat, by (repeat' apply And.intro) <;> first | decide | rfl | (constructor <;> rfl)⟩,
   ⟨{ up with jobs := [(0, { pair := 0, index := 0, desc := { opcode := 0x5110, flags := 2, outLen := 1 }, tenant := 1, stage := .output, grain := some 0 })], grains := [(0, { state := .running, job := some 0 })], beds := [(0, { state := .awake })] }, 0, { pair := 0, index := 0, desc := { opcode := 0x5110, flags := 2, outLen := 1 }, tenant := 1, stage := .output, grain := some 0 }, none, Status.sglFormat, by (repeat' apply And.intro) <;> first | decide | rfl | (constructor <;> rfl)⟩,
   ⟨{ up with jobs := [(0, { pair := 0, index := 0, desc := { opcode := 0x5110, flags := 0 }, tenant := 1, stage := .output, grain := some 0 })], grains := [(0, { state := .running, job := some 0 })], beds := [(0, { state := .awake })] }, 0, { pair := 0, index := 0, desc := { opcode := 0x5110, flags := 0 }, tenant := 1, stage := .output, grain := some 0 }, none, [(0, 0)], by (repeat' apply And.intro) <;> first | decide | rfl | (constructor <;> rfl)⟩,
   ⟨{ up with jobs := [(0, { pair := 0, index := 0, desc := { opcode := 0x5110, flags := 0 }, tenant := 1, stage := .output, grain := some 0 })], grains := [(0, { state := .running, job := some 0 })], beds := [(0, { state := .awake })] }, 0, { pair := 0, index := 0, desc := { opcode := 0x5110, flags := 0 }, tenant := 1, stage := .output, grain := some 0 }, none, [(0, 0)], ⟨1, 0, 0, 0⟩, by (repeat' apply And.intro) <;> first | decide | rfl | (constructor <;> rfl)⟩,
   ⟨withQueue 0 { counted := 1, timeUs := 1 }, 0, ⟨1, 0, 0, 0⟩, by decide⟩,
   ⟨{ up with funcs := [(0, { msixPending := 1 })] }, 0, 0, 0, by decide⟩,
   ⟨up, 0, 0, 0, by decide⟩⟩

theorem witness_PortsAndFunctions :
    (∃ (s : State) (f : _), f ≠ 0) ∧
    (∃ (s : State) (p : _) (f : _), f ≠ 0 ∧ (s.func (fnKey p f)).flr = true) ∧
    (∃ (s : State) (p : _), (s.func (fnKey p 0)).flr = true) ∧
    (∃ (s : State) (p : _), (s.port p).perstLow = false ∧ s.power.pciePermitted = true ∧ p < s.portCount ∧ (s.port p).linkUp = false) ∧
    (∃ (s : State) (p : _), (s.port p).perstLow = false ∧ s.power.pciePermitted = true ∧ p < s.portCount ∧ (s.port p).linkUp = true) ∧
    (∃ (s : State) (v : Via) (vf : _) (p : _), s.tdispPort v vf = some p ∧ (s.func (fnKey p (vf + 1))).tdisp = .configUnlocked) ∧
    (∃ (s : State) (v : Via) (vf : _) (p : _), s.tdispPort v vf = some p ∧ (s.func (fnKey p (vf + 1))).tdisp ≠ .configUnlocked) ∧
    (∃ (s : State) (v : Via) (vf : _) (p : _), s.tdispPort v vf = some p ∧ (s.func (fnKey p (vf + 1))).tdisp = .configLocked) ∧
    (∃ (s : State) (v : Via) (vf : _) (p : _), s.tdispPort v vf = some p ∧ (s.func (fnKey p (vf + 1))).tdisp ≠ .configLocked) ∧
    (∃ (s : State) (v : Via) (vf : _) (p : _), s.tdispPort v vf = some p) ∧
    (∃ (s : State) (v : Via) (p : _) (n : _) (stream : _), viaPf v = some p ∧ v.session = some n ∧ (s.spdm.sessions.find? n).isSome = true ∧ stream < 8 ∧ s.pfLive p = true) ∧
    (∃ (s : State) (p : _) (v : _) (value : W32), s.pfLive p = true ∧ bit value.toNat 2 = true ∧ s.heldPair (.pf p) = none ∧ s.dlogWritable p v = true) ∧
    (∃ (s : State) (p : _) (v : _), (s.func (fnKey p (v + 1))).dlogFlipDone = false) ∧
    (∃ (x : Func) (v : Nat), bit v 2 = true ∧ bit v 0 = true ∧ x.dlogOk (bits v 9 4) = true ∧ x.dlogEn = true) :=
  ⟨⟨up, 1, by decide⟩,
   ⟨{ up with funcs := [(1, { flr := true })] }, 0, 1, by decide⟩,
   ⟨{ up with funcs := [(0, { flr := true })] }, 0, by decide⟩,
   ⟨up, 0, by decide⟩,
   ⟨{ up with ports := [(0, { linkUp := true })] }, 0, by decide⟩,
   ⟨{ up with spdm := { sessions := [(3, { transport := .vdm 0, established := true })] }, funcs := [(1, { tdisp := .configUnlocked })] }, ⟨.vdm 0, some 3⟩, 0, 0, by decide⟩,
   ⟨{ up with spdm := { sessions := [(3, { transport := .vdm 0, established := true })] }, funcs := [(1, { tdisp := .run })] }, ⟨.vdm 0, some 3⟩, 0, 0, by decide⟩,
   ⟨{ up with spdm := { sessions := [(3, { transport := .vdm 0, established := true })] }, funcs := [(1, { tdisp := .configLocked })] }, ⟨.vdm 0, some 3⟩, 0, 0, by decide⟩,
   ⟨{ up with spdm := { sessions := [(3, { transport := .vdm 0, established := true })] }, funcs := [(1, { tdisp := .run })] }, ⟨.vdm 0, some 3⟩, 0, 0, by decide⟩,
   ⟨{ up with spdm := { sessions := [(3, { transport := .vdm 0, established := true })] } }, ⟨.vdm 0, some 3⟩, 1, 0, by decide⟩,
   ⟨{ up with spdm := { sessions := [(3, { transport := .vdm 0, established := true })] } }, ⟨.vdm 0, some 3⟩, 0, 3, 7, by decide⟩,
   ⟨up, 0, 0, 4, by decide⟩,
   ⟨up, 0, 0, by decide⟩,
   ⟨{ dlogEn := true }, 5 + 16 * 52, by decide⟩⟩

theorem witness_TenantEvents :
    (∃ (s : State) (n : _), (s.tenant n).state = .quiescing ∧ (s.tenantPairs n).all (fun q => decide ((s.queue q).inflight = 0)) = true) ∧
    (∃ (s : State) (n : _), (s.tenant n).state = .quiescing ∧ (s.tenantPairs n).all (fun q => decide ((s.queue q).inflight = 0)) = false) ∧
    (∃ (s : State) (n : _), s.Sound ∧ (s.tenant n).state = .removing) ∧
    (∃ (s : State) (p : _), (s.port p).pendingLink = none) ∧
    (∃ (s : State) (p : _) (w : _) (r : _), (s.port p).pendingLink = some (w, r) ∧ s.Sound) :=
  ⟨⟨{ up with tenants := [(1, { tenant0 with state := .quiescing })] }, 1, by decide⟩,
   ⟨{ up with tenants := [(1, { tenant0 with state := .quiescing })], queues := [(11, { inflight := 1 })] }, 1, by decide⟩,
   ⟨{ up with tenants := [(1, { tenant0 with state := .removing })] }, 1, ⟨by constructor <;> rfl, by decide⟩⟩,
   ⟨up, 0, by decide⟩,
   ⟨{ up with ports := [(0, { pendingLink := some (8, 4) })] }, 0, 8, 4, ⟨by decide, by constructor <;> rfl⟩⟩⟩

theorem witness_BedsAndSelfTest :
    (∃ (s : State) (b : _), (s.bed b).state = .applying ∧ (s.bed b).target = s.glb.epoch) ∧
    (∃ (s : State) (b : _), s.Sound ∧ (s.bed b).state = .applying ∧ (s.bed b).target = s.glb.epoch ∧ (s.bed b).applied = true ∧ (∀ m ∈ s.countedBeds, m ≠ b → (s.bed m).epoch = s.glb.epoch)) ∧
    (∃ (s : State) (b : _), (s.bed b).state = .applying ∧ (s.bed b).target ≠ s.glb.epoch ∧ s.bedRuns b = false) ∧
    (∃ (s : State) (b : _), (s.bed b).wakeWanted = true ∧ s.power.topsoilUp = true ∧ s.power.holdActive = false ∧ (s.quad (b / 16)).failed = false ∧ ((s.bed b).state = .off ∨ (s.bed b).state = .dormant) ∧ b < 64 ∧ (s.quad (b / 16)).pllRun = true) ∧
    (∃ (s : State) (b : _), (s.bed b).wakeWanted = true ∧ s.power.topsoilUp = true ∧ s.power.holdActive = false ∧ (s.quad (b / 16)).failed = false ∧ ((s.bed b).state = .off ∨ (s.bed b).state = .dormant) ∧ b < 64 ∧ (s.quad (b / 16)).pllRun = false) ∧
    (∃ (s : State) (b : _), (s.bed b).state = .waking ∧ (s.quad (b / 16)).pllLocked = true) ∧
    (∃ (s : State) (b : _), s.tilth.bedIdleUs.isSome = true ∧ s.maySleep b = true) ∧
    (∃ (s : State) (b : _), (s.tilth.bedIdleUs = none ∨ s.maySleep b = false)) ∧
    (∃ (s : State) (b : _), (s.bed b).state = .entering) ∧
    (∃ (s : State) (u : _), s.power.topsoilUp = true ∧ s.power.phase = .gateOpen ∧ s.power.holdActive = false ∧ u < 1024 ∧ s.grainPresent u = true ∧ (s.bed (u / 16)).state = .awake ∧ (s.grain u).state = .idle ∧ (s.grain u).test = false) ∧
    (∃ (s : State) (u : _), s.power.topsoilUp = true ∧ s.power.phase = .gateOpen ∧ s.power.holdActive = false ∧ u < 1024 ∧ s.grainPresent u = true ∧ (s.bed (u / 16)).state = .dormant ∧ s.tick.bedTestOld (u / 16) = true) ∧
    (∃ (s : State) (n : _), s.power.topsoilUp = true ∧ s.power.phase = .gateOpen ∧ s.power.holdActive = false ∧ s.enginePresent n = true ∧ (s.engine n).state = .idle) ∧
    (∃ (s : State) (u : _), s.underTest u = true ∧ (s.obs.tests.get u {}).repeated = false) ∧
    (∃ (s : State) (u : _), s.underTest u = true ∧ (s.obs.tests.get u {}).repeated = true) ∧
    (∃ (s : State) (u : _), s.underTest u = true ∧ ((s.obs.tests.get u {}).repeated = true ∨ s.tick.failedLately u = true)) ∧
    (∃ (s : State) (u : _), s.underTest u = true ∧ (s.obs.tests.get u {}).repeated = false ∧ s.tick.failedLately u = false) ∧
    (∃ (s : State) (counts : List Nat) (i : _) (n : _), i < 5 ∧ (counts : List Nat)[i]? = some n) ∧
    (∃ (s : State) (p : _) (n : _) (m : _), s.seesCounters p n = true ∧ m < 8) :=
  ⟨⟨{ up with beds := [(0, { state := .applying })] }, 0, by decide⟩,
   ⟨{ up with beds := [(0, { state := .applying, applied := true })] }, 0, ⟨by constructor <;> rfl, by decide +kernel⟩⟩,
   ⟨{ up with beds := [(0, { state := .applying, target := 1 })] }, 0, by decide⟩,
   ⟨{ up with beds := [(0, { wakeWanted := true })], quads := [(0, { pllRun := true })] }, 0, by decide⟩,
   ⟨{ up with beds := [(0, { wakeWanted := true, state := .dormant })] }, 0, by decide⟩,
   ⟨{ up with beds := [(0, { state := .waking })], quads := [(0, { pllLocked := true })] }, 0, by decide⟩,
   ⟨{ up with beds := [(0, { state := .awake, applied := true })] }, 0, by decide⟩,
   ⟨{ up with beds := [(0, { state := .waking })] }, 0, by decide⟩,
   ⟨{ up with beds := [(0, { state := .entering })] }, 0, by decide⟩,
   ⟨{ up with beds := [(0, { state := .awake })], grains := [(0, { state := .idle })] }, 0, by decide⟩,
   ⟨{ up with beds := [(0, { state := .dormant })] }, 0, by decide⟩,
   ⟨up, 63, by decide⟩,
   ⟨{ up with obs := { tests := [(0, {  })] }, grains := [(0, { state := .idle, test := true })] }, 0, by decide⟩,
   ⟨{ up with obs := { tests := [(0, { repeated := true })] }, grains := [(0, { state := .idle, test := true })] }, 0, by decide⟩,
   ⟨{ up with obs := { tests := [(0, { repeated := true })] }, grains := [(0, { state := .idle, test := true })] }, 0, by decide⟩,
   ⟨{ up with obs := { tests := [(0, {  })] }, grains := [(0, { state := .idle, test := true })] }, 0, by decide⟩,
   ⟨up, [0, 0, 0, 0, 9], 4, 9, by decide⟩,
   ⟨up, 0, 1, 7, by decide⟩⟩

theorem witness_KeyEvents :
    (∃ (s : State) (k : _), (s.slot k).destroying = true) ∧
    (∃ (s : State) (k : _), s.mramOk = true ∧ (s.slot k).floorWrite = true) ∧
    (∃ (s : State) (k : _) (b : _) (v : _) (rest : _), s.mramOk = true ∧ (s.slot k).floorWrite = false ∧ (s.slot k).lowering = (b, v) :: rest) ∧
    (∃ (s : State), s.mramOk = false) ∧
    (∃ (s : State), s.vault.shelfLoading = true) ∧
    (∃ (s : State) (k : _) (st : Stateful), s.mramOk = true ∧ (s.slot k).stateful = some st ∧ st.reserving = true) ∧
    (∃ (s : State) (k : _) (st : Stateful), (s.slot k).stateful = some st ∧ st.restoring ≠ 0) :=
  ⟨⟨{ up with vault := { slots := [(2, { destroying := true })] } }, 2, by decide⟩,
   ⟨{ up with vault := { slots := [(2, { floorWrite := true })] } }, 2, by decide⟩,
   ⟨{ up with vault := { slots := [(2, { lowering := [(5, ⟨.i3c, none⟩)] })] } }, 2, 5, ⟨.i3c, none⟩, [], by decide⟩,
   ⟨{ up with power := { warn := 32 } }, by decide⟩,
   ⟨{ up with vault := { shelfLoading := true } }, by decide⟩,
   ⟨{ up with vault := { slots := [(2, { stateful := some { reserving := true } })] } }, 2, { reserving := true }, by decide⟩,
   ⟨{ up with vault := { slots := [(2, { stateful := some { restoring := 1 } })] } }, 2, { restoring := 1 }, by decide⟩⟩

theorem witness_RandomNumbers :
    (∃ (s : State) (k : _) (raw : _), s.rng.working.contains k = true ∧ (s.rng.source k).calibrated = true ∧ blockPasses ((s.rng.source k).samples raw).1 = true) ∧
    (∃ (s : State) (k : _) (raw : _), s.rng.working.contains k = true ∧ (s.rng.source k).calibrated = true ∧ blockPasses ((s.rng.source k).samples raw).1 = false) ∧
    (∃ (s : State) (k : _), (s.rng.source k).role = .warming) ∧
    (∃ (s : State) (k : _) (pair : _) (rest : _), s.rng.state ≠ .failed ∧ s.rng.queue.length < 64 ∧ s.rng.nextPair = some k ∧ (s.rng.source k).pairs = pair :: rest) ∧
    (∃ (s : State), s.rng.firstSeed = false ∧ s.rng.state ≠ .failed) ∧
    (∃ (s : State), s.rng.firstSeed = true) ∧
    (∃ (s : State) (p : _), s.rng.state = .ready ∧ s.rng.instantiated = true ∧ 8 ≤ s.rng.queue.length ∧ s.boot.tilth ≠ none ∧ p < s.portCount ∧ (s.drbg p).state = .uninstantiated) ∧
    (∃ (s : State) (p : _), s.rng.state = .ready ∧ s.rng.instantiated = true ∧ 8 ≤ s.rng.queue.length ∧ s.boot.tilth ≠ none ∧ p < s.portCount ∧ (s.drbg p).state = .uninstantiated) ∧
    (∃ (s : State) (p : _) (r : _) (rest : _) (j : _), (s.drbg p).requests = r :: rest ∧ (s.drbg p).ready r = true ∧ r.user = .job j) ∧
    (∃ (s : State) (p : _) (r : _) (rest : _), (s.drbg p).requests = r :: rest ∧ (s.drbg p).ready r = true ∧ r.user = .discard) ∧
    (∃ (s : State) (p : _) (r : _) (rest : _) (k : _), (s.drbg p).requests = r :: rest ∧ (s.drbg p).ready r = true ∧ r.user = .buffer k) ∧
    (∃ (s : State) (p : _), (s.drbg p).reseeding = true) ∧
    (∃ (s : State) (k : _), s.life.state = .testUnlocked ∧ k ≤ 19 ∧ s.rng.capturing = none) ∧
    (∃ (s : State), s.life.state ≠ .testUnlocked) ∧
    (∃ (s : State) (k : _), s.rng.capturing = some k) ∧
    (∃ (s : State) (j : _) (job : Job) (o : PairOwner), s.job j = some job ∧ s.kindOf job = .random false ∧ job.stage = .execute ∧ job.rngWait = false ∧ s.pairOwner job.pair = some o ∧ s.rng.state = .ready ∧ (s.drbg o.port).state ≠ .uninstantiated ∧ (s.drbg o.port).state ≠ .failed) ∧
    (∃ (s : State) (j : _) (job : Job) (o : PairOwner), s.job j = some job ∧ s.kindOf job = .random false ∧ job.stage = .execute ∧ job.rngWait = false ∧ s.pairOwner job.pair = some o ∧ (s.rng.state ≠ .ready ∨ (s.drbg o.port).state = .uninstantiated ∨ (s.drbg o.port).state = .failed)) ∧
    (∃ (s : State) (j : _) (job : Job) (o : PairOwner), s.job j = some job ∧ s.kindOf job = .random true ∧ job.stage = .execute ∧ job.rngWait = false ∧ s.pairOwner job.pair = some o ∧ s.rng.state = .ready ∧ (s.drbg o.port).state ≠ .uninstantiated ∧ (s.drbg o.port).state ≠ .failed) ∧
    (∃ (s : State) (j : _) (job : Job) (o : PairOwner), s.job j = some job ∧ s.kindOf job = .random true ∧ job.stage = .execute ∧ job.rngWait = false ∧ s.pairOwner job.pair = some o ∧ (s.rng.state ≠ .ready ∨ (s.drbg o.port).state = .uninstantiated ∨ (s.drbg o.port).state = .failed)) ∧
    (∃ (s : State) (j : _) (job : Job), s.job j = some job ∧ s.kindOf job = .entropy ∧ job.stage = .execute ∧ job.rngWait = false ∧ s.rng.state = .ready) ∧
    (∃ (s : State) (j : _) (job : Job), s.job j = some job ∧ s.kindOf job = .entropy ∧ job.stage = .execute ∧ job.rngWait = false ∧ s.rng.state ≠ .ready) :=
  ⟨⟨{ up with rng := { sources := [(3, { role := .active, calibrated := true })] } }, 3, BitVec.ofNat 1024 (0x5555 * (2 ^ 1024 / 65535)), by decide +kernel⟩,
   ⟨{ up with rng := { sources := [(3, { role := .active, calibrated := true })] } }, 3, 0, by decide +kernel⟩,
   ⟨{ up with rng := { sources := [(3, { role := .warming })] } }, 3, by decide⟩,
   ⟨{ up with rng := { sources := [(3, { role := .active, pairs := [7] })] } }, 3, 7, [], by decide +kernel⟩,
   ⟨up, by decide⟩,
   ⟨{ up with rng := { firstSeed := true } }, by decide⟩,
   ⟨{ up with rng := { state := .ready, instantiated := true, queue := List.replicate 16 [0] } }, 0, by decide⟩,
   ⟨{ up with rng := { state := .ready, instantiated := true, queue := List.replicate 16 [0] } }, 0, by decide⟩,
   ⟨{ up with rng := { drbgs := [(0, { state := .ready, requests := [⟨.job 5, 1, [], false⟩] })] } }, 0, ⟨.job 5, 1, [], false⟩, [], 5, by decide⟩,
   ⟨{ up with rng := { drbgs := [(0, { state := .ready, requests := [⟨.discard, 1, [], false⟩] })] } }, 0, ⟨.discard, 1, [], false⟩, [], by decide⟩,
   ⟨{ up with rng := { drbgs := [(0, { state := .ready, count := 65535, requests := [⟨.buffer 3, 4096, [], false⟩] })] } }, 0, ⟨.buffer 3, 4096, [], false⟩, [], 3, by decide⟩,
   ⟨{ up with rng := { drbgs := [(0, { reseeding := true })] } }, 0, by decide⟩,
   ⟨{ up with life := { state := .testUnlocked } }, 19, by decide⟩,
   ⟨up, by decide⟩,
   ⟨{ up with rng := { capturing := some 4 } }, 4, by decide⟩,
   ⟨{ up with jobs := [(0, { pair := 0, index := 0, desc := { opcode := 0x7100, flags := 0 }, tenant := 1, stage := .execute, grain := none })], rng := { state := .ready, drbgs := [(0, { state := .ready })] } }, 0, { pair := 0, index := 0, desc := { opcode := 0x7100, flags := 0 }, tenant := 1, stage := .execute, grain := none }, ⟨1, 0, 0, 0⟩, by decide⟩,
   ⟨{ up with jobs := [(0, { pair := 0, index := 0, desc := { opcode := 0x7100, flags := 0 }, tenant := 1, stage := .execute, grain := none })], rng := { state := .ready } }, 0, { pair := 0, index := 0, desc := { opcode := 0x7100, flags := 0 }, tenant := 1, stage := .execute, grain := none }, ⟨1, 0, 0, 0⟩, by decide⟩,
   ⟨{ up with jobs := [(0, { pair := 0, index := 0, desc := { opcode := 0x7101, flags := 0 }, tenant := 1, stage := .execute, grain := none })], rng := { state := .ready, drbgs := [(0, { state := .ready })] } }, 0, { pair := 0, index := 0, desc := { opcode := 0x7101, flags := 0 }, tenant := 1, stage := .execute, grain := none }, ⟨1, 0, 0, 0⟩, by decide⟩,
   ⟨{ up with jobs := [(0, { pair := 0, index := 0, desc := { opcode := 0x7101, flags := 0 }, tenant := 1, stage := .execute, grain := none })], rng := { state := .failed } }, 0, { pair := 0, index := 0, desc := { opcode := 0x7101, flags := 0 }, tenant := 1, stage := .execute, grain := none }, ⟨1, 0, 0, 0⟩, by decide⟩,
   ⟨{ up with jobs := [(0, { pair := 0, index := 0, desc := { opcode := 0x7200, flags := 0 }, tenant := 1, stage := .execute, grain := none })], rng := { state := .ready } }, 0, { pair := 0, index := 0, desc := { opcode := 0x7200, flags := 0 }, tenant := 1, stage := .execute, grain := none }, by decide⟩,
   ⟨{ up with jobs := [(0, { pair := 0, index := 0, desc := { opcode := 0x7200, flags := 0 }, tenant := 1, stage := .execute, grain := none })], rng := {  } }, 0, { pair := 0, index := 0, desc := { opcode := 0x7200, flags := 0 }, tenant := 1, stage := .execute, grain := none }, by decide⟩⟩

theorem witness_DigestEngines :
    (∃ (s : State) (r : _) (e : _) (value : W32), s.live r = true ∧ s.heldPair r = none ∧ s.digOwned r e = true ∧ ({ s.digest e with ctl := value.toNat &&& 0x00FF017F } : Digest).configOk = true ∧ ({ s.digest e with ctl := value.toNat &&& 0x00FF017F } : Digest).keySrc = false) ∧
    (∃ (s : State) (r : _) (e : _) (value : W32), s.live r = true ∧ s.heldPair r = none ∧ s.digOwned r e = true ∧ ({ s.digest e with ctl := value.toNat &&& 0x00FF017F } : Digest).configOk = true ∧ ({ s.digest e with ctl := value.toNat &&& 0x00FF017F } : Digest).keySrc = true ∧ s.digKey e ({ s.digest e with ctl := value.toNat &&& 0x00FF017F } : Digest) = .none) ∧
    (∃ (s : State) (r : _) (e : _) (value : W32) (err : _), s.live r = true ∧ s.heldPair r = none ∧ s.digOwned r e = true ∧ ({ s.digest e with ctl := value.toNat &&& 0x00FF017F } : Digest).configOk = true ∧ ({ s.digest e with ctl := value.toNat &&& 0x00FF017F } : Digest).keySrc = true ∧ s.digKey e ({ s.digest e with ctl := value.toNat &&& 0x00FF017F } : Digest) = err ∧ err ≠ .none) ∧
    (∃ (s : State) (r : _) (e : _) (value : W32), s.live r = true ∧ s.heldPair r = none ∧ s.digOwned r e = true ∧ ({ s.digest e with ctl := value.toNat &&& 0x00FF017F } : Digest).configOk = false) ∧
    (∃ (s : State) (r : _) (e : _) (value : W32), s.live r = true ∧ s.heldPair r = none ∧ s.digOwned r e = true ∧ (s.digest e).state = .feed ∧ (s.digest e).message.length + (leBytes 4 (s.digest e).dataLo ++ leBytes 4 value.toNat).length ≤ 2 ^ 61 - 1) ∧
    (∃ (s : State) (r : _) (e : _) (value : W32), s.live r = true ∧ s.heldPair r = none ∧ s.digOwned r e = true ∧ (s.digest e).state = .feed ∧ (s.digest e).message.length + ((leBytes 4 (s.digest e).lastLo ++ leBytes 4 value.toNat).take (s.digest e).lcnt).length ≤ 2 ^ 61 - 1) ∧
    (∃ (s : State) (r : _) (e : _), s.live r = true ∧ s.heldPair r = none ∧ s.digOwned r e = true ∧ (s.digest e).state ≠ .feed ∧ (s.digest e).state ≠ .final) ∧
    (∃ (s : State) (r : _) (e : _), s.live r = true ∧ s.heldPair r = none ∧ s.digOwned r e = true ∧ (s.digest e).state ≠ .feed ∧ (s.digest e).state ≠ .final) ∧
    (∃ (s : State) (r : _) (e : _), s.live r = true ∧ s.heldPair r = none ∧ s.digOwned r e = true ∧ (s.digest e).state = .armed) ∧
    (∃ (s : State) (r : _) (e : _) (value : W32), s.live r = true ∧ s.heldPair r = none ∧ s.digOwned r e = true ∧ (s.digest e).state = .armed ∧ (s.digest e).lenSet = true ∧ value.toNat * 2 ^ 32 + (s.digest e).addrLo + (s.digest e).len ≤ 2 ^ 64) ∧
    (∃ (s : State) (r : _) (e : _) (value : W32), s.live r = true ∧ s.heldPair r = none ∧ s.digOwned r e = true ∧ (s.digest e).state = .armed ∧ (s.digest e).lenSet = true ∧ 2 ^ 64 < value.toNat * 2 ^ 32 + (s.digest e).addrLo + (s.digest e).len) ∧
    (∃ (s : State) (e : _), (s.digest e).state = .dma ∧ (s.digest e).paused = false) ∧
    (∃ (s : State) (e : _), (s.digest e).state = .dma ∧ (s.digest e).paused = false) ∧
    (∃ (s : State) (e : _), (s.digest e).state = .final ∧ (s.digest e).paused = false ∧ (e < 16 ∨ digKeyed (s.digest e).alg = false ∨ s.rng.firstSeed = true)) :=
  ⟨⟨up, .loam 0, 17, 6, by decide⟩,
   ⟨{ up with vault := { slots := [(0, { state := .loaded, system := true, attr := 0xE1 + 2 ^ 19 + 2 ^ 33 })] } }, .loam 0, 17, 0x110, by decide⟩,
   ⟨up, .loam 0, 17, 0x110, .keyAbsent, by decide⟩,
   ⟨up, .loam 0, 17, 0x1F, by decide⟩,
   ⟨{ up with digests := [(17, { state := .feed })] }, .loam 0, 17, 1, by decide⟩,
   ⟨{ up with digests := [(17, { state := .feed, lcnt := 7 })] }, .loam 0, 17, 1, by decide⟩,
   ⟨up, .loam 0, 17, by decide⟩,
   ⟨up, .loam 0, 17, by decide⟩,
   ⟨{ up with digests := [(17, { state := .armed })] }, .loam 0, 17, by decide⟩,
   ⟨{ up with digests := [(17, { state := .armed, lenSet := true, len := 2 ^ 32, addrLo := 0 })] }, .loam 0, 17, 0xFFFFFFFF, by decide⟩,
   ⟨{ up with digests := [(17, { state := .armed, lenSet := true, len := 2 ^ 32, addrLo := 4 })] }, .loam 0, 17, 0xFFFFFFFF, by decide⟩,
   ⟨{ up with digests := [(17, { state := .dma })] }, 17, by decide⟩,
   ⟨{ up with digests := [(17, { state := .dma })] }, 17, by decide⟩,
   ⟨{ up with digests := [(15, { state := .final })] }, 15, by decide⟩⟩

theorem witness_SuppliesAndResets :
    (∃ (s : State) (k : _), k ≤ 1 ∧ s.power.topsoilUp = false) ∧
    (∃ (s : State) (k : _), k ≤ 1 ∧ s.power.topsoilUp = true ∧ s.power.holdActive = true) ∧
    (∃ (s : State) (k : _), k ≤ 1 ∧ s.power.topsoilUp = true ∧ s.power.holdActive = false) ∧
    (∃ (s : State) (k : _), k ≤ 1 ∧ s.power.holdActive = true ∧ s.power.holdBy = 2 ^ k) ∧
    (∃ (s : State) (k : _), k ≤ 1 ∧ s.power.holdActive = false) ∧
    (∃ (s : State), s.power.holdActive = true ∧ s.resetRunning = false) ∧
    (∃ (s : State), s.power.holdActive = false) ∧
    (∃ (s : State) (k : _), k ≤ 3 ∧ s.power.topsoilUp = true ∧ s.resetRunning = false) ∧
    (∃ (s : State) (k : _), k ≤ 3 ∧ s.power.topsoilUp = false) ∧
    (∃ (s : State) (k : _), k ≤ 3 ∧ s.power.topsoilUp = true ∧ s.resetRunning = true) ∧
    (∃ (s : State) (k : _), 4 ≤ k ∧ k ≤ 8 ∧ s.power.phase ≠ .unpowered) ∧
    (∃ (s : State), (s.power.phase = .lockService → s.tamper.locked = false) ∧ (s.modPower fun p => { p with warn := if p.warn.testBit 5 then p.warn - 32 else p.warn }).logOpen = true) ∧
    (∃ (s : State), (s.power.phase = .lockService → s.tamper.locked = false) ∧ (s.modPower fun p => { p with warn := if p.warn.testBit 5 then p.warn - 32 else p.warn }).logOpen = false) ∧
    (∃ (s : State), s.power.phase = .lockService ∧ s.tamper.locked = true ∧ (s.modPower fun p => { p with warn := if p.warn.testBit 5 then p.warn - 32 else p.warn }).logOpen = true) ∧
    (∃ (s : State) (valid : Nat), s.power.phase = .unpowered ∧ bits valid 8 4 = 31) ∧
    (∃ (s : State) (valid : Nat), s.power.phase = .unpowered ∧ bits valid 8 4 = 31) ∧
    (∃ (s : State), s.power.phase = .porHeld) ∧
    (∃ (s : State) (n : Nat) (taken : Bool), s.power.pinLow = true ∧ s.power.phase ≠ .unpowered ∧ s.power.phase ≠ .porHeld ∧ (10000 ≤ n ∨ 1000 ≤ n ∧ taken = true)) ∧
    (∃ (s : State) (n : Nat) (taken : Bool), s.power.pinLow = true ∧ s.power.phase ≠ .unpowered ∧ s.power.phase ≠ .porHeld ∧ (n < 1000 ∨ n < 10000 ∧ taken = false)) ∧
    (∃ (s : State), s.power.phase = .pllLocking ∧ s.power.pinLow = false) ∧
    (∃ (s : State), s.bringingUp = true) ∧
    (∃ (s : State), s.bringingUp = false) ∧
    (∃ (s : State) (k : _), 1 ≤ k ∧ k ≤ 3 ∧ s.power.phase ≠ .lockService ∧ s.power.phase ∉ [Phase.unpowered, .porHeld, .pinHeld, .pllLocking] ∧ s.resetRunning = false) ∧
    (∃ (s : State), s.power.phase ≠ .lockService ∧ s.power.phase ∉ [Phase.unpowered, .porHeld, .pinHeld, .pllLocking] ∧ s.resetRunning = false) ∧
    (∃ (s : State) (k : _), k ≤ 3 ∧ s.power.phase ≠ .lockService ∧ s.power.phase ∉ [Phase.unpowered, .porHeld, .pinHeld, .pllLocking] ∧ s.resetRunning = true) ∧
    (∃ (s : State), s.power.phase = .lockService) ∧
    (∃ (s : State), s.power.phase ∉ [Phase.unpowered, .porHeld, .pinHeld, .pllLocking]) ∧
    (∃ (s : State) (q : _), q < 4 ∧ (s.quad q).pllRun = true ∧ (s.quad q).failed = false ∧ (s.quad q).pllLocked = false ∧ (s.quad q).unlocked = false) ∧
    (∃ (s : State) (q : _), q < 4 ∧ (s.quad q).pllRun = true ∧ (s.quad q).failed = false ∧ (s.quad q).pllLocked = false ∧ (s.quad q).unlocked = true ∧ s.power.holdActive = false) ∧
    (∃ (s : State) (q : _), q < 4 ∧ (s.quad q).pllRun = true ∧ (s.quad q).failed = false ∧ (s.quad q).unlocked = false ∧ (s.quad q).lastUnlock = none) ∧
    (∃ (s : State) (q : _) (u : _), q < 4 ∧ (s.quad q).pllRun = true ∧ (s.quad q).failed = false ∧ (s.quad q).unlocked = false ∧ (s.quad q).lastUnlock = some u ∧ (s.tick.rtc + 2 ^ 48 - u) % 2 ^ 48 ≤ 32768) ∧
    (∃ (s : State) (q : _), (s.quad q).unlocked = true) ∧
    (∃ (s : State), s.power.phase = .fallow) ∧
    (∃ (s : State) (v : Via), s.power.phase = .scrapped ∧ v.transport = .i3c) ∧
    (∃ (s : State) (i : Nat), s.power.phase = .fallow ∧ i ≤ 1 ∧ (s.region i).page.state = .sealedPage) ∧
    (∃ (s : State) (i : Nat), s.power.phase = .fallow ∧ (1 < i ∨ (s.region i).page.state ≠ .sealedPage)) ∧
    (∃ (s : State) (req : List Byte), s.power.phase ∈ [Phase.factory, .fallow, .lockService] ∧ s.takesDirect req = true ∧ s.lcVerdict req ≠ Status.ok) ∧
    (∃ (s : State) (req : List Byte), s.power.phase ∈ [Phase.factory, .fallow, .lockService] ∧ s.takesDirect req = false) :=
  ⟨⟨State.reset, 1, by decide⟩,
   ⟨{ up with power := { topsoilUp := true, holdActive := true } }, 1, by decide⟩,
   ⟨up, 1, by decide⟩,
   ⟨{ up with power := { holdActive := true, holdBy := 2 } }, 1, by decide⟩,
   ⟨up, 0, by decide⟩,
   ⟨{ up with glb := { startOk := true }, power := { phase := .gateOpen, holdActive := true } }, by decide⟩,
   ⟨up, by decide⟩,
   ⟨{ up with glb := { startOk := true } }, 3, by decide⟩,
   ⟨State.reset, 3, by decide⟩,
   ⟨up, 0, by decide⟩,
   ⟨{ up with glb := { startOk := true } }, 4, by decide⟩,
   ⟨up, by decide⟩,
   ⟨State.reset, ⟨by decide, by decide⟩⟩,
   ⟨{ State.reset with power := { phase := .lockService }, tamper := { locked := true } }, ⟨by decide, by decide, by decide⟩⟩,
   ⟨State.reset, 0x1F0, by decide⟩,
   ⟨State.reset, 0x1F0, by decide⟩,
   ⟨{ State.reset with power := { phase := .porHeld } }, by decide⟩,
   ⟨{ up with power := { phase := .gateOpen, pinLow := true } }, 1000, true, by decide⟩,
   ⟨{ up with power := { phase := .gateOpen, pinLow := true } }, 9999, false, by decide⟩,
   ⟨{ up with power := { phase := .pllLocking } }, by decide⟩,
   ⟨up, by decide⟩,
   ⟨{ up with glb := { startOk := true } }, by decide⟩,
   ⟨{ up with glb := { startOk := true } }, 3, by decide⟩,
   ⟨{ up with glb := { startOk := true } }, by decide⟩,
   ⟨up, 0, by decide⟩,
   ⟨{ State.reset with power := { phase := .lockService }, tamper := { locked := true } }, by decide⟩,
   ⟨up, by decide⟩,
   ⟨{ up with quads := [(3, { pllRun := true })] }, 3, by decide⟩,
   ⟨{ up with quads := [(3, { pllRun := true, unlocked := true })] }, 3, by decide⟩,
   ⟨{ up with quads := [(3, { pllRun := true, pllLocked := true })] }, 3, by decide⟩,
   ⟨unlocked0, 3, (up.rtc + Config.elapsed up.free) % 2 ^ 48, ⟨by decide, by decide, by decide, by decide, rfl, unlocked0_again⟩⟩,
   ⟨{ up with quads := [(3, { unlocked := true })] }, 3, by decide⟩,
   ⟨{ up with power := { phase := .fallow } }, by decide⟩,
   ⟨{ up with power := { phase := .scrapped } }, ⟨.i3c, none⟩, by decide⟩,
   ⟨{ up with power := { phase := .fallow }, boot := { regions := [(1, { page := { state := .sealedPage } })] } }, 1, by decide⟩,
   ⟨{ up with power := { phase := .fallow }, boot := { regions := [(1, { page := { state := .sealedPage } })] } }, 0, by decide⟩,
   ⟨{ up with power := { phase := .fallow } }, [], by decide⟩,
   ⟨{ up with power := { phase := .lockService } }, [], by decide⟩⟩

theorem witness_StartSequence :
    (∃ (s : State) (cut : Option Bool) (bad : Nat), s.power.phase = .booting ∧ s.power.rtcLost = false ∧ (s.lifeDuties cut).power.phase = .booting ∧ (((s.lifeDuties cut).transferLatch bad).modLife fun l => { l with latch := l.permissions }).tamper.unlocked = false) ∧
    (∃ (s : State) (cut : Option Bool) (bad : Nat), s.power.phase = .booting ∧ s.power.rtcLost = false ∧ (s.lifeDuties cut).power.phase = .booting ∧ (((s.lifeDuties cut).transferLatch bad).modLife fun l => { l with latch := l.permissions }).tamper.unlocked = true) ∧
    (∃ (s : State), s.power.phase ≠ .booting) ∧
    (∃ (s : State), s.power.phase = .renewing ∧ s.rng.firstSeed = true) ∧
    (∃ (s : State), (s.power.phase ≠ .renewing ∨ s.rng.firstSeed = false)) ∧
    (∃ (s : State), s.power.phase = .chosen ∧ s.rng.firstSeed = true) ∧
    (∃ (s : State), s.power.phase = .sealing ∧ s.sealChecks s.boot.running = true) ∧
    (∃ (s : State), s.power.phase = .sealing ∧ s.sealChecks s.boot.running = false) ∧
    (∃ (s : State) (n : _), (s.modPower fun p => { p with valid := p.valid / 16 * 16 + n % 16, refclk0 := true }).topsoilWanted = true ∧ s.power.topsoilUp = false ∧ n % 16 = 15 ∧ s.rng.firstSeed = true) ∧
    (∃ (s : State), s.power.topsoilUp = false) ∧
    (∃ (s : State), s.power.phase = .gateOpen ∧ s.power.topsoilUp = true ∧ s.boot.tilth ≠ none ∧ s.vault.shelfLoading = false ∧ s.glb.startOk = false ∧ s.mramOk = true ∧ s.boot.running = s.boot.primary ∧ s.boot.svnRaise = false) ∧
    (∃ (s : State), s.power.phase = .gateOpen ∧ s.power.topsoilUp = true ∧ s.boot.tilth ≠ none ∧ s.vault.shelfLoading = false ∧ s.glb.startOk = false ∧ s.mramOk = true ∧ s.boot.running ≠ s.boot.primary) ∧
    (∃ (s : State) (h : ImgHeader), s.power.phase = .gateOpen ∧ s.power.topsoilUp = true ∧ s.boot.tilth ≠ none ∧ s.vault.shelfLoading = false ∧ s.glb.startOk = false ∧ s.mramOk = true ∧ s.boot.running = s.boot.primary ∧ s.boot.svnRaise = true ∧ (s.region s.boot.running).header s.boot.running = some h) :=
  ⟨⟨{ State.reset with power := { phase := .booting }, rng := { firstSeed := true } }, none, 0, by (repeat' apply And.intro) <;> first | decide | rfl | (constructor <;> rfl)⟩,
   ⟨{ State.reset with power := { phase := .booting }, tamper := { unlocked := true } }, none, 0, by (repeat' apply And.intro) <;> first | decide | rfl | (constructor <;> rfl)⟩,
   ⟨up, by decide⟩,
   ⟨{ State.reset with power := { phase := .renewing }, rng := { firstSeed := true } }, by decide⟩,
   ⟨{ State.reset with power := { phase := .booting }, rng := { firstSeed := true } }, by decide⟩,
   ⟨{ State.reset with power := { phase := .chosen }, rng := { firstSeed := true } }, by decide⟩,
   ⟨sealing0, ⟨rfl, sealing0_checks⟩⟩,
   ⟨{ State.reset with power := { phase := .sealing }, boot := { running := 0, regions := [(0, { page := { sealVal := [] } })] } }, by decide +kernel⟩,
   ⟨{ State.reset with power := { phase := .gateOpen }, boot := { tilth := some {} }, rng := { firstSeed := true } }, 15, by decide⟩,
   ⟨State.reset, by decide⟩,
   ⟨{ State.reset with power := { phase := .gateOpen, topsoilUp := true }, boot := { tilth := some {}, running := 0 } }, by decide⟩,
   ⟨{ State.reset with power := { phase := .gateOpen, topsoilUp := true }, boot := { tilth := some {}, running := 1 } }, by decide⟩,
   ⟨{ State.reset with power := { phase := .gateOpen, topsoilUp := true }, boot := { tilth := some {}, running := 0, svnRaise := true, regions := [(0, { bytes := [(0, 0x49), (1, 0x58), (2, 0x53), (3, 0x45), (4, 1)] })] } }, ⟨0, 0, 0, 0, 0, 0, 0, []⟩, by decide⟩⟩

theorem witness_TamperSystem :
    (∃ (s : State), s.glb.linkDown = false ∧ s.power.topsoilUp = true) ∧
    (∃ (s : State) (k : _), k < 4 ∧ s.loopRandom k = true) ∧
    (∃ (s : State) (k : _), s.onBattery = false ∧ k ∈ [0, 1, 4, 5]) ∧
    (∃ (s : State) (readings : List (BitVec 16)), (∀ i ∈ s.sensors, s.tempWindow.1.toInt ≤ ((readings[i]?).getD 0).toInt ∧ ((readings[i]?).getD 0).toInt ≤ s.tempWindow.2.toInt) ∧ (∀ d ∈ [0, 1], (((readings[2 * d]?).getD 0).toInt - ((readings[2 * d + 1]?).getD 0).toInt).natAbs ≤ 60) ∧ s.Sound ∧ (∀ i, s.tamper.abnormal.find? i = none)) ∧
    (∃ (s : State) (readings : List (BitVec 16)) (i : Nat), i ∈ s.sensors ∧ ((((readings[i]?).getD 0 : BitVec 16)).toInt < s.tempWindow.1.toInt) ∧ s.tamper.abnormal.get (16 + i) 0 = 2 ∧ (s.responses 13).testBit 0 = true ∧ (s.responses 13).testBit 2 = true ∧ s.power.phase ≠ .unpowered) ∧
    (∃ (s : State) (k : _), s.onBattery = false ∧ k ≤ 3 ∧ (k = 2 → s.power.topsoilUp = true)) ∧
    (∃ (s : State) (k : _), s.onBattery = false ∧ k ≤ 3 ∧ (k = 2 → s.power.topsoilUp = true) ∧ s.tamper.abnormal.rising = true) ∧
    (∃ (s : State) (k : _), s.onBattery = false ∧ k ≤ 3 ∧ (k = 2 → s.power.topsoilUp = true) ∧ (s.sample (32 + k) true).third (32 + k) = true) ∧
    (∃ (s : State), s.onBattery = true) ∧
    (∃ (s : State), s.tamper.outFor &&& s.tamper.live = 0 ∧ (s.tamper.outLock = false ∨ s.tamper.locked = false)) ∧
    (∃ (s : State), s.onBattery = true) ∧
    (∃ (s : State), s.onBattery = false ∧ (s.tamper.outFor &&& s.tamper.live ≠ 0 ∨ s.tamper.outLock = true ∧ s.tamper.locked = true)) ∧
    (∃ (s : State), s.tamper.due ≠ 0) ∧
    (∃ (s : State), s.power.phase = .lockService) ∧
    (∃ (s : State) (req : List Byte), s.power.phase = .lockService ∧ s.unlockVerdict req ≠ Status.ok) :=
  ⟨⟨up, by decide⟩,
   ⟨{ up with rng := { firstSeed := true }, tamperCfg := [(11, { mode := 1 })] }, 3, by decide⟩,
   ⟨up, 5, by decide⟩,
   ⟨up, [0, 0, 0, 0], ⟨by decide, by decide, up_sound, fun _ => rfl⟩⟩,
   ⟨{ up with life := { state := .owned }, tamperCfg := [(13, { mode := 1, bits := 5 })], tamper := { abnormal := [(19, 2)] } }, [0, 0, 0, 0x8000], 3, by decide⟩,
   ⟨up, 2, by decide⟩,
   ⟨{ up with tamper := { abnormal := [(34, 2)] } }, 2, by decide⟩,
   ⟨{ up with tamper := { abnormal := [(34, 2)] } }, 2, by decide⟩,
   ⟨State.reset, by decide⟩,
   ⟨{ up with tamper := { outFor := 1, live := 2 } }, by decide⟩,
   ⟨State.reset, by decide⟩,
   ⟨{ up with tamper := { outFor := 3, live := 2 } }, by decide⟩,
   ⟨{ up with tamper := { due := 1 } }, by decide⟩,
   ⟨{ State.reset with power := { phase := .lockService }, tamper := { locked := true } }, by decide⟩,
   ⟨{ State.reset with power := { phase := .lockService }, tamper := { locked := true } }, [], by decide⟩⟩

theorem witness_PlatformGuard :
    (∃ (s : State) (c : _), (s.chan c).state = .init) ∧
    (∃ (s : State) (c : _), (s.chan c).state = .init) ∧
    (∃ (s : State) (c : _) (m : List Byte), s.preparing c = true ∧ (s.chan c).manifest = [] ∧ (s.manifestFormat c m = false ∨ s.manifestOk m = false)) ∧
    (∃ (s : State) (c : _) (image : List Byte), s.preparing c = true ∧ (s.chan c).manifest ≠ [] ∧ imageMatches (s.chan c).manifest image = true) ∧
    (∃ (s : State) (c : _) (image : List Byte), s.preparing c = true ∧ (s.chan c).manifest ≠ [] ∧ imageMatches (s.chan c).manifest image = false) ∧
    (∃ (s : State) (k : _), k < 8 ∧ s.boot.tilth.isSome = true ∧ s.pgd.autoDue.testBit k = true ∧ s.pgd.byTamper.testBit k = false ∧ s.holdReady k = true) ∧
    (∃ (s : State) (c : _), (s.chan c).window.isSome = true) ∧
    (∃ (s : State) (c : _), (s.chan c).busy = true ∧ (s.chan c).state = .recovering) ∧
    (∃ (s : State) (c : _) (code : Half), s.takesClass c code 0 = false) ∧
    (∃ (s : State) (c : _) (code : Half), s.takesClass c code 1 = false) ∧
    (∃ (s : State) (c : _) (code : Half), s.takesClass c code 2 = false) ∧
    (∃ (s : State) (c : _) (code : Half), s.takesClass c code 3 = false) ∧
    (∃ (s : State) (c : _) (code : Half), s.takesClass c code 4 = false) ∧
    (∃ (s : State) (c : _) (code : Half) (a : Nat) (n : Nat) (t : State), s.takesClass c code 0 = true ∧ s.sieve c code a n = (t, true)) ∧
    (∃ (s : State) (c : _) (code : Half) (a : Nat) (n : Nat) (t : State), s.takesClass c code 0 = true ∧ s.sieve c code a n = (t, false) ∧ opServe (s.opOf c (code.toNat % 256)) ≠ 1 ∧ opDummy (s.opOf c (code.toNat % 256)) = true) ∧
    (∃ (s : State) (c : _) (code : Half) (a : Nat) (n : Nat) (t : State), s.takesClass c code 0 = true ∧ s.sieve c code a n = (t, false) ∧ opServe (s.opOf c (code.toNat % 256)) ≠ 1 ∧ opDummy (s.opOf c (code.toNat % 256)) = false) ∧
    (∃ (s : State) (c : _) (code : Half) (a : Nat) (data : List Byte) (t : State), s.takesClass c code 1 = true ∧ s.sieve c code a data.length = (t, true)) ∧
    (∃ (s : State) (c : _) (code : Half) (a : Nat) (data : List Byte) (t : State), s.takesClass c code 1 = true ∧ s.sieve c code a data.length = (t, false) ∧ opServe (s.opOf c (code.toNat % 256)) ≠ 1 ∧ (opAddr (s.opOf c (code.toNat % 256)) ≠ 0 ∨ opUnit (s.opOf c (code.toNat % 256)) ≠ 0)) ∧
    (∃ (s : State) (c : _) (code : Half) (a : Nat) (data : List Byte) (t : State), s.takesClass c code 1 = true ∧ s.sieve c code a data.length = (t, false) ∧ opServe (s.opOf c (code.toNat % 256)) ≠ 1 ∧ opAddr (s.opOf c (code.toNat % 256)) = 0 ∧ opUnit (s.opOf c (code.toNat % 256)) = 0) ∧
    (∃ (s : State) (c : _) (code : Half) (a : Nat) (t : State), s.takesClass c code 2 = true ∧ s.sieve c code a 1 = (t, true)) ∧
    (∃ (s : State) (c : _) (code : Half) (a : Nat) (t : State), s.takesClass c code 2 = true ∧ s.sieve c code a 1 = (t, false) ∧ opServe (s.opOf c (code.toNat % 256)) ≠ 1 ∧ (opAddr (s.opOf c (code.toNat % 256)) ≠ 0 ∨ opUnit (s.opOf c (code.toNat % 256)) ≠ 0)) ∧
    (∃ (s : State) (c : _) (code : Half) (a : Nat) (t : State), s.takesClass c code 2 = true ∧ s.sieve c code a 1 = (t, false) ∧ opServe (s.opOf c (code.toNat % 256)) ≠ 1 ∧ opAddr (s.opOf c (code.toNat % 256)) = 0 ∧ opUnit (s.opOf c (code.toNat % 256)) = 0) ∧
    (∃ (s : State) (c : _) (code : Half) (t : State), s.takesClass c code 3 = true ∧ s.sieve c code 0 0 = (t, true)) ∧
    (∃ (s : State) (c : _) (code : Half) (t : State), s.takesClass c code 3 = true ∧ s.sieve c code 0 0 = (t, false) ∧ opServe (t.opOf c (code.toNat % 256)) ≠ 1 ∧ code.toNat % 256 ≠ 0x50) ∧
    (∃ (s : State) (c : _) (code : Half) (a : Nat) (data : List Byte) (t : State), s.takesClass c code 4 = true ∧ s.sieve c code a data.length = (t, true)) ∧
    (∃ (s : State) (c : _) (code : Half) (a : Nat) (data : List Byte) (t : State), s.takesClass c code 4 = true ∧ s.sieve c code a data.length = (t, false) ∧ t.fewDummies c (code.toNat % 256) a data = false) ∧
    (∃ (s : State) (c : _) (t : State) (u : State), s.takesClass c 0x9966#16 4 = true ∧ s.sieve c 0x9966#16 0 0 = (t, false) ∧ t.sieve c 0x6699#16 0 0 = (u, false)) ∧
    (∃ (s : State) (c : _) (t : State), s.takesClass c 0x9966#16 4 = true ∧ s.sieve c 0x9966#16 0 0 = (t, true)) ∧
    (∃ (s : State) (c : _) (k : _) (got : Map Byte), (s.chan c).buffers.find? k = some got ∧ (s.chan c).busy = false) ∧
    (∃ (s : State) (c : _) (k : _) (bytes : List Byte) (e : MeasEntry), (s.chan c).hashing.find? (fun x => decide (x.1 = k)) = some (k, bytes) ∧ s.entryOf c k = some e ∧ sha3_256 bytes = e.digest) ∧
    (∃ (s : State) (c : _) (k : _) (bytes : List Byte) (e : MeasEntry), (s.chan c).hashing.find? (fun x => decide (x.1 = k)) = some (k, bytes) ∧ s.entryOf c k = some e ∧ sha3_256 bytes ≠ e.digest) :=
  ⟨⟨{ up with pgd := { chans := [(1, { state := .init })] } }, 1, by decide⟩,
   ⟨{ up with pgd := { chans := [(1, { state := .init })] } }, 1, by decide⟩,
   ⟨{ up with pgd := { chans := [(1, { state := .verifying })] } }, 1, [], ⟨by decide, by decide, .inl (by decide +kernel)⟩⟩,
   ⟨{ up with pgd := { chans := [(1, { state := .recovering, manifest := [sha3_256 []] })] } }, 1, [], ⟨by decide, by decide, by simp [imageMatches, State.chan, slice, Map.get, Map.find?]⟩⟩,
   ⟨{ up with pgd := { chans := [(1, { state := .verifying, manifest := [[]] })] } }, 1, [], by decide +kernel⟩,
   ⟨{ up with pgd := { autoDue := 128 } }, 7, by decide⟩,
   ⟨{ up with pgd := { chans := [(1, { window := some ⟨0, 0⟩ })] } }, 1, by decide⟩,
   ⟨{ up with pgd := { chans := [(1, { busy := true, state := .recovering })] } }, 1, by decide⟩,
   ⟨State.reset, 1, 3, by decide⟩,
   ⟨State.reset, 1, 2, by decide⟩,
   ⟨State.reset, 1, 0x20, by decide⟩,
   ⟨State.reset, 1, 5, by decide⟩,
   ⟨State.reset, 1, 0xB7, by decide⟩,
   ⟨{ up with pgd := { chans := [(1, { mode := 7 })] } }, 1, 3, 0, 1, ({ up with pgd := { chans := [(1, { mode := 7 })] } } : State).sieve 1 3 0 1 |>.1, by (repeat' apply And.intro) <;> first | rfl | decide⟩,
   ⟨up, 1, 0x0B, 0, 1, (up : State).sieve 1 0x0B 0 1 |>.1, by (repeat' apply And.intro) <;> first | rfl | decide⟩,
   ⟨up, 1, 3, 0, 1, (up : State).sieve 1 3 0 1 |>.1, by (repeat' apply And.intro) <;> first | rfl | decide⟩,
   ⟨{ up with pgd := { chans := [(1, { mode := 7 })] } }, 1, 2, 0, [], ({ up with pgd := { chans := [(1, { mode := 7 })] } } : State).sieve 1 2 0 0 |>.1, by (repeat' apply And.intro) <;> first | rfl | decide⟩,
   ⟨up, 1, 2, 0, [], (up : State).sieve 1 2 0 0 |>.1, by (repeat' apply And.intro) <;> first | rfl | decide⟩,
   ⟨up, 1, 6, 0, [], (up : State).sieve 1 6 0 0 |>.1, by (repeat' apply And.intro) <;> first | rfl | decide⟩,
   ⟨{ up with pgd := { chans := [(1, { mode := 7 })] } }, 1, 0x20, 0, ({ up with pgd := { chans := [(1, { mode := 7 })] } } : State).sieve 1 0x20 0 1 |>.1, by (repeat' apply And.intro) <;> first | rfl | decide⟩,
   ⟨up, 1, 0x20, 0, (up : State).sieve 1 0x20 0 1 |>.1, by (repeat' apply And.intro) <;> first | rfl | decide⟩,
   ⟨up, 1, 0x75, 0, (up : State).sieve 1 0x75 0 1 |>.1, by (repeat' apply And.intro) <;> first | rfl | decide⟩,
   ⟨{ up with pgd := { chans := [(1, { mode := 7 })] } }, 1, 5, ({ up with pgd := { chans := [(1, { mode := 7 })] } } : State).sieve 1 5 0 0 |>.1, by (repeat' apply And.intro) <;> first | rfl | decide⟩,
   ⟨up, 1, 5, (up : State).sieve 1 5 0 0 |>.1, by (repeat' apply And.intro) <;> first | rfl | decide⟩,
   ⟨{ up with pgd := { chans := [(1, { mode := 7 })] } }, 1, 0xB7, 0, [], ({ up with pgd := { chans := [(1, { mode := 7 })] } } : State).sieve 1 0xB7 0 0 |>.1, by (repeat' apply And.intro) <;> first | rfl | decide⟩,
   ⟨up, 1, 0xB7, 0, [], (up : State).sieve 1 0xB7 0 0 |>.1, ⟨rfl, rfl, noDummies _ _ _ _⟩⟩,
   ⟨up, 1, up, up, by (repeat' apply And.intro) <;> first | rfl | decide⟩,
   ⟨{ up with pgd := { ops := [(0x166, opEntry 4 0 0 0 1 2)], sieveEn := 2 } }, 1, ({ up with pgd := { ops := [(0x166, opEntry 4 0 0 0 1 2)], sieveEn := 2 } } : State).sieve 1 0x9966#16 0 0 |>.1, by (repeat' apply And.intro) <;> first | rfl | decide⟩,
   ⟨{ up with pgd := { chans := [(1, { buffers := [(2, [])] })] } }, 1, 2, [], by decide⟩,
   ⟨{ up with pgd := { chans := [(1, { hashing := [(2, [])] })], table := [{ digest := sha3_256 [], channel := 1, block := 2 }] } }, 1, 2, [], { digest := sha3_256 [], channel := 1, block := 2 }, ⟨by decide, rfl, rfl⟩⟩,
   ⟨{ up with pgd := { chans := [(1, { hashing := [(2, [])] })], table := [{ digest := [], channel := 1, block := 2 }] } }, 1, 2, [], { digest := [], channel := 1, block := 2 }, ⟨by decide, rfl, by decide +kernel⟩⟩⟩

theorem witness_I3cTarget :
    (∃ (s : State), s.i3cOn = true ∧ s.i3c.addr = none) ∧
    (∃ (s : State) (b : Nat), s.i3cOn = true ∧ s.i3c.addr = some b) ∧
    (∃ (s : State), s.i3cOn = true ∧ s.i3c.addr = none) ∧
    (∃ (s : State) (old : Nat), s.i3cOn = true ∧ s.i3c.addr = some old) ∧
    (∃ (s : State), s.i3cOn = true) ∧
    (∃ (s : State) (a : Nat), s.i3cOn = true ∧ s.i3c.addr = some a) ∧
    (∃ (s : State) (a : Nat), (s.i3cOn = false ∨ s.i3c.addr ≠ some a)) ∧
    (∃ (s : State) (a : Nat), s.i3cOn = true ∧ s.i3c.addr = some a) ∧
    (∃ (s : State) (a : Nat), (s.i3cOn = false ∨ s.i3c.addr ≠ some a)) ∧
    (∃ (s : State) (a : Nat), s.i3cOn = true ∧ s.i3c.addr = some a) ∧
    (∃ (s : State) (a : Nat), (s.i3cOn = false ∨ s.i3c.addr ≠ some a)) ∧
    (∃ (s : State) (a : Nat), s.i3cOn = true ∧ s.i3c.addr = some a) ∧
    (∃ (s : State) (a : Nat), (s.i3cOn = false ∨ s.i3c.addr ≠ some a)) ∧
    (∃ (s : State) (a : Nat), s.i3cOn = true ∧ s.i3c.addr = some a) ∧
    (∃ (s : State) (a : Nat), (s.i3cOn = false ∨ s.i3c.addr ≠ some a)) ∧
    (∃ (s : State) (a : Nat), s.i3cOn = true ∧ s.i3c.addr = some a) ∧
    (∃ (s : State) (ev : Byte), s.i3cOn = true ∧ ev.getLsbD 0 = true) ∧
    (∃ (s : State) (a : Nat) (ev : Byte), s.i3cOn = true ∧ s.i3c.addr = some a ∧ ev.getLsbD 0 = true) ∧
    (∃ (s : State) (a : Nat), s.i3c.addr ≠ some a) ∧
    (∃ (s : State) (ev : Byte), s.i3cOn = true ∧ ev.getLsbD 0 = true) ∧
    (∃ (s : State) (a : Nat) (ev : Byte), s.i3cOn = true ∧ s.i3c.addr = some a ∧ ev.getLsbD 0 = true) ∧
    (∃ (s : State) (a : Nat), s.i3c.addr ≠ some a) ∧
    (∃ (s : State), s.i3cOn = true) ∧
    (∃ (s : State) (a : Nat) (bytes : List Byte), s.i3cOn = true ∧ s.i3c.addr = some a ∧ bytes.length ≤ 69) ∧
    (∃ (s : State) (a : Nat) (bytes : List Byte), s.i3cOn = true ∧ s.i3c.addr = some a ∧ bytes.length ≤ 69) :=
  ⟨⟨{ up with boot := { gateOpen := true } }, by decide⟩,
   ⟨{ up with boot := { gateOpen := true, tilth := some tilth0 }, i3c := { addr := some 9 } }, 9, by decide⟩,
   ⟨{ up with boot := { gateOpen := true } }, by decide⟩,
   ⟨{ up with boot := { gateOpen := true, tilth := some tilth0 }, i3c := { addr := some 9 } }, 9, by decide⟩,
   ⟨{ up with boot := { gateOpen := true, tilth := some tilth0 }, i3c := { addr := some 9 } }, by decide⟩,
   ⟨{ up with boot := { gateOpen := true, tilth := some tilth0 }, i3c := { addr := some 9 } }, 9, by decide⟩,
   ⟨{ up with boot := { gateOpen := true } }, 9, by decide⟩,
   ⟨{ up with boot := { gateOpen := true, tilth := some tilth0 }, i3c := { addr := some 9 } }, 9, by decide⟩,
   ⟨{ up with boot := { gateOpen := true } }, 9, by decide⟩,
   ⟨{ up with boot := { gateOpen := true, tilth := some tilth0 }, i3c := { addr := some 9 } }, 9, by decide⟩,
   ⟨{ up with boot := { gateOpen := true } }, 9, by decide⟩,
   ⟨{ up with boot := { gateOpen := true, tilth := some tilth0 }, i3c := { addr := some 9 } }, 9, by decide⟩,
   ⟨{ up with boot := { gateOpen := true } }, 9, by decide⟩,
   ⟨{ up with boot := { gateOpen := true, tilth := some tilth0 }, i3c := { addr := some 9 } }, 9, by decide⟩,
   ⟨{ up with boot := { gateOpen := true } }, 9, by decide⟩,
   ⟨{ up with boot := { gateOpen := true, tilth := some tilth0 }, i3c := { addr := some 9 } }, 9, by decide⟩,
   ⟨{ up with boot := { gateOpen := true, tilth := some tilth0 }, i3c := { addr := some 9 } }, 1, by decide⟩,
   ⟨{ up with boot := { gateOpen := true, tilth := some tilth0 }, i3c := { addr := some 9 } }, 9, 1, by decide⟩,
   ⟨{ up with boot := { gateOpen := true } }, 9, by decide⟩,
   ⟨{ up with boot := { gateOpen := true, tilth := some tilth0 }, i3c := { addr := some 9 } }, 1, by decide⟩,
   ⟨{ up with boot := { gateOpen := true, tilth := some tilth0 }, i3c := { addr := some 9 } }, 9, 1, by decide⟩,
   ⟨{ up with boot := { gateOpen := true } }, 9, by decide⟩,
   ⟨{ up with boot := { gateOpen := true, tilth := some tilth0 }, i3c := { addr := some 9 } }, by decide⟩,
   ⟨{ up with boot := { gateOpen := true, tilth := some tilth0 }, i3c := { addr := some 9 } }, 9, [], by decide⟩,
   ⟨{ up with boot := { gateOpen := true, tilth := some tilth0 }, i3c := { addr := some 9 } }, 9, [], by decide⟩⟩

theorem witness_SpdmResponder :
    (∃ (s : State) (v : Via), s.viaLive v = true ∧ s.viaKnown v = true ∧ s.power.phase ∈ [Phase.fallow, .lockService, .factory, .scrapped]) ∧
    (∃ (s : State) (n : _) (x : Session), s.spdm.sessions.find? n = some x ∧ x.established = true) ∧
    (∃ (s : State) (v : Via) (n : _) (x : Session), s.viaLive v = true ∧ s.viaKnown v = true ∧ s.power.phase = .gateOpen ∧ s.sessionOf v = some (n, x)) ∧
    (∃ (s : State) (v : Via), s.viaLive v = true ∧ s.viaKnown v = true ∧ s.power.phase = .gateOpen ∧ s.sessionOf v = none) ∧
    (∃ (s : State) (v : Via) (eid : _), s.viaLive v = true ∧ (∀ p, v.transport ≠ .admin p) ∧ 8 ≤ eid ∧ eid ≤ 254) ∧
    (∃ (s : State) (v : Via) (vf : _) (p : _) (t : _), s.tdispPort v vf = some p ∧ s.funcTenant p (vf + 1) = some t ∧ ((s.func (fnKey p (vf + 1))).tdisp = .configLocked ∨ (s.func (fnKey p (vf + 1))).tdisp = .run)) ∧
    (∃ (s : State) (v : Via) (vf : _), s.tdispPort v vf = none) ∧
    (∃ (s : State) (v : Via), s.viaLive v = true ∧ s.viaKnown v = true ∧ s.power.phase = .gateOpen ∧ 0 ≤ (s.conn v).phase ∧ v.session = none) ∧
    (∃ (s : State) (v : Via) (version : Nat), s.viaLive v = true ∧ s.viaKnown v = true ∧ s.power.phase = .gateOpen ∧ 1 ≤ (s.conn v).phase ∧ v.session = none ∧ (s.conn v).phase = 1 ∧ (version = 0x12 ∨ version = 0x13)) ∧
    (∃ (s : State) (v : Via) (version : Nat), s.viaLive v = true ∧ s.viaKnown v = true ∧ s.power.phase = .gateOpen ∧ 1 ≤ (s.conn v).phase ∧ v.session = none ∧ (s.conn v).phase = 1 ∧ version ≠ 0x12 ∧ version ≠ 0x13) ∧
    (∃ (s : State) (v : Via) (asym : Nat) (hash : Nat) (meas : Nat) (h : Bool) (m : Bool), s.viaLive v = true ∧ s.viaKnown v = true ∧ s.power.phase = .gateOpen ∧ 2 ≤ (s.conn v).phase ∧ v.session = none ∧ (s.conn v).phase = 2 ∧ bit asym 7 = true ∧ chooseHash (bit hash 1) (bit hash 4) (Config.freeBool s.free) = some h ∧ chooseHash (bit meas 2) (bit meas 5) (Config.freeBool (s.free + 1)) = some m) ∧
    (∃ (s : State) (v : Via) (asym : Nat), s.viaLive v = true ∧ s.viaKnown v = true ∧ s.power.phase = .gateOpen ∧ 2 ≤ (s.conn v).phase ∧ v.session = none ∧ (s.conn v).phase = 2 ∧ bit asym 7 = false) ∧
    (∃ (s : State) (v : Via), s.viaLive v = true ∧ s.viaKnown v = true ∧ s.power.phase = .gateOpen ∧ 3 ≤ (s.conn v).phase) ∧
    (∃ (s : State) (v : Via) (slot : Nat), s.viaLive v = true ∧ s.viaKnown v = true ∧ s.power.phase = .gateOpen ∧ 3 ≤ (s.conn v).phase ∧ slot ≠ 0) ∧
    (∃ (s : State) (v : Via), s.viaLive v = true ∧ s.viaKnown v = true ∧ s.power.phase = .gateOpen ∧ 3 ≤ (s.conn v).phase ∧ (s.markStarted v).vault.aliasKey = true) ∧
    (∃ (s : State) (v : Via) (index : Nat), s.viaLive v = true ∧ s.viaKnown v = true ∧ s.power.phase = .gateOpen ∧ 3 ≤ (s.conn v).phase ∧ 0 < index ∧ index ≤ 10) ∧
    (∃ (s : State) (v : Via) (index : Nat), s.viaLive v = true ∧ s.viaKnown v = true ∧ s.power.phase = .gateOpen ∧ 3 ≤ (s.conn v).phase ∧ 10 < index ∧ index ≠ 0xFF) ∧
    (∃ (s : State) (v : Via), s.viaLive v = true ∧ s.viaKnown v = true ∧ s.power.phase = .gateOpen ∧ 3 ≤ (s.conn v).phase ∧ v.session = none ∧ (s.markStarted v).sessionsBeside v < sessionLimit v ∧ (s.markStarted v).vault.aliasKey = true) ∧
    (∃ (s : State) (v : Via), s.viaLive v = true ∧ s.viaKnown v = true ∧ s.power.phase = .gateOpen ∧ 3 ≤ (s.conn v).phase ∧ v.session = none ∧ sessionLimit v ≤ (s.markStarted v).sessionsBeside v) ∧
    (∃ (s : State) (v : Via) (n : Nat) (y : Session), s.viaLive v = true ∧ s.viaKnown v = true ∧ s.power.phase = .gateOpen ∧ 3 ≤ (s.conn v).phase ∧ (s.markStarted v).sessionOf v = some (n, y)) ∧
    (∃ (s : State) (v : Via), s.viaLive v = true ∧ s.viaKnown v = true ∧ s.power.phase = .gateOpen ∧ 3 ≤ (s.conn v).phase ∧ (s.markStarted v).sessionOf v = none) ∧
    (∃ (s : State) (v : Via), s.viaLive v = true ∧ s.viaKnown v = true ∧ s.power.phase = .gateOpen ∧ 3 ≤ (s.conn v).phase ∧ (s.markStarted v).managerVia v = false) ∧
    (∃ (s : State) (v : Via) (handle : Nat) (seq : Nat), s.viaLive v = true ∧ s.viaKnown v = true ∧ s.power.phase = .gateOpen ∧ 3 ≤ (s.conn v).phase ∧ seq ≠ 0 ∧ (s.conn v).sendNext = seq ∧ (s.conn v).sendHandle = handle) ∧
    (∃ (s : State) (v : Via) (handle : Nat) (seq : Nat), s.viaLive v = true ∧ s.viaKnown v = true ∧ s.power.phase = .gateOpen ∧ 3 ≤ (s.conn v).phase ∧ seq ≠ 0 ∧ ((s.conn v).sendNext ≠ seq ∨ (s.conn v).sendHandle ≠ handle)) ∧
    (∃ (s : State) (v : Via) (handle : Nat) (seq : Nat), s.viaLive v = true ∧ s.viaKnown v = true ∧ s.power.phase = .gateOpen ∧ 3 ≤ (s.conn v).phase ∧ (s.conn v).large ≠ [] ∧ (s.conn v).getNext = seq ∧ (s.conn v).getHandle = handle + 1) ∧
    (∃ (s : State) (v : Via), s.viaLive v = true ∧ s.viaKnown v = true ∧ s.power.phase = .gateOpen ∧ (s.conn v).phase < 3) ∧
    (∃ s : State, s.spdm.sessions.rising = true) ∧
    (∃ (x : Session), x.chain = none ∨ x.started = true) :=
  ⟨⟨{ State.reset with power := { phase := .lockService } }, ⟨.i3c, none⟩, by decide⟩,
   ⟨{ up with vault := { aliasKey := true }, spdm := { conns := [(0, { phase := 3, sendNext := 2, sendHandle := 4, large := [1], getNext := 1, getHandle := 6 })], sessions := [(5, { transport := .vdm 0, established := true })] } }, 5, { transport := .vdm 0, established := true }, by decide⟩,
   ⟨{ up with vault := { aliasKey := true }, spdm := { conns := [(0, { phase := 3, sendNext := 2, sendHandle := 4, large := [1], getNext := 1, getHandle := 6 })], sessions := [(5, { transport := .vdm 0, established := true })] } }, ⟨.vdm 0, some 5⟩, 5, { transport := .vdm 0, established := true }, by decide⟩,
   ⟨{ up with vault := { aliasKey := true }, spdm := { conns := [(0, { phase := 3, sendNext := 2, sendHandle := 4, large := [1], getNext := 1, getHandle := 6 })] } }, ⟨.vdm 0, none⟩, by decide⟩,
   ⟨{ up with vault := { aliasKey := true }, spdm := { conns := [(0, { phase := 3, sendNext := 2, sendHandle := 4, large := [1], getNext := 1, getHandle := 6 })] } }, ⟨.vdm 0, none⟩, 8, ⟨by decide, fun p h => (by cases h), by decide⟩⟩,
   ⟨{ up with vault := { aliasKey := true }, spdm := { conns := [(0, { phase := 3, sendNext := 2, sendHandle := 4, large := [1], getNext := 1, getHandle := 6 })], sessions := [(5, { transport := .vdm 0, established := true })] } , funcs := [(1, { tdisp := .run })] }, ⟨.vdm 0, some 5⟩, 0, 0, 1, by decide⟩,
   ⟨{ up with vault := { aliasKey := true }, spdm := { conns := [(0, { phase := 3, sendNext := 2, sendHandle := 4, large := [1], getNext := 1, getHandle := 6 })] } }, ⟨.vdm 0, none⟩, 0, by decide⟩,
   ⟨{ up with vault := { aliasKey := true }, spdm := { conns := [(0, { phase := 0 })] } }, ⟨.vdm 0, none⟩, by (repeat' apply And.intro) <;> first | decide | rfl | (constructor <;> rfl)⟩,
   ⟨{ up with vault := { aliasKey := true }, spdm := { conns := [(0, { phase := 1 })] } }, ⟨.vdm 0, none⟩, 0x13, by (repeat' apply And.intro) <;> first | decide | rfl | (constructor <;> rfl)⟩,
   ⟨{ up with vault := { aliasKey := true }, spdm := { conns := [(0, { phase := 1 })] } }, ⟨.vdm 0, none⟩, 0x11, by (repeat' apply And.intro) <;> first | decide | rfl | (constructor <;> rfl)⟩,
   ⟨{ up with vault := { aliasKey := true }, spdm := { conns := [(0, { phase := 2 })] } }, ⟨.vdm 0, none⟩, 128, 2, 32, false, true, by (repeat' apply And.intro) <;> first | decide | rfl | (constructor <;> rfl)⟩,
   ⟨{ up with vault := { aliasKey := true }, spdm := { conns := [(0, { phase := 2 })] } }, ⟨.vdm 0, none⟩, 127, by (repeat' apply And.intro) <;> first | decide | rfl | (constructor <;> rfl)⟩,
   ⟨{ up with vault := { aliasKey := true }, spdm := { conns := [(0, { phase := 3, sendNext := 2, sendHandle := 4, large := [1], getNext := 1, getHandle := 6 })] } }, ⟨.vdm 0, none⟩, by (repeat' apply And.intro) <;> first | decide | rfl | (constructor <;> rfl)⟩,
   ⟨{ up with vault := { aliasKey := true }, spdm := { conns := [(0, { phase := 3, sendNext := 2, sendHandle := 4, large := [1], getNext := 1, getHandle := 6 })] } }, ⟨.vdm 0, none⟩, 1, by (repeat' apply And.intro) <;> first | decide | rfl | (constructor <;> rfl)⟩,
   ⟨{ up with vault := { aliasKey := true }, spdm := { conns := [(0, { phase := 3, sendNext := 2, sendHandle := 4, large := [1], getNext := 1, getHandle := 6 })] } }, ⟨.vdm 0, none⟩, by (repeat' apply And.intro) <;> first | decide | rfl | (constructor <;> rfl)⟩,
   ⟨{ up with vault := { aliasKey := true }, spdm := { conns := [(0, { phase := 3, sendNext := 2, sendHandle := 4, large := [1], getNext := 1, getHandle := 6 })] } }, ⟨.vdm 0, none⟩, 10, by (repeat' apply And.intro) <;> first | decide | rfl | (constructor <;> rfl)⟩,
   ⟨{ up with vault := { aliasKey := true }, spdm := { conns := [(0, { phase := 3, sendNext := 2, sendHandle := 4, large := [1], getNext := 1, getHandle := 6 })] } }, ⟨.vdm 0, none⟩, 11, by (repeat' apply And.intro) <;> first | decide | rfl | (constructor <;> rfl)⟩,
   ⟨{ up with vault := { aliasKey := true }, spdm := { conns := [(0, { phase := 3, sendNext := 2, sendHandle := 4, large := [1], getNext := 1, getHandle := 6 })] } }, ⟨.vdm 0, none⟩, by (repeat' apply And.intro) <;> first | decide | rfl | (constructor <;> rfl)⟩,
   ⟨{ up with vault := { aliasKey := true }, spdm := { conns := [(0, { phase := 3, sendNext := 2, sendHandle := 4, large := [1], getNext := 1, getHandle := 6 })], sessions := [(0, { transport := .vdm 0 }), (1, { transport := .vdm 0 }), (2, { transport := .vdm 0 }), (3, { transport := .vdm 0 }), (4, { transport := .vdm 0 }), (5, { transport := .vdm 0 }), (6, { transport := .vdm 0 }), (7, { transport := .vdm 0 })] } }, ⟨.vdm 0, none⟩, by (repeat' apply And.intro) <;> first | decide | rfl | (constructor <;> rfl)⟩,
   ⟨{ up with vault := { aliasKey := true }, spdm := { conns := [(0, { phase := 3, sendNext := 2, sendHandle := 4, large := [1], getNext := 1, getHandle := 6 })], sessions := [(5, { transport := .vdm 0, established := true })] } }, ⟨.vdm 0, some 5⟩, 5, { transport := .vdm 0, established := true, started := true }, by (repeat' apply And.intro) <;> first | decide | rfl | (constructor <;> rfl)⟩,
   ⟨{ up with vault := { aliasKey := true }, spdm := { conns := [(0, { phase := 3, sendNext := 2, sendHandle := 4, large := [1], getNext := 1, getHandle := 6 })] } }, ⟨.vdm 0, none⟩, by (repeat' apply And.intro) <;> first | decide | rfl | (constructor <;> rfl)⟩,
   ⟨{ up with vault := { aliasKey := true }, spdm := { conns := [(0, { phase := 3, sendNext := 2, sendHandle := 4, large := [1], getNext := 1, getHandle := 6 })] } }, ⟨.vdm 0, none⟩, by (repeat' apply And.intro) <;> first | decide | rfl | (constructor <;> rfl)⟩,
   ⟨{ up with vault := { aliasKey := true }, spdm := { conns := [(0, { phase := 3, sendNext := 2, sendHandle := 4, large := [1], getNext := 1, getHandle := 6 })] } }, ⟨.vdm 0, none⟩, 4, 2, by (repeat' apply And.intro) <;> first | decide | rfl | (constructor <;> rfl)⟩,
   ⟨{ up with vault := { aliasKey := true }, spdm := { conns := [(0, { phase := 3, sendNext := 2, sendHandle := 4, large := [1], getNext := 1, getHandle := 6 })] } }, ⟨.vdm 0, none⟩, 5, 2, by (repeat' apply And.intro) <;> first | decide | rfl | (constructor <;> rfl)⟩,
   ⟨{ up with vault := { aliasKey := true }, spdm := { conns := [(0, { phase := 3, sendNext := 2, sendHandle := 4, large := [1], getNext := 1, getHandle := 6 })] } }, ⟨.vdm 0, none⟩, 5, 1, by (repeat' apply And.intro) <;> first | decide | rfl | (constructor <;> rfl)⟩,
   ⟨{ up with vault := { aliasKey := true }, spdm := { conns := [(0, { phase := 2 })] } }, ⟨.vdm 0, none⟩, by decide⟩,
   ⟨up, by decide⟩,
   ⟨{ transport := .i3c }, .inl rfl⟩⟩

theorem witness_UncelChain :
    (∃ (s : State) (b : Bool) (bytes : List Byte), s.hears b = true ∧ parseFrame bytes = none) ∧
    (∃ (s : State) (bytes : List Byte) (f : Frame), parseFrame bytes = some f) ∧
    (∃ (s : State) (b : Bool) (bytes : List Byte) (f : Frame), s.hears b = true ∧ parseFrame bytes = some f ∧ f.type = 0x10 ∧ 0 < f.payload.length ∧ f.payload.length ≤ 256) ∧
    (∃ (s : State) (b : Bool) (bytes : List Byte) (f : Frame), s.hears b = true ∧ parseFrame bytes = some f ∧ otherFrame f = true) ∧
    (∃ (s : State) (b : Bool) (bytes : List Byte) (f : Frame), Arrives s b bytes f ∧ f.type = 2 ∧ f.payload = []) ∧
    (∃ (s : State) (b : Bool) (bytes : List Byte) (f : Frame), Arrives s b bytes f ∧ f.type = 0x30 ∧ f.payload.length = 6 ∧ s.power.phase = .gateOpen ∧ s.domainSlots = true ∧ s.vault.aliasKey = true ∧ s.heldGen < field f.payload 0 4) ∧
    (∃ (s : State) (bytes : List Byte) (f : Frame), s.hears false = true ∧ parseFrame bytes = some f ∧ f.type = 1 ∧ f.payload.length = 8) ∧
    (∃ (s : State) (bytes : List Byte) (f : Frame), s.hears true = true ∧ parseFrame bytes = some f ∧ f.type = 1 ∧ f.payload.length = 8 ∧ (readToken f).seg = s.uncel.childSeg) ∧
    (∃ (s : State), s.uncel.linkA = true) ∧
    (∃ (s : State), s.uncel.linkB = true) ∧
    (∃ (s : State), s.hears false = true) ∧
    (∃ (s : State), s.hears true = true ∧ (s.uncel.addr = none ∨ s.uncel.childSeg = 0)) ∧
    (∃ (s : State), s.hears true = true ∧ s.bridge = true ∧ s.uncel.addr.isSome = true ∧ s.uncel.childSeg ≠ 0) ∧
    (∃ (s : State) (a : _), s.tilth.uncel.timeAlign = true ∧ s.uncel.addr = some a ∧ s.power.phase = .gateOpen ∧ s.tilth.uncel.timeLeader = some a) ∧
    (∃ (s : State) (a : _), s.tilth.uncel.timeAlign = true ∧ s.uncel.addr = some a ∧ s.power.phase = .gateOpen ∧ s.tilth.uncel.timeLeader ≠ some a) ∧
    (∃ (s : State) (ek : List Byte) (chain : List Byte) (owner : List Byte) (signature : List Byte) (secret : List Byte), s.domainSecret s.uncel.gen = some secret ∧ s.power.phase = .gateOpen ∧ s.vault.aliasKey = true ∧ s.joinParty chain owner (ek ++ chain ++ owner) signature = false) ∧
    (∃ (s : State) (x : Ceremony), s.tick.uncel.ceremony = some x ∧ dayTicks ≤ (s.tick.rtc + 2 ^ 48 - x.opened) % 2 ^ 48) ∧
    (∃ (s : State), s.tick.uncel.ceremony = none) ∧
    (∃ (s : State) (b : Bool), s.hears b = false) ∧
    (∃ (s : State) (b : Bool), s.hears b = true ∧ b = false ∧ s.uncel.silent = true) ∧
    (∃ (s : State) (b : Bool) (f : Frame), s.injects b f = false ∧ s.removes b f = false ∧ (b = true ∨ s.uncel.silent = false)) ∧
    (∃ (s : State) (b : Bool) (f : Frame), s.injects b f = false ∧ s.removes b f = true) ∧
    (∃ (s : State) (b : Bool) (f : Frame), s.injects b f = true ∧ s.removes b f = true) ∧
    (∃ (s : State) (b : Bool) (f : Frame), 64 ≤ f.hops) ∧
    (∃ (s : State) (b : Bool) (bytes : List Byte) (f : Frame), Arrives s b bytes f ∧ f.type = 32 ∧ f.payload.length = 32 ∧ s.power.phase = .gateOpen ∧
      (s.forward b f).tick.frameOk f = false) ∧
    (∃ (s : State) (b : Bool) (bytes : List Byte) (f : Frame), Arrives s b bytes f ∧ f.type = 33 ∧ f.payload.length = 34 ∧ s.power.phase = .gateOpen ∧
      (s.forward b f).tick.frameOk f = false) ∧
    (∃ (s : State) (b : Bool) (bytes : List Byte) (f : Frame), Arrives s b bytes f ∧ f.type = 64 ∧ f.payload.length = 32 ∧ s.power.phase = .gateOpen ∧
      (s.forward b f).tick.frameOk f = false) ∧
    (∃ (s : State) (b : Bool) (bytes : List Byte) (f : Frame), Arrives s b bytes f ∧ f.type = 80 ∧ f.payload.length = 36 ∧ s.power.phase = .gateOpen ∧
      (s.forward b f).tick.frameOk f = false) ∧
    (∃ (s : State) (t : Token), s.bridge = false ∧ t.nextPos < 64 ∧ 64 * t.seg + t.nextPos < 2047) ∧
    (∃ t : Token, 64 ≤ t.nextPos ∨ 2047 ≤ 64 * t.seg + t.nextPos) ∧
    (∃ time : Nat, time < 2 ^ 64) :=
  ⟨⟨{ heard with uncel := { addr := some 3 } }, false, [], by decide +kernel⟩,
   ⟨up, (frame0 3 0 0).bytes, frame0 3 0 0, by decide +kernel⟩,
   ⟨{ heard with uncel := { addr := some 3 } }, false, (frame0 9 16 1).bytes, frame0 9 16 1, by decide +kernel⟩,
   ⟨{ heard with uncel := { addr := some 3 } }, false, (frame0 3 17 2).bytes, frame0 3 17 2, by decide +kernel⟩,
   ⟨{ heard with uncel := { addr := some 3 } }, false, (frame0 3 2 0).bytes, frame0 3 2 0, ⟨⟨by decide, by decide +kernel, by decide, .inl (by decide)⟩, by decide +kernel⟩⟩,
   ⟨{ heard with uncel := { addr := some 3 }, vault := { aliasKey := true, slots := [(4, { system := true, state := .loaded }), (5, { system := true })] }, boot := { gateOpen := true, tilth := some { uncel := { slotCur := 4, slotPrev := 5, timeAlign := true, timeLeader := some 3 } } } }, false, (Frame.bytes ⟨3, 0, 0x30, 0, 0, [1, 0, 0, 0, 1, 0]⟩), ⟨3, 0, 0x30, 0, 0, [1, 0, 0, 0, 1, 0]⟩, ⟨⟨by decide, by decide +kernel, by decide, .inl (by decide)⟩, by decide +kernel⟩⟩,
   ⟨{ heard with uncel := { addr := some 3 } }, (frame0 3 1 8).bytes, frame0 3 1 8, by decide +kernel⟩,
   ⟨{ heardB with uncel := { addr := some 3, childSeg := 0 } }, (frame0 3 1 8).bytes, frame0 3 1 8, by decide +kernel⟩,
   ⟨{ heard with uncel := { linkA := true } }, by decide⟩,
   ⟨{ heard with uncel := { linkB := true } }, by decide⟩,
   ⟨{ heard with uncel := { addr := some 3 } }, by decide⟩,
   ⟨{ heardB with uncel := { childSeg := 2 } }, by decide⟩,
   ⟨{ heardB with uncel := { addr := some 3, childSeg := 2 } }, by decide⟩,
   ⟨{ heard with uncel := { addr := some 3 }, vault := { aliasKey := true, slots := [(4, { system := true, state := .loaded }), (5, { system := true })] }, boot := { gateOpen := true, tilth := some { uncel := { slotCur := 4, slotPrev := 5, timeAlign := true, timeLeader := some 3 } } } }, 3, by decide⟩,
   ⟨{ heard with uncel := { addr := some 4 }, vault := { aliasKey := true, slots := [(4, { system := true, state := .loaded }), (5, { system := true })] }, boot := { gateOpen := true, tilth := some { uncel := { slotCur := 4, slotPrev := 5, timeAlign := true, timeLeader := some 3 } } } }, 4, by decide⟩,
   ⟨{ heard with uncel := { addr := some 3, gen := 1 }, vault := { aliasKey := true, slots := [(4, { system := true, state := .loaded }), (5, { system := true })] }, boot := { gateOpen := true, tilth := some { uncel := { slotCur := 4, slotPrev := 5, timeAlign := true, timeLeader := some 3 } } } }, [], [], [], [], [], ⟨rfl, by decide, by decide, stranger _ _ _ _ (by decide +kernel)⟩⟩,
   ⟨agedCeremony, aged0, ⟨rfl, agedCeremony_due⟩⟩,
   ⟨up, by decide⟩,
   ⟨State.reset, false, by decide⟩,
   ⟨{ heard with uncel := { silent := true } }, false, by decide⟩,
   ⟨{ heard with uncel := { addr := some 3 } }, false, frame0 9 16 1, by decide⟩,
   ⟨{ heard with uncel := { addr := some 3 } }, false, frame0 3 16 1, by decide⟩,
   ⟨{ heardB with uncel := { addr := some 3, childOk := true, childSeg := 2, childEnd := 3 } }, false, ⟨2 ^ 15, 9, 1, 64, 0, []⟩, by decide⟩,
   ⟨{ heard with uncel := { addr := some 3 } }, false, ⟨0, 0, 0, 64, 0, []⟩, by decide⟩,
   ⟨{ heard with uncel := { addr := some 3 } }, false, (frame0 3 32 32).bytes, frame0 3 32 32, ⟨by decide, by decide +kernel, by decide, .inl (by decide)⟩, by decide, by decide +kernel, by decide, by decide +kernel⟩,
   ⟨{ heard with uncel := { addr := some 3 } }, false, (frame0 3 33 34).bytes, frame0 3 33 34, ⟨by decide, by decide +kernel, by decide, .inl (by decide)⟩, by decide, by decide +kernel, by decide, by decide +kernel⟩,
   ⟨{ heard with uncel := { addr := some 3 } }, false, (frame0 3 64 32).bytes, frame0 3 64 32, ⟨by decide, by decide +kernel, by decide, .inl (by decide)⟩, by decide, by decide +kernel, by decide, by decide +kernel⟩,
   ⟨{ heard with uncel := { addr := some 3 } }, false, (frame0 3 80 36).bytes, frame0 3 80 36, ⟨by decide, by decide +kernel, by decide, .inl (by decide)⟩, by decide, by decide +kernel, by decide, by decide +kernel⟩,
   ⟨up, { seg := 31, nextPos := 62 }, by decide⟩,
   ⟨{ seg := 31, nextPos := 63 }, by decide⟩,
   ⟨2 ^ 64 - 1, by decide⟩⟩


/-- A manager session over PF 0. -/
def manager0 : Session := { transport := .vdm 0, established := true, manager := true }
def viaManager : Via := ⟨.vdm 0, some 5⟩
def managed : State := { up with spdm := { sessions := [(5, manager0)] } }

/-- The premises of `Requested`. -/
def Asked (s : State) (v : Via) (r : MgrReq) (legal : State → Prop) : Prop :=
  ∃ n x, s.viaLive v = true ∧ s.power.phase = .gateOpen ∧ v.session = some n ∧ s.spdm.sessions.find? n = some x ∧ x.transport = v.transport ∧
    x.established = true ∧ x.manager = true ∧ (s.glb.logFull = false ∨ reqOfLog r = true) ∧ s.ceremonial r = false ∧ legal (s.markStarted v)

theorem witness_ManagerRequests0 :
    (∃ (s : State) (v : Via) (n : Nat) (f : TptFields), Asked s v (.tenantSet n f) (fun t => (t.tenant n).state = .free ∧ t.takesBusy n f = false ∧ t.tptOk n f = true)) ∧
    (∃ (s : State) (v : Via) (n : Nat) (f : TptFields), Asked s v (.tenantSet n f) (fun t => ((t.tenant n).state = .removing ∨ t.takesBusy n f = true))) ∧
    (∃ (s : State) (v : Via) (n : Nat) (f : TptFields), Asked s v (.tenantSet n f) (fun t => (t.tenant n).state ≠ .removing ∧ t.takesBusy n f = false ∧ t.tptOk n f = false)) ∧
    (∃ (s : State) (v : Via) (n : Nat), Asked s v (.quiesce n) (fun t => (t.tenant n).state = .active)) ∧
    (∃ (s : State) (v : Via) (n : Nat), Asked s v (.quiesce n) (fun t => (t.tenant n).state = .quiesced)) ∧
    (∃ (s : State) (v : Via) (n : Nat), Asked s v (.resume n) (fun t => (t.tenant n).state = .quiesced)) ∧
    (∃ (s : State) (v : Via) (n : Nat), Asked s v (.resume n) (fun t => (t.tenant n).state ≠ .quiesced)) ∧
    (∃ (s : State) (v : Via) (n : Nat) (value : W32), Asked s v (.removeArm n value) (fun t => (t.tenant n).state = .quiesced ∧ t.tgen n ≠ 0xFFFFFFFF)) ∧
    (∃ (s : State) (v : Via) (n : Nat) (blob : List Byte), Asked s v (.migrateImport n blob) (fun t => (t.tenant n).state = .quiesced ∧ t.readMigration blob = none)) ∧
    (∃ (s : State) (v : Via) (k : Nat) (o : Nat), Asked s v (.slotAssign k o true) (fun t => k < 4096 ∧ o < 1024 ∧ (t.slot k).state.unused = true)) ∧
    (∃ (s : State) (v : Via) (k : Nat) (o : Nat), Asked s v (.slotAssign k o false) (fun t => k < 4096 ∧ o < 1024 ∧ (t.slot k).state.unused = true ∧ (t.owns o k = true ∨ t.slotCount o < (t.tenant o).tpt.slotQuota))) ∧
    (∃ (s : State) (v : Via) (k : Nat) (b : Nat), Asked s v (.budgetLower k b) (fun t => (t.slot k).state.unused = false ∧ b ≤ (t.slot k).budget ∧ (t.vault.shelf.find? k).isSome = false)) :=
  ⟨⟨{ managed with tenants := [] }, viaManager, 1, tenant0.tpt, 5, manager0, by decide, rfl, rfl, rfl, rfl, rfl, rfl, by decide, by decide, by decide +kernel⟩,
   ⟨managed, viaManager, 2, tenant0.tpt, 5, manager0, by decide, rfl, rfl, rfl, rfl, rfl, rfl, by decide, by decide, by decide +kernel⟩,
   ⟨{ managed with tenants := [(1, { tenant0 with state := .quiesced })] }, viaManager, 1, { tenant0.tpt with port := 4 }, 5, manager0, by decide, rfl, rfl, rfl, rfl, rfl, rfl, by decide, by decide, by decide +kernel⟩,
   ⟨managed, viaManager, 1, 5, manager0, by decide, rfl, rfl, rfl, rfl, rfl, rfl, by decide, by decide, by decide⟩,
   ⟨{ managed with tenants := [(1, { tenant0 with state := .quiesced })] }, viaManager, 1, 5, manager0, by decide, rfl, rfl, rfl, rfl, rfl, rfl, by decide, by decide, by decide⟩,
   ⟨{ managed with tenants := [(1, { tenant0 with state := .quiesced })] }, viaManager, 1, 5, manager0, by decide, rfl, rfl, rfl, rfl, rfl, rfl, by decide, by decide, by decide⟩,
   ⟨managed, viaManager, 1, 5, manager0, by decide, rfl, rfl, rfl, rfl, rfl, rfl, by decide, by decide, by decide⟩,
   ⟨{ managed with tenants := [(1, { tenant0 with state := .quiesced })] }, viaManager, 1, 0, 5, manager0, by decide, rfl, rfl, rfl, rfl, rfl, rfl, by decide, by decide, by decide⟩,
   ⟨{ managed with tenants := [(1, { tenant0 with state := .quiesced })] }, viaManager, 1, [], 5, manager0, by decide, rfl, rfl, rfl, rfl, rfl, rfl, by decide, by decide, by decide⟩,
   ⟨managed, viaManager, 4095, 1023, 5, manager0, by decide, rfl, rfl, rfl, rfl, rfl, rfl, by decide, by decide, by decide⟩,
   ⟨managed, viaManager, 4095, 1, 5, manager0, by decide, rfl, rfl, rfl, rfl, rfl, rfl, by decide, by decide, by decide⟩,
   ⟨{ managed with vault := { slots := [(2, { state := .loaded, budget := 7 })] } }, viaManager, 2, 7, 5, manager0, by decide, rfl, rfl, rfl, rfl, rfl, rfl, by decide, by decide, by decide⟩⟩

theorem witness_ManagerRequests1 :
    (∃ (s : State) (v : Via) (k : Nat) (b : Nat), Asked s v (.budgetLower k b) (fun t => (t.slot k).state.unused = false ∧ b ≤ (t.slot k).budget ∧ (t.vault.shelf.find? k).isSome = true ∧ b ≠ unlimited)) ∧
    (∃ (s : State) (v : Via) (k : Nat) (value : W32), Asked s v (.destroyArm k value) (fun t => (t.slot k).state ≠ .unassigned)) ∧
    (∃ (s : State) (v : Via) (g : Nat) (len : Nat), Asked s v (.imageBegin g len) (fun t => g ≤ 3 ∧ (g < 3 → g ≠ t.boot.running) ∧ len ≤ regionRoom (t.targetRegion g) ∧ t.boot.install = none ∧ (g < 3 → t.slotSigned (t.targetRegion g) = true → ([0, 1, 2].any fun k => decide (k ≠ t.targetRegion g) && t.slotSigned k) = true))) ∧
    (∃ (s : State) (v : Via) (x : Install) (off : Nat) (bytes : List Byte), Asked s v (.imageData off bytes) (fun t => t.boot.install = some x ∧ bytes.length ≠ 0 ∧ bytes.length ≤ 1024 ∧ off + bytes.length ≤ x.len)) ∧
    (∃ (s : State) (v : Via) (x : Install), Asked s v (.imageCommit) (fun t => t.boot.install = some x ∧ t.commitVerdict (t.targetRegion x.target) x.len ≠ Status.ok)) ∧
    (∃ (s : State) (v : Via) (p : Nat) (r : Bool), Asked s v (.imageActivate p r) (fun t => p ≤ 1 ∧ (t.region p).page.state = .sealedPage ∧ (r = true → (t.region 2).page.state = .sealedPage ∧ t.slotSvn p ≤ t.slotSvn 2))) ∧
    (∃ (s : State) (v : Via) (k : Nat) (value : W32), Asked s v (.revokeArm k value) (fun t => k ≤ 7 ∧ t.keyLive k = true)) ∧
    (∃ (s : State) (v : Via) (c : Nat) (code : Nat) (entry : W32), Asked s v (.sieveSet (.opcode c code entry)) (fun t => c ≤ 1 ∧ code ≤ 255 ∧ opEntryOk entry = true)) ∧
    (∃ (s : State) (v : Via) (off : Nat) (value : W32), Asked s v (.pgdArm off value) (fun t => off ∈ [gdHoldRel, gdSieveEn, gdUpdWin])) ∧
    (∃ (s : State) (v : Via), Asked s v (.platformCycle) (fun t => (t.chan 0).state ≠ .recovering ∧ (t.chan 1).state ≠ .recovering)) ∧
    (∃ (s : State) (v : Via), Asked s v (.platformCycle) (fun t => ((t.chan 0).state = .recovering ∨ (t.chan 1).state = .recovering))) ∧
    (∃ (s : State) (v : Via) (c : Nat) (g : Nat) (len : Nat), Asked s v (.hostImageBegin c g len) (fun t => c ≤ 1 ∧ g ≤ 2 ∧ (t.chan c).serving ≠ some g ∧ (t.plan c).blocks ≠ 0 ∧ len ≤ (t.plan c).room g ∧ t.pgd.delivery = none)) :=
  ⟨⟨{ managed with vault := { slots := [(2, { state := .loaded, budget := 7 })], shelf := [(2, {})] } }, viaManager, 2, 7, 5, manager0, by decide, rfl, rfl, rfl, rfl, rfl, rfl, by decide, by decide, by decide⟩,
   ⟨{ managed with vault := { slots := [(2, { state := .empty })] } }, viaManager, 2, 0, 5, manager0, by decide, rfl, rfl, rfl, rfl, rfl, rfl, by decide, by decide, by decide⟩,
   ⟨managed, viaManager, 1, 5238784, 5, manager0, by decide, rfl, rfl, rfl, rfl, rfl, rfl, by decide, by decide, by decide⟩,
   ⟨{ managed with boot := { gateOpen := true, install := some ⟨1, 1024⟩ } }, viaManager, ⟨1, 1024⟩, 0, List.replicate 1024 0, 5, manager0, by decide, rfl, rfl, rfl, rfl, rfl, rfl, by decide, by decide, ⟨rfl, by rw [List.length_replicate]; decide⟩⟩,
   ⟨{ managed with boot := { gateOpen := true, install := some ⟨1, 0⟩ } }, viaManager, ⟨1, 0⟩, 5, manager0, by decide, rfl, rfl, rfl, rfl, rfl, rfl, by decide, by decide, by decide⟩,
   ⟨{ managed with boot := { gateOpen := true, regions := [(1, { page := { state := .sealedPage } }), (2, { page := { state := .sealedPage } })] } }, viaManager, 1, true, 5, manager0, by decide, rfl, rfl, rfl, rfl, rfl, rfl, by decide, by decide, by decide⟩,
   ⟨{ managed with boot := { gateOpen := true, keys := [(7, [])] } }, viaManager, 7, 0, 5, manager0, by decide, rfl, rfl, rfl, rfl, rfl, rfl, by decide, by decide, by decide⟩,
   ⟨managed, viaManager, 1, 255, 0, 5, manager0, by decide, rfl, rfl, rfl, rfl, rfl, rfl, by decide, by decide, by decide⟩,
   ⟨managed, viaManager, gdUpdWin, 0, 5, manager0, by decide, rfl, rfl, rfl, rfl, rfl, rfl, by decide, by decide, by decide⟩,
   ⟨managed, viaManager, 5, manager0, by decide, rfl, rfl, rfl, rfl, rfl, rfl, by decide, by decide, by decide⟩,
   ⟨{ managed with pgd := { chans := [(1, { state := .recovering })] } }, viaManager, 5, manager0, by decide, rfl, rfl, rfl, rfl, rfl, rfl, by decide, by decide, by decide⟩,
   ⟨{ managed with boot := { gateOpen := true, tilth := some { flash := [(1, { blocks := 1, size := 65536, bases := [0, 8192, 16384] })] } } }, viaManager, 1, 2, 4096, 5, manager0, by decide, rfl, rfl, rfl, rfl, rfl, rfl, by decide, by decide, by decide⟩⟩

theorem witness_ManagerRequests2 :
    (∃ (s : State) (v : Via) (d : Delivery) (off : Nat) (bytes : List Byte), Asked s v (.hostImageData off bytes) (fun t => t.pgd.delivery = some d ∧ bytes.length ≠ 0 ∧ bytes.length ≤ 1024 ∧ off + bytes.length ≤ d.len)) ∧
    (∃ (s : State) (v : Via) (b : List Byte), Asked s v (.lcStage b) (fun t => t.lcVerdict b ≠ Status.ok)) ∧
    (∃ (s : State) (v : Via) (k : Nat) (value : W32), Asked s v (.tamperArm (gdTamper k) value) (fun t => k < 16)) ∧
    (∃ (s : State) (v : Via) (n : Nat) (e : LogEntry), Asked s v (.checkpoint n) (fun t => t.hzn.entries.find? n = some e ∧ t.hzn.belowFloor n = false ∧ t.vault.aliasKey = true)) ∧
    (∃ (s : State) (v : Via) (n : Nat) (digest : List Byte), Asked s v (.checkpointAck n digest) (fun t => t.hzn.issued.contains (n, digest) = true ∧ t.hzn.belowFloor n = false)) ∧
    (∃ (s : State) (v : Via) (n : Nat) (digest : List Byte), Asked s v (.checkpointAck n digest) (fun t => t.hzn.issued.contains (n, digest) = false)) ∧
    (∃ (s : State) (v : Via) (o : W64), Asked s v (.timeSet o) (fun t => True)) ∧
    (∃ (s : State) (v : Via) (n : Nat) (m : Nat), Asked s v (.logRead n m) (fun t => 1 ≤ m ∧ m ≤ 64 ∧ (∀ i, i < m → t.hzn.inRing (n + i) = true))) ∧
    (∃ (s : State) (v : Via) (n : Nat) (m : Nat), Asked s v (.keyUsage n m) (fun t => 1 ≤ m ∧ m ≤ 256 ∧ n + m ≤ 4096 ∧ t.vault.aliasKey = true)) ∧
    (∃ (s : State) (v : Via) (a : Nat), Asked s v (.uncMkeyNew) (fun t => t.domainSlots = true ∧ t.uncel.addr = some a)) ∧
    (∃ (s : State) (v : Via) (l : Nat), Asked s v (.uncMkeyJoin l true) (fun t => t.domainSlots = true ∧ t.uncel.addr.isSome = true)) ∧
    (∃ (s : State) (v : Via) (l : Nat) (r : Bool), Asked s v (.uncMkeyJoin l r) (fun t => t.domainSlots = false)) :=
  ⟨⟨{ managed with pgd := { delivery := some ⟨1, 2, 1, []⟩ } }, viaManager, ⟨1, 2, 1, []⟩, 0, [7], 5, manager0, by decide, rfl, rfl, rfl, rfl, rfl, rfl, by decide, by decide, by decide⟩,
   ⟨managed, viaManager, [], 5, manager0, by decide, rfl, rfl, rfl, rfl, rfl, rfl, by decide, by decide, by decide⟩,
   ⟨managed, viaManager, 15, 0, 5, manager0, by decide, rfl, rfl, rfl, rfl, rfl, rfl, by decide, by decide, by decide⟩,
   ⟨{ managed with vault := { aliasKey := true }, hzn := { entries := [(3, ⟨0, 0, [], []⟩)] } }, viaManager, 3, ⟨0, 0, [], []⟩, 5, manager0, by decide, rfl, rfl, rfl, rfl, rfl, rfl, by decide, by decide, by decide⟩,
   ⟨{ managed with hzn := { issued := [(3, [])] } }, viaManager, 3, [], 5, manager0, by decide, rfl, rfl, rfl, rfl, rfl, rfl, by decide, by decide, by decide⟩,
   ⟨managed, viaManager, 3, [], 5, manager0, by decide, rfl, rfl, rfl, rfl, rfl, rfl, by decide, by decide, by decide⟩,
   ⟨managed, viaManager, 0, 5, manager0, by decide, rfl, rfl, rfl, rfl, rfl, rfl, by decide, by decide, by decide⟩,
   ⟨{ managed with hzn := { entries := [(3, ⟨0, 0, [], []⟩)] } }, viaManager, 3, 1, 5, manager0, by decide, rfl, rfl, rfl, rfl, rfl, rfl, by decide, by decide, by decide⟩,
   ⟨{ managed with vault := { aliasKey := true } }, viaManager, 4095, 1, 5, manager0, by decide, rfl, rfl, rfl, rfl, rfl, rfl, by decide, by decide, by decide⟩,
   ⟨{ managed with vault := { aliasKey := true, slots := [(4, { system := true, state := .loaded }), (5, { system := true })] }, boot := { gateOpen := true, tilth := some { uncel := { slotCur := 4, slotPrev := 5 } } }, uncel := { addr := some 3 } }, viaManager, 3, 5, manager0, by decide, rfl, rfl, rfl, rfl, rfl, rfl, by decide, by decide, by decide⟩,
   ⟨{ managed with vault := { aliasKey := true, slots := [(4, { system := true, state := .loaded }), (5, { system := true })] }, boot := { gateOpen := true, tilth := some { uncel := { slotCur := 4, slotPrev := 5 } } }, uncel := { addr := some 3 } }, viaManager, 9, 5, manager0, by decide, rfl, rfl, rfl, rfl, rfl, rfl, by decide, by decide, by decide⟩,
   ⟨managed, viaManager, 9, true, 5, manager0, by decide, rfl, rfl, rfl, rfl, rfl, rfl, by decide, by decide, by decide⟩⟩

theorem witness_ManagerRequests3 :
    (∃ (s : State) (v : Via) (n : Nat), Asked s v (.uncEpoch n) (fun t => t.glb.epoch < n ∧ n < 2 ^ 32 ∧ t.glb.logFull = false)) ∧
    (∃ (s : State) (v : Via) (i : Nat) (g : Nat) (o : Nat) (sig : List Byte), Asked s v (.ceremonyApprove i g o sig) (fun t => g ≠ t.ownAddr)) ∧
    (∃ (s : State) (v : Via), Asked s v (.uncReenumerate) (fun t => t.bridge = true)) ∧
    (∃ (s : State) (v : Via), Asked s v (.uncReenumerate) (fun t => t.bridge = false)) ∧
    (∃ (s : State) (v : Via) (off : Nat) (value : W32), Asked s v (.globalArm off value) (fun t => off ∈ [gdEpoch, gdReset, gdSrcSel])) :=
  ⟨⟨managed, viaManager, 1, 5, manager0, by decide, rfl, rfl, rfl, rfl, rfl, rfl, by decide, by decide, by decide⟩,
   ⟨managed, viaManager, 1, 5, 0, [], 5, manager0, by decide, rfl, rfl, rfl, rfl, rfl, rfl, by decide, by decide, by decide⟩,
   ⟨{ managed with power := { phase := .gateOpen, topsoilUp := true, strapEff := 256 } }, viaManager, 5, manager0, by decide, rfl, rfl, rfl, rfl, rfl, rfl, by decide, by decide, by decide⟩,
   ⟨managed, viaManager, 5, manager0, by decide, rfl, rfl, rfl, rfl, rfl, rfl, by decide, by decide, by decide⟩,
   ⟨managed, viaManager, gdSrcSel, 0, 5, manager0, by decide, rfl, rfl, rfl, rfl, rfl, rfl, by decide, by decide, by decide⟩⟩


/-! Grain instructions: a grain of any contents can execute a job whose next word is any word, so that the premise of a statement
about an instruction's word is met with any operands. -/

/-- The grain of `on`. -/
def grainOn (h : ProgHeader) (G : Grain) (w : W32) : Grain :=
  { G with state := .running, job := some 0, pc := 0, prog := some { h with textWords := 1 }, pm := [(0, w)] }

/-- `up` with job 0 on grain 0, whose contents are those of `G` with the program of the one word `w`. -/
def on (h : ProgHeader) (G : Grain) (w : W32) : State :=
  { up with jobs := [(0, job0)], grains := [(0, grainOn h G w)], beds := [(0, { state := .awake, applied := true })] }

/-- What an instruction knows of the job of `on`. -/
def ctxOn : GCtx := (on {} {} 0).gctx 0 0 job0

theorem on_fetching (h : ProgHeader) (G : Grain) (w : W32) : (on h G w).fetching 0 w = some (0, job0) := by
  have e : ((on h G w).grain 0).fetched = some w := rfl
  rw [State.fetching, if_pos e]
  rfl

/-- A check that holds where some grain executes a word of the list. -/
def Holds (ws : List W32) (p : GCtx → Grain → Bool) : Prop :=
  ∀ w ∈ ws, ∃ (s : State) (g j : Nat) (job : Job), s.fetching g w = some (j, job) ∧ job.order2 = false ∧ p (s.gctx g j job) (s.grain g) = true

theorem holds_on {ws : List W32} {p : GCtx → Grain → Bool} (h : ProgHeader) (G : Grain)
    (e : (ws.all fun w => p ctxOn (grainOn h G w)) = true) : Holds ws p :=
  fun w i => ⟨on h G w, 0, 0, job0, on_fetching h G w, rfl, List.all_eq_true.1 e w i⟩

/-- A long-vector check that some grain meets with elements to work on, some with VL = 0, and some grain does not meet. -/
def Met (ws : List W32) (legal : GCtx → Grain → Bool) : Prop :=
  Holds ws (fun c G => legal c G && decide (G.regs.vl ≠ 0 ∧ G.regs.vl * G.ew ≤ 8192)) ∧
  Holds ws (fun c G => legal c G && decide (G.regs.vl = 0)) ∧ Holds ws (fun c G => !legal c G)

/-- A grain with VL, EW and the public registers. -/
def lvGrain (vl : Nat) (ew32 : Bool) (pub : Nat) : Grain := { regs := { vl := vl, ew32 := ew32, lpub := pub } }

/-- Operands with groups at L4, L8 and L12. -/
def ops (sh : BitVec 2) (m : BitVec 3) : LvOps := ⟨4, 8, 12, 0, sh, m⟩
def op1 (sh : BitVec 2) (m : BitVec 3) : LvUnary := ⟨4, 8, 0, sh, m⟩

/-- A check that grains of `vl` elements meet and one with the public registers `no` does not. -/
theorem met {ws : List W32} {legal : GCtx → Grain → Bool} (h : ProgHeader) (vl : Nat) (ew32 : Bool) (pub no : Nat)
    (a : (ws.all fun w => legal ctxOn (grainOn h (lvGrain vl ew32 pub) w) && decide (vl ≠ 0 ∧ vl * (if ew32 then 32 else 16) ≤ 8192)) = true)
    (b : (ws.all fun w => legal ctxOn (grainOn h (lvGrain 0 ew32 pub) w) && true) = true)
    (c : (ws.all fun w => !legal ctxOn (grainOn h (lvGrain vl ew32 no) w)) = true) : Met ws legal :=
  ⟨holds_on h _ a, holds_on h (lvGrain 0 ew32 pub) b, holds_on h _ c⟩

theorem witness_LongVectorArithmetic :
    Met ([encLv2 0x38 (ops 2 3) 0x00, encLv2 0x38 (ops 2 3) 0x01]) (legalBinary [0, 1, 2, 3] [0, 1, 2] (ops 2 3)) ∧
    Met ([encLv2 0x38 (ops 1 2) 0x00, encLv2 0x38 (ops 1 2) 0x01]) (legalBinary [0, 1, 2, 3] [0, 1, 2] (ops 1 2)) ∧
    Met ([encLv2 0x38 (ops 2 0) 0x04, encLv2 0x38 (ops 2 0) 0x07]) (legalBinary [0] [0, 2] (ops 2 0)) ∧
    Met ([encLv2 0x38 (ops 0 0) 0x05]) (legalBinary [0] [0] (ops 0 0)) ∧
    Met ([encLv2 0x38 (ops 1 0) 0x06]) (legalBinary [0] [0, 1, 2] (ops 1 0)) ∧
    Met ([encLv2 0x39 (ops 2 1) 0x00, encLv2 0x39 (ops 2 1) 0x02]) (legalBinary [0, 1, 2, 3] [0, 2] (ops 2 1)) ∧
    Met ([encLv2 0x39 (ops 2 3) 0x01, encLv2 0x39 (ops 2 3) 0x03]) (legalBinary [1, 2, 3] [0, 2] (ops 2 3)) ∧
    Met ([encLv2 0x39 (ops 2 5) 0x0A]) (legalBinary [4, 5] [0, 2] (ops 2 5)) ∧
    Met ([encLv2 0x39 (ops 0 0) 0x08, encLv2 0x39 (ops 0 0) 0x09]) (fun c G => legalBinary [0] [0, 2] (ops 0 0) c G && decide (G.ew = 32)) ∧
    Met ([encLv2 0x39 (ops 0 1) 0x05]) (fun c G => legalBinary [1] [0, 2] (ops 0 1) c G && decide (G.regs.vl = 256 ∨ G.regs.vl = 0)) :=
  ⟨met {} 512 false 0xF000 0xF010 (by decide +kernel) (by decide +kernel) (by decide +kernel),
   met {} 256 true 0 0x10 (by decide +kernel) (by decide +kernel) (by decide +kernel),
   met {} 256 true 0xF000 0xF010 (by decide +kernel) (by decide +kernel) (by decide +kernel),
   met {} 512 false 0 0x10 (by decide +kernel) (by decide +kernel) (by decide +kernel),
   met {} 512 false 0 0x10 (by decide +kernel) (by decide +kernel) (by decide +kernel),
   met {} 512 false 0xF000 0xF010 (by decide +kernel) (by decide +kernel) (by decide +kernel),
   met {} 512 false 0xF000 0xF010 (by decide +kernel) (by decide +kernel) (by decide +kernel),
   met {} 512 false 0xF000 0xF010 (by decide +kernel) (by decide +kernel) (by decide +kernel),
   met {} 256 true 0 0x10 (by decide +kernel) (by decide +kernel) (by decide +kernel),
   met {} 256 false 0 0x10 (by decide +kernel) (by decide +kernel) (by decide +kernel)⟩

/-- The check of a comparison. -/
def legalCompare (o : LvOps) (c : GCtx) (G : Grain) : Bool :=
  decide (o.modulus = 0) && decide (o.sh = 0) && decide (G.regs.vl ≤ 128) && decide (1 ≤ o.dst.toNat ∧ o.dst.toNat ≤ 7) &&
  nameable c (lreg o.src1) && nameable c (lreg o.src2) && decide (lreg o.src1 % G.grp = 0 ∧ lreg o.src2 % G.grp = 0)

/-- The check of a shift. -/
def legalShift (o : LvOps) (c : GCtx) (G : Grain) : Bool :=
  decide (o.modulus = 0) && decide (o.sh.toNat ≤ 1) &&
  G.checkGroups c o.sh.toNat G.grp G.beats (lreg o.dst) G.grp [lreg o.src1]

/-- The check of VSPLAT. -/
def legalSplat (o : LvOps) (c : GCtx) (G : Grain) : Bool :=
  decide (o.modulus = 0) && decide (o.sh = 0) && decide (o.src2 = 0) && G.checkGroups c 0 G.grp G.beats (lreg o.dst) G.grp []

theorem witness_LongVectorUnary :
    Met ([encLv2 0x38 (ops 1 0) 0x08, encLv2 0x38 (ops 1 0) 0x09, encLv2 0x38 (ops 1 0) 0x0A]) (legalShift (ops 1 0)) ∧
    Holds ([encLv2 0x38 ⟨7, 15, 14, 0, 0, 0⟩ 0x10, encLv2 0x38 ⟨7, 15, 14, 0, 0, 0⟩ 0x11, encLv2 0x38 ⟨7, 15, 14, 0, 0, 0⟩ 0x12]) (fun c G => legalCompare ⟨7, 15, 14, 0, 0, 0⟩ c G && decide (G.regs.vl = 128)) ∧
    Holds ([encLv2 0x38 ⟨7, 15, 14, 0, 0, 0⟩ 0x10, encLv2 0x38 ⟨7, 15, 14, 0, 0, 0⟩ 0x11, encLv2 0x38 ⟨7, 15, 14, 0, 0, 0⟩ 0x12]) (fun c G => legalCompare ⟨7, 15, 14, 0, 0, 0⟩ c G && decide (G.regs.vl = 0)) ∧
    Holds ([encLv2 0x38 ⟨7, 15, 14, 0, 0, 0⟩ 0x10, encLv2 0x38 ⟨7, 15, 14, 0, 0, 0⟩ 0x11, encLv2 0x38 ⟨7, 15, 14, 0, 0, 0⟩ 0x12]) (fun c G => !legalCompare ⟨7, 15, 14, 0, 0, 0⟩ c G) ∧
    Met ([encLv2 0x38 (ops 1 0) 0x14]) (legalBinary [0] [0, 1] (ops 1 0)) ∧
    Holds ([encLv2 0x38 ⟨4, 8, 0, 0, 0, 0⟩ 0x18]) (fun c G => legalSplat ⟨4, 8, 0, 0, 0, 0⟩ c G && decide (G.regs.vl = 512)) ∧
    Holds ([encLv2 0x38 ⟨6, 8, 0, 0, 0, 0⟩ 0x18]) (fun c G => !legalSplat ⟨6, 8, 0, 0, 0, 0⟩ c G) ∧
    Met ([encLv1 0x38 (op1 1 3) 0x02]) (legalUnary [0, 1, 2, 3] [0, 1] (op1 1 3)) ∧
    Met ([encLv1 0x38 (op1 0 2) 0x03] ++ [encLv1 0x39 (op1 0 2) 0x04]) (legalUnary [1, 2, 3] [0] (op1 0 2)) ∧
    Met ([encLv1 0x39 (op1 0 5) 0x0B]) (legalUnary [4, 5] [0] (op1 0 5)) ∧
    Met ([encLv1 0x3B (op1 1 0) 0x00]) (legalUnary [0] [0, 1] (op1 1 0)) :=
  ⟨met {} 512 false 0 0x10 (by decide +kernel) (by decide +kernel) (by decide +kernel),
   holds_on {} (lvGrain 128 false 0) (by decide +kernel),
   holds_on {} {} (by decide +kernel),
   holds_on {} (lvGrain 129 false 0) (by decide +kernel),
   met {} 512 false 0 0x10 (by decide +kernel) (by decide +kernel) (by decide +kernel),
   holds_on {} (lvGrain 512 false 0) (by decide +kernel),
   holds_on {} (lvGrain 512 false 0) (by decide +kernel),
   met {} 512 false 0 0x10 (by decide +kernel) (by decide +kernel) (by decide +kernel),
   met {} 256 true 0 0x10 (by decide +kernel) (by decide +kernel) (by decide +kernel),
   met {} 512 false 0 0x10 (by decide +kernel) (by decide +kernel) (by decide +kernel),
   met {} 512 false 0 0x10 (by decide +kernel) (by decide +kernel) (by decide +kernel)⟩

theorem witness_Predicates :
    Holds ([encP 7 7 0 0x10, encP 7 7 0 0x11, encP 7 7 0 0x12, encP 7 7 0 0x13]) (fun _ G => decide (1 ≤ (7 : BitVec 4).toNat ∧ (7 : BitVec 4).toNat ≤ 7 ∧ (7 : BitVec 4).toNat ≤ 7 ∧ (0 : BitVec 4).toNat ≤ 7) && decide (G.regs.vl * G.ew = 8192)) ∧
    Holds ([encP 7 7 0 0x10, encP 7 7 0 0x11, encP 7 7 0 0x12, encP 7 7 0 0x13]) (fun _ G => decide (1 ≤ (7 : BitVec 4).toNat ∧ (7 : BitVec 4).toNat ≤ 7 ∧ (7 : BitVec 4).toNat ≤ 7 ∧ (0 : BitVec 4).toNat ≤ 7) && decide (G.regs.vl = 0)) ∧
    Holds ([encP 0 7 0 0x10, encP 0 7 0 0x11, encP 0 7 0 0x12, encP 0 7 0 0x13]) (fun _ _ => !decide (1 ≤ (0 : BitVec 4).toNat ∧ (0 : BitVec 4).toNat ≤ 7 ∧ (7 : BitVec 4).toNat ≤ 7 ∧ (0 : BitVec 4).toNat ≤ 7)) ∧
    Holds ([encP 7 8 0 0x10, encP 7 8 0 0x11, encP 7 8 0 0x12, encP 7 8 0 0x13]) (fun _ _ => !decide (1 ≤ (7 : BitVec 4).toNat ∧ (7 : BitVec 4).toNat ≤ 7 ∧ (8 : BitVec 4).toNat ≤ 7 ∧ (0 : BitVec 4).toNat ≤ 7)) ∧
    Holds ([encP 1 1 1 0x10, encP 1 1 1 0x11, encP 1 1 1 0x12, encP 1 1 1 0x13]) (fun _ G => decide (8192 < G.regs.vl * G.ew)) ∧
    Holds ([encP 1 0 0 0x14, encP 0 7 0 0x15]) (fun _ G => decide (1 ≤ (1 : BitVec 4).toNat ∧ (1 : BitVec 4).toNat ≤ 7 ∧ (7 : BitVec 4).toNat ≤ 7) && decide (G.regs.vl = 1)) ∧
    Holds ([encP 8 0 0 0x14, encP 0 8 0 0x15]) (fun _ G => !decide ((8 : BitVec 4).toNat ≤ 7)) :=
  ⟨holds_on {} (lvGrain 512 false 0) (by decide +kernel),
   holds_on {} {} (by decide +kernel),
   holds_on {} {} (by decide +kernel),
   holds_on {} {} (by decide +kernel),
   holds_on {} (lvGrain 513 false 0) (by decide +kernel),
   holds_on {} (lvGrain 1 false 0) (by decide +kernel),
   holds_on {} {} (by decide +kernel)⟩

theorem witness_NumberTheoreticTransform :
    Met ([encLv2 0x3A ⟨4, 8, 0, 0, 0, 1⟩ (0x00 + 6)]) (legalNtt ⟨4, 8, 0, 0, 0, 1⟩ false 6) ∧
    Met ([encLv2 0x3A ⟨4, 8, 3, 0, 1, 3⟩ (0x00 + 9)]) (legalNtt ⟨4, 8, 3, 0, 1, 3⟩ false 9) ∧
    Met ([encLv2 0x3A ⟨4, 8, 0, 0, 1, 2⟩ (0x10 + 7)]) (legalNtt ⟨4, 8, 0, 0, 1, 2⟩ true 7) ∧
    Met ([encLv2 0x3A ⟨0, 8, 9, 0, 0, 1⟩ (0x20 + 10), encLv2 0x3A ⟨0, 8, 9, 0, 0, 1⟩ (0x30 + 10)]) (legalButterfly ⟨0, 8, 9, 0, 0, 1⟩ 10) :=
  ⟨met {} 256 false 0 0x10 (by decide +kernel) (by decide +kernel) (by decide +kernel),
   met {} 512 false 0 0x10 (by decide +kernel) (by decide +kernel) (by decide +kernel),
   met {} 256 true 0 0x10 (by decide +kernel) (by decide +kernel) (by decide +kernel),
   met {} 128 false 0 1 (by decide +kernel) (by decide +kernel) (by decide +kernel)⟩


/-- A long-vector check with readiness: met and ready, met and not ready, and not met. -/
def Needs (ws : List W32) (legal ready : GCtx → Grain → Bool) : Prop :=
  Holds ws (fun c G => legal c G && ready c G && decide (G.regs.vl ≠ 0 ∧ G.regs.vl * G.ew ≤ 8192)) ∧
  Holds ws (fun c G => legal c G && !ready c G && decide (G.regs.vl ≠ 0 ∧ G.regs.vl * G.ew ≤ 8192)) ∧ Holds ws (fun c G => !legal c G)

theorem needs {ws : List W32} {legal ready : GCtx → Grain → Bool} (x y z : Grain)
    (a : (ws.all fun w => legal ctxOn (grainOn {} x w) && ready ctxOn (grainOn {} x w) && decide (x.regs.vl ≠ 0 ∧ x.regs.vl * x.ew ≤ 8192)) = true)
    (b : (ws.all fun w => legal ctxOn (grainOn {} y w) && !ready ctxOn (grainOn {} y w) && decide (y.regs.vl ≠ 0 ∧ y.regs.vl * y.ew ≤ 8192)) = true)
    (c : (ws.all fun w => !legal ctxOn (grainOn {} z w)) = true) : Needs ws legal ready :=
  ⟨holds_on {} x a, holds_on {} y b, holds_on {} z c⟩

/-- A long-vector check of an instruction that draws words: met with the words there and not there, and not met. -/
def Draws (ws : List W32) (legal : GCtx → Grain → Bool) (words : GCtx → Grain → Nat) : Prop :=
  Needs ws legal fun c G => (G.expander.draw (words c G)).isSome

/-- Registers with values: X(k) and plane .a of L(n). -/
def withX (G : Grain) (x : Map W64) : Grain := { G with regs := { G.regs with x := x } }
def withA (G : Grain) (la : Map Plane) : Grain := { G with regs := { G.regs with la := la } }

/-- A grain whose expander has delivered its span. -/
def spent (G : Grain) : Grain := { G with expander := { delivered := expanderSpan } }

theorem witness_LongVectorMoves :
    Needs [encLM 4 2 0 0 false 0] (fun c G => legalLm 4 0 c G && (!G.anyPublic 4 G.grp || (decide ((0 : BitVec 2) = 0) && !keyRegion (G.x 2).toNat (lmSpan G 0))))
      (fun _ G => decide ((G.x 2).toNat % 64 = 0) && canRead (G.x 2).toNat (lmSpan G 0)) ∧
    Needs [encLM 6 2 0 1 true 0] (fun c G => legalLm 6 1 c G)
      (fun _ G => decide ((G.x 2).toNat % 64 = 0) && canWrite (G.x 2).toNat (lmSpan G 1)) ∧
    Needs [encLv2 0x3B (ops 1 0) 0x01, encLv2 0x3B (ops 1 0) 0x02] (fun c G => legalBinary [0] [0, 1] (ops 1 0) c G)
      (fun _ G => (List.range G.regs.vl).all fun i => !G.active 0 i || decide (at0 (G.vec .a 12) i < G.regs.vl)) ∧
    Needs [encLv2 0x3B (ops 0 0) 0x05] (fun c G => lvpMode 0 0 [0] && G.checkGroups c 0 G.grp G.beats 4 G.grp [12])
      (fun _ G => decide ((G.x 8).toNat % (G.ew / 8) = 0) && (List.range G.regs.vl).all fun i =>
        let a := at0 (elemAddresses G (G.x 8).toNat (G.vec .a 12)) i
        !G.active 0 i || (canRead a (G.ew / 8) && !(G.anyPublic 4 G.grp && keyRegion a (G.ew / 8)))) ∧
    Needs [encLv2 0x3B ⟨4, 9, 12, 0, 0, 0⟩ 0x06] (fun c G => lvpMode 0 0 [0] && nameable c 9 && nameable c 12 && decide (9 % G.grp = 0 ∧ 12 % G.grp = 0))
      (fun _ G => decide ((G.x 4).toNat % (G.ew / 8) = 0) && (List.range G.regs.vl).all fun i =>
        !G.active 0 i || canWrite (at0 (elemAddresses G (G.x 4).toNat (G.vec .a 12)) i) (G.ew / 8)) ∧
    Needs [encLv2 0x3B (ops 0 0) 0x08] (fun c G => lvpMode 0 0 [0] && decide ((0 : BitVec 3) = 0) && nameable c 8 && decide (8 % G.grp = 0) && G.allPublic 8 G.grp)
      (fun _ G => decide ((G.x 12).toNat < G.regs.vl)) ∧
    Needs [encLv2 0x3B ⟨5, 8, 12, 0, 0, 0⟩ 0x09] (fun c G => lvpMode 0 0 [0] && decide ((0 : BitVec 3) = 0) && G.checkGroups c 0 G.grp G.beats 5 G.grp [])
      (fun _ G => decide ((G.x 12).toNat < G.regs.vl)) ∧
    Draws [encLv1 0x3B ⟨4, 0, 0, 0, 0⟩ 0x04] (fun c G => lvpMode 0 0 [0] && decide ((0 : BitVec 4) = 0) && decide ((0 : BitVec 3) = 0) && decide (G.regs.vl ≤ 512) &&
      !G.anyPublic 4 G.grp && G.checkGroups c 0 G.grp G.beats 4 G.grp []) (fun _ G => (G.regs.vl + 7) / 8) :=
  ⟨needs (withX (lvGrain 512 false 0) [(2, 0x10000 - 1024)]) (withX (lvGrain 512 false 0) [(2, 0x10000 - 1023)]) (lvGrain 129 false 0x10) (by decide +kernel) (by decide +kernel) (by decide +kernel),
   needs (withX (lvGrain 256 false 0) [(2, 0x10000 - 1024)]) (withX (lvGrain 256 false 0) [(2, 0x10000)]) (lvGrain 512 false 0) (by decide +kernel) (by decide +kernel) (by decide +kernel),
   needs (lvGrain 128 false 0) (withA (lvGrain 128 false 0) [(12, 128)]) (lvGrain 128 false 0x10) (by decide +kernel) (by decide +kernel) (by decide +kernel),
   needs (withX (lvGrain 128 false 0) [(8, 0xFFFE)]) (withX (lvGrain 128 false 0) [(8, 1)]) (lvGrain 128 false 0x10) (by decide +kernel) (by decide +kernel) (by decide +kernel),
   needs (withX (lvGrain 128 false 0) [(4, 0x800)]) (withX (lvGrain 128 false 0) [(4, 0x10000)]) (lvGrain 129 false 0) (by decide +kernel) (by decide +kernel) (by decide +kernel),
   needs (withX (lvGrain 512 false 0xF00) [(12, 511)]) (withX (lvGrain 512 false 0xF00) [(12, 512)]) (lvGrain 512 false 0x700) (by decide +kernel) (by decide +kernel) (by decide +kernel),
   needs (withX (lvGrain 128 false 0) [(12, 127)]) (withX (lvGrain 128 false 0) [(12, 128)]) (lvGrain 129 false 0) (by decide +kernel) (by decide +kernel) (by decide +kernel),
   needs (lvGrain 512 false 0) (spent (lvGrain 512 false 0)) (lvGrain 512 false 0x10) (by decide +kernel) (by decide +kernel) (by decide +kernel)⟩

/-- The check of VREJ. -/
def legalRej (o : LvOps) (c : GCtx) (G : Grain) : Bool :=
  decide (o.modulus.toNat ≤ 3) && (decide (o.sh = 0) || (decide (o.sh = 1) && decide (2 ≤ o.modulus.toNat))) &&
  nameable c (lreg o.src1) && (decide (lreg o.src1 < lreg o.dst) || decide (lreg o.dst + G.grp ≤ lreg o.src1)) &&
  (!G.anyPublic (lreg o.dst) G.grp || (decide (o.sh = 0) && G.allPublic (lreg o.src1) 1)) &&
  G.checkGroups c o.sh.toNat G.grp 1 (lreg o.dst) G.grp []

theorem witness_LongVectorKeccak :
    Met [encLv1 0x3C ⟨4, 8, 0, 0, 0⟩ 0x00] (legalState ⟨4, 8, 0, 0, 0⟩ [0] [0, 1]) ∧
    Draws [encLv1 0x3C ⟨4, 8, 0, 1, 0⟩ 0x00] (legalState ⟨4, 8, 0, 1, 0⟩ [0] [0, 1]) (fun c _ => if c.order2 then 504 else 168) ∧
    Needs [encLv2 0x3C ⟨4, 8, 2, 0, 0, 4⟩ 0x01] (legalState ⟨4, 8, 0, 0, 4⟩ [0, 1, 2, 3, 4] [0, 1])
      (fun _ G => decide ((G.x 2).toNat % 8 = 0) && canRead (G.x 2).toNat (lvkRate 4)) ∧
    Needs [encLv2 0x3C ⟨4, 8, 2, 0, 1, 0⟩ 0x01] (fun c G => legalState ⟨4, 8, 0, 1, 0⟩ [0, 1, 2, 3, 4] [0, 1] c G)
      (fun c G => decide ((G.x 2).toNat % 8 = 0) && canRead (G.x 2).toNat (lvkRate 0) && (G.expander.draw (if c.order2 then 504 else 168)).isSome) ∧
    Met [encLv1 0x3C ⟨4, 8, 0, 1, 4⟩ 0x02] (legalState ⟨4, 8, 0, 1, 4⟩ [0, 1, 2, 3, 4] [0, 1]) ∧
    Met [encLv1 0x3C ⟨4, 8, 0, 0, 1⟩ 0x04] (legalSample ⟨4, 8, 0, 0, 1⟩ [0, 1] [0, 1] 16) ∧
    Draws [encLv1 0x3C ⟨4, 8, 0, 1, 0⟩ 0x04] (legalSample ⟨4, 8, 0, 1, 0⟩ [0, 1] [0, 1] 16) (fun c _ => if c.order2 then 144 else 48) ∧
    Met [encLv1 0x3C ⟨4, 8, 0, 0, 2⟩ 0x05] (legalSample ⟨4, 8, 0, 0, 2⟩ [0, 1, 2] [0] 32) ∧
    Needs [encLv2 0x3C ⟨4, 8, 2, 0, 0, 3⟩ 0x03] (legalRej ⟨4, 8, 2, 0, 0, 3⟩)
      (fun _ G => decide ((G.x 2).toNat ≤ G.regs.vl)) ∧
    Draws [encLv2 0x3C ⟨4, 8, 2, 0, 1, 2⟩ 0x03] (fun c G => legalRej ⟨4, 8, 2, 0, 1, 2⟩ c G && decide ((G.x 2).toNat ≤ G.regs.vl)) (fun c _ => if c.order2 then 240 else 80) :=
  ⟨met {} 1 false 0 0x10 (by decide +kernel) (by decide +kernel) (by decide +kernel),
   needs (lvGrain 1 false 0) (spent (lvGrain 1 false 0)) (lvGrain 1 false 0x10) (by decide +kernel) (by decide +kernel) (by decide +kernel),
   needs (withX (lvGrain 1 false 0) [(2, 0x10000 - 144)]) (withX (lvGrain 1 false 0) [(2, 0x10000 - 136)]) (lvGrain 1 false 0x10) (by decide +kernel) (by decide +kernel) (by decide +kernel),
   needs (withX (lvGrain 1 false 0) [(2, 0x10000 - 168)]) (spent (withX (lvGrain 1 false 0) [(2, 0x10000 - 168)])) (lvGrain 1 false 0x10) (by decide +kernel) (by decide +kernel) (by decide +kernel),
   met {} 1 false 0 0x10 (by decide +kernel) (by decide +kernel) (by decide +kernel),
   met {} 256 false 0 0x10 (by decide +kernel) (by decide +kernel) (by decide +kernel),
   needs (lvGrain 256 false 0) (spent (lvGrain 256 false 0)) (lvGrain 255 false 0) (by decide +kernel) (by decide +kernel) (by decide +kernel),
   met {} 256 true 0 0x10 (by decide +kernel) (by decide +kernel) (by decide +kernel),
   needs (withX (lvGrain 256 false 0) [(2, 256)]) (withX (lvGrain 256 false 0) [(2, 257)]) (lvGrain 256 false 0x10) (by decide +kernel) (by decide +kernel) (by decide +kernel),
   needs (withX (lvGrain 256 false 0) [(2, 256)]) (spent (withX (lvGrain 256 false 0) [(2, 256)])) (lvGrain 256 false 0x10) (by decide +kernel) (by decide +kernel) (by decide +kernel)⟩

theorem witness_MaskingGadgets :
    Draws ([encLv1 0x3D (op1 1 0) (opChk none 0x00), encLv1 0x3D (op1 1 0) (opChk (some false) 0x00), encLv1 0x3D (op1 1 0) (opChk (some true) 0x00)] ++ [encLv1 0x3D (op1 1 0) (opChk none 0x07), encLv1 0x3D (op1 1 0) (opChk (some false) 0x07), encLv1 0x3D (op1 1 0) (opChk (some true) 0x07)]) (legalGadget [0] 1 0 1 4 [8]) (fun c G => 2 * ((if c.order2 then 6 else 2) * G.beats)) ∧
    Draws ([encLv1 0x3D (op1 1 3) (opChk none 0x01), encLv1 0x3D (op1 1 3) (opChk (some false) 0x01), encLv1 0x3D (op1 1 3) (opChk (some true) 0x01)]) (legalGadget [0, 1, 2, 3] 1 3 1 4 [8]) (fun c G => 2 * ((if c.order2 then 6 else 2) * G.beats)) ∧
    Draws ([encLv1 0x3D (op1 1 2) (opChk none 0x02), encLv1 0x3D (op1 1 2) (opChk (some false) 0x02), encLv1 0x3D (op1 1 2) (opChk (some true) 0x02)]) (legalGadget [0, 1, 2, 3] 1 2 1 4 [8]) (fun c G => 2 * ((if c.order2 then 24 else 8) * G.beats)) ∧
    Draws ([encLv1 0x3D (op1 1 1) (opChk none 0x03), encLv1 0x3D (op1 1 1) (opChk (some false) 0x03), encLv1 0x3D (op1 1 1) (opChk (some true) 0x03)]) (legalGadget [0, 1, 2, 3] 1 1 1 4 [8]) (fun c G => 2 * ((if c.order2 then 18 else 6) * G.beats)) ∧
    Draws ([encLv2 0x3D (ops 1 0) (opChk none 0x04), encLv2 0x3D (ops 1 0) (opChk (some false) 0x04), encLv2 0x3D (ops 1 0) (opChk (some true) 0x04)]) (legalGadget [0] 1 0 1 4 [8, 12]) (fun c G => 2 * ((if c.order2 then 6 else 2) * G.beats)) ∧
    Draws ([encLv2 0x3D (ops 1 0) (opChk none 0x05), encLv2 0x3D (ops 1 0) (opChk (some false) 0x05), encLv2 0x3D (ops 1 0) (opChk (some true) 0x05)]) (legalGadget [0] 1 0 1 4 [8, 12]) (fun c G => 2 * ((if c.order2 then 24 else 8) * G.beats)) ∧
    Draws ([encLv2 0x3D (ops 1 3) (opChk none 0x06), encLv2 0x3D (ops 1 3) (opChk (some false) 0x06), encLv2 0x3D (ops 1 3) (opChk (some true) 0x06)]) (legalGadget [1, 2, 3] 1 3 1 4 [8, 12]) (fun c G => 2 * ((if c.order2 then 30 else 10) * G.beats)) :=
  ⟨needs (lvGrain 512 false 0) (spent (lvGrain 512 false 0)) (lvGrain 512 false 0x10) (by decide +kernel) (by decide +kernel) (by decide +kernel),
   needs (lvGrain 512 false 0) (spent (lvGrain 512 false 0)) (lvGrain 512 false 0x10) (by decide +kernel) (by decide +kernel) (by decide +kernel),
   needs (lvGrain 256 true 0) (spent (lvGrain 256 true 0)) (lvGrain 256 true 0x10) (by decide +kernel) (by decide +kernel) (by decide +kernel),
   needs (lvGrain 512 false 0) (spent (lvGrain 512 false 0)) (lvGrain 512 false 0x10) (by decide +kernel) (by decide +kernel) (by decide +kernel),
   needs (lvGrain 512 false 0) (spent (lvGrain 512 false 0)) (lvGrain 512 false 0x10) (by decide +kernel) (by decide +kernel) (by decide +kernel),
   needs (lvGrain 512 false 0) (spent (lvGrain 512 false 0)) (lvGrain 512 false 0x10) (by decide +kernel) (by decide +kernel) (by decide +kernel),
   needs (lvGrain 512 false 0) (spent (lvGrain 512 false 0)) (lvGrain 512 false 0x10) (by decide +kernel) (by decide +kernel) (by decide +kernel)⟩

theorem witness_DecomposeAndUnmask :
    Draws ([encLv2 0x3D ⟨4, 8, 1, 0, 1, 2⟩ (opChk none 0x08), encLv2 0x3D ⟨4, 8, 1, 0, 1, 2⟩ (opChk (some false) 0x08), encLv2 0x3D ⟨4, 8, 1, 0, 1, 2⟩ (opChk (some true) 0x08)]) (fun c G => decide ((1 : BitVec 4).toNat ≤ 1) && legalGadget [2] 1 2 2 4 [8] c G) (fun c G => 2 * ((if c.order2 then 36 else 12) * G.beats)) ∧
    Met [encLv1 0x3F (op1 1 0) 0x00] (legalUnmask [0] (op1 1 0)) ∧
    Met [encLv1 0x3F (op1 1 3) 0x01] (legalUnmask [0, 1, 2, 3] (op1 1 3)) :=
  ⟨needs (lvGrain 128 true 0) (spent (lvGrain 128 true 0)) (lvGrain 128 true 0x10) (by decide +kernel) (by decide +kernel) (by decide +kernel),
   met ⟨1, 2, 0, 0, 0, 0, 0, 0, 0, 0, 0, 0, 0, 0, 0, 0⟩ 512 false 0xF0 0xFF0 (by decide +kernel) (by decide +kernel) (by decide +kernel),
   met ⟨1, 2, 0, 0, 0, 0, 0, 0, 0, 0, 0, 0, 0, 0, 0, 0⟩ 512 false 0xF0 0xFF0 (by decide +kernel) (by decide +kernel) (by decide +kernel)⟩



/-- The premise of a statement on scalar, short-vector, hash and cipher instructions: a job of masking order 1 whose next word is
any word, under FLAGS, registers and units of any kind. -/
theorem witness_ScalarOperations (flags : Nat) (G : Grain) (w : W32) :
    ∃ (s : State) (g j : Nat) (job : Job), s.fetching g w = some (j, job) ∧ job.order2 = false ∧ (s.grain g).header.flags = flags ∧
      (s.grain g).regs = G.regs ∧ (s.grain g).units = G.units ∧ (s.grain g).dm = G.dm :=
  ⟨on { flags := flags } G w, 0, 0, job0, on_fetching _ _ _, rfl, rfl, rfl, rfl, rfl⟩

/-- Addresses at the ends of the ranges that loads and stores reach, and beyond them. -/
theorem witness_LoadsAndStores :
    (∀ n ∈ [1, 2, 4, 8, 16], ∃ ea, ea % n = 0 ∧ ea + n ≤ 0x10000 ∧ 0x10000 < ea + n + n) ∧
    (∀ n ∈ [1, 2, 4, 8, 16], ∃ ea, ea % n = 0 ∧ 0x10000 ≤ ea ∧ ea + n ≤ 0x16000 ∧ 0x16000 < ea + n + n) ∧
    (∀ n ∈ [1, 2, 4, 8, 16], ∃ ea, ea % n = 0 ∧ ea + n ≤ 0x10000 ∧ ∀ i < n, 0x800 ≤ ea + i ∨ resultByte (ea + i) = true) ∧
    (∀ n ∈ [2, 4, 8], ∃ ea, ea % n ≠ 0) ∧ (∀ n ∈ [1, 2, 4, 8], ∃ ea, canRead ea n = false) ∧
    (∀ n ∈ [1, 2, 4, 8], ∃ ea, canWrite ea n = false) ∧
    (∀ (v : W64) (imm : Half), ∃ (s : State) (g j : Nat) (job : Job) (a : Reg), s.fetching g (encI 0x08 0 a imm) = some (j, job) ∧
      ((s.grain g).x a.toNat + imm.signExtend 64).toNat = (v + imm.signExtend 64).toNat) :=
  ⟨fun n h => ⟨0x10000 - n, by revert n h; decide⟩, fun n h => ⟨0x16000 - n, by revert n h; decide⟩,
   fun n h => ⟨0x800, by revert n h; decide⟩, fun n h => ⟨1, by revert n h; decide⟩, fun n h => ⟨0x16000, by revert n h; decide⟩,
   fun n h => ⟨0x10000, by revert n h; decide⟩,
   fun v imm => ⟨on {} { regs := { x := [(1, v)] } } _, 0, 0, job0, 1, on_fetching _ _ _, rfl⟩⟩

theorem witness_FloatingPoint :
    (∃ (s : State) (g j : Nat) (job : Job) (rm : BitVec 3), s.fetching g (encA 0x20 0 0 0 (funcFp rm 0x00)) = some (j, job) ∧
      (s.grain g).header.flags.testBit 2 = true ∧ rm.toNat ≤ 4 ∧ 4 ≤ rm.toNat) ∧
    (∃ (s : State) (g j : Nat) (job : Job) (rm : BitVec 3), s.fetching g (encA 0x20 0 0 0 (funcFp rm 0x00)) = some (j, job) ∧
      ((s.grain g).header.flags.testBit 2 = false ∨ 5 ≤ rm.toNat)) :=
  ⟨⟨on { flags := 4 } {} _, 0, 0, job0, 4, on_fetching _ _ _, rfl, by decide⟩, ⟨on { flags := 4 } {} _, 0, 0, job0, 5, on_fetching _ _ _, by decide⟩⟩

theorem witness_ShortVector :
    (∃ (s : State) (g j : Nat) (job : Job) (d a b : Reg), s.fetching g (encA 0x24 d a b (funcSv 1 0x00)) = some (j, job) ∧
      SRegs (s.grain g) [d, a, b] ∧ (s.grain g).compat = true) ∧
    (∃ (s : State) (g j : Nat) (job : Job) (d a b : Reg), s.fetching g (encA 0x24 d a b (funcSv 1 0x00)) = some (j, job) ∧
      SRegs (s.grain g) [d, a, b] ∧ (s.grain g).compat = false ∧ d.toNat = 31 ∧ b.toNat < 128 / (8 * 2 ^ (2 : BitVec 2).toNat)) :=
  ⟨⟨on { flags := 1 } {} _, 0, 0, job0, 15, 15, 15, on_fetching _ _ _, .inr (by decide), by decide⟩,
   ⟨on {} {} _, 0, 0, job0, 31, 31, 3, on_fetching _ _ _, .inl (by decide), by decide⟩⟩

/-- A grain with X1. -/
def x1 (v : W64) : Grain := { regs := { x := [(1, v)] } }

theorem witness_HashUnits :
    (∃ (s : State) (g j : Nat) (job : Job) (a : Reg), s.fetching g (encA 0x28 0 0 a 0x000) = some (j, job) ∧ a.toNat = 4) ∧
    (∃ (s : State) (g j : Nat) (job : Job) (a : Reg), s.fetching g (encA 0x28 0 0 a 0x000) = some (j, job) ∧ a.toNat = 5) ∧
    (∃ (s : State) (g j : Nat) (job : Job) (a : Reg), s.fetching g (encA 0x28 0 a 0 0x001) = some (j, job) ∧
      ((s.grain g).x a.toNat).toNat % 64 = 0 ∧ canRead ((s.grain g).x a.toNat).toNat (shaBlockLen (s.grain g).units.shaVariant) = true) ∧
    (∃ (s : State) (g j : Nat) (job : Job) (a : Reg), s.fetching g (encA 0x28 0 a 0 0x002) = some (j, job) ∧
      ((s.grain g).x a.toNat).toNat % 8 = 0 ∧ canWrite ((s.grain g).x a.toNat).toNat (shaStateLen (s.grain g).units.shaVariant) = true) ∧
    (∃ (s : State) (g j : Nat) (job : Job) (a : Reg), s.fetching g (encA 0x28 0 a 0 0x003) = some (j, job) ∧
      canRead ((s.grain g).x a.toNat).toNat (shaStateLen (s.grain g).units.shaVariant) = true) ∧
    (∃ (s : State) (g j : Nat) (job : Job) (a : Reg), s.fetching g (encA 0x2A 0 a 0 0x000) = some (j, job) ∧
      ((s.grain g).x a.toNat).toNat % 8 = 0 ∧ canWrite ((s.grain g).x a.toNat).toNat 200 = true) :=
  ⟨⟨on {} {} _, 0, 0, job0, 4, on_fetching _ _ _, by decide⟩, ⟨on {} {} _, 0, 0, job0, 5, on_fetching _ _ _, by decide⟩,
   ⟨on {} (x1 0xFF80) _, 0, 0, job0, 1, on_fetching _ _ _, by decide, by decide⟩,
   ⟨on {} (x1 0x800) _, 0, 0, job0, 1, on_fetching _ _ _, by decide, by decide⟩,
   ⟨on {} (x1 0x15FE0) _, 0, 0, job0, 1, on_fetching _ _ _, by decide⟩,
   ⟨on {} (x1 0xFF38) _, 0, 0, job0, 1, on_fetching _ _ _, by decide, by decide⟩⟩

theorem witness_CipherUnits :
    (∃ (s : State) (g j : Nat) (job : Job) (a b : Reg), s.fetching g (encA 0x29 0 a b 0x000) = some (j, job) ∧ b.toNat ≤ 2 ∧
      keyRegion ((s.grain g).x a.toNat).toNat (16 + 8 * b.toNat) = false ∧ canRead ((s.grain g).x a.toNat).toNat (16 + 8 * b.toNat) = true) ∧
    (∃ (s : State) (g j : Nat) (job : Job) (a b : Reg), s.fetching g (encA 0x29 0 a b 0x008) = some (j, job) ∧ b.toNat ≤ 1 ∧
      keyRegion ((s.grain g).x a.toNat).toNat (16 + 8 * b.toNat) = true) ∧
    (∃ (s : State) (g j : Nat) (job : Job) (a b : Reg), s.fetching g (encA 0x29 0 a b 0x001) = some (j, job) ∧ job.order2 = false ∧
      b.toNat ≤ 1 ∧ canRead ((s.grain g).x a.toNat).toNat (16 + 8 * b.toNat) = true ∧
      canRead (((s.grain g).x a.toNat).toNat + 0x100) (16 + 8 * b.toNat) = true) ∧
    (∃ (s : State) (g j : Nat) (job : Job) (d a : Reg) (k : List Byte), s.fetching g (encA 0x29 d a 0 0x004) = some (j, job) ∧
      job.order2 = false ∧ d.toNat % 2 = 0 ∧ a.toNat % 2 = 0 ∧ SRegs (s.grain g) [d, a] ∧ (s.grain g).units.aesKey = some k) ∧
    (∃ (s : State) (g j : Nat) (job : Job) (d a : Reg) (k : List Byte), s.fetching g (encA 0x29 d a 0 0x00C) = some (j, job) ∧
      job.order2 = false ∧ d.toNat % 2 = 0 ∧ a.toNat % 2 = 0 ∧ SRegs (s.grain g) [d, a] ∧ (s.grain g).units.tdesKey = some k) :=
  ⟨⟨on {} (x1 0x800) _, 0, 0, job0, 1, 2, on_fetching _ _ _, by decide, by decide, by decide⟩,
   ⟨on {} (x1 0x6FF) _, 0, 0, job0, 1, 1, on_fetching _ _ _, by decide, by decide⟩,
   ⟨on {} (x1 0x15E00) _, 0, 0, job0, 1, 1, on_fetching _ _ _, rfl, by decide, by decide, by decide⟩,
   ⟨on {} { units := { aesKey := some (List.replicate 32 0) } } _, 0, 0, job0, 30, 30, _, on_fetching _ _ _, rfl, by decide, by decide, .inl rfl, rfl⟩,
   ⟨on {} { units := { tdesKey := some (List.replicate 24 0) } } _, 0, 0, job0, 30, 30, _, on_fetching _ _ _, rfl, by decide, by decide, .inl rfl, rfl⟩⟩

/-- CSR numbers and values at the boundaries of the statement on control registers. -/
theorem witness_ControlRegisters (h : ProgHeader) (v : W64) (n : Half) :
    (∃ (s : State) (g j : Nat) (job : Job) (a : Reg), s.fetching g (encI 0x31 0 a n) = some (j, job) ∧ (s.grain g).x a.toNat = v ∧
      (s.grain g).ew = 16 ∧ (s.grain g).header.pubLregs = h.pubLregs) ∧
    (∃ x : Nat, x % 8 < 4 ∧ 3 ≤ x % 8) ∧ (∃ x : Nat, 4 ≤ x % 8) ∧ (∃ x : Nat, x * 16 ≤ 8192 ∧ 8192 ≤ x * 16) ∧ (∃ x : Nat, 8192 < x * 16) ∧
    (∃ x p : Nat, x ≠ 0 ∧ x &&& p = x) ∧ (∃ x p : Nat, x &&& p ≠ x) :=
  ⟨⟨on h (x1 v) _, 0, 0, job0, 1, on_fetching _ _ _, rfl, rfl, rfl⟩, ⟨3, by decide⟩, ⟨4, by decide⟩, ⟨512, by decide⟩, ⟨513, by decide⟩,
   ⟨4, 6, by decide⟩, ⟨5, 6, by decide⟩⟩

/-- `on` with IN and OUT windows and a descriptor. -/
def streaming (d : Descriptor) (G : Grain) (w : W32) : State :=
  { on { outSize := 64, inSize := 64, outOff := 0x900, inOff := 0x800 } G w with jobs := [(0, { job0 with desc := d })] }

theorem streaming_fetches (d : Descriptor) (G : Grain) (w : W32) : (streaming d G w).fetching 0 w = some (0, { job0 with desc := d }) := by
  have e : ((streaming d G w).grain 0).fetched = some w := rfl
  rw [State.fetching, if_pos e]
  rfl

theorem up_owner : up.pairOwner 0 = some ⟨1, 0, 0, 0⟩ := by decide

theorem streaming_owner (d : Descriptor) (G : Grain) (w : W32) : (streaming d G w).pairOwner 0 = some ⟨1, 0, 0, 0⟩ := by
  rw [← up_owner]
  rfl

/-- A grain whose result fields are STATUS and LEN. -/
def result0 (status len : Nat) : Grain := { dm := Memory.put [] 0x40 (leBytes 2 status ++ [0, 0] ++ leBytes 4 len) }

theorem witness_StreamsAndEnd :
    (∃ (s : State) (g j : Nat) (job : Job), s.fetching g (encA 0x2C 0 1 0 0) = some (j, job) ∧
      (s.streamHead job).length < job.delivered + min (s.grain g).header.inSize ((s.streamHead job).length + job.desc.inLen - job.delivered) ∧
      0 < min (s.grain g).header.inSize ((s.streamHead job).length + job.desc.inLen - job.delivered)) ∧
    (∀ n ∈ [0, 64, 65], ∃ (s : State) (g j : Nat) (job : Job) (o : PairOwner), s.fetching g (encA 0x2C 1 2 1 0) = some (j, job) ∧
      s.pairOwner job.pair = some o ∧ SeedReq.entropy j ∉ s.rng.waiting ∧ ((s.grain g).x 1).toNat = n ∧ (s.grain g).header.outSize = 64 ∧
      job.desc.outLen = 64 ∧ job.desc.flags.testBit 1 = false ∧ job.pushed = 0) ∧
    (∃ (s : State) (g j : Nat) (job : Job) (o : PairOwner), s.fetching g (encA 0x2C 1 2 1 0) = some (j, job) ∧
      s.pairOwner job.pair = some o ∧ 0 < ((s.grain g).x 1).toNat ∧ ((s.grain g).x 1).toNat ≤ (s.grain g).header.outSize ∧
      job.desc.outLen < job.pushed + ((s.grain g).x 1).toNat) ∧
    (∃ (s : State) (g j : Nat) (job : Job), s.fetching g (encJ 0x1F 0 0) = some (j, job) ∧
      ∃ n e, (n, e) ∈ s.engines ∧ e.holder = some j ∧ e.state = .running) ∧
    (∀ x ∈ [(0x7FF, 0), (Status.ok, 65), (Status.ok, 64), (Status.ok, 32), (Status.verifyFail, 0)],
      ∃ (s : State) (g j : Nat) (job : Job), s.fetching g (encJ 0x1F 0 0) = some (j, job) ∧
        (∀ n e, (n, e) ∈ s.engines → ¬(e.holder = some j ∧ e.state = .running)) ∧ leNat ((s.grain g).bytes 0x40 2) = x.1 ∧
        leNat ((s.grain g).bytes 0x44 4) = x.2 ∧ (s.grain g).header.outSize = 64 ∧ job.desc.outLen = 32 ∧ job.streamed = false ∧ job.claim = none) :=
  ⟨⟨streaming { inLen := 1 } {} _, 0, 0, _, streaming_fetches _ _ _, by decide, by decide⟩,
   fun n h => ⟨streaming { outLen := 64 } (x1 (BitVec.ofNat 64 n)) _, 0, 0, _, ⟨1, 0, 0, 0⟩, streaming_fetches _ _ _, streaming_owner _ _ _, List.not_mem_nil, by
      revert n h
      decide, rfl, rfl, rfl, rfl⟩,
   ⟨streaming { outLen := 63 } (x1 64) _, 0, 0, _, ⟨1, 0, 0, 0⟩, streaming_fetches _ _ _, streaming_owner _ _ _, by decide, by decide, by decide⟩,
   ⟨{ streaming {} {} (encJ 0x1F 0 0) with engines := [(0, { state := .running, holder := some 0 })] }, 0, 0, _, streaming_fetches {} {} _, 0, _, .head _, rfl, rfl⟩,
   fun x h => ⟨streaming { outLen := 32 } (result0 x.1 x.2) _, 0, 0, _, streaming_fetches _ _ _, fun n e i => (by cases i), by
      revert x h
      decide, by
      revert x h
      decide, rfl, rfl, rfl, rfl⟩⟩

/-! Ends of jobs, grain events and engines. -/

theorem on_sound (h : ProgHeader) (w : W32) : (on h {} w).Sound := by constructor <;> first | decide | rfl

theorem witness_JobEnds : ∃ (s : State) (j : Nat) (job : Job), s.Sound ∧ s.job j = some job :=
  ⟨on {} {} 0, 0, job0, on_sound {} 0, rfl⟩

/-- Grain 0 with its fields and a bed, sound. -/
def oneGrain (G : Grain) : State := { up with grains := [(0, G)], beds := [(0, { state := .awake })], quads := [(0, { reloads := [0] })] }

theorem witness_GrainEvents :
    (∃ (s : State) (g j : Nat) (job : Job) (w : W32), s.Sound ∧ s.fetching g w = some (j, job) ∧ assignedWord w = false) ∧
    (∃ (s : State) (g j : Nat) (job : Job), s.Sound ∧ s.executing g = some (j, job) ∧ (s.grain g).header.textWords ≤ (s.grain g).pc) ∧
    (∃ (s : State) (g j : Nat) (job : Job) (p : Program), s.Sound ∧ (s.grain g).state = .load ∧ (s.grain g).job = some j ∧
      s.job j = some job ∧ s.shelved (g / 16) job.desc.opcode = some p) ∧
    (∃ (s : State) (g : Nat) (word : BitVec 51), s.Sound ∧ (s.grain g).state = .idle ∧ (s.bed (g / 16)).state = .awake ∧
      (s.grain g).patrol = 4095 ∧ microParity word = true) ∧
    (∃ (s : State) (g : Nat) (word : BitVec 51), s.Sound ∧ (s.grain g).state = .idle ∧ (s.bed (g / 16)).state = .awake ∧
      (s.grain g).patrol = 4096 ∧ dispatchParity word = true) ∧
    (∃ (s : State) (g : Nat), s.Sound ∧ (s.quad (g / 256)).reloads.head? = some g ∧ (s.grain g).state = .reload ∧ (s.grain g).test = false ∧
      (s.quad (g / 256)).reloadTry = 0) :=
  ⟨⟨on {} {} 0xFFFFFFFF, 0, 0, job0, 0xFFFFFFFF, on_sound {} _, on_fetching _ _ _, by decide⟩,
   ⟨{ on {} {} 0 with grains := [(0, { state := .running, job := some 0, pc := 8, prog := some {} })] }, 0, 0, job0, by constructor <;> decide, by decide, by decide⟩,
   ⟨{ on {} {} 0 with
      grains := [(0, { state := .load, job := some 0 })]
      boot := { directory := [(0, 7)] }
      beds := [(0, { state := .awake, shelf := [(7, {})] })] }, 0, 0, job0, {}, by constructor <;> decide, by decide, by decide, by decide, by decide⟩,
   ⟨oneGrain { state := .idle, patrol := 4095 }, 0, BitVec.ofNat 51 (7 * 2 ^ 48), by constructor <;> decide, by decide, by decide, by decide, by decide⟩,
   ⟨oneGrain { state := .idle, patrol := 4096 }, 0, 1, by constructor <;> decide, by decide, by decide, by decide, by decide⟩,
   ⟨oneGrain { state := .reload }, 0, by constructor <;> decide, by decide, by decide, by decide, by decide⟩⟩

theorem witness_ScrubAndSeeds :
    (∃ (s : State) (g t : Nat), (s.grain g).state = .scrub ∧ s.grainTenant g = some t ∧ (s.grain g).job = none ∧ g ∉ (s.quad (g / 256)).reloads) ∧
    (∃ (s : State) (g : Nat), (s.grain g).expander.coming = true) ∧
    (∃ (s : State) (j g : Nat) (job : Job), s.job j = some job ∧ job.grain = some g ∧ s.power.holdActive = false ∧ job.held = false ∧
      (job.rngWait = true ∨ (s.grain g).state = .stalled)) :=
  ⟨⟨{ up with grains := [(1, { state := .scrub })] }, 1, 1, by decide⟩,
   ⟨{ up with grains := [(1, { expander := { coming := true } })] }, 1, by decide⟩,
   ⟨{ on {} {} 0 with grains := [(0, { state := .stalled, job := some 0 })] }, 0, 0, job0, by decide⟩⟩

/-- `on` under FLAGS.BNE with engine 0, X1 the address and X2 the engine. -/
def engined (e : Engine) (p : W64) (w : W32) : State :=
  { on { flags := 8 } { regs := { x := [(1, p)] } } w with engines := [(0, e)] }

theorem engined_fetches (e : Engine) (p : W64) (w : W32) : (engined e p w).fetching 0 w = some (0, job0) := by
  have h : ((engined e p w).grain 0).fetched = some w := rfl
  rw [State.fetching, if_pos h]
  rfl

theorem witness_EngineAccess :
    (∀ w ∈ [encA 0x2D 0 1 2 (funcBn 0 63), encA 0x2D 0 1 2 (funcBn 1 63), encA 0x2D 0 1 2 (funcBn 2 7), encA 0x2D 0 1 2 0x003,
        encA 0x2D 3 0 2 0x004, encA 0x2D 0 0 2 0x005],
      ∃ (s : State) (g j : Nat) (job : Job), s.fetching g w = some (j, job) ∧ s.mayAccess g ((s.grain g).x 2).toNat j job = true ∧
        ((s.engine 0).state = .idle ∧ (s.engine 0).holder = none) ∧ ((s.grain g).x 1).toNat % 64 = 0 ∧
        canRead ((s.grain g).x 1).toNat 512 = true ∧ canWrite ((s.grain g).x 1).toNat 512 = true) ∧
    (∃ (s : State) (g j : Nat) (job : Job), s.fetching g (encA 0x2D 0 0 2 0x005) = some (j, job) ∧
      s.mayAccess g ((s.grain g).x 2).toNat j job = true ∧ (s.engine 0).state = .held ∧ (s.engine 0).holder = some j) ∧
    (∃ (s : State) (g j : Nat) (job : Job), s.fetching g (encA 0x2D 0 0 1 0x005) = some (j, job) ∧
      s.mayAccess g ((s.grain g).x 1).toNat j job = false) ∧
    (∃ (s : State) (g j : Nat) (job : Job), s.fetching g (encA 0x2D 0 0 2 0x005) = some (j, job) ∧
      s.mayAccess g ((s.grain g).x 2).toNat j job = true ∧ (s.engine 0).state = .test) ∧
    (∃ (s : State) (g j : Nat) (job : Job), s.fetching g (encA 0x2D 0 0 2 0x005) = some (j, job) ∧
      s.mayAccess g ((s.grain g).x 2).toNat j job = true ∧ (s.engine 0).state ≠ .test ∧ (s.engine 0).holder ≠ some j ∧
      ((s.engine 0).state = .scrub ∨ (s.engine 0).holder ≠ none)) :=
  ⟨fun w _ => ⟨engined {} 0xFE00 w, 0, 0, job0, engined_fetches _ _ _, (by decide : (engined {} 0xFE00 0).mayAccess 0 0 0 job0 = true), ⟨rfl, rfl⟩,
     (by decide : (0xFE00 : W64).toNat % 64 = 0), (by decide : canRead (0xFE00 : W64).toNat 512 = true), (by decide +kernel : canWrite (0xFE00 : W64).toNat 512 = true)⟩,
   ⟨engined { state := .held, holder := some 0 } 0 _, 0, 0, job0, engined_fetches _ _ _, by decide, rfl, rfl⟩,
   ⟨engined {} 16 _, 0, 0, job0, engined_fetches _ _ _, by decide⟩,
   ⟨engined { state := .test } 0 _, 0, 0, job0, engined_fetches _ _ _, by decide, rfl⟩,
   ⟨engined { state := .running, holder := some 5 } 0 _, 0, 0, job0, engined_fetches _ _ _, by decide, by decide, by decide, by decide⟩⟩

/-- An engine whose program stands at the entry `w`, with word 1 and 2 and the moduli of registers 12 on. -/
def standing (w : W64) (x y : Nat) (mods : Map Modulus) : State :=
  { up with engines := [(0, { state := .running, pc := 511, cmds := [(511, w)], words := [(1, x), (2, y)], mods := mods })] }

/-- The premise of every statement on a command of an engine: its program stands at the command's entry, whatever that is. -/
theorem witness_EngineCommands (w : W64) (x y : Nat) (mods : Map Modulus) :
    ∃ (s : State) (n : Nat), (s.engine n).state = .running ∧ (s.engine n).pc ≤ 511 ∧ (s.engine n).cmds.get (s.engine n).pc 0 = w ∧
      (s.engine n).mods = mods :=
  ⟨standing w x y mods, 0, rfl, Nat.le_refl _, rfl, rfl⟩

theorem witness_CommandOperands :
    (∃ k : BitVec 2, k ≠ 3) ∧ (∃ r : BitVec 10, r ≠ 0 ∧ r.toNat = 512) ∧ (∃ v : Half, checkStatus v = true) :=
  ⟨⟨2, by decide⟩, ⟨512, by decide⟩, ⟨0x0303, by decide⟩⟩

/-- Moduli of full and of half form. -/
def mods0 : Map Modulus :=
  [(0, ⟨2 ^ 4095 + 1, 4096, false, true⟩), (1, ⟨2 ^ 2047 + 1, 4096, true, true⟩), (2, ⟨2 ^ 2047 + 3, 4096, true, true⟩)]

theorem witness_ModularCommands :
    (∃ (s : State) (n : Nat) (q : BitVec 4) (m : Modul), (s.engine n).modul q = some m ∧ m.valid = true ∧ m.full = false ∧
      (s.engine n).word 1 = 0 ∧ (s.engine n).word 1 < m.m ∧ 2 ^ m.len ≤ (s.engine n).word 2) ∧
    (∃ (s : State) (n : Nat) (q : BitVec 4) (m : Modul), (s.engine n).modul q = some m ∧ m.valid = true ∧ m.full = false ∧
      (s.engine n).word 1 = m.m - 1 ∧ (s.engine n).word 1 < m.m ∧ (s.engine n).word 2 < m.m) ∧
    (∃ (s : State) (n : Nat) (q : BitVec 4) (m : Modul) (off len : Half), (s.engine n).modul q = some m ∧ m.valid = true ∧
      len.toNat = 2 * m.cls ∧ off.toNat + len.toNat ≤ 4096 ∧ off.toNat + 63 ≤ 4096) ∧
    (∃ (s : State) (n : Nat) (q : BitVec 4) (m : Modul), (s.engine n).modul q = some m ∧ m.valid = true ∧ m.m ≤ (s.engine n).word 1) :=
  ⟨⟨standing 0 0 (2 ^ 256) [], 0, 0, _, rfl, by decide +kernel⟩, ⟨standing 0 (p256 - 1) 5 [], 0, 0, _, rfl, by decide +kernel⟩,
   ⟨standing 0 0 0 [], 0, 0, _, 3584, 512, rfl, by decide +kernel⟩, ⟨standing 0 p256 0 [], 0, 0, _, rfl, by decide +kernel⟩⟩

theorem witness_EngineModuli :
    (∃ (q : BitVec 4) (cls : BitVec 2), 12 ≤ q.toNat ∧ cls ≠ 3) ∧
    (∃ (s : State) (n : Nat) (q : BitVec 4) (f p r : Modul), (s.engine n).crtPrimes q = some (f, p, r) ∧ f.valid = true ∧ p.valid = true ∧
      r.valid = true ∧ (s.engine n).word 1 < f.m ∧ (s.engine n).word 2 % 2 ^ 2048 < 2 ^ p.len ∧ (s.engine n).word 2 / 2 ^ 2048 < 2 ^ r.len) ∧
    (∃ (s : State) (n : Nat), (s.engine n).state = .running ∧ 511 < (s.engine n).pc) ∧
    (∃ (s : State) (n : Nat), (s.engine n).state = .running ∧ assignedCommand ((s.engine n).cmds.get (s.engine n).pc 0) = false) ∧
    (∃ (s : State) (n : Nat), (s.engine n).state = .scrub ∧ s.engineRepeats n = false) :=
  ⟨⟨12, 2, by decide⟩, ⟨standing 0 1 1 mods0, 0, 12, _, _, _, rfl, rfl, rfl, rfl, by decide +kernel, by decide +kernel, by decide +kernel⟩,
   ⟨{ up with engines := [(0, { state := .running, pc := 512 })] }, 0, by decide⟩, ⟨standing (BitVec.allOnes 64) 0 0 [], 0, by decide +kernel⟩,
   ⟨{ up with engines := [(0, { state := .scrub })] }, 0, by decide⟩⟩


/-! Operations: the program of a job stands at its ENTRY. -/

/-- `on` whose job is of an operation. -/
def entered (code : Nat) : State :=
  { on {} {} 0 with
    jobs := [(0, { job0 with desc := { opcode := code } })]
    boot := { tilth := some { extensions := [(0xF000, {})] } } }

theorem entered_sound (code : Nat) : (entered code).Sound := by constructor <;> first | decide | rfl

/-- Codes with the kinds of their operations. -/
def opCodes : List (Nat × OpKind) :=
  [(0x100, .mctp), (0x1110, .kemKeygen), (0x1111, .kemEncaps), (0x1112, .kemDecaps), (0x1210, .dsaKeygen),
   (0x1211, .dsaSign true false), (0x1212, .dsaSign false false), (0x1213, .dsaSign true true), (0x1214, .dsaSign false true), (0x1215, .dsaVerify false),
   (0x1216, .dsaVerify true), (0x1310, .fnKeygen), (0x1311, .fnSign false), (0x1313, .fnSign true), (0x1315, .fnVerify false),
   (0x1316, .fnVerify true), (0x1411, .compSign), (0x1415, .compVerify), (0x2110, .slhKeygen), (0x2111, .slhSign true false),
   (0x2112, .slhSign false false), (0x2113, .slhSign true true), (0x2114, .slhSign false true), (0x2115, .slhVerify false), (0x2116, .slhVerify true),
   (0x2210, .hssKeygen), (0x2211, .hssSign), (0x2215, .hssVerify), (0x2216, .lmsVerify), (0x2310, .xmssKeygen),
   (0x2311, .xmssSign), (0x2315, .xmssVerify), (0x2316, .xmssMtVerify), (0x3110, .hqcKeygen), (0x3111, .hqcEncaps),
   (0x3112, .hqcDecaps), (0x3211, .mceEncaps), (0x3212, .mceDecaps), (0x4110, .ecdsaKeygen), (0x4111, .ecdsaSign false),
   (0x4112, .ecdsaSign true), (0x4115, .ecdsaVerify false), (0x4116, .ecdsaVerify true), (0x4210, .eddsaKeygen), (0x4211, .eddsaSign),
   (0x4215, .eddsaVerify), (0x4310, .kaKeygen), (0x4312, .kaDerive), (0x4411, .pssSign), (0x4413, .oaepDecrypt),
   (0x4414, .oaepEncrypt), (0x4415, .pssVerify), (0x4416, .v15Verify), (0x5110, .hash), (0x5210, .hmac false),
   (0x5211, .hmac true), (0x5310, .kmac false), (0x5311, .kmac true), (0x5410, .aes false), (0x5411, .aes true),
   (0x5510, .tdes false), (0x5511, .tdes true), (0x5610, .cmac false), (0x5611, .cmac true), (0x5710, .wrap false),
   (0x5711, .wrap true), (0x6110, .pinTranslate), (0x6111, .pinCompare), (0x6210, .mac3 false), (0x6211, .mac3 true),
   (0x6310, .dukptInitial), (0x6311, .dukptPin), (0x6312, .dukptCmac false), (0x6313, .dukptCmac true), (0x6410, .blockImport),
   (0x6411, .blockExport), (0x7100, .random false), (0x7101, .random true), (0x7200, .entropy), (0x8100, .slotPrepare),
   (0x8200, .symGenerate), (0x8300, .importPublic), (0x8301, .importWrapped), (0x8302, .importBlob), (0x8400, .exportBlob),
   (0x8500, .derive), (0x8600, .readPublic), (0x9100, .ctxOpen), (0x9101, .ctxStep), (0x9102, .ctxClose),
   (0x9103, .ctxDiscard),
   (0xF000, .extension)]

/-- Every kind of operation has a job whose program stands at its ENTRY; the premises of `Produces`, of `EngineProduces` and of
`ImportProduces` for an import without an engine are met there. -/
theorem witness_Operations :
    (∀ x ∈ opCodes, ∃ (s : State) (j g : Nat) (job : Job), s.opReady j (fun k => decide (k = x.2)) = some (job, g) ∧
      SeedReq.entropy j ∉ s.rng.waiting ∧ (s.grain g).expander.delivered = 0 ∧
      (s.engine ((s.grain g).x 1).toNat).state ≠ .test ∧ (s.engine ((s.grain g).x 1).toNat).openTo j = true) ∧
    (∀ code, (entered code).Sound) ∧ (∀ code, ∀ n e, (n, e) ∈ (entered code).engines → 0 ∉ e.assigned) ∧
    (entered 0xF000).engineBusy 0 = false :=
  ⟨fun x h => ⟨entered x.1, 0, 0, { job0 with desc := { opcode := x.1 } }, by
      revert x h
      decide +kernel, List.not_mem_nil, rfl, (by decide : EState.idle ≠ .test), (by decide : ({} : Engine).openTo 0 = true)⟩, entered_sound, fun code n e h => (by cases h), by decide⟩

/-- An import whose placement found an engine. -/
theorem witness_ImportWithEngine :
    ∃ (s : State) (n : Nat) (e : Engine), s.Sound ∧ (n, e) ∈ s.engines ∧ 0 ∈ e.assigned ∧ e.state ≠ .test ∧ e.openTo 0 = true ∧
      s.opReady 0 (fun k => decide (k = .importWrapped)) = some ({ job0 with desc := { opcode := 0x8301 } }, 0) :=
  ⟨{ entered 0x8301 with engines := [(0, { assigned := [0] })] }, 0, { assigned := [0] }, by constructor <;> decide,
   .head _, .head _, by decide, by decide, by decide +kernel⟩

theorem witness_Mctp :
    ∃ (s : State) (j : Nat) (job : Job), s.job j = some job ∧ s.kindOf job = .mctp ∧ job.stage = .execute ∧ job.held = false ∧
      s.power.holdActive = false :=
  ⟨entered 0x100, 0, { job0 with desc := { opcode := 0x100 } }, rfl, by decide, rfl, rfl, rfl⟩

/-- A signature block of zeros with empty HSS parts. -/
def blockZ : List Byte := List.replicate (2592 + 4 + 0 + 4627 + 4) 0

/-- The key pair of `blockZ`. -/
def blockDigest : List Byte := sha3_256 (List.replicate 2592 0 ++ [])

/-- The vendor's request from the owner's state to SCRAPPED, signed by image key 4. -/
def lcRequest0 : List Byte :=
  ascii "IXLT" ++ leBytes 2 1 ++ [1, 4] ++ leBytes 4 (lcCode .owned) ++ leBytes 4 (lcCode .scrapped) ++ List.replicate 0xB0 0 ++ blockZ

/-- An unlock request signed by image key 4. -/
def unlock0 : List Byte := ascii "IXUL" ++ leBytes 2 1 ++ [4] ++ List.replicate 0x39 0 ++ blockZ

/-- A locked device in OWNED. -/
def locked0 : State :=
  { State.reset with
    power := { phase := .lockService }, tamper := { locked := true }, life := { state := .owned }, boot := { keys := [(4, blockDigest)] } }

theorem block_ok (hsig : ∀ a b c d, Config.sigOk a b c d = true) (m : List Byte) :
    (SigBlock.mk (List.replicate 2592 0) [] (List.replicate 4627 0) []).ok blockDigest m = true := by
  simp only [SigBlock.ok, mlOk, hsig, blockDigest, Bool.and_true, decide_true]

theorem block_parses (pre : List Byte) (n : Nat) (h : pre.length = n) :
    parseSigBlock ((pre ++ blockZ).drop n) = some ⟨List.replicate 2592 0, [], List.replicate 4627 0, []⟩ := by
  rw [List.drop_left' h]
  have h1 : field blockZ 2592 4 = 0 := by decide +kernel
  have h2 : field blockZ 7223 4 = 0 := by decide +kernel
  have h3 : blockZ.length = 7227 := List.length_replicate
  have h4 : blockZ.take 2592 = List.replicate 2592 0 := List.take_replicate
  have h5 : slice blockZ 2596 4627 = List.replicate 4627 0 :=
    (congrArg (List.take 4627) List.drop_replicate).trans List.take_replicate
  have h6 : blockZ.drop 7227 = [] := List.drop_eq_nil_of_le (Nat.le_of_eq h3)
  simp only [parseSigBlock, h1, h3, Nat.reduceAdd, h2, Nat.add_zero, if_true, h4, h5, h6]
  rfl
theorem lc_ok (hsig : ∀ a b c d, Config.sigOk a b c d = true) : locked0.lcVerdict lcRequest0 = Status.ok := by
  have h1 : locked0.lcFormat lcRequest0 = true := by decide +kernel
  have h2 : field lcRequest0 6 1 = 1 := by decide +kernel
  have h3 : field lcRequest0 7 1 = 4 := by decide +kernel
  have h4 : locked0.keyLive 4 = true := by decide +kernel
  have h5 : parseSigBlock (lcRequest0.drop 0xC0) = some ⟨List.replicate 2592 0, [], List.replicate 4627 0, []⟩ :=
    block_parses _ _ (by decide +kernel)
  have h6 : locked0.boot.keys.get 4 [] = blockDigest := rfl
  unfold State.lcVerdict
  simp only [h1, h2, h3, h4, h5, h6, block_ok hsig, decide_true, Bool.not_true, Bool.and_false, if_true, Bool.false_eq_true, if_false]
theorem unlock_ok (hsig : ∀ a b c d, Config.sigOk a b c d = true) : locked0.unlockVerdict unlock0 = Status.ok := by
  have h5 : parseSigBlock (unlock0.drop 0x40) = some ⟨List.replicate 2592 0, [], List.replicate 4627 0, []⟩ :=
    block_parses _ _ (by decide +kernel)
  have h6 : locked0.boot.keys.get 4 [] = blockDigest := rfl
  have h2 : field unlock0 6 1 = 4 := by decide +kernel
  have h4 : locked0.keyLive 4 = true := by decide +kernel
  have h1 : ¬(unlock0.take 4 ≠ ascii "IXUL" ∨ field unlock0 4 2 ≠ 1 ∨ !zeros unlock0 7 9 ∨ !zeros unlock0 0x24 28 ∨
      !(decide (4 ≤ 4 ∧ 4 ≤ 7)) ∨ locked0.tamper.saturated ∨
        slice unlock0 0x10 16 ≠ leBytes 16 locked0.uid ∨ field unlock0 0x20 4 ≠ locked0.tamper.count) := by decide +kernel
  have h7 : locked0.life.state = .owned := rfl
  unfold State.unlockVerdict
  simp only [h5, h6, h2, h4, h7, block_ok hsig]
  rw [if_neg h1]
  rfl
theorem witness_SignedRequests (hsig : ∀ a b c d, Config.sigOk a b c d = true) :
    (∃ (s : State) (v : Via) (req : List Byte) (cut : Option Bool), s.power.phase ∈ [Phase.factory, .fallow, .lockService] ∧ s.takesDirect req = true ∧ s.lcVerdict req = Status.ok ∧ (((s.modLife fun l => { l with request := some req }).send v (.service v Status.ok [])).transition req cut).power.phase ≠ .unpowered) ∧
    (∃ (s : State) (v : Via) (req : List Byte) (cut : Option Bool), s.power.phase ∈ [Phase.factory, .fallow, .lockService] ∧ s.takesDirect req = true ∧ s.lcVerdict req = Status.ok ∧ (((s.modLife fun l => { l with request := some req }).send v (.service v Status.ok [])).transition req cut).power.phase = .unpowered) ∧
    (∃ (s : State) (req : List Byte), s.power.phase = .lockService ∧ s.unlockVerdict req = Status.ok) :=
  ⟨⟨locked0, ⟨.i3c, none⟩, lcRequest0, none, by decide, by decide +kernel, lc_ok hsig, by decide +kernel⟩,
   ⟨locked0, ⟨.i3c, none⟩, lcRequest0, some false, by decide, by decide +kernel, lc_ok hsig, by decide +kernel⟩,
   ⟨locked0, unlock0, rfl, unlock_ok hsig⟩⟩

/-- A manifest of no blocks for an HSS platform key. -/
def manifest0 : List Byte :=
  ascii "IXHM" ++ leBytes 2 1 ++ [1] ++ List.replicate 9 0 ++ leBytes 4 0x40 ++ leBytes 4 8 ++ List.replicate 0x28 0 ++ List.replicate 8 0

theorem manifest_ok (hsig : ∀ a b c d, Config.sigOk a b c d = true) (s : State) (h : s.tilth.platformKeys[0]? = some (sha3_256 [])) :
    s.manifestOk manifest0 = true := by
  have h1 : field manifest0 7 1 = 0 := by decide +kernel
  have h2 : field manifest0 6 1 = 1 := by decide +kernel
  have h3 : slice manifest0 (field manifest0 0x10 4) (field manifest0 0x14 4) = List.replicate 8 0 := by decide +kernel
  have h4 : decide ((List.replicate 8 (0 : Byte)).length = 8 + field (List.replicate 8 (0 : Byte)) 0 4 + field (List.replicate 8 (0 : Byte)) (4 + field (List.replicate 8 (0 : Byte)) 0 4) 4) = true := by decide +kernel
  have h5 : slice (List.replicate 8 (0 : Byte)) 4 (field (List.replicate 8 (0 : Byte)) 0 4) = [] := by decide +kernel
  simp only [State.manifestOk, h1, h, h2, h3, manifestSigned, h5, hsig, decide_true, if_true, Bool.and_true, of_decide_eq_true h4, and_self]

/-- A channel that serves and takes configuration commands. -/
theorem witness_ManifestsAndDummies (hsig : ∀ a b c d, Config.sigOk a b c d = true) (hd : ∀ a b c, Config.configDummy a b c = some 0)
    (hm : ∀ a b c, Config.configMode a b c = none) :
    (∃ (s : State) (c : Nat) (m : List Byte), s.preparing c = true ∧ (s.chan c).manifest = [] ∧ s.manifestFormat c m = true ∧ s.manifestOk m = true) ∧
    (∃ (s : State) (c : Nat) (code : Half) (a : Nat) (data : List Byte) (t : State), s.takesClass c code 4 = true ∧
      s.sieve c code a data.length = (t, false) ∧ t.fewDummies c (code.toNat % 256) a data = true) :=
  ⟨⟨{ up with boot := { tilth := some { platformKeys := [sha3_256 []] } }, pgd := { chans := [(1, { state := .verifying })] } }, 1, manifest0,
      by decide, by decide, by decide +kernel, manifest_ok hsig _ rfl⟩,
   ⟨up, 1, 0xB7, 0, [1], up, by decide, rfl, by
      simp only [State.fewDummies, hd, hm]
      decide⟩⟩

/-- The responder's connection 0 has settled its algorithms; session 5 is open. -/
def spdm0 (x : Session) : State :=
  { up with vault := { aliasKey := true }, spdm := { conns := [(0, { phase := 3 })], sessions := [(5, x)] } }

theorem witness_Handshakes (hsig : ∀ a b c d, Config.sigOk a b c d = true) (hcert : ∀ a b, Config.certChain a b = [0])
    (hhead : Config.certificateHeader = 8) (hmac : ∀ b, Config.finishMac b [] = true ∧ Config.finishMac b [0] = false)
    (hsub : ∀ a, Config.certifies a [] = true) :
    (∃ (s : State) (v : Via) (off len : Nat), s.viaLive v = true ∧ s.viaKnown v = true ∧ s.power.phase = .gateOpen ∧ 3 ≤ (s.conn v).phase ∧
      off < (s.markStarted v).chain0.length ∧ Config.certificateHeader + (slice (s.markStarted v).chain0 off (min len ((s.markStarted v).chain0.length - off))).length ≤ 8192) ∧
    (∃ (s : State) (v : Via) (n : Nat) (y : Session) (chain : Option Chain) (sig mac : List Byte), s.viaLive v = true ∧ s.viaKnown v = true ∧
      s.power.phase = .gateOpen ∧ 3 ≤ (s.conn v).phase ∧ (s.markStarted v).spdm.sessions.find? n = some y ∧ y.transport = v.transport ∧
      y.established = false ∧ finishOk y chain sig mac = true) ∧
    (∃ (s : State) (v : Via) (n : Nat) (y : Session) (chain : Option Chain) (sig mac : List Byte), s.viaLive v = true ∧ s.viaKnown v = true ∧
      s.power.phase = .gateOpen ∧ 3 ≤ (s.conn v).phase ∧ (s.markStarted v).spdm.sessions.find? n = some y ∧ y.transport = v.transport ∧
      y.established = false ∧ finishOk y chain sig mac = false) ∧
    (∃ (s : State) (v : Via) (chain : List Byte), s.viaLive v = true ∧ s.viaKnown v = true ∧ s.power.phase = .gateOpen ∧ 3 ≤ (s.conn v).phase ∧
      (s.markStarted v).managerVia v = true ∧ Config.certifies (s.markStarted v).deviceId chain = true) ∧
    (∃ (s : State) (x : Session) (k : Chain), x.chain = some k ∧ x.started = false ∧ s.managerChain k = true) :=
  ⟨⟨spdm0 { transport := .vdm 0 }, ⟨.vdm 0, none⟩, 0, 1, by decide, by decide, by decide, by decide, by
      simp only [State.chain0, hcert]
      decide, by
      simp only [State.chain0, hcert, hhead]
      decide⟩,
   ⟨spdm0 { transport := .vdm 0 }, ⟨.vdm 0, none⟩, 5, { transport := .vdm 0 }, none, [], [], by decide, by decide, by decide, by decide, rfl, rfl, rfl, by
      simp only [finishOk, (hmac _).1, Bool.true_and]⟩,
   ⟨spdm0 { transport := .vdm 0 }, ⟨.vdm 0, none⟩, 5, { transport := .vdm 0 }, none, [], [0], by decide, by decide, by decide, by decide, rfl, rfl, rfl, by
      simp only [finishOk, (hmac _).2, Bool.false_and]⟩,
   ⟨spdm0 { transport := .vdm 0, established := true, manager := true }, ⟨.vdm 0, some 5⟩, [], by decide, by decide, by decide, by decide, by decide, hsub _⟩,
   ⟨{ up with boot := { keys := [(0, sha3_256 [])] }, life := { state := .owned } }, { transport := .i3c, chain := some ⟨[], [], []⟩ }, ⟨[], [], []⟩, rfl, rfl, by decide +kernel⟩⟩

/-- A member of a domain of generation 1 in slots 4 and 5. -/
def member0 (join : Option Join) : State :=
  { up with
    uncel := { addr := some 3, gen := 1, join := join }
    vault := { aliasKey := true, slots := [(4, { system := true, state := .loaded, secret := [0] }), (5, { system := true })] }
    boot := { gateOpen := true, tilth := some { uncel := { slotCur := 4, slotPrev := 5 } } } }

/-- An authenticated frame of generation 1 with a body of `n - 28` zero bytes, under the key `[]`. -/
def sealed0 (type n : Nat) : Frame :=
  let f : Frame := ⟨3, 9, type, 0, 0, []⟩
  let plain := leBytes 4 1 ++ List.replicate (n - 20) 0
  { f with payload := plain ++ frameTag [] { f with payload := plain ++ List.replicate 16 0#8 } }

theorem sealed0_length (type n : Nat) (h : 20 ≤ n) : (sealed0 type n).payload.length = n := by
  simp [sealed0, frameTag, kmac_length]
  omega

theorem sealed0_gen (type n : Nat) : (sealed0 type n).gen = 1 := by
  simp [sealed0, Frame.gen, field, slice, leBytes, leNat]

theorem sealed0_parses (type n : Nat) (ht : type < 256) (h : 20 ≤ n) (hn : n ≤ 256) :
    parseFrame (sealed0 type n).bytes = some (sealed0 type n) :=
  parseFrame_bytes _ (show 3 < 65536 by decide) (show 9 < 65536 by decide) ht (show 0 < 256 by decide) (show 0 < 65536 by decide)
    (by rw [sealed0_length _ _ h]; exact hn)

theorem member0_owner (j : Option Join) : (member0 j).ownerHash = List.replicate 32 0 := rfl

theorem sealed0_addressed (type n : Nat) : (member0 none).addressed false (sealed0 type n) = true := by
  simp [State.addressed, member0, sealed0, addrBits]

theorem sealed0_ok (hdom : ∀ a b c, Config.domainKey a b c = []) (type n : Nat) :
    ((member0 none).forward false (sealed0 type n)).tick.frameOk (sealed0 type n) = true := by
  have h2 : frameTag [] (sealed0 type n) = (sealed0 type n).payload.drop ((sealed0 type n).payload.length - 16) :=
    frameTag_sealed [] ⟨3, 9, type, 0, 0, []⟩ _
  have h3 : (member0 none).removes false (sealed0 type n) = true := by
    simp [State.removes, sealed0_addressed]
  have h4 : (member0 none).injects false (sealed0 type n) = false := rfl
  have h5 : (member0 none).forward false (sealed0 type n) = member0 none := by
    simp only [State.forward, h3, h4, Bool.false_eq_true, if_false, true_or, if_true]
  have h6 : ∀ gen, (member0 none).tick.frameKey gen = ((member0 none).domainSecret gen).map fun _ => [] := by
    intro gen
    simp only [State.frameKey, hdom]
    rfl
  have h7 : (member0 none).domainSecret 1 = some [0] := rfl
  rw [h5]
  simp only [State.frameOk, h6, sealed0_gen, h7, Option.map_some, h2, decide_true]
  rfl

theorem sealed0_arrives (type n : Nat) (ht : type < 256) (h : 20 ≤ n) (hn : n ≤ 256) :
    Arrives (member0 none) false (sealed0 type n).bytes (sealed0 type n) :=
  ⟨rfl, sealed0_parses type n ht h hn, rfl, .inl (sealed0_addressed type n)⟩

theorem witness_DomainFrames (hdom : ∀ a b c, Config.domainKey a b c = []) :
    ∀ x ∈ [(0x20, 32), (0x21, 34), (0x40, 32), (0x50, 36)],
      ∃ (s : State) (b : Bool) (bytes : List Byte) (f : Frame), Arrives s b bytes f ∧ f.type = x.1 ∧ f.payload.length = x.2 ∧
        s.power.phase = .gateOpen ∧ (s.forward b f).tick.frameOk f = true := by
  intro x hx
  have h : x.1 < 256 ∧ 20 ≤ x.2 ∧ x.2 ≤ 256 := by
    simp only [List.mem_cons, List.not_mem_nil, or_false] at hx
    rcases hx with rfl | rfl | rfl | rfl <;> decide
  exact ⟨member0 none, false, _, sealed0 x.1 x.2, sealed0_arrives _ _ h.1 h.2.1 h.2.2, rfl, sealed0_length _ _ h.2.1, rfl,
    sealed0_ok hdom x.1 x.2⟩

theorem join_ok (hsig : ∀ a b c d, Config.sigOk a b c d = true) (hchain : ∀ a, Config.chainOk a = true) (j : Option Join) (m : List Byte) :
    (member0 j).joinParty [] (List.replicate 32 0) m [] = true := by
  simp only [State.joinParty, hchain, mlOk, hsig, member0_owner, decide_true, Bool.and_self]

theorem witness_Joins (hsig : ∀ a b c d, Config.sigOk a b c d = true) (hchain : ∀ a, Config.chainOk a = true)
    (hjoin : ∀ a, Config.joinSecret a [] = some [] ∧ Config.joinSecret a [0] = none) :
    (∃ (s : State) (ek chain owner signature secret : List Byte), s.domainSecret s.uncel.gen = some secret ∧ s.power.phase = .gateOpen ∧
      s.vault.aliasKey = true ∧ s.joinParty chain owner (ek ++ chain ++ owner) signature = true) ∧
    (∃ (s : State) (x : Join) (answer chain owner signature secret : List Byte), s.uncel.join = some x ∧ s.power.phase = .gateOpen ∧
      Config.joinSecret x.dk answer = some secret ∧ s.joinParty chain owner (answer ++ chain ++ owner) signature = true ∧
      s.domainSlots = true ∧ s.heldGen < x.generation) ∧
    (∃ (s : State) (x : Join) (answer : List Byte), s.uncel.join = some x ∧ s.power.phase = .gateOpen ∧ Config.joinSecret x.dk answer = none) :=
  ⟨⟨member0 none, [], [], List.replicate 32 0, [], [0], rfl, rfl, rfl, join_ok hsig hchain _ _⟩,
   ⟨member0 (some ⟨9, 2, []⟩), ⟨9, 2, []⟩, [], [], List.replicate 32 0, [], [], rfl, rfl, (hjoin _).1, join_ok hsig hchain _ _, by decide, by decide⟩,
   ⟨member0 (some ⟨9, 2, []⟩), ⟨9, 2, []⟩, [0], rfl, rfl, (hjoin _).2⟩⟩

/-! Requests whose outcome rests on a signature, a domain key or the owner's sieve fields. -/

/-- An image of two empty sections, signed by image key 4. -/
def image0 : List Byte :=
  ascii "IXSE" ++ leBytes 2 1 ++ leBytes 2 0 ++ leBytes 4 128 ++ leBytes 4 7227 ++ leBytes 4 0 ++ [0, 4] ++ leBytes 2 2 ++ List.replicate 40 0 ++
  leBytes 4 1 ++ leBytes 4 128 ++ List.replicate 8 0 ++ leBytes 4 2 ++ leBytes 4 128

/-- A region that holds `image0`; the bytes behind it are 0. -/
def imageRegion : Region := { page := { state := .writing }, bytes := (image0.zipIdx.filter fun x => x.1 ≠ 0).map fun x => (x.2, x.1) }

/-- A manager installs `image0` in slot B. -/
def installing0 : State :=
  { managed with
    life := { state := .owned }
    boot := { gateOpen := true, keys := [(4, blockDigest)], install := some ⟨1, 7355⟩, regions := [(1, imageRegion)] } }

theorem image_ok (hsig : ∀ a b c d, Config.sigOk a b c d = true) : (installing0.markStarted viaManager).commitVerdict 1 7355 = Status.ok := by
  have hh : imageRegion.header 1 = some ⟨0, 128, 7227, 0, 0, 4, 0, [⟨1, 128, 0⟩, ⟨2, 128, 0⟩]⟩ := by decide +kernel
  have hr : (installing0.markStarted viaManager).region 1 = imageRegion := rfl
  have hk : (installing0.markStarted viaManager).boot.keys.get 4 [] = blockDigest := rfl
  have hf : imageFormat ⟨0, 128, 7227, 0, 0, 4, 0, [⟨1, 128, 0⟩, ⟨2, 128, 0⟩]⟩ (imageRegion.read 0 7355) (decide (1 = 2)) = true := by decide +kernel
  have hv : decide ((installing0.markStarted viaManager).boot.svnFloor ≤ 0) = true := by decide +kernel
  have hu : (installing0.markStarted viaManager).uidOk 0 = true := by decide +kernel
  have ho : (installing0.markStarted viaManager).signerOk 1 4 = true := by decide +kernel
  have hb : parseSigBlock (slice (imageRegion.read 0 7355) 128 7227) = some ⟨List.replicate 2592 0, [], List.replicate 4627 0, []⟩ := by
    have e : slice (imageRegion.read 0 7355) 128 7227 = ([] ++ blockZ).drop 0 := by
      have a : (slice (imageRegion.read 0 7355) 128 7227).all (fun x => decide (x = 0)) = true := by decide +kernel
      refine List.eq_replicate_iff.2 ⟨?_, fun x hx => of_decide_eq_true (List.all_eq_true.1 a x hx)⟩
      simp [slice, Region.read]
    rw [e]
    exact block_parses [] 0 rfl
  have hs : (installing0.markStarted viaManager).signaturesOk 1 ⟨0, 128, 7227, 0, 0, 4, 0, [⟨1, 128, 0⟩, ⟨2, 128, 0⟩]⟩ (imageRegion.read 0 7355) = true := by
    simp only [State.signaturesOk, hb, hk, block_ok hsig]
  have ht : isTilth 1 = false := rfl
  simp only [State.commitVerdict, hr, hh, ht, hf, hv, hu, ho, hs, ImgHeader.sealedLen]
  simp

def delivery0 : Delivery := ⟨1, 2, 72, manifest0.zipIdx.map fun x => (x.2, x.1)⟩

/-- A manager's signed delivery to a channel. -/
def delivered0 (st : ChanState) : State :=
  { managed with
    boot := { gateOpen := true, tilth := some { platformKeys := [sha3_256 []] } }
    pgd := { chans := [(1, { state := st })], delivery := some delivery0 } }

/-- The premises of a commit on the bytes of a delivery. -/
def deliveredOk (t : State) (d : Delivery) : Prop :=
  let b := (List.range d.len).map fun i => d.bytes.get i 0
  let n := field b 0x10 4 + field b 0x14 4
  t.manifestFormat d.channel (b.take n) = true ∧ d.len = n + 4096 * (t.plan d.channel).blocks ∧ t.manifestOk (b.take n) = true ∧
  imageMatches (manifestDigests (b.take n)) (b.drop n) = true

theorem delivered_ok (hsig : ∀ a b c d, Config.sigOk a b c d = true) (st : ChanState) :
    deliveredOk ((delivered0 st).markStarted viaManager) delivery0 := by
  have hb : (List.range delivery0.len).map (fun i => delivery0.bytes.get i 0) = manifest0 := by decide +kernel
  have hl : delivery0.len = 72 := rfl
  have hd : delivery0.channel = 1 := rfl
  have hn : field manifest0 0x10 4 + field manifest0 0x14 4 = 72 := by decide +kernel
  have ht : manifest0.take 72 = manifest0 := by decide +kernel
  have hi : imageMatches (manifestDigests manifest0) (manifest0.drop 72) = true := by decide +kernel
  have hp : (((delivered0 st).markStarted viaManager).plan 1).blocks = 0 := rfl
  have hf : ((delivered0 st).markStarted viaManager).manifestFormat 1 manifest0 = true := by cases st <;> decide +kernel
  have hk := manifest_ok hsig ((delivered0 st).markStarted viaManager) rfl
  unfold deliveredOk
  rw [hb]
  dsimp only
  rw [hn, ht, hd, hl]
  exact ⟨hf, by rw [hp], hk, hi⟩

/-- A manager of a domain member with a quiesced tenant. -/
def migrating0 : State :=
  { member0 none with
    spdm := { sessions := [(5, manager0)] }
    tenants := [(1, { tenant0 with state := .quiesced })] }

/-- An empty blob of generation 1. -/
def blobHead : List Byte := ascii "IXMG" ++ leBytes 2 1 ++ List.replicate 26 0 ++ leBytes 4 1 ++ List.replicate 28 0
def blob0 (key : List Byte) : List Byte := blobHead ++ gcmTag key (List.replicate 12 0) blobHead []

theorem blob_read (hdom : ∀ a b c, Config.domainKey a b c = List.replicate 32 0) :
    (migrating0.markStarted viaManager).readMigration (blob0 (List.replicate 32 0)) = some ⟨[], [], []⟩ := by
  have hk : (migrating0.markStarted viaManager).migrationKey 1 = some (List.replicate 32 0) := by
    have h : (migrating0.markStarted viaManager).domainSecret 1 = some [0] := rfl
    simp only [State.migrationKey, h, hdom, Option.map_some]
  have hf : field (blob0 (List.replicate 32 0)) 0x20 4 = 1 := by decide +kernel
  have h6 : field (blob0 (List.replicate 32 0)) 6 2 = 0 := by decide +kernel
  have h8 : field (blob0 (List.replicate 32 0)) 8 2 = 0 := by decide +kernel
  have hA : field (blob0 (List.replicate 32 0)) 0xA 2 = 0 := by decide +kernel
  have hc : (blob0 (List.replicate 32 0)).take 4 = ascii "IXMG" ∧ field (blob0 (List.replicate 32 0)) 4 2 = 1 ∧ (blob0 (List.replicate 32 0)).length = 0x50 ∧
      gcmTag (List.replicate 32 0) (slice (blob0 (List.replicate 32 0)) 0x24 12) ((blob0 (List.replicate 32 0)).take 0x40)
        (slice (blob0 (List.replicate 32 0)) 0x40 0) = (blob0 (List.replicate 32 0)).drop ((blob0 (List.replicate 32 0)).length - 16) := by decide +kernel
  simp only [State.readMigration, hf, hk, h6, h8, hA, Nat.mul_zero, Nat.add_zero]
  rw [if_neg (by simp only [hc, ne_eq, not_true_eq_false, or_self, not_false_eq_true])]
  rfl

/-- A bridge with a ceremony open, `n` approvals needed. -/
def ceremony0 (n : Nat) : State :=
  { managed with
    boot := { gateOpen := true, tilth := some { uncel := { officers := [[]], approvals := n } } }
    uncel := { addr := some 3, ceremony := some { id := 1, request := .resume 1 } } }

/-- A manager session over an owner's device with key 4. -/
def owned0 : State := { managed with life := { state := .owned }, boot := { gateOpen := true, keys := [(4, blockDigest)] } }

/-- The vendor's request verifies in every state of OWNED that holds its key. -/
theorem lc_ok2 (hsig : ∀ a b c d, Config.sigOk a b c d = true) :
    State.lcVerdict (owned0.markStarted viaManager)
      lcRequest0 = Status.ok := by
  have h1 : State.lcFormat (owned0.markStarted viaManager)
      lcRequest0 = true := by decide +kernel
  have h2 : field lcRequest0 6 1 = 1 := by decide +kernel
  have h3 : field lcRequest0 7 1 = 4 := by decide +kernel
  have h4 : State.keyLive (owned0.markStarted viaManager) 4 = true := by
    decide +kernel
  have h5 : parseSigBlock (lcRequest0.drop 0xC0) = some ⟨List.replicate 2592 0, [], List.replicate 4627 0, []⟩ :=
    block_parses _ _ (by decide +kernel)
  have h6 : (owned0.markStarted viaManager).boot.keys.get 4 [] = blockDigest := rfl
  unfold State.lcVerdict
  simp only [h1, h2, h3, h4, h5, h6, block_ok hsig, decide_true, Bool.not_true, Bool.and_false, if_true, Bool.false_eq_true, if_false]

theorem witness_ManagerOpaque (hsig : ∀ a b c d, Config.sigOk a b c d = decide (d = [0])) :
    (∃ (s : State) (v : Via) (i g o : Nat) (sig : List Byte) (x : Ceremony) (key : List Byte), Asked s v (.ceremonyApprove i g o sig) (fun t =>
      g = t.ownAddr ∧ t.uncel.ceremony = some x ∧ x.id = i ∧ t.tilth.uncel.officers[o]? = some key ∧ mlOk key (t.officerMessage x) sig = false)) ∧
    (∃ (s : State) (v : Via) (i g o : Nat) (sig : List Byte) (x : Ceremony) (key : List Byte), Asked s v (.ceremonyApprove i g o sig) (fun t =>
      g = t.ownAddr ∧ t.uncel.ceremony = some x ∧ x.id = i ∧ t.tilth.uncel.officers[o]? = some key ∧ mlOk key (t.officerMessage x) sig = true ∧
      (o ∉ x.officers) ∧ x.officers.length + 1 < t.tilth.uncel.approvals)) ∧
    (∃ (s : State) (v : Via) (i g o : Nat) (sig : List Byte) (x : Ceremony) (key : List Byte), Asked s v (.ceremonyApprove i g o sig) (fun t =>
      g = t.ownAddr ∧ t.uncel.ceremony = some x ∧ x.id = i ∧ t.tilth.uncel.officers[o]? = some key ∧ mlOk key (t.officerMessage x) sig = true ∧
      (o ∉ x.officers) ∧ t.tilth.uncel.approvals ≤ x.officers.length + 1)) := by
  have h0 : ∀ a b c, Config.sigOk a b c [] = false := fun a b c => by rw [hsig]; rfl
  have h1 : ∀ a b c, Config.sigOk a b c [0] = true := fun a b c => by rw [hsig]; rfl
  exact
   ⟨⟨ceremony0 2, viaManager, 1, 3, 0, [], { id := 1, request := .resume 1 }, [], 5, manager0, by decide, rfl, rfl, rfl, rfl, rfl, rfl, by decide, by decide,
      by decide, rfl, rfl, rfl, by simp only [mlOk, h0]⟩,
    ⟨ceremony0 2, viaManager, 1, 3, 0, [0], { id := 1, request := .resume 1 }, [], 5, manager0, by decide, rfl, rfl, rfl, rfl, rfl, rfl, by decide, by decide,
      by decide, rfl, rfl, rfl, by simp only [mlOk, h1], by decide, by decide⟩,
    ⟨ceremony0 1, viaManager, 1, 3, 0, [0], { id := 1, request := .resume 1 }, [], 5, manager0, by decide, rfl, rfl, rfl, rfl, rfl, rfl, by decide, by decide,
      by decide, rfl, rfl, rfl, by simp only [mlOk, h1], by decide, by decide⟩⟩

theorem installing0_commits (hsig : ∀ a b c d, Config.sigOk a b c d = true) :
    (installing0.markStarted viaManager).commitVerdict ((installing0.markStarted viaManager).targetRegion 1) 7355 = Status.ok ∧
    ((installing0.markStarted viaManager).region ((installing0.markStarted viaManager).targetRegion 1)).header
      ((installing0.markStarted viaManager).targetRegion 1) = some ⟨0, 128, 7227, 0, 0, 4, 0, [⟨1, 128, 0⟩, ⟨2, 128, 0⟩]⟩ := by
  have h : (installing0.markStarted viaManager).targetRegion 1 = 1 := rfl
  have hr : (installing0.markStarted viaManager).region 1 = imageRegion := rfl
  rw [h, hr]
  exact ⟨image_ok hsig, by decide +kernel⟩

theorem installing0_asks (legal : State → Prop) (h : legal (installing0.markStarted viaManager)) :
    Asked installing0 viaManager .imageCommit legal :=
  ⟨5, manager0, by decide, rfl, rfl, rfl, rfl, rfl, rfl, .inl rfl, rfl, h⟩

theorem witness_ManagerCommit (hsig : ∀ a b c d, Config.sigOk a b c d = true) :
    ∃ (s : State) (v : Via) (x : Install) (h : ImgHeader), Asked s v .imageCommit (fun t => t.boot.install = some x ∧
      t.commitVerdict (t.targetRegion x.target) x.len = Status.ok ∧ (t.region (t.targetRegion x.target)).header (t.targetRegion x.target) = some h) :=
  ⟨installing0, viaManager, ⟨1, 7355⟩, ⟨0, 128, 7227, 0, 0, 4, 0, [⟨1, 128, 0⟩, ⟨2, 128, 0⟩]⟩, installing0_asks _ ⟨rfl, installing0_commits hsig⟩⟩

theorem delivered0_asks (st : ChanState) (legal : State → Prop) (h : legal ((delivered0 st).markStarted viaManager)) :
    Asked (delivered0 st) viaManager .hostImageCommit legal :=
  ⟨5, manager0, rfl, rfl, rfl, rfl, rfl, rfl, rfl, .inl rfl, rfl, h⟩

theorem delivered0_meets (hsig : ∀ a b c d, Config.sigOk a b c d = true) (st : ChanState) :
    ((delivered0 st).markStarted viaManager).pgd.delivery = some delivery0 ∧ deliveredOk ((delivered0 st).markStarted viaManager) delivery0 ∧
    (((delivered0 st).markStarted viaManager).chan delivery0.channel).state = st := ⟨rfl, delivered_ok hsig st, rfl⟩

theorem witness_ManagerDelivery (hsig : ∀ a b c d, Config.sigOk a b c d = true) :
    ∀ st ∈ [ChanState.waiting, .recovering],
      ∃ (s : State) (v : Via) (d : Delivery), Asked s v .hostImageCommit (fun t => t.pgd.delivery = some d ∧ deliveredOk t d ∧ (t.chan d.channel).state = st) :=
  fun st _ => ⟨delivered0 st, viaManager, delivery0, delivered0_asks st _ (delivered0_meets hsig st)⟩

theorem owned0_asks (r : List Byte) (legal : State → Prop) (h : legal (owned0.markStarted viaManager)) : Asked owned0 viaManager (.lcStage r) legal :=
  ⟨5, manager0, by decide, rfl, rfl, rfl, rfl, rfl, rfl, .inl rfl, rfl, h⟩

theorem witness_ManagerLcStage (hsig : ∀ a b c d, Config.sigOk a b c d = true) :
    ∃ (s : State) (v : Via) (b : List Byte), Asked s v (.lcStage b) (fun t => t.lcVerdict b = Status.ok) :=
  ⟨owned0, viaManager, lcRequest0, owned0_asks lcRequest0 _ (lc_ok2 hsig)⟩

theorem migrating0_key (hdom : ∀ a b c, Config.domainKey a b c = List.replicate 32 0) :
    (migrating0.markStarted viaManager).migrationKey (migrating0.markStarted viaManager).uncel.gen = some (List.replicate 32 0) := by
  have h : (migrating0.markStarted viaManager).domainSecret 1 = some [0] := rfl
  have g : (migrating0.markStarted viaManager).uncel.gen = 1 := rfl
  simp only [State.migrationKey, g, h, hdom, Option.map_some]

theorem room0 (s : State) (n : Nat) (key : List Byte) : ∃ len, (s.exportBlob n key).length ≤ len := ⟨_, Nat.le_refl _⟩

theorem migrating0_asks (len : Nat) (legal : State → Prop) (h : legal (migrating0.markStarted viaManager)) :
    Asked migrating0 viaManager (.migrateExport 1 0 len true) legal :=
  ⟨5, manager0, by decide, rfl, rfl, rfl, rfl, rfl, rfl, .inl rfl, rfl, h⟩

theorem witness_MigrateExport (hdom : ∀ a b c, Config.domainKey a b c = List.replicate 32 0) :
    ∃ (s : State) (v : Via) (n a len : Nat) (key : List Byte), Asked s v (.migrateExport n a len true) (fun t => (t.tenant n).state = .quiesced ∧
      (t.tenant n).exported = false ∧ t.migrationKey t.uncel.gen = some key ∧ (t.exportBlob n key).length ≤ len) := by
  obtain ⟨len, h⟩ := room0 (migrating0.markStarted viaManager) 1 (List.replicate 32 0)
  exact ⟨migrating0, viaManager, 1, 0, len, List.replicate 32 0, migrating0_asks len _ ⟨rfl, rfl, migrating0_key hdom, h⟩⟩

theorem witness_MigrateImport (hdom : ∀ a b c, Config.domainKey a b c = List.replicate 32 0) :
    ∃ (s : State) (v : Via) (n : Nat) (blob : List Byte) (x : Imported), Asked s v (.migrateImport n blob) (fun t => (t.tenant n).state = .quiesced ∧
      t.readMigration blob = some x ∧ field blob 0xC 4 ≤ t.glb.epoch ∧ t.importFits n x = true) := by
  have e : field (blob0 (List.replicate 32 0)) 0xC 4 ≤ (migrating0.markStarted viaManager).glb.epoch := by decide +kernel
  exact ⟨migrating0, viaManager, 1, blob0 (List.replicate 32 0), ⟨[], [], []⟩, 5, manager0, by decide, rfl, rfl, rfl, rfl, rfl, rfl, .inl rfl, rfl, rfl,
      blob_read hdom, e, by decide⟩

theorem witness_ManagerSieve (hrule : ∀ a, Config.ruleFields a = (0, [], true)) :
    ∃ (s : State) (v : Via) (r : Nat) (base len ctl : W32), Asked s v (.sieveSet (.rule r base len ctl)) (fun t => r ≤ 255 ∧
      (Config.ruleFields ctl.toNat).2.2 = true ∧ (Config.ruleFields ctl.toNat).2.1.contains 3 = false) :=
  ⟨managed, viaManager, 255, 0, 0, 0, 5, manager0, by decide, rfl, rfl, rfl, rfl, rfl, rfl, by decide, by decide, by decide, by rw [hrule], by rw [hrule]; rfl⟩

/-! Guarded operations: a first write is held on an armed register. -/

/-- The premises of `Applies` for some requester. -/
def Held (s : State) (off : Nat) (value : W32) : Prop :=
  ∃ r, s.live r = true ∧ s.heldPair r = some (off, value, true) ∧ s.glb.logFull = false

theorem held_up (off : Nat) (value : W32) : Held (heldUp off value true) off value := ⟨.pf 0, rfl, rfl, rfl⟩

/-- `up` with tenant 1 quiesced. -/
def quiesced0 (off : Nat) (value : W32) : State := { heldUp off value true with tenants := [(1, { tenant0 with state := .quiesced })] }

/-- The header of a tilth record signed by entry 0. -/
def tilthHead : Map Byte := ((ascii "IXTR" ++ [1]).zipIdx).map fun (x : Byte × Nat) => (x.2, x.1)

/-- The page of such a record, sealed in the state MANUFACTURED. -/
def sealedTilth (value : List Byte) : Region := { page := { state := .sealedPage, sealVal := value }, bytes := tilthHead }

/-- A device with image keys 0 and 1, one image of each and a tilth copy under key 0; entry `k` of BOOT_REVOKE stands as a first write. -/
def revoking (k : W32) (value : List Byte) : State :=
  { heldUp gdRevoke k true with
    life := { state := .manufactured }
    boot := { keys := [(0, [0]), (1, [1])], regions := [(0, { page := { state := .sealedPage } }), (3, sealedTilth value)] } }

/-- The seal of `revoking`'s record. -/
def revokingSeal (k : W32) : List Byte := (revoking k []).sealOf 3 0 0 []

theorem revoking_startable :
    ((revoking 1 (revokingSeal 1)).modBoot fun b => { b with revoked := b.revoked ||| 2 ^ 1 }).startable = true := by
  have h : ((revoking 1 (revokingSeal 1)).modBoot fun b => { b with revoked := b.revoked ||| 2 ^ 1 }).sealChecks 3 = true := by
    have e : ((revoking 1 (revokingSeal 1)).modBoot fun b => { b with revoked := b.revoked ||| 2 ^ 1 }).sealOf 3 0 0 [] = revokingSeal 1 := by
      simp only [State.sealOf, State.kdf, State.ownerHash, revokingSeal]
      rfl
    have e2 : ((revoking 1 (revokingSeal 1)).modBoot fun b => { b with revoked := b.revoked ||| 2 ^ 1 }).sealChecks 3 =
        decide (revokingSeal 1 = ((revoking 1 (revokingSeal 1)).modBoot fun b => { b with revoked := b.revoked ||| 2 ^ 1 }).sealOf 3 0 0 []) := by
      unfold State.sealChecks
      rfl
    rw [e2, e]
    exact decide_eq_true rfl
  have g : (sealedTilth (revokingSeal 1)).header 3 = some ⟨0, 0, 0, 0, 0, 0, 0, []⟩ := rfl
  have r : ((revoking 1 (revokingSeal 1)).modBoot fun b => { b with revoked := b.revoked ||| 2 ^ 1 }).region 3 = sealedTilth (revokingSeal 1) := rfl
  have v : ((revoking 1 (revokingSeal 1)).modBoot fun b => { b with revoked := b.revoked ||| 2 ^ 1 }).tilthValid 3 = true := by
    simp only [State.tilthValid, r, g, h]
    rfl
  have a : ([0, 1, 2].any fun i => decide ((((revoking 1 (revokingSeal 1)).modBoot fun b => { b with revoked := b.revoked ||| 2 ^ 1 }).region i).page.state = .sealedPage) &&
      ((revoking 1 (revokingSeal 1)).modBoot fun b => { b with revoked := b.revoked ||| 2 ^ 1 }).imageSigner
        (((revoking 1 (revokingSeal 1)).modBoot fun b => { b with revoked := b.revoked ||| 2 ^ 1 }).region i).page.signer) = true := rfl
  unfold State.startable
  rw [a]
  simp only [List.any_cons, v, Bool.true_or, Bool.and_self]

theorem witness_GuardedOperations :
    (∃ s : State, Held s gdReset 0x5EED0001#32) ∧
    (∃ (s : State) (value : W32), value ≠ 0x5EED0001#32 ∧ s.power.resetDue = 0 ∧ Held s gdReset value) ∧
    (∃ (s : State) (value : W32), (s.tenant (bits value.toNat 9 0)).state = .quiesced ∧ s.tgen (bits value.toNat 9 0) ≠ 0xFFFFFFFF ∧ Held s gdRemove value) ∧
    (∃ (s : State) (value : W32), (s.tenant (bits value.toNat 9 0)).state ≠ .quiesced ∧ Held s gdRemove value) ∧
    (∃ (s : State) (value : W32), Held s gdSrcSel value) ∧
    (∃ (s : State) (k : Nat), (s.rng.source k).role ≠ .retired) ∧
    (∃ (s : State) (value : W32), Held s gdDestroy value) ∧
    (∃ (s : State) (k : Nat), (s.slot k).state = .loaded ∧ (s.slot k).destroying = false ∧ s.Sound) ∧
    (∃ (s : State) (value : W32), s.keyLive (bits value.toNat 2 0) = false ∧ Held s gdRevoke value) ∧
    (∃ (s : State) (value : W32), s.keyLive (bits value.toNat 2 0) = true ∧
      (s.modBoot fun b => { b with revoked := b.revoked ||| 2 ^ (bits value.toNat 2 0) }).startable = true ∧ Held s gdRevoke value) ∧
    (∃ (s : State) (value : W32), s.keyLive (bits value.toNat 2 0) = true ∧
      (s.modBoot fun b => { b with revoked := b.revoked ||| 2 ^ (bits value.toNat 2 0) }).startable = false ∧ Held s gdRevoke value) ∧
    (∃ (s : State) (req : List Byte), s.life.staged = some req ∧ field req 0x0C 4 < 2 ^ 32 ∧ Held s gdLcsReq (BitVec.ofNat 32 (field req 0x0C 4))) ∧
    (∃ (s : State) (value : W32), s.life.staged = none ∧ s.power.resetDue = 0 ∧ Held s gdLcsReq value) ∧
    (∀ off ∈ [gdHoldRel, gdSieveEn], ∃ (s : State) (value : W32), Held s off value) ∧
    (∃ (s : State) (value : W32), bits value.toNat 30 17 ≤ 8192 ∧ Held s gdUpdWin value) ∧
    (∃ (s : State) (value : W32), 8192 < bits value.toNat 30 17 ∧ Held s gdUpdWin value) ∧
    (∃ (s : State) (k : Nat) (value : W32), k < 16 ∧ Held s (gdTamper k) value) :=
  ⟨⟨_, held_up gdReset 0x5EED0001#32⟩,
   ⟨_, 0, by decide, rfl, held_up gdReset 0⟩,
   ⟨quiesced0 gdRemove 1, 1, rfl, by decide, .pf 0, by decide, rfl, rfl⟩,
   ⟨_, 1, by decide, held_up gdRemove 1⟩,
   ⟨_, 0xFFFFF, held_up gdSrcSel 0xFFFFF⟩,
   ⟨up, 19, by decide⟩,
   ⟨_, 0, held_up gdDestroy 0⟩,
   ⟨{ up with vault := { slots := [(0, { state := .loaded })] } }, 0, rfl, rfl, by constructor <;> decide⟩,
   ⟨_, 7, by decide, held_up gdRevoke 7⟩,
   ⟨revoking 1 (revokingSeal 1), 1, rfl, revoking_startable, .pf 0, rfl, rfl, rfl⟩,
   ⟨{ heldUp gdRevoke 0 true with boot := { keys := [(0, [0])] } }, 0, by decide, by decide, .pf 0, by decide, rfl, rfl⟩,
   ⟨{ heldUp gdLcsReq 0 true with life := { staged := some [] } }, [], rfl, by decide, .pf 0, by decide, rfl, rfl⟩,
   ⟨_, 0, rfl, rfl, held_up gdLcsReq 0⟩,
   fun off _ => ⟨_, 0, held_up off 0⟩,
   ⟨_, 0x40000000, by decide, held_up gdUpdWin 0x40000000⟩,
   ⟨_, 0x40020000, by decide, held_up gdUpdWin 0x40020000⟩,
   ⟨_, 15, 0, by decide, held_up (gdTamper 15) 0⟩⟩

theorem witness_EpochRaise :
    (∃ (s : State) (value : W32), s.glb.epoch = 0xFFFFFFFF ∧ Held s gdEpoch value) ∧
    (∃ (s : State) (value : W32), s.glb.epoch < 0xFFFFFFFF ∧ value.toNat ≤ s.glb.epoch ∧ Held s gdEpoch value) ∧
    (∃ (s : State) (value : W32), s.glb.epoch < 0xFFFFFFFF ∧ s.glb.epoch < value.toNat ∧ Held s gdEpoch value ∧ s.portList ≠ []) :=
  ⟨⟨{ heldUp gdEpoch 0 true with glb := { epoch := 0xFFFFFFFF } }, 0, rfl, .pf 0, by decide, rfl, rfl⟩,
   ⟨{ heldUp gdEpoch 7 true with glb := { epoch := 7 } }, 7, by decide, by decide, .pf 0, by decide, rfl, rfl⟩,
   ⟨{ heldUp gdEpoch 0xFFFFFFFF true with glb := { epoch := 0xFFFFFFFE } }, 0xFFFFFFFF, by decide, by decide, ⟨.pf 0, by decide, rfl, rfl⟩, by decide⟩⟩

theorem witness_RequestAdmission :
    (∃ (s : State) (c : Instr) (v : Via) (r : MgrReq), requestOf c = some (v, r) ∧ s.viaLive v = false) ∧
    (∃ (s : State) (c : Instr) (v : Via) (r : MgrReq), requestOf c = some (v, r) ∧ s.viaLive v = true ∧ s.power.phase = .gateOpen ∧ s.mayRequest v r = false) ∧
    (∃ (s : State) (c : Instr) (v : Via) (r : MgrReq), requestOf c = some (v, r) ∧ s.viaLive v = true ∧ s.power.phase = .gateOpen ∧ s.mayRequest v r = true ∧
      s.glb.logFull = true ∧ reqOfLog r = false) ∧
    (∃ (s : State) (c : Instr) (v : Via) (r : MgrReq), requestOf c = some (v, r) ∧ s.viaLive v = true ∧ s.power.phase = .gateOpen ∧ s.mayRequest v r = true ∧
      s.glb.logFull = false ∧ s.ceremonial r = true ∧ s.uncel.ceremony = none ∧ s.power.resetDue = 0 ∧ reqOfLog r = false) ∧
    (∀ p ∈ [Phase.factory, .lockService, .fallow], ∃ (s : State) (c : Instr) (v : Via) (r : MgrReq), requestOf c = some (v, r) ∧ s.viaLive v = true ∧
      s.power.phase = p ∧ reqOfImage r = false) :=
  ⟨⟨State.reset, .resume viaManager 1, viaManager, _, rfl, by decide⟩,
   ⟨up, .resume viaManager 1, viaManager, _, rfl, by decide, rfl, by decide⟩,
   ⟨{ managed with glb := { logFull := true } }, .resume viaManager 1, viaManager, _, rfl, by decide, rfl, by decide, rfl, rfl⟩,
   ⟨{ managed with boot := { gateOpen := true, tilth := some { uncel := { officers := [[]], approvals := 1, ceremonyMask := 0xFFFFFFFF } } } }, .resume viaManager 1,
      viaManager, _, rfl, by decide, rfl, by decide, rfl, by decide, rfl, rfl, rfl⟩,
   fun p hp => ⟨{ managed with power := { managed.power with phase := p } }, .resume ⟨.i3c, none⟩ 1, ⟨.i3c, none⟩, _, rfl, by
      simp only [List.mem_cons, List.not_mem_nil, or_false] at hp
      rcases hp with rfl | rfl | rfl <;> decide, rfl, rfl⟩⟩

/-- The premises of AcknowledgeWrites. -/
def Acks (s : State) (r : Requester) (reg : SqId) : Prop :=
  s.live r = true ∧ s.heldPair r = none ∧ s.sqVisible r reg = true ∧
  (sqBlock reg = none ∨ ∃ b, sqBlock reg = some b ∧ s.glb.linkDown = false ∧ (s.postedBlock b).busy = false)

theorem witness_AcknowledgeWrites :
    (∃ (s : State) (r : Requester) (reg : SqId) (value : W32), Acks s r reg ∧ (s.sqReg reg).seq = value.extractLsb' 16 16 ∧
      (s.sqReg reg).incPending = false ∧ (s.sqReg reg).evt ≠ 0 ∧ s.Sound) ∧
    (∃ (s : State) (p : Nat) (reg : SqId) (value : W32), Acks s (.pf p) reg ∧ (s.sqReg reg).seq ≠ value.extractLsb' 16 16) ∧
    (∃ (s : State) (p n : Nat) (reg : SqId) (value : W32), Acks s (.vf p n) reg ∧ (s.sqReg reg).incPending = true) ∧
    (∃ (s : State) (k : Nat) (reg : SqId) (value : W32), Acks s (.loam k) reg ∧ (s.sqReg reg).seq ≠ value.extractLsb' 16 16) :=
  ⟨⟨{ up with sq := [(0, { evt := 1, seq := 0xFFFF })] }, .pf 0, .glb 0, 0xFFFF0000, ⟨by decide, rfl, by decide, .inl rfl⟩, rfl, rfl, by decide,
      by constructor <;> decide⟩,
   ⟨up, 0, .boot, 0x10000, ⟨by decide, rfl, by decide, .inr ⟨.boot, rfl, rfl, rfl⟩⟩, by decide⟩,
   ⟨{ up with sq := [(sqKey (.vf 0 1), { incPending := true })] }, 0, 1, .vf 0 1, 0, ⟨by decide, rfl, by decide, .inl rfl⟩, rfl⟩,
   ⟨up, 0, .boot, 0x10000, ⟨by decide, rfl, by decide, .inr ⟨.boot, rfl, rfl, rfl⟩⟩, by decide⟩⟩

/-- `entered` with its job in EXECUTE on slot 2. -/
def onSlot (code param : Nat) (x : Slot) : State :=
  { entered code with
    jobs := [(0, { job0 with desc := { opcode := code, keyIndex := 2, param := param, outLen := 32 } })], vault := { slots := [(2, x)] } }

theorem witness_KeyOperations :
    (∃ (s : State) (j : Nat) (job : Job), s.job j = some job ∧ s.kindOf job = .slotPrepare ∧ job.stage = .execute ∧ job.held = false ∧
      s.power.holdActive = false ∧ s.owns job.tenant job.desc.keyIndex = true ∧ (s.slot job.desc.keyIndex).state = .empty ∧ presetOk job.desc.param = true) ∧
    (∃ (s : State) (j : Nat) (job : Job), s.job j = some job ∧ s.kindOf job = .readPublic ∧ job.stage = .execute ∧ job.held = false ∧
      s.power.holdActive = false ∧ s.owns job.tenant job.desc.keyIndex = true ∧ (s.slot job.desc.keyIndex).state = .loaded ∧
      pairClass (attrClass (s.slot job.desc.keyIndex).attr) = true ∧ (s.slot job.desc.keyIndex).pub.length ≤ job.desc.outLen) :=
  ⟨⟨onSlot 0x8100 0x10E1 { state := .empty, owner := 1 }, 0, _, rfl, by decide, rfl, rfl, rfl, by decide, rfl, by decide⟩,
   ⟨onSlot 0x8600 0 { state := .loaded, owner := 1, attr := 0x11, pub := [1] }, 0, _, rfl, by decide, rfl, rfl, rfl, by decide, rfl, by decide, by decide⟩⟩

theorem witness_StepRunsFront :
    (∃ (s : State) (c : Instr) (rest : List Instr), s.pending = c :: rest) ∧ (∃ s : State, s.pending = []) :=
  ⟨⟨{ up with pending := [.platformCycle viaManager, .glbReset (.pf 0) 0 0] }, _, _, rfl⟩, ⟨up, rfl⟩⟩

theorem witness_StepKeepsSound : ∃ s t : State, s.Sound ∧ step s = .next t :=
  ⟨{ up with pending := [.platformCycle viaManager] }, _, by constructor <;> decide, rfl⟩

theorem x1_sound (w : W32) : (on {} (x1 0x808) w).Sound := by constructor <;> first | decide | rfl

theorem witness_GrainFrames :
    (∃ (s t : State) (g : Nat) (i : Instr) (d : Option Reg), s.Sound ∧ HasAsked s g ∧ scalarDest i = some (g, d) ∧ exec i s = .next t ∧
      (t.grain g).x 2 = 0x807 ∧ (s.grain g).x 2 = 0) ∧
    (∀ x ∈ [(Instr.sd, 8, 0x0C), (Instr.sw, 4, 0x0D), (Instr.sh, 2, 0x0E), (Instr.sb, 1, 0x0F)],
      ∃ (s t : State) (g : Nat) (d a : Reg) (imm : Half), s.Sound ∧ HasAsked s g ∧ s.fetching g (encI x.2.2 d a imm) = some (0, job0) ∧
      ((s.grain g).x a.toNat + imm.signExtend 64).toNat % x.2.1 = 0 ∧ canWrite ((s.grain g).x a.toNat + imm.signExtend 64).toNat x.2.1 = true ∧
      exec (x.1 g d a imm) s = .next t) ∧
    (∀ x ∈ [(Instr.ld, 8, 0x08), (Instr.lw, 4, 0x09), (Instr.lh, 2, 0x0A), (Instr.lb, 1, 0x0B)],
      ∃ (s t : State) (g : Nat) (d a : Reg) (imm : Half), s.Sound ∧ HasAsked s g ∧ s.fetching g (encI x.2.2 d a imm) = some (0, job0) ∧
      ((s.grain g).x a.toNat + imm.signExtend 64).toNat % x.2.1 = 0 ∧ canRead ((s.grain g).x a.toNat + imm.signExtend 64).toNat x.2.1 = true ∧
      exec (x.1 g d a imm false) s = .next t) := by
  have asked : ∀ w, HasAsked (on {} (x1 0x808) w) 0 := fun w h => nomatch h
  refine ⟨⟨on {} (x1 0x808) (encI 0x01 2 1 0xFFFF), _, 0, .addi 0 2 1 0xFFFF, _, x1_sound _, asked _, rfl, rfl, by decide +kernel, rfl⟩, ?_, ?_⟩ <;>
  · intro x hx
    simp only [List.mem_cons, List.not_mem_nil, or_false] at hx
    rcases hx with rfl | rfl | rfl | rfl <;>
    exact ⟨on {} (x1 0x808) (encI _ 1 1 0xFFF8), _, 0, 1, 1, 0xFFF8, x1_sound _, asked _, on_fetching _ _ _, by decide, by decide, rfl⟩

theorem witness_EventFrames :
    (∃ x r : SqId, sqKey x ≠ sqKey r) ∧ (∃ s : State, s.Sound) :=
  ⟨⟨.glb 0, .glb 1, by decide⟩, ⟨up, up_sound⟩⟩

theorem witness_ArmedRegisters :
    (∃ (t : State) (v : Via) (p : Nat), viaPf v = some p ∧ (t.pf p).arm ≠ some ⟨gdLcsReq⟩) ∧
    (∃ (t : State) (v : Via) (p : Nat), viaPf v = some p ∧ (t.pf p).arm = some ⟨gdLcsReq⟩ ∧ gdReset ≠ gdLcsReq) ∧
    (∃ (t : State) (v : Via), viaPf v = none ∧ t.glb.logFull = false) :=
  ⟨⟨.reset, viaManager, 0, rfl, by decide⟩, ⟨{ State.reset with glbPf := [(0, { arm := some ⟨gdLcsReq⟩ })] }, viaManager, 0, rfl, by decide, by decide⟩,
    ⟨.reset, { viaManager with transport := .i3c }, rfl, rfl⟩⟩

/-! Ill-formed commands: each check of WellFormed refuses a term. -/

theorem test_wellFormed_refuses :
    [Instr.jal 1024 0 0, .copy 64 0 0, .addi 4096 0 0 0, .sqAcknowledge (.pf 4) .boot 0, .sqAcknowledge (.vf 0 1024) .boot 0,
     .glbReset (.loam 4) 0 0, .guardPairTimeout (.vf 4 0), .armingLapse 4, .resume ⟨.vdm 4, none⟩ 0, .resume ⟨.admin 4, none⟩ 0,
     .resume ⟨.i3c, none⟩ 1024, .tenantRemoveDone 1024, .slotDestroyDone 4096, .descriptorFetch 8192 none, .bedWakeDone 64,
     .digDmaDone 18 none, .updateWindowTimeout 2, .flashIdleTimeout 2, .obsCounterLoRead 0 1024 0, .obsCounterLoRead 4 0 0,
     .leafReservationDone 4096].all (fun i => !wellFormed i) = true := by decide

theorem test_wellFormed_admits :
    [Instr.jal 1023 0 0, .copy 63 0 0, .sqAcknowledge (.vf 3 1023) .boot 0, .glbReset (.loam 3) 0 0, .resume ⟨.vdm 3, none⟩ 1023,
     .slotDestroyDone 4095, .bedWakeDone 63].all wellFormed = true := by decide

/-! Words that the spec's worked examples write out. -/

/-- The example of 06 on reducing a coefficient. -/
theorem test_word_scalar :
    encI 0x01 6 0 3329 = 0x04C00D01 ∧ encA 0x00 7 5 6 (funcW false 0x001) = 0x00E53001 ∧ encI 0x05 8 7 (shiImm 2 false 63) = 0x1507023F ∧
    encA 0x00 8 8 6 0x002 = 0x01083002 ∧ encA 0x00 5 7 8 (funcW false 0x000) = 0x00A74000 := by decide

/-- The examples of 07 and 08 on a forward transform and on Decompose. -/
theorem test_word_longVector :
    encLv2 0x3A ⟨4, 0, 0, 0, 0, 2⟩ 0x00 = 0xE9000080 ∧ encLv2 0x3A ⟨0, 4, 0, 0, 0, 2⟩ 0x07 = 0xE8100087 ∧
    encLv2 0x3A ⟨4, 0, 0, 0, 1, 2⟩ 0x00 = 0xE9000280 ∧ encLv2 0x3A ⟨2, 0, 0, 0, 0, 1⟩ 0x02 = 0xE8800042 ∧
    encLM 0 11 0 0 false 0 = 0xF8160000 ∧ encLM 0 11 0 0 true 0 = 0xF8160800 ∧
    encLv2 0x3D ⟨8, 4, 1, 0, 1, 2⟩ (opChk none 0x08) = 0xF6104288 ∧ encLv1 0x3F ⟨0, 8, 0, 1, 0⟩ 0x00 = 0xFC200200 := by decide

/-- The example of 12 on ECDSA signing: SETC, CSWAP, MODMUL and DJNZ. -/
theorem test_word_engine :
    encCmd 0x1C 0 0 0 0 false ((0 : BitVec 18) ++ (0 : BitVec 2) ++ (319 : BitVec 12)) = 0x700000000000013F ∧
    encCmd 0x1B 10 12 7 0 false ((0 : BitVec 18) ++ (0 : BitVec 2) ++ (0 : BitVec 12)) = 0x6CA3070000000000 ∧
    encCmd 0x03 10 8 9 0 false 0 = 0x0CA2090000000000 ∧
    encCmd 0x1D 0 0 0 0 false ((0 : BitVec 18) ++ (0 : BitVec 2) ++ (0 : BitVec 3) ++ (28 : BitVec 9)) = 0x740000000000001C := by decide

/-- The stored words of the example of 08 have odd parity; a flipped bit breaks it. -/
theorem test_parity :
    microParity 0x61D00000003A1 = true ∧ microParity 0x061B8004003A2 = true ∧ microParity 0x761F80140F000 = true ∧
    microParity 0x61D00000003A0 = false := by decide

/-! Values that the spec's worked examples write out. -/

/-- The example of 07 on Decompose for ML-DSA-65: r1 and r0 of both elements. -/
theorem test_decompose : decompose 261888 1000000 = (2, 8332865) ∧ decompose 261888 8380400 = (0, 8380400) := by decide

/-- The example of 13: SHA-256 of "abc". -/
theorem test_sha256_abc :
    sha2 1 [0x61, 0x62, 0x63] =
      beBytes 32 0xba7816bf8f01cfea414140de5dae2223b00361a396177a9cb410ff61f20015ad := by decide +kernel

/-- The example of 14: the PAN field of 5432109876543210. -/
theorem test_panField :
    panField 4 [5, 4, 3, 2, 1, 0, 9, 8, 7, 6, 5, 4, 3, 2, 1, 0] =
      [0x45, 0x43, 0x21, 0x09, 0x87, 0x65, 0x43, 0x21, 0, 0, 0, 0, 0, 0, 0, 0] := by decide

/-- What holds of the next state of an outcome. -/
def after (x : Result) (p : State → Bool) : Bool := match x with | .next t => p t | _ => false

/-- The example of 02 on GLB_EVT: SEQ has moved, nothing clears and the miss counts; the next acknowledge clears both bits. -/
def seq8 : State := { up with sq := [(0, { evt := 0x000C, seq := 0x0008 })] }

theorem test_acknowledge_moved :
    after (exec (.sqAcknowledge (.pf 0) (.glb 0) 0x00070004) seq8) (fun t => decide ((t.sqReg (.glb 0)).evt = 0x000C ∧ (t.glbPf.get 0 {}).ackMiss = 1)) = true := by decide +kernel

theorem test_acknowledge_clears :
    after (exec (.sqAcknowledge (.pf 0) (.glb 0) 0x0008000C) seq8) (fun t => decide ((t.sqReg (.glb 0)).evt = 0 ∧ (t.sqReg (.glb 0)).seq = 8 ∧ (t.glbPf.get 0 {}).ackMiss = 0)) = true := by decide +kernel

/-- The example under R36: 0x42 to 0x0100, then 0xFFFFFFBD to 0x8100, raises the epoch. -/
theorem test_epochRaise :
    after (exec (.glbEpochRaise (.pf 0) 0x8100 0xFFFFFFBD) (heldUp 0x100 0x42 true)) (fun t => decide (t.glb.epoch = 0x42)) = true := by decide +kernel

/-- A complement that is wrong by one bit raises nothing (R34). -/
theorem test_epochRaise_mismatch :
    after (exec (.glbEpochRaise (.pf 0) 0x8100 0xFFFFFFBC) (heldUp 0x100 0x42 true)) (fun t => decide (t.glb.epoch = 0)) = true := by decide +kernel

/-! Single steps. -/

/-- ADD wraps modulo 2 to the 64th (R121). -/
theorem test_add_wraps :
    after (exec (.add 0 false 2 1 1) (on {} (x1 0x8000000000000001) (encA 0x00 2 1 1 0))) (fun t => decide ((t.grain 0).x 2 = 2 ∧ (t.grain 0).pc = 1)) = true := by decide +kernel

/-- The W form of ADD zero-extends its 32-bit result (R121). -/
theorem test_addw_extends :
    after (exec (.add 0 true 2 1 1) (on {} (x1 0x1C0000000) (encA 0x00 2 1 1 0x400))) (fun t => decide ((t.grain 0).x 2 = 0x80000000)) = true := by decide +kernel

/-- X0 takes no value (R120). -/
theorem test_x0 :
    after (exec (.addi 0 0 1 5) (on {} (x1 7) (encI 0x01 0 1 5))) (fun t => decide ((t.grain 0).x 0 = 0)) = true := by decide +kernel

/-- A store to the last byte of DM (R123). -/
theorem test_store :
    after (exec (.sb 0 1 1 0xFFFE) (on {} (x1 0x10001) (encI 0x0F 1 1 0xFFFE))) (fun t => decide ((t.grain 0).dm.get 0xFFFF 0 = 1)) = true := by decide +kernel

/-- The front command runs on the queue's rest; an empty queue idles (log entry 4). -/
theorem test_step_front : step { seq8 with pending := [.sqAcknowledge (.pf 0) (.glb 0) 0x0008000C, .zeroizeRequest] } =
    exec (.sqAcknowledge (.pf 0) (.glb 0) 0x0008000C) { seq8 with pending := [.zeroizeRequest] } := rfl

theorem test_step_idle : step State.reset = .next State.reset := rfl

/-- The table gives no row bits (log entry 4). -/
theorem test_decodeTableWord (n w : Nat) : decodeTableWord n w = none ∧ State.reset.withFetchWord n w = State.reset := ⟨rfl, rfl⟩

end Sys2Proof.Tests
end

section
/-!
Tables that read back, and the grain events of O23: the end of a scrub, a seed's arrival and the randomness timeout.
-/
namespace Sys2Proof.Machine

/-- A value that is listed reads back, whatever else the table holds. -/
theorem Map.get_set_of_ne_default {α : Type} [DecidableEq α] {m : Map α} {k : Nat} {v d : α} (h : v ≠ d) :
    Map.get (Map.set m k v d) k d = v := by
  simp [Map.get, Map.set, h]

/-- A changed grain that is not as at reset reads back. -/
theorem State.grain_modGrain_of_ne {s : State} {g : Nat} {f : Grain → Grain} (h : f (s.grain g) ≠ {}) :
    (s.modGrain g f).grain g = f (s.grain g) :=
  Map.get_set_of_ne_default h

/-- Applying an epoch begins in the bed alone. -/
@[simp] theorem State.startApply_grain (s : State) (b g : Nat) : (s.startApply b).grain g = s.grain g := by
  unfold State.startApply
  split <;> rfl

/-- The grain that the end of a scrub leaves: registers, units and scratch clear, and the data region of its program
restored in the cleared DM (R108). -/
def State.scrubbedGrain (s : State) (g : Nat) : Grain :=
  { state := .idle, prog := (s.grain g).prog, pm := (s.grain g).pm
    dm := match s.dataOf g with | some p => Memory.put [] p.header.dataOff p.data | none => []
    expander := (s.grain g).expander, patrol := (s.grain g).patrol, busy := (s.grain g).busy, tested := (s.grain g).tested }

/-- The scrub of a grain that a tenant holds and that awaits nothing leaves it idle and clean. -/
theorem State.scrubDone_owned {s : State} {g t : Nat} (ht : s.grainTenant g = some t) (hj : (s.grain g).job = none)
    (hr : g ∉ (s.quad (g / 256)).reloads) : s.scrubDone g = s.modGrain g fun _ => s.scrubbedGrain g := by
  have hs : s.startsAfterScrub g = false := by simp [State.startsAfterScrub, hj]
  unfold State.scrubDone State.scrubbedGrain
  cases s.dataOf g <;> simp [hj, ht, hs, hr]

/-- A grain in its scrub takes the end of it. -/
theorem execGrainScrubDone_scrub {s : State} {g : Nat} (h : (s.grain g).state = .scrub) :
    execGrainScrubDone g s = .next ((s.scrubDone g).startApply (g / 16)) := by
  simp [execGrainScrubDone, h]

/-- The seed that is on its way arrives (R102, R103). -/
theorem execExpanderSeedArrival_coming {s : State} {g : Nat} (h : (s.grain g).expander.coming = true) :
    execExpanderSeedArrival g s = .next (s.modGrain g fun x => { x with
      expander := x.expander.arrive
      state := if x.state = .stalled then .running else x.state
      rngWait := false }) := by
  simp [execExpanderSeedArrival, h]

/-- A job that waits for randomness on its grain is starved at the timeout (R103). -/
theorem execRngTimeout_grain {s : State} {j g : Nat} {job : Job} (hj : s.job j = some job) (hg : job.grain = some g)
    (ha : s.power.holdActive = false) (hh : job.held = false) (hw : job.rngWait = true ∨ (s.grain g).state = .stalled) :
    execRngTimeout j s = .next (s.endExecution j g Status.rngStarved 0 0) := by
  simp [execRngTimeout, hj, hg, ha, hh, hw]

end Sys2Proof.Machine

namespace Sys2Proof.Claims
open Sys2Proof.Machine

/-- Settles O23: each event's guard holds, and the end of the scrub leaves the clean grain of `State.scrubDone_owned`. -/
theorem scrubAndSeeds : Obligations.ScrubAndSeeds := by
  intro s g j t job
  refine ⟨fun hs ht hj hr => ?_, execExpanderSeedArrival_coming, execRngTimeout_grain⟩
  have hg : ((s.scrubDone g).startApply (g / 16)).grain g = s.scrubbedGrain g := by
    rw [State.startApply_grain, State.scrubDone_owned ht hj hr, State.grain_modGrain_of_ne]
    intro h
    have hstate := congrArg Grain.state h
    cases hstate
  refine ⟨_, execGrainScrubDone_scrub hs, ?_⟩
  rw [hg]
  exact ⟨rfl, rfl, rfl, rfl, rfl⟩

end Sys2Proof.Claims
end

section
/-!
O39: fetch, admission and placement (R53, R59 to R63), one lemma for each branch that a command can take.
-/
namespace Sys2Proof.Machine

/-- A job that has been listed and is changed reads back changed. -/
theorem State.job_modJob {s : State} {j : Nat} {job : Job} {f : Job → Job} (h : s.job j = some job) :
    (s.modJob j f).job j = some (f job) := by
  have hf : s.jobs.find? j = some job := h
  simp [State.modJob, State.job, hf]

/-- Changing a job changes the table of jobs alone. -/
theorem State.modJob_eq (s : State) (j : Nat) (f : Job → Job) : ∃ js, s.modJob j f = { s with jobs := js } := by
  unfold State.modJob
  cases s.jobs.find? j with
  | none => exact ⟨s.jobs, rfl⟩
  | some job => exact ⟨_, rfl⟩

@[simp] theorem State.modJob_grain (s : State) (j : Nat) (f : Job → Job) (g : Nat) :
    (s.modJob j f).grain g = s.grain g := by
  obtain ⟨js, h⟩ := s.modJob_eq j f
  rw [h]; rfl

/-! The fetch of descriptors. -/

section
variable {s : State} {q : Nat} {o : PairOwner} (ho : s.pairOwner q = some o) (hm : s.mayFetch q o = true)
  (hn : (s.queue q).fetchable ≠ 0)
include ho hm hn

theorem execDescriptorFetch_refused : execDescriptorFetch q none s = .next (s.stopPair q Status.dmaError) := by
  simp [execDescriptorFetch, ho, hm, hn]

theorem execDescriptorFetch_read (data : List Byte) :
    execDescriptorFetch q (some data) s = .next ((List.range (min (s.queue q).fetchable (data.length / 64))).foldl
      (fun t i => if (t.queue q).state = .enabled then t.fetchOne q o (slice data (64 * i) 64) else t) s) := by
  simp [execDescriptorFetch, ho, hm, hn]
end

/-- The job that a fetched descriptor becomes. -/
def State.fetchedJob (s : State) (q : Nat) (o : PairOwner) (raw : List Byte) : Job :=
  { pair := q, index := (s.queue q).sqHead, desc := parseDescriptor raw, tenant := o.tenant }

/-- The state in which a fetched descriptor is judged: its job is in flight and has its ring slot. -/
def State.fetched (s : State) (q : Nat) (o : PairOwner) (raw : List Byte) : State :=
  { s with nextJob := s.nextJob + 1, jobs := s.jobs.insert s.nextJob (s.fetchedJob q o raw) }.modQueue q fun x =>
    { x with sqHead := (x.sqHead + 1) % 2 ^ x.sqLog2, inflight := x.inflight + 1 }

theorem State.fetchOne_refused {s : State} {q : Nat} {o : PairOwner} {raw : List Byte} {status n : Nat}
    (h : (s.fetched q o raw).admission o (parseDescriptor raw) = some (status, n)) :
    s.fetchOne q o raw =
      ((s.fetched q o raw).modJob s.nextJob fun x => { x with outWritten := n }).complete s.nextJob status true := by
  unfold State.fetchOne
  unfold State.fetched State.fetchedJob at *
  dsimp only at *
  rw [h]

theorem State.fetchOne_admitted {s : State} {q : Nat} {o : PairOwner} {raw : List Byte}
    (h : (s.fetched q o raw).admission o (parseDescriptor raw) = none) :
    s.fetchOne q o raw =
      if s.tilth.opKind (parseDescriptor raw).opcode = some .nop ∧ (parseDescriptor raw).fence = false then
        (s.fetched q o raw).complete s.nextJob Status.ok true
      else s.fetched q o raw := by
  unfold State.fetchOne
  unfold State.fetched State.fetchedJob at *
  dsimp only at *
  rw [h]
  exact if_congr (by rw [Bool.not_eq_true']; rfl) rfl rfl

/-! Placement. -/

section
variable {s : State} {q j : Nat} {job : Job}
  (hq : (s.jobsWhere fun x => decide (x.pair = q ∧ x.stage = Stage.admitted)).head? = some j) (hj : s.job j = some job)
include hq hj

theorem execJobPlacement_heldBack (hb : s.heldBack j job = true) : execJobPlacement q s = .next s := by
  simp only [execJobPlacement, hq, hj, hb, true_or, if_true]

variable (hb : s.heldBack j job = false) (hh : s.power.holdActive = false) (hk : s.kindOf job ≠ .nop)
include hb hh hk

theorem execJobPlacement_direct (hg : grainless (s.kindOf job) = true) :
    execJobPlacement q s = .next (s.startDirect j job) := by
  simp only [execJobPlacement, hq, hj, hb, hh, hk, hg, Bool.false_eq_true, or_self, if_false, if_true]

variable (hg : grainless (s.kindOf job) = false)
include hg

theorem execJobPlacement_noGrain (hc : s.chooseGrain job = none) : execJobPlacement q s = .next s := by
  simp only [execJobPlacement, hq, hj, hb, hh, hk, hg, hc, Bool.false_eq_true, or_self, if_false]

variable {g : Nat} (hc : s.chooseGrain job = some g)
include hc

theorem execJobPlacement_revoked (hp : s.shelved (g / 16) job.desc.opcode = none) :
    execJobPlacement q s = .next (s.complete j Status.algRevoked true) := by
  simp only [execJobPlacement, hq, hj, hb, hh, hk, hg, hc, hp, Bool.false_eq_true, or_self, if_false]

theorem execJobPlacement_placed {p : Program} (hp : s.shelved (g / 16) job.desc.opcode = some p) :
    execJobPlacement q s = .next (s.placeJob j g job p) := by
  simp only [execJobPlacement, hq, hj, hb, hh, hk, hg, hc, hp, Bool.false_eq_true, or_self, if_false]
end

/-- A placement changes its grain and its job, and beyond these only engines, contexts and the bed's wake. -/
theorem State.placeJob_placed {s : State} {j : Nat} {job : Job} (hj : s.job j = some job) (g : Nat) (p : Program) :
    ((s.placeJob j g job p).grain g).job = some j ∧
    ((s.placeJob j g job p).grain g).state =
      (if (s.grain g).test then .scrub else if (s.grain g).prog = some p.header then .running else .load) ∧
    ((s.placeJob j g job p).job j).map (fun x => (x.stage, x.grain, x.epoch)) =
      some (.placed, some g, (s.bed (g / 16)).epoch) := by
  unfold State.placeJob
  extract_lets k G eng s1 s2 s3 s4
  clear_value eng
  have h1 : s1.jobs = s.jobs ∧ s1.beds = s.beds := by
    unfold s1
    cases eng <;> exact ⟨rfl, rfl⟩
  obtain ⟨hjobs, hbeds⟩ := h1
  have hbed : s2.bed (g / 16) = s.bed (g / 16) :=
    congrArg (fun m : Map Bed => Map.get m (g / 16) {}) hbeds
  have hgrain : s2.grain g = _ := State.grain_modGrain_of_ne fun h => nomatch congrArg Grain.job h
  have hjob : s3.job j = _ := State.job_modJob ((congrArg (Map.find? · j) hjobs).trans hj)
  have h4 : s4.grain g = s2.grain g ∧ s4.job j = s3.job j := by
    rw [← s2.modJob_grain j _ g]
    unfold s4
    split <;> exact ⟨rfl, rfl⟩
  have h5 : ∀ f, (if (s4.bed (g / 16)).state = .awake then s4 else s4.modBed (g / 16) f).grain g = s2.grain g ∧
      (if (s4.bed (g / 16)).state = .awake then s4 else s4.modBed (g / 16) f).job j = s3.job j := by
    intro f
    rw [← h4.1, ← h4.2]
    split <;> exact ⟨rfl, rfl⟩
  rw [(h5 _).1, (h5 _).2, hgrain, hjob, hbed]
  exact ⟨rfl, rfl, rfl⟩

/-! NOP. -/

theorem execNop_fenced {s : State} {j : Nat} {job : Job} (hj : s.job j = some job) (hk : s.kindOf job = .nop)
    (hs : job.stage = .admitted) :
    execNop j s = .next (if s.heldBack j job = true then s else s.complete j Status.ok true) := by
  simp [execNop, hj, hk, hs]

end Sys2Proof.Machine

namespace Sys2Proof.Claims
open Sys2Proof.Machine

/-- Settles O39, branch by branch of fetch, admission and placement. -/
theorem fetchAndPlacement : Obligations.FetchAndPlacement := by
  intro s
  exact ⟨fun q o => execDescriptorFetch_refused,
    fun q o data ho hm hn => execDescriptorFetch_read ho hm hn data,
    fun q o raw => ⟨fun status n => State.fetchOne_refused, State.fetchOne_admitted⟩,
    fun q j job => execJobPlacement_direct,
    fun q j job g p hq hj hb hh hk hg hc => execJobPlacement_placed hq hj hb hh hk hg hc,
    fun q j job g hq hj hb hh hk hg hc => execJobPlacement_revoked hq hj hb hh hk hg hc,
    fun q j job => execJobPlacement_noGrain,
    fun q j job => execJobPlacement_heldBack,
    fun j g job p hj => State.placeJob_placed hj g p,
    fun j job hj hk hs hb => (execNop_fenced hj hk hs).trans (by simp [hb]),
    fun j job hj hk hs hb => (execNop_fenced hj hk hs).trans (by simp [hb])⟩

end Sys2Proof.Claims
end

section
/-!
O40: the key, input and output stages of a job, its completion, and the messages of R44 and R67.
-/
namespace Sys2Proof.Machine

/-! The key stage (R17, R60, R202). -/

section
variable {s : State} {j g : Nat} {job : Job} {blob : List Byte}

/-- The verdict on the first key ends the job before the second key is judged. -/
theorem State.keyStage_first (h : (s.judge1 job ((s.grain g).header.flags.testBit 4) blob).1 ≠ Status.ok) :
    s.keyStage j g job blob =
      s.endExecution j g (s.judge1 job ((s.grain g).header.flags.testBit 4) blob).1 0 0 := by
  simp only [State.keyStage, if_pos h]

variable {m1 : KeyMat} (h1 : s.judge1 job ((s.grain g).header.flags.testBit 4) blob = (Status.ok, m1))
include h1

theorem State.keyStage_second (h : s.judge2 job ((s.grain g).header.flags.testBit 4) m1 ≠ Status.ok) :
    s.keyStage j g job blob = s.endExecution j g (s.judge2 job ((s.grain g).header.flags.testBit 4) m1) 0 0 := by
  simp only [State.keyStage, h1, ne_eq, not_true_eq_false, if_false, if_pos h]

/-- Good keys whose slots hold no charge and need no floor, of an operation without leaves, are supplied. -/
theorem State.keyStage_good (h2 : s.judge2 job ((s.grain g).header.flags.testBit 4) m1 = Status.ok)
    (hs : ∀ k ∈ s.chargedSlots job, (s.slot k).holdsCharges = false ∧ s.needsFloor k = false)
    (hl : leafKind (s.kindOf job) = false) : s.keyStage j g job blob = s.supplyKeys j g job m1 := by
  have hheld : ((s.chargedSlots job).any fun k => (s.slot k).holdsCharges) = false := by
    simpa using fun k hk => (hs k hk).1
  have hfloor : (s.chargedSlots job).find? s.needsFloor = none := by
    simpa using fun k hk => (hs k hk).2
  simp only [State.keyStage, h1, h2, hheld, hfloor, hl, ite_self, ne_eq, not_true_eq_false, if_false, Bool.and_false,
    Bool.false_eq_true, false_and]
end

/-- Where the port's random bytes and the key port's words are at hand, the keys pass. -/
theorem State.supplyKeys_drawn {s t u : State} {j g : Nat} {job : Job} {m1 : KeyMat} {bytes : List Byte} {o : PairOwner}
    (ho : s.pairOwner job.pair = some o)
    (hd : s.drawPort (g / 256) o.port
      (drbgBytes (s.kindOf job) (setOf job.desc.opcode) job.desc.param (attrLen m1.attr)) = (t, .bytes bytes))
    (hk : t.drawKeyPort (g / 256)
      (shareWords { job with order2 := attrOrder2 m1.attr } (m1.secret.length + bytes.length)) = some u) :
    s.supplyKeys j g job m1 = u.passKeys j g job m1 bytes := by
  simp only [State.supplyKeys, ho, hd, hk]

section
variable {s : State} {j g : Nat} {job : Job} (hj : s.job j = some job) (hg : job.grain = some g)
  (hst : job.stage = .placed ∨ job.stage = .key) (hb : (s.bed (g / 16)).state = .awake)
  (hr : (s.grain g).state = .running) (hh : s.power.holdActive = false) (hu : (s.quad (g / 256)).unlocked = false)
  (hw : s.waitsForShelf job = false)
include hj hg hst hb hr hh hu hw

theorem execKeyStage_refused (hf : job.desc.keyForm = 3) :
    execKeyStage j none s = .next (s.endExecution j g Status.dmaError 0 0) := by
  have hstage : ¬(job.stage ≠ .placed ∧ job.stage ≠ .key) := by tauto
  simp [execKeyStage, hj, hg, hstage, hb, hr, hh, hu, hw, hf]

theorem execKeyStage_judged (b : Option (List Byte)) (hf : job.desc.keyForm ≠ 3) :
    execKeyStage j b s = .next (s.keyStage j g job []) := by
  have hstage : ¬(job.stage ≠ .placed ∧ job.stage ≠ .key) := by tauto
  simp [execKeyStage, hj, hg, hstage, hb, hr, hh, hu, hw, hf]
end

/-! What the passed keys leave of the job. -/

@[simp] theorem State.charge_jobs (s : State) (k : Nat) : (s.charge k).jobs = s.jobs := by
  unfold State.charge
  extract_lets x b s1
  split <;> simp [s1]

@[simp] theorem State.deliver_jobs (s : State) (g : Nat) (job : Job) : (s.deliver g job).jobs = s.jobs := rfl

/-- Claiming a slot changes the job's claim alone. -/
theorem State.job_claim {s : State} {j k : Nat} {job : Job} (h : s.job j = some job) :
    (s.claim j k).job j = some { job with claim := some k } := State.job_modJob (s := s.modSlot k _) h

/-- The input stage follows the key stage with the keys and the random bytes in hand. -/
theorem State.passKeys_job {s : State} {j : Nat} (h : (s.job j).isSome = true) (g : Nat) (job : Job) (m1 : KeyMat)
    (bytes : List Byte) : ((s.passKeys j g job m1 bytes).job j).map (fun x => (x.stage, x.key1, x.random, x.charged)) =
      some (.input, m1, bytes, true) := by
  unfold State.passKeys
  extract_lets slots s1 m2 secret c s2 s3
  have h1 : s1.job j = s.job j := by
    have hjobs : s1.jobs = s.jobs := by
      unfold s1
      split
      · rfl
      · exact foldl_keeps s (fun s => s.jobs) State.charge State.charge_jobs slots
    rw [State.job, hjobs, State.job]
  obtain ⟨x1, hx1⟩ := Option.isSome_iff_exists.1 (h1 ▸ h)
  have h2 : ∃ x2, s2.job j = some x2 := by
    unfold s2
    cases c with
    | none => exact ⟨x1, hx1⟩
    | some k => exact ⟨_, State.job_claim hx1⟩
  obtain ⟨x2, hx2⟩ := h2
  have h3 : s3.job j = _ := State.job_modJob hx2
  rw [h3]
  dsimp only
  rw [State.job, State.deliver_jobs, ← State.job, h3]
  rfl

/-! The input stage (R20, R57). -/

section
variable {s : State} {j : Nat} {job : Job} (hj : s.job j = some job) (hst : job.stage = .input) (hh : job.held = false)
  (ha : s.power.holdActive = false) {list data : Option (List Byte)}
include hj hst hh ha

theorem execInputDmaDone_grain {g : Nat} {d : List Byte} (hg : job.grain = some g)
    (hi : inputOf job.desc list data = .ok d) :
    execInputDmaDone j list data s = .next (s.startProgram j g job d) := by
  simp [execInputDmaDone, hj, hst, hh, ha, hg, hi]

theorem execInputDmaDone_direct {d : List Byte} (hg : job.grain = none) (hi : inputOf job.desc list data = .ok d) :
    execInputDmaDone j list data s = .next (s.modJob j fun x => { x with stage := .execute, input := d }) := by
  simp [execInputDmaDone, hj, hst, hh, ha, hg, hi]

theorem execInputDmaDone_grain_bad {g e : Nat} (hg : job.grain = some g)
    (hi : inputOf job.desc list data = .error e) :
    execInputDmaDone j list data s = .next (s.endExecution j g e 0 0) := by
  simp [execInputDmaDone, hj, hst, hh, ha, hg, hi]

theorem execInputDmaDone_direct_bad {e : Nat} (hg : job.grain = none) (hi : inputOf job.desc list data = .error e) :
    execInputDmaDone j list data s = .next (s.endDirect j e []) := by
  simp [execInputDmaDone, hj, hst, hh, ha, hg, hi]
end

/-- A changed grain of a sound state reads back. -/
theorem State.grain_modGrain {s : State} (h : s.Sound) (g : Nat) (f : Grain → Grain) :
    (s.modGrain g f).grain g = f (s.grain g) := Map.get_modify_self h.grains g {} f

/-- The program starts at ENTRY, and its job executes with the input (R20, R97). -/
theorem State.startProgram_starts {s : State} (h : s.Sound) {j : Nat} {job : Job} (hj : s.job j = some job) (g : Nat)
    (d : List Byte) : ((s.startProgram j g job d).grain g).pc = (s.grain g).header.entry ∧
      ((s.startProgram j g job d).job j).map (fun x => (x.stage, x.input)) = some (.execute, d) := by
  unfold State.startProgram
  extract_lets hd head n s1
  have hjob : (s1.modJob j fun x => { x with stage := .execute, input := d, delivered := n }).job j = _ :=
    State.job_modJob (s := s1) hj
  rw [State.modJob_grain, State.grain_modGrain h, hjob]
  exact ⟨rfl, rfl⟩

/-! The output stage (R57, R64 to R67). -/

section
variable {s : State} {j : Nat} {job : Job} (hj : s.job j = some job) (hst : job.stage = .output) (hh : job.held = false)
  {list : Option (List Byte)}
include hj hst hh

theorem execOutputStageDone_badList {e : Nat} (hr : outputRanges job list = .error e) (accepted ring : Bool) :
    execOutputStageDone j list accepted ring s = .next ((s.leaveGrain job).complete j e ring) := by
  simp [execOutputStageDone, hj, hst, hh, hr]

variable {es : List (Nat × Nat)} (hr : outputRanges job list = .ok es)
include hr

theorem execOutputStageDone_refused (ring : Bool) :
    execOutputStageDone j list false ring s = .next ((s.leaveGrain job).complete j Status.dmaError ring) := by
  simp [execOutputStageDone, hj, hst, hh, hr]

theorem execOutputStageDone_written {o : PairOwner} (ho : s.pairOwner job.pair = some o) (ring : Bool) :
    execOutputStageDone j list true ring s =
      .next (((s.dmaScatter o.port o.func es job.out).leaveGrain job).complete j job.status ring) := by
  simp [execOutputStageDone, hj, hst, hh, hr, ho]
end

/-! Messages (R44, R67). -/

theorem execIrqCoalesceTimeout_counted {s : State} {q : Nat} {o : PairOwner} (ho : s.pairOwner q = some o)
    (hc : (s.queue q).counted ≠ 0) (ht : (s.queue q).timeUs ≠ 0) : execIrqCoalesceTimeout q s =
      .next ((s.modQueue q fun x => { x with counted := 0 }).raiseVector o.port o.func (completionVector o)) := by
  simp [execIrqCoalesceTimeout, ho, hc, ht]

/-- The vector table entry of `v` without its mask and its pending bit. -/
def Func.unmasked (v : Nat) (x : Func) : Func :=
  { x with
    msixMasked := if x.msixMasked.testBit v then x.msixMasked - 2 ^ v else x.msixMasked
    msixPending := if x.msixPending.testBit v then x.msixPending - 2 ^ v else x.msixPending }

theorem execMsixVectorUnmask_pending {s : State} {p f v : Nat} (hp : (s.func (fnKey p f)).msixPending.testBit v = true)
    (hl : (s.port p).perstLow = false) :
    execMsixVectorUnmask p f v s = .next ((s.modFunc (fnKey p f) (Func.unmasked v)).emit (.msix p f v)) :=
  congrArg _ (if_pos ⟨hp, congrArg not hl⟩)

theorem execMsixVectorUnmask_quiet {s : State} {p f v : Nat} (hp : (s.func (fnKey p f)).msixPending.testBit v = false) :
    execMsixVectorUnmask p f v s = .next (s.modFunc (fnKey p f) (Func.unmasked v)) :=
  congrArg _ (if_neg fun h => Bool.false_ne_true (hp ▸ h.1))

/-! The completion entry (R64, R65). -/

theorem State.releaseClaim_eq (s : State) (job : Job) : ∃ f, s.releaseClaim job = s.modVault f := by
  unfold State.releaseClaim
  cases job.claim with
  | none => exact ⟨id, rfl⟩
  | some k => exact ⟨fun v => { v with slots := v.slots.modify k {} _ }, rfl⟩

theorem State.commitCtx_eq (s : State) (job : Job) : ∃ f, s.commitCtx job = s.modVault f := by
  unfold State.commitCtx
  cases job.ctx with
  | none => exact ⟨id, rfl⟩
  | some c =>
    cases job.ctxNew with
    | none => exact ⟨id, rfl⟩
    | some x => exact ⟨fun v => { v with ctxs := v.ctxs.modify c {} _ }, rfl⟩

theorem State.releaseCtx_eq (s : State) (job : Job) : ∃ f, s.releaseCtx job = s.modVault f := by
  unfold State.releaseCtx
  cases job.ctx with
  | none => exact ⟨id, rfl⟩
  | some c => exact ⟨fun v => { v with ctxs := v.ctxs.modify c {} _ }, rfl⟩

/-- What an ended job gives up, its claim and its context, lies in the vault. -/
theorem State.released_eq (s : State) (job : Job) (status : Nat) : ∃ f,
    (if status = Status.ok then (if status = Status.ok then s else s.releaseClaim job).commitCtx job
      else (if status = Status.ok then s else s.releaseClaim job)).releaseCtx job = s.modVault f := by
  by_cases hok : status = Status.ok
  · obtain ⟨f, hf⟩ := s.commitCtx_eq job
    obtain ⟨f', hf'⟩ := (s.modVault f).releaseCtx_eq job
    simp only [if_pos hok]
    exact ⟨f' ∘ f, by rw [hf, hf']; rfl⟩
  · obtain ⟨f, hf⟩ := s.releaseClaim_eq job
    obtain ⟨f', hf'⟩ := (s.modVault f).releaseCtx_eq job
    simp only [if_neg hok]
    exact ⟨f' ∘ f, by rw [hf, hf']; rfl⟩

/-- The bytes that a completion reports as written. -/
def Job.reported (job : Job) (status : Nat) : Nat :=
  if status = Status.ok ∨ status = Status.outputShort then job.outWritten else 0

/-- The epoch that a completion reports: that of the job's bed, or the device's. -/
def State.reportedEpoch (s : State) (job : Job) : Nat := if job.grain.isSome then job.epoch else s.glb.epoch

/-- The pair with one job less in flight. -/
def Queue.oneLess (x : Queue) : Queue := { x with inflight := x.inflight - 1 }

/-- The state without job `j`, which has left its pair. -/
def State.left (s : State) (j : Nat) (job : Job) : State :=
  { s with jobs := s.jobs.erase j }.modQueue job.pair Queue.oneLess

/-- A completion of an owned pair gives up what the job holds in the vault, and writes the entry. -/
theorem State.complete_owned {s : State} {j : Nat} {job : Job} {o : PairOwner} (hj : s.job j = some job)
    (ho : s.pairOwner job.pair = some o) (status : Nat) : ∃ f, s.complete j status true =
      (((s.modVault f).left j job).countJob job status (job.reported status)).writeCompletion o job
        (s.reportedEpoch job) status (job.reported status) := by
  obtain ⟨f, hf⟩ := s.released_eq job status
  have ho' : ((s.modVault f).left j job).pairOwner job.pair = some o := ho
  refine ⟨f, ?_⟩
  unfold State.complete
  rw [hj]
  dsimp only
  rw [hf]
  unfold State.left Queue.oneLess at ho'
  rw [ho']
  rfl

@[simp] theorem State.dmaWrite_jobs (s : State) (p f a : Nat) (d : List Byte) (r : Bool) :
    (s.dmaWrite p f a d r).jobs = s.jobs := by
  unfold State.dmaWrite
  dsimp only
  split
  · rfl
  · split <;> rfl

@[simp] theorem State.countCompletion_jobs (s : State) (q : Nat) (o : PairOwner) (irq : Bool) :
    (s.countCompletion q o irq).jobs = s.jobs := by
  unfold State.countCompletion
  dsimp only
  split
  · rfl
  · split <;> simp

@[simp] theorem State.writeCompletion_jobs (s : State) (o : PairOwner) (job : Job) (e st n : Nat) :
    (s.writeCompletion o job e st n).jobs = s.jobs := by
  simp [State.writeCompletion]

/-- What has been sent stays sent when a vector is raised. -/
theorem State.mem_raiseVector_out {s : State} {x : Out} (h : x ∈ s.out) (p f v : Nat) : x ∈ (s.raiseVector p f v).out := by
  unfold State.raiseVector
  dsimp only
  split
  · exact h
  · split
    · exact h
    · exact List.mem_append_left _ h

theorem State.mem_countCompletion_out {s : State} {x : Out} (h : x ∈ s.out) (q : Nat) (o : PairOwner) (irq : Bool) :
    x ∈ (s.countCompletion q o irq).out := by
  unfold State.countCompletion
  dsimp only
  split
  · exact h
  · split
    · exact State.mem_raiseVector_out (by exact h) _ _ _
    · exact h

theorem completionBytes_ne_nil (qu : Queue) (o : PairOwner) (job : Job) (e st n : Nat) :
    completionBytes qu o job e st n ≠ [] := by
  apply List.ne_nil_of_length_pos
  simp only [completionBytes, List.length_append, leBytes_length]
  omega

/-- The write of a function that runs is sent. -/
theorem State.dmaWrite_sent {s : State} {p f : Nat} (hr : (s.func (fnKey p f)).flr = false)
    (ht : (s.func (fnKey p f)).tdisp ≠ .error) (a : Nat) {d : List Byte} (hd : d ≠ []) (r : Bool) :
    .dma p f a d r (decide ((s.func (fnKey p f)).tdisp = .run)) ∈ (s.dmaWrite p f a d r).out := by
  unfold State.dmaWrite
  simp [hr, ht, hd]

/-- The entry stands at the completion tail. -/
theorem State.writeCompletion_sent {s : State} {o : PairOwner} (hr : (s.func (fnKey o.port o.func)).flr = false)
    (ht : (s.func (fnKey o.port o.func)).tdisp ≠ .error) (job : Job) (e st n : Nat) :
    ∃ tbit, .dma o.port o.func ((s.queue job.pair).cqb.toNat + 32 * (s.queue job.pair).cqTail)
      (completionBytes (s.queue job.pair) o job e st n) false tbit ∈ (s.writeCompletion o job e st n).out := by
  unfold State.writeCompletion
  extract_lets qu s1 next s2 s3
  have hd := completionBytes_ne_nil qu o job e st n
  have hsent : _ ∈ s1.out := State.dmaWrite_sent hr ht (qu.cqb.toNat + 32 * qu.cqTail) hd false
  clear_value s1
  exact ⟨decide ((s.func (fnKey o.port o.func)).tdisp = .run), State.mem_countCompletion_out (s := s3) hsent _ _ _⟩

/-- A completed job has left, and its entry stands at the completion tail. -/
theorem State.complete_sent {s : State} (h : s.Sound) {j : Nat} {job : Job} {o : PairOwner} (hj : s.job j = some job)
    (ho : s.pairOwner job.pair = some o) (hr : (s.func (fnKey o.port o.func)).flr = false)
    (ht : (s.func (fnKey o.port o.func)).tdisp ≠ .error) (status : Nat) :
    (s.complete j status true).job j = none ∧
    ∃ tbit, .dma o.port o.func ((s.queue job.pair).cqb.toNat + 32 * (s.queue job.pair).cqTail)
      (completionBytes (s.queue job.pair) o job (s.reportedEpoch job) status (job.reported status)) false tbit ∈
        (s.complete j status true).out := by
  obtain ⟨f, hf⟩ := State.complete_owned hj ho status
  rw [hf]
  generalize hu : ((s.modVault f).left j job).countJob job status (job.reported status) = u
  have hjobs : u.jobs = s.jobs.erase j := by rw [← hu]; rfl
  have hqueue : u.queue job.pair = (s.queue job.pair).oneLess := by
    rw [← hu]
    exact Map.get_modify_self h.queues job.pair {} Queue.oneLess
  have hfunc : u.func (fnKey o.port o.func) = s.func (fnKey o.port o.func) := by rw [← hu]; rfl
  constructor
  · rw [State.job, State.writeCompletion_jobs, hjobs]
    exact Map.find?_erase_self h.jobs j
  · have hsent := State.writeCompletion_sent (hfunc ▸ hr) (hfunc ▸ ht) job (s.reportedEpoch job) status (job.reported status)
    rw [hqueue] at hsent
    exact hsent

end Sys2Proof.Machine

namespace Sys2Proof.Claims
open Sys2Proof.Machine

/-- Settles O40, stage by stage; the completion entry comes from `State.complete_sent`. -/
theorem jobStages : Obligations.JobStages := by
  intro s
  exact ⟨fun j job g => execKeyStage_refused,
    fun j job g b hj hg hst hb hr hh hu hw hf h1 =>
      (execKeyStage_judged hj hg hst hb hr hh hu hw b hf).trans (congrArg _ (State.keyStage_first h1)),
    fun j job g b m1 hj hg hst hb hr hh hu hw hf h1 h2 =>
      (execKeyStage_judged hj hg hst hb hr hh hu hw b hf).trans (congrArg _ (State.keyStage_second h1 h2)),
    fun j job g b m1 bytes t u o hj hg hst hb hr hh hu hw hf h1 h2 hs hl ho hd hk =>
      (execKeyStage_judged hj hg hst hb hr hh hu hw b hf).trans
        (congrArg _ ((State.keyStage_good h1 h2 hs hl).trans (State.supplyKeys_drawn ho hd hk))),
    fun j g job m1 bytes h => State.passKeys_job h g job m1 bytes,
    fun j job g l x d hj hst hh ha => execInputDmaDone_grain hj hst hh ha,
    fun j job l x d hj hst hh ha => execInputDmaDone_direct hj hst hh ha,
    fun j job g l x e hj hst hh ha => execInputDmaDone_grain_bad hj hst hh ha,
    fun j job l x e hj hst hh ha => execInputDmaDone_direct_bad hj hst hh ha,
    fun j g job d h hj => State.startProgram_starts h hj g d,
    fun j job l ring e accepted hj hst hh hr => execOutputStageDone_badList hj hst hh hr accepted ring,
    fun j job l ring es hj hst hh hr => execOutputStageDone_refused hj hst hh hr ring,
    fun j job l ring es o hj hst hh hr ho => execOutputStageDone_written hj hst hh hr ho ring,
    fun j job o status h hj ho hr ht => State.complete_sent h hj ho hr ht status,
    fun q o => execIrqCoalesceTimeout_counted,
    fun p f v => execMsixVectorUnmask_pending,
    fun p f v => execMsixVectorUnmask_quiet⟩

end Sys2Proof.Claims
end

section
/-!
What the end of a job, a stopped digest engine, an event or a frame of the Uncel chain leaves alone: the tamper system, the
life cycle, the generator, and all of the vault but its slots and contexts. A zeroize and an alarm are made of these.
-/
namespace Sys2Proof.Machine

/-- `t` differs from `s` neither in the tamper system, the life cycle and the generator, nor in the vault but for slots and
contexts, and opens no context where there was none. -/
structure State.KeepsSecrets (s t : State) : Prop where
  tamper : t.tamper = s.tamper
  life : t.life = s.life
  rng : t.rng = s.rng
  vault : { t.vault with slots := s.vault.slots, ctxs := s.vault.ctxs } = s.vault
  ctxs : s.vault.ctxs = [] → t.vault.ctxs = []

namespace State.KeepsSecrets

theorem of_eq {s t : State} (ht : t.tamper = s.tamper) (hl : t.life = s.life) (hr : t.rng = s.rng)
    (hv : t.vault = s.vault) : s.KeepsSecrets t := ⟨ht, hl, hr, by rw [hv], by rw [hv]; exact id⟩

theorem refl (s : State) : s.KeepsSecrets s := of_eq rfl rfl rfl rfl

theorem trans {s t u : State} (h : s.KeepsSecrets t) (k : t.KeepsSecrets u) : s.KeepsSecrets u where
  tamper := k.tamper.trans h.tamper
  life := k.life.trans h.life
  rng := k.rng.trans h.rng
  vault := by
    have hv := h.vault
    rw [← k.vault] at hv
    exact hv
  ctxs e := k.ctxs (h.ctxs e)

/-- Steps that each keep the secrets keep them together. -/
theorem foldl {α : Type} {f : State → α → State} (hf : ∀ (s : State) x, s.KeepsSecrets (f s x)) (l : List α) (s : State) :
    s.KeepsSecrets (l.foldl f s) := by
  induction l generalizing s with
  | nil => exact refl s
  | cons x l ih => exact (hf s x).trans (ih (f s x))

theorem ite {c : Prop} [Decidable c] {s t u : State} (ht : s.KeepsSecrets t) (hu : s.KeepsSecrets u) :
    s.KeepsSecrets (if c then t else u) := by
  split <;> assumption

theorem event (s : State) (r : SqId) (m : Nat) : s.KeepsSecrets (s.event r m) := of_eq (by simp) (by simp) (by simp) (by simp)

theorem raiseVector (s : State) (p f v : Nat) : s.KeepsSecrets (s.raiseVector p f v) :=
  of_eq (by simp) (by simp) (by simp) (by simp)

theorem digStop (s : State) (e : Nat) (err : DigError) : s.KeepsSecrets (s.digStop e err) := by
  unfold State.digStop
  refine ite ?_ (ite (refl s) (of_eq rfl rfl rfl rfl))
  exact (of_eq rfl rfl rfl rfl : s.KeepsSecrets (s.modDigest e _)).trans (event _ _ _)

/-! The end of a job. -/

theorem modGrain (s : State) (g : Nat) (f : Grain → Grain) : s.KeepsSecrets (s.modGrain g f) := of_eq rfl rfl rfl rfl

theorem releaseClaim (s : State) (job : Job) : s.KeepsSecrets (s.releaseClaim job) := by
  unfold State.releaseClaim
  cases job.claim with
  | none => exact refl s
  | some k => exact ⟨rfl, rfl, rfl, rfl, id⟩

theorem releaseCtx (s : State) (job : Job) : s.KeepsSecrets (s.releaseCtx job) := by
  unfold State.releaseCtx
  cases job.ctx with
  | none => exact refl s
  | some c =>
    refine ⟨rfl, rfl, rfl, rfl, fun h => ?_⟩
    simp [h, Map.modify, Map.set, Map.get, Map.erase]

theorem dropEngines (s : State) (j : Nat) : s.KeepsSecrets (s.dropEngines j) := by
  unfold State.dropEngines
  extract_lets mine s1
  have h1 : s.KeepsSecrets s1 := of_eq rfl rfl rfl rfl
  refine h1.trans (foldl (fun s n => ?_) mine s1)
  refine ite ?_ (of_eq rfl rfl rfl rfl)
  split
  · exact (of_eq rfl rfl rfl rfl : s.KeepsSecrets (s.modEngine n _)).trans (event _ _ _)
  · exact of_eq rfl rfl rfl rfl

theorem stopPair (s : State) (q code : Nat) : s.KeepsSecrets (s.stopPair q code) := by
  unfold State.stopPair
  extract_lets s1
  have h1 : s.KeepsSecrets s1 := of_eq rfl rfl rfl rfl
  have h2 : s.KeepsSecrets s1.spend := of_eq rfl rfl rfl rfl
  split
  · exact ite (h2.trans (event _ _ _)) (h1.trans (event _ _ _))
  · exact h1

theorem dmaWrite (s : State) (p f a : Nat) (d : List Byte) (r : Bool) : s.KeepsSecrets (s.dmaWrite p f a d r) := by
  unfold State.dmaWrite
  refine ite (refl s) ?_
  dsimp only
  split <;> exact of_eq rfl rfl rfl rfl

theorem countCompletion (s : State) (q : Nat) (o : PairOwner) (irq : Bool) :
    s.KeepsSecrets (s.countCompletion q o irq) := by
  unfold State.countCompletion
  refine ite (refl s) (ite ?_ (of_eq rfl rfl rfl rfl))
  exact (of_eq rfl rfl rfl rfl : s.KeepsSecrets (s.modQueue q _)).trans (raiseVector _ _ _ _)

theorem writeCompletion (s : State) (o : PairOwner) (job : Job) (e st n : Nat) :
    s.KeepsSecrets (s.writeCompletion o job e st n) := by
  unfold State.writeCompletion
  extract_lets qu s1 next s2 s3
  have h1 : s.KeepsSecrets s1 := dmaWrite _ _ _ _ _ _
  clear_value s1
  have h3 : s1.KeepsSecrets s3 := of_eq rfl rfl rfl rfl
  exact (h1.trans h3).trans (countCompletion _ _ _ _)

theorem countJob (s : State) (job : Job) (st n : Nat) : s.KeepsSecrets (s.countJob job st n) := of_eq rfl rfl rfl rfl

/-- A job that ends otherwise than OK changes no context but its own, which it gives back. -/
theorem complete (s : State) (j : Nat) {status : Nat} (hok : status ≠ Status.ok) (ring : Bool) :
    s.KeepsSecrets (s.complete j status ring) := by
  unfold State.complete
  cases s.job j with
  | none => exact refl s
  | some job =>
    simp only [if_neg hok]
    have hrel := (releaseClaim s job).trans (releaseCtx _ job)
    refine hrel.trans ?_
    generalize (s.releaseClaim job).releaseCtx job = u
    have hleft : u.KeepsSecrets (u.left j job) := of_eq rfl rfl rfl rfl
    split
    · exact hleft
    · refine ite ?_ (hleft.trans (stopPair _ _ _))
      exact (hleft.trans (countJob _ _ _ _)).trans (writeCompletion _ _ _ _ _ _)

theorem modJob (s : State) (j : Nat) (f : Job → Job) : s.KeepsSecrets (s.modJob j f) := by
  obtain ⟨js, h⟩ := s.modJob_eq j f
  rw [h]
  exact of_eq rfl rfl rfl rfl

theorem endDirect (s : State) (j : Nat) {status : Nat} (hok : status ≠ Status.ok) (out : List Byte) :
    s.KeepsSecrets (s.endDirect j status out) := by
  unfold State.endDirect
  cases s.job j with
  | none => exact refl s
  | some job =>
    simp only [if_pos hok]
    exact complete s j hok true

theorem abortJob (s : State) (j : Nat) {status : Nat} (hok : status ≠ Status.ok) : s.KeepsSecrets (s.abortJob j status) := by
  unfold State.abortJob
  cases s.job j with
  | none => exact refl s
  | some job =>
    dsimp only
    cases job.grain with
    | none => exact complete s j hok true
    | some g =>
      dsimp only
      exact (((releaseClaim s job).trans (dropEngines _ j)).trans (modGrain _ g _)).trans (modJob _ j _)

/-! Frames of the Uncel chain. -/

theorem transmit (s : State) (b : Bool) (f : Frame) : s.KeepsSecrets (s.transmit b f) :=
  ite (of_eq rfl rfl rfl rfl) (refl s)

theorem originate (s : State) (dst type : Nat) (payload : List Byte) : s.KeepsSecrets (s.originate dst type payload) := by
  unfold State.originate
  cases s.uncel.addr with
  | none => exact refl s
  | some a =>
    have hmod : ∀ f, s.KeepsSecrets (s.modUncel f) := fun _ => of_eq rfl rfl rfl rfl
    dsimp only
    split
    · exact ite ((hmod _).trans (transmit _ _ _)) (hmod _)
    · exact ite (((hmod _).trans (transmit _ _ _)).trans (transmit _ _ _)) ((hmod _).trans (transmit _ _ _))

theorem broadcastTamper (s : State) (srcs responses : Nat) : s.KeepsSecrets (s.broadcastTamper srcs responses) := by
  unfold State.broadcastTamper State.originateAuth
  refine ite ?_ (refl s)
  split
  · exact (of_eq rfl rfl rfl rfl : s.KeepsSecrets (s.tick.modUncel _)).trans (originate _ _ _ _)
  · exact refl s

end State.KeepsSecrets

end Sys2Proof.Machine
end

section
/-!
O50: what a zeroize leaves (R13, R300, R323), what an alarm does (R413, R414, R418), and the samples of the monitors.
-/
namespace Sys2Proof.Machine

/-! Zeroize. -/

/-- The secrets are gone and the scrubs of the stores have started. -/
def State.Zeroized (t : State) : Prop :=
  t.vault.rootSecret = [] ∧ t.vault.rootValid = false ∧ t.vault.ctxs = [] ∧ t.vault.slotKekValid = false ∧
  t.vault.cacheKekValid = false ∧ t.vault.ctxKekValid = false ∧ t.vault.aliasKey = false ∧ t.vault.scrubSlots = true ∧
  t.vault.scrubCtxs = true ∧ t.vault.scrubCache = true ∧ t.rng.queue = [] ∧ t.rng.buffers = []

theorem State.KeepsSecrets.zeroized {s t : State} (h : s.KeepsSecrets t) (z : s.Zeroized) : t.Zeroized := by
  obtain ⟨h1, h2, h3, h4, h5, h6, h7, h8, h9, h10, h11, h12⟩ := z
  have hv : ∀ {α : Type} (f : Vault → α), f { t.vault with slots := s.vault.slots, ctxs := s.vault.ctxs } = f s.vault :=
    fun f => congrArg f h.vault
  exact ⟨(hv Vault.rootSecret).trans h1, (hv Vault.rootValid).trans h2, h.ctxs h3, (hv Vault.slotKekValid).trans h4,
    (hv Vault.cacheKekValid).trans h5, (hv Vault.ctxKekValid).trans h6, (hv Vault.aliasKey).trans h7,
    (hv Vault.scrubSlots).trans h8, (hv Vault.scrubCtxs).trans h9, (hv Vault.scrubCache).trans h10,
    (congrArg Rng.queue h.rng).trans h11, (congrArg Rng.buffers h.rng).trans h12⟩

theorem zeroized_ne_ok : Status.zeroized ≠ Status.ok := by decide

/-- In the generator a zeroize clears seeds and buffers; beyond it only grains and jobs change. -/
theorem State.zeroizeRng_keeps (s : State) : ∃ b : State, b.tamper = s.tamper ∧ b.life = s.life ∧ b.vault = s.vault ∧
    b.rng.queue = [] ∧ b.rng.buffers = [] ∧ b.KeepsSecrets s.zeroizeRng := by
  unfold State.zeroizeRng
  extract_lets waiting grains s1 s2
  have h2 : s1.KeepsSecrets s2 := .foldl (fun s g => .modGrain s g _) grains s1
  exact ⟨s1, rfl, rfl, rfl, rfl, rfl, h2.trans (.foldl (fun s j => .endDirect s j zeroized_ne_ok []) waiting s2)⟩

@[simp] theorem State.logDestroyed_tamper (s : State) (k p : Nat) : (s.logDestroyed k p).tamper = s.tamper :=
  State.log_tamper s _ _

@[simp] theorem State.logDestroyed_life (s : State) (k p : Nat) : (s.logDestroyed k p).life = s.life :=
  State.log_life s _ _

@[simp] theorem State.logDestroyed_vault (s : State) (k p : Nat) : (s.logDestroyed k p).vault = s.vault :=
  State.log_vault s _ _

/-- A zeroize clears what it must, and neither the tamper system nor the life cycle changes. -/
theorem State.zeroize_keeps (s : State) : s.zeroize.tamper = s.tamper ∧ s.zeroize.life = s.life ∧ s.zeroize.Zeroized := by
  unfold State.zeroize
  extract_lets s1 s2 s3 s4 s5
  have ht1 : s1.tamper = s.tamper := foldl_keeps s (fun s => s.tamper) _ (fun s k => s.logDestroyed_tamper k 3) _
  have hl1 : s1.life = s.life := foldl_keeps s (fun s => s.life) _ (fun s k => s.logDestroyed_life k 3) _
  obtain ⟨b, hbt, hbl, hbv, hq, hbuf, hb⟩ := s2.zeroizeRng_keeps
  have hz : b.Zeroized := by
    unfold State.Zeroized
    rw [hbv]
    exact ⟨rfl, rfl, rfl, rfl, rfl, rfl, rfl, rfl, rfl, rfl, hq, hbuf⟩
  have h4 : s3.KeepsSecrets s4 := .foldl (fun s j => .abortJob s j zeroized_ne_ok) _ s3
  have h5 : s4.KeepsSecrets s5 := .foldl (fun s e => .digStop s e .zeroized) _ s4
  have h : b.KeepsSecrets (s5.event .key 16) := ((hb.trans h4).trans h5).trans (.event s5 .key 16)
  exact ⟨h.tamper.trans (hbt.trans ht1), h.life.trans (hbl.trans hl1), h.zeroized hz⟩

/-! Resets and the lock (R337, R418, R419). -/

/-- A lock is known in MANUFACTURED and OWNED alone (R417). -/
def State.lockable (s : State) : Prop := s.life.state = .manufactured ∨ s.life.state = .owned

/-- A response that locks is in force only where the lock is known. -/
theorem State.lockable_of_response {s : State} {k : Nat} (h : (s.responses k).testBit 3 = true) : s.lockable := by
  have hout : Nat.testBit (tmpArmed + tmpOut) 3 = false := by decide
  have hlog : Nat.testBit (tmpArmed + tmpLog + tmpOut) 3 = false := by decide
  unfold State.responses keepBits at h
  unfold State.lockable
  cases hs : s.life.state <;> simp [hs, Nat.testBit_and, hout, hlog] at h ⊢

/-- Root secret and contexts are gone. -/
def State.RootCleared (t : State) : Prop := t.vault.rootValid = false ∧ t.vault.ctxs = []

theorem State.Zeroized.rootCleared {t : State} (h : t.Zeroized) : t.RootCleared := by
  obtain ⟨-, hroot, hctxs, -⟩ := h
  exact ⟨hroot, hctxs⟩

/-- The fabric's reset keeps the tamper system, the life cycle and the root, and no context. -/
theorem State.clearTopsoil_keeps (s : State) (logged : Bool) : (s.clearTopsoil logged).tamper = s.tamper ∧
    (s.clearTopsoil logged).life = s.life ∧ (s.clearTopsoil logged).vault.rootValid = s.vault.rootValid ∧
    (s.clearTopsoil logged).vault.ctxs = [] := by
  unfold State.clearTopsoil
  extract_lets s1 s2
  have h1 : s1.tamper = s.tamper ∧ s1.life = s.life ∧ s1.vault = s.vault := by
    unfold s1
    split
    · exact ⟨foldl_keeps s (fun s => s.tamper) _ (fun s k => s.logDestroyed_tamper k 6) _,
        foldl_keeps s (fun s => s.life) _ (fun s k => s.logDestroyed_life k 6) _,
        foldl_keeps s (fun s => s.vault) _ (fun s k => s.logDestroyed_vault k 6) _⟩
    · exact ⟨rfl, rfl, rfl⟩
  obtain ⟨ht, hl, hv⟩ := h1
  have hroot : s1.vault.rootValid = s.vault.rootValid := congrArg Vault.rootValid hv
  exact ⟨ht, hl, hroot, rfl⟩

/-- A full reset of a latched device that knows the lock leaves it locked. -/
theorem State.fullReset_locked {s : State} (hl : s.lockable) (ht : s.tamper.latch = true) (cause : Nat) (phase : Phase)
    (logged : Bool) : (s.fullReset cause phase logged).tamper.locked = true ∧
      (s.fullReset cause phase logged).tamper.latch = true ∧ (s.fullReset cause phase logged).glb.locked = true := by
  obtain ⟨htam, hlife, -, -⟩ := s.clearTopsoil_keeps logged
  have hheld : (s.clearTopsoil logged).lockHeld = true := by
    unfold State.lockHeld
    rw [htam, hlife, ht, decide_eq_true (p := s.life.state = .manufactured ∨ s.life.state = .owned) hl]
    rfl
  exact ⟨hheld, (congrArg Tamper.latch htam).trans ht, hheld⟩

theorem State.fullReset_rootCleared {s : State} (h : s.RootCleared) (cause : Nat) (phase : Phase) (logged : Bool) :
    (s.fullReset cause phase logged).RootCleared := by
  obtain ⟨-, -, hroot, hctxs⟩ := s.clearTopsoil_keeps logged
  exact ⟨hroot.trans h.1, hctxs⟩

theorem State.escalated_locked {s : State} (hl : s.lockable) (ht : s.tamper.latch = true) (own m : Nat) :
    (s.escalated own m).tamper.locked = true ∧ (s.escalated own m).tamper.latch = true ∧
      (s.escalated own m).glb.locked = true := by
  unfold State.escalated State.innerReset
  dsimp only
  split
  · exact State.fullReset_locked hl ht _ _ _
  · simpa using State.fullReset_locked hl ht _ _ _

theorem State.escalated_rootCleared {s : State} (h : s.RootCleared) (own m : Nat) : (s.escalated own m).RootCleared := by
  unfold State.escalated State.innerReset
  dsimp only
  split
  · exact State.fullReset_rootCleared h _ _ _
  · simpa [State.RootCleared] using State.fullReset_rootCleared h _ _ _

theorem State.becomeLocked_keeps (s : State) : s.becomeLocked.tamper.locked = true ∧
    s.becomeLocked.tamper.latch = s.tamper.latch ∧ s.becomeLocked.life = s.life ∧ s.becomeLocked.vault = s.vault ∧
    (s.tamper.locked = false → s.becomeLocked.glb.locked = true) := by
  unfold State.becomeLocked
  split
  · rename_i h
    exact ⟨h, rfl, rfl, rfl, fun h' => absurd (h.symm.trans h') (by decide)⟩
  · simp

/-- A lock response latches and locks, whether the cores alone are reset or the device. -/
theorem State.lockResponse_locks {s : State} (hl : s.lockable) : s.lockResponse.tamper.locked = true ∧
    s.lockResponse.tamper.latch = true ∧ (s.tamper.locked = false → s.lockResponse.glb.locked = true) := by
  unfold State.lockResponse
  extract_lets full s1
  obtain ⟨hlocked, hlatch, hlife, -, hglb⟩ := (s.modTamper fun t => { t with latch := true }).becomeLocked_keeps
  have hl1 : s1.lockable := by
    unfold State.lockable
    rw [show s1.life = s.life from hlife]
    exact hl
  split
  · have hfull := State.escalated_locked hl1 hlatch 0 8
    exact ⟨hfull.1, hfull.2.1, fun _ => hfull.2.2⟩
  · split
    · exact ⟨(congrArg Tamper.locked (s1.event_tamper .rst 8)).trans hlocked,
        (congrArg Tamper.latch (s1.event_tamper .rst 8)).trans hlatch,
        fun h => (congrArg Glb.locked (s1.event_glb .rst 8)).trans (hglb h)⟩
    · exact ⟨hlocked, hlatch, hglb⟩

theorem State.lockResponse_rootCleared {s : State} (h : s.RootCleared) : s.lockResponse.RootCleared := by
  unfold State.lockResponse
  extract_lets full s1
  have h1 : s1.RootCleared := by
    obtain ⟨-, -, -, hv, -⟩ := (s.modTamper fun t => { t with latch := true }).becomeLocked_keeps
    unfold State.RootCleared
    rw [show s1.vault = s.vault from hv]
    exact h
  split
  · exact State.escalated_rootCleared h1 0 8
  · split
    · unfold State.RootCleared
      rw [show (s1.event .rst 8).enterLockService.vault = s1.vault from s1.event_vault .rst 8]
      exact h1
    · exact h1

/-! Alarms (R413, R414). -/

/-- Sources that are not armed raise nothing. -/
theorem State.alarm_unarmed {s : State} {srcs : List Nat} (h : ∀ k ∈ srcs, (s.responses k).testBit 0 = false) :
    s.alarm srcs = s := by
  have hnone : (srcs.filter fun k => (s.responses k).testBit 0) = [] := by simpa using h
  unfold State.alarm
  rw [hnone]
  rfl

/-- While main power is up an alarm is raised at once. -/
theorem State.raise_powered {s : State} (h : s.power.phase ≠ .unpowered) (srcs : List Nat) : s.raise srcs = s.alarm srcs := by
  simp [State.raise, State.onBattery, h]

/-- An alarm of source `k` has come from `s` to its lock response: lock and life cycle stand, and the root is clear where
the source zeroizes. -/
def State.BeforeLock (s : State) (k : Nat) (x : State) : Prop :=
  x.tamper.locked = s.tamper.locked ∧ x.life = s.life ∧ ((s.responses k).testBit 2 = true → x.RootCleared)

/-- Lock, latch and vault of `t` are those of `y`. -/
def State.SameLock (y t : State) : Prop :=
  t.tamper.locked = y.tamper.locked ∧ t.tamper.latch = y.tamper.latch ∧ t.glb.locked = y.glb.locked ∧ t.vault = y.vault

/-- The entries of an alarm change neither lock, latch nor vault. -/
theorem State.sameLock_logTampers (y : State) (rs : List (Nat × Nat)) :
    y.SameLock (rs.foldl (fun s r => s.logTamper s.rtc r.1 r.2 false) y) :=
  ⟨foldl_keeps y (fun s => s.tamper.locked) _ (fun s _ => congrArg Tamper.locked (s.logAt_tamper _ _ _)) rs,
    foldl_keeps y (fun s => s.tamper.latch) _ (fun s _ => congrArg Tamper.latch (s.logAt_tamper _ _ _)) rs,
    foldl_keeps y (fun s => s.glb.locked) _ (fun s _ => s.logAt_glb_locked _ _ _) rs,
    foldl_keeps y (fun s => s.vault) _ (fun s _ => s.logAt_vault _ _ _) rs⟩

/-- The alarm of one armed source: what comes before its lock response, and the response, after which lock, latch and vault
stand. -/
theorem State.alarm_one {s : State} {k : Nat} (ha : (s.responses k).testBit 0 = true) : ∃ x : State, s.BeforeLock k x ∧
    (if (s.responses k).testBit 3 then x.lockResponse else x).SameLock (s.alarm [k]) := by
  have hf : ([k].filter fun k => (s.responses k).testBit 0) = [k] := List.filter_cons_of_pos ha
  unfold State.alarm
  rw [hf]
  extract_lets srcs rs all counted s1 s2 s3 s4 s5 s6 s7 s8 logged s9
  have hall : all = s.responses k := Nat.zero_or _
  have h1 : s.KeepsSecrets s1 := .broadcastTamper s _ _
  have hlocked1 : s1.tamper.locked = s.tamper.locked := congrArg Tamper.locked h1.tamper
  have h2 : s2.tamper.locked = s.tamper.locked ∧ s2.life = s.life :=
    ⟨(congrArg Tamper.locked (State.event_tamper _ .tmp 1)).trans hlocked1, (State.event_life _ .tmp 1).trans h1.life⟩
  obtain ⟨hlocked, hlife⟩ := h2
  have h3 : s.BeforeLock k s3 := by
    unfold s3
    rw [hall]
    split
    · obtain ⟨ht, hl, hz⟩ := s2.zeroize_keeps
      exact ⟨(congrArg Tamper.locked ht).trans hlocked, hl.trans hlife, fun _ => hz.rootCleared⟩
    · rename_i hno
      exact ⟨hlocked, hlife, fun h => absurd h hno⟩
  clear_value s3
  have h4 : s.BeforeLock k s4 := by
    unfold s4
    split <;> exact h3
  have h5 : s.BeforeLock k s5 := by
    unfold s5
    split <;> exact h4
  clear_value s5
  refine ⟨s5, h5, ?_⟩
  rw [← hall]
  have h7 : s6.SameLock s7 := by
    unfold s7
    split <;> exact ⟨rfl, rfl, rfl, rfl⟩
  change s6.SameLock _
  clear_value s6 s7
  have h9 : s7.SameLock s9 := s8.sameLock_logTampers logged
  clear_value s9
  obtain ⟨a7, b7, c7, d7⟩ := h7
  obtain ⟨a9, b9, c9, d9⟩ := h9
  rw [if_neg (List.cons_ne_nil k [])]
  split
  · exact ⟨a9.trans a7, b9.trans b7, c9.trans c7, d9.trans d7⟩
  · simpa [State.SameLock] using (⟨a9.trans a7, b9.trans b7, c9.trans c7, d9.trans d7⟩ : s6.SameLock s9)

/-- An armed source that locks latches and locks the device. -/
theorem State.raise_locks {s : State} {k : Nat} (hp : s.power.phase ≠ .unpowered) (ha : (s.responses k).testBit 0 = true)
    (hl : (s.responses k).testBit 3 = true) : (s.raise [k]).tamper.locked = true ∧ (s.raise [k]).tamper.latch = true ∧
      (s.tamper.locked = false → (s.raise [k]).glb.locked = true) := by
  obtain ⟨x, ⟨hlocked, hlife, -⟩, ht⟩ := State.alarm_one ha
  rw [if_pos hl] at ht
  obtain ⟨h1, h2, h3, -⟩ := ht
  have hx : x.lockable := by
    unfold State.lockable
    rw [hlife]
    exact State.lockable_of_response hl
  obtain ⟨k1, k2, k3⟩ := State.lockResponse_locks hx
  rw [State.raise_powered hp, h1, h2, h3]
  exact ⟨k1, k2, fun h => k3 (hlocked.trans h)⟩

/-- An armed source that zeroizes clears the root. -/
theorem State.raise_rootCleared {s : State} {k : Nat} (hp : s.power.phase ≠ .unpowered)
    (ha : (s.responses k).testBit 0 = true) (hz : (s.responses k).testBit 2 = true) : (s.raise [k]).RootCleared := by
  obtain ⟨x, ⟨-, -, hx⟩, -, -, -, hv⟩ := State.alarm_one ha
  unfold State.RootCleared
  rw [State.raise_powered hp, hv]
  split
  · exact State.lockResponse_rootCleared (hx hz)
  · exact hx hz

/-! Samples (R408, R411, R412). -/

/-- A table in which nothing is found is empty. -/
theorem Map.eq_nil_of_find?_none {α : Type} {m : Map α} (h : ∀ k, m.find? k = none) : m = [] := by
  cases m with
  | nil => rfl
  | cons e m =>
    have hk := h e.1
    simp [Map.find?] at hk

/-- A normal sample leaves a device without abnormal samples as it is. -/
theorem State.sample_normal {s : State} (h : s.tamper.abnormal = []) (key : Nat) : s.sample key false = s := by
  have ht : { s.tamper with abnormal := s.tamper.abnormal.erase key } = s.tamper := by
    rw [h, show Map.erase ([] : Map Nat) key = [] from rfl, ← h]
  exact congrArg (fun t => { s with tamper := t }) ht

theorem State.foldl_sample_normal {s : State} (h : s.tamper.abnormal = []) (key : Nat → Nat) {bad : Nat → Bool} {l : List Nat}
    (hb : ∀ i ∈ l, bad i = false) : l.foldl (fun s i => s.sample (key i) (bad i)) s = s := by
  induction l with
  | nil => rfl
  | cons i l ih =>
    rw [List.foldl_cons, hb i (by simp), State.sample_normal h]
    exact ih fun j hj => hb j (by simp [hj])

/-- The count of abnormal samples of a key. -/
def State.abnormals (s : State) (key : Nat) : Nat := s.tamper.abnormal.get key 0

theorem State.abnormals_sample_self (s : State) (key : Nat) :
    (s.sample key true).abnormals key = min 4 (s.abnormals key + 1) := by
  have h : min 4 (s.abnormals key + 1) ≠ 0 := by omega
  exact Map.get_set_of_ne_default h

theorem State.abnormals_sample_ne (s : State) {key i : Nat} (h : i ≠ key) (b : Bool) :
    (s.sample key b).abnormals i = s.abnormals i := by
  cases b with
  | true => exact Map.get_modify_ne (m := s.tamper.abnormal) 0 (fun n => min 4 (n + 1)) h
  | false => exact congrArg (Option.getD · 0) (Map.find?_erase_ne h)

/-- The samples of other keys leave a key's count alone. -/
theorem State.abnormals_foldl_ne (s : State) (key : Nat → Nat) (bad : Nat → Bool) {l : List Nat} {i : Nat}
    (h : ∀ j ∈ l, i ≠ key j) : (l.foldl (fun s j => s.sample (key j) (bad j)) s).abnormals i = s.abnormals i := by
  induction l generalizing s with
  | nil => rfl
  | cons j l ih =>
    rw [List.foldl_cons, ih _ fun k hk => h k (by simp [hk]), State.abnormals_sample_ne s (h j (by simp))]

/-- A sensor that is abnormal in a round of samples is counted once. -/
theorem State.abnormals_foldl_bad (s : State) {key : Nat → Nat} (hkey : key.Injective) {bad : Nat → Bool} {l : List Nat}
    (hl : l.Nodup) {i : Nat} (hi : i ∈ l) (hb : bad i = true) :
    (l.foldl (fun s j => s.sample (key j) (bad j)) s).abnormals (key i) = min 4 (s.abnormals (key i) + 1) := by
  induction l generalizing s with
  | nil => cases hi
  | cons j l ih =>
    obtain ⟨hj, hl⟩ := List.nodup_cons.1 hl
    rw [List.foldl_cons]
    by_cases hij : i = j
    · subst hij
      rw [State.abnormals_foldl_ne _ key bad fun k hk h => hj (by rwa [hkey h]), hb, State.abnormals_sample_self]
    · rw [ih _ hl (by simpa [hij] using hi), State.abnormals_sample_ne s fun h => hij (hkey h)]

/-- What decides whether a source is armed: life cycle, settings and power. -/
def State.footing (s : State) : Life × Map TamperCfg × Power := (s.life, s.tamperCfg, s.power)

theorem State.footing_foldl_sample (s : State) (key : Nat → Nat) (bad : Nat → Bool) (l : List Nat) :
    (l.foldl (fun s j => s.sample (key j) (bad j)) s).footing = s.footing :=
  foldl_keeps s State.footing (fun s j => s.sample (key j) (bad j)) (fun _ _ => rfl) l

theorem State.responses_of_footing {s t : State} (h : t.footing = s.footing) (k : Nat) : t.responses k = s.responses k := by
  obtain ⟨hlife, hcfg, -⟩ : t.life = s.life ∧ t.tamperCfg = s.tamperCfg ∧ t.power = s.power := by
    simpa [State.footing] using h
  unfold State.responses State.tamperOf
  rw [hlife, hcfg]

theorem State.third_iff {s : State} {key : Nat} : s.third key = true ↔ s.abnormals key = 3 := decide_eq_true_iff

theorem State.sensors_nodup (s : State) : s.sensors.Nodup ∧ ∀ i ∈ s.sensors, i < 4 := by
  unfold State.sensors
  split <;> decide

/-- Temperatures in their window, of dies of one temperature, are recorded and end the condition. -/
theorem execTemperatureReading_normal {s : State} {readings : List (BitVec 16)}
    (hw : ∀ i ∈ s.sensors, s.tempWindow.1.toInt ≤ ((readings[i]?).getD 0).toInt ∧
      ((readings[i]?).getD 0).toInt ≤ s.tempWindow.2.toInt)
    (hd : ∀ d ∈ [0, 1], (((readings[2 * d]?).getD 0).toInt - ((readings[2 * d + 1]?).getD 0).toInt).natAbs ≤ 60)
    (hn : ∀ i, s.tamper.abnormal.find? i = none) :
    execTemperatureReading readings s = .next (s.modTamper fun t => { t with
      temps := s.sensors.foldl (fun m i => m.set i ((readings[i]?).getD 0).toNat 0) t.temps
      live := t.live &&& (0xFFFF - 2 ^ 13) }) := by
  have hnil := Map.eq_nil_of_find?_none hn
  unfold execTemperatureReading
  extract_lets w read sensors outside apart dies s1 s2 s3 now s4 s5
  have hout : ∀ i ∈ sensors, outside i = false := fun i hi => by
    obtain ⟨hlo, hhi⟩ := hw i hi
    exact decide_eq_false (not_or.2 ⟨not_lt.2 hlo, not_lt.2 hhi⟩)
  have hapart : ∀ d ∈ dies, apart d = false := fun d hmem => by
    have hlt := List.mem_range.1 (List.mem_of_mem_filter hmem)
    have hdie : d = 0 ∨ d = 1 := by omega
    have hle := hd d (by simpa using hdie)
    exact decide_eq_false (not_lt.2 hle)
  have h2 : s2 = s1 := State.foldl_sample_normal (s := s1) hnil (16 + ·) hout
  have h3 : s3 = s1 := (State.foldl_sample_normal (s := s2) (h2 ▸ hnil) (20 + ·) hapart).trans h2
  have hnow : now = false := by
    simpa [now, -not_lt] using ⟨hout, hapart⟩
  have h4 : s4 = s1.modTamper fun t => { t with live := t.live &&& (0xFFFF - 2 ^ 13) } := by
    unfold s4
    rw [hnow, h3]
    rfl
  have hnil4 : s4.tamper.abnormal = [] := by
    rw [h4]
    exact hnil
  have hthird : ∀ key, s4.third key = false := fun key => by simp [State.third, hnil4, Map.get]
  have h5 : s5 = s4 := if_neg (by simp [hthird])
  rw [h5, if_neg (by simp [hthird]), h4]
  rfl

/-- A sensor that leaves the window for the third time raises source 13, whose zeroize clears the root. -/
theorem execTemperatureReading_third {s : State} {readings : List (BitVec 16)} {i : Nat} (hi : i ∈ s.sensors)
    (hlow : ((readings[i]?).getD 0).toInt < s.tempWindow.1.toInt) (h2 : s.tamper.abnormal.get (16 + i) 0 = 2)
    (ha : (s.responses 13).testBit 0 = true) (hz : (s.responses 13).testBit 2 = true)
    (hp : s.power.phase ≠ .unpowered) :
    ∃ t, execTemperatureReading readings s = .next t ∧ t.vault.rootValid = false ∧ t.vault.ctxs = [] := by
  unfold execTemperatureReading
  extract_lets w read sensors outside apart dies s1 s2 s3 now s4 s5
  obtain ⟨hnodup, hlt⟩ := s.sensors_nodup
  have hcount : s2.abnormals (16 + i) = 3 := by
    have hbad : outside i = true := decide_eq_true (.inl hlow)
    rw [State.abnormals_foldl_bad s1 (add_right_injective 16) hnodup hi hbad]
    exact congrArg (fun n => min 4 (n + 1)) h2
  have hcount3 : s3.abnormals (16 + i) = 3 := by
    rw [State.abnormals_foldl_ne s2 (20 + ·) apart fun d _ => by have := hlt i hi; omega]
    exact hcount
  have hfoot : s4.footing = s.footing :=
    (s2.footing_foldl_sample (20 + ·) apart dies).trans (s1.footing_foldl_sample (16 + ·) outside sensors)
  have hcount4 : s4.abnormals (16 + i) = 3 := hcount3
  clear_value s4
  have h5 : s5.abnormals (16 + i) = 3 ∧ s5.footing = s.footing := by
    unfold s5
    split
    · simpa [State.abnormals, State.footing] using And.intro hcount4 hfoot
    · exact ⟨hcount4, hfoot⟩
  obtain ⟨hcount5, hfoot5⟩ := h5
  have hany : (sensors.any fun i => s5.third (16 + i)) = true := List.any_eq_true.2 ⟨i, hi, State.third_iff.2 hcount5⟩
  have hresp := State.responses_of_footing hfoot5 13
  have hphase : s5.power.phase = s.power.phase := congrArg (fun f => f.2.2.phase) hfoot5
  refine ⟨_, congrArg _ (if_pos (by rw [hany]; rfl)), ?_⟩
  exact State.raise_rootCleared (hphase ▸ hp) (hresp ▸ ha) (hresp ▸ hz)

/-! Clocks (R412). -/

section
variable {s : State} {k : Nat} (hb : s.onBattery = false) (hk : k ≤ 3) (ht : k = 2 → s.power.topsoilUp = true)

/-- The device after one window of clock `k`. -/
def State.clockSampled (s : State) (k : Nat) (bad : Bool) : State :=
  (s.sample (32 + k) bad).modTamper fun t => { t with live := (t.live &&& (0xFFFF - 2 ^ 14)) + if bad then 2 ^ 14 else 0 }
include hb hk ht

theorem execClockMonitorWindow_watched (abnormal stopped : Bool) : execClockMonitorWindow k abnormal stopped s =
    .next (if stopped || (s.clockSampled k (abnormal || stopped)).third (32 + k) then
      (s.clockSampled k (abnormal || stopped)).raise [14] else s.clockSampled k (abnormal || stopped)) :=
  congrArg _ (if_neg (by simpa [hb] using ⟨hk, ht⟩))

theorem execClockMonitorWindow_stopped (abnormal : Bool) :
    execClockMonitorWindow k abnormal true s = .next ((s.clockSampled k true).raise [14]) := by
  rw [execClockMonitorWindow_watched hb hk ht, Bool.or_true, Bool.true_or]
  rfl

theorem execClockMonitorWindow_third (h : (s.sample (32 + k) true).third (32 + k) = true) :
    execClockMonitorWindow k true false s = .next ((s.clockSampled k true).raise [14]) :=
  (execClockMonitorWindow_watched hb hk ht true false).trans (congrArg _ (if_pos h))

theorem execClockMonitorWindow_normal (h : s.tamper.abnormal.rising = true) :
    execClockMonitorWindow k false false s = .next (s.clockSampled k false) := by
  have hthird : (s.clockSampled k false).third (32 + k) = false :=
    decide_eq_false (by
      rw [Map.get, show (s.clockSampled k false).tamper.abnormal = s.tamper.abnormal.erase (32 + k) from rfl,
        Map.find?_erase_self h]
      decide)
  exact (execClockMonitorWindow_watched hb hk ht false false).trans
    (congrArg _ (if_neg (ne_true_of_eq_false hthird)))
end

/-! The evidence counter (R421). -/

@[simp] theorem State.positionDone_tamper (s : State) (old : Nat) : (s.positionDone old).tamper = s.tamper := by
  unfold State.positionDone
  split
  · rfl
  · extract_lets dest s1
    have h1 : s1.tamper = s.tamper := s.log_tamper _ _
    split
    · exact (s1.event_tamper _ _).trans h1
    · exact h1

theorem State.increment_counts {s : State} (h : s.tamper.saturated = false) (ok : Bool) :
    (s.increment ok).tamper.count = s.tamper.count + (if ok then 1 else 0) ∧
      (s.increment ok).tamper.next = s.tamper.next + 1 := by
  unfold State.increment
  rw [if_neg (ne_true_of_eq_false h)]
  dsimp only
  rw [State.positionDone_tamper]
  exact ⟨by cases ok <;> rfl, rfl⟩

end Sys2Proof.Machine

namespace Sys2Proof.Claims
open Sys2Proof.Machine

/-- Settles O50: the guards decide most clauses; a zeroize comes from `State.zeroize_keeps`, an alarm from `State.alarm_one`,
and the samples from the counts of abnormal samples. -/
theorem tamperSystem : Obligations.TamperSystem := by
  intro s
  exact ⟨fun hl hp => congrArg Host.Outcome.next (if_neg (by simp [hl, hp])),
    rfl,
    s.zeroize_keeps.2.2,
    rfl, rfl, rfl,
    fun sw lp => rfl,
    fun k hk hr => congrArg Host.Outcome.next (if_pos ⟨hk, hr⟩),
    fun k hb hk => congrArg Host.Outcome.next (if_neg (by simpa [hb, or_iff_not_imp_left] using hk)),
    fun r hw hd _ hn => execTemperatureReading_normal hw hd hn,
    fun r i hi hlow h2 ha hz hp => execTemperatureReading_third hi hlow h2 ha hz hp,
    fun k a hb hk ht => execClockMonitorWindow_stopped hb hk ht a,
    fun k hb hk ht h => execClockMonitorWindow_normal hb hk ht h,
    fun k hb hk ht h => execClockMonitorWindow_third hb hk ht h,
    fun hb => congrArg Host.Outcome.next (if_pos hb),
    fun h0 hl => congrArg Host.Outcome.next (if_pos (.inr ⟨h0, by simpa using hl⟩)),
    fun hb => congrArg Host.Outcome.next (if_pos (.inl hb)),
    fun hb hd => congrArg Host.Outcome.next (if_neg (by simpa [hb, imp_iff_not_or] using hd)),
    fun ok hd => congrArg Host.Outcome.next (if_neg hd),
    fun ok h => State.increment_counts h ok,
    fun v hp => congrArg Host.Outcome.next (if_pos hp),
    fun v req hp hv => congrArg Host.Outcome.next ((if_neg (not_not.2 hp)).trans (if_neg (not_not.2 hv))),
    fun v req hp hv => congrArg Host.Outcome.next ((if_neg (not_not.2 hp)).trans (if_pos hv)),
    fun srcs hp h => (State.raise_powered hp srcs).trans (State.alarm_unarmed h),
    fun k hp ha hl => State.raise_locks hp ha hl⟩

end Sys2Proof.Claims
end

section
/-!
O60: what raising an event and recording an entry of the horizon log leave as they were (R30, R44, R435, R442).
-/
namespace Sys2Proof.Machine

/-- Of the event registers an event changes its own; the messages that it raises touch none. -/
@[simp] theorem State.event_sq (s : State) (r : SqId) (m : Nat) :
    (s.event r m).sq = s.sq.modify (sqKey r) {} fun x => x.raise m := by
  unfold State.event
  dsimp only
  split
  · rfl
  · exact foldl_keeps _ (fun t => t.sq) _ (fun _ _ => by simp) _

/-- An event changes no other event register. -/
theorem State.event_sqReg_ne (s : State) {r x : SqId} (h : sqKey x ≠ sqKey r) (m : Nat) :
    (s.event r m).sqReg x = s.sqReg x := by
  rw [State.sqReg, State.event_sq, Map.get_modify_ne _ _ h, State.sqReg]

/-- The register of an event is raised. -/
theorem State.event_sqReg_self {s : State} (h : s.Sound) (r : SqId) (m : Nat) :
    (s.event r m).sqReg r = (s.sqReg r).raise m := by
  rw [State.sqReg, State.event_sq, Map.get_modify_self h.sq, State.sqReg]

@[simp] theorem Sq.raise_evt (x : Sq) (m : Nat) : (x.raise m).evt = x.evt ||| BitVec.ofNat 16 m := by
  unfold Sq.raise
  dsimp only
  split <;> rfl

end Sys2Proof.Machine

namespace Sys2Proof.Claims
open Sys2Proof.Machine

/-- Settles O60: an event is the change of its own register (`State.event_sq`) and messages, and the laws of `State.event` and
`State.log` say field by field that nothing else changes. -/
theorem eventFrames : Obligations.EventFrames := by
  intro s
  exact ⟨fun r mask => by simp,
    fun r mask x hx => s.event_sqReg_ne hx mask,
    fun r mask h => by rw [State.event_sqReg_self h, Sq.raise_evt],
    fun type data => by simp,
    fun type data => by simp⟩

end Sys2Proof.Claims
end

section
/-!
O35 and O54: the first write of a guarded pair, its judgement, and acknowledges of event registers (R30 to R36, R39).
-/
namespace Sys2Proof.Machine

/-! The parts of the state that a changed PF, posted block or event register leaves readable. -/

/-- A PF's registers read back after a change. -/
theorem State.pf_modPf {s : State} (h : s.Sound) (p : Nat) (f : GlbPf → GlbPf) : (s.modPf p f).pf p = f (s.pf p) :=
  Map.get_modify_self h.glbPf p {} f

/-- An event register reads back after a change. -/
theorem State.sqReg_modSq {s : State} (h : s.Sound) (r : SqId) (f : Sq → Sq) : (s.modSq r f).sqReg r = f (s.sqReg r) :=
  Map.get_modify_self h.sq _ {} f

/-! Writes of a requester that holds no pair. -/

/-- Between two pairs a write is noted by nobody. -/
theorem State.noteWrite_none {s : State} {r : Requester} (h : s.heldPair r = none) : s.noteWrite r = s := by
  simp [State.noteWrite, h]

section
variable {s : State} {b : PostedBlock}

theorem State.dropPosted_down (h : s.glb.linkDown = true) : s.dropPosted b = (s, true) := by simp [State.dropPosted, h]

theorem State.dropPosted_busy (h : s.glb.linkDown = false) (hb : (s.postedBlock b).busy = true) :
    s.dropPosted b = (s.modPosted b fun x => { x with writeLost := satAdd 0xFFFF x.writeLost 1 }, true) := by
  simp [State.dropPosted, h, hb]

theorem State.dropPosted_free (h : s.glb.linkDown = false) (hb : (s.postedBlock b).busy = false) :
    s.dropPosted b = (s, false) := by
  simp [State.dropPosted, h, hb]
end

/-! The acknowledge (R31). -/

section
variable {s : State} {r : Requester} {reg : SqId} {value : W32}

/-- An acknowledge that its block takes is decided by R31. -/
theorem execSqAcknowledge_taken (hl : s.live r = true) (hh : s.heldPair r = none) (hv : s.sqVisible r reg = true)
    (hb : sqBlock reg = none ∨ ∃ b, sqBlock reg = some b ∧ s.glb.linkDown = false ∧ (s.postedBlock b).busy = false) :
    execSqAcknowledge r reg value s = .next (s.acknowledge r reg value) := by
  simp only [execSqAcknowledge, hl, State.noteWrite_none hh, hv]
  rcases hb with hb | ⟨b, hb, hd, hf⟩
  · simp [hb]
  · simp [hb, State.dropPosted_free hd hf]

/-- A busy posted block loses an acknowledge and counts it (R39). -/
theorem execSqAcknowledge_busy {b : PostedBlock} (hl : s.live r = true) (hh : s.heldPair r = none)
    (hv : s.sqVisible r reg = true) (hb : sqBlock reg = some b) (hd : s.glb.linkDown = false)
    (hf : (s.postedBlock b).busy = true) :
    execSqAcknowledge r reg value s =
      .next (s.modPosted b fun x => { x with writeLost := satAdd 0xFFFF x.writeLost 1 }) := by
  simp only [execSqAcknowledge, hl, State.noteWrite_none hh, hv, hb, State.dropPosted_busy hd hf]
  simp

theorem State.acknowledge_clears (h : (s.sqReg reg).seq = value.extractLsb' 16 16 ∧ (s.sqReg reg).incPending = false) :
    s.acknowledge r reg value = s.modSq reg fun y => { y with evt := 0 } := by
  simp [State.acknowledge, h.1, h.2]

theorem State.acknowledge_misses (h : (s.sqReg reg).seq ≠ value.extractLsb' 16 16 ∨ (s.sqReg reg).incPending = true) :
    s.acknowledge r reg value = s.ackMiss r := by
  refine if_neg fun ⟨h1, h2⟩ => ?_
  rcases h with h | h
  · exact h h1
  · simp [h] at h2
end

/-- A saturating count of one more. -/
theorem satAdd_one (m a : Nat) : satAdd m a 1 = min m (a + 1) := by
  unfold satAdd
  split <;> omega

/-! The first write of a pair (R33, R36, R40). -/

@[simp] theorem State.live_pf (s : State) (p : Nat) : s.live (.pf p) = s.pfLive p := rfl

/-- Whether a PF's register is armed for it. -/
def State.armedFor (s : State) (p off : Nat) : Bool := decide ((s.pf p).arm = some ⟨off⟩)

/-- A PF whose arming, if it is for this register, has been used up. -/
def State.disarmed (s : State) (p off : Nat) : State :=
  if (s.pf p).arm = some ⟨off⟩ then s.modPf p (fun x => { x with arm := none }) else s

theorem State.useArming_pf (s : State) (p off : Nat) :
    s.useArming (.pf p) off = (s.disarmed p off, s.armedFor p off) := by
  unfold State.useArming State.disarmed State.armedFor
  dsimp only
  split <;> simp_all

@[simp] theorem State.disarmed_glb (s : State) (p off : Nat) : (s.disarmed p off).glb = s.glb := by
  unfold State.disarmed; split <;> rfl
@[simp] theorem State.disarmed_guard (s : State) (p off : Nat) : (s.disarmed p off).guard = s.guard := by
  unfold State.disarmed; split <;> rfl
@[simp] theorem State.disarmed_postedBlock (s : State) (p off : Nat) (b : PostedBlock) :
    (s.disarmed p off).postedBlock b = s.postedBlock b := by
  unfold State.disarmed; split <;> rfl

section
variable {s : State} {p off : Nat} {value : W32} {b : PostedBlock}
  (hl : s.pfLive p = true) (hh : s.heldPair (.pf p) = none) (ho : off ∈ gdOffsets) (hv : s.gdVisible (.pf p) off = true)
include hl hh ho hv

theorem execGuardFirstWrite_direct (hb : postedOf off = none) : execGuardFirstWrite (.pf p) off value s =
    .next { s.disarmed p off with guard := s.guard.insert p (off, value, s.armedFor p off) } := by
  simp [execGuardFirstWrite, hl, State.noteWrite_none hh, ho, hv, State.useArming_pf, hb, reqKey]

theorem execGuardFirstWrite_posted (hb : postedOf off = some b) (hd : s.glb.linkDown = false)
    (hf : (s.postedBlock b).busy = false) : execGuardFirstWrite (.pf p) off value s =
    .next { (s.disarmed p off).modPosted b (fun x => { x with busy := true }) with
      guard := s.guard.insert p (off, value, s.armedFor p off) } := by
  have hdrop : (s.disarmed p off).dropPosted b = (s.disarmed p off, false) :=
    State.dropPosted_free (by simpa using hd) (by simpa using hf)
  simp [execGuardFirstWrite, hl, State.noteWrite_none hh, ho, hv, State.useArming_pf, hb, hdrop, reqKey]

theorem execGuardFirstWrite_linkDown (hb : postedOf off = some b) (hd : s.glb.linkDown = true) :
    execGuardFirstWrite (.pf p) off value s = .next (s.disarmed p off) := by
  have hdrop : (s.disarmed p off).dropPosted b = (s.disarmed p off, true) := State.dropPosted_down (by simpa using hd)
  simp [execGuardFirstWrite, hl, State.noteWrite_none hh, ho, hv, State.useArming_pf, hb, hdrop]

theorem execGuardFirstWrite_busy (hb : postedOf off = some b) (hd : s.glb.linkDown = false)
    (hf : (s.postedBlock b).busy = true) : execGuardFirstWrite (.pf p) off value s =
    .next ((s.disarmed p off).modPosted b fun x => { x with writeLost := satAdd 0xFFFF x.writeLost 1 }) := by
  have hdrop := State.dropPosted_busy (s := s.disarmed p off) (b := b) (by simpa using hd) (by simpa using hf)
  simp [execGuardFirstWrite, hl, State.noteWrite_none hh, ho, hv, State.useArming_pf, hb, hdrop]
end

/-- A loam core's register needs no arming. -/
theorem execGuardFirstWrite_loam {s : State} {k off : Nat} {value : W32} (hh : s.heldPair (.loam k) = none)
    (ho : off ∈ gdOffsets) (hb : postedOf off = none) : execGuardFirstWrite (.loam k) off value s =
    .next { s with guard := s.guard.insert (4 + k) (off, value, true) } := by
  simp [execGuardFirstWrite, State.live, State.noteWrite_none hh, ho, State.gdVisible, State.useArming, hb, reqKey]

/-! The judgement of a pair (R34). -/

theorem execGuardPairTimeout_held {s : State} {r : Requester} {off : Nat} {value : W32} {armed : Bool}
    (h : s.heldPair r = some (off, value, armed)) : execGuardPairTimeout r s = .next (s.judged r off .timeout) := by
  simp [execGuardPairTimeout, h]

/-- Without a due reset nothing follows. -/
theorem State.runDue_none {s : State} (h : s.power.resetDue = 0) : s.runDue = s := by simp [State.runDue, h]

/-- A reset does not follow a judgement that calls for none. -/
theorem State.runDue_judged {s : State} (h : s.power.resetDue = 0) (r : Requester) (off : Nat) (res : GuardResult) :
    (s.judged r off res).runDue = s.judged r off res :=
  State.runDue_none (by simpa using h)

section
variable {s : State} {r : Requester} {off shadow : Nat} {value complement : W32} {armed : Bool} {regs : List Nat}
  {apply : Nat → W32 → State → State × GuardResult}
  (hl : s.live r = true) (hh : s.heldPair r = some (off, value, armed))
include hl hh

theorem State.guardPair_intervening (h : off ∉ regs ∨ off ^^^ 0x8000 ≠ shadow) :
    s.guardPair r regs shadow complement apply = s.judged r off .intervening := by
  have h' : !regs.contains off ∨ off ^^^ 0x8000 ≠ shadow := by simpa using h
  simp only [State.guardPair, hl, hh, if_pos h']
  rfl

variable (ho : off ∈ regs) (hs : off ^^^ 0x8000 = shadow)
include ho hs

theorem State.guardPair_mismatch (hc : complement ≠ ~~~value) :
    s.guardPair r regs shadow complement apply = s.judged r off .mismatch := by
  simp [State.guardPair, hl, hh, ho, hs, hc]

theorem State.guardPair_unarmed (hc : complement = ~~~value) (ha : armed = false) :
    s.guardPair r regs shadow complement apply = s.judged r off .unarmed := by
  simp [State.guardPair, hl, hh, ho, hs, hc, ha]

theorem State.guardPair_logFull (hc : complement = ~~~value) (ha : armed = true) (hf : s.glb.logFull = true) :
    s.guardPair r regs shadow complement apply = s.judged r off .logFull := by
  simp [State.guardPair, hl, hh, ho, hs, hc, ha, hf]

theorem State.guardPair_applied (hc : complement = ~~~value) (ha : armed = true) (hf : s.glb.logFull = false) :
    s.guardPair r regs shadow complement apply = (apply off value s).1.judged r off (apply off value s).2 := by
  simp [State.guardPair, hl, hh, ho, hs, hc, ha, hf]
end

/-! What a judgement of a PF's pair leaves. -/

/-- The state before the judgement of a PF's pair is shown: what was staged for it has lapsed, the pair is forgotten, and a busy
block is free. -/
def State.unpaired (s : State) (p off : Nat) (res : GuardResult) : State :=
  let s := if s.stageLapses (.pf p) off res then { s with life := { s.life with staged := none } } else s
  let s := { s with guard := s.guard.erase p }
  match postedOf off with | some b => s.modPosted b fun x => { x with busy := false } | none => s

theorem State.judged_pf (s : State) (p off : Nat) (res : GuardResult) :
    s.judged (.pf p) off res =
      let u := ((s.unpaired p off res).logPair off res.code p).modPf p fun x =>
        { x with guardResult := res.code, guardOffset := off }
      if res.faulty then u.event (.glb p) evGuardFault else u := rfl

@[simp] theorem State.unpaired_guard (s : State) (p off : Nat) (res : GuardResult) :
    (s.unpaired p off res).guard = s.guard.erase p := by
  unfold State.unpaired
  dsimp only
  split <;> split <;> rfl

@[simp] theorem State.unpaired_glbPf (s : State) (p off : Nat) (res : GuardResult) :
    (s.unpaired p off res).glbPf = s.glbPf := by
  unfold State.unpaired
  dsimp only
  split <;> split <;> rfl

@[simp] theorem State.judged_guard_pf (s : State) (p off : Nat) (res : GuardResult) :
    (s.judged (.pf p) off res).guard = s.guard.erase p := by
  rw [State.judged_pf]
  dsimp only
  split <;> simp

@[simp] theorem State.judged_glbPf_pf (s : State) (p off : Nat) (res : GuardResult) :
    (s.judged (.pf p) off res).glbPf =
      s.glbPf.modify p {} fun x => { x with guardResult := res.code, guardOffset := off } := by
  rw [State.judged_pf]
  dsimp only
  split <;> simp

/-- A judged pair is forgotten, and GLB_GUARD_STAT shows its result and register. -/
theorem State.judged_shows {s : State} (h : s.Sound) (p off : Nat) (res : GuardResult) :
    (s.judged (.pf p) off res).heldPair (.pf p) = none ∧
    (s.judged (.pf p) off res).pf p = { s.pf p with guardResult := res.code, guardOffset := off } := by
  constructor
  · simp [State.heldPair, reqKey, Map.find?_erase_self h.guard]
  · rw [State.pf, State.judged_glbPf_pf, Map.get_modify_self h.glbPf, State.pf]

end Sys2Proof.Machine

namespace Sys2Proof.Claims
open Sys2Proof.Machine

/-- Settles O54: an acknowledge that its block takes comes to the decision of R31. -/
theorem acknowledgeWrites : Obligations.AcknowledgeWrites := by
  intro s r reg value hl hh hv hb x
  have htaken : exec (.sqAcknowledge r reg value) s = .next (s.acknowledge r reg value) :=
    execSqAcknowledge_taken hl hh hv hb
  rw [htaken]
  refine ⟨fun h => ⟨congrArg _ (State.acknowledge_clears h), fun hs => ?_⟩, fun h => ⟨fun p hr => ?_, fun k hr => ?_⟩⟩
  · rw [State.sqReg_modSq hs]
    exact ⟨rfl, rfl⟩
  · rw [State.acknowledge_misses h]
    rcases hr with rfl | ⟨n, rfl⟩ <;> simp only [State.ackMiss, satAdd_one]
  · rw [State.acknowledge_misses h, hr]
    rfl

/-- The second write of a pair is judged by `State.guardPair`, for every command that is one; a reset can only follow from what
the operation calls for. -/
theorem guardCommands_exec {cmd : Requester → Nat → W32 → Instr} {regs : List Nat} (h : (cmd, regs) ∈ guardCommands) :
    ∃ apply : Nat → W32 → State → State × GuardResult, ∀ (s : State) r shadow complement,
      exec (cmd r shadow complement) s = .next (s.guardPair r regs shadow complement apply) ∨
      exec (cmd r shadow complement) s = .next (s.guardPair r regs shadow complement apply).runDue := by
  simp only [guardCommands, List.mem_cons, List.not_mem_nil, or_false, Prod.mk.injEq] at h
  rcases h with ⟨rfl, rfl⟩ | ⟨rfl, rfl⟩ | ⟨rfl, rfl⟩ | ⟨rfl, rfl⟩ | ⟨rfl, rfl⟩ | ⟨rfl, rfl⟩ | ⟨rfl, rfl⟩ | ⟨rfl, rfl⟩ |
    ⟨rfl, rfl⟩ | ⟨rfl, rfl⟩ | ⟨rfl, rfl⟩ | ⟨rfl, rfl⟩
  · exact ⟨epochPair, fun _ _ _ _ => .inl rfl⟩
  · exact ⟨resetPair, fun _ _ _ _ => .inr rfl⟩
  · exact ⟨removePair, fun _ _ _ _ => .inl rfl⟩
  · exact ⟨srcSelPair, fun _ _ _ _ => .inl rfl⟩
  · exact ⟨destroyPair, fun _ _ _ _ => .inl rfl⟩
  · exact ⟨holdPair, fun _ _ _ _ => .inl rfl⟩
  · exact ⟨holdPair, fun _ _ _ _ => .inl rfl⟩
  · exact ⟨sievePair, fun _ _ _ _ => .inl rfl⟩
  · exact ⟨windowPair, fun _ _ _ _ => .inl rfl⟩
  · exact ⟨lcsPair, fun _ _ _ _ => .inr rfl⟩
  · exact ⟨revokePair, fun _ _ _ _ => .inl rfl⟩
  · exact ⟨tamperPair, fun _ _ _ _ => .inl rfl⟩

/-- A second write that is judged without the operation, while no reset is due, does no more than the judgement. -/
theorem guardCommands_judged {cmd : Requester → Nat → W32 → Instr} {regs : List Nat} (h : (cmd, regs) ∈ guardCommands)
    {s : State} (hd : s.power.resetDue = 0) {r : Requester} {off shadow : Nat} {complement : W32} {res : GuardResult}
    (hj : ∀ apply, s.guardPair r regs shadow complement apply = s.judged r off res) :
    exec (cmd r shadow complement) s = .next (s.judged r off res) := by
  obtain ⟨apply, he⟩ := guardCommands_exec h
  rcases he s r shadow complement with he | he
  · rw [he, hj]
  · rw [he, hj, State.runDue_judged hd]

/-- Settles O35: the first write by what its posted block does with it, and the second by the rows of `State.guardPair`. -/
theorem guardedWrites : Obligations.GuardedWrites := by
  intro s
  exact ⟨fun p off value hl hh ho hv hb => execGuardFirstWrite_direct hl hh ho hv hb,
    fun p off value b hl hh ho hv hb hd hf => execGuardFirstWrite_posted hl hh ho hv hb hd hf,
    fun p off value b hl hh ho hv hb hd => execGuardFirstWrite_linkDown hl hh ho hv hb hd,
    fun p off value b hl hh ho hv hb hd hf => execGuardFirstWrite_busy hl hh ho hv hb hd hf,
    fun k off value hh ho hb => execGuardFirstWrite_loam hh ho hb,
    fun r off value armed hh => execGuardPairTimeout_held hh,
    fun p ha => congrArg Host.Outcome.next (congrArg (State.modPf · p _) (if_neg ha)),
    fun p ha => congrArg Host.Outcome.next (congrArg (State.modPf · p _) (if_pos ha)),
    fun cmd regs hc r off value armed shadow complement hl hd hh =>
      ⟨fun h => guardCommands_judged hc hd fun _ => State.guardPair_intervening hl hh h,
        fun ho hs h => guardCommands_judged hc hd fun _ => State.guardPair_mismatch hl hh ho hs h,
        fun ho hs h ha => guardCommands_judged hc hd fun _ => State.guardPair_unarmed hl hh ho hs h ha,
        fun ho hs h ha hf => guardCommands_judged hc hd fun _ => State.guardPair_logFull hl hh ho hs h ha hf⟩,
    fun p off res h => by
      obtain ⟨hnone, hpf⟩ := State.judged_shows h p off res
      exact ⟨hnone, by rw [hpf], by rw [hpf]⟩⟩

end Sys2Proof.Claims
end

section
/-!
O55: the raise of the policy epoch and its roll-out (R46, R89, R457).
-/
namespace Sys2Proof.Machine

/-! Events of GLB_EVT (R43). -/

/-- An event sets its bit, whatever else its register holds. -/
theorem State.event_sets_bit (s : State) (r : SqId) {m i : Nat} (hi : i < 16) (hm : m.testBit i = true) :
    ((s.event r m).sqReg r).evt.getLsbD i = true := by
  have hbit : ((s.sqReg r).raise m).evt.getLsbD i = true := by
    rw [Sq.raise_evt, BitVec.getLsbD_or, BitVec.getLsbD_ofNat]
    simp [hi, hm]
  have hne : (s.sqReg r).raise m ≠ {} := fun h => by simp [h] at hbit
  rw [State.sqReg, State.event_sq]
  exact (congrArg (fun x : Sq => x.evt.getLsbD i) (Map.get_set_of_ne_default hne)).trans hbit

/-- An event of every PF's register sets its bit in each. -/
theorem State.glbEvent_sets_bit (s : State) {m i p : Nat} (hi : i < 16) (hm : m.testBit i = true) (hp : p ∈ s.portList) :
    ((s.glbEvent m).sqReg (.glb p)).evt.getLsbD i = true := by
  have hfold : ∀ (l : List Nat) (t : State), (p ∈ l ∨ (t.sqReg (.glb p)).evt.getLsbD i = true) →
      ((l.foldl (fun t q => t.event (.glb q) m) t).sqReg (.glb p)).evt.getLsbD i = true := by
    intro l
    induction l with
    | nil => exact fun t h => h.resolve_left List.not_mem_nil
    | cons q l ih =>
      refine fun t h => ih _ ?_
      by_cases hq : p = q
      · exact .inr (hq ▸ t.event_sets_bit _ hi hm)
      · rw [t.event_sqReg_ne (x := .glb p) (r := .glb q) hq]
        exact h.imp_left fun h => (List.mem_cons.1 h).resolve_left hq
  exact hfold _ _ (.inl hp)

@[simp] theorem State.glbEvent_portList (s : State) (m : Nat) : (s.glbEvent m).portList = s.portList := by
  simp [State.portList, State.portCount, State.tilth]

/-! What the roll-out and its reports leave of the epoch. -/

@[simp] theorem State.startApply_glb (s : State) (b : Nat) : (s.startApply b).glb = s.glb := by
  unfold State.startApply
  split <;> rfl

@[simp] theorem State.transmit_glb (s : State) (b : Bool) (f : Frame) : (s.transmit b f).glb = s.glb := by
  unfold State.transmit
  split <;> rfl

@[simp] theorem State.originate_glb (s : State) (dst type : Nat) (payload : List Byte) :
    (s.originate dst type payload).glb = s.glb := by
  unfold State.originate
  cases s.uncel.addr with
  | none => rfl
  | some a => dsimp only; split <;> split <;> simp

@[simp] theorem State.originateAuth_glb (s : State) (dst type : Nat) (body : List Byte) :
    (s.originateAuth dst type body).glb = s.glb := by
  unfold State.originateAuth
  split
  · exact State.originate_glb ..
  · rfl

@[simp] theorem State.settle_epoch (s : State) : s.settle.glb.epoch = s.glb.epoch := by
  unfold State.settle
  split
  · rfl
  · dsimp only
    rw [foldl_keeps _ (fun t => t.glb.epoch) _ fun t x => by simp [State.reportEpoch]]
    simp

/-! The raise (R46). -/

/-- The epoch stands at `target`, in the log and in every PF's register; the beds have not been told yet. -/
def State.epochEntered (s : State) (target : Nat) : State :=
  ({ s with glb := { s.glb with epoch := target, lastSettled := false } }.log 0x1003
    (leBytes 4 s.glb.epoch ++ leBytes 4 target)).glbEvent evEpochRaised

/-- A Dormant bed is woken, an awake one begins to apply the epoch. -/
def State.rollOut (s : State) : State :=
  (List.range 64).foldl (fun t b =>
    if (t.bed b).state = .dormant ∨ (t.bed b).state = .entering then
      t.modBed b fun x => { x with wakeWanted := true, lapsed := true }
    else t.startApply b) s

theorem State.raiseEpoch_exhausted {s : State} (h : s.glb.epoch = 0xFFFFFFFF) (n : Nat) :
    s.raiseEpoch n = (s, .epochExhausted) := by
  simp [State.raiseEpoch, h]

theorem State.raiseEpoch_order {s : State} {n : Nat} (h : s.glb.epoch < 0xFFFFFFFF) (hn : n ≤ s.glb.epoch) :
    s.raiseEpoch n = (s, .epochOrder) := by
  simp [State.raiseEpoch, h.ne, hn]

theorem State.raiseEpoch_raised {s : State} {n : Nat} (h : s.glb.epoch < 0xFFFFFFFF) (hn : s.glb.epoch < n) :
    s.raiseEpoch n = (((s.epochEntered n).vfEvent vfEpochRaised).rollOut.settle, .applied) := by
  unfold State.raiseEpoch
  dsimp only
  rw [if_neg h.ne, if_neg (Nat.not_le.2 hn)]
  rfl

@[simp] theorem State.rollOut_glb (s : State) : s.rollOut.glb = s.glb :=
  foldl_keeps _ (fun t => t.glb) _ (fun t b => by split <;> simp) _

@[simp] theorem State.epochEntered_epoch (s : State) (n : Nat) : (s.epochEntered n).glb.epoch = n := by
  simp [State.epochEntered]

end Sys2Proof.Machine

namespace Sys2Proof.Claims
open Sys2Proof.Machine

/-- The second write of an agreeing pair on an armed register does the operation of its command. -/
theorem Applies.of_exec {s t : State} {cmd : Requester → Nat → W32 → Instr} {off : Nat} {value : W32} {res : GuardResult}
    {after : State → State} (regs : List Nat) (apply : Nat → W32 → State → State × GuardResult)
    (he : ∀ r shadow complement, exec (cmd r shadow complement) s = .next (after (s.guardPair r regs shadow complement apply)))
    (ho : off ∈ regs) (ha : apply off value s = (t, res)) : Applies s cmd off value t res after := by
  intro r hl hh hf
  rw [he, State.guardPair_applied hl hh ho rfl rfl rfl hf, ha]

/-- The same where the command is for one register. -/
theorem Applies.single {s t : State} {cmd : Requester → Nat → W32 → Instr} {off : Nat} {value : W32} {res : GuardResult}
    {after : State → State} (apply : Nat → W32 → State → State × GuardResult)
    (he : ∀ r shadow complement, exec (cmd r shadow complement) s = .next (after (s.guardPair r [off] shadow complement apply)))
    (ha : apply off value s = (t, res)) : Applies s cmd off value t res after :=
  .of_exec [off] apply he List.mem_cons_self ha

/-- Settles O55: the rows of R46 are the three branches of `State.raiseEpoch`. -/
theorem epochRaise : Obligations.EpochRaise := by
  intro s value
  have happly : ∀ {t res}, s.raiseEpoch value.toNat = (t, res) → Applies s .glbEpochRaise gdEpoch value t res id :=
    Applies.single epochPair fun _ _ _ => rfl
  refine ⟨fun h => happly (State.raiseEpoch_exhausted h _), fun h hn => happly (State.raiseEpoch_order h hn), ?_⟩
  intro h hn raised entered rolled
  have hrolled : rolled = (entered.vfEvent vfEpochRaised).rollOut := rfl
  have hentered : entered = s.epochEntered value.toNat := rfl
  refine ⟨happly (State.raiseEpoch_raised h hn), ?_, fun p hp => ?_⟩
  · simp [hrolled, hentered]
  · rw [State.glbEvent_portList] at hp
    exact State.glbEvent_sets_bit _ (by decide) (by decide) hp

end Sys2Proof.Claims
end

section
/-!
O36: what the operations of agreeing pairs leave (R33, R34, R45, R82, R284, R299, R305, R323, R337).
-/
namespace Sys2Proof.Machine

/-! The reset that a pair calls for (R45, R337). -/

/-- A reset that is due runs as a full reset, with its causes. -/
theorem State.runDue_due {s : State} (h : s.power.resetDue ≠ 0) : ∃ cause logged,
    s.runDue = s.fullReset cause .pllLocking logged ∧ ∀ i, s.power.resetDue.testBit i = true → cause.testBit i = true := by
  unfold State.runDue
  rw [if_neg h]
  split
  · exact ⟨_, _, rfl, fun i hi => hi⟩
  · exact ⟨_, _, rfl, fun i hi => by simp [Nat.testBit_or, hi]⟩

theorem State.clearTopsoil_epoch (s : State) (logged : Bool) : (s.clearTopsoil logged).glb.epoch = s.glb.epoch := by
  unfold State.clearTopsoil
  extract_lets s1 s2
  have h1 : s1.glb.epoch = s.glb.epoch := by
    unfold s1
    split
    · exact foldl_keeps s (fun t => t.glb.epoch) _ (fun t k => t.log_glb_epoch _ _) _
    · rfl
  exact h1

/-- Every cause bit of a full reset stands in BOOT_RST_CAUSE. -/
theorem State.fullReset_cause (s : State) {cause i : Nat} (h : cause.testBit i = true) (phase : Phase) (logged : Bool) :
    (s.fullReset cause phase logged).power.cause.testBit i = true := by
  have hcause : (if s.resetRunning then (s.clearTopsoil logged).power.cause ||| cause else cause).testBit i = true := by
    split <;> simp [Nat.testBit_or, h]
  exact hcause

/-! Removal of a tenant (R82, R305). -/

namespace State.KeepsSecrets

theorem tgen {s t : State} (h : s.KeepsSecrets t) : t.vault.tgen = s.vault.tgen :=
  have hv : Vault.tgen { t.vault with slots := s.vault.slots, ctxs := s.vault.ctxs } = s.vault.tgen := congrArg Vault.tgen h.vault
  hv

theorem modFunc (s : State) (k : Nat) (f : Func → Func) : s.KeepsSecrets (s.modFunc k f) := of_eq rfl rfl rfl rfl

theorem modQueue (s : State) (q : Nat) (f : Queue → Queue) : s.KeepsSecrets (s.modQueue q f) := of_eq rfl rfl rfl rfl

/-- A job that is discarded gives back its claim and its context. -/
theorem discardJob (s : State) (j : Nat) : s.KeepsSecrets (s.discardJob j) := by
  unfold State.discardJob
  cases s.job j with
  | none => exact refl s
  | some job =>
    have hrel := ((releaseClaim s job).trans (releaseCtx _ job)).trans (dropEngines _ j)
    dsimp only
    generalize ((s.releaseClaim job).releaseCtx job).dropEngines j = u at hrel ⊢
    cases job.grain with
    | none => exact hrel.trans (of_eq rfl rfl rfl rfl)
    | some g => exact hrel.trans (of_eq rfl rfl rfl rfl)

theorem clearFunction (s : State) (p f : Nat) : s.KeepsSecrets (s.clearFunction p f) := by
  unfold State.clearFunction
  extract_lets s1 s2
  have h2 : s.KeepsSecrets s2 := (foldl (fun t q => modQueue t q _) _ s).trans (modFunc s1 _ _)
  exact ite h2 (h2.trans (of_eq rfl rfl rfl rfl))

theorem tdispError (s : State) (p v : Nat) : s.KeepsSecrets (s.tdispError p v) := by
  unfold State.tdispError State.stopFunction State.logTdisp
  have hlog : ∀ t : State, t.KeepsSecrets (t.spend.log 0x6003 (leBytes 2 v ++ leBytes 1 p ++ t.freeBytes 1)) := fun t =>
    of_eq (by simp) (by simp) (by simp) (by simp)
  exact (((foldl (fun t j => discardJob t j) _ s).trans (clearFunction _ _ _)).trans (modFunc _ _ _)).trans (hlog _)

theorem breakTdisp (s : State) (n : Nat) : s.KeepsSecrets (s.breakTdisp n) :=
  foldl (fun t _ => ite (tdispError _ _ _) (refl t)) _ s

theorem abortHolders (s : State) (k : Nat) : s.KeepsSecrets (s.abortHolders k) :=
  foldl (fun t j => abortJob t j (by decide)) _ s

end State.KeepsSecrets

/-- No destroyed key touches a tenant's generation. -/
@[simp] theorem State.destroySlot_tgen (s : State) (k path : Nat) : (s.destroySlot k path).vault.tgen = s.vault.tgen := by
  unfold State.destroySlot
  extract_lets x s1 s2
  have h1 : s1.vault.tgen = s.vault.tgen := (State.KeepsSecrets.abortHolders s k).tgen
  have h2 : s2.vault.tgen = s1.vault.tgen := by
    unfold s2
    split
    · exact congrArg Vault.tgen (s1.logDestroyed_vault k path)
    · rfl
  split
  · rfl
  · exact h2.trans h1

/-- A changed tenant that is not as at reset reads back. -/
theorem State.tenant_modTenant_of_ne {s : State} {n : Nat} {f : Tenant → Tenant} (h : f (s.tenant n) ≠ {}) :
    (s.modTenant n f).tenant n = f (s.tenant n) :=
  Map.get_set_of_ne_default h

section
variable {s : State} {n : Nat} (hq : (s.tenant n).state = .quiesced) (hg : s.tgen n ≠ 0xFFFFFFFF)
include hq hg

/-- The remove pair of a QUIESCED tenant whose generation is not used up is applied. -/
theorem State.removeTenant_applied : (s.removeTenant n).2 = .applied := by
  simp [State.removeTenant, hq, hg]

/-- A removed tenant is REMOVING, its generation is one higher, and no context is its own. -/
theorem State.removeTenant_removes : ((s.removeTenant n).1.tenant n).state = .removing ∧
    (s.removeTenant n).1.tgen n = s.tgen n + 1 ∧ ∀ c x, (c, x) ∈ (s.removeTenant n).1.vault.ctxs → x.owner ≠ n := by
  unfold State.removeTenant
  rw [if_neg (not_not.2 hq), if_neg hg]
  extract_lets s1 s2 s3
  have hgen : s2.tgen n = s.tgen n := by
    have h1 : s1.vault.tgen = s.vault.tgen := (State.KeepsSecrets.breakTdisp s n).tgen
    have h2 : s2.vault.tgen = s1.vault.tgen :=
      foldl_keeps s1 (fun t => t.vault.tgen) (fun t k => (t.destroySlot k 2).unassignSlot k) (fun t k => t.destroySlot_tgen k 2) _
    rw [State.tgen, h2, h1, State.tgen]
  refine ⟨?_, ?_, fun c x hx => ?_⟩
  · rw [State.tenant_modTenant_of_ne fun h => nomatch (congrArg Tenant.state h : TState.removing = .free)]
  · have hread : (s2.vault.tgen.insert n (s2.tgen n + 1)).get n 0 = s2.tgen n + 1 := by simp [Map.get]
    exact hread.trans (by rw [hgen])
  · exact of_decide_eq_true (List.mem_filter.1 hx).2
end

/-! Retirement of a noise source (R284, R299). -/

/-- Putting the RNG in FAILED changes no source. -/
@[simp] theorem State.rngFail_source (s : State) (k : Nat) : s.rngFail.rng.source k = s.rng.source k := by
  unfold State.rngFail
  split
  · rfl
  · rw [State.event_rng]
    rfl

theorem State.source_modSource_of_ne {s : State} {k : Nat} {f : Source → Source} (h : f (s.rng.source k) ≠ {}) :
    (s.modSource k f).rng.source k = f (s.rng.source k) :=
  Map.get_set_of_ne_default h

theorem State.source_modSource_ne (s : State) {k i : Nat} (h : i ≠ k) (f : Source → Source) :
    (s.modSource k f).rng.source i = s.rng.source i :=
  Map.get_modify_ne _ f h

/-- What stands next as a spare is one. -/
theorem Rng.nextSpare_role {r : Rng} {n : Nat} (h : r.nextSpare = some n) : (r.source n).role = .spare := by
  have hp := List.find?_some h
  exact of_decide_eq_true hp

/-- A source that is retired stays so: its replacement is another. -/
theorem State.retireSource_role {s : State} {k : Nat} (h : (s.rng.source k).role ≠ .retired) :
    ((s.retireSource k).rng.source k).role = .retired := by
  unfold State.retireSource
  extract_lets x s1 s2 spare s3 dest s4
  have h1 : (s1.rng.source k).role = .retired := by
    rw [State.source_modSource_of_ne fun h => nomatch (congrArg Source.role h : SrcRole.retired = .spare)]
  have h2 : (s2.rng.source k).role = .retired := h1
  have h3 : (s3.rng.source k).role = .retired := by
    unfold s3
    cases hn : spare with
    | none => exact h2
    | some n =>
      have hspare : (s2.rng.source n).role = .spare := by
        by_cases hx : x.role = .spare
        · simp [spare, hx] at hn
        · exact Rng.nextSpare_role (by simpa [spare, hx] using hn)
      have hne : k ≠ n := by
        rintro rfl
        simp [h2] at hspare
      rw [State.source_modSource_ne _ hne, h2]
  have h4 : s4.rng = s3.rng := (State.event_rng _ _ _).trans (State.log_rng _ _ _)
  rw [if_neg h]
  split
  · rw [State.rngFail_source, h4, h3]
  · rw [h4, h3]

/-! Destruction of a slot (R323). -/

@[simp] theorem State.dmaWrite_vault (s : State) (p f a : Nat) (d : List Byte) (r : Bool) :
    (s.dmaWrite p f a d r).vault = s.vault := by
  unfold State.dmaWrite
  dsimp only
  split
  · rfl
  · split <;> rfl

@[simp] theorem State.countCompletion_vault (s : State) (q : Nat) (o : PairOwner) (irq : Bool) :
    (s.countCompletion q o irq).vault = s.vault := by
  unfold State.countCompletion
  dsimp only
  split
  · rfl
  · split <;> simp

@[simp] theorem State.writeCompletion_vault (s : State) (o : PairOwner) (job : Job) (e st n : Nat) :
    (s.writeCompletion o job e st n).vault = s.vault := by
  simp [State.writeCompletion]

@[simp] theorem State.stopPair_vault (s : State) (q code : Nat) : (s.stopPair q code).vault = s.vault := by
  unfold State.stopPair
  dsimp only
  split
  · split <;> simp
  · rfl

/-- Giving up a claim changes no loaded slot. -/
theorem State.releaseClaim_slot {s : State} {k : Nat} (h : (s.slot k).state = .loaded) (job : Job) :
    (s.releaseClaim job).slot k = s.slot k := by
  unfold State.releaseClaim
  cases job.claim with
  | none => rfl
  | some i =>
    dsimp only
    by_cases hi : k = i
    · subst hi
      have hf : (if (s.slot k).state = .claimed then { s.slot k with state := .prepared } else s.slot k) = s.slot k := by
        simp [h]
      have hne : s.slot k ≠ {} := fun e => by simp [e] at h
      exact (Map.get_set_of_ne_default fun e => hne (hf.symm.trans e)).trans hf
    · exact Map.get_modify_ne _ _ hi

/-- A job that ends with an error changes no loaded slot. -/
theorem State.complete_slot {s : State} {k : Nat} (h : (s.slot k).state = .loaded) (j : Nat) {status : Nat}
    (hok : status ≠ Status.ok) (ring : Bool) : (s.complete j status ring).slot k = s.slot k := by
  unfold State.complete
  cases s.job j with
  | none => rfl
  | some job =>
    simp only [if_neg hok]
    have hrel : ((s.releaseClaim job).releaseCtx job).slot k = s.slot k := by
      rw [← State.releaseClaim_slot h job]
      unfold State.releaseCtx
      split <;> rfl
    generalize (s.releaseClaim job).releaseCtx job = u at hrel ⊢
    rw [← hrel]
    refine congrArg (Map.get · k {}) (congrArg Vault.slots ?_)
    split
    · rfl
    · split <;> simp [State.countJob]

@[simp] theorem State.modJob_vault (s : State) (j : Nat) (f : Job → Job) : (s.modJob j f).vault = s.vault := by
  obtain ⟨js, h⟩ := s.modJob_eq j f
  rw [h]

@[simp] theorem State.send_vault (s : State) (v : Via) (o : Out) : (s.send v o).vault = s.vault := by
  unfold State.send
  dsimp only
  split
  · split <;> rfl
  · rfl

/-- An answer changes no loaded slot. -/
theorem State.respond_slot {s : State} {k : Nat} (h : (s.slot k).state = .loaded) (v : Via) (status : Nat)
    (payload : List Byte) : (s.respond v status payload).slot k = s.slot k := by
  have hsend : ∀ o, (s.send v o).slot k = s.slot k := fun o => by rw [State.slot, State.send_vault, State.slot]
  have hmod : ∀ j f, (s.modJob j f).slot k = s.slot k := fun j f => by rw [State.slot, State.modJob_vault, State.slot]
  have hanswer : ∀ j body, (s.answerJob j status body).slot k = s.slot k := fun j body => by
    unfold State.answerJob
    cases s.job j with
    | none => rfl
    | some job =>
      dsimp only
      split
      · rw [State.complete_slot (by rwa [hmod]) j (by decide), hmod]
      · rw [hmod]
  unfold State.respond
  extract_lets gone
  cases gone with
  | true => rfl
  | false =>
    simp only [Bool.false_eq_true, if_false]
    split
    · split
      · exact hanswer _ _
      · exact hsend _
    · exact hsend _

/-- Destroying a key leaves its slot EMPTY, and no record of it on the shelf. -/
theorem State.destroySlot_loaded {s : State} {k : Nat} (h : (s.slot k).state = .loaded) (path : Nat) :
    (s.destroySlot k path).slot k = { state := .empty, owner := (s.slot k).owner, system := (s.slot k).system } ∧
    (s.Sound → (s.destroySlot k path).vault.shelf.find? k = none) := by
  unfold State.destroySlot
  extract_lets x s1 s2
  have hx : x.state = .loaded := h
  rw [if_neg (by simp [hx])]
  refine ⟨?_, fun hs => ?_⟩
  · simp [State.slot, Map.get, x]
  · have h1 : s1.Sound := sound_abortHolders hs
    have h2 : s2.Sound := sound_ite (sound_logDestroyed h1) h1
    exact Map.find?_erase_self h2.shelf k

theorem State.slot_modSlot_of_ne {s : State} {k : Nat} {f : Slot → Slot} (h : f (s.slot k) ≠ {}) :
    (s.modSlot k f).slot k = f (s.slot k) :=
  Map.get_set_of_ne_default h

/-- A destroy pair takes secret, cache and shelf record of a loaded slot at once. -/
theorem State.startDestroy_loaded {s : State} {k : Nat} (h : (s.slot k).state = .loaded)
    (hd : (s.slot k).destroying = false) : ((s.startDestroy k).slot k).destroying = true ∧
    ((s.startDestroy k).slot k).secret = [] ∧ ((s.startDestroy k).slot k).cache = [] ∧
    (s.Sound → (s.startDestroy k).vault.shelf.find? k = none) := by
  unfold State.startDestroy
  extract_lets x s1 s2
  have hx : x.state = .loaded := h
  rw [if_neg (by simp [hx, x, hd])]
  have hfold : ∀ (l : List (Nat × Via)) (t : State), (t.slot k).state = .loaded →
      ((l.foldl (fun t e => t.respond e.2 Status.keyAbsent []) t).slot k).state = .loaded := by
    intro l
    induction l with
    | nil => exact fun t ht => ht
    | cons e l ih => exact fun t ht => ih _ (by rwa [State.respond_slot ht])
  obtain ⟨hslot, hshelf⟩ := State.destroySlot_loaded (hfold x.lowering s h) 1
  rw [State.slot_modSlot_of_ne fun h => nomatch (congrArg Slot.destroying h : true = false)]
  have h2 : s2.slot k = _ := hslot
  refine ⟨rfl, by rw [h2], by rw [h2], fun hs => hshelf (sound_foldl hs fun t e ht => sound_respond ht)⟩

/-! TMP_CFGs (R416). -/

@[simp] theorem tmpSource_gdTamper (k : Nat) : tmpSource (gdTamper k) = k := by
  unfold tmpSource gdTamper
  omega

end Sys2Proof.Machine

namespace Sys2Proof.Claims
open Sys2Proof.Machine

/-- The reset of an applied GLB_RESET pair: software is its cause, and what R337 names is gone or kept. -/
theorem softwareReset_runs (s : State) (r : Requester) (t : State)
    (ht : t = ((s.callReset causeSoftware).judged r gdReset .applied).runDue) :
    t.power.phase = .pllLocking ∧ t.power.cause.testBit 21 = true ∧ t.power.resetDue = 0 ∧ t.glb.epoch = s.glb.epoch ∧
    t.jobs = [] ∧ t.queues = [] ∧ t.tenants = [] ∧ t.vault.ctxs = [] ∧ t.power.topsoilUp = false := by
  set u := (s.callReset causeSoftware).judged r gdReset .applied with hu
  have hdue : u.power.resetDue.testBit 21 = true := by
    have hcause : causeSoftware.testBit 21 = true := by decide
    simp [hu, State.callReset, Nat.testBit_or, hcause]
  obtain ⟨cause, logged, hrun, hcause⟩ := State.runDue_due (s := u) fun h => by simp [h] at hdue
  have hepoch : (u.fullReset cause .pllLocking logged).glb.epoch = s.glb.epoch :=
    (State.clearTopsoil_epoch u logged).trans ((s.callReset causeSoftware).judged_glb_epoch r gdReset .applied)
  subst ht
  rw [hrun]
  exact ⟨rfl, State.fullReset_cause u (hcause 21 hdue) _ _, rfl, hepoch, rfl, rfl, rfl, rfl, rfl⟩

/-- Settles O36: each command is `Applies.of_exec` at its operation, whose branch the premises choose; the effects are those of
the laws above. -/
theorem guardedOperations : Obligations.GuardedOperations := by
  intro s
  refine ⟨.single resetPair (fun _ _ _ => rfl) rfl,
    fun r => softwareReset_runs s r _ rfl,
    fun value hv hd r hl hh hf => ?reset,
    fun value hq hg => .single removePair (fun _ _ _ => rfl)
      (Prod.ext rfl (State.removeTenant_applied hq hg)),
    fun n hq hg => State.removeTenant_removes hq hg,
    fun value hq => .single removePair (fun _ _ _ => rfl) (if_pos hq),
    fun value => .single srcSelPair (fun _ _ _ => rfl) rfl,
    fun k hk => State.retireSource_role hk,
    fun value => .single destroyPair (fun _ _ _ => rfl) rfl,
    fun k hk hd => State.startDestroy_loaded hk hd,
    fun value hk => .single revokePair (fun _ _ _ => rfl) (by simp [revokePair, hk]),
    fun value hk hs => .single revokePair (fun _ _ _ => rfl) (by simp [revokePair, hk, hs]),
    fun value hk hs => .single revokePair (fun _ _ _ => rfl) (by simp [revokePair, hk, hs]),
    fun req hreq hto => .single lcsPair (fun _ _ _ => rfl) ?request,
    fun value hreq _ => .single lcsPair (fun _ _ _ => rfl) (by simp [lcsPair, hreq]),
    fun value => .single holdPair (fun _ _ _ => rfl) rfl,
    fun value => .single holdPair (fun _ _ _ => rfl) rfl,
    fun value => .single sievePair (fun _ _ _ => rfl) rfl,
    fun value hlen => .single windowPair (fun _ _ _ => rfl) (if_neg (Nat.not_lt.2 hlen)),
    fun value hlen => .single windowPair (fun _ _ _ => rfl) (if_pos hlen),
    fun k value hk => .of_exec _ tamperPair (fun _ _ _ => rfl)
      (List.mem_map_of_mem (f := gdTamper) (List.mem_range.2 hk)) (by simp [tamperPair])⟩
  case reset =>
    have happ : Applies s .glbReset gdReset value s .inputInvalid State.runDue :=
      .single resetPair (fun _ _ _ => rfl) (if_neg hv)
    rw [happ r hl hh hf, State.runDue_judged hd]
    rfl
  case request =>
    have hval : (BitVec.ofNat 32 (field req 0x0C 4)).toNat = field req 0x0C 4 := by
      rw [BitVec.toNat_ofNat, Nat.mod_eq_of_lt hto]
    unfold lcsPair
    rw [hreq, hval]
    exact if_neg (not_not.2 rfl)

end Sys2Proof.Claims
end

section
/-!
O37: pending increments of event registers, posted writes, and the registers that take a write as it comes (R30, R39, R44, R48,
R69, R72, R394, R445, R471).
-/
namespace Sys2Proof.Machine

/-! SEQ (R30). -/

/-- A change of an event register counts for the value that stands there. -/
theorem State.modSq_congr {s : State} {r : SqId} {f g : Sq → Sq} (h : f (s.sqReg r) = g (s.sqReg r)) :
    s.modSq r f = s.modSq r g :=
  congrArg (fun x => { s with sq := s.sq.set (sqKey r) x {} }) h

/-! Posted writes (R39). -/

/-- Without a pair that waits for its second write, a write of the management PF is posted. -/
theorem execPostedWrite_mgmt {s : State} {off : Nat} {value : W32} (hl : s.pfLive s.mgmt = true)
    (hh : s.heldPair (.pf s.mgmt) = none) : execPostedWrite s.mgmt off value s = .next (s.post s.mgmt off value) := by
  simp [execPostedWrite, hl, State.noteWrite_none hh]

section
variable {s : State} {p off : Nat} {value : W32} {b : PostedBlock} (hb : postedOf off = some b) (hd : s.glb.linkDown = false)
include hb hd

theorem State.post_free (hf : (s.postedBlock b).busy = false) :
    s.post p off value = s.modPosted b fun x => { x with busy := true, held := some (off, p, value) } := by
  simp only [State.post, hb, State.dropPosted_free hd hf]

theorem State.post_busy (hf : (s.postedBlock b).busy = true) :
    s.post p off value = s.modPosted b fun x => { x with writeLost := satAdd 0xFFFF x.writeLost 1 } := by
  simp only [State.post, hb, State.dropPosted_busy hd hf]
end

theorem execPostedWrite_other {s : State} {p off : Nat} {value : W32} (hh : s.heldPair (.pf p) = none) (hp : p ≠ s.mgmt) :
    execPostedWrite p off value s = .next s := by
  simp [execPostedWrite, State.noteWrite_none hh, hp]

theorem execPostedWriteApplied_held {s : State} {b : PostedBlock} {off p : Nat} {value : W32}
    (hh : (s.postedBlock b).held = some (off, p, value)) (hd : s.glb.linkDown = false) : execPostedWriteApplied b s =
    .next ((s.modPosted b fun x => { x with busy := false, held := none }).applyPosted off value) := by
  simp [execPostedWriteApplied, hh, hd]

/-- Two halves of a 64-bit register, as number and as bits. -/
theorem append_eq_ofNat (hi lo : BitVec 32) : hi ++ lo = BitVec.ofNat 64 (hi.toNat * 2 ^ 32 + lo.toNat) := by
  refine BitVec.eq_of_toNat_eq ?_
  rw [BitVec.toNat_append, ← Nat.shiftLeft_add_eq_or_of_lt lo.isLt, Nat.shiftLeft_eq, BitVec.toNat_ofNat]
  exact (Nat.mod_eq_of_lt (by omega)).symm

/-- HZN_WIN takes its low half. -/
theorem State.applyPosted_winLow (s : State) (value : W32) : s.applyPosted 0x400030 value =
    s.modHzn fun h => { h with win := h.win.extractLsb' 32 32 ++ value } := by
  have hwin : ∀ w : W64, BitVec.ofNat 64 (w.toNat / 2 ^ 32 * 2 ^ 32 + value.toNat) = w.extractLsb' 32 32 ++ value := by
    intro w
    rw [append_eq_ofNat, BitVec.extractLsb'_toNat, Nat.shiftRight_eq_div_pow, Nat.mod_eq_of_lt]
    exact Nat.div_lt_of_lt_mul w.isLt
  simp only [State.applyPosted, hwin]

/-- HZN_WIN takes its high half. -/
theorem State.applyPosted_winHigh (s : State) (value : W32) : s.applyPosted 0x400034 value =
    s.modHzn fun h => { h with win := value ++ h.win.extractLsb' 0 32 } := by
  have hwin : ∀ w : W64, BitVec.ofNat 64 (value.toNat * 2 ^ 32 + w.toNat % 2 ^ 32) = value ++ w.extractLsb' 0 32 := by
    intro w
    rw [append_eq_ofNat, BitVec.extractLsb'_toNat, Nat.shiftRight_zero]
  simp only [State.applyPosted, hwin]

/-- No other offset takes a posted write. -/
theorem State.applyPosted_other (s : State) {off : Nat} (value : W32)
    (h : off ∉ [0x200500, 0x200504, 0x200508, 0x300040, 0x400030, 0x400034]) : s.applyPosted off value = s := by
  simp only [List.mem_cons, List.not_mem_nil, or_false, not_or] at h
  obtain ⟨h1, h2, h3, h4, h5, h6⟩ := h
  unfold State.applyPosted
  dsimp only
  split
  case h_7 => rfl
  all_goals contradiction

/-! Registers of a PF's BAR0 (R42). -/

/-- No posted block lies below the subsoil's offsets. -/
theorem postedOf_low {off : Nat} (h : off < 0x200000) : postedOf off = none := by
  unfold postedOf
  split
  case h_7 => rw [if_neg (by omega), if_neg (by omega), if_neg (by omega)]
  all_goals omega

theorem execRegisterWrite_pf {s : State} {p off : Nat} {value : W32} (hl : s.pfLive p = true)
    (hh : s.heldPair (.pf p) = none) : execRegisterWrite (.pf p) (.bar off value) s = .next (s.pfWrite p off value) := by
  simp [execRegisterWrite, hl, State.noteWrite_none hh]

theorem execRegisterWrite_numVFs {s : State} {p n : Nat} (hl : s.pfLive p = true) (he : (s.port p).vfEnable = false)
    (hn : n ≤ s.vfCount p) :
    execRegisterWrite (.pf p) (.numVFs n) s = .next (s.modPort p fun x => { x with numVFs := n }) := by
  simp [execRegisterWrite, hl, he, Nat.not_lt.2 hn]

theorem execRegisterWrite_vfEnable {s : State} {p : Nat} (hl : s.pfLive p = true) (on : Bool) :
    execRegisterWrite (.pf p) (.vfEnable on) s = .next (s.modPort p fun x => { x with vfEnable := on }) := by
  simp [execRegisterWrite, hl]

theorem execRegisterWrite_power {s : State} {p f : Nat} (hl : s.pfLive p = true) (hf : f ≤ (s.port p).numVFs) (on : Bool) :
    execRegisterWrite (.pf p) (.power p f on) s = .next (s.modFunc (fnKey p f) fun x => { x with d3hot := on }) := by
  simp [execRegisterWrite, hl, hf]

/-- The register at `off` of pair `q`. -/
theorem State.pfWrite_queue (s : State) (p : Nat) {q off : Nat} (value : W32) (hq : q < 8192) (ho : off < 64) :
    s.pfWrite p (0x100000 + off + 64 * q) value = s.queueRegister p q off value := by
  have hpair : (0x100000 + off + 64 * q - 0x100000) / 64 = q := by omega
  have hoff : (0x100000 + off + 64 * q) % 64 = off := by omega
  unfold State.pfWrite
  rw [postedOf_low (by omega), if_neg (by simp), if_neg (by omega), if_neg (by omega), if_pos (by omega), hpair, hoff]

/-- A write to a register of a pair comes to the pair. -/
theorem execRegisterWrite_queue {s : State} {p q off : Nat} {value : W32} (hl : s.pfLive p = true)
    (hh : s.heldPair (.pf p) = none) (hq : q < 8192) (ho : off < 64) :
    execRegisterWrite (.pf p) (.bar (0x100000 + off + 64 * q) value) s = .next (s.queueRegister p q off value) :=
  (execRegisterWrite_pf hl hh).trans (congrArg _ (s.pfWrite_queue p value hq ho))

/-- The vector-control word of vector `v` of the PF, written with bit 0 clear: nothing is pending, so the vector is unmasked. -/
theorem State.pfWrite_unmask {s : State} {p v : Nat} {value : W32} (hv : v < 64)
    (hp : (s.func (fnKey p 0)).msixPending.testBit v = false) (hc : value.getLsbD 0 = false) :
    s.pfWrite p (0xD00C + 16 * v) value = s.modFunc (fnKey p 0) fun x =>
      { x with
        msixMasked := x.msixMasked - (if x.msixMasked.testBit v then 2 ^ v else 0)
        msixPending := x.msixPending - (if x.msixPending.testBit v then 2 ^ v else 0) } := by
  have hvec : (0xD00C + 16 * v - 0xD000) / 16 = v := by omega
  unfold State.pfWrite
  rw [postedOf_low (by omega), if_neg (by simp), if_neg (by omega), if_pos (by omega)]
  unfold State.msixWrite
  rw [hvec]
  dsimp only
  rw [if_neg (by omega), if_neg (by omega), hc, hp]
  rfl

/-- OBS_TRC_CTL is the management PF's. -/
theorem State.pfWrite_trcCtl (s : State) (p : Nat) (value : W32) : s.pfWrite p 0x3000100 value =
    if p = s.mgmt then s.modObs fun o => { o with trcCtl := bits value.toNat 7 0 } else s := rfl

section
variable {s : State} {p q : Nat} {value : W32} (hw : s.pairWritable p q = true)
include hw

theorem State.queueRegister_coalescing : s.queueRegister p q 0x18 value =
    s.modQueue q fun y => { y with timeUs := bits value.toNat 23 8, count := bits value.toNat 7 0 } := by
  simp [State.queueRegister, hw]

theorem State.queueRegister_sizes (hd : (s.queue q).state = .disabled) : s.queueRegister p q 0x10 value =
    s.modQueue q fun y => { y with sqLog2 := bits value.toNat 4 0, cqLog2 := bits value.toNat 20 16 } := by
  simp [State.queueRegister, hw, hd]

theorem State.queueRegister_sizes_kept (hd : (s.queue q).state ≠ .disabled) : s.queueRegister p q 0x10 value = s := by
  simp [State.queueRegister, hw, hd]
end

end Sys2Proof.Machine

namespace Sys2Proof.Claims
open Sys2Proof.Machine

/-- Settles O37: each write comes to its register by its offset, and the register's rule gives the change. -/
theorem registerWrites : Obligations.RegisterWrites := by
  exact ⟨fun s => ⟨fun r reg value b hl hh hv hb hd hf => execSqAcknowledge_busy hl hh hv hb hd hf,
      fun reg hp => congrArg Host.Outcome.next (State.modSq_congr (if_pos hp)),
      fun reg hp => congrArg Host.Outcome.next (State.modSq_congr (if_neg (ne_true_of_eq_false hp)))⟩,
    fun s => ⟨fun off value b hl hh hb hd hf => (execPostedWrite_mgmt hl hh).trans (congrArg _ (State.post_free hb hd hf)),
      fun off value b hl hh hb hd hf => (execPostedWrite_mgmt hl hh).trans (congrArg _ (State.post_busy hb hd hf)),
      fun p off value hh hp => execPostedWrite_other hh hp,
      fun b off p value hh hd => execPostedWriteApplied_held hh hd,
      fun value => rfl,
      s.applyPosted_winLow,
      s.applyPosted_winHigh,
      fun off value h => s.applyPosted_other value h,
      fun p hl hh => (execRegisterWrite_pf hl hh).trans (congrArg _ (s.pfWrite_trcCtl p 0)),
      fun p q value hl hh hw hq =>
        (execRegisterWrite_queue hl hh hq (by decide)).trans (congrArg _ (State.queueRegister_coalescing hw)),
      fun p q value hl hh hw hq hd =>
        (execRegisterWrite_queue hl hh hq (by decide)).trans (congrArg _ (State.queueRegister_sizes hw hd)),
      fun p q value hl hh hw hq hd =>
        (execRegisterWrite_queue hl hh hq (by decide)).trans (congrArg _ (State.queueRegister_sizes_kept hw hd)),
      fun p v value hl hh hv hp hc => (execRegisterWrite_pf hl hh).trans (congrArg _ (State.pfWrite_unmask hv hp hc)),
      fun p n hl he hn => execRegisterWrite_numVFs hl he hn,
      fun p on hl => execRegisterWrite_vfEnable hl on,
      fun p f on hl hf => execRegisterWrite_power hl hf on⟩⟩

end Sys2Proof.Claims
end

section
/-!
O47: how a manager's request comes to its operation (R80, R427, R429, R459).
-/
namespace Sys2Proof.Machine

/-- What an admitted request that opens no ceremony does: an approval counts, every other request is applied. -/
def State.requestEffect (s : State) (v : Via) (r : MgrReq) : State × Answer :=
  match r with
  | .ceremonyApprove id target officer signature => s.approve v id target officer signature
  | r => s.applyRequest v r

@[simp] theorem State.markStarted_glb (s : State) (v : Via) : (s.markStarted v).glb = s.glb := by
  unfold State.markStarted
  split
  · split <;> rfl
  · rfl

@[simp] theorem State.markStarted_boot (s : State) (v : Via) : (s.markStarted v).boot = s.boot := by
  unfold State.markStarted
  split
  · split <;> rfl
  · rfl

@[simp] theorem State.markStarted_ceremonial (s : State) (v : Via) (r : MgrReq) :
    (s.markStarted v).ceremonial r = s.ceremonial r := by
  simp [State.ceremonial, State.tilth]

/-- A manager session on its own transport stays one when its first request arrives. -/
theorem State.mayRequest_markStarted {s : State} {v : Via} {n : Nat} {x : Session} (hs : v.session = some n)
    (hf : s.spdm.sessions.find? n = some x) (ht : x.transport = v.transport) (he : x.established = true)
    (hm : x.manager = true) (r : MgrReq) : (s.markStarted v).mayRequest v r = true := by
  have hmark : (s.markStarted v).spdm.sessions.find? n = some { x with started := true } := by
    simp [State.markStarted, hs, hf, State.modSpdm]
  have hsession : (s.markStarted v).sessionOf v = some (n, { x with started := true }) := by
    simp [State.sessionOf, hs, hmark, ht, he]
  simp [State.mayRequest, hsession, hm]

end Sys2Proof.Machine

namespace Sys2Proof.Claims
open Sys2Proof.Machine

/-- A request that is not ceremonial has its effect, and is logged and answered. -/
theorem runRequest_finished {s : State} {r : MgrReq} (h : s.ceremonial r = false) (v : Via) :
    s.runRequest v r = finished v r (s.requestEffect v r) := by
  cases r
  case ceremonyApprove => rfl
  all_goals
    unfold State.runRequest
    dsimp only
    rw [if_neg (ne_true_of_eq_false h)]
    rfl

/-- A request of an established manager session is settled by its effect alone. -/
theorem Requested.of_effect {s : State} {v : Via} {r : MgrReq} {c : Instr} {legal : State → Prop}
    {eff : State → State × Answer} (hexec : exec c s = .next (s.request v r))
    (heff : ∀ t, v.session.isSome = true → legal t → t.requestEffect v r = eff t) : Requested s v r c legal eff := by
  intro n x hl hp hs hf ht he hm hlog hc hlegal
  have hmay : (s.markStarted v).mayRequest v r = true := State.mayRequest_markStarted hs hf ht he hm r
  have hroom : ((s.markStarted v).glb.logFull && !reqOfLog r) = false := by
    rcases hlog with h | h <;> simp [h]
  have hrequest : s.request v r = (s.markStarted v).runRequest v r := by
    unfold State.request
    simp only [hl, hp, hmay, hroom, Bool.not_true, Bool.false_eq_true, if_false]
  rw [hexec, hrequest, runRequest_finished (by simpa using hc), heff _ (by simp [hs]) hlegal]

end Sys2Proof.Claims
end

section
/-!
O47, tenants: what TENANT_SET, QUIESCE, RESUME, REMOVE_ARM and the migration do with a tenant's entry (R80 to R88).
-/
namespace Sys2Proof.Machine

variable {s : State} {n : Nat}

theorem State.tenantSet_free {f : TptFields} (h : (s.tenant n).state = .free) (hb : s.takesBusy n f = false)
    (ho : s.tptOk n f = true) : s.tenantSet n f =
      (((s.modTenant n fun _ => { state := .active, tpt := f }).moveUnits {} f).noteGrains s {} f, .ok) := by
  simp [State.tenantSet, h, hb, ho]

theorem State.tenantSet_busy {f : TptFields} (h : (s.tenant n).state = .removing ∨ s.takesBusy n f = true) :
    s.tenantSet n f = (s, .no Status.tenantBusy) :=
  if_pos h

theorem State.tenantSet_bad {f : TptFields} (h : (s.tenant n).state ≠ .removing) (hb : s.takesBusy n f = false)
    (ho : s.tptOk n f = false) : s.tenantSet n f = (s, .no Status.inputInvalid) := by
  simp [State.tenantSet, h, hb, ho]

theorem State.quiesce_active (h : (s.tenant n).state = .active) (v : Via) : s.quiesce v n =
    (let u := (s.breakTdisp n).modTenant n fun x => { x with state := .quiescing, quiescers := [v] }
     ((u.jobsWhere fun x => decide (x.tenant = n ∧ x.stage = Stage.admitted)).foldl
       (fun u j => u.complete j Status.tenantQuiesced true) u, .later)) := by
  simp only [State.quiesce, h]

theorem State.quiesce_quiesced (h : (s.tenant n).state = .quiesced) (v : Via) : s.quiesce v n = (s, .ok) := by
  simp only [State.quiesce, h]

theorem State.resume_quiesced (h : (s.tenant n).state = .quiesced) : s.resume n =
    ((((s.breakTdisp n).tenantPairs n).foldl (fun u q =>
      u.modQueue q fun y => { y with state := if y.state = .quiesced then .enabled else y.state }) (s.breakTdisp n)).modTenant n
      fun x => { x with state := .active }, .ok) :=
  if_neg (not_not.2 h)

theorem State.removeArm_quiesced (h : (s.tenant n).state = .quiesced) (hg : s.tgen n ≠ 0xFFFFFFFF) (v : Via) (value : W32) :
    s.removeArm v n value = s.arm v gdRemove value removePair :=
  (if_neg (not_not.2 h)).trans (if_neg hg)

theorem State.migrateExport_fits {a len : Nat} {key : List Byte} (h : (s.tenant n).state = .quiesced)
    (he : (s.tenant n).exported = false) (hk : s.migrationKey s.uncel.gen = some key)
    (hl : (s.exportBlob n key).length ≤ len) : s.migrateExport n a len true =
      (let u := (s.exportSlots n).foldl (fun u k => u.destroySlot k 7)
        ((s.breakTdisp n).spend.dmaWrite (s.tenant n).tpt.port 0 a (s.exportBlob n key) true)
       ((u.modVault fun x => { x with ctxs := x.ctxs.filter fun (c, _) => !(s.exportCtxs n).contains c }).modTenant n
        fun y => { y with exported := true }, .ok)) := by
  unfold State.migrateExport
  dsimp only
  rw [if_neg (by simp [h, he]), hk]
  dsimp only
  rw [if_neg (Nat.not_lt.2 hl), if_neg (by simp)]
  rfl

theorem State.migrateImport_unreadable {blob : List Byte} (h : (s.tenant n).state = .quiesced)
    (hr : s.readMigration blob = none) : s.migrateImport n blob = (s, .no Status.blobInvalid) := by
  simp [State.migrateImport, h, hr]

theorem State.migrateImport_fits {blob : List Byte} {x : Imported} (h : (s.tenant n).state = .quiesced)
    (hr : s.readMigration blob = some x) (he : field blob 0xC 4 ≤ s.glb.epoch) (hf : s.importFits n x = true) :
    s.migrateImport n blob =
      ((x.ctxs.foldl (fun u r => u.modCtx (nth r.1 0) fun _ => ctxOf n r)
        (x.slots.foldl (fun u r => u.importSlot n r)
          (x.pairs.foldl (fun u r => u.modQueue ((s.tenant n).tpt.qpBase + nth r 0) fun _ => queueOf r)
            (s.breakTdisp n)))).modTenant n fun y => { y with exported := false }, .ok) := by
  unfold State.migrateImport
  rw [if_neg (not_not.2 h), hr]
  dsimp only
  rw [if_neg (Nat.not_lt.2 he), if_neg (by simp [hf])]

end Sys2Proof.Machine
end

section
/-!
O47, slots and images: SLOT_ASSIGN, BUDGET_LOWER, DESTROY_ARM and the image requests (R315, R319, R367, R368).
-/
namespace Sys2Proof.Machine

variable {s : State}

theorem State.slotAssign_system {k o : Nat} (hk : k < 4096) (ho : o < 1024) (hu : (s.slot k).state.unused = true) :
    s.slotAssign k o true = ((s.modSlot k fun _ => { state := .empty, owner := 0, system := true }).modVault fun x =>
      { x with owned := x.owned.insert k (0, true) }, .ok) := by
  unfold State.slotAssign
  dsimp only
  rw [if_neg (by omega), if_neg (by simp [hu]), if_neg (by simp)]
  rfl

theorem State.slotAssign_tenant {k o : Nat} (hk : k < 4096) (ho : o < 1024) (hu : (s.slot k).state.unused = true)
    (hq : s.owns o k = true ∨ s.slotCount o < (s.tenant o).tpt.slotQuota) :
    s.slotAssign k o false = ((s.modSlot k fun _ => { state := .empty, owner := o, system := false }).modVault fun x =>
      { x with owned := x.owned.insert k (o, false) }, .ok) := by
  have hquota : ¬(!false ∧ !s.owns o k ∧ (s.tenant o).tpt.slotQuota ≤ s.slotCount o) := by
    rintro ⟨-, hown, hcount⟩
    rcases hq with h | h
    · simp [h] at hown
    · omega
  unfold State.slotAssign
  dsimp only
  rw [if_neg (by omega), if_neg (by simp [hu]), if_neg hquota]
  rfl

theorem State.budgetLower_now {k b : Nat} (hu : (s.slot k).state.unused = false) (hb : b ≤ (s.slot k).budget)
    (hs : (s.vault.shelf.find? k).isSome = false) (v : Via) : s.budgetLower v k b = (s.lowerBudget k b, .ok) := by
  simp [State.budgetLower, hu, Nat.not_lt.2 hb, hs]

theorem State.budgetLower_later {k b : Nat} (hu : (s.slot k).state.unused = false) (hb : b ≤ (s.slot k).budget)
    (hs : (s.vault.shelf.find? k).isSome = true) (hl : b ≠ unlimited) (v : Via) :
    s.budgetLower v k b = (s.modSlot k fun y => { y with lowering := y.lowering ++ [(b, v)] }, .later) := by
  simp [State.budgetLower, hu, Nat.not_lt.2 hb, hs, hl]

theorem State.destroyArm_assigned {k : Nat} (h : (s.slot k).state ≠ .unassigned) (v : Via) (value : W32) :
    s.destroyArm v k value = s.arm v gdDestroy value destroyPair :=
  if_neg h

theorem State.imageBegin_opens {g len : Nat} (hg : g ≤ 3) (hrun : g < 3 → g ≠ s.boot.running)
    (hlen : len ≤ regionRoom (s.targetRegion g)) (hi : s.boot.install = none)
    (hs : g < 3 → s.slotSigned (s.targetRegion g) = true →
      ([0, 1, 2].any fun k => decide (k ≠ s.targetRegion g) && s.slotSigned k) = true) :
    s.imageBegin g len = ((s.modRegion (s.targetRegion g) fun r => { r with page := { r.page with state := .writing } }).modBoot
      fun b => { b with install := some ⟨g, len⟩ }, .ok) := by
  have hvalid : ¬(3 < g ∨ (g < 3 ∧ g = s.boot.running) ∨ regionRoom (s.targetRegion g) < len ∨ s.boot.install.isSome) := by
    rintro (h | ⟨h3, h⟩ | h | h)
    · omega
    · exact hrun h3 h
    · omega
    · simp [hi] at h
  have hstays : ¬(g < 3 ∧ s.slotSigned (s.targetRegion g) ∧
      !([0, 1, 2].any fun k => decide (k ≠ s.targetRegion g) && s.slotSigned k)) := by
    rintro ⟨h3, hsigned, hnone⟩
    simp only [hs h3 hsigned, Bool.not_true, Bool.false_eq_true] at hnone
  exact (if_neg hvalid).trans (if_neg hstays)

theorem State.imageData_written {x : Install} {off : Nat} {bytes : List Byte} (hi : s.boot.install = some x)
    (h0 : bytes.length ≠ 0) (h1 : bytes.length ≤ 1024) (hl : off + bytes.length ≤ x.len) :
    s.imageData off bytes = (s.modRegion (s.targetRegion x.target) fun r => r.write off bytes, .ok) := by
  unfold State.imageData
  rw [hi]
  exact if_neg (by omega)

theorem State.imageCommit_refused {x : Install} (hi : s.boot.install = some x)
    (hv : s.commitVerdict (s.targetRegion x.target) x.len ≠ Status.ok) :
    s.imageCommit = (s, .no (s.commitVerdict (s.targetRegion x.target) x.len)) := by
  unfold State.imageCommit
  rw [hi]
  exact if_pos hv

theorem State.imageCommit_sealed {x : Install} {h : ImgHeader} (hi : s.boot.install = some x)
    (hv : s.commitVerdict (s.targetRegion x.target) x.len = Status.ok)
    (hh : (s.region (s.targetRegion x.target)).header (s.targetRegion x.target) = some h) :
    s.imageCommit =
      (let i := s.targetRegion x.target
       let svn := if isTilth i then 0 else h.svn
       ((((s.tick.modRegion i fun r => { r with page := {
          state := .sealedPage, signer := h.signer, svn := svn, sealedLen := x.len,
          installs := satAdd 0xFFFFFFFF (s.region i).page.installs 1,
          sealVal := s.tick.sealOf i h.signer svn ((s.region i).read 0 x.len), installTime := s.tick.rtc } }).modBoot fun b =>
        { b with install := none, ownerTilth := b.ownerTilth || (isTilth i && decide (4 ≤ h.signer)) }).event .boot 2), .ok)) := by
  unfold State.imageCommit
  rw [hi]
  dsimp only
  rw [if_neg (not_not.2 hv), hh]
  rfl

theorem State.imageActivate_chosen {p : Nat} {raise : Bool} (hp : p ≤ 1) (h : (s.region p).page.state = .sealedPage)
    (hr : raise = true → (s.region 2).page.state = .sealedPage ∧ s.slotSvn p ≤ s.slotSvn 2) :
    s.imageActivate p raise = (s.modBoot fun b => { b with primary := p, svnRaise := b.svnRaise || raise }, .ok) := by
  have hstands : ¬(1 < p ∨ (s.region p).page.state ≠ .sealedPage) := by simp [h, hp]
  have hraise : ¬(raise ∧ ((s.region 2).page.state ≠ .sealedPage ∨ s.slotSvn 2 < s.slotSvn p)) := by
    rintro ⟨hraise, h2 | h2⟩
    · exact h2 (hr hraise).1
    · exact absurd (hr hraise).2 (Nat.not_le.2 h2)
  exact (if_neg hstands).trans (if_neg hraise)

theorem State.revokeArm_live {k : Nat} (hk : k ≤ 7) (hl : s.keyLive k = true) (v : Via) (value : W32) :
    s.revokeArm v k value = s.arm v gdRevoke value revokePair :=
  if_neg (by simp [hl, hk])

end Sys2Proof.Machine
end

section
/-!
O47, the platform guard: SIEVE_SET, PGD_ARM, PLATFORM_CYCLE and the delivery of host images (R386, R390 to R392).
-/
namespace Sys2Proof.Machine

variable {s : State} {v : Via}

theorem State.sieveSet_opcode {c code : Nat} {entry : W32} (hc : c ≤ 1) (hk : code ≤ 255) (he : opEntryOk entry = true) :
    s.sieveSet (.opcode c code entry) =
      (s.modPgd fun g => { g with ops := g.ops.insert (256 * c + code) entry }, .ok) :=
  if_neg (by simp [he, hc, hk])

theorem State.sieveSet_rule {r : Nat} {base len ctl : W32} (hr : r ≤ 255) (hf : (Config.ruleFields ctl.toNat).2.2 = true)
    (h3 : (Config.ruleFields ctl.toNat).2.1.contains 3 = false) : s.sieveSet (.rule r base len ctl) =
      (s.modPgd fun g => { g with rules := g.rules.insert r ⟨base.toNat, len.toNat, ctl.toNat⟩ }, .ok) :=
  if_neg (by rw [hf, h3]; simp [hr])

theorem State.pgdArm_listed {off : Nat} (h : off ∈ [gdHoldRel, gdSieveEn, gdUpdWin]) (v : Via) (value : W32) :
    s.pgdArm v off value = s.arm v off value pgdPair :=
  if_pos (List.contains_iff_mem.2 h)

theorem State.platformCycle_runs (h0 : (s.chan 0).state ≠ .recovering) (h1 : (s.chan 1).state ≠ .recovering) :
    s.platformCycle = (s.assertPlanned.prepareChannels 4, .ok) :=
  if_neg (by simp [h0, h1])

theorem State.platformCycle_recovering (h : (s.chan 0).state = .recovering ∨ (s.chan 1).state = .recovering) :
    s.platformCycle = (s, .no Status.inputInvalid) :=
  if_pos (by simpa using h)

/-- In a session a delivery is open for every channel (R391). -/
theorem State.deliveryOpen_session (h : v.session.isSome = true) (c : Nat) : s.deliveryOpen v c = true := by
  simp [State.deliveryOpen, h]

/-- The bytes of a delivery, in order. -/
def Delivery.image (d : Delivery) : List Byte := (List.range d.len).map fun i => d.bytes.get i 0

/-- The length of the manifest that leads an image (R382). -/
def manifestLength (b : List Byte) : Nat := field b 0x10 4 + field b 0x14 4

/-- A delivery holds a manifest of the channel's format and signer, and the image that it measures. -/
def State.delivered (s : State) (d : Delivery) : Prop :=
  let b := d.image
  let n := manifestLength b
  s.manifestFormat d.channel (b.take n) = true ∧ d.len = n + 4096 * (s.plan d.channel).blocks ∧
  s.manifestOk (b.take n) = true ∧ imageMatches (manifestDigests (b.take n)) (b.drop n) = true

/-- What a verified delivery comes to: a WAITING channel serves the image, a recovery takes it as a source. -/
def State.takeImage (s : State) (d : Delivery) : State × Answer :=
  let m := d.image.take (manifestLength d.image)
  match (s.chan d.channel).state with
  | .waiting => ((s.modChan d.channel fun x => { x with raw := m }).serveImage d.channel d.target
      (manifestDigests m) (d.image.drop (manifestLength d.image)), .ok)
  | .recovering => (s.modChan d.channel fun x => { x with left := x.left ++ [d.target] }, .ok)
  | _ => (s, .ok)

section
variable (hv : v.session.isSome = true)
include hv

theorem State.hostImageBegin_opens {c g len : Nat} (hc : c ≤ 1) (hg : g ≤ 2) (hs : (s.chan c).serving ≠ some g)
    (hb : (s.plan c).blocks ≠ 0) (hl : len ≤ (s.plan c).room g) (hd : s.pgd.delivery = none) :
    s.hostImageBegin v c g len =
      (s.modPgd fun x => { x with delivery := some { channel := c, target := g, len := len } }, .ok) := by
  have hsession : v.session ≠ none := Option.isSome_iff_ne_none.1 hv
  have hvalid : ¬((s.chan c).serving = some g ∨ 2 < g ∨ 1 < c ∨ (s.plan c).blocks = 0 ∨ (s.plan c).room g < len ∨
      s.pgd.delivery.isSome ∨ (g = 2 ∧ v.session = none)) := by
    simp [hs, hg, hc, hb, hl, hd, hsession]
  unfold State.hostImageBegin
  rw [if_neg (by simp [State.deliveryOpen_session hv]), if_neg hvalid]

theorem State.hostImageData_taken {d : Delivery} {off : Nat} {bytes : List Byte} (hd : s.pgd.delivery = some d)
    (h0 : bytes.length ≠ 0) (h1 : bytes.length ≤ 1024) (hl : off + bytes.length ≤ d.len) :
    s.hostImageData v off bytes = ((s.modPgd fun g => { g with delivery := some { d with
      bytes := (bytes.zipIdx off).foldl (fun m x => m.set x.2 x.1 0) d.bytes } }).emit
        (.hostImage d.channel d.target off bytes), .ok) := by
  unfold State.hostImageData
  rw [hd]
  dsimp only
  rw [if_neg (by simp [State.deliveryOpen_session hv]), if_neg (by omega)]

/-- A verified delivery ends, and its image is taken. -/
theorem State.hostImageCommit_verified {d : Delivery} (hd : s.pgd.delivery = some d) (h : s.delivered d) :
    s.hostImageCommit v = (s.modPgd fun g => { g with delivery := none }).takeImage d := by
  obtain ⟨hformat, hlen, hok, hmatch⟩ := h
  have hopen : ¬(!s.deliveryOpen v d.channel) := by simp [State.deliveryOpen_session hv]
  have hf : ¬(!s.manifestFormat d.channel (d.image.take (manifestLength d.image)) ∨
      d.len ≠ manifestLength d.image + 4096 * (s.plan d.channel).blocks) := by simp [hformat, ← hlen]
  have hm : ¬(!s.manifestOk (d.image.take (manifestLength d.image)) ∨
      !imageMatches (manifestDigests (d.image.take (manifestLength d.image))) (d.image.drop (manifestLength d.image))) := by
    simp [hok, hmatch]
  unfold State.hostImageCommit
  rw [hd]
  exact (if_neg hopen).trans ((if_neg hf).trans (if_neg hm))

theorem State.hostImageCommit_waiting {d : Delivery} (hd : s.pgd.delivery = some d) (h : s.delivered d)
    (hw : (s.chan d.channel).state = .waiting) : s.hostImageCommit v =
      (let b := d.image
       let n := manifestLength b
       (((s.modPgd fun g => { g with delivery := none }).modChan d.channel fun x => { x with raw := b.take n }).serveImage
         d.channel d.target (manifestDigests (b.take n)) (b.drop n), .ok)) := by
  have hw' : ((s.modPgd fun g => { g with delivery := none }).chan d.channel).state = .waiting := hw
  simp only [State.hostImageCommit_verified hv hd h, State.takeImage, hw']

theorem State.hostImageCommit_recovering {d : Delivery} (hd : s.pgd.delivery = some d) (h : s.delivered d)
    (hr : (s.chan d.channel).state = .recovering) : s.hostImageCommit v =
      ((s.modPgd fun g => { g with delivery := none }).modChan d.channel fun x => { x with left := x.left ++ [d.target] },
        .ok) := by
  have hr' : ((s.modPgd fun g => { g with delivery := none }).chan d.channel).state = .recovering := hr
  simp only [State.hostImageCommit_verified hv hd h, State.takeImage, hr']
end

end Sys2Proof.Machine
end

section
/-!
O47, life cycle, log and keys: LC_STAGE, TAMPER_ARM, the requests on the horizon log, and KEY_USAGE (R403, R416, R439 to R442).
-/
namespace Sys2Proof.Machine

variable {s : State} {v : Via}

theorem State.lcStage_ok {b : List Byte} (h : s.lcVerdict b = Status.ok) (v : Via) : s.lcStage v b =
    (s.modLife fun l => { l with staged := some b }).arm v gdLcsReq (BitVec.ofNat 32 (field b 0x0C 4)) lcsPair :=
  if_neg (not_not.2 h)

theorem State.tamperArm_listed {k : Nat} (h : k < 16) (v : Via) (value : W32) :
    s.tamperArm v (gdTamper k) value = s.arm v (gdTamper k) value tamperPair :=
  if_pos (List.contains_iff_mem.2 (List.mem_map_of_mem (List.mem_range.2 h)))

theorem State.checkpoint_signed {n : Nat} {e : LogEntry} (he : s.hzn.entries.find? n = some e)
    (hf : s.hzn.belowFloor n = false) (hk : s.vault.aliasKey = true) : s.checkpoint n =
      (let cp := s.checkpointBody n e ++ s.freeBytes aliasSignatureLen
       (s.spend.modHzn fun h => { h with issued := ((n, sha3_256 cp) :: h.issued).take 4 }, .now Status.ok cp)) := by
  simp [State.checkpoint, he, hf, hk]

theorem State.checkpointAck_issued {n : Nat} {digest : List Byte} (hi : s.hzn.issued.contains (n, digest) = true)
    (hf : s.hzn.belowFloor n = false) : s.checkpointAck n digest =
      ((((s.modHzn fun h => { h with floor := some n }).logRoom).logLost.log 0x7003 (leBytes 8 n)), .ok) :=
  if_neg (by rw [hi, hf]; simp)

theorem State.checkpointAck_unknown {n : Nat} {digest : List Byte} (hi : s.hzn.issued.contains (n, digest) = false) :
    s.checkpointAck n digest = (s, .no Status.inputInvalid) :=
  if_pos (.inl (by rw [hi]; rfl))

theorem State.logRead_ring {n m : Nat} (h0 : 1 ≤ m) (h1 : m ≤ 64) (hr : ∀ i, i < m → s.hzn.inRing (n + i) = true) :
    s.logRead n m = (s, .now Status.ok ((List.range m).flatMap fun i =>
      ((s.hzn.entries.find? (n + i)).map fun e => e.bytes (n + i)).getD [])) := by
  have hall : (((List.range m).map fun i => n + i).all s.hzn.inRing) = true := by
    simpa [List.all_eq_true] using hr
  have hentry : ∀ k, (match s.hzn.entries.find? k with | some e => e.bytes k | none => []) =
      ((s.hzn.entries.find? k).map fun e => e.bytes k).getD [] := fun k => by
    cases s.hzn.entries.find? k <;> rfl
  unfold State.logRead
  dsimp only
  rw [if_neg (by rw [hall]; simp; omega), List.flatMap_map]
  exact congrArg (fun x => (s, Answer.now Status.ok x)) (List.flatMap_congr fun i _ => hentry (n + i))

theorem State.keyUsage_reported {n m : Nat} (h0 : 1 ≤ m) (h1 : m ≤ 256) (hn : n + m ≤ 4096) (hk : s.vault.aliasKey = true) :
    s.keyUsage n m = (s.spend.spend.log 0x2003 (leBytes 2 5 ++ s.spend.freeBytes 14),
      .now Status.ok (ascii "IXKU" ++ Config.usageReport ((List.range m).map fun i => s.usageLine (n + i)) ++
        s.freeBytes aliasSignatureLen)) :=
  (if_neg (by omega)).trans (if_neg (by simp [hk]))

end Sys2Proof.Machine
end

section
/-!
O47, the Uncel chain and ceremonies: UNC_MKEY, UNC_EPOCH, CEREMONY_APPROVE and UNC_REENUMERATE (R454, R456, R457, R459).
-/
namespace Sys2Proof.Machine

variable {s : State} {v : Via}

theorem State.uncMkeyNew_leads {a : Nat} (hd : s.domainSlots = true) (ha : s.uncel.addr = some a) : s.uncMkeyNew =
    (let x := s.takeSeed
     let y := x.1.takeSeed
     ((y.1.newGeneration (s.heldGen + 1) (x.2 ++ y.2)).originate dstDomain 0x30
       (leBytes 4 (s.heldGen + 1) ++ leBytes 2 a), .ok)) := by
  unfold State.uncMkeyNew
  rw [if_neg (by simp [hd]), ha]

theorem State.uncMkeyJoin_reachable {l : Nat} (hd : s.domainSlots = true) (ha : s.uncel.addr.isSome = true) :
    s.uncMkeyJoin l true =
      (s.spend.startJoin l (s.heldGen + 1 + Config.freeNat s.free 0 % (2 ^ 32 - 1 - s.heldGen)), .ok) := by
  have haddr : s.uncel.addr ≠ none := Option.isSome_iff_ne_none.1 ha
  exact (if_neg (by simp [hd])).trans (if_neg (by simp [haddr]))

theorem State.uncMkeyJoin_noSlots {l : Nat} {r : Bool} (hd : s.domainSlots = false) :
    s.uncMkeyJoin l r = (s, .no Status.keyAbsent) :=
  if_pos (by simp [hd])

/-- With room in the log, privilege 0 does the operation itself (R38). -/
theorem State.loamPair_room {off : Nat} {value : W32} {apply : Nat → W32 → State → State × GuardResult}
    (h : s.glb.logFull = false) : s.loamPair off value apply =
      ((apply off value s).1.logPair off (apply off value s).2.code 0xFF, (apply off value s).2) := by
  simp [State.loamPair, h]

theorem State.uncEpoch_raised {n : Nat} (he : s.glb.epoch < n) (hn : n < 2 ^ 32) (hf : s.glb.logFull = false) :
    s.uncEpoch n = ((((s.raiseEpoch n).1.logPair gdEpoch GuardResult.applied.code 0xFF).modUncel fun u =>
      { u with epTarget := n, epDone := 0, epRefused := 0 }).originateAuth dstDomain 0x20 (leBytes 4 n), .ok) := by
  have hres : (s.raiseEpoch n).2 = .applied := by rw [State.raiseEpoch_raised (by omega) he]
  have hpair : epochPair gdEpoch (BitVec.ofNat 32 n) s = s.raiseEpoch n := by
    rw [epochPair, BitVec.toNat_ofNat, Nat.mod_eq_of_lt hn]
  unfold State.uncEpoch
  rw [State.loamPair_room hf, hpair, hres]
  exact if_neg (not_not.2 rfl)

theorem State.approve_forwarded {i g o : Nat} {sig : List Byte} (hg : g ≠ s.ownAddr) (v : Via) :
    s.approve v i g o sig = (s.emit (.approval g i o sig), .ok) :=
  if_pos hg

section
variable {i g o : Nat} {sig key : List Byte} {x : Ceremony} (hg : g = s.ownAddr) (hx : s.uncel.ceremony = some x)
  (hi : x.id = i) (ho : s.tilth.uncel.officers[o]? = some key)
include hg hx hi ho

theorem State.approve_unverified (hs : mlOk key (s.officerMessage x) sig = false) :
    s.approve v i g o sig = (s, .no Status.verifyFail) := by
  simp only [State.approve, hg, hx, ho, hi, hs, ne_eq, not_true_eq_false, if_false, Bool.not_false, if_true]

/-- An officer who has not approved yet is counted; enough of them complete the ceremony. -/
theorem State.approve_counts (hs : mlOk key (s.officerMessage x) sig = true) (hnew : o ∉ x.officers) :
    s.approve v i g o sig =
      if s.tilth.uncel.approvals ≤ x.officers.length + 1 then
        (s.completeCeremony v { x with officers := x.officers ++ [o] }, .ok)
      else (s.modUncel fun u => { u with ceremony := some { x with officers := x.officers ++ [o] } }, .ok) := by
  have hlen : (x.officers ++ [o]).length = x.officers.length + 1 := by simp
  have hc : (if x.officers.contains o then x else { x with officers := x.officers ++ [o] }) =
      { x with officers := x.officers ++ [o] } := if_neg (by simpa using hnew)
  unfold State.approve
  rw [if_neg (not_not.2 hg), hx]
  dsimp only
  rw [ho]
  dsimp only
  rw [if_neg (not_not.2 hi), if_neg (by simp [hs]), hc, hlen]
end

theorem State.uncReenumerate_bridge (h : s.bridge = true) : s.uncReenumerate = (s.enumerateChild, .ok) :=
  if_neg (by simp [h])

theorem State.uncReenumerate_device (h : s.bridge = false) : s.uncReenumerate = (s, .no Status.inputInvalid) :=
  if_pos (by simp [h])

end Sys2Proof.Machine
end

section
/-!
O47: a register is armed for the PF that asked, or its pair is formed at once (R36, R38, R403); and the statement.
-/
namespace Sys2Proof.Machine

variable {s : State} {v : Via} {off : Nat} {value : W32} {apply : Nat → W32 → State → State × GuardResult}

theorem State.globalArm_listed (h : off ∈ [gdEpoch, gdReset, gdSrcSel]) (v : Via) (value : W32) :
    s.globalArm v off value = s.arm v off value globalPair :=
  if_pos (List.contains_iff_mem.2 h)

theorem State.arm_pf {p : Nat} (hv : viaPf v = some p) (h : (s.pf p).arm ≠ some ⟨gdLcsReq⟩ ∨ off = gdLcsReq) :
    s.arm v off value apply = (s.modPf p fun x => { x with arm := some ⟨off⟩ }, .ok) := by
  have hkeep : ¬((s.pf p).arm = some ⟨gdLcsReq⟩ ∧ off ≠ gdLcsReq) := by
    rintro ⟨harm, hoff⟩
    exact h.elim (· harm) hoff
  simp only [State.arm, hv, State.armFor, if_neg hkeep]

/-- Arming another register ends an arming of LCS_REQ, and its staged request with it. -/
theorem State.arm_pf_lapses {p : Nat} (hv : viaPf v = some p) (h : (s.pf p).arm = some ⟨gdLcsReq⟩) (ho : off ≠ gdLcsReq) :
    s.arm v off value apply =
      ({ s with life := { s.life with staged := none } }.modPf p fun x => { x with arm := some ⟨off⟩ }, .ok) := by
  simp only [State.arm, hv, State.armFor, if_pos (And.intro h ho)]

theorem State.arm_loam (hv : viaPf v = none) (hf : s.glb.logFull = false) : s.arm v off value apply =
    (((apply off value s).1.logPair off (apply off value s).2.code 0xFF), .no (apply off value s).2.status) := by
  simp only [State.arm, hv, State.loamPair_room hf]

end Sys2Proof.Machine

namespace Sys2Proof.Claims
open Sys2Proof.Machine

/-- Settles O47: each request is `Requested.of_effect` at the law of its operation, whose branch the premises choose. -/
theorem managerRequests : Obligations.ManagerRequests := by
  intro s v
  exact ⟨fun n f => .of_effect rfl fun t _ ⟨h, hb, ho⟩ => State.tenantSet_free h hb ho,
    fun n f => .of_effect rfl fun t _ h => State.tenantSet_busy h,
    fun n f => .of_effect rfl fun t _ ⟨h, hb, ho⟩ => State.tenantSet_bad h hb ho,
    fun n => .of_effect rfl fun t _ h => State.quiesce_active h v,
    fun n => .of_effect rfl fun t _ h => State.quiesce_quiesced h v,
    fun n => .of_effect rfl fun t _ h => State.resume_quiesced h,
    fun n => .of_effect rfl fun t _ h => if_pos h,
    fun n value => .of_effect rfl fun t _ ⟨h, hg⟩ => State.removeArm_quiesced h hg v value,
    fun n a len key => .of_effect rfl fun t _ ⟨h, he, hk, hl⟩ => State.migrateExport_fits h he hk hl,
    fun n blob x => .of_effect rfl fun t _ ⟨h, hr, he, hf⟩ => State.migrateImport_fits h hr he hf,
    fun n blob => .of_effect rfl fun t _ ⟨h, hr⟩ => State.migrateImport_unreadable h hr,
    fun k o => .of_effect rfl fun t _ ⟨hk, ho, hu⟩ => State.slotAssign_system hk ho hu,
    fun k o => .of_effect rfl fun t _ ⟨hk, ho, hu, hq⟩ => State.slotAssign_tenant hk ho hu hq,
    fun k b => .of_effect rfl fun t _ ⟨hu, hb, hs⟩ => State.budgetLower_now hu hb hs v,
    fun k b => .of_effect rfl fun t _ ⟨hu, hb, hs, hl⟩ => State.budgetLower_later hu hb hs hl v,
    fun k value => .of_effect rfl fun t _ h => State.destroyArm_assigned h v value,
    fun g len => .of_effect rfl fun t _ ⟨hg, hrun, hlen, hi, hs⟩ => State.imageBegin_opens hg hrun hlen hi hs,
    fun x off bytes => .of_effect rfl fun t _ ⟨hi, h0, h1, hl⟩ => State.imageData_written hi h0 h1 hl,
    fun x => .of_effect rfl fun t _ ⟨hi, hv⟩ => State.imageCommit_refused hi hv,
    fun x h => .of_effect rfl fun t _ ⟨hi, hv, hh⟩ => State.imageCommit_sealed hi hv hh,
    fun p r => .of_effect rfl fun t _ ⟨hp, h, hr⟩ => State.imageActivate_chosen hp h hr,
    fun k value => .of_effect rfl fun t _ ⟨hk, hl⟩ => State.revokeArm_live hk hl v value,
    fun c code entry => .of_effect rfl fun t _ ⟨hc, hk, he⟩ => State.sieveSet_opcode hc hk he,
    fun r base len ctl => .of_effect rfl fun t _ ⟨hr, hf, h3⟩ => State.sieveSet_rule hr hf h3,
    fun off value => .of_effect rfl fun t _ h => State.pgdArm_listed h v value,
    .of_effect rfl fun t _ ⟨h0, h1⟩ => State.platformCycle_runs h0 h1,
    .of_effect rfl fun t _ h => State.platformCycle_recovering h,
    fun c g len => .of_effect rfl fun t hses ⟨hc, hg, hs, hb, hl, hd⟩ => State.hostImageBegin_opens hses hc hg hs hb hl hd,
    fun d off bytes => .of_effect rfl fun t hses ⟨hd, h0, h1, hl⟩ => State.hostImageData_taken hses hd h0 h1 hl,
    fun d => .of_effect rfl fun t hses ⟨hd, h, hw⟩ => State.hostImageCommit_waiting hses hd h hw,
    fun d => .of_effect rfl fun t hses ⟨hd, h, hr⟩ => State.hostImageCommit_recovering hses hd h hr,
    fun b => .of_effect rfl fun t _ h => State.lcStage_ok h v,
    fun b => .of_effect rfl fun t _ h => if_pos h,
    fun k value => .of_effect rfl fun t _ h => State.tamperArm_listed h v value,
    fun n e => .of_effect rfl fun t _ ⟨he, hf, hk⟩ => State.checkpoint_signed he hf hk,
    fun n digest => .of_effect rfl fun t _ ⟨hi, hf⟩ => State.checkpointAck_issued hi hf,
    fun n digest => .of_effect rfl fun t _ hi => State.checkpointAck_unknown hi,
    fun o => .of_effect rfl fun t _ _ => rfl,
    fun n m => .of_effect rfl fun t _ ⟨h0, h1, hr⟩ => State.logRead_ring h0 h1 hr,
    fun n m => .of_effect rfl fun t _ ⟨h0, h1, hn, hk⟩ => State.keyUsage_reported h0 h1 hn hk,
    fun a => .of_effect rfl fun t _ ⟨hd, ha⟩ => State.uncMkeyNew_leads hd ha,
    fun l => .of_effect rfl fun t _ ⟨hd, ha⟩ => State.uncMkeyJoin_reachable hd ha,
    fun l r => .of_effect rfl fun t _ hd => State.uncMkeyJoin_noSlots hd,
    fun n => .of_effect rfl fun t _ ⟨he, hn, hf⟩ => State.uncEpoch_raised he hn hf,
    fun i g o sig => .of_effect rfl fun t _ hg => State.approve_forwarded hg v,
    fun i g o sig x key => .of_effect rfl fun t _ ⟨hg, hx, hi, ho, hs⟩ => State.approve_unverified hg hx hi ho hs,
    fun i g o sig x key => .of_effect rfl fun t _ ⟨hg, hx, hi, ho, hs, hnew, hmore⟩ =>
      (State.approve_counts hg hx hi ho hs hnew).trans (if_neg (Nat.not_le.2 hmore)),
    fun i g o sig x key => .of_effect rfl fun t _ ⟨hg, hx, hi, ho, hs, hnew, hdone⟩ =>
      (State.approve_counts hg hx hi ho hs hnew).trans (if_pos hdone),
    .of_effect rfl fun t _ h => State.uncReenumerate_bridge h,
    .of_effect rfl fun t _ h => State.uncReenumerate_device h,
    fun off value => .of_effect rfl fun t _ h => State.globalArm_listed h v value,
    fun t p off value apply hv h => State.arm_pf hv h,
    fun t p off value apply hv h ho => State.arm_pf_lapses hv h ho,
    fun t off value apply hv hf => State.arm_loam hv hf⟩

end Sys2Proof.Claims
end

section
/-!
O21: a job that completes leaves the device and no grain changes by it (R65, R66); the end of an execute stage (R97, R108, R109).
-/
namespace Sys2Proof.Machine

/-- A grain reads as its table does. -/
theorem State.grain_congr {s t : State} (h : t.grains = s.grains) (g : Nat) : t.grain g = s.grain g :=
  congrArg (fun m : Map Grain => Map.get m g {}) h

/-- A job reads as its table does. -/
theorem State.job_congr {s t : State} (h : t.jobs = s.jobs) (j : Nat) : t.job j = s.job j :=
  congrArg (Map.find? · j) h

/-! A completion. -/

@[simp] theorem State.dmaWrite_grains (s : State) (p f a : Nat) (d : List Byte) (r : Bool) :
    (s.dmaWrite p f a d r).grains = s.grains := by
  unfold State.dmaWrite
  dsimp only
  split
  · rfl
  · split <;> rfl

@[simp] theorem State.countCompletion_grains (s : State) (q : Nat) (o : PairOwner) (irq : Bool) :
    (s.countCompletion q o irq).grains = s.grains := by
  unfold State.countCompletion
  dsimp only
  split
  · rfl
  · split <;> simp

@[simp] theorem State.writeCompletion_grains (s : State) (o : PairOwner) (job : Job) (e st n : Nat) :
    (s.writeCompletion o job e st n).grains = s.grains := by
  simp [State.writeCompletion]

/-- A job that completes leaves the table of jobs, and the grains stay as they are. -/
theorem State.complete_leaves {s : State} {j : Nat} {job : Job} (hj : s.job j = some job) (status : Nat) :
    (s.complete j status true).jobs = s.jobs.erase j ∧ (s.complete j status true).grains = s.grains := by
  obtain ⟨f, hf⟩ := s.released_eq job status
  unfold State.complete
  rw [hj]
  dsimp only
  rw [hf]
  split
  · exact ⟨rfl, rfl⟩
  · simp [State.countJob]

/-! What comes before it: engines, events, and zeros over what was pushed. -/

/-- The jobs in flight and the grains. -/
def State.work (s : State) : Map Job × Map Grain := (s.jobs, s.grains)

theorem State.grainEvent_work (s : State) (g m : Nat) : (s.grainEvent g m).work = s.work := by
  unfold State.grainEvent State.work
  split <;> simp

theorem State.dropEngines_work (s : State) (j : Nat) : (s.dropEngines j).work = s.work := by
  unfold State.dropEngines
  dsimp only
  refine (foldl_keeps _ State.work _ (fun t n => ?_) _).trans rfl
  unfold State.work
  split
  · split <;> simp
  · rfl

theorem State.endEvents_work (s : State) (g : Nat) (job : Job) (status detail : Nat) :
    (s.endEvents g job status detail).work = s.work := by
  have hlog : ∀ (t : State) a b c, (t.logKeyEvent a b c).work = t.work := fun t a b c => by simp [State.work]
  unfold State.endEvents
  split
  · exact s.grainEvent_work g 2
  · split
    · rw [hlog, s.grainEvent_work]
    · split
      · exact s.grainEvent_work g 8
      · rfl

theorem State.zeroPushed_work (s : State) (job : Job) : (s.zeroPushed job).work = s.work := by
  unfold State.zeroPushed
  split
  · rfl
  · exact foldl_keeps _ State.work _ (fun t e => by simp [State.work]) _

/-! The end of the execute stage. -/

/-- What a job reports once its execute stage has ended. -/
def Job.ended (job : Job) (status out detail cycle : Nat) : Job :=
  { job with status := status, outWritten := out, detail := detail % 2 ^ 32, cycles := min 0xFFFFFFFF cycle }

/-- The job has its report, and its engines are dropped. -/
def State.executed (s : State) (j g status out detail : Nat) : State :=
  (s.modJob j fun x => x.ended status out detail (s.grain g).regs.cycle).dropEngines j

theorem State.executed_grain (s : State) (j g status out detail i : Nat) :
    (s.executed j g status out detail).grain i = s.grain i :=
  (State.grain_congr (congrArg Prod.snd (State.dropEngines_work _ j)) i).trans (s.modJob_grain j _ i)

/-- The grain scrubs and has no job. -/
def Grain.freed (x : Grain) : Grain := { x with state := .scrub, job := none, rngWait := false }

section
variable {s : State} {j : Nat} {job : Job} (hj : s.job j = some job) (g out detail : Nat)
include hj

theorem State.endExecution_ok_eq : s.endExecution j g Status.ok out detail =
    (s.executed j g Status.ok out detail).modJob j fun x => { x with stage := .output } := by
  unfold State.endExecution
  rw [hj]
  rfl

theorem State.endExecution_failed_eq {status : Nat} (hok : status ≠ Status.ok) : s.endExecution j g status out detail =
    ((((s.executed j g status out detail).endEvents g job status detail).zeroPushed job).modGrain g Grain.freed).complete
      j status true := by
  unfold State.endExecution
  rw [hj]
  exact if_neg hok

theorem State.executed_job (status : Nat) : (s.executed j g status out detail).job j =
    some (job.ended status out detail (s.grain g).regs.cycle) :=
  (State.job_congr (congrArg Prod.fst (State.dropEngines_work _ j)) j).trans (State.job_modJob hj)

/-- A job that ends OK stands in its output stage with its report, and its grain is as it was (R97). -/
theorem State.endExecution_ok :
    (s.endExecution j g Status.ok out detail).job j =
      some { job.ended Status.ok out detail (s.grain g).regs.cycle with stage := .output } ∧
    (s.endExecution j g Status.ok out detail).grain g = s.grain g := by
  rw [State.endExecution_ok_eq hj, State.modJob_grain, State.executed_grain]
  exact ⟨State.job_modJob (State.executed_job hj g out detail Status.ok), rfl⟩

/-- A job that ends otherwise has left, and its grain scrubs without a job (R66, R108). -/
theorem State.endExecution_failed (h : s.Sound) {status : Nat} (hok : status ≠ Status.ok) :
    (s.endExecution j g status out detail).job j = none ∧
    (s.endExecution j g status out detail).grain g = (s.grain g).freed := by
  rw [State.endExecution_failed_eq hj g out detail hok]
  have hx : (s.executed j g status out detail).Sound := sound_dropEngines (sound_modJob h)
  have hxjob := State.executed_job hj g out detail status
  have hxgrain := s.executed_grain j g status out detail g
  generalize s.executed j g status out detail = x at hx hxjob hxgrain ⊢
  have hu : ((x.endEvents g job status detail).zeroPushed job).Sound := sound_zeroPushed (sound_endEvents hx)
  have hwork : ((x.endEvents g job status detail).zeroPushed job).work = x.work :=
    (State.zeroPushed_work _ job).trans (State.endEvents_work _ g job status detail)
  generalize (x.endEvents g job status detail).zeroPushed job = u at hu hwork ⊢
  have hjob : (u.modGrain g Grain.freed).job j = _ := (State.job_congr (congrArg Prod.fst hwork) j).trans hxjob
  obtain ⟨hleft, hkept⟩ := State.complete_leaves hjob status
  constructor
  · rw [State.job, hleft]
    exact Map.find?_erase_self hu.jobs j
  · rw [State.grain_congr hkept, State.grain_modGrain hu, State.grain_congr (congrArg Prod.snd hwork), hxgrain]
end

end Sys2Proof.Machine

namespace Sys2Proof.Claims
open Sys2Proof.Machine

/-- Settles O21, by the two ends of `State.endExecution`: OK changes the job alone, and any other status frees the grain
before the job completes. -/
theorem jobEnds : Obligations.JobEnds := by
  intro s j g status out detail job hs hj
  refine ⟨?_, fun hok => ?_⟩
  · rintro rfl
    exact State.endExecution_ok hj g out detail
  · obtain ⟨hleft, hgrain⟩ := State.endExecution_failed hj g out detail hs hok
    rw [hgrain]
    exact ⟨hleft, rfl, rfl⟩

end Sys2Proof.Claims
end

section
/-!
O38: queue pairs are enabled, disabled, drained and stopped, and take their doorbells (R48 to R52, R82).
-/
namespace Sys2Proof.Machine

/-! EN of QUE_CTL (R49, R50). -/

section
variable {s : State} {p q : Nat} {ctl : W32} (hl : s.pfLive p = true) (hh : s.heldPair (.pf p) = none)
  (hw : s.pairWritable p q = true)
include hl hh hw

/-- EN written from 0 to 1 enables the pair, or leaves QUEUE_CONFIG in ERROR. -/
theorem execQueueEnable_rising (he : (s.queue q).en = false) (hb : bit ctl.toNat 0 = true) :
    execQueueEnable p q ctl s = .next (
      if (s.queue q).enableOk = true then (s.modQueue q fun y => y.setCtl ctl.toNat).modQueue q Queue.start
      else (s.modQueue q fun y => y.setCtl ctl.toNat).modQueue q fun y => { y with error := Status.queueConfig }) := by
  simp [execQueueEnable, hl, State.noteWrite_none hh, hw, he, hb]

/-- EN written from 1 to 0 stops the pair and aborts its jobs. -/
theorem execQueueDisable_falling (he : (s.queue q).en = true) (hb : bit ctl.toNat 0 = false) :
    execQueueDisable p q ctl s = .next ((s.pairJobs q).foldl (fun s j => s.abortJob j Status.aborted)
      (s.modQueue q fun y => { y.setCtl ctl.toNat with en := false, state := .stopping })) := by
  simp only [execQueueDisable, hl, State.noteWrite_none hh, hw, he, hb, Bool.not_true, Bool.false_eq_true, or_self, if_false]
  rfl
end

theorem State.drainQueue_empty {s : State} {q : Nat} (hs : (s.queue q).state = .stopping)
    (hn : (s.queue q).inflight = 0) : s.drainQueue q = s.modQueue q fun y => { y with state := .disabled } :=
  if_pos ⟨hs, hn⟩

/-- A pair with jobs in flight is not drained. -/
theorem State.drainQueue_busy {s : State} {q : Nat} (hn : (s.queue q).inflight ≠ 0) : s.drainQueue q = s :=
  if_neg fun ⟨_, hzero⟩ => hn hzero

/-! Doorbells (R51, R52, R82). -/

section
variable {s : State} {p f k q : Nat} (hl : s.live (doorbellWriter p f) = true)
  (hh : s.heldPair (doorbellWriter p f) = none) (hq : s.pairOf p f k = some q)
include hl hh hq

/-- A pair that neither is ENABLED nor has its tenant quiesced ignores a doorbell. -/
theorem State.doorbell_ignored (he : (s.queue q).state ≠ .enabled) (hz : (s.queue q).state ≠ .quiesced)
    (act : Nat → State → State) : s.doorbell p f k act = s := by
  simp [State.doorbell, hl, State.noteWrite_none hh, hq, he, hz]

variable (hs : (s.queue q).state = .enabled ∨ (s.queue q).state = .quiesced)
include hs

theorem State.doorbell_taken (act : Nat → State → State) : s.doorbell p f k act = act q s := by
  simp [State.doorbell, hl, State.noteWrite_none hh, hq, hs]

variable {value : W32}

theorem execSqTailDoorbell_accepted : execSqTailDoorbell p f k value true s = .next (
    if 2 ^ (s.queue q).sqLog2 ≤ bits value.toNat 15 0 then s.stopPair q Status.doorbellRange
    else s.modQueue q fun x => { x with sqTail := bits value.toNat 15 0 }) :=
  congrArg _ (State.doorbell_taken hl hh hq hs _)

theorem execSqTailDoorbell_refused :
    execSqTailDoorbell p f k value false s = .next (s.stopPair q Status.dmaError) :=
  congrArg _ (State.doorbell_taken hl hh hq hs _)

theorem execCqHeadDoorbell_accepted : execCqHeadDoorbell p f k value true s = .next (
    if 2 ^ (s.queue q).cqLog2 ≤ bits value.toNat 15 0 ∨
      ((s.queue q).cqTail + 2 ^ (s.queue q).cqLog2 - (s.queue q).cqHead) % 2 ^ (s.queue q).cqLog2 <
        (bits value.toNat 15 0 + 2 ^ (s.queue q).cqLog2 - (s.queue q).cqHead) % 2 ^ (s.queue q).cqLog2
    then s.stopPair q Status.doorbellRange
    else s.modQueue q fun x => { x with cqHead := bits value.toNat 15 0 }) :=
  congrArg _ (State.doorbell_taken hl hh hq hs _)

theorem execCqHeadDoorbell_refused :
    execCqHeadDoorbell p f k value false s = .next (s.stopPair q Status.dmaError) :=
  congrArg _ (State.doorbell_taken hl hh hq hs _)
end

/-- A stopped pair shows why; the event that follows changes no pair. -/
theorem State.stopPair_queue (s : State) (q code : Nat) :
    (s.stopPair q code).queue q = { s.queue q with state := .stopped, error := code } := by
  have hstop : (s.modQueue q fun x => { x with state := .stopped, error := code }).queue q = _ :=
    Map.get_set_of_ne_default fun h => nomatch congrArg Queue.state h
  refine Eq.trans ?_ hstop
  unfold State.stopPair
  refine congrArg (fun m : Map Queue => Map.get m q {}) ?_
  dsimp only
  split
  · split <;> simp
  · rfl

end Sys2Proof.Machine

namespace Sys2Proof.Claims
open Sys2Proof.Machine

/-- Settles O38: each write comes to one decision on its pair (`execQueueEnable_rising`, `State.drainQueue`,
`State.doorbell_taken`), and the clause says on which side of it the pair stands. -/
theorem queuePairs : Obligations.QueuePairs := by
  intro s
  exact ⟨fun p q ctl hl hh hw he hb hok =>
      (execQueueEnable_rising hl hh hw he hb).trans (congrArg _ (if_pos hok)),
    fun p q ctl hl hh hw he hb hok =>
      (execQueueEnable_rising hl hh hw he hb).trans (congrArg _ (if_neg (ne_true_of_eq_false hok))),
    fun p q ctl => execQueueDisable_falling,
    fun q hs hn => congrArg _ (State.drainQueue_empty hs hn),
    fun q _ hn => congrArg _ (State.drainQueue_busy hn),
    fun p f k q value hl hh hq hs ht =>
      (execSqTailDoorbell_accepted hl hh hq hs).trans (congrArg _ (if_neg (Nat.not_le.2 ht))),
    fun p f k q value hl hh hq hs ht =>
      (execSqTailDoorbell_accepted hl hh hq hs).trans (congrArg _ (if_pos ht)),
    fun p f k q value hl hh hq hs hsize htail =>
      (execCqHeadDoorbell_accepted hl hh hq hs).trans
        (congrArg _ (if_neg (not_or.2 ⟨Nat.not_le.2 hsize, Nat.not_lt.2 htail⟩))),
    fun p f k q value hl hh hq hs hout =>
      (execCqHeadDoorbell_accepted hl hh hq hs).trans (congrArg _ (if_pos (hout.imp_right Nat.not_le.1))),
    fun p f k q value hl hh hq hs => execSqTailDoorbell_refused hl hh hq hs,
    fun p f k q value accepted hl hh hq he hz => congrArg _ (State.doorbell_ignored hl hh hq he hz _),
    fun p f k q value hl hh hq hs => execCqHeadDoorbell_refused hl hh hq hs,
    fun p f k q value accepted hl hh hq he hz => congrArg _ (State.doorbell_ignored hl hh hq he hz _),
    fun q code => by
      rw [State.stopPair_queue]
      exact ⟨rfl, rfl⟩⟩

end Sys2Proof.Claims
end

section
/-!
What a request for a seed leaves alone: the vault, and every job that waits for no seed of its own (R288, R289).
-/
namespace Sys2Proof.Machine

/-! The arbiter. -/

theorem firstRequest_mem {w : List SeedReq} {r : SeedReq} (h : firstRequest w = some r) : r ∈ w := by
  unfold firstRequest at h
  split at h
  next x hx => cases h; exact List.mem_of_find?_eq_some hx
  next =>
    split at h
    next x hx => cases h; exact List.mem_of_find?_eq_some hx
    next => exact List.mem_of_mem_head? h

theorem State.job_modJob_ne (s : State) {i j : Nat} (h : i ≠ j) (f : Job → Job) : (s.modJob i f).job j = s.job j := by
  unfold State.modJob
  split
  · exact Map.find?_insert_ne _ h.symm
  · rfl

@[simp] theorem State.modJob_rng (s : State) (j : Nat) (f : Job → Job) : (s.modJob j f).rng = s.rng := by
  obtain ⟨js, h⟩ := s.modJob_eq j f
  rw [h]

/-- An output cut to the size of its buffer fits, so its job goes to the output stage. -/
theorem State.endDirect_fits {s : State} {j : Nat} {job : Job} (hj : s.job j = some job) (out : List Byte) :
    s.endDirect j Status.ok (out.take job.desc.outLen) = s.modJob j fun x =>
      { x with stage := .output, out := out.take job.desc.outLen, outWritten := (out.take job.desc.outLen).length
               rngWait := false } := by
  unfold State.endDirect
  rw [hj]
  simp

/-- `t` has the vault and the job `j` of `s`, and no seed of the job's own is asked for. -/
structure State.Spares (s t : State) (j : Nat) : Prop where
  job : t.job j = s.job j
  vault : t.vault = s.vault
  entropy : SeedReq.entropy j ∉ t.rng.waiting

theorem State.Spares.trans {s t u : State} {j : Nat} (h : s.Spares t j) (k : t.Spares u j) : s.Spares u j :=
  ⟨k.job.trans h.job, k.vault.trans h.vault, k.entropy⟩

section
variable {s : State} {j : Nat} (he : SeedReq.entropy j ∉ s.rng.waiting)
include he

theorem State.spares_refl : s.Spares s j := ⟨rfl, rfl, he⟩

theorem State.spares_gather {i : Nat} (h : i ≠ j) (seed : List Byte) : s.Spares (s.gather i seed) j := by
  unfold State.gather
  cases hi : s.job i with
  | none => exact State.spares_refl he
  | some job =>
    dsimp only
    split
    · rw [State.endDirect_fits hi]
      exact ⟨State.job_modJob_ne s h _, by simp, by simpa using he⟩
    · refine ⟨State.job_modJob_ne s h _, by simp [State.modRng], ?_⟩
      simpa [State.modRng] using ⟨he, h.symm⟩

theorem State.spares_deliverSeeds {r : SeedReq} (h : r ≠ .entropy j) (seeds : List (List Byte)) :
    s.Spares (s.deliverSeeds r seeds) j := by
  cases r with
  | entropy i => exact State.spares_gather he (fun e => h (congrArg _ e)) _
  | grain | keyPort | drbg | predict => exact ⟨rfl, rfl, he⟩

end

theorem State.spares_arbitrate {s : State} {j : Nat} (he : SeedReq.entropy j ∉ s.rng.waiting) (n : Nat) :
    s.Spares (State.arbitrate n s) j := by
  induction n generalizing s with
  | zero => exact State.spares_refl he
  | succ n ih =>
    unfold State.arbitrate
    split
    next => exact State.spares_refl he
    next r hr =>
      dsimp only
      split
      · exact State.spares_refl he
      · have hmem : r ∈ s.rng.waiting := (List.mem_filter.1 (firstRequest_mem hr)).1
        have hrj : r ≠ .entropy j := fun e => he (e ▸ hmem)
        set t := s.modRng fun x => { x with queue := x.queue.drop r.seeds, waiting := x.waiting.erase r }
        have hst : s.Spares t j := ⟨rfl, rfl, fun hm => he (List.mem_of_mem_erase hm)⟩
        have hdeliver := State.spares_deliverSeeds hst.entropy hrj (s.rng.queue.take r.seeds)
        exact (hst.trans hdeliver).trans (ih hdeliver.entropy)

/-- The early request of a grain's expander spares every job that waits for no seed of its own (R102). -/
theorem State.spares_askForGrain {s : State} {j : Nat} (he : SeedReq.entropy j ∉ s.rng.waiting) (g : Nat) :
    s.Spares (s.askForGrain g) j := by
  unfold State.askForGrain State.requestSeed State.serve
  dsimp only
  split
  · split
    · exact State.spares_refl he
    · set t := s.modRng fun x => { x with waiting := x.waiting ++ [.grain g] }
      have hst : s.Spares t j := ⟨rfl, rfl, by simpa [t, State.modRng] using he⟩
      exact hst.trans (State.spares_arbitrate hst.entropy _)
  · exact State.spares_refl he

/-! An expander that is fresh, or has a seed in hand, has the words of a program (R102, R103). -/

theorem Expander.draw_some {e : Expander} (h : e.delivered = 0 ∨ e.seedHeld = true) {n : Nat} (hn : n < expanderSpan) :
    ∃ x, e.draw n = some x := by
  unfold Expander.draw
  by_cases hspan : expanderSpan ≤ e.delivered + n
  · have hheld : e.seedHeld = true := h.resolve_left fun h0 => by omega
    exact ⟨_, if_pos ⟨hspan, hheld⟩⟩
  · exact ⟨_, (if_neg fun hc => hspan hc.1).trans (if_pos (by omega))⟩

theorem Grain.draw_ok {G : Grain} (h : G.expander.delivered = 0 ∨ G.expander.seedHeld = true) (n : Nat) :
    ∃ x, G.draw (n % expanderSpan) = .ok { G with expander := x } := by
  obtain ⟨x, hx⟩ := Expander.draw_some h (Nat.mod_lt n (by decide : 0 < expanderSpan))
  exact ⟨x, by rw [Grain.draw, hx]⟩

end Sys2Proof.Machine
end

section
/-!
The end of a vendor program: the key of a claimed slot is written, the job ends OK or it leaves the device (R97, R199, R318).
-/
namespace Sys2Proof.Machine

/-! A key is written into a claimed slot. -/

/-- ATTR of a slot that takes the key material `m` (R199). -/
def Slot.attrWith (x : Slot) (m : KeyMat) : Nat :=
  let attr := x.attr &&& (2 ^ 64 - 1 - attrUseMask) ||| (m.attr &&& attrUseMask) ||| (m.attr &&& 2 ^ 45)
  if m.attr &&& 2 ^ 41 = 0 then attr &&& (2 ^ 64 - 1 - 2 ^ 41) else attr

/-- The slot with the key material `m`. -/
def Slot.keyed (x : Slot) (m : KeyMat) (st : Option Stateful) (seq : Nat) : Slot :=
  { x with
    state := .loaded, secret := m.secret, cache := m.cache, pub := m.pub, attr := x.attrWith m, stateful := st, uses := 0
    createSeq := seq }

section
variable {s : State} {k : Nat} (m : KeyMat) (st : Option Stateful) (path j : Nat)

/-- A shelf with the room of the record takes the key: the slot holds it, and the job has no claim left (R199, R318). -/
theorem State.writeKey_fits {job : Job} (hj : s.job j = some job)
    (hfit : roundUp (144 + m.cache.length + m.pub.length) 64 ≤ s.vault.shelfFree) :
    (s.writeKey j k m st path).2 = true ∧
    (s.writeKey j k m st path).1.job j = some { job with claim := none } ∧
    (s.writeKey j k m st path).1.slot k = (s.slot k).keyed m st s.hzn.next := by
  unfold State.writeKey
  extract_lets x attr attr' y v t
  rw [if_neg (fun h => Nat.not_lt.2 hfit h.2)]
  have htjob : (t.modSlot k fun _ => y).job j = some job := by
    rw [← hj]
    simp only [t]
    split <;> rfl
  refine ⟨rfl, ?_, ?_⟩
  · rw [State.logCreated, State.job, State.log_jobs]
    exact State.job_modJob htjob
  · rw [State.logCreated, State.slot, State.log_vault, State.modJob_vault]
    exact State.slot_modSlot_of_ne fun h => nomatch congrArg Slot.state h

/-- The job stays in flight whether or not its key was written. -/
theorem State.writeKey_job {job : Job} (hj : s.job j = some job) :
    ∃ job', (s.writeKey j k m st path).1.job j = some job' := by
  unfold State.writeKey
  extract_lets x attr attr' y v t
  split
  · exact ⟨job, by simpa [State.job] using hj⟩
  · rw [State.logCreated, State.job, State.log_jobs]
    refine ⟨_, State.job_modJob (job := job) ?_⟩
    rw [← hj]
    simp only [t]
    split <;> rfl
end

/-! The end of the execute stage changes no slot. -/

theorem State.dropEngines_vault (s : State) (j : Nat) : (s.dropEngines j).vault = s.vault := by
  unfold State.dropEngines
  dsimp only
  refine (foldl_keeps _ State.vault _ (fun t n => ?_) _).trans rfl
  split
  · split <;> simp
  · rfl

theorem State.endExecution_ok_vault {s : State} {j : Nat} {job : Job} (hj : s.job j = some job) (g out detail : Nat) :
    (s.endExecution j g Status.ok out detail).vault = s.vault := by
  rw [State.endExecution_ok_eq hj, State.modJob_vault, State.executed, State.dropEngines_vault, State.modJob_vault]

/-! A program that ends OK. -/

/-- What the completion of a job in its output stage reports, with its output. -/
def Job.report (x : Job) : Stage × Nat × List Byte × Nat × Nat := (x.stage, x.status, x.out, x.outWritten, x.detail)

section
variable {s : State} {j g : Nat} {job job' : Job} {mat : KeyMat} {st : Option Stateful} {out : List Byte}
  {written detail : Nat} (hj : s.job j = some job')
include hj

/-- The job stands in its output stage with the output it is given. -/
theorem State.endExecution_output :
    (((s.modJob j fun x => { x with out := out }).endExecution j g Status.ok written detail).job j).map Job.report =
      some (.output, Status.ok, out, written, detail % 2 ^ 32) := by
  rw [(State.endExecution_ok (State.job_modJob hj) g written detail).1]
  rfl

theorem State.finishOk_unclaimed (hc : job.claim = none) :
    ((s.finishOk j g job mat st out written detail).job j).map Job.report =
      some (.output, Status.ok, out, written, detail % 2 ^ 32) := by
  unfold State.finishOk
  rw [hc]
  exact State.endExecution_output hj

theorem State.finishOk_claimed {k : Nat} (hc : job.claim = some k)
    (hfit : roundUp (144 + mat.cache.length + mat.pub.length) 64 ≤ s.vault.shelfFree) :
    ((s.finishOk j g job mat st out written detail).job j).map Job.report =
      some (.output, Status.ok, out, written, detail % 2 ^ 32) ∧
    (s.finishOk j g job mat st out written detail).slot k = (s.slot k).keyed mat st s.hzn.next := by
  obtain ⟨htaken, hjob, hslot⟩ := State.writeKey_fits (k := k) mat st (createPath (s.kindOf job)) j hj hfit
  unfold State.finishOk
  rw [hc]
  dsimp only
  rw [if_pos htaken]
  refine ⟨State.endExecution_output hjob, ?_⟩
  rw [State.slot, State.endExecution_ok_vault (State.job_modJob hjob), State.modJob_vault]
  exact hslot

end

/-- The job has left the device, or it stands OK in its output stage. -/
def State.Ended (s : State) (j : Nat) : Prop :=
  s.job j = none ∨ (s.job j).map (fun x => (x.stage, x.status)) = some (.output, Status.ok)

theorem State.ended_of_report {s : State} {j n d : Nat} {out : List Byte}
    (h : (s.job j).map Job.report = some (.output, Status.ok, out, n, d)) : s.Ended j := by
  obtain ⟨x, hx, hr⟩ := Option.map_eq_some_iff.1 h
  refine .inr ?_
  rw [hx]
  exact congrArg (fun r : Stage × Nat × List Byte × Nat × Nat => some (r.1, r.2.1)) hr

section
variable {s : State} {j : Nat} {job' : Job} (hs : s.Sound) (hj : s.job j = some job') (g : Nat)
include hs hj

theorem State.ended_of_failed (out detail : Nat) {status : Nat} (hok : status ≠ Status.ok) :
    (s.endExecution j g status out detail).Ended j :=
  .inl (State.endExecution_failed hj g out detail hs hok).1

/-- The end of a program, with a key or without: the job ends, whether the shelf has room or not (R318). -/
theorem State.ended_finishOk (job : Job) (mat : KeyMat) (st : Option Stateful) (out : List Byte) (written detail : Nat) :
    (s.finishOk j g job mat st out written detail).Ended j := by
  cases hc : job.claim with
  | none => exact State.ended_of_report (State.finishOk_unclaimed hj hc)
  | some k =>
    obtain ⟨x, hx⟩ := State.writeKey_job (k := k) mat st (createPath (s.kindOf job)) j hj
    unfold State.finishOk
    rw [hc]
    dsimp only
    split
    · exact State.ended_of_report (State.endExecution_output hx)
    · exact State.ended_of_failed (sound_writeKey hs) hx g 0 0 (by decide)

/-- R97 judges every result: the job ends with it. -/
theorem State.ended_judgeEnd (job : Job) : (s.judgeEnd j g job).Ended j := by
  have hfail := fun out detail (status : Nat) (h : status ≠ Status.ok) => State.ended_of_failed hs hj g out detail h
  unfold State.judgeEnd
  extract_lets G status len detail out
  split
  · exact hfail _ _ _ (by decide)
  split
  · exact hfail _ _ _ (by decide)
  split
  · exact hfail _ _ _ (by decide)
  split
  · split
    · exact State.ended_finishOk (sound_spend hs) hj g _ _ _ _ _ _
    · exact State.ended_finishOk hs hj g _ _ _ _ _ _
  next hok =>
    split
    · exact hfail _ _ _ hok
    · exact hfail _ _ _ hok
end

end Sys2Proof.Machine
end

section
/-!
O34: the operations of session contexts, owner extensions and admin messages (R321, R322, R364, R428), by the law of a program
that runs from its ENTRY to its end.
-/
namespace Sys2Proof.Machine

/-! A program runs from its ENTRY to its end. -/

theorem State.opReady_job {s : State} {j g : Nat} {job : Job} {k : OpKind → Bool} (h : s.opReady j k = some (job, g)) :
    s.job j = some job := by
  unfold State.opReady at h
  cases hj : s.job j with
  | none => simp [hj] at h
  | some x =>
    cases hg : x.grain with
    | none => simp [hj, hg] at h
    | some i =>
      simp only [hj, hg, Option.ite_none_right_eq_some, Option.some.injEq, Prod.mk.injEq] at h
      rw [h.2.1]

section
variable {s : State} {j : Nat} (he : SeedReq.entropy j ∉ s.rng.waiting) (hs : s.Sound) (g : Nat) (G : Grain)
include he hs

/-- A grain that changes and may ask for a seed: its job and the vault stay, and the device is sound. -/
theorem State.spares_grainStep : s.Spares ((s.modGrain g fun _ => G).askForGrain g) j ∧
    ((s.modGrain g fun _ => G).askForGrain g).Sound :=
  have hmod : s.Spares (s.modGrain g fun _ => G) j := ⟨rfl, rfl, he⟩
  ⟨hmod.trans (State.spares_askForGrain hmod.entropy g), sound_askForGrain (sound_modGrain hs)⟩
end

/-- The end of a program with result `r`. -/
def State.endOp (s : State) (j g : Nat) (job : Job) (r : OpResult) : State :=
  if r.status ≠ Status.ok then s.endExecution j g r.status 0 r.detail
  else if job.desc.outLen < r.out.length then s.endExecution j g Status.outputShort r.out.length r.detail
  else s.finishOk j g job r.mat r.stateful r.out r.out.length r.detail

section
variable {s : State} {j g : Nat} {job : Job} {k : OpKind → Bool} (h : s.opReady j k = some (job, g)) (hs : s.Sound)
  (he : SeedReq.entropy j ∉ s.rng.waiting)
  (hx : (s.grain g).expander.delivered = 0 ∨ (s.grain g).expander.seedHeld = true)
include h hs he hx

/-- A program whose expander has its words comes to its end with its job and the vault as they were. -/
theorem State.runOp_ends (f : State → Job → OpResult) : ∃ t : State, t.Sound ∧ t.vault = s.vault ∧
    t.job j = some { job with ctxNew := (f s job).ctx } ∧
    s.runOp j k f = t.endOp j g { job with ctxNew := (f s job).ctx } (f s job) := by
  obtain ⟨x, hdraw⟩ := Grain.draw_ok hx (f s job).words
  unfold State.runOp
  rw [h]
  dsimp only
  rw [hdraw]
  have he' : SeedReq.entropy j ∉ s.spend.rng.waiting := he
  obtain ⟨hspared, hsound⟩ := State.spares_grainStep he' (sound_spend hs) g
    { s.grain g with
      expander := x, busy := (s.grain g).busy + (f s job).cycles
      regs := { (s.grain g).regs with cycle := (f s job).cycles } }
  have hjob := hspared.job.trans (State.opReady_job h)
  exact ⟨_, sound_modJob hsound, (State.modJob_vault _ j _).trans hspared.vault, State.job_modJob hjob, rfl⟩

/-- The program of an owner extension comes to its END, where R97 judges its result (R364). -/
theorem State.ownerExtension_judged (hk : k = fun x => decide (x = .extension)) (hb : s.engineBusy j = false) :
    ∃ t : State, t.Sound ∧ t.job j = some job ∧ execOwnerExtension j s = .next (t.judgeEnd j g job) := by
  subst hk
  obtain ⟨x, hdraw⟩ := Grain.draw_ok hx (Config.freeNat s.free 1)
  obtain ⟨hspared, hsound⟩ := State.spares_grainStep he hs g (s.afterProgram { s.grain g with expander := x })
  refine ⟨((s.modGrain g fun _ => s.afterProgram { s.grain g with expander := x }).askForGrain g).spend,
    sound_spend hsound, hspared.job.trans (State.opReady_job h), ?_⟩
  unfold execOwnerExtension
  rw [h]
  dsimp only
  rw [hdraw]
  simp [hb]
end

end Sys2Proof.Machine

namespace Sys2Proof.Claims
open Sys2Proof.Machine

/-- What counts of a result: its status, output, key, stateful data and DETAIL. -/
def seen (r : OpResult) : OpResult :=
  { status := r.status, out := r.out, mat := r.mat, stateful := r.stateful, detail := r.detail }

/-- The end of a program leaves what R66, R97, R199 and R318 say. -/
theorem left_endOp {s t : State} {j g : Nat} {job : Job} {c : Option Ctx} {r : OpResult} (hs : t.Sound)
    (hv : t.vault = s.vault) (hj : t.job j = some { job with ctxNew := c }) :
    Left s (t.endOp j g { job with ctxNew := c } r) j g job r := by
  unfold State.endOp
  refine ⟨fun hok hlen => ?_, fun hbad => ?_⟩
  · rw [if_neg (not_not.2 hok), if_neg (Nat.not_lt.2 hlen)]
    refine ⟨fun hc => State.finishOk_unclaimed hj hc, fun k hc hfit => ?_⟩
    rw [← hv] at hfit
    obtain ⟨hstands, hslot⟩ := State.finishOk_claimed (st := r.stateful) (g := g) (out := r.out) (written := r.out.length)
      (detail := r.detail) hj (job := { job with ctxNew := c }) hc hfit
    rw [hslot]
    exact ⟨hstands, rfl, rfl, rfl, rfl, rfl⟩
  · have hfailed : ∀ status out, status ≠ Status.ok → (t.endExecution j g status out r.detail).job j = none ∧
        ((t.endExecution j g status out r.detail).grain g).state = .scrub := fun status out hne => by
      obtain ⟨hleft, hgrain⟩ := State.endExecution_failed hj g out r.detail hs hne
      rw [hgrain]
      exact ⟨hleft, rfl⟩
    by_cases hok : r.status = Status.ok
    · rw [if_neg (not_not.2 hok), if_pos (hbad.resolve_left (not_not.2 hok))]
      exact hfailed _ _ (by decide)
    · rw [if_pos hok]
      exact hfailed _ _ hok

/-- A command that is a program with result `f` produces what counts of it. -/
theorem produces_of_runOp {s : State} {j : Nat} {i : Instr} {k : OpKind → Bool} {f r : State → Job → OpResult}
    (hexec : exec i s = .next (s.runOp j k f)) (hf : ∀ job, seen (f s job) = r s job) : Produces s j i k r := by
  intro job g h hs he hx
  obtain ⟨t, hsound, hvault, hjob, hrun⟩ := State.runOp_ends h hs he hx f
  refine ⟨_, hexec, ?_⟩
  rw [hrun, ← hf]
  exact left_endOp (r := f s job) hsound hvault hjob

/-- Settles O34: every context operation is a program with its result (`produces_of_runOp`), an owner extension's program
comes to its END (`State.ended_judgeEnd`), and the guards of an admin message hold. -/
theorem contextOperations : Obligations.ContextOperations := by
  intro s j
  refine ⟨produces_of_runOp rfl fun job => ?_, produces_of_runOp rfl fun job => rfl, produces_of_runOp rfl fun job => ?_,
    produces_of_runOp rfl fun job => rfl, fun job hj hk hst hh hp => ?_, fun job g h hs hb he hx => ?_⟩
  · dsimp only
    split <;> rfl
  · dsimp only
    split
    · rfl
    split
    · rfl
    generalize symOutput _ _ _ _ _ _ = r
    by_cases hok : r.1 = Status.ok <;> simp [hok, seen, State.ctxResult]
  · show execMctpMessage j s = _
    simp [execMctpMessage, hj, hk, hst, hh, hp]
  · obtain ⟨t, hsound, hjob, hexec⟩ := State.ownerExtension_judged h hs he hx rfl hb
    exact ⟨_, hexec, State.ended_judgeEnd hsound hjob g job⟩

end Sys2Proof.Claims
end

section
/-!
O41: the units that leave a removed tenant are cleared, and a cleared grain asks for a seed (R25, R82, R289).
-/
namespace Sys2Proof.Machine

/-- Tenant 1 is REMOVING and holds grain 0, whose expander has delivered a word and has no seed in hand. Job 0 waits for
conditioned entropy, and the generator is ready with 34 seeds, so
that the reserve of the job's class is met. -/
def removingBesideWaiter : State := { State.reset with
  tenants := [(1, { state := .removing, tpt := { grains := 1 } })]
  grains := [(0, { expander := { delivered := 1 } })]
  jobs := [(0, { pair := 0, index := 0, desc := { outLen := 1 }, tenant := 0 })]
  rng := { state := .ready, queue := List.replicate 34 [1#8], waiting := [.entropy 0] } }

theorem removingBesideWaiter_sound : removingBesideWaiter.Sound := by constructor <;> rfl

/-- The removal clears grain 0, whose request for a seed starts the arbiter, which serves job 0 too: its seed goes to the job's
output. -/
theorem removingBesideWaiter_served : ∃ t, exec (.tenantRemoveDone 1) removingBesideWaiter = .next t ∧
    t.jobs ≠ removingBesideWaiter.jobs :=
  ⟨_, rfl, by decide +kernel⟩

end Sys2Proof.Machine

namespace Sys2Proof.Claims
open Sys2Proof.Machine

/-- Refutes O41: the removal of a tenant can change a job in a sound state. In `removingBesideWaiter` the cleared grain's
request for a seed lets the arbiter serve a waiting job as well. -/
theorem not_portsAndTenants : ¬ Obligations.PortsAndTenants := by
  intro h
  obtain ⟨-, htenants⟩ := h
  obtain ⟨-, -, hremove, -⟩ := htenants removingBesideWaiter
  obtain ⟨t, ht, -, -, -, hjobs, -⟩ := hremove 1 removingBesideWaiter_sound (by decide)
  obtain ⟨u, hu, hchanged⟩ := removingBesideWaiter_served
  cases Host.Outcome.next.inj (ht.symm.trans hu)
  exact hchanged hjobs

end Sys2Proof.Claims
end

section
/-!
O42: what a bed that wakes from OFF takes (R115, R173).
-/
namespace Sys2Proof.Machine

/-- A device at power-up whose bed 0 is wanted, OFF and empty, while the microcode buffer of the running image is not. -/
def wantedBedOff : State := { State.reset with
  power := { topsoilUp := true }
  boot := { ucode := [1#8] }
  beds := [(0, { wakeWanted := true })]
  quads := [(0, { pllRun := true })] }

/-- The gate of that bed opens, and its wake copies the microcode buffer into its positions (R115, R173). -/
theorem wantedBedOff_opens : exec (.bedGateOpen 0) wantedBedOff = .next (wantedBedOff.modBed 0 fun y =>
    { y with state := .waking, wakeWanted := false, wakes := 1, store := [1#8] }) := rfl

end Sys2Proof.Machine

namespace Sys2Proof.Claims
open Sys2Proof.Machine

/-- Refutes O42: a bed that wakes from OFF also takes the microcode buffer into its control stores, which the clause on
`bedGateOpen` leaves out; bed 0 of `wantedBedOff` shows it. -/
theorem not_bedsAndSelfTest : ¬ Obligations.BedsAndSelfTest := by
  intro h
  obtain ⟨-, -, -, hgate, -⟩ := h wantedBedOff
  have hopen := hgate 0 (by decide) (by decide) (by decide) (by decide) (by decide) (by decide) (by decide)
  rw [wantedBedOff_opens] at hopen
  exact absurd (congrArg (fun t => (t.bed 0).store) (Host.Outcome.next.inj hopen)) (by decide)

end Sys2Proof.Claims
end

section
/-!
How an SPDM request comes to its body (R427, R430), and the sessions of the responder (R429).
-/
namespace Sys2Proof.Machine

/-! What the first request of a session leaves alone. -/

/-- A marked session changes the responder's table of sessions alone. -/
theorem State.markStarted_eq (s : State) (v : Via) :
    ∃ m, s.markStarted v = { s with spdm := { s.spdm with sessions := m } } := by
  unfold State.markStarted
  split
  · split
    · exact ⟨_, rfl⟩
    · exact ⟨s.spdm.sessions, rfl⟩
  · exact ⟨s.spdm.sessions, rfl⟩

@[simp] theorem State.markStarted_conn (s : State) (v w : Via) : (s.markStarted v).conn w = s.conn w := by
  obtain ⟨m, h⟩ := s.markStarted_eq v
  rw [h]
  rfl

@[simp] theorem State.markStarted_free (s : State) (v : Via) : (s.markStarted v).free = s.free := by
  obtain ⟨m, h⟩ := s.markStarted_eq v
  rw [h]

/-! The phases in which a request arrives. -/

section
variable {s : State} {v : Via} (hl : s.viaLive v = true) (hk : s.viaKnown v = true) (need : Nat) (f : State → State)
include hl hk

/-- The services of the immutable boot code support no request. -/
theorem State.spdmRequest_boot (hp : s.power.phase ∈ [Phase.fallow, .lockService, .factory, .scrapped]) :
    s.spdmRequest v need f = s.sendSpdm v (.error .unsupportedRequest) := by
  unfold State.spdmRequest
  simp only [List.mem_cons, List.not_mem_nil, or_false] at hp
  rcases hp with hp | hp | hp | hp <;> simp [hl, hk, hp]

/-- A request before its connection has come as far as it needs is unexpected. -/
theorem State.spdmRequest_early (hp : s.power.phase = .gateOpen) (hn : (s.conn v).phase < need) :
    s.spdmRequest v need f = (s.markStarted v).sendSpdm v (.error .unexpectedRequest) := by
  simp [State.spdmRequest, hl, hk, hp, hn]

theorem State.spdmRequest_taken (hp : s.power.phase = .gateOpen) (hn : need ≤ (s.conn v).phase) :
    s.spdmRequest v need f = f (s.markStarted v) := by
  simp [State.spdmRequest, hl, hk, hp, Nat.not_lt.2 hn]

end

/-! Bodies with more than one condition. -/

section
variable {s : State} {v : Via}

theorem State.signedReply_signed (h : s.vault.aliasKey = true) (r : List Byte → SpdmReply) :
    s.signedReply v r = s.spend.sendSpdm v (r s.aliasSign) := if_pos h

theorem State.measureBlocks_one (h : List Byte → List Byte) {index : Nat} (h0 : 0 < index) (h10 : index ≤ 10) :
    s.measureBlocks h index = some [(index, s.measurement h index)] :=
  (if_neg (Nat.ne_of_gt h0)).trans (if_pos h10)

/-- An index that names no block. -/
theorem State.measureBlocks_none (h : List Byte → List Byte) {index : Nat} (h10 : 10 < index) (hall : index ≠ 0xFF) :
    s.measureBlocks h index = none := by
  simp [State.measureBlocks, Nat.not_le.2 h10, hall, Nat.ne_of_gt (Nat.zero_lt_of_lt h10)]

/-! MANAGER_BIND (R429). -/

/-- A session without a chain, or with a request behind it, is refused. -/
theorem State.bindResult_refused {x : Session} (h : x.chain = none ∨ x.started = true) (signature : List Byte) :
    s.bindResult x signature = Status.opcodeDenied := by
  unfold State.bindResult
  cases hc : x.chain with
  | none => rfl
  | some c => exact if_pos (.inl (h.resolve_left (by simp [hc])))

/-- The first request of a session whose chain roots in a tilth key is judged by its signature. -/
theorem State.bindResult_judged {x : Session} {c : Chain} (hc : x.chain = some c) (hs : x.started = false)
    (hm : s.managerChain c = true) (signature : List Byte) : s.bindResult x signature =
      if mlOk (Config.leafKey schemeMl c.bytes) x.transcript signature then Status.ok else Status.verifyFail := by
  unfold State.bindResult
  rw [hc]
  cases hv : mlOk (Config.leafKey schemeMl c.bytes) x.transcript signature <;> simp [hs, hm, hv]

section
variable (hl : s.viaLive v = true) (hk : s.viaKnown v = true) (hp : s.power.phase = .gateOpen) (signature : List Byte)
include hl hk hp

theorem execManagerBind_session {n : Nat} {x : Session} (hs : s.sessionOf v = some (n, x)) :
    execManagerBind v signature s = .next ((s.modSession n fun y =>
      { y with started := true, manager := y.manager || decide (s.bindResult x signature = Status.ok) }).respond v
        (s.bindResult x signature) []) := by
  simp [execManagerBind, hl, hk, hp, hs]

theorem execManagerBind_outside (hs : s.sessionOf v = none) :
    execManagerBind v signature s = .next (s.respond v Status.opcodeDenied []) := by
  simp [execManagerBind, hl, hk, hp, hs]

end

theorem execSetEndpointId_taken (hl : s.viaLive v = true) (ht : ∀ p, v.transport ≠ .admin p) {eid : Nat} (h8 : 8 ≤ eid)
    (h254 : eid ≤ 254) : execSetEndpointId v eid s = .next
      ((s.modSpdm fun d => { d with endpoints := d.endpoints.insert (connKey v) eid }).sendSpdm v (.endpointSet eid)) := by
  unfold execSetEndpointId
  rw [if_neg (by simp [hl])]
  cases hv : v.transport with
  | admin p => exact absurd hv (ht p)
  | _ => exact congrArg _ (if_neg (by omega))

/-- The report of a VF that is locked or runs (R75, R434). -/
theorem execGetDeviceInterfaceReport_reported {vf p t : Nat} (hp : s.tdispPort v vf = some p)
    (ht : s.funcTenant p (vf + 1) = some t)
    (hs : (s.func (fnKey p (vf + 1))).tdisp = .configLocked ∨ (s.func (fnKey p (vf + 1))).tdisp = .run) :
    execGetDeviceInterfaceReport v vf s = .next
      (s.sendSpdm v (.interfaceReport (Config.interfaceReport (s.reportNumbers p vf t) (s.reportArea t)))) := by
  unfold execGetDeviceInterfaceReport
  rw [hp]
  dsimp only
  rw [ht]
  exact congrArg _ (if_neg fun ⟨hlocked, hrun⟩ => hs.elim hlocked hrun)

theorem execGetDeviceInterfaceReport_outside {vf : Nat} (hp : s.tdispPort v vf = none) :
    execGetDeviceInterfaceReport v vf s = .next (s.sendSpdm v (.error .unexpectedRequest)) := by
  rw [execGetDeviceInterfaceReport, hp]

end

end Sys2Proof.Machine
end

section
/-!
The I3C target (R500): what it answers, and what reaches it.
-/
namespace Sys2Proof.Machine

section
variable {s : State} {a : Nat}

theorem State.i3cAnswer_own (hon : s.i3cOn = true) (ha : s.i3c.addr = some a) (bytes : List Byte) :
    s.i3cAnswer a bytes = s.emit (.i3c bytes) := if_pos ⟨hon, ha⟩

/-- A target that does not serve, or another target's address: nothing is answered. -/
theorem State.i3cAnswer_other (h : s.i3cOn = false ∨ s.i3c.addr ≠ some a) (bytes : List Byte) :
    s.i3cAnswer a bytes = s :=
  if_neg fun ⟨hon, ha⟩ => h.elim (fun hoff => Bool.false_ne_true (hoff.symm.trans hon)) fun hne => hne ha

theorem State.i3cReached_all (hon : s.i3cOn = true) : s.i3cReached none = true := by simp [State.i3cReached, hon]

theorem State.i3cReached_own (hon : s.i3cOn = true) (ha : s.i3c.addr = some a) : s.i3cReached (some a) = true := by
  simp [State.i3cReached, hon, ha]

theorem State.i3cReached_other (ha : s.i3c.addr ≠ some a) : ¬ s.i3cReached (some a) = true := by
  simp [State.i3cReached, ha]

section
variable (hon : s.i3cOn = true) (ha : s.i3c.addr = some a) {bytes : List Byte} (hlen : bytes.length ≤ 69)
include hon ha hlen

/-- A transfer of at most 69 bytes at the target's address is taken. -/
theorem execI3cPrivateTransfer_own (read : Bool) : execI3cPrivateTransfer a read bytes s =
    .next (if read then s.modI3c fun x => { x with waiting := x.waiting - 1 } else s) := by
  simp [execI3cPrivateTransfer, hon, ha, i3cMax, Nat.not_lt.2 hlen]
end

end

end Sys2Proof.Machine
end

section
/-!
O52: SPDM requests, MANAGER_BIND, endpoint IDs and the I3C target (R75, R427 to R434, R500).
-/
namespace Sys2Proof.Claims
open Sys2Proof.Machine

/-- A request that has come to its body is answered by the body's effect. -/
theorem Answered.of_request {s : State} {v : Via} {need : Nat} {c : Instr} {legal : State → Prop} {eff f : State → State}
    (hexec : exec c s = .next (s.spdmRequest v need f))
    (hf : legal (s.markStarted v) → f (s.markStarted v) = eff (s.markStarted v)) : Answered s v need c legal eff := by
  intro hl hk hp hn hlegal
  rw [hexec, State.spdmRequest_taken hl hk need f hp hn, hf hlegal]

/-- Every request that needs the algorithms comes to the responder's door as such. -/
theorem AfterAlgorithms.request {v : Via} {c : Instr} (h : AfterAlgorithms v c) (s : State) :
    ∃ f, exec c s = .next (s.spdmRequest v 3 f) := by
  rcases h with rfl | ⟨_, _, _, rfl⟩ | ⟨_, rfl⟩ | ⟨_, _, rfl⟩ | ⟨_, rfl⟩ | ⟨_, _, _, _, rfl⟩ | rfl | rfl | rfl | ⟨_, _, rfl⟩ |
    ⟨_, _, _, _, rfl⟩ | ⟨_, _, rfl⟩ <;> exact ⟨_, rfl⟩

/-- Settles O52: a request comes to its body by `Answered.of_request`, and the premises choose the body's branch; the rest are
the guards of MANAGER_BIND, of Set Endpoint ID and of the I3C target. -/
theorem spdmAndI3c : Obligations.SpdmAndI3c := by
  refine ⟨fun s v => ⟨fun hl hk hp => congrArg _ (State.spdmRequest_boot hl hk 0 _ hp), fun c hc hl hk => ?_,
    fun hs => .of_request rfl fun _ => by simp [hs, spdmVersions],
    fun version hs hc hver => .of_request rfl fun _ => by simp [hs, hc, spdmVersions, hver],
    fun version hs hc h12 h13 => .of_request rfl fun _ => by simp [hs, hc, spdmVersions, h12, h13],
    fun asym hash meas h m hs hc ha hh hm => .of_request rfl fun _ => by simp [hs, hc, ha, hh, hm],
    fun asym hash meas hs hc ha => .of_request rfl fun _ => by simp [hs, hc, ha],
    fun free => ⟨rfl, rfl, rfl⟩,
    .of_request rfl fun _ => rfl,
    fun off len => .of_request rfl fun ⟨hoff, hfits⟩ =>
      (if_neg (by simpa using hoff)).trans (if_neg (Nat.not_lt.2 hfits)),
    fun off len => .of_request rfl fun ⟨hoff, hlarge⟩ => (if_neg (by simpa using hoff)).trans (if_pos hlarge),
    fun slot off len hs => .of_request rfl fun _ => if_pos (.inl hs),
    .of_request rfl fun hkey => State.signedReply_signed hkey _,
    fun slot hs => .of_request rfl fun _ => if_pos hs,
    fun index h0 h10 => .of_request rfl fun _ => by simp [State.measureBlocks_one _ h0 h10],
    .of_request rfl fun _ => rfl,
    .of_request rfl fun hkey => State.signedReply_signed hkey _,
    fun index signed h10 hall => .of_request rfl fun _ => by simp [State.measureBlocks_none _ h10 hall],
    fun hs => .of_request rfl fun ⟨hroom, hkey⟩ =>
      (if_neg (by simp [hs])).trans ((if_neg (Nat.not_le.2 hroom)).trans (if_neg (by simp [hkey]))),
    fun hs => .of_request rfl fun hfull => by simp [hs, hfull],
    fun n y chain sig mac => .of_request rfl fun ⟨hy, ht, he, hok⟩ => by simp [hy, ht, he, hok],
    fun n y chain sig mac => .of_request rfl fun ⟨hy, ht, he, hok⟩ => by simp [hy, ht, he, hok],
    fun n y => .of_request rfl fun hy => by simp [hy],
    fun n y => .of_request rfl fun hy => by simp [hy],
    fun n y => .of_request rfl fun hy => by simp [hy],
    .of_request rfl fun hy => by simp [hy],
    .of_request rfl fun hy => by simp [hy],
    .of_request rfl fun hy => by simp [hy],
    fun n x hx he => ?_,
    fun n hr => Map.find?_erase_self hr n,
    fun chain => .of_request rfl fun ⟨hm, hc⟩ => by simp [hm, hc],
    fun slot chain => .of_request rfl fun hm => by simp [hm],
    fun handle last bytes => .of_request rfl fun _ => rfl,
    fun handle seq last bytes h0 hseq hhandle => .of_request rfl fun _ => by simp [h0, hseq, hhandle],
    fun handle seq last bytes h0 hbad => .of_request rfl fun _ => by simp [h0, hbad],
    fun handle seq hlarge hseq hhandle => .of_request rfl fun _ => by simp [hlarge, hseq, hhandle],
    fun signature n x hl hk hp hs => execManagerBind_session hl hk hp signature hs,
    fun signature hl hk hp hs => execManagerBind_outside hl hk hp signature hs,
    fun x signature h => State.bindResult_refused h signature,
    fun x k signature hc hs hm => State.bindResult_judged hc hs hm signature,
    fun eid hl ht h8 h254 => execSetEndpointId_taken hl ht h8 h254,
    fun vf p t hp ht hs => execGetDeviceInterfaceReport_reported hp ht hs,
    fun vf hp => execGetDeviceInterfaceReport_outside hp⟩,
  fun s => ⟨fun a hon ha => congrArg _ (if_neg (by simp [hon, ha])),
    fun a b hon ha => congrArg _ (if_pos (.inr (by simp [ha]))),
    fun a hon ha => congrArg _ (if_pos ⟨hon, rfl, ha⟩),
    fun old a hon ha => congrArg _ (if_pos ⟨hon, ha⟩),
    fun hon => congrArg _ (if_pos hon),
    fun a hon ha => congrArg _ (State.i3cAnswer_own hon ha _),
    fun a h => congrArg _ (State.i3cAnswer_other h _),
    fun a hon ha => congrArg _ (State.i3cAnswer_own hon ha _),
    fun a h => congrArg _ (State.i3cAnswer_other h _),
    fun a hon ha => congrArg _ (State.i3cAnswer_own hon ha _),
    fun a h => congrArg _ (State.i3cAnswer_other h _),
    fun a hon ha => congrArg _ (State.i3cAnswer_own hon ha _),
    fun a h => congrArg _ (State.i3cAnswer_other h _),
    fun a hon ha => congrArg _ (State.i3cAnswer_own hon ha _),
    fun a h => congrArg _ (State.i3cAnswer_other h _),
    fun a hon ha => ⟨_, congrArg Host.Outcome.next (State.i3cAnswer_own (s := s.spend) hon ha _), rfl, rfl⟩,
    fun ev hon hev => congrArg _ (if_pos ⟨State.i3cReached_all hon, hev⟩),
    fun a ev hon ha hev => congrArg _ (if_pos ⟨State.i3cReached_own hon ha, hev⟩),
    fun a ev ha => congrArg _ (if_neg fun h => State.i3cReached_other ha h.1),
    fun ev hon hev => congrArg _ (if_pos ⟨State.i3cReached_all hon, hev⟩),
    fun a ev hon ha hev => congrArg _ (if_pos ⟨State.i3cReached_own hon ha, hev⟩),
    fun a ev ha => congrArg _ (if_neg fun h => State.i3cReached_other ha h.1),
    fun hon => congrArg _ (if_pos hon),
    fun a bytes hon ha hlen => execI3cPrivateTransfer_own hon ha hlen true,
    fun a bytes hon ha hlen => execI3cPrivateTransfer_own hon ha hlen false⟩⟩
  · obtain ⟨f, hf⟩ := hc.request s
    exact ⟨fun hp => hf.trans (congrArg _ (State.spdmRequest_boot hl hk 3 f hp)),
      fun hp hn => hf.trans (congrArg _ (State.spdmRequest_early hl hk 3 f hp hn))⟩
  · show execHeartbeatTimeout n s = _
    simp [execHeartbeatTimeout, hx, he]

end Sys2Proof.Claims
end

section
/-!
What a grain instruction leaves unchanged: the frame of `State.runGrain`, and the frames of the operations of R121 to R124.
-/
namespace Sys2Proof.Machine
open Sys2Proof.Claims (HasAsked scalarDest)

/-- `t` is `s` but for grain `g` and the free counter. -/
structure State.SameBut (s t : State) (g : Nat) : Prop where
  rest : { t with grains := s.grains, free := s.free } = s
  others : ∀ h, h ≠ g → t.grain h = s.grain h

/-- A change of one grain leaves every other grain alone. -/
theorem State.grain_modGrain_ne (s : State) {g h : Nat} (f : Grain → Grain) (hne : h ≠ g) :
    (s.modGrain g f).grain h = s.grain h :=
  Map.get_modify_ne (m := s.grains) {} f hne

/-- A grain whose expander has asked for its seeds asks for none (R102). -/
theorem State.askForGrain_asked {s : State} {g : Nat} (h : HasAsked s g) : s.askForGrain g = s := by
  refine if_neg fun hask => ?_
  simp only [Bool.and_eq_true, Bool.not_eq_true', List.contains_eq_mem, decide_eq_false_iff_not] at hask
  obtain ⟨⟨hpending, hcoming⟩, hwaiting⟩ := hask
  exact (h hpending).elim (fun hc => Bool.false_ne_true (hcoming.symm.trans hc)) hwaiting

section
variable {s : State} {g : Nat} (hs : s.Sound) (ha : HasAsked s g)
include hs ha

/-- An operation that does not stop and leaves the expander alone changes its grain and the free counter only, and what
holds of the grain as it was, and as each such operation leaves it on retiring, holds of it afterwards. -/
theorem State.runGrain_frame {f : GrainOp} (P : Grain → Prop) (hstay : P (s.grain g))
    (hf : ∀ c, ∃ G pc, f c (s.grain g) = .ok (G, pc) ∧ G.expander = (s.grain g).expander ∧ ∀ n, P (G.retire n pc))
    (w : W32) : s.SameBut (s.runGrain g w f) g ∧ P ((s.runGrain g w f).grain g) := by
  cases hfetch : s.fetching g w with
  | none =>
    rw [runGrain_none hfetch]
    exact ⟨⟨rfl, fun _ _ => rfl⟩, hstay⟩
  | some fetched =>
    obtain ⟨j, job⟩ := fetched
    obtain ⟨G, pc, hG, hexp, hP⟩ := hf (s.gctx g j job)
    rw [runGrain_ok hfetch hG]
    set t := s.spend.modGrain g fun _ => G.retire (Config.cyclesTaken s.free) pc
    have hgrain : t.grain g = G.retire (Config.cyclesTaken s.free) pc := State.grain_modGrain (sound_spend hs) g _
    have hasked : HasAsked t g := by
      unfold HasAsked
      rw [hgrain, show (G.retire _ pc).expander = (s.grain g).expander from hexp]
      exact ha
    rw [State.askForGrain_asked hasked, hgrain]
    exact ⟨⟨rfl, fun _ hne => State.grain_modGrain_ne s.spend _ hne⟩, hP _⟩

end

/-! X registers (R121, R122, R124). -/

/-- A write to X(r) changes the table of X registers only. -/
theorem Grain.setX_eq (G : Grain) (r : Nat) (v : W64) : ∃ x, G.setX r v = { G with regs := { G.regs with x := x } } := by
  unfold Grain.setX
  split
  · exact ⟨G.regs.x, rfl⟩
  · exact ⟨_, rfl⟩

@[simp] theorem Grain.setX_expander (G : Grain) (r : Nat) (v : W64) : (G.setX r v).expander = G.expander := by
  obtain ⟨x, hx⟩ := G.setX_eq r v
  rw [hx]

@[simp] theorem Grain.setX_dm (G : Grain) (r : Nat) (v : W64) : (G.setX r v).dm = G.dm := by
  obtain ⟨x, hx⟩ := G.setX_eq r v
  rw [hx]

/-- A write to X(r) leaves X0 and every other register alone. -/
theorem Grain.x_setX_ne {G : Grain} {r i : Nat} (h : i ≠ r ∨ i = 0) (v : W64) : (G.setX r v).x i = G.x i := by
  unfold Grain.setX
  split
  · rfl
  · exact Map.get_set_ne v 0 (by omega)

@[simp] theorem Grain.retire_x (G : Grain) (n pc r : Nat) : (G.retire n pc).x r = G.x r := rfl

/-- `G'` is `G` but for X(d), CYCLE, INSTRET, the time it was busy and the program counter. -/
def Grain.ScalarFrame (G : Grain) (d : Option Reg) (G' : Grain) : Prop :=
  (∃ regs pc busy, G' = { G with regs := regs, pc := pc, busy := busy } ∧
    (∃ x cycle instret, regs = { G.regs with x := x, cycle := cycle, instret := instret }) ∧
    ∀ r, some (BitVec.ofNat 5 r) ≠ d ∨ r = 0 ∨ 32 ≤ r → G'.x r = G.x r)

theorem Grain.scalarFrame_refl (G : Grain) (d : Option Reg) : G.ScalarFrame d G :=
  ⟨G.regs, G.pc, G.busy, rfl, ⟨_, _, _, rfl⟩, fun _ _ => rfl⟩

theorem Grain.scalarFrame_retire (G : Grain) (d : Option Reg) (n pc : Nat) : G.ScalarFrame d (G.retire n pc) :=
  ⟨_, _, _, rfl, ⟨_, _, _, rfl⟩, fun _ _ => rfl⟩

theorem Grain.scalarFrame_setX (G : Grain) (d : Reg) (v : W64) (n pc : Nat) :
    G.ScalarFrame (some d) ((G.setX d.toNat v).retire n pc) := by
  have hx : ∀ r, some (BitVec.ofNat 5 r) ≠ some d ∨ r = 0 ∨ 32 ≤ r → (G.setX d.toNat v).x r = G.x r := by
    intro r hr
    refine Grain.x_setX_ne ?_ v
    rcases hr with hne | h0 | h32
    · exact .inl fun he => hne (by rw [he, BitVec.ofNat_toNat, BitVec.setWidth_eq])
    · exact .inr h0
    · exact .inl (by have := d.isLt; omega)
  obtain ⟨x, hset⟩ := G.setX_eq d.toNat v
  rw [hset] at hx ⊢
  exact ⟨_, _, _, rfl, ⟨_, _, _, rfl⟩, hx⟩

/-- The operation stops nowhere and writes no state but X(d). -/
def SetsOnly (f : GrainOp) : Option Reg → Prop
  | none => ∀ c G, ∃ pc, f c G = .ok (G, pc)
  | some d => ∀ c G, ∃ v pc, f c G = .ok (G.setX d.toNat v, pc)

/-- Every scalar instruction of R121, R122 and R124 runs an operation that sets its destination only. -/
theorem exec_scalar {i : Instr} {g : Nat} {d : Option Reg} (h : scalarDest i = some (g, d)) (s : State) :
    ∃ w f, exec i s = .next (s.runGrain g w f) ∧ SetsOnly f d := by
  unfold scalarDest at h
  cases d with
  | none => split at h <;> cases h <;> exact ⟨_, _, rfl, fun _ _ => ⟨_, rfl⟩⟩
  | some d => split at h <;> cases h <;> exact ⟨_, _, rfl, fun _ _ => ⟨_, _, rfl⟩⟩

/-- What such an operation leaves is in its frame, and its expander is as it was. -/
theorem SetsOnly.retires {f : GrainOp} {d : Option Reg} (h : SetsOnly f d) (c : GCtx) (G : Grain) :
    ∃ G' pc, f c G = .ok (G', pc) ∧ G'.expander = G.expander ∧ ∀ n, G.ScalarFrame d (G'.retire n pc) := by
  cases d with
  | none =>
    obtain ⟨pc, hpc⟩ := h c G
    exact ⟨G, pc, hpc, rfl, fun n => G.scalarFrame_retire none n pc⟩
  | some d =>
    obtain ⟨v, pc, hpc⟩ := h c G
    exact ⟨_, pc, hpc, G.setX_expander _ v, fun n => G.scalarFrame_setX d v n pc⟩

/-! Loads and stores of X registers (R123). -/

/-- `G'` has the X registers of `G`, and its bytes of DM but for the `n` at `a`. -/
structure Grain.StoreFrame (G : Grain) (a n : Nat) (G' : Grain) : Prop where
  dm : ∀ b, b < a ∨ a + n ≤ b → G'.dm.get b 0 = G.dm.get b 0
  x : ∀ r, G'.x r = G.x r

/-- `G'` has the DM of `G`, and its X registers but for X(d). -/
structure Grain.LoadFrame (G : Grain) (d : Reg) (G' : Grain) : Prop where
  dm : G'.dm = G.dm
  x : ∀ r, r ≠ d.toNat → G'.x r = G.x r

/-- A store changes DM at its address only. -/
theorem Grain.storeFrame_store (G : Grain) (a : Nat) (bs : List Byte) (n pc : Nat) :
    G.StoreFrame a bs.length ((G.store a bs).retire n pc) :=
  ⟨fun b hb => Memory.put_frame G.dm a bs b hb, fun _ => rfl⟩

theorem Grain.loadFrame_setX (G : Grain) (d : Reg) (v : W64) (n pc : Nat) :
    G.LoadFrame d ((G.setX d.toNat v).retire n pc) :=
  ⟨G.setX_dm d.toNat v, fun _ hr => Grain.x_setX_ne (.inl hr) v⟩

section
variable {G : Grain} {n : Nat} {a : Reg} {imm : Half} (c : GCtx) (halign : G.ea a.toNat imm % n = 0)
include halign

theorem storeVal_ok (hw : canWrite (G.ea a.toNat imm) n = true) (v : Grain → Nat) :
    storeVal n a imm v c G = .ok (G.store (G.ea a.toNat imm) (leBytes n (v G)), G.next) := by
  simp [storeVal, save_ok, halign, hw, bind, Except.bind]

theorem loadX_ok (hr : canRead (G.ea a.toNat imm) n = true) (d : Reg) :
    loadX n d a imm false c G =
      .ok (G.setX d.toNat (BitVec.ofNat 64 (leNat (G.bytes (G.ea a.toNat imm) n))), G.next) := by
  simp [loadX, load_ok halign hr, bind, Except.bind]
end

section
variable {g n : Nat} {d a : Reg} {imm : Half} (s : State)

theorem exec_store {cmd : Nat → Reg → Reg → Half → Instr}
    (h : (cmd, n) ∈ [(Instr.sd, 8), (Instr.sw, 4), (Instr.sh, 2), (Instr.sb, 1)]) :
    ∃ w v, exec (cmd g d a imm) s = .next (s.runGrain g w (storeVal n a imm v)) := by
  simp only [List.mem_cons, List.not_mem_nil, or_false, Prod.mk.injEq] at h
  rcases h with ⟨rfl, rfl⟩ | ⟨rfl, rfl⟩ | ⟨rfl, rfl⟩ | ⟨rfl, rfl⟩ <;> exact ⟨_, _, rfl⟩

theorem exec_load {cmd : Nat → Reg → Reg → Half → Bool → Instr}
    (h : (cmd, n) ∈ [(Instr.ld, 8), (Instr.lw, 4), (Instr.lh, 2), (Instr.lb, 1)]) :
    ∃ w, exec (cmd g d a imm false) s = .next (s.runGrain g w (loadX n d a imm false)) := by
  simp only [List.mem_cons, List.not_mem_nil, or_false, Prod.mk.injEq] at h
  rcases h with ⟨rfl, rfl⟩ | ⟨rfl, rfl⟩ | ⟨rfl, rfl⟩ | ⟨rfl, rfl⟩ <;> exact ⟨_, rfl⟩
end

section
variable {s : State} {g n : Nat} {a : Reg} {imm : Half} (hs : s.Sound) (ha : HasAsked s g)
  (halign : (s.grain g).ea a.toNat imm % n = 0)
include hs ha

theorem State.runGrain_scalar {f : GrainOp} {d : Option Reg} (hf : SetsOnly f d) (w : W32) :
    s.SameBut (s.runGrain g w f) g ∧ (s.grain g).ScalarFrame d ((s.runGrain g w f).grain g) :=
  State.runGrain_frame hs ha _ (Grain.scalarFrame_refl _ d) (fun c => hf.retires c _) w

include halign

theorem State.runGrain_store (hw : canWrite ((s.grain g).ea a.toNat imm) n = true) (v : Grain → Nat) (w : W32) :
    s.SameBut (s.runGrain g w (storeVal n a imm v)) g ∧
      (s.grain g).StoreFrame ((s.grain g).ea a.toNat imm) n ((s.runGrain g w (storeVal n a imm v)).grain g) := by
  refine State.runGrain_frame hs ha _ ⟨fun _ _ => rfl, fun _ => rfl⟩
    (fun c => ⟨_, _, storeVal_ok c halign hw v, rfl, fun k => ?_⟩) w
  simpa using (s.grain g).storeFrame_store _ (leBytes n (v (s.grain g))) k _

theorem State.runGrain_load (hr : canRead ((s.grain g).ea a.toNat imm) n = true) (d : Reg) (w : W32) :
    s.SameBut (s.runGrain g w (loadX n d a imm false)) g ∧
      (s.grain g).LoadFrame d ((s.runGrain g w (loadX n d a imm false)).grain g) :=
  State.runGrain_frame hs ha _ ⟨rfl, fun _ _ => rfl⟩
    (fun c => ⟨_, _, loadX_ok c halign hr d, Grain.setX_expander _ _ _, fun k => Grain.loadFrame_setX _ d _ k _⟩) w
end

end Sys2Proof.Machine
end

section
/-!
O59: what the scalar instructions, stores and loads of a grain leave unchanged (R93, R121 to R124).
-/
namespace Sys2Proof.Claims
open Sys2Proof.Machine

/-- Settles O59: each instruction runs an operation that stops nowhere, whose frame `State.runGrain_frame` carries over to the
device. -/
theorem grainFrames : Obligations.GrainFrames := by
  unfold Obligations.GrainFrames
  intro s t g hs ha
  refine ⟨fun i d hd hexec => ?_, fun cmd n d a imm hcmd => ?_, fun cmd n d a imm hcmd => ?_⟩
  · obtain ⟨w, f, hrun, hf⟩ := exec_scalar hd s
    cases hrun.symm.trans hexec
    obtain ⟨⟨hrest, hothers⟩, hframe⟩ := State.runGrain_scalar hs ha hf w
    exact ⟨hrest, hothers, hframe⟩
  · intro ea halign hw hexec
    obtain ⟨w, v, hrun⟩ := exec_store s hcmd
    cases hrun.symm.trans hexec
    obtain ⟨⟨hrest, hothers⟩, hdm, hx⟩ := State.runGrain_store hs ha halign hw v w
    exact ⟨hdm, hx, hothers, hrest⟩
  · intro ea halign hr hexec
    obtain ⟨w, hrun⟩ := exec_load s hcmd
    cases hrun.symm.trans hexec
    obtain ⟨⟨hrest, hothers⟩, hdm, hx⟩ := State.runGrain_load hs ha halign hr d w
    exact ⟨hdm, hx, hothers, hrest⟩

end Sys2Proof.Claims
end

section
/-!
How a grain instruction meets its statement: the operation that it runs, on the grain as it stands, gives the effect or the
fault that the statement names.
-/
namespace Sys2Proof.Machine

section
variable {α β : Type} {x : Except Stop α}

/-- A check that passes lets the rest of the operation run on what it answers. -/
theorem bind_of_ok {a : α} (h : x = .ok a) (k : α → Except Stop β) : (x >>= k) = k a := by
  rw [h]
  rfl

/-- A check that fails ends the operation. -/
theorem bind_of_error {e : Stop} (h : x = .error e) (k : α → Except Stop β) : (x >>= k) = .error e := by
  rw [h]
  rfl

end

theorem Grain.needFp_ok {G : Grain} (h : G.header.flags.testBit 2 = true) : G.needFp = .ok () := need_pos h

end Sys2Proof.Machine

namespace Sys2Proof.Claims
open Sys2Proof.Machine

section
variable {s : State} {g : Nat} {i : Instr} {w : W32} {f : GrainOp}

/-- An instruction completes where its operation has its effect on the grain. -/
theorem Completes.of_ok {eff : GCtx → Grain → Grain} {pc : Nat} (hexec : exec i s = .next (s.runGrain g w f))
    (hf : ∀ c, f c (s.grain g) = .ok (eff c (s.grain g), pc)) : Completes s g i w eff pc :=
  fun _ _ hfetch => hexec.trans (congrArg _ (runGrain_ok hfetch (hf _)))

/-- An instruction faults where its operation does. -/
theorem Faults.of_error {cause : Nat} (hexec : exec i s = .next (s.runGrain g w f))
    (hf : ∀ c, f c (s.grain g) = .error (.fault cause)) : Faults s g i w cause :=
  fun _ _ hfetch => hexec.trans (congrArg _ (runGrain_error hfetch (hf _)))

/-- A scalar operation writes the value that it computes. -/
theorem WritesX.of_scalarOp {d : Reg} {v : Grain → W64} {x : W64}
    (hexec : exec i s = .next (s.runGrain g w (scalarOp d v))) (hv : v (s.grain g) = x := by rfl) : WritesX s g i w d x :=
  .of_ok hexec fun _ => congrArg (fun y => Except.ok ((s.grain g).setX d.toNat y, (s.grain g).next)) hv

end

theorem SRegs.needS_ok {G : Grain} {rs : List Reg} (h : SRegs G rs) : G.needS (rs.map BitVec.toNat) = .ok () :=
  need_pos (by simpa [SRegs] using h)

end Sys2Proof.Claims
end

section
/-!
O1, O2: scalar operations, jumps and branches (R121, R122, R124).
-/
namespace Sys2Proof.Machine

theorem flag_slt (a b : W64) : flag (a.slt b) = if a.toInt < b.toInt then 1 else 0 := by
  simp [flag, BitVec.slt]

theorem flag_ult (a b : W64) : flag (a.ult b) = if a.toNat < b.toNat then 1 else 0 := by
  simp [flag, BitVec.ult]

theorem popCount_eq_countP {n : Nat} (a : BitVec n) : popCount a = (List.range n).countP fun i => a.getLsbD i :=
  List.countP_eq_length_filter.symm

theorem shiftBy_mod {n : Nat} (kind : Nat) (a : BitVec n) (k : Nat) : shiftBy kind a (k % n) = shiftBy kind a k := by
  unfold shiftBy
  split <;> rw [Nat.mod_mod]

/-- A shift takes its amount modulo the width in force. -/
theorem wordOp_shiftBy (kind : Nat) (w : Bool) (x y : W64) :
    wordOp w (fun a b => shiftBy kind a (b.toNat % 64)) (fun a b => shiftBy kind a (b.toNat % 32)) x y =
      if w then (shiftBy kind (x.setWidth 32) y.toNat).setWidth 64 else shiftBy kind x y.toNat := by
  have hword : (y.setWidth 32).toNat % 32 = y.toNat % 32 := by
    rw [BitVec.toNat_setWidth, Nat.mod_mod_of_dvd _ (by decide)]
  simp only [wordOp, hword, shiftBy_mod]

/-- SHI is the shift of its kind. -/
theorem shiftBy_shiKind {n : Nat} (kind : BitVec 2) (x : BitVec n) (k : Nat) : shiftBy (shiKind kind) x k =
    if kind = 0 then x <<< (k % n) else if kind = 1 then x >>> (k % n)
    else if kind = 2 then x.sshiftRight (k % n) else x.rotateRight (k % n) := by
  obtain rfl | rfl | rfl | rfl : kind = 0 ∨ kind = 1 ∨ kind = 2 ∨ kind = 3 := by revert kind; decide
  all_goals rfl

/-- The amount of SHI is its field. -/
theorem toNat_shiAmount (amount : BitVec 6) : (amount.setWidth 64).toNat = amount.toNat :=
  BitVec.toNat_setWidth_of_le (by decide)

end Sys2Proof.Machine

namespace Sys2Proof.Claims
open Sys2Proof.Machine

/-- Settles O1: each instruction runs a `scalarOp`, whose value is the one written down; the comparisons, shifts, SHI and
POPCNT by the lemma on their value. -/
theorem scalarOperations : Obligations.ScalarOperations :=
  ⟨⟨fun s g w d a b => ⟨.of_scalarOp rfl, .of_scalarOp rfl, .of_scalarOp rfl, .of_scalarOp rfl, .of_scalarOp rfl,
      .of_scalarOp rfl, .of_scalarOp rfl (flag_slt _ _), .of_scalarOp rfl (flag_ult _ _), .of_scalarOp rfl,
      .of_scalarOp rfl, .of_scalarOp rfl, .of_scalarOp rfl, .of_scalarOp rfl, .of_scalarOp rfl⟩,
    fun s g w d a b => ⟨.of_scalarOp rfl (wordOp_shiftBy 0 w _ _), .of_scalarOp rfl (wordOp_shiftBy 1 w _ _),
      .of_scalarOp rfl (wordOp_shiftBy 2 w _ _), .of_scalarOp rfl (wordOp_shiftBy 3 w _ _),
      .of_scalarOp rfl (wordOp_shiftBy 4 w _ _), .of_scalarOp rfl, .of_scalarOp rfl, .of_scalarOp rfl,
      .of_scalarOp rfl (congrArg _ (popCount_eq_countP _)), .of_scalarOp rfl⟩⟩,
  fun s g w d a imm kind amount hw => ⟨.of_scalarOp rfl, .of_scalarOp rfl, .of_scalarOp rfl, .of_scalarOp rfl,
    .of_scalarOp rfl ((wordOp_shiftBy _ w _ _).trans (by rw [toNat_shiAmount, shiftBy_shiKind, shiftBy_shiKind])),
    .of_scalarOp rfl, .of_scalarOp rfl⟩⟩

section
variable {s : State} {g : Nat} {i : Instr} {w : W32}

/-- A branch goes to its target when its comparison holds and on otherwise. -/
theorem Completes.of_branchOp {a b : Reg} {off : Half} {c : W64 → W64 → Bool} {p : Prop} [Decidable p]
    (hexec : exec i s = .next (s.runGrain g w (branchOp a b off c)))
    (hp : c ((s.grain g).x a.toNat) ((s.grain g).x b.toNat) = true ↔ p) :
    Completes s g i w (fun _ G => G)
      (if p then (BitVec.ofNat 64 (s.grain g).pc + off.signExtend 64).toNat else (s.grain g).pc + 1) :=
  .of_ok hexec fun _ => congrArg (fun pc => Except.ok (s.grain g, pc)) (if_congr hp rfl rfl)

end

/-- Settles O2: the jumps by their operation, each branch by its comparison. -/
theorem jumpsAndBranches : Obligations.JumpsAndBranches := by
  intro s g d a b off target x y pc
  exact ⟨.of_ok rfl fun _ => rfl, .of_ok rfl fun _ => rfl, .of_branchOp rfl beq_iff_eq, .of_branchOp rfl bne_iff_ne,
    .of_branchOp rfl BitVec.slt_iff_toInt_lt, .of_branchOp rfl (by simp [BitVec.slt, x, y]),
    .of_branchOp rfl BitVec.ult_iff_toNat_lt, .of_branchOp rfl (by simp [BitVec.ult, x, y])⟩

end Sys2Proof.Claims
end

section
/-!
O3, O4: loads and stores (R93, R95, R123, R126, R129).
-/
namespace Sys2Proof.Machine

theorem canRead_of {a n : Nat} (h : a + n ≤ 0x10000 ∨ (0x10000 ≤ a ∧ a + n ≤ 0x16000)) : canRead a n = true :=
  decide_eq_true h

theorem canWrite_of {a n : Nat} (h : a + n ≤ 0x10000 ∧ ∀ i < n, 0x800 ≤ a + i ∨ resultByte (a + i) = true) :
    canWrite a n = true := by
  simpa [canWrite] using h

end Sys2Proof.Machine

namespace Sys2Proof.Claims
open Sys2Proof.Machine

section
variable {s : State} {g : Nat} {i : Instr} {w : W32} {n : Nat} {a : Reg} {imm : Half}
  (halign : (s.grain g).ea a.toNat imm % n = 0)
include halign

/-- A load of an X register completes where the bytes are aligned and readable (R93, R123). -/
theorem WritesX.of_loadX {d : Reg} (hexec : exec i s = .next (s.runGrain g w (loadX n d a imm false)))
    (hread : canRead ((s.grain g).ea a.toNat imm) n = true) :
    WritesX s g i w d (BitVec.ofNat 64 (leNat ((s.grain g).bytes ((s.grain g).ea a.toNat imm) n))) :=
  .of_ok hexec fun c => loadX_ok c halign hread d

/-- A store completes where the bytes are aligned and may be written (R93, R95, R123). -/
theorem Completes.of_storeVal {v : Grain → Nat} (hexec : exec i s = .next (s.runGrain g w (storeVal n a imm v)))
    (hwrite : canWrite ((s.grain g).ea a.toNat imm) n = true) :
    Completes s g i w (fun _ G => G.store ((s.grain g).ea a.toNat imm) (leBytes n (v G))) ((s.grain g).pc + 1) :=
  .of_ok hexec fun c => storeVal_ok c halign hwrite v

end

/-- S(d) exists: the check of SLD and SST. -/
theorem needS_one {G : Grain} {d : Reg} (h : G.compat = false ∨ d.toNat < 16) : G.needS [d.toNat] = .ok () :=
  need_pos (by simpa using h)

/-- Settles O3: an aligned load of readable bytes takes them, and FLD and SLD pass the check before it. -/
theorem loads : Obligations.Loads := by
  intro s g d a imm ea flags
  exact ⟨fun ha hr => .of_loadX ha rfl (canRead_of hr), fun ha hr => .of_loadX ha rfl (canRead_of hr),
    fun ha hr => .of_loadX ha rfl (canRead_of hr), fun ha hr => .of_loadX ha rfl (canRead_of hr),
    fun ha hr hfp => .of_ok rfl fun _ =>
      (bind_of_ok (Grain.needFp_ok hfp) _).trans (bind_of_ok (load_ok ha (canRead_of hr)) _),
    fun ha hr hd => .of_ok rfl fun _ => (bind_of_ok (needS_one hd) _).trans (bind_of_ok (load_ok ha (canRead_of hr)) _)⟩

/-- Settles O4: an aligned store where the program may write puts its bytes, and FSD and SST pass the check before it. -/
theorem stores : Obligations.Stores := by
  intro s g d a imm ea flags
  exact ⟨fun ha hw => .of_storeVal ha rfl (canWrite_of hw), fun ha hw => .of_storeVal ha rfl (canWrite_of hw),
    fun ha hw => .of_storeVal ha rfl (canWrite_of hw), fun ha hw => .of_storeVal ha rfl (canWrite_of hw),
    fun ha hw hfp => .of_ok rfl fun c =>
      (bind_of_ok (Grain.needFp_ok hfp) _).trans (storeVal_ok c ha (canWrite_of hw) fun G => (G.f d.toNat).toNat),
    fun ha hw hd => .of_ok rfl fun c =>
      (bind_of_ok (needS_one hd) _).trans (storeVal_ok c ha (canWrite_of hw) fun G => (G.sreg d.toNat).toNat)⟩

end Sys2Proof.Claims
end

section
/-!
O6: floating-point instructions (R126, R127, R136).
-/
namespace Sys2Proof.Machine

/-- A floating-point instruction is ready under FLAGS.FP with a rounding field of 0 to 4 (R126, R127). -/
theorem Grain.fpReady_ok {G : Grain} {rm : BitVec 3} (hfp : G.header.flags.testBit 2 = true) (hrm : rm.toNat ≤ 4) :
    G.fpReady rm = .ok () :=
  (bind_of_ok (Grain.needFp_ok hfp) _).trans (need_pos hrm)

/-- Without FLAGS.FP, and with a rounding field of 5 to 7, it is ILLEGAL. -/
theorem Grain.fpReady_illegal {G : Grain} {rm : BitVec 3} (h : G.header.flags.testBit 2 = false ∨ 5 ≤ rm.toNat) :
    G.fpReady rm = .error (.fault causeIllegal) := by
  cases hfp : G.header.flags.testBit 2 with
  | false => exact bind_of_error (need_neg (by simp [hfp])) _
  | true =>
    have hrm : ¬rm.toNat ≤ 4 := Nat.not_le.2 (h.resolve_left (by simp [hfp]))
    exact (bind_of_ok (Grain.needFp_ok hfp) _).trans (need_neg hrm)

end Sys2Proof.Machine

namespace Sys2Proof.Claims
open Sys2Proof.Machine

section
variable {s : State} {g : Nat} {i : Instr} {w : W32} {rm : BitVec 3} {d : Reg} {f : Nat → Grain → Nat × Nat}
  {v flags : Nat}

/-- A floating-point operation that is ready writes its result to F(d) and adds its flags (R126). -/
theorem Completes.of_fpToF (hexec : exec i s = .next (s.runGrain g w (fpToF rm d f)))
    (hready : (s.grain g).fpReady rm = .ok ())
    (hv : f ((s.grain g).rounding rm) (s.grain g) = (v, flags) := by rfl) :
    Completes s g i w (fun _ G => (G.setF d.toNat (BitVec.ofNat 64 v)).raise flags) ((s.grain g).pc + 1) := by
  refine .of_ok hexec fun _ => (bind_of_ok hready _).trans ?_
  simp only [hv]
  rfl

/-- The same with its result in X(d). -/
theorem Completes.of_fpToX (hexec : exec i s = .next (s.runGrain g w (fpToX rm d f)))
    (hready : (s.grain g).fpReady rm = .ok ())
    (hv : f ((s.grain g).rounding rm) (s.grain g) = (v, flags) := by rfl) :
    Completes s g i w (fun _ G => (G.setX d.toNat (BitVec.ofNat 64 v)).raise flags) ((s.grain g).pc + 1) := by
  refine .of_ok hexec fun _ => (bind_of_ok hready _).trans ?_
  simp only [hv]
  rfl

variable (hready : (s.grain g).fpReady rm = .error (.fault causeIllegal))
include hready

theorem Faults.of_fpToF (hexec : exec i s = .next (s.runGrain g w (fpToF rm d f))) : Faults s g i w causeIllegal :=
  .of_error hexec fun _ => bind_of_error hready _

theorem Faults.of_fpToX (hexec : exec i s = .next (s.runGrain g w (fpToX rm d f))) : Faults s g i w causeIllegal :=
  .of_error hexec fun _ => bind_of_error hready _

end

/-- Settles O6: an instruction that is ready gives its value and its flags, and one that is not is ILLEGAL. -/
theorem floatingPoint : Obligations.FloatingPoint := by
  refine ⟨fun s g rm d a b hfp hrm => ?_, fun s g rm d a b h => ?_⟩
  · have hready := Grain.fpReady_ok hfp hrm
    exact ⟨.of_fpToF rfl hready, .of_fpToF rfl hready, .of_fpToF rfl hready, .of_fpToF rfl hready, .of_fpToF rfl hready,
      .of_fpToF rfl hready, .of_fpToF rfl hready, .of_fpToF rfl hready, .of_fpToF rfl hready, .of_fpToF rfl hready,
      .of_fpToX rfl hready, .of_fpToX rfl hready, .of_fpToX rfl hready, .of_fpToX rfl hready, .of_fpToF rfl hready,
      .of_fpToX rfl hready, .of_fpToF rfl hready⟩
  · have hready := Grain.fpReady_illegal h
    exact ⟨.of_fpToF hready rfl, .of_fpToF hready rfl, .of_fpToF hready rfl, .of_fpToF hready rfl, .of_fpToF hready rfl,
      .of_fpToF hready rfl, .of_fpToF hready rfl, .of_fpToX hready rfl, .of_fpToX hready rfl, .of_fpToX hready rfl,
      .of_fpToF hready rfl, .of_fpToF hready rfl, .of_fpToF hready rfl, .of_fpToX hready rfl, .of_fpToF hready rfl,
      .of_fpToX hready rfl, .of_fpToF hready rfl⟩

end Sys2Proof.Claims
end

section
/-!
O7: short-vector instructions (R105, R128, R129).
-/
namespace Sys2Proof.Claims
open Sys2Proof.Machine

section
variable {s : State} {g : Nat} {i : Instr} {w : W32}

/-- A short-vector operation on S registers that exist, at a width its table allows, writes its result to S(d). -/
theorem Completes.of_svOp {ok : Bool} {d : Reg} {srcs : List Reg} {f : Grain → W128} {v : W128}
    (hexec : exec i s = .next (s.runGrain g w (svOp ok d srcs f))) (hok : ok = true) (hv : f (s.grain g) = v := by rfl)
    (hregs : SRegs (s.grain g) (d :: srcs)) :
    Completes s g i w (fun _ G => G.setS d.toNat v) ((s.grain g).pc + 1) := by
  refine .of_ok hexec fun _ => (bind_of_ok (need_pos hok) _).trans ((bind_of_ok hregs.needS_ok _).trans ?_)
  rw [hv]
  rfl

end

/-- Settles O7: each instruction is an operation on S registers whose value is the one written down, but for VEXT, which
writes X(DST). -/
theorem shortVector : Obligations.ShortVector := by
  intro s g ew d a b n x y t i k next
  exact ⟨.of_svOp rfl rfl, .of_svOp rfl rfl, .of_svOp rfl rfl, .of_svOp rfl rfl, .of_svOp rfl rfl, .of_svOp rfl rfl,
    fun hew => .of_svOp rfl (decide_eq_true hew), fun hew => .of_svOp rfl (decide_eq_true hew),
    fun hew => .of_svOp rfl (decide_eq_true hew), .of_svOp rfl rfl, .of_svOp rfl rfl, .of_svOp rfl rfl,
    fun hew => .of_svOp rfl (decide_eq_true hew), fun hew => .of_svOp rfl (decide_eq_true hew),
    fun hew => .of_svOp rfl (decide_eq_true hew), .of_svOp rfl rfl, fun hb => .of_svOp rfl (decide_eq_true hb),
    fun hb h => .of_ok rfl fun _ => (bind_of_ok (need_pos hb) _).trans (bind_of_ok h.needS_ok _)⟩

end Sys2Proof.Claims
end

section
/-!
O8, O9: the SHA-2, Keccak, AES and TDES units (R130 to R133).
-/
namespace Sys2Proof.Machine

section
variable {G : Grain} {a align n : Nat}

/-- A unit's source bytes are read where they are aligned and readable (R93). -/
theorem Grain.unitRead_ok (halign : a % align = 0) (hr : canRead a n = true) : G.unitRead a align n = .ok (G.bytes a n) :=
  bind_of_ok (need_pos ⟨halign, hr⟩) _

variable {ok : Bool} {r : Reg} {put : Units → List Byte → Units}

/-- An unmasked key load from outside the key port's region takes its bytes at any alignment (R132). -/
theorem keyLoad_ok (c : GCtx) (hok : ok = true) (hout : keyRegion (G.x r.toNat).toNat n = false)
    (hr : canRead (G.x r.toNat).toNat n = true) :
    keyLoad n ok r put c G = .ok ({ G with units := put G.units (G.bytes (G.x r.toNat).toNat n) }, G.next) :=
  (bind_of_ok (need_pos ⟨hok, hout⟩) _).trans (bind_of_ok (Grain.unitRead_ok (Nat.mod_one _) hr) _)

/-- An unmasked key load from the key port's region is ILLEGAL. -/
theorem keyLoad_illegal (c : GCtx) (hin : keyRegion (G.x r.toNat).toNat n = true) :
    keyLoad n ok r put c G = .error (.fault causeIllegal) :=
  bind_of_error (need_neg (by simp [hin])) _

/-- A masked key load at masking order 1 takes the exclusive or of its shares (R132). -/
theorem keyLoadMasked_ok {c : GCtx} (hok : ok = true) (horder : c.order2 = false)
    (ha : canRead (G.x r.toNat).toNat n = true) (hb : canRead ((G.x r.toNat).toNat + 0x100) n = true) :
    keyLoadMasked n ok r put c G =
      let k := xorBytes (G.bytes (G.x r.toNat).toNat n) (G.bytes ((G.x r.toNat).toNat + 0x100) n)
      .ok ({ G with units := put G.units k }, G.next) :=
  (bind_of_ok (need_pos ⟨hok, horder⟩) _).trans ((bind_of_ok (Grain.unitRead_ok (Nat.mod_one _) ha) _).trans
    (bind_of_ok (Grain.unitRead_ok (Nat.mod_one _) hb) _))

end

end Sys2Proof.Machine

namespace Sys2Proof.Claims
open Sys2Proof.Machine

section
variable {s : State} {g : Nat} {i : Instr} {w : W32}

/-- At masking order 1 an instruction completes where its operation has its effect on the grain. -/
theorem OrderOne.of_ok {f : GrainOp} {eff : GCtx → Grain → Grain} {pc : Nat} (hexec : exec i s = .next (s.runGrain g w f))
    (hf : ∀ c, c.order2 = false → f c (s.grain g) = .ok (eff c (s.grain g), pc)) : OrderOne s g i w eff pc :=
  fun _ _ hfetch horder => hexec.trans (congrArg _ (runGrain_ok hfetch (hf _ horder)))

variable {d a : Reg} {f : List Byte → List Byte → List Byte} (hregs : SRegs (s.grain g) [d, a])
include hregs

/-- A block under the AES key (R131). -/
theorem Completes.of_aesBlock (hexec : exec i s = .next (s.runGrain g w (aesBlock d a f))) :
    Completes s g i w (fun c G => G.setS d.toNat
      (ofSBytes (underKey G.units.aesKey c.free 16 f (sBytes ((s.grain g).sreg a.toNat))))) ((s.grain g).pc + 1) :=
  .of_ok hexec fun _ => bind_of_ok hregs.needS_ok _

/-- A block under the TDES key, in bits 63:0 (R131). -/
theorem Completes.of_tdesBlock (hexec : exec i s = .next (s.runGrain g w (tdesBlock d a f))) :
    Completes s g i w (fun c G => G.setS d.toNat (lowHalf ((s.grain g).sreg d.toNat)
      (leNat (underKey G.units.tdesKey c.free 8 f (leBytes 8 ((s.grain g).sreg a.toNat).toNat))))) ((s.grain g).pc + 1) :=
  .of_ok hexec fun _ => bind_of_ok hregs.needS_ok _

end

/-- Settles O8: each instruction passes its check of variant, alignment and range, and does what it does. -/
theorem hashUnits : Obligations.HashUnits := by
  intro s g a v p next
  exact ⟨fun hv => .of_ok rfl fun _ => bind_of_ok (need_pos hv) _,
    fun hv => .of_error rfl fun _ => bind_of_error (need_neg (Nat.not_le.2 hv)) _,
    fun ha hr => .of_ok rfl fun _ => bind_of_ok (Grain.unitRead_ok ha hr) _,
    fun ha hw => .of_ok rfl fun _ => bind_of_ok (need_pos ⟨ha, hw⟩) _,
    fun hr => .of_ok rfl fun _ => bind_of_ok (Grain.unitRead_ok (Nat.mod_one p) hr) _,
    fun ha hw => .of_ok rfl fun _ => bind_of_ok (need_pos ⟨ha, hw⟩) _⟩

/-- Settles O9: the key loads by what they take, the blocks by their S registers. -/
theorem cipherUnits : Obligations.CipherUnits := by
  intro s g d a b n p x t next
  exact ⟨fun hb hout hr => .of_ok rfl fun c => keyLoad_ok c (decide_eq_true hb) hout hr,
    fun hb hin => .of_error rfl fun c => keyLoad_illegal c hin,
    fun hb hra hrb => .of_ok rfl fun c hc => keyLoadMasked_ok (decide_eq_true hb) hc hra hrb,
    fun hb hout hr => .of_ok rfl fun c => keyLoad_ok c (decide_eq_true hb) hout hr,
    fun hb hin => .of_error rfl fun c => keyLoad_illegal c hin,
    fun hb hra hrb => .of_ok rfl fun c hc => keyLoadMasked_ok (decide_eq_true hb) hc hra hrb,
    fun h => .of_aesBlock h rfl, fun h => .of_aesBlock h rfl, fun h => .of_tdesBlock h rfl, fun h => .of_tdesBlock h rfl⟩

end Sys2Proof.Claims
end

section
/-!
O11: control registers (R136, R142).
-/
namespace Sys2Proof.Machine

theorem ofNat_ofBool (b : Bool) : BitVec.ofNat 64 (ofBool b) = if b then 1 else 0 := by cases b <;> rfl

/-- A number outside the map of R136 is no control register. -/
theorem csrRead_unmapped {n : Nat} (c : GCtx) (G : Grain)
    (h : n ∉ [0x000, 0x001, 0x002, 0x010, 0x011, 0x012, 0x020, 0x021, 0x022, 0x023, 0x030, 0x040]) :
    csrRead c G n = none := by
  unfold csrRead
  split
  case h_13 => rfl
  all_goals exact absurd (by decide) h

section
variable (c : GCtx) (G : Grain) {v : Nat}

theorem csrWrite_fcsr (h : v % 8 < 4) : csrWrite c G 0x002 v =
    .ok { G with regs := { G.regs with fcsr := BitVec.ofNat 64 (v / 16 % 32 * 16 + v % 8) } } := by
  have hrm : bits v 2 0 = v % 8 := rfl
  have hflags : bits v 8 4 = v / 16 % 32 := by simp [bits, Nat.shiftRight_eq_div_pow]
  rw [← hrm] at h
  rw [← hflags, ← hrm]
  exact bind_of_ok (need_pos h) _

theorem csrWrite_vl (h : v * G.ew ≤ 8192) :
    csrWrite c G 0x010 v = .ok { G with regs := { G.regs with vl := v } } :=
  bind_of_ok (need_pos h) _

theorem csrWrite_lpub (h : v &&& G.header.pubLregs = v) : csrWrite c G 0x012 v = .ok (G.setLpub c.order2 v) :=
  bind_of_ok (need_pos h) _

/-- A read-only register, a number outside the map and a refused value are ILLEGAL (R136, R142). -/
theorem csrWrite_illegal {n : Nat} (h : n ∉ [0x002, 0x010, 0x011, 0x012] ∨ (n = 0x002 ∧ 4 ≤ v % 8) ∨
    (n = 0x010 ∧ 8192 < v * G.ew) ∨ (n = 0x012 ∧ v &&& G.header.pubLregs ≠ v)) :
    csrWrite c G n v = .error (.fault causeIllegal) := by
  rcases h with hn | ⟨rfl, hrm⟩ | ⟨rfl, hvl⟩ | ⟨rfl, hpub⟩
  · unfold csrWrite
    split
    case h_5 => rfl
    all_goals exact absurd (by decide) hn
  · exact bind_of_error (need_neg (Nat.not_lt.2 hrm)) _
  · exact bind_of_error (need_neg (Nat.not_le.2 hvl)) _
  · exact bind_of_error (need_neg hpub) _

end

end Sys2Proof.Machine

namespace Sys2Proof.Claims
open Sys2Proof.Machine

section
variable {s : State} {g : Nat} {a : Reg} {n : Half}

/-- CSRW goes on where its write is taken. -/
theorem Completes.of_csrWrite {k : Nat} {eff : GCtx → Grain → Grain} (hn : n.toNat = k)
    (hwrite : ∀ c, csrWrite c (s.grain g) k ((s.grain g).x a.toNat).toNat = .ok (eff c (s.grain g))) :
    Completes s g (.csrw g a n) (encI 0x31 0 a n) eff ((s.grain g).pc + 1) := by
  subst hn
  exact .of_ok rfl fun c => bind_of_ok (hwrite c) _

end

/-- Settles O11: CSRR by the map, CSRW by the rule of each register. -/
theorem controlRegisters : Obligations.ControlRegisters := by
  intro s g d a n j job G v next r w
  refine ⟨fun value hmem hfetch => congrArg _ (runGrain_ok hfetch ?_), fun hn => .of_error rfl fun c => ?_,
    fun hn hrm => .of_csrWrite hn fun c => csrWrite_fcsr c G hrm, fun hn hvl => .of_csrWrite hn fun c => csrWrite_vl c G hvl,
    fun hn => .of_csrWrite hn fun _ => rfl,
    fun hn hpub => .of_csrWrite hn fun c => csrWrite_lpub c G hpub,
    fun h => .of_error rfl fun c => bind_of_error (csrWrite_illegal c G h) _⟩
  · have hread : csrRead (s.gctx g j job) (s.grain g) n.toNat = some value := by
      simp only [List.mem_cons, List.not_mem_nil, or_false, Prod.mk.injEq] at hmem
      rcases hmem with ⟨hn, rfl⟩ | ⟨hn, rfl⟩ | ⟨hn, rfl⟩ | ⟨hn, rfl⟩ | ⟨hn, rfl⟩ | ⟨hn, rfl⟩ | ⟨hn, rfl⟩ | ⟨hn, rfl⟩ |
        ⟨hn, rfl⟩ | ⟨hn, rfl⟩ | ⟨hn, rfl⟩ | ⟨hn, rfl⟩ <;> rw [hn]
      case inr.inr.inr.inr.inl => exact congrArg some (ofNat_ofBool _)
      all_goals rfl
    simp only [hread]
    rfl
  · simp only [csrRead_unmapped c (s.grain g) hn]

end Sys2Proof.Claims
end

section
/-!
TDES decryption inverts TDES encryption, so that every 8-byte block is some block's encryption (R131).
-/
namespace Sys2Proof.Machine

/-- The last place of the table gives bit 0. -/
theorem desPermute_concat (n : Nat) (tbl : List Nat) (p v : Nat) :
    desPermute n (tbl ++ [p]) v = 2 * desPermute n tbl v + ofBool (v.testBit (n - p)) := by
  simp [desPermute]

/-- The bits of a permuted number. -/
theorem testBit_desPermute (n : Nat) (tbl : List Nat) (v i : Nat) :
    (desPermute n tbl v).testBit i = ((tbl.reverse[i]?).map fun p => v.testBit (n - p)).getD false := by
  induction tbl using List.reverseRecOn generalizing i with
  | nil => simp [desPermute]
  | append_singleton tbl p ih =>
    rw [desPermute_concat]
    cases i with
    | zero => cases h : v.testBit (n - p) <;> simp [ofBool, h, Nat.add_mod]
    | succ i =>
      have hbit : ofBool (v.testBit (n - p)) < 2 := by unfold ofBool; split <;> decide
      have hhalf : (2 * desPermute n tbl v + ofBool (v.testBit (n - p))) / 2 = desPermute n tbl v := by omega
      simp [Nat.testBit_succ, hhalf, ih]

theorem desPermute_lt (n : Nat) (tbl : List Nat) (v : Nat) : desPermute n tbl v < 2 ^ tbl.length :=
  Nat.lt_pow_two_of_testBit _ fun i hi => by
    rw [testBit_desPermute, List.getElem?_eq_none (by simpa using hi)]
    rfl

/-- Two permutations of 64 places that undo each other. -/
theorem desPermute_desPermute {t u : List Nat} {v : Nat} (hv : v < 2 ^ 64)
    (htu : ∀ i < 64, ((t.reverse[i]?).bind fun p => u.reverse[64 - p]?).map (64 - ·) = some i)
    (ht : t.length = 64) : desPermute 64 t (desPermute 64 u v) = v := by
  refine Nat.eq_of_testBit_eq fun i => ?_
  rw [testBit_desPermute]
  by_cases hi : i < 64
  · have h := htu i hi
    simp only [Option.map_eq_some_iff, Option.bind_eq_some_iff] at h
    obtain ⟨q, ⟨p, hp, hq⟩, rfl⟩ := h
    simp [hp, testBit_desPermute, hq]
  · rw [List.getElem?_eq_none (by simp [ht]; omega)]
    exact (Nat.testBit_lt_two_pow (hv.trans_le (Nat.pow_le_pow_right (by decide) (by omega)))).symm

theorem desFP_desIP {v : Nat} (hv : v < 2 ^ 64) : desPermute 64 desFP (desPermute 64 desIP v) = v :=
  desPermute_desPermute hv (by decide) rfl

theorem desIP_desFP {v : Nat} (hv : v < 2 ^ 64) : desPermute 64 desIP (desPermute 64 desFP v) = v :=
  desPermute_desPermute hv (by decide) rfl

/-- One round of DES on its two halves. -/
def desRound (p : Nat × Nat) (k : Nat) : Nat × Nat := (p.2, p.1 ^^^ desF p.2 k)

/-- The rounds with the keys in the other order, on the swapped halves, lead back. -/
theorem foldl_desRound_reverse (ks : List Nat) (p : Nat × Nat) :
    ks.reverse.foldl desRound (ks.foldl desRound p).swap = p.swap := by
  induction ks generalizing p with
  | nil => rfl
  | cons k ks ih =>
    rw [List.reverse_cons, List.foldl_append]
    show desRound (ks.reverse.foldl desRound (ks.foldl desRound (desRound p k)).swap) k = p.swap
    rw [ih]
    simp only [desRound, Prod.fst_swap, Prod.snd_swap, Nat.xor_xor_cancel_right]
    rfl

theorem desF_lt (r k : Nat) : desF r k < 2 ^ 32 := desPermute_lt _ _ _

theorem foldl_desRound_lt (ks : List Nat) {p : Nat × Nat} (hl : p.1 < 2 ^ 32) (hr : p.2 < 2 ^ 32) :
    (ks.foldl desRound p).1 < 2 ^ 32 ∧ (ks.foldl desRound p).2 < 2 ^ 32 := by
  induction ks generalizing p with
  | nil => exact ⟨hl, hr⟩
  | cons k ks ih => exact ih hr (Nat.xor_lt_two_pow hl (desF_lt _ _))

/-- The halves of a 64-bit number. -/
def desSplit (v : Nat) : Nat × Nat := (v / 2 ^ 32, v % 2 ^ 32)

/-- The number of two halves. -/
def desJoin (p : Nat × Nat) : Nat := p.1 * 2 ^ 32 + p.2

theorem desJoin_desSplit (v : Nat) : desJoin (desSplit v) = v := Nat.div_add_mod' v (2 ^ 32)

theorem desSplit_desJoin {p : Nat × Nat} (h : p.2 < 2 ^ 32) : desSplit (desJoin p) = p := by
  refine Prod.ext ?_ ?_ <;> simp only [desSplit, desJoin] <;> omega

theorem desPass_eq (ks : List Nat) (v : Nat) :
    desPass ks v = desPermute 64 desFP (desJoin (ks.foldl desRound (desSplit (desPermute 64 desIP v))).swap) := rfl

theorem desPass_lt (ks : List Nat) (v : Nat) : desPass ks v < 2 ^ 64 := desPermute_lt _ _ _

/-- A pass with the round keys in the other order undoes a pass. -/
theorem desPass_reverse (ks : List Nat) {v : Nat} (hv : v < 2 ^ 64) : desPass ks.reverse (desPass ks v) = v := by
  have hip : desPermute 64 desIP v < 2 ^ 64 := desPermute_lt _ _ _
  obtain ⟨hl, hr⟩ := foldl_desRound_lt ks (p := desSplit (desPermute 64 desIP v))
    (Nat.div_lt_of_lt_mul hip) (Nat.mod_lt _ (by decide))
  have hjoin : desJoin (ks.foldl desRound (desSplit (desPermute 64 desIP v))).swap < 2 ^ 64 := by
    simp only [desJoin, Prod.fst_swap, Prod.snd_swap]
    omega
  rw [desPass_eq ks.reverse, desPass_eq ks v, desIP_desFP hjoin, desSplit_desJoin hl, foldl_desRound_reverse,
    Prod.swap_swap, desJoin_desSplit, desFP_desIP hv]

theorem desEncryptNat_lt (key v : Nat) : desEncryptNat key v < 2 ^ 64 := desPass_lt _ _

theorem desDecryptNat_lt (key v : Nat) : desDecryptNat key v < 2 ^ 64 := desPass_lt _ _

theorem desEncrypt_desDecrypt (key : Nat) {v : Nat} (hv : v < 2 ^ 64) : desEncryptNat key (desDecryptNat key v) = v := by
  have h := desPass_reverse (desKeys key).reverse hv
  rwa [List.reverse_reverse] at h

theorem desDecrypt_desEncrypt (key : Nat) {v : Nat} (hv : v < 2 ^ 64) : desDecryptNat key (desEncryptNat key v) = v :=
  desPass_reverse (desKeys key) hv

theorem leBytes_leNat (bs : List Byte) : leBytes bs.length (leNat bs) = bs := by
  induction bs with
  | nil => rfl
  | cons b bs ih =>
    have hb := b.isLt
    have hdiv : (b.toNat + 256 * leNat bs) / 256 = leNat bs := by omega
    have hmod : BitVec.ofNat 8 (b.toNat + 256 * leNat bs) = b := BitVec.eq_of_toNat_eq (by simp; omega)
    simp only [List.length_cons, leBytes, leNat, hdiv, hmod, ih]

theorem beNat_beBytes {n v : Nat} (h : v < 256 ^ n) : beNat (beBytes n v) = v := by
  rw [beNat, beBytes, List.reverse_reverse, leNat_leBytes n v h]

theorem beBytes_beNat (bs : List Byte) : beBytes bs.length (beNat bs) = bs := by
  have h := leBytes_leNat bs.reverse
  rw [List.length_reverse] at h
  rw [beBytes, beNat, h, List.reverse_reverse]

theorem leNat_lt (bs : List Byte) : leNat bs < 256 ^ bs.length := by
  induction bs with
  | nil => decide
  | cons b bs ih =>
    have hb := b.isLt
    simp only [leNat, List.length_cons, Nat.pow_succ]
    omega

theorem tdesEncrypt_eq (key block : List Byte) : tdesEncrypt key block = beBytes 8 (desEncryptNat (tdesKeys key).2.2
    (desDecryptNat (tdesKeys key).2.1 (desEncryptNat (tdesKeys key).1 (beNat block)))) := rfl

theorem tdesDecrypt_eq (key block : List Byte) : tdesDecrypt key block = beBytes 8 (desDecryptNat (tdesKeys key).1
    (desEncryptNat (tdesKeys key).2.1 (desDecryptNat (tdesKeys key).2.2 (beNat block)))) := rfl

/-- Encryption of a decrypted 8-byte block gives the block back. -/
theorem tdesEncrypt_tdesDecrypt (key : List Byte) {block : List Byte} (h : block.length = 8) :
    tdesEncrypt key (tdesDecrypt key block) = block := by
  have hblock : beNat block < 2 ^ 64 := by
    have hlt := leNat_lt block.reverse
    rwa [List.length_reverse, h] at hlt
  rw [tdesEncrypt_eq, tdesDecrypt_eq, beNat_beBytes (desDecryptNat_lt _ _),
    desEncrypt_desDecrypt _ (desEncryptNat_lt _ _), desDecrypt_desEncrypt _ (desDecryptNat_lt _ _),
    desEncrypt_desDecrypt _ hblock, ← h, beBytes_beNat]

end Sys2Proof.Machine
end

section
/-!
O10: a masked TDES block on a grain whose table of S registers lists S0 twice. `State.Sound` says nothing of the tables of
registers, and `Map.set` takes only the first listing of a register out when it writes 0. On tables that list each register
once the written shares read back.
-/
namespace Sys2Proof.Machine
open Sys2Proof.Claims (HasAsked)

/-- A masked TDES block at masking order 1 puts the value exclusive-or the free share in S(d) and the share in S(d + 1)
(R131, R132). -/
theorem tdesBlockMasked_ok {d a : Reg} {f : List Byte → List Byte → List Byte} {c : GCtx} {G : Grain} {v r : Nat}
    (heven : d.toNat % 2 = 0 ∧ a.toNat % 2 = 0 ∧ c.order2 = false) (hregs : G.needS [d.toNat, a.toNat] = .ok ())
    (hv : tdesValue G c.free f (G.sreg a.toNat ^^^ G.sreg (a.toNat + 1)).toNat = v)
    (hr : Config.freeNat c.free 0 % 2 ^ 64 = r) :
    tdesBlockMasked d a f c G =
      let G1 := G.setS d.toNat (lowHalf (G.sreg d.toNat) (v ^^^ r))
      .ok (G1.setS (d.toNat + 1) (lowHalf (G1.sreg (d.toNat + 1)) r), G.next) := by
  subst hv hr
  exact (bind_of_ok (need_pos heven) _).trans (bind_of_ok hregs _)

/-- A grain that runs on and whose expander needs no seed reads back as its instruction leaves it. -/
theorem State.grain_runGrain_ok {s : State} {g : Nat} {w : W32} {f : GrainOp} {j pc : Nat} {job : Job} {G : Grain}
    (hfetch : s.fetching g w = some (j, job)) (hok : f (s.gctx g j job) (s.grain g) = .ok (G, pc))
    (hruns : G.state = .running) (hseed : G.expander.pending = false) :
    (s.runGrain g w f).grain g = G.retire (Config.cyclesTaken s.free) pc := by
  have hgrain : (s.spend.modGrain g fun _ => G.retire (Config.cyclesTaken s.free) pc).grain g =
      G.retire (Config.cyclesTaken s.free) pc :=
    State.grain_modGrain_of_ne fun h => by
      have hstate : GState.running = .unowned := hruns.symm.trans (congrArg Grain.state h)
      cases hstate
  rw [runGrain_ok hfetch hok, State.askForGrain_asked, hgrain]
  rw [HasAsked, hgrain]
  exact fun hpending => absurd hpending (by simp [Grain.retire, hseed])

/-- The free share of the first masked block of a device (log entry 1), in bits 63:0. -/
def firstShare : Nat := Config.freeNat 0 0 % 2 ^ 64

/-- A two-key TDES key. -/
def zeroKey : List Byte := List.replicate 16 0

/-- The block whose encryption is that share, so that the other share is 0. -/
def blockOfFirstShare : W128 := BitVec.ofNat 128 (leNat (tdesDecrypt zeroKey (leBytes 8 firstShare)))

/-- A grain that executes TDESENCM S0, S2 and lists S0 twice. -/
def listsS0Twice : Grain :=
  { state := .running, job := some 0, prog := some { textWords := 1 }, pm := [(0, encA 0x29 0 2 0 0x00C)]
    regs := { sv := [(0, 1), (0, 1), (2, blockOfFirstShare)] }, units := { tdesKey := some zeroKey } }

/-- The grain after it: S0 reads its second listing, and S1 the share. -/
def listsS0Once : Grain :=
  { listsS0Twice with regs := { sv := Map.set [(0, 1), (2, blockOfFirstShare)] 1 (lowHalf 0 firstShare) 0 } }

/-- A device whose grain 0 is that grain, with its job in the execute stage. -/
def deviceS0Twice : State := { State.reset with
  jobs := [(0, { pair := 0, index := 0, desc := {}, tenant := 1, stage := .execute, grain := some 0 })]
  grains := [(0, listsS0Twice)] }

theorem deviceS0Twice_sound : deviceS0Twice.Sound := by constructor <;> rfl

theorem firstShare_lt : firstShare < 2 ^ 64 := Nat.mod_lt _ (by decide)

theorem tdesValue_of_key {G : Grain} {k : List Byte} (h : G.units.tdesKey = some k) (free : Nat)
    (f : List Byte → List Byte → List Byte) (x : Nat) : tdesValue G free f x = leNat (f k (leBytes 8 x)) := by
  rw [tdesValue, h]
  rfl

/-- The encryption of the block is the share. -/
theorem encrypt_blockOfFirstShare : leNat (tdesEncrypt zeroKey (leBytes 8 blockOfFirstShare.toNat)) = firstShare := by
  have hlen : (tdesDecrypt zeroKey (leBytes 8 firstShare)).length = 8 := beBytes_length _ _
  have hlt := leNat_lt (tdesDecrypt zeroKey (leBytes 8 firstShare))
  rw [hlen] at hlt
  have hblock : blockOfFirstShare.toNat = leNat (tdesDecrypt zeroKey (leBytes 8 firstShare)) :=
    (BitVec.toNat_ofNat _ _).trans (Nat.mod_eq_of_lt (hlt.trans (by decide)))
  have hbytes := leBytes_leNat (tdesDecrypt zeroKey (leBytes 8 firstShare))
  rw [hlen] at hbytes
  rw [hblock, hbytes, tdesEncrypt_tdesDecrypt _ (leBytes_length _ _), leNat_leBytes _ _ firstShare_lt]

/-- That block is the exclusive or of S2 and S3. -/
theorem listsS0Twice_source :
    listsS0Twice.sreg (2 : Reg).toNat ^^^ listsS0Twice.sreg ((2 : Reg).toNat + 1) = blockOfFirstShare :=
  BitVec.xor_zero

/-- The operation writes 0 into S0 and the share into S1. -/
theorem tdesBlockMasked_listsS0Twice (c : GCtx) (hc : c.order2 = false) (hf : c.free = 0) :
    tdesBlockMasked 0 2 tdesEncrypt c listsS0Twice = .ok (listsS0Once, 1) := by
  have hshare : Config.freeNat c.free 0 % 2 ^ 64 = firstShare := by rw [hf, firstShare]
  have hv : tdesValue listsS0Twice c.free tdesEncrypt
      (listsS0Twice.sreg (2 : Reg).toNat ^^^ listsS0Twice.sreg ((2 : Reg).toNat + 1)).toNat = firstShare := by
    rw [tdesValue_of_key rfl, listsS0Twice_source, encrypt_blockOfFirstShare]
  rw [tdesBlockMasked_ok ⟨rfl, rfl, hc⟩ (need_pos (.inl rfl)) hv hshare, Nat.xor_self]
  rfl

theorem extractLsb'_lowHalf (old : W128) (v : Nat) : (lowHalf old v).extractLsb' 0 64 = BitVec.ofNat 64 v :=
  BitVec.extractLsb'_append_eq_right

/-- The low halves of its shares are 1 and the free share. -/
theorem listsS0Once_shares :
    (listsS0Once.sreg 0 ^^^ listsS0Once.sreg 1).extractLsb' 0 64 = 1 ^^^ BitVec.ofNat 64 firstShare := by
  have h0 : listsS0Once.sreg 0 = 1 := Map.get_set_ne _ _ (by decide)
  have h1 : listsS0Once.sreg 1 = lowHalf 0 firstShare := Map.get_set_self (by decide) _ _ _
  rw [h0, h1, BitVec.extractLsb'_xor, extractLsb'_lowHalf]
  rfl

/-- TDESENCM S0, S2 leaves the device's grain so. -/
theorem deviceS0Twice_runs : ∃ t n, exec (.tdesencm 0 0 2) deviceS0Twice = .next t ∧ t.grain 0 = listsS0Once.retire n 1 :=
  ⟨_, _, rfl, State.grain_runGrain_ok (j := 0) rfl (tdesBlockMasked_listsS0Twice _ rfl rfl) rfl rfl⟩

end Sys2Proof.Machine

namespace Sys2Proof.Claims
open Sys2Proof.Machine

/-- Refutes O10: on `deviceS0Twice` the share that TDESENCM writes into S0 is 0, which takes only the first listing of S0 out
of the table; S0 then reads 1, and the exclusive or of S0 and S1 is not the encryption. -/
theorem not_maskedCiphers : ¬ Obligations.MaskedCiphers := by
  intro h
  obtain ⟨-, -, hencrypt, -⟩ := h deviceS0Twice 0 0 2 rfl rfl (.inl rfl)
  obtain ⟨t, ht, -, hshares⟩ := hencrypt zeroKey rfl 0 _ rfl rfl
  obtain ⟨u, n, hu, hgrain⟩ := deviceS0Twice_runs
  cases Host.Outcome.next.inj (ht.symm.trans hu)
  have hsource : (deviceS0Twice.grain 0).sreg (2 : Reg).toNat ^^^ (deviceS0Twice.grain 0).sreg ((2 : Reg).toNat + 1) =
      blockOfFirstShare := listsS0Twice_source
  rw [hgrain, hsource, encrypt_blockOfFirstShare] at hshares
  have hone : 1 ^^^ BitVec.ofNat 64 firstShare = BitVec.ofNat 64 firstShare := listsS0Once_shares.symm.trans hshares
  have hbit := congrArg (BitVec.getLsbD · 0) hone
  simp at hbit

end Sys2Proof.Claims
end

section
/-!
How a long-vector instruction meets its statement: `lvInstr` checks it, and where its effect is the one written down, so is
what it does to the device (R138 to R148).
-/
namespace Sys2Proof.Machine

/-- A grain whose expander has the words draws them (R102). -/
theorem Grain.draw_some {G : Grain} {n : Nat} {x : Expander} (h : G.expander.draw n = some x) :
    G.draw n = .ok { G with expander := x } := by
  simp only [Grain.draw, h]

/-- A grain whose expander lacks the words stalls (R103). -/
theorem Grain.draw_none {G : Grain} {n : Nat} (h : G.expander.draw n = none) : G.draw n = .error .stall := by
  simp only [Grain.draw, h]

/-- A long-vector instruction that is legal and has elements to work on stops where its effect does. -/
theorem lvInstr_error {legal : GCtx → Grain → Bool} {eff : GCtx → Grain → Except Stop Grain} {c : GCtx} {G : Grain}
    {e : Stop} (hlegal : legal c G = true) (hvl : G.regs.vl * G.ew ≤ 8192) (h0 : G.regs.vl ≠ 0) (he : eff c G = .error e) :
    lvInstr legal eff c G = .error e :=
  (bind_of_ok (need_pos ⟨hlegal, hvl⟩) _).trans ((if_neg h0).trans (bind_of_error he _))

section
variable {f : GCtx → Grain → Except Stop Grain} {c : GCtx} {G : Grain}

/-- A microcoded instruction without trouble has its effect and leaves free scratch (R168). -/
theorem microcoded_ok {G' : Grain} (h : f c G = .ok G') :
    microcoded .none f c G = .ok { G' with micro := Config.freeMicro c.free } :=
  bind_of_ok h _

/-- A microcoded instruction without trouble stops where its effect does. -/
theorem microcoded_error {e : Stop} (h : f c G = .error e) : microcoded .none f c G = .error e := bind_of_error h _

/-- A microcoded instruction that meets trouble stops with it (R109, R174). -/
theorem microcoded_trouble {t : GrainTrouble} {e : Stop} (h : noTrouble t = .error e) : microcoded t f c G = .error e :=
  bind_of_error h _

end

end Sys2Proof.Machine

namespace Sys2Proof.Claims
open Sys2Proof.Machine

section
variable {s : State} {g : Nat} {i : Instr} {w : W32} {legal : GCtx → Grain → Bool} {f : GCtx → Grain → Except Stop Grain}
  {j : Nat} {job : Job} (hexec : exec i s = .next (s.runGrain g w (lvInstr legal f))) (hfetch : s.fetching g w = some (j, job))
include hexec hfetch

/-- With VL = 0 a legal instruction goes on and changes nothing (R148). -/
theorem exec_lvInstr_zero (hlegal : legal (s.gctx g j job) (s.grain g) = true) (h0 : (s.grain g).regs.vl = 0) :
    exec i s = .next (retired s g (s.grain g) ((s.grain g).pc + 1)) :=
  hexec.trans (congrArg _ (runGrain_ok hfetch (lvInstr_zero hlegal h0)))

/-- An instruction that its checks refuse is ILLEGAL. -/
theorem exec_lvInstr_illegal (h : legal (s.gctx g j job) (s.grain g) = false ∨ 8192 < (s.grain g).regs.vl * (s.grain g).ew) :
    exec i s = .next (s.stopGrain g j (.fault causeIllegal)) :=
  hexec.trans (congrArg _ (runGrain_error hfetch (lvInstr_illegal h)))

variable (hlegal : legal (s.gctx g j job) (s.grain g) = true) (hvl : (s.grain g).regs.vl * (s.grain g).ew ≤ 8192)
include hlegal hvl

/-- A legal instruction with elements to work on retires with its effect. -/
theorem exec_lvInstr_ok {G' : Grain} (h0 : (s.grain g).regs.vl ≠ 0) (hf : f (s.gctx g j job) (s.grain g) = .ok G') :
    exec i s = .next (retired s g G' ((s.grain g).pc + 1)) :=
  hexec.trans (congrArg _ (runGrain_ok hfetch (lvInstr_ok hlegal hvl h0 hf)))

/-- A legal instruction has its effect where there are elements to work on, and changes nothing where there are none. -/
theorem exec_lvInstr_ite {G' : Grain} (hf : (s.grain g).regs.vl ≠ 0 → f (s.gctx g j job) (s.grain g) = .ok G') :
    exec i s = .next (retired s g (if (s.grain g).regs.vl = 0 then s.grain g else G') ((s.grain g).pc + 1)) := by
  split
  case isTrue h0 => exact exec_lvInstr_zero hexec hfetch hlegal h0
  case isFalse h0 => exact exec_lvInstr_ok hexec hfetch hlegal hvl h0 (hf h0)

/-- A legal instruction with elements to work on stops where its effect does. -/
theorem exec_lvInstr_stops {e : Stop} (h0 : (s.grain g).regs.vl ≠ 0) (hf : f (s.gctx g j job) (s.grain g) = .error e) :
    exec i s = .next (s.stopGrain g j e) :=
  hexec.trans (congrArg _ (runGrain_error hfetch (lvInstr_error hlegal hvl h0 hf)))

end

section
variable {s : State} {g : Nat} {i : Instr} {w : W32} {legal : GCtx → Grain → Bool} {eff : GCtx → Grain → Grain}

/-- An instruction without further checks or words meets its statement where its effect is the one written down. -/
theorem LvRuns.of_ok {f : GCtx → Grain → Except Stop Grain} (hexec : exec i s = .next (s.runGrain g w (lvInstr legal f)))
    (hf : ∀ c, f c (s.grain g) = .ok (eff c (s.grain g)) := by exact fun _ => rfl) : LvRuns s g i w legal eff :=
  fun _ _ hfetch => ⟨fun hlegal hvl => exec_lvInstr_ite hexec hfetch hlegal hvl fun _ => hf _,
    exec_lvInstr_illegal hexec hfetch⟩

/-- So does an instruction with the one further check `P`, where what follows the check has that effect. -/
theorem LvNeeds.of_need {P : GCtx → Grain → Prop} [∀ c G, Decidable (P c G)]
    {k : GCtx → Grain → Unit → Except Stop Grain} {ready : GCtx → Grain → Bool} {cause : Nat}
    (hexec : exec i s = .next (s.runGrain g w (lvInstr legal fun c G => need (P c G) cause >>= k c G)))
    (hready : ∀ c, ready c (s.grain g) = true ↔ P c (s.grain g))
    (hk : ∀ c, k c (s.grain g) () = .ok (eff c (s.grain g)) := by exact fun _ => rfl) :
    LvNeeds s g i w legal ready cause eff := by
  intro j job hfetch G c
  refine ⟨fun hlegal hvl hr => exec_lvInstr_ite hexec hfetch hlegal hvl fun h0 => ?_, fun hlegal hvl h0 hr => ?_,
    exec_lvInstr_illegal hexec hfetch⟩
  · exact (bind_of_ok (need_pos ((hready c).1 (hr h0))) _).trans (hk c)
  · have hP : ¬P c G := fun hP => Bool.false_ne_true (hr.symm.trans ((hready c).2 hP))
    exact exec_lvInstr_stops hexec hfetch hlegal hvl h0 (bind_of_error (need_neg hP) _)

/-- The check of an instruction matters on its own grain only. -/
theorem LvNeeds.congr_legal {legal' ready : GCtx → Grain → Bool} {cause : Nat} (hn : LvNeeds s g i w legal ready cause eff)
    (h : ∀ c, legal c (s.grain g) = legal' c (s.grain g)) : LvNeeds s g i w legal' ready cause eff := by
  intro j job hfetch
  have hn := hn j job hfetch
  simp only [h] at hn
  exact hn

/-- So does a microcoded instruction that draws words, where what follows the draw has that effect (R103). -/
theorem LvDraws.of_microcoded {words : GCtx → Grain → Nat} {k : GCtx → Grain → Grain → Except Stop Grain}
    (hexec : exec i s = .next (s.runGrain g w (lvInstr legal (microcoded .none fun c G => G.draw (words c G) >>= k c G))))
    (hk : ∀ c x, let G := { s.grain g with expander := x }
      k c (s.grain g) G = .ok (eff c G) := by exact fun _ _ => rfl) :
    LvDraws s g i w legal words true eff := by
  intro j job hfetch G c
  refine ⟨fun hlegal hvl h0 => ⟨fun x hx => ?_, fun hx => ?_⟩, exec_lvInstr_zero hexec hfetch,
    exec_lvInstr_illegal hexec hfetch⟩
  · have hdrawn := (bind_of_ok (Grain.draw_some hx) (k c G)).trans (hk c x)
    exact exec_lvInstr_ok hexec hfetch hlegal hvl h0 (microcoded_ok hdrawn)
  · have hstall := bind_of_error (Grain.draw_none hx) (k c G)
    exact exec_lvInstr_stops hexec hfetch hlegal hvl h0 (microcoded_error hstall)

end

end Sys2Proof.Claims
end

section
/-!
O12, O13: arithmetic, shifts, comparisons and selection of long vectors (R151, R152).
-/
namespace Sys2Proof.Machine

theorem Grain.length_vec (G : Grain) (p : Pl) (n : Nat) : (G.vec p n).length = G.regs.vl := by
  simp [Grain.vec, elems]

/-- The number of the bits that hold depends on the bits below its width only. -/
theorem bitsWhere_congr {n : Nat} {f h : Nat → Bool} (hfh : ∀ i < n, f i = h i) : bitsWhere n f = bitsWhere n h :=
  List.foldl_ext _ _ _ fun _ i hi => by rw [hfh i (List.mem_range.1 hi)]

/-- An element of two combined vectors combines their elements. -/
theorem at0_combine {f : Nat → Nat → Nat} {xs ys : List Nat} {i : Nat} (hx : i < xs.length) (hy : i < ys.length) :
    at0 (combine f xs ys) i = f (at0 xs i) (at0 ys i) := by
  simp [at0, combine, hx, hy]

/-- A comparison's bits are those of the active elements that meet it. -/
theorem ok_compare (G : Grain) (o : LvOps) (f : Nat → Nat → Bool) :
    (let r := combine (fun a b => if f a b then 1 else 0) (G.vec .a (lreg o.src1)) (G.vec .a (lreg o.src2))
      let v := bitsWhere G.regs.vl fun i => G.active o.pred.toNat i && decide (at0 r i = 1)
      (.ok (G.setP o.dst.toNat (BitVec.ofNat 128 v)) : Except Stop Grain)) =
    .ok (G.setP o.dst.toNat (BitVec.ofNat 128 (bitsWhere G.regs.vl fun i =>
      G.active o.pred.toNat i && f (at0 (G.vec .a (lreg o.src1)) i) (at0 (G.vec .a (lreg o.src2)) i)))) := by
  refine congrArg (fun v => Except.ok (G.setP o.dst.toNat (BitVec.ofNat 128 v))) (bitsWhere_congr fun i hi => ?_)
  rw [at0_combine (by rwa [Grain.length_vec]) (by rwa [Grain.length_vec])]
  cases f _ _ <;> simp

end Sys2Proof.Machine

namespace Sys2Proof.Claims
open Sys2Proof.Machine

/-- Settles O12: the effect of each instruction is the one written down. -/
theorem longVectorArithmetic : Obligations.LongVectorArithmetic := by
  intro s g o
  exact ⟨.of_ok rfl, .of_ok rfl, .of_ok rfl, .of_ok rfl, .of_ok rfl, .of_ok rfl, .of_ok rfl, .of_ok rfl, .of_ok rfl,
    .of_ok rfl, .of_ok rfl, .of_ok rfl, .of_ok rfl, .of_ok rfl⟩

/-- Settles O13: the effect of each instruction is the one written down, that of a comparison by its bits. -/
theorem longVectorUnary : Obligations.LongVectorUnary := by
  intro s g o u
  exact ⟨.of_ok rfl, .of_ok rfl, .of_ok rfl, .of_ok rfl fun _ => ok_compare _ o _, .of_ok rfl fun _ => ok_compare _ o _,
    .of_ok rfl fun _ => ok_compare _ o _, .of_ok rfl, .of_ok rfl, .of_ok rfl, .of_ok rfl, .of_ok rfl, .of_ok rfl, .of_ok rfl⟩

end Sys2Proof.Claims
end

section
/-!
O14: predicate operations (R159).
-/
namespace Sys2Proof.Claims
open Sys2Proof.Machine

/-- Settles O14: the effect of each operation is the one written down, with P0 read as all ones by `Grain.p`. -/
theorem predicates : Obligations.Predicates := by
  intro s g d a b x y
  exact ⟨.of_ok rfl, .of_ok rfl, .of_ok rfl, .of_ok rfl, .of_ok rfl,
    .of_ok rfl fun _ => congrArg (fun n => Except.ok ((s.grain g).setX d.toNat (BitVec.ofNat 64 n))) (popCount_eq_countP x)⟩

end Sys2Proof.Claims
end

section
/-!
O15: stages and butterflies (R153).
-/
namespace Sys2Proof.Machine

/-- A butterfly writes the tops of its pairs to the group at DST and their bottoms to the next one. -/
theorem butterfly_eq (o : LvOps) (l : BitVec 4) (f : Nat → Nat → Nat → Nat → Nat × Nat) (c : GCtx) (G : Grain) :
    butterfly o l f c G = (shPlanes c o.sh).foldl (fun acc p =>
      let pair := fun i => f G.ew (at0 (G.vec p (lreg o.src1)) i) (at0 (G.vec p (lreg o.src2)) i) (at0 (G.vec .a (lreg l)) i)
      (acc.writeAll p (lreg o.dst) ((List.range G.regs.vl).map fun i => (pair i).1)).writeAll p (lreg o.dst + G.grp)
        ((List.range G.regs.vl).map fun i => (pair i).2)) G := by
  simp only [butterfly, List.map_map, Function.comp_def]

end Sys2Proof.Machine

namespace Sys2Proof.Claims
open Sys2Proof.Machine

/-- Settles O15: the effect of a stage is the one written down, that of a butterfly by its tops and bottoms. -/
theorem numberTheoreticTransform : Obligations.NumberTheoreticTransform := by
  intro s g o l
  exact ⟨.of_ok rfl, .of_ok rfl, .of_ok rfl fun _ => congrArg _ (butterfly_eq ..),
    .of_ok rfl fun _ => congrArg _ (butterfly_eq ..)⟩

end Sys2Proof.Claims
end

section
/-!
O16: loads, stores and permutations of long vectors (R154, R155).
-/
namespace Sys2Proof.Claims
open Sys2Proof.Machine

/-- Settles O16: each instruction's check is the one written down, and so is what follows it. -/
theorem longVectorMoves : Obligations.LongVectorMoves := by
  refine ⟨?_, fun s g o u => ?_⟩
  · intro s g r b p sh off ea
    exact ⟨.congr_legal (.of_need rfl fun _ => by simp [ea, lmAddress]) fun _ => rfl,
      .of_need rfl fun _ => by simp [ea, lmAddress]⟩
  · exact ⟨.of_need rfl fun _ => .rfl, .of_need rfl fun _ => .rfl, .of_ok rfl,
      .of_need rfl fun _ => by simp, .of_need rfl fun _ => by simp, .of_need rfl fun _ => decide_eq_true_iff,
      .of_need rfl fun _ => decide_eq_true_iff, .of_microcoded rfl⟩

end Sys2Proof.Claims
end

section
/-!
O17: VREJ on a grain of one beat whose source is its destination. The model's check lets an instruction of one beat overlap
(`apartFrom`, R147), and the statement's does not.
-/
namespace Sys2Proof.Machine

/-- VREJ L0, L0 from the element X0. -/
def rejOntoSource : LvOps := ⟨0, 0, 0, 0, 0, 0⟩

/-- A grain that executes it on one element. -/
def rejectsOntoSource : Grain :=
  { state := .running, job := some 0, prog := some { textWords := 1 }, pm := [(0, encLv2 0x3C rejOntoSource 0x03)]
    regs := { vl := 1 } }

/-- A device whose grain 0 is that grain, with its job in the execute stage. -/
def deviceRejOntoSource : State := { State.reset with
  jobs := [(0, { pair := 0, index := 0, desc := {}, tenant := 1, stage := .execute, grain := some 0 })]
  grains := [(0, rejectsOntoSource)] }

theorem deviceRejOntoSource_sound : deviceRejOntoSource.Sound := by constructor <;> rfl

/-- The instruction passes its check and has its effect, and its grain runs on without a seed to ask for. -/
theorem rejOntoSource_ok : ∃ w f job G,
    exec (.vrej 0 rejOntoSource) deviceRejOntoSource = .next (deviceRejOntoSource.runGrain 0 w f) ∧
    deviceRejOntoSource.fetching 0 w = some (0, job) ∧
    f (deviceRejOntoSource.gctx 0 0 job) (deviceRejOntoSource.grain 0) = .ok (G, 1) ∧
    G.state = .running ∧ G.expander.pending = false :=
  ⟨_, _, _, _, rfl, rfl, lvInstr_ok rfl (by decide) (by decide) rfl, rfl, rfl⟩

/-- It retires, and its grain runs on. -/
theorem deviceRejOntoSource_runs :
    ∃ t, exec (.vrej 0 rejOntoSource) deviceRejOntoSource = .next t ∧ (t.grain 0).state = .running := by
  obtain ⟨w, f, job, G, hexec, hfetch, hok, hruns, hseed⟩ := rejOntoSource_ok
  exact ⟨_, hexec, (congrArg Grain.state (State.grain_runGrain_ok hfetch hok hruns hseed)).trans hruns⟩

end Sys2Proof.Machine

namespace Sys2Proof.Claims
open Sys2Proof.Machine

/-- Refutes O17: on `deviceRejOntoSource` the instruction retires, and the clause on VREJ makes it ILLEGAL, after which the
grain scrubs. -/
theorem not_longVectorKeccak : ¬ Obligations.LongVectorKeccak := by
  intro h
  obtain ⟨-, -, -, -, -, -, -, -, hrej, -⟩ := h deviceRejOntoSource 0 rejOntoSource ⟨0, 0, 0, 0, 0⟩
  obtain ⟨-, -, hillegal⟩ := hrej rfl 0 _ rfl
  obtain ⟨t, hexec, hruns⟩ := deviceRejOntoSource_runs
  cases Host.Outcome.next.inj (hexec.symm.trans (hillegal (.inl rfl)))
  obtain ⟨-, hgrain⟩ := State.endExecution_failed (j := 0) rfl 0 0 (causeIllegal * 2 ^ 24 + 0 % 2 ^ 16)
    deviceRejOntoSource_sound (status := Status.programFault) (by decide)
  cases hruns.symm.trans (congrArg Grain.state hgrain)

end Sys2Proof.Claims
end

section
/-!
O18, O19: the masking gadgets and unmasking (R143, R157 to R159).
-/
namespace Sys2Proof.Machine

/-- The words that a gadget draws (R157, R158). -/
def gadgetWords (one two : Nat) (chk : Option Bool) (c : GCtx) (G : Grain) : Nat :=
  (if chk.isSome then 2 else 1) * ((if c.order2 then two else one) * G.beats)

/-- A gadget draws its words, compares its two results with CHK, and has its effect. -/
theorem gadget_eq (one two : Nat) (chk : Option Bool) (t : GrainTrouble) (eff : GCtx → Grain → Grain) :
    gadget one two chk t eff = microcoded t fun c G => G.draw (gadgetWords one two chk c G) >>= fun G1 =>
      if chk = some true then .error .check else .ok (eff c G1) := by
  cases chk with
  | none => simp only [gadgetWords, Option.isSome_none, Bool.false_eq_true, if_false, Nat.one_mul]; rfl
  | some b => rfl

end Sys2Proof.Machine

namespace Sys2Proof.Claims
open Sys2Proof.Machine

section
variable {s : State} {g : Nat} {i : Option Bool → GrainTrouble → Instr} {w : Option Bool → W32}
  {legal : GCtx → Grain → Bool} {one two : Nat} {eff : GCtx → Grain → Grain}

/-- A gadget meets its statement where its effect is the one written down (R157, R158). -/
theorem GadgetRuns.of_gadget
    (hexec : ∀ chk t, exec (i chk t) s = .next (s.runGrain g (w chk) (lvInstr legal (gadget one two chk t eff)))) :
    GadgetRuns s g i w legal one two eff := by
  simp only [gadget_eq] at hexec
  refine ⟨fun chk hchk => .of_microcoded (hexec chk .none) fun _ _ => if_neg hchk, ?_, ?_⟩
  · intro j job hfetch G c hlegal hvl h0 hdraw
    obtain ⟨x, hx⟩ := Option.isSome_iff_exists.1 hdraw
    exact exec_lvInstr_stops (e := .check) (hexec _ _) hfetch hlegal hvl h0
      (microcoded_error (bind_of_ok (Grain.draw_some hx) _))
  · intro chk j job hfetch G hlegal hvl h0
    exact ⟨exec_lvInstr_stops (e := .machine causeCsParity) (hexec _ _) hfetch hlegal hvl h0 (microcoded_trouble rfl),
      exec_lvInstr_stops (e := .machine causeMemEcc) (hexec _ _) hfetch hlegal hvl h0 (microcoded_trouble rfl)⟩

end

/-- Settles O18: the effect of each gadget is the one written down. -/
theorem maskingGadgets : Obligations.MaskingGadgets := by
  intro s g o u
  exact ⟨.of_gadget fun _ _ => rfl, .of_gadget fun _ _ => rfl, .of_gadget fun _ _ => rfl, .of_gadget fun _ _ => rfl,
    .of_gadget fun _ _ => rfl, .of_gadget fun _ _ => rfl, .of_gadget fun _ _ => rfl, .of_gadget fun _ _ => rfl⟩

/-- Settles O19: the effect of VMDECOMP, a gadget, and of the unmasking instructions is the one written down. -/
theorem decomposeAndUnmask : Obligations.DecomposeAndUnmask := by
  intro s g o u
  exact ⟨.of_gadget fun _ _ => rfl, .of_ok rfl, .of_ok rfl⟩

end Sys2Proof.Claims
end

section
/-!
O30, O31: the operations of groups 0x1, 0x2 and 0x3 (R195 to R235), by the law of a program that runs from its ENTRY to its end.
-/
namespace Sys2Proof.Claims
open Sys2Proof.Machine

/-! Cycles, expander words and the context of a result do not count. -/

theorem left_seen {s t : State} {j g : Nat} {job : Job} {r : OpResult} : Left s t j g job (seen r) ↔ Left s t j g job r :=
  Iff.rfl

/-- A command that is a program with result `f` produces any result of which the same counts. -/
theorem produces_of_seen {s : State} {j : Nat} {i : Instr} {k : OpKind → Bool} {f r : State → Job → OpResult}
    (hexec : exec i s = .next (s.runOp j k f)) (hf : ∀ job, seen (f s job) = seen (r s job)) : Produces s j i k r := by
  intro job g h hs he hx
  have hseen : Produces s j i k fun s job => seen (f s job) := produces_of_runOp hexec fun _ => rfl
  obtain ⟨t, hnext, hleft⟩ := hseen job g h hs he hx
  have hr : Left s t j g job (seen (r s job)) := hf job ▸ hleft
  exact ⟨t, hnext, left_seen.1 hr⟩

/-- A command that is the program with result `r` produces it. -/
theorem produces_of_exec {s : State} {j : Nat} {i : Instr} {k : OpKind → Bool} {r : State → Job → OpResult}
    (hexec : exec i s = .next (s.runOp j k r)) : Produces s j i k r :=
  produces_of_seen hexec fun _ => rfl

/-- A shared secret goes to the output or the claimed slot, whatever its program took (R201, R203). -/
theorem seen_shared (s : State) (job : Job) (out ss : List Byte) (cycles words : Nat) :
    seen (s.shared job out ss cycles words) = seen (s.shared job out ss 0 0) := by
  unfold State.shared
  split <;> rfl

/-- An inline key that its standard refuses, or the shared secret, whatever the program took (R205, R234). -/
theorem seen_encaps (s : State) (job : Job) (refused : Prop) [Decidable refused] (ct ss : List Byte) (cycles : Nat) :
    seen (if refused then { status := Status.inputInvalid, cycles := cycles } else s.shared job ct ss cycles 0) =
      seen (if refused then { status := Status.inputInvalid } else s.shared job ct ss 0 0) := by
  by_cases h : refused
  · rw [if_pos h, if_pos h]
    rfl
  · rw [if_neg h, if_neg h]
    exact seen_shared s job ct ss cycles 0

/-- A failed ciphertext compare or the shared secret, whatever the program took (R188, R201). -/
theorem seen_decaps (s : State) (job : Job) (faulted : Bool) (ss : List Byte) (cycles words : Nat) :
    seen (if faulted then { faultResult causeShareCheck cycles with words := words } else s.shared job [] ss cycles words) =
      seen (if faulted then { status := Status.faultDetected, detail := causeShareCheck * 2 ^ 24 }
        else s.shared job [] ss 0 0) := by
  cases faulted with
  | true => rfl
  | false => exact seen_shared s job [] ss cycles words

/-! A verification under one key ends with its verdict, and with VERIFY_FAIL where the input is too short (R203, R204). -/

/-- The verdict on the parts of a verification input, whose message representative is `rep`. -/
def partsVerdict (cls : Nat) (rep : List Byte → List Byte → List Byte) :
    Option (List Byte × List Byte × List Byte × List Byte) → OpResult
  | none => { status := Status.verifyFail }
  | some (pk, sig, ctx, m) => { status := if Config.sigOk cls pk (rep ctx m) sig then Status.ok else Status.verifyFail }

section
variable (s : State) (job : Job) (pre : Bool)

theorem seen_dsaVerify : seen (s.dsaVerify job pre) =
    partsVerdict (s.jobClass job) (representative pre (pPh job.desc.param))
      (verifyParts job (dsaPk job.set_) (dsaSig job.set_)) := by
  unfold State.dsaVerify
  dsimp only
  cases verifyParts job (dsaPk job.set_) (dsaSig job.set_) <;> rfl

theorem seen_slhVerify : seen (s.slhVerify job pre) =
    partsVerdict (s.jobClass job) (representative pre (pPh job.desc.param))
      (verifyParts job (2 * slhN job.set_) (slhSig job.set_)) := by
  unfold State.slhVerify
  dsimp only
  cases verifyParts job (2 * slhN job.set_) (slhSig job.set_) <;> rfl

end

/-- Settles O30: every operation is a program whose result is the one written down but for cycles and words
(`produces_of_seen`). -/
theorem latticeOperations : Obligations.LatticeOperations := by
  intro s j
  refine ⟨
    -- ML-KEM
    produces_of_seen rfl fun job => rfl,
    produces_of_seen rfl fun job => seen_encaps s job _ _ _ _,
    fun b => produces_of_seen rfl fun job => seen_decaps s job b _ _ _,
    -- ML-DSA
    produces_of_seen rfl fun job => rfl,
    fun f => produces_of_exec rfl, fun f => produces_of_exec rfl, fun f => produces_of_exec rfl, fun f => produces_of_exec rfl,
    produces_of_runOp rfl fun job => seen_dsaVerify s job false,
    produces_of_runOp rfl fun job => seen_dsaVerify s job true,
    -- FN-DSA
    produces_of_seen rfl fun job => ?fnKeygen,
    fun b => produces_of_exec rfl, fun b => produces_of_exec rfl, produces_of_exec rfl, produces_of_exec rfl⟩
  case fnKeygen =>
    dsimp only
    split <;> rfl

/-! A stateful verification ends with its verdict (R221). -/

theorem seen_hbsVerdict (scheme : Nat) (pk d : List Byte) (off stop cycles : Nat) (shape : Prop) [Decidable shape] :
    seen (hbsVerdict scheme pk d off stop cycles (decide shape)) =
      { status := if shape ∧ Config.sigOk scheme pk (d.drop stop) (slice d off (stop - off)) = true then Status.ok
          else Status.verifyFail } := by
  simp [seen, hbsVerdict, verdict]

/-- Settles O31: every operation is a program whose result is the one written down but for cycles and words
(`produces_of_seen`); a stateful verification reads its key, then its signature, and each may end it. -/
theorem hashAndCodeOperations : Obligations.HashAndCodeOperations := by
  intro s j
  refine ⟨
    -- SLH-DSA
    produces_of_seen rfl fun job => rfl,
    produces_of_seen rfl fun job => rfl, produces_of_seen rfl fun job => rfl,
    produces_of_seen rfl fun job => rfl, produces_of_seen rfl fun job => rfl,
    produces_of_runOp rfl fun job => seen_slhVerify s job false,
    produces_of_runOp rfl fun job => seen_slhVerify s job true,
    -- HSS, LMS and XMSS
    produces_of_seen rfl fun job => rfl, produces_of_seen rfl fun job => rfl,
    fun b => produces_of_exec rfl, fun b => produces_of_exec rfl, produces_of_exec rfl, produces_of_exec rfl,
    produces_of_runOp rfl fun job => ?hssVerify,
    produces_of_runOp rfl fun job => ?lmsVerify,
    -- HQC and Classic McEliece
    produces_of_seen rfl fun job => rfl,
    produces_of_seen rfl fun job => seen_encaps s job _ _ _ _,
    produces_of_seen rfl fun job => seen_shared s job _ _ _ _,
    fun b => produces_of_seen rfl fun job => seen_decaps s job b _ _ _,
    fun b => produces_of_seen rfl fun job => seen_decaps s job b _ _ _⟩
  case hssVerify =>
    dsimp only
    cases hbsKey job (28 + hbsN job.set_) 12 fun b => lmsTypesOk job.set_ b 4 with
    | error e => rfl
    | ok key =>
      obtain ⟨pk, off⟩ := key
      dsimp only
      split
      · rfl
      cases hssRest job.input (be32 job.input off) (off + 4) 0 with
      | none => rfl
      | some r => exact seen_hbsVerdict ..
  case lmsVerify =>
    dsimp only
    cases hbsKey job (24 + hbsN job.set_) 8 fun b => lmsTypesOk job.set_ b 0 with
    | error e => rfl
    | ok key =>
      obtain ⟨pk, off⟩ := key
      dsimp only
      cases lmsSigAt job.input off with
      | none => rfl
      | some r =>
        refine (seen_hbsVerdict ..).trans ?_
        rw [Nat.add_sub_cancel_left]

end Sys2Proof.Claims
end

section
/-!
O33: the operations of group 0x4 and the composites (R208 to R210, R248 to R252), by the law of a program that takes its
engine and then runs from its ENTRY to its end.
-/
namespace Sys2Proof.Machine

/-- Job `j` takes engine `n` for its program (R238, R248). -/
def State.takeEngine (s : State) (j n : Nat) : State :=
  s.modEngine n fun x =>
    { x.heldBy j with
      progs := satAdd 0xFFFFFFFF x.progs 1
      busy := satAdd (2 ^ 64 - 1) x.busy (Config.freeNat s.free 1) }

/-- The program of a job to which its engine is open takes the engine and runs. -/
theorem State.runEngineOp_open {s : State} {j g : Nat} {job : Job} {k : OpKind → Bool} {f : State → Job → OpResult}
    (h : s.opReady j k = some (job, g)) (htest : (s.engine ((s.grain g).x 1).toNat).state ≠ .test)
    (hopen : (s.engine ((s.grain g).x 1).toNat).openTo j = true) :
    s.runEngineOp j k f = (s.takeEngine j ((s.grain g).x 1).toNat).runOp j k f := by
  simp only [State.runEngineOp, h, htest, hopen, if_false, Bool.not_true, Bool.false_eq_true]
  rfl

end Sys2Proof.Machine

namespace Sys2Proof.Claims
open Sys2Proof.Machine

/-- A command that is an engine program with result `f` produces any result of which the same counts: the program takes its
engine, which changes no result, and then runs as a program without one does. -/
theorem engineProduces_of_seen {s : State} {j : Nat} {i : Instr} {k : OpKind → Bool} {f r : State → Job → OpResult}
    (hexec : exec i s = .next (s.runEngineOp j k f)) (hf : ∀ job, seen (f s job) = seen (r s job))
    (hengine : ∀ n e job, f (s.modEngine n e) job = f s job := by intros; rfl) : EngineProduces s j i k r := by
  intro job g h hs he hx htest hopen
  let u := s.takeEngine j ((s.grain g).x 1).toNat
  have hready : u.opReady j k = some (job, g) := h
  have hsound : u.Sound := sound_modEngine hs
  obtain ⟨t, ht, hvault, hjob, hrun⟩ := State.runOp_ends hready hsound he hx f
  refine ⟨_, hexec, ?_⟩
  have hleft : Left s (t.endOp j g { job with ctxNew := (f u job).ctx } (f u job)) j g job (seen (f u job)) :=
    left_seen.2 (left_endOp ht hvault hjob)
  rw [State.runEngineOp_open h htest hopen, hrun, ← left_seen, ← hf job, ← hengine]
  exact hleft

/-- A command that is the engine program with result `r` produces it. -/
theorem engineProduces_of_exec {s : State} {j : Nat} {i : Instr} {k : OpKind → Bool} {r : State → Job → OpResult}
    (hexec : exec i s = .next (s.runEngineOp j k r))
    (hengine : ∀ n e job, r (s.modEngine n e) job = r s job := by intros; rfl) : EngineProduces s j i k r :=
  engineProduces_of_seen hexec (fun _ => rfl) hengine

/-- A refusal or what follows it, whatever the program took. -/
theorem seen_refused {refused : Prop} [Decidable refused] {status cycles words : Nat} {f r : OpResult}
    (h : seen f = seen r) :
    seen (if refused then { status := status, cycles := cycles, words := words } else f) =
      seen (if refused then { status := status } else r) := by
  by_cases hr : refused
  · rw [if_pos hr, if_pos hr]
    rfl
  · rw [if_neg hr, if_neg hr]
    exact h

/-! A verification under an inline key first refuses a key or a value that its standard does not take (R251, R252). -/

/-- The verdict on the parts of an ECDSA verification input, whose message has the digest `digest`. -/
def ecdsaVerdict (job : Job) (cls : Nat) (digest : List Byte → List Byte) :
    Option (List Byte × List Byte × List Byte × List Byte) → OpResult
  | none => { status := Status.verifyFail }
  | some (q, sig, _, m) =>
    if job.desc.keyForm = 0 ∧ !uncompressed q then { status := Status.inputInvalid }
    else if job.desc.keyForm = 0 ∧ !onCurve cls q then { status := Status.pointInvalid }
    else { status := if ecdsaRange cls sig = true ∧ Config.sigOk cls q (digest m) sig = true then Status.ok
        else Status.verifyFail }

/-- The verdict on the parts of an RSA verification input, whose encoding of a digest `ok` judges. -/
def rsaVerdict (job : Job) (ok : List Byte → List Byte → Bool) :
    Option (List Byte × List Byte × List Byte × List Byte) → OpResult
  | none => { status := Status.verifyFail }
  | some (n, sig, _, m) =>
    if job.desc.keyForm = 0 ∧ !modulusOk n then { status := Status.inputInvalid }
    else if beNat n ≤ beNat sig then { status := Status.noncanonical }
    else verdict (ok (rsaHash (pPh job.desc.param) m) (beBytes (rsaN job.set_) (rsaPublic (beNat n) (beNat sig)))) 0

section
variable (s : State) (job : Job)

theorem seen_ecdsaVerify (digest : Bool) : seen (s.ecdsaVerify job digest) =
    seen (ecdsaVerdict job (s.jobClass job) (fun m => if digest then m else phDigest (pPh job.desc.param) m)
      (verifyParts job (curvePub (s.jobClass job)) (2 * curveL (s.jobClass job)))) := by
  unfold State.ecdsaVerify
  dsimp only
  cases verifyParts job (curvePub (s.jobClass job)) (2 * curveL (s.jobClass job)) with
  | none => rfl
  | some parts =>
    refine seen_refused (seen_refused ?_)
    simp only [verdict, Bool.and_eq_true]
    rfl

theorem seen_rsaVerify (ok : List Byte → List Byte → Bool) : seen (s.rsaVerify job ok) =
    seen (rsaVerdict job ok (verifyParts job (rsaN job.set_) (rsaN job.set_))) := by
  unfold State.rsaVerify
  dsimp only
  cases verifyParts job (rsaN job.set_) (rsaN job.set_) with
  | none => rfl
  | some parts => exact seen_refused (seen_refused rfl)

end

/-- A composite's verdict names in DETAIL the parts that fail, the ML-DSA part by 1 and the ECDSA part by 2 (R208). -/
theorem seen_compositeVerdict (one two : Bool) (cycles : Nat) :
    seen { verdict (one && two) cycles with detail := ofBool (!one) + 2 * ofBool (!two) } =
      seen { status := if one && two then Status.ok else Status.verifyFail
             detail := (if one then 0 else 1) + 2 * if two then 0 else 1 } := by
  cases one <;> cases two <;> rfl

/-- Settles O33: every operation is an engine program whose result is the one written down but for cycles and words
(`engineProduces_of_seen`); a refused key, point or value ends it before its verdict or secret (`seen_refused`). -/
theorem engineOperations : Obligations.EngineOperations := by
  intro s j
  refine ⟨
    -- key pairs
    engineProduces_of_exec rfl, engineProduces_of_exec rfl, engineProduces_of_exec rfl,
    -- ECDSA
    engineProduces_of_exec rfl, engineProduces_of_exec rfl,
    engineProduces_of_seen rfl fun job => seen_ecdsaVerify s job false,
    engineProduces_of_seen rfl fun job => seen_ecdsaVerify s job true,
    -- EdDSA and key agreement
    engineProduces_of_seen rfl fun job => rfl,
    engineProduces_of_seen rfl fun job => ?eddsaVerify,
    engineProduces_of_seen rfl fun job => seen_refused (seen_refused (seen_shared s job _ _ _ _)),
    -- RSA
    fun b => engineProduces_of_exec rfl, fun b => engineProduces_of_exec rfl,
    engineProduces_of_seen rfl fun job => seen_refused rfl,
    engineProduces_of_seen rfl fun job => seen_rsaVerify s job _,
    engineProduces_of_seen rfl fun job => seen_rsaVerify s job _,
    -- composites
    engineProduces_of_seen rfl fun job => ?compositeVerify,
    fun fault => engineProduces_of_seen rfl fun job => rfl⟩
  case eddsaVerify =>
    dsimp only
    cases verifyParts job (curvePub (s.jobClass job)) (2 * curveL (s.jobClass job)) with
    | none => rfl
    | some parts => exact seen_refused rfl
  case compositeVerify =>
    dsimp only
    cases verifyParts job (dsaPk job.set_ + compEc job.set_) (compSig job.set_) with
    | none => rfl
    | some parts =>
      obtain ⟨pk, sig, ctx, m⟩ := parts
      simp only [apply_ite Prod.fst, apply_ite Prod.snd]
      exact seen_refused (seen_refused (seen_compositeVerdict ..))

end Sys2Proof.Claims
end

section
/-!
O43, lemmas: the ends of a destruction (R323), of a floor write (R319, R335), of the shelf's restoration (R320) and of the
work on a stateful key (R224, R228).
-/
namespace Sys2Proof.Machine

variable {s : State} {k : Nat}

theorem execSlotDestroyDone_destroying (h : (s.slot k).destroying = true) : execSlotDestroyDone k s =
    .next ((s.modSlot k fun x => { state := .empty, owner := x.owner, system := x.system }).event .key 1) :=
  congrArg Host.Outcome.next (if_pos h)

/-! Budget floors. -/

/-- While MRAM writes are deferred no floor write ends. -/
theorem execBudgetFloorWriteDone_deferred (h : s.mramOk = false) : execBudgetFloorWriteDone k s = .next s :=
  congrArg Host.Outcome.next (if_pos (by rw [h]; rfl))

section
variable (hm : s.mramOk = true)
include hm

theorem execBudgetFloorWriteDone_charge (hf : (s.slot k).floorWrite = true) : execBudgetFloorWriteDone k s =
    .next ((s.modRecord k fun r => { r with floor := r.floor - 1024 }).modSlot k fun y => { y with floorWrite := false }) := by
  simp only [execBudgetFloorWriteDone, hm, hf, Bool.not_true, Bool.false_eq_true, if_false, if_true]

theorem execBudgetFloorWriteDone_lowering {b : Nat} {v : Via} {rest : List (Nat × Via)}
    (hf : (s.slot k).floorWrite = false) (hl : (s.slot k).lowering = (b, v) :: rest) : execBudgetFloorWriteDone k s =
    .next (State.respond ((((s.modRecord k fun r => { r with floor := min r.floor (b - 1024) }).modSlot k
      fun y => { y with lowering := rest }).lowerBudget k b)) v Status.ok []) := by
  simp only [execBudgetFloorWriteDone, hm, hf, hl, Bool.not_true, Bool.false_eq_true, if_false]
end

/-! The key shelf. -/

theorem execShelfRestoreDone_loading (h : s.vault.shelfLoading = true) (bad : List Nat) : execShelfRestoreDone bad s =
    .next ((s.vault.shelf.foldl (fun t e => t.restoreRecord bad e.1 e.2) s).modVault fun v =>
      { v with shelfLoading := false }) :=
  congrArg Host.Outcome.next (if_neg (by simp [h]))

@[simp] theorem State.logCreated_vault (k path : Nat) : (s.logCreated k path).vault = s.vault :=
  State.log_vault s _ _

section
variable {bad : List Nat}

theorem State.restoreRecord_valid (h : k ∉ bad) (r : ShelfRecord) :
    s.restoreRecord bad k r = (s.modSlot k fun _ => r.restore s.hzn.next).logCreated k 9 :=
  if_neg (mt List.contains_iff_mem.1 h)

theorem State.restoreRecord_invalid (h : k ∈ bad) (r : ShelfRecord) :
    s.restoreRecord bad k r = (s.modVault fun v => { v with shelf := v.shelf.erase k }).logKeyEvent 4 k 0 :=
  if_pos (List.contains_iff_mem.2 h)

/-- A restored slot is LOADED, so the table lists it. -/
theorem ShelfRecord.restore_ne_default (r : ShelfRecord) (seq : Nat) : r.restore seq ≠ {} :=
  fun h => nomatch (congrArg Slot.state h : SlotState.loaded = .unassigned)

theorem State.slot_restoreRecord_valid (h : k ∉ bad) (r : ShelfRecord) :
    (s.restoreRecord bad k r).slot k = r.restore s.hzn.next := by
  rw [State.restoreRecord_valid h, State.slot, State.logCreated_vault]
  exact State.slot_modSlot_of_ne (r.restore_ne_default _)

theorem State.vault_restoreRecord_invalid (h : k ∈ bad) (r : ShelfRecord) :
    (s.restoreRecord bad k r).vault = { s.vault with shelf := s.vault.shelf.erase k } := by
  rw [State.restoreRecord_invalid h, State.logKeyEvent_vault, State.modVault_vault]
end

/-! Stateful keys. -/

/-- The reservation that ends raises NEXT in the slot and in its record alike. -/
theorem execLeafReservationDone_reserving {st : Stateful} (hm : s.mramOk = true) (hs : (s.slot k).stateful = some st)
    (hr : st.reserving = true) :
    execLeafReservationDone k s = .next ((s.modStateful k Stateful.reserve).modRecord k fun r =>
      { r with stateful := r.stateful.map fun x => { x with next := min st.total (st.next + 1024) } }) := by
  unfold execLeafReservationDone
  rw [hs]
  exact congrArg Host.Outcome.next (if_neg (by simp [hr, hm]))

/-- A slot that holds a stateful key is listed, and the change of the key reads back. -/
theorem State.stateful_modStateful {st : Stateful} (h : (s.slot k).stateful = some st) (f : Stateful → Stateful) :
    ((s.modStateful k f).slot k).stateful = some (f st) := by
  have hf : (s.slot k).stateful.map f = some (f st) := congrArg (Option.map f) h
  rw [State.modStateful, State.slot_modSlot_of_ne fun hd =>
    nomatch (hf.symm.trans (congrArg Slot.stateful hd) : some (f st) = none)]
  exact hf

end Sys2Proof.Machine

namespace Sys2Proof.Claims
open Sys2Proof.Machine

/-- Settles O43: each event is the law of its operation; only an erased record needs the shelf in order (`Sound`). -/
theorem keyEvents : Obligations.KeyEvents := by
  intro s
  refine ⟨fun k h => execSlotDestroyDone_destroying h,
    fun k hm hf => execBudgetFloorWriteDone_charge hm hf,
    fun k b v rest hm hf hl => execBudgetFloorWriteDone_lowering hm hf hl,
    fun k h => execBudgetFloorWriteDone_deferred h,
    fun bad h => execShelfRestoreDone_loading h bad,
    fun bad k r h => State.slot_restoreRecord_valid h r,
    fun bad k r hs h => ?erased,
    fun k st hm hs hr => execLeafReservationDone_reserving hm hs hr,
    fun k => rfl,
    fun k st hs hr => ⟨_, rfl, ?rebuilt, rfl, rfl⟩⟩
  case erased =>
    rw [State.vault_restoreRecord_invalid h]
    exact ⟨Map.find?_erase_self hs.shelf k, rfl⟩
  case rebuilt => exact (State.stateful_modStateful hs _).trans (congrArg some (if_neg hr))

end Sys2Proof.Claims
end

section
/-!
O26: the commands of an engine without a modulus (R242), by the law of a command that its program fetches (R243, R245).
-/
namespace Sys2Proof.Machine

variable {e : Engine} {c : BitVec 2}

theorem Engine.counter_eq_zero : e.counter c = 0 ↔ e.counters.get c.toNat 0 = 0 :=
  BitVec.toNat_inj (y := 0#12)

/-- A counter that is not 0 counts down without borrowing. -/
theorem Engine.counter_pred (h : e.counters.get c.toNat 0 ≠ 0) :
    BitVec.ofNat 12 (e.counter c - 1) = e.counters.get c.toNat 0 - 1 := by
  rw [Engine.counter]
  bv_omega

end Sys2Proof.Machine

namespace Sys2Proof.Claims
open Sys2Proof.Machine

/-- A command that the engine accepts at the entry where its program stands has the effect that it gives there. -/
theorem commanded_of_exec {s : State} {n : Nat} {i : Instr} {w : W64} {cycles : Engine → Nat} {f : EngineOp}
    {eff : Engine → Engine} (hexec : exec i s = .next (s.runEngine n w cycles f))
    (hf : f { s.engine n with pc := (s.engine n).pc + 1 } = some (eff { s.engine n with pc := (s.engine n).pc + 1 })) :
    Commanded s n i w cycles eff :=
  fun hr hp hw => hexec.trans (congrArg Host.Outcome.next (runEngine_ok hr hp hw hf))

/-- Settles O26: each command's operation gives the effect written down (`commanded_of_exec`); RAWMAC, REVB and the checks
accept their operands, and DJNZ tests and counts a number where the statement has bits. -/
theorem engineCommands : Obligations.EngineCommands := by
  intro s n d a b i l k c w r v u w16 v32
  refine ⟨
    -- END and the accumulator
    commanded_of_exec rfl rfl, commanded_of_exec rfl rfl,
    fun hk => commanded_of_exec rfl (if_neg hk),
    commanded_of_exec rfl rfl,
    -- words
    commanded_of_exec rfl rfl, commanded_of_exec rfl rfl,
    fun hr hmax => commanded_of_exec rfl (if_neg (not_or.2 ⟨hr, Nat.not_lt.2 hmax⟩)),
    commanded_of_exec rfl rfl,
    -- counters
    commanded_of_exec rfl rfl, commanded_of_exec rfl (congrArg some ?djnz),
    -- checks and constants
    fun hv => commanded_of_exec rfl (if_neg (ne_false_of_eq_true hv)),
    fun hv => commanded_of_exec rfl (if_neg (ne_false_of_eq_true hv)),
    commanded_of_exec rfl rfl⟩
  case djnz =>
    refine ite_congr (propext Engine.counter_eq_zero) (fun _ => rfl) fun h => ?_
    rw [Engine.counter_pred h]

end Sys2Proof.Claims
end

section
/-!
O56, O57: a step runs the command at the front of the queue, and every command keeps the tables sound.
-/
namespace Sys2Proof.Machine

theorem step_nil {s : State} (h : s.pending = []) : step s = .next s := by rw [step, h]

theorem step_cons {s : State} {c : Instr} {rest : List Instr} (h : s.pending = c :: rest) :
    step s = exec c { s with pending := rest } := by rw [step, h]

/-- Whatever the command, it leads from a sound state to a sound state: the meaning of each of the 523 keeps the tables. -/
theorem sound_exec {s : State} (i : Instr) (h : s.Sound) : SoundResult (exec i s) := by
  cases i with
  | dieLinkIntegrityEvent => exact sound_execDieLinkIntegrityEvent h
  | zeroizeRequest => exact sound_execZeroizeRequest h
  | zeroizeScrubDone => exact sound_execZeroizeScrubDone h
  | sqAcknowledge => exact sound_execSqAcknowledge h
  | sqPendingIncrement => exact sound_execSqPendingIncrement h
  | guardFirstWrite => exact sound_execGuardFirstWrite h
  | guardPairTimeout => exact sound_execGuardPairTimeout h
  | armingLapse => exact sound_execArmingLapse h
  | postedWrite => exact sound_execPostedWrite h
  | postedWriteApplied => exact sound_execPostedWriteApplied h
  | registerWrite => exact sound_execRegisterWrite h
  | glbEpochRaise => exact sound_execGlbEpochRaise h
  | glbReset => exact sound_execGlbReset h
  | glbTenantRemove => exact sound_execGlbTenantRemove h
  | tenantRemoveDone => exact sound_execTenantRemoveDone h
  | keySlotDestroy => exact sound_execKeySlotDestroy h
  | slotDestroyDone => exact sound_execSlotDestroyDone h
  | bootRevoke => exact sound_execBootRevoke h
  | pgdHoldAssert => exact sound_execPgdHoldAssert h
  | pgdHoldRelease => exact sound_execPgdHoldRelease h
  | pgdSieveEn => exact sound_execPgdSieveEn h
  | pgdUpdWin => exact sound_execPgdUpdWin h
  | tmpCfgs => exact sound_execTmpCfgs h
  | lcsReq => exact sound_execLcsReq h
  | rngSrcSel => exact sound_execRngSrcSel h
  | queueEnable => exact sound_execQueueEnable h
  | queueDisable => exact sound_execQueueDisable h
  | queueDrainDone => exact sound_execQueueDrainDone h
  | sqTailDoorbell => exact sound_execSqTailDoorbell h
  | cqHeadDoorbell => exact sound_execCqHeadDoorbell h
  | descriptorFetch => exact sound_execDescriptorFetch h
  | jobPlacement => exact sound_execJobPlacement h
  | keyStage => exact sound_execKeyStage h
  | inputDmaDone => exact sound_execInputDmaDone h
  | outputStageDone => exact sound_execOutputStageDone h
  | irqCoalesceTimeout => exact sound_execIrqCoalesceTimeout h
  | msixVectorUnmask => exact sound_execMsixVectorUnmask h
  | dlogFlip => exact sound_execDlogFlip h
  | dlogFlipDone => exact sound_execDlogFlipDone h
  | perstAssert => exact sound_execPerstAssert h
  | functionLevelReset => exact sound_execFunctionLevelReset h
  | flrComplete => exact sound_execFlrComplete h
  | ideKmKeyProg => exact sound_execIdeKmKeyProg h
  | lockInterface => exact sound_execLockInterface h
  | startInterface => exact sound_execStartInterface h
  | stopInterface => exact sound_execStopInterface h
  | getDeviceInterfaceReport => exact sound_execGetDeviceInterfaceReport h
  | dmaFrameBoundary => exact sound_execDmaFrameBoundary h
  | linkRetrain => exact sound_execLinkRetrain h
  | tenantSet => exact sound_execTenantSet h
  | quiesce => exact sound_execQuiesce h
  | tenantDrained => exact sound_execTenantDrained h
  | resume => exact sound_execResume h
  | removeArm => exact sound_execRemoveArm h
  | migrateExport => exact sound_execMigrateExport h
  | migrateImport => exact sound_execMigrateImport h
  | globalArm => exact sound_execGlobalArm h
  | bedApplyDone => exact sound_execBedApplyDone h
  | bedGateOpen => exact sound_execBedGateOpen h
  | quadrantPllLock => exact sound_execQuadrantPllLock h
  | bedWakeDone => exact sound_execBedWakeDone h
  | bedIdleTimeout => exact sound_execBedIdleTimeout h
  | bedDormantEntryDone => exact sound_execBedDormantEntryDone h
  | quadrantPllUnlock => exact sound_execQuadrantPllUnlock h
  | pllRelockTimeout => exact sound_execPllRelockTimeout h
  | programLoadDone => exact sound_execProgramLoadDone h
  | grainScrubDone => exact sound_execGrainScrubDone h
  | cycleBoundReached => exact sound_execCycleBoundReached h
  | expanderSeedArrival => exact sound_execExpanderSeedArrival h
  | rngTimeout => exact sound_execRngTimeout h
  | csPatrolRead => exact sound_execCsPatrolRead h
  | csReloadDone => exact sound_execCsReloadDone h
  | add => exact sound_execAdd h
  | sub => exact sound_execSub h
  | and => exact sound_execAnd h
  | or => exact sound_execOr h
  | xor => exact sound_execXor h
  | andn => exact sound_execAndn h
  | sll => exact sound_execSll h
  | srl => exact sound_execSrl h
  | sra => exact sound_execSra h
  | rol => exact sound_execRol h
  | ror => exact sound_execRor h
  | slt => exact sound_execSlt h
  | sltu => exact sound_execSltu h
  | csel => exact sound_execCsel h
  | mul => exact sound_execMul h
  | mulhu => exact sound_execMulhu h
  | mulh => exact sound_execMulh h
  | divu => exact sound_execDivu h
  | remu => exact sound_execRemu h
  | sextb => exact sound_execSextb h
  | sexth => exact sound_execSexth h
  | sextw => exact sound_execSextw h
  | popcnt => exact sound_execPopcnt h
  | clz => exact sound_execClz h
  | jr => exact sound_execJr h
  | addi => exact sound_execAddi h
  | andi => exact sound_execAndi h
  | ori => exact sound_execOri h
  | xori => exact sound_execXori h
  | shi => exact sound_execShi h
  | movz => exact sound_execMovz h
  | movk => exact sound_execMovk h
  | ld => exact sound_execLd h
  | lw => exact sound_execLw h
  | lh => exact sound_execLh h
  | lb => exact sound_execLb h
  | sd => exact sound_execSd h
  | sw => exact sound_execSw h
  | sh => exact sound_execSh h
  | sb => exact sound_execSb h
  | fld => exact sound_execFld h
  | fsd => exact sound_execFsd h
  | sld => exact sound_execSld h
  | sst => exact sound_execSst h
  | beq => exact sound_execBeq h
  | bne => exact sound_execBne h
  | blt => exact sound_execBlt h
  | bge => exact sound_execBge h
  | bltu => exact sound_execBltu h
  | bgeu => exact sound_execBgeu h
  | jal => exact sound_execJal h
  | endJob => exact sound_execEndJob h
  | fadd => exact sound_execFadd h
  | fsub => exact sound_execFsub h
  | fmul => exact sound_execFmul h
  | fdiv => exact sound_execFdiv h
  | fsqrt => exact sound_execFsqrt h
  | fma => exact sound_execFma h
  | fmin => exact sound_execFmin h
  | fmax => exact sound_execFmax h
  | fneg => exact sound_execFneg h
  | fabs => exact sound_execFabs h
  | feq => exact sound_execFeq h
  | flt => exact sound_execFlt h
  | fle => exact sound_execFle h
  | fcvtld => exact sound_execFcvtld h
  | fcvtdl => exact sound_execFcvtdl h
  | fmvxd => exact sound_execFmvxd h
  | fmvdx => exact sound_execFmvdx h
  | svVadd => exact sound_execSvVadd h
  | svVsub => exact sound_execSvVsub h
  | svVand => exact sound_execSvVand h
  | svVor => exact sound_execSvVor h
  | svVxor => exact sound_execSvVxor h
  | svVandn => exact sound_execSvVandn h
  | svVshl => exact sound_execSvVshl h
  | svVsrl => exact sound_execSvVsrl h
  | svVsra => exact sound_execSvVsra h
  | svVcmpeq => exact sound_execSvVcmpeq h
  | svVcmpgt => exact sound_execSvVcmpgt h
  | svVsel => exact sound_execSvVsel h
  | svVmullo => exact sound_execSvVmullo h
  | svVmulhi => exact sound_execSvVmulhi h
  | svVpermb => exact sound_execSvVpermb h
  | svVsplat => exact sound_execSvVsplat h
  | svVins => exact sound_execSvVins h
  | svVext => exact sound_execSvVext h
  | shainit => exact sound_execShainit h
  | shablk => exact sound_execShablk h
  | shaout => exact sound_execShaout h
  | shald => exact sound_execShald h
  | aeskey => exact sound_execAeskey h
  | aeskeym => exact sound_execAeskeym h
  | aesenc => exact sound_execAesenc h
  | aesdec => exact sound_execAesdec h
  | aesencm => exact sound_execAesencm h
  | aesdecm => exact sound_execAesdecm h
  | tdeskey => exact sound_execTdeskey h
  | tdeskeym => exact sound_execTdeskeym h
  | tdesenc => exact sound_execTdesenc h
  | tdesdec => exact sound_execTdesdec h
  | tdesencm => exact sound_execTdesencm h
  | tdesdecm => exact sound_execTdesdecm h
  | kperm => exact sound_execKperm h
  | inpull => exact sound_execInpull h
  | outpush => exact sound_execOutpush h
  | bnput => exact sound_execBnput h
  | bnget => exact sound_execBnget h
  | bncmd => exact sound_execBncmd h
  | bngo => exact sound_execBngo h
  | bnwait => exact sound_execBnwait h
  | bnrel => exact sound_execBnrel h
  | csrr => exact sound_execCsrr h
  | csrw => exact sound_execCsrw h
  | vadd => exact sound_execVadd h
  | vsub => exact sound_execVsub h
  | vneg => exact sound_execVneg h
  | vcabs => exact sound_execVcabs h
  | vand => exact sound_execVand h
  | vor => exact sound_execVor h
  | vxor => exact sound_execVxor h
  | vandn => exact sound_execVandn h
  | vsll => exact sound_execVsll h
  | vsrl => exact sound_execVsrl h
  | vsra => exact sound_execVsra h
  | vcmpeq => exact sound_execVcmpeq h
  | vcmpltu => exact sound_execVcmpltu h
  | vcmpgeu => exact sound_execVcmpgeu h
  | vsel => exact sound_execVsel h
  | vsplat => exact sound_execVsplat h
  | vmul => exact sound_execVmul h
  | vmulm => exact sound_execVmulm h
  | vmac => exact sound_execVmac h
  | vmacm => exact sound_execVmacm h
  | vred => exact sound_execVred h
  | vkbmul => exact sound_execVkbmul h
  | vclmullo => exact sound_execVclmullo h
  | vclmulhi => exact sound_execVclmulhi h
  | vgfmul => exact sound_execVgfmul h
  | vgfinv => exact sound_execVgfinv h
  | vntts => exact sound_execVntts h
  | vintts => exact sound_execVintts h
  | vbfct => exact sound_execVbfct h
  | vbfgs => exact sound_execVbfgs h
  | vld => exact sound_execVld h
  | vst => exact sound_execVst h
  | vmov => exact sound_execVmov h
  | vgather => exact sound_execVgather h
  | vscatter => exact sound_execVscatter h
  | vcompact => exact sound_execVcompact h
  | vpermgen => exact sound_execVpermgen h
  | vgatherm => exact sound_execVgatherm h
  | vscatterm => exact sound_execVscatterm h
  | vext => exact sound_execVext h
  | vins => exact sound_execVins h
  | vkeccak => exact sound_execVkeccak h
  | vkabs => exact sound_execVkabs h
  | vsqz => exact sound_execVsqz h
  | vrej => exact sound_execVrej h
  | vcbd => exact sound_execVcbd h
  | vsib => exact sound_execVsib h
  | vrefreshb => exact sound_execVrefreshb h
  | vrefresha => exact sound_execVrefresha h
  | va2b => exact sound_execVa2b h
  | vb2a => exact sound_execVb2a h
  | vmand => exact sound_execVmand h
  | vmcmpeq => exact sound_execVmcmpeq h
  | vmcmplt => exact sound_execVmcmplt h
  | vmall => exact sound_execVmall h
  | vmdecomp => exact sound_execVmdecomp h
  | vunmaskb => exact sound_execVunmaskb h
  | vunmaska => exact sound_execVunmaska h
  | pand => exact sound_execPand h
  | por => exact sound_execPor h
  | pxor => exact sound_execPxor h
  | pandn => exact sound_execPandn h
  | psetn => exact sound_execPsetn h
  | pcnt => exact sound_execPcnt h
  | bnEnd => exact sound_execBnEnd h
  | modadd => exact sound_execModadd h
  | modsub => exact sound_execModsub h
  | modmul => exact sound_execModmul h
  | modsqr => exact sound_execModsqr h
  | modinv => exact sound_execModinv h
  | modexp => exact sound_execModexp h
  | modred => exact sound_execModred h
  | blind => exact sound_execBlind h
  | setmod => exact sound_execSetmod h
  | rawclr => exact sound_execRawclr h
  | rawmac => exact sound_execRawmac h
  | rawout => exact sound_execRawout h
  | join => exact sound_execJoin h
  | copy => exact sound_execCopy h
  | revb => exact sound_execRevb h
  | cswap => exact sound_execCswap h
  | setc => exact sound_execSetc h
  | djnz => exact sound_execDjnz h
  | chkeq => exact sound_execChkeq h
  | chknz => exact sound_execChknz h
  | ldi => exact sound_execLdi h
  | bneScrubDone => exact sound_execBneScrubDone h
  | katSchedule => exact sound_execKatSchedule h
  | katDone => exact sound_execKatDone h
  | agingRead => exact sound_execAgingRead h
  | obsCounterLoRead => exact sound_execObsCounterLoRead h
  | digCtlWrite => exact sound_execDigCtlWrite h
  | digDataWrite => exact sound_execDigDataWrite h
  | digLastWrite => exact sound_execDigLastWrite h
  | digLenWrite => exact sound_execDigLenWrite h
  | digAddrHiWrite => exact sound_execDigAddrHiWrite h
  | digDmaDone => exact sound_execDigDmaDone h
  | digResultReady => exact sound_execDigResultReady h
  | noiseBlockDone => exact sound_execNoiseBlockDone h
  | sourceCalibrationDone => exact sound_execSourceCalibrationDone h
  | conditionerSeedOut => exact sound_execConditionerSeedOut h
  | rngFirstSeedTimeout => exact sound_execRngFirstSeedTimeout h
  | drbgInstantiate => exact sound_execDrbgInstantiate h
  | drbgGenerateDone => exact sound_execDrbgGenerateDone h
  | drbgReseedDone => exact sound_execDrbgReseedDone h
  | keyPortBufferRefill => exact sound_execKeyPortBufferRefill h
  | rngCaptureStart => exact sound_execRngCaptureStart h
  | rngCaptureDone => exact sound_execRngCaptureDone h
  | randomBytes => exact sound_execRandomBytes h
  | randomBytesPr => exact sound_execRandomBytesPr h
  | conditionedEntropy => exact sound_execConditionedEntropy h
  | nop => exact sound_execNop h
  | mlKemKeygen => exact sound_execMlKemKeygen h
  | mlKemEncaps => exact sound_execMlKemEncaps h
  | mlKemDecaps => exact sound_execMlKemDecaps h
  | mlDsaKeygen => exact sound_execMlDsaKeygen h
  | mlDsaSignHedged => exact sound_execMlDsaSignHedged h
  | mlDsaSignDeterministic => exact sound_execMlDsaSignDeterministic h
  | hashmlDsaSignHedged => exact sound_execHashmlDsaSignHedged h
  | hashmlDsaSignDeterministic => exact sound_execHashmlDsaSignDeterministic h
  | mlDsaVerify => exact sound_execMlDsaVerify h
  | hashmlDsaVerify => exact sound_execHashmlDsaVerify h
  | fnDsaKeygen => exact sound_execFnDsaKeygen h
  | fnDsaSign => exact sound_execFnDsaSign h
  | hashfnDsaSign => exact sound_execHashfnDsaSign h
  | fnDsaVerify => exact sound_execFnDsaVerify h
  | hashfnDsaVerify => exact sound_execHashfnDsaVerify h
  | compositeSign => exact sound_execCompositeSign h
  | compositeVerify => exact sound_execCompositeVerify h
  | slhDsaKeygen => exact sound_execSlhDsaKeygen h
  | slhDsaSignHedged => exact sound_execSlhDsaSignHedged h
  | slhDsaSignDeterministic => exact sound_execSlhDsaSignDeterministic h
  | hashslhDsaSignHedged => exact sound_execHashslhDsaSignHedged h
  | hashslhDsaSignDeterministic => exact sound_execHashslhDsaSignDeterministic h
  | slhDsaVerify => exact sound_execSlhDsaVerify h
  | hashslhDsaVerify => exact sound_execHashslhDsaVerify h
  | hssKeygen => exact sound_execHssKeygen h
  | hssSign => exact sound_execHssSign h
  | hssVerify => exact sound_execHssVerify h
  | lmsVerify => exact sound_execLmsVerify h
  | xmssMtKeygen => exact sound_execXmssMtKeygen h
  | xmssMtSign => exact sound_execXmssMtSign h
  | xmssVerify => exact sound_execXmssVerify h
  | xmssMtVerify => exact sound_execXmssMtVerify h
  | leafReservationDone => exact sound_execLeafReservationDone h
  | treeRestorationJob => exact sound_execTreeRestorationJob h
  | hqcKeygen => exact sound_execHqcKeygen h
  | hqcEncaps => exact sound_execHqcEncaps h
  | mcelieceEncaps => exact sound_execMcelieceEncaps h
  | hqcDecaps => exact sound_execHqcDecaps h
  | mcelieceDecaps => exact sound_execMcelieceDecaps h
  | ecdsaKeygen => exact sound_execEcdsaKeygen h
  | ecdsaSignMessage => exact sound_execEcdsaSignMessage h
  | ecdsaSignDigest => exact sound_execEcdsaSignDigest h
  | ecdsaVerifyMessage => exact sound_execEcdsaVerifyMessage h
  | ecdsaVerifyDigest => exact sound_execEcdsaVerifyDigest h
  | eddsaKeygen => exact sound_execEddsaKeygen h
  | eddsaSign => exact sound_execEddsaSign h
  | eddsaVerify => exact sound_execEddsaVerify h
  | kaKeygen => exact sound_execKaKeygen h
  | kaDerive => exact sound_execKaDerive h
  | rsassaPssSign => exact sound_execRsassaPssSign h
  | rsaesOaepDecrypt => exact sound_execRsaesOaepDecrypt h
  | rsaesOaepEncrypt => exact sound_execRsaesOaepEncrypt h
  | rsassaPssVerify => exact sound_execRsassaPssVerify h
  | pkcs1V15Verify => exact sound_execPkcs1V15Verify h
  | hash => exact sound_execHash h
  | hmacGenerate => exact sound_execHmacGenerate h
  | hmacVerify => exact sound_execHmacVerify h
  | kmacGenerate => exact sound_execKmacGenerate h
  | kmacVerify => exact sound_execKmacVerify h
  | aesEncrypt => exact sound_execAesEncrypt h
  | aesDecrypt => exact sound_execAesDecrypt h
  | tdesEncrypt => exact sound_execTdesEncrypt h
  | tdesDecrypt => exact sound_execTdesDecrypt h
  | cmacGenerate => exact sound_execCmacGenerate h
  | cmacVerify => exact sound_execCmacVerify h
  | wrap => exact sound_execWrap h
  | unwrap => exact sound_execUnwrap h
  | pinTranslate => exact sound_execPinTranslate h
  | pinCompare => exact sound_execPinCompare h
  | macAlgorithm3Generate => exact sound_execMacAlgorithm3Generate h
  | macAlgorithm3Verify => exact sound_execMacAlgorithm3Verify h
  | dukptInitialKeyExport => exact sound_execDukptInitialKeyExport h
  | dukptPinTranslate => exact sound_execDukptPinTranslate h
  | dukptCmacGenerate => exact sound_execDukptCmacGenerate h
  | dukptCmacVerify => exact sound_execDukptCmacVerify h
  | keyBlockImport => exact sound_execKeyBlockImport h
  | keyBlockExport => exact sound_execKeyBlockExport h
  | slotPrepare => exact sound_execSlotPrepare h
  | symmetricGenerate => exact sound_execSymmetricGenerate h
  | importPublicKey => exact sound_execImportPublicKey h
  | importWrapped => exact sound_execImportWrapped h
  | importBlob => exact sound_execImportBlob h
  | exportBlob => exact sound_execExportBlob h
  | derive => exact sound_execDerive h
  | readPublicKey => exact sound_execReadPublicKey h
  | contextOpen => exact sound_execContextOpen h
  | contextStep => exact sound_execContextStep h
  | contextClose => exact sound_execContextClose h
  | contextDiscard => exact sound_execContextDiscard h
  | ownerExtension => exact sound_execOwnerExtension h
  | mctpMessage => exact sound_execMctpMessage h
  | budgetFloorWriteDone => exact sound_execBudgetFloorWriteDone h
  | shelfRestoreDone => exact sound_execShelfRestoreDone h
  | slotAssign => exact sound_execSlotAssign h
  | budgetLower => exact sound_execBudgetLower h
  | destroyArm => exact sound_execDestroyArm h
  | settleHoldStart => exact sound_execSettleHoldStart h
  | settleHoldRelease => exact sound_execSettleHoldRelease h
  | settleHoldTimeout => exact sound_execSettleHoldTimeout h
  | topsoilBrownOut => exact sound_execTopsoilBrownOut h
  | subsoilBrownOut => exact sound_execSubsoilBrownOut h
  | vddSmWarning => exact sound_execVddSmWarning h
  | vddSmRelease => exact sound_execVddSmRelease h
  | vddSWarning => exact sound_execVddSWarning h
  | powerOnReset => exact sound_execPowerOnReset h
  | porRelease => exact sound_execPorRelease h
  | sysResetAssert => exact sound_execSysResetAssert h
  | sysResetRelease => exact sound_execSysResetRelease h
  | subsoilPllLock => exact sound_execSubsoilPllLock h
  | fullResetStart => exact sound_execFullResetStart h
  | rootSecretRenewal => exact sound_execRootSecretRenewal h
  | sealCheckStart => exact sound_execSealCheckStart h
  | sealCheckDone => exact sound_execSealCheckDone h
  | topsoilPowerUp => exact sound_execTopsoilPowerUp h
  | startOk => exact sound_execStartOk h
  | bringupTimeout => exact sound_execBringupTimeout h
  | loamWatchdogTimeout => exact sound_execLoamWatchdogTimeout h
  | loamMachineCheck => exact sound_execLoamMachineCheck h
  | imageBegin => exact sound_execImageBegin h
  | imageData => exact sound_execImageData h
  | imageCommit => exact sound_execImageCommit h
  | imageActivate => exact sound_execImageActivate h
  | revokeArm => exact sound_execRevokeArm h
  | fallowStatus => exact sound_execFallowStatus h
  | fallowExit => exact sound_execFallowExit h
  | channelInitDone => exact sound_execChannelInitDone h
  | manifestVerifyDone => exact sound_execManifestVerifyDone h
  | blockScanDone => exact sound_execBlockScanDone h
  | holdAutoRelease => exact sound_execHoldAutoRelease h
  | hostFlashRead => exact sound_execHostFlashRead h
  | hostFlashProgram => exact sound_execHostFlashProgram h
  | hostFlashErase => exact sound_execHostFlashErase h
  | hostFlashStatus => exact sound_execHostFlashStatus h
  | hostFlashConfig => exact sound_execHostFlashConfig h
  | hostFlashReset => exact sound_execHostFlashReset h
  | watchedCompletionRead => exact sound_execWatchedCompletionRead h
  | watchedBlockHashDone => exact sound_execWatchedBlockHashDone h
  | updateWindowTimeout => exact sound_execUpdateWindowTimeout h
  | flashIdleTimeout => exact sound_execFlashIdleTimeout h
  | sieveSet => exact sound_execSieveSet h
  | pgdArm => exact sound_execPgdArm h
  | platformCycle => exact sound_execPlatformCycle h
  | hostImageBegin => exact sound_execHostImageBegin h
  | hostImageData => exact sound_execHostImageData h
  | hostImageCommit => exact sound_execHostImageCommit h
  | lcStage => exact sound_execLcStage h
  | lcDirectRequest => exact sound_execLcDirectRequest h
  | tapInstruction => exact sound_execTapInstruction h
  | tamperSampleTick => exact sound_execTamperSampleTick h
  | loopMismatch => exact sound_execLoopMismatch h
  | voltageTamper => exact sound_execVoltageTamper h
  | temperatureReading => exact sound_execTemperatureReading h
  | clockMonitorWindow => exact sound_execClockMonitorWindow h
  | oscillatorFallback => exact sound_execOscillatorFallback h
  | tamperOutRelease => exact sound_execTamperOutRelease h
  | evidenceIncrementDone => exact sound_execEvidenceIncrementDone h
  | lockStatus => exact sound_execLockStatus h
  | unlock => exact sound_execUnlock h
  | tamperArm => exact sound_execTamperArm h
  | getVersion => exact sound_execGetVersion h
  | getCapabilities => exact sound_execGetCapabilities h
  | negotiateAlgorithms => exact sound_execNegotiateAlgorithms h
  | getDigests => exact sound_execGetDigests h
  | getCertificate => exact sound_execGetCertificate h
  | challenge => exact sound_execChallenge h
  | getMeasurements => exact sound_execGetMeasurements h
  | keyExchange => exact sound_execKeyExchange h
  | finish => exact sound_execFinish h
  | heartbeat => exact sound_execHeartbeat h
  | heartbeatTimeout => exact sound_execHeartbeatTimeout h
  | keyUpdate => exact sound_execKeyUpdate h
  | endSession => exact sound_execEndSession h
  | setCertificate => exact sound_execSetCertificate h
  | chunkSend => exact sound_execChunkSend h
  | chunkGet => exact sound_execChunkGet h
  | managerBind => exact sound_execManagerBind h
  | setEndpointId => exact sound_execSetEndpointId h
  | checkpoint => exact sound_execCheckpoint h
  | checkpointAck => exact sound_execCheckpointAck h
  | logRead => exact sound_execLogRead h
  | keyUsage => exact sound_execKeyUsage h
  | timeSet => exact sound_execTimeSet h
  | ceremonyApprove => exact sound_execCeremonyApprove h
  | ceremonyExpiry => exact sound_execCeremonyExpiry h
  | uncMkeyNew => exact sound_execUncMkeyNew h
  | uncMkeyJoin => exact sound_execUncMkeyJoin h
  | uncEpoch => exact sound_execUncEpoch h
  | uncReenumerate => exact sound_execUncReenumerate h
  | keepalive => exact sound_execKeepalive h
  | keepaliveTimer => exact sound_execKeepaliveTimer h
  | linkLossTimeout => exact sound_execLinkLossTimeout h
  | enumerate => exact sound_execEnumerate h
  | disown => exact sound_execDisown h
  | uncelMctpFrame => exact sound_execUncelMctpFrame h
  | uncelEpochFrame => exact sound_execUncelEpochFrame h
  | epochDone => exact sound_execEpochDone h
  | mkeyOffer => exact sound_execMkeyOffer h
  | uncJoinRequest => exact sound_execUncJoinRequest h
  | uncJoinResponse => exact sound_execUncJoinResponse h
  | uncelTamperFrame => exact sound_execUncelTamperFrame h
  | uncelTimeFrame => exact sound_execUncelTimeFrame h
  | timeLeaderTick => exact sound_execTimeLeaderTick h
  | alignmentTimeout => exact sound_execAlignmentTimeout h
  | entdaa => exact sound_execEntdaa h
  | setdasa => exact sound_execSetdasa h
  | setnewda => exact sound_execSetnewda h
  | rstdaa => exact sound_execRstdaa h
  | getpid => exact sound_execGetpid h
  | getbcr => exact sound_execGetbcr h
  | getdcr => exact sound_execGetdcr h
  | getstatus => exact sound_execGetstatus h
  | getmrl => exact sound_execGetmrl h
  | getmwl => exact sound_execGetmwl h
  | enec => exact sound_execEnec h
  | disec => exact sound_execDisec h
  | rstact => exact sound_execRstact h
  | i3cPrivateTransfer => exact sound_execI3cPrivateTransfer h
  | perstRelease => exact sound_execPerstRelease h
  | uncelReceiverLinkUp => exact sound_execUncelReceiverLinkUp h
  | uncelOtherFrame => exact sound_execUncelOtherFrame h
  | flashProgramEraseDone => exact sound_execFlashProgramEraseDone h
  | leafHandoutInterval => exact sound_execLeafHandoutInterval h
  | illegalEncoding => exact sound_execIllegalEncoding h
  | pmRangeFetch => exact sound_execPmRangeFetch h
  | badCommand => exact sound_execBadCommand h

end Sys2Proof.Machine

namespace Sys2Proof.Claims
open Sys2Proof.Machine

/-- Settles O56: both cases are the queue's. -/
theorem stepRunsFront : Obligations.StepRunsFront := fun _ => ⟨fun _ _ => step_cons, step_nil⟩

/-- Settles O57: an idle step changes nothing, and taking the front command from the queue leaves the tables alone, so
`sound_exec` speaks of what runs. -/
theorem stepKeepsSound : Obligations.StepKeepsSound := by
  intro s t hs hstep
  cases hp : s.pending with
  | nil =>
    rw [step_nil hp] at hstep
    exact sound_next hs t hstep
  | cons c rest =>
    rw [step_cons hp] at hstep
    exact sound_exec c (sound_upd hs rfl rfl rfl rfl) t hstep

end Sys2Proof.Claims
end

section
/-!
O28: the operations of group 0x5 and the MACs of group 0x6 (R257, R267, R270, R271, R277), by the law of a program that runs from
its ENTRY to its end.
-/
namespace Sys2Proof.Machine

section
variable {k : OpKind} (set p : Nat) (key d : List Byte)

theorem macEnd_generate (h : macVerifies k = false) : macEnd k set p key d =
    (Status.ok, (macOf k set p key (slice d 0 (macAux k p)) (d.drop (macAux k p))).take (pOlen p)) := by
  simp [macEnd, macParts, h]

theorem macEnd_verify (h : macVerifies k = true) : macEnd k set p key d =
    let n := pOlen p
    let a := macAux k p
    let tag := (macOf k set p key (slice d n a) (d.drop (n + a))).take n
    (if d.length < n + a ∨ d.take n ≠ tag then Status.verifyFail else Status.ok, []) := by
  unfold macEnd macParts
  simp only [h, if_true, Bool.not_true, Bool.false_eq_true, if_false]
  exact (apply_ite (fun status => (status, ([] : List Byte))) _ _ _).symm

end

end Sys2Proof.Machine

namespace Sys2Proof.Claims
open Sys2Proof.Machine

section
variable {s : State} {j : Nat} {i : Instr} {k : OpKind}

/-- A symmetric operation ends with its status and its output (R270, R271). -/
theorem produces_sym (hexec : exec i s = .next (s.runOp j (fun x => decide (x = k)) fun s job => s.symRun job k)) :
    Produces s j i (fun x => decide (x = k)) fun _ job =>
      let y := symOutput k job.set_ job.desc.param job.key1.secret job.input job.random
      { status := y.1, out := y.2 } :=
  produces_of_runOp hexec fun _ => rfl

/-- A MAC generation ends with its MAC, cut to OLEN (R270). -/
theorem produces_macGenerate (hexec : exec i s = .next (s.runOp j (fun x => decide (x = k)) fun s job => s.symRun job k))
    (hk : macVerifies k = false)
    (hmac : ∀ set p key d drawn, symOutput k set p key d drawn = macEnd k set p key d := by intros; rfl) :
    Produces s j i (fun x => decide (x = k)) fun _ job =>
      { out := (macOf k job.set_ job.desc.param job.key1.secret (slice job.input 0 (macAux k job.desc.param))
          (job.input.drop (macAux k job.desc.param))).take (pOlen job.desc.param) } :=
  produces_of_runOp hexec fun job => by rw [seen, State.symRun, hmac, macEnd_generate _ _ _ _ hk]

/-- A MAC verification ends with its verdict; an input too short to hold its MAC fails (R271). -/
theorem produces_macVerify (hexec : exec i s = .next (s.runOp j (fun x => decide (x = k)) fun s job => s.symRun job k))
    (hk : macVerifies k = true)
    (hmac : ∀ set p key d drawn, symOutput k set p key d drawn = macEnd k set p key d := by intros; rfl) :
    Produces s j i (fun x => decide (x = k)) fun _ job =>
      let n := pOlen job.desc.param
      let a := macAux k job.desc.param
      let tag := (macOf k job.set_ job.desc.param job.key1.secret (slice job.input n a) (job.input.drop (n + a))).take n
      { status := if job.input.length < n + a ∨ job.input.take n ≠ tag then Status.verifyFail else Status.ok } :=
  produces_of_runOp hexec fun job => by rw [seen, State.symRun, hmac, macEnd_verify _ _ _ _ hk]

end

/-- Settles O28: every operation is the program of its kind, which ends as `symOutput` says, and for a MAC as `macEnd` does. -/
theorem symmetricOperations : Obligations.SymmetricOperations := fun _ _ => ⟨
  produces_sym rfl,
  -- MACs
  produces_macGenerate rfl rfl, produces_macGenerate rfl rfl, produces_macGenerate rfl rfl,
  produces_macGenerate rfl rfl,
  produces_macVerify rfl rfl, produces_macVerify rfl rfl, produces_macVerify rfl rfl, produces_macVerify rfl rfl,
  -- ciphers and wraps
  produces_sym rfl, produces_sym rfl, produces_sym rfl, produces_sym rfl, produces_sym rfl, produces_sym rfl⟩

end Sys2Proof.Claims
end

section
/-!
O32: the payment operations of group 0x6 (R275, R276, R278, R279), by the law of a program that runs from its ENTRY to its end.
-/
namespace Sys2Proof.Claims
open Sys2Proof.Machine

/-- A translation, or the refusal of its PAN, of its PIN or of its check, whatever the program took (R275). -/
theorem seen_pinTranslation (s : State) (i o : Nat) (k1 k2 block pan : List Byte) (faulted : Bool) (cost : Nat × Nat) :
    seen (s.pinTranslation i o k1 k2 block pan faulted cost) =
      seen (s.pinTranslation i o k1 k2 block pan faulted (0, 0)) := by
  unfold State.pinTranslation
  cases panDigits pan with
  | none => rfl
  | some ds =>
    dsimp only
    cases pinOf i (pinDecrypt i k1 (panField i ds) block) with
    | none => rfl
    | some pin => cases faulted <;> rfl

/-- The end of a DUKPT MAC: its KSN and its counter are judged before the MAC under the key of the KSN (R278). -/
def dukptMacEnd (job : Job) (verify : Bool) : OpResult :=
  let ksn := job.input.take 12
  let p := job.desc.param
  let r := macEnd (.cmac verify) 1 p (dukptKey job.key1.secret ksn (Config.dukptMacUsage % 2 ^ 16) (dkBytes p)) (job.input.drop 12)
  if job.input.length < 12 then { status := Status.verifyFail }
  else if !counterOk (beNat (slice ksn 8 4)) then { status := Status.inputInvalid }
  else { status := r.1, out := r.2 }

theorem seen_dukptCmac (s : State) (job : Job) (verify : Bool) :
    seen (s.dukptCmac job verify) = seen (dukptMacEnd job verify) :=
  seen_refused (seen_refused rfl)

/-- Settles O32: every operation is a program whose result is the one written down but for cycles and words
(`produces_of_seen`); each check that fails ends it. -/
theorem paymentOperations : Obligations.PaymentOperations := by
  intro s j
  refine ⟨
    -- PINs
    fun b => produces_of_seen rfl fun job => seen_pinTranslation s _ _ _ _ _ _ b _,
    fun b => produces_of_seen rfl fun job => ?pinCompare,
    fun b => produces_of_seen rfl fun job => seen_refused (seen_pinTranslation s _ _ _ _ _ _ b _),
    -- DUKPT
    produces_of_seen rfl fun job => seen_dukptCmac s job false,
    produces_of_seen rfl fun job => seen_dukptCmac s job true,
    produces_of_seen rfl fun job => rfl,
    -- key blocks
    produces_of_seen rfl fun job => rfl,
    produces_of_seen rfl fun job => ?keyBlockImport⟩
  case pinCompare =>
    cases b with
    | true => rfl
    | false =>
      dsimp only [Bool.false_eq_true, if_false]
      cases panDigits (job.input.drop (pinBlock (pFmtIn job.desc.param) + pinBlock (pFmtOut job.desc.param))) with
      | none => rfl
      | some ds =>
        dsimp only
        generalize pinOf (pFmtIn job.desc.param) _ = one
        generalize pinOf (pFmtOut job.desc.param) _ = two
        match one, two with
        | none, _ => rfl
        | some _, none => rfl
        | some x, some y => simp only [Bool.false_eq_true, if_false, seen, verdict, decide_eq_true_eq]
  case keyBlockImport =>
    dsimp only
    cases parseKeyBlock (decide (attrClass job.key1.attr % 16 ≤ 3)) job.input with
    | none => rfl
    | some block =>
      dsimp only
      cases block.open_ (decide (attrClass job.key1.attr % 16 ≤ 3)) job.key1.secret with
      | none => rfl
      | some payload =>
        dsimp only
        refine seen_refused ?_
        cases grantedOps block.usage block.mode with
        | none => rfl
        | some ops => exact seen_refused rfl

end Sys2Proof.Claims
end

section
/-!
O29: the operations of group 0x8 on slots (R309 to R316): programs that run from their ENTRY to their end, with an engine or
without, and the two operations without a grain.
-/
namespace Sys2Proof.Machine

/-- A program without an engine of its own, where no engine was found for the job at its placement (R313). -/
theorem State.runWithEngine_none {s : State} {j : Nat} (h : ∀ n e, (n, e) ∈ s.engines → j ∉ e.assigned) (k : OpKind → Bool)
    (f : State → Job → OpResult) : s.runWithEngine j k f = s.runOp j k f := by
  unfold State.runWithEngine
  rw [if_neg]
  simpa using h

/-- A program that uses the engine that was found for the job at its placement (R313). -/
theorem State.runWithEngine_some {s : State} {j : Nat} (h : ∃ n e, (n, e) ∈ s.engines ∧ j ∈ e.assigned) (k : OpKind → Bool)
    (f : State → Job → OpResult) : s.runWithEngine j k f = s.runEngineOp j k f := by
  unfold State.runWithEngine
  rw [if_pos]
  simpa using h

/-- An operation without a grain whose output fits ends with its job in the output stage (R65). -/
theorem State.endDirect_output {s : State} {j : Nat} {job : Job} (hj : s.job j = some job) {out : List Byte}
    (hlen : out.length ≤ job.desc.outLen) :
    s.endDirect j Status.ok out = s.modJob j fun x =>
      { x with stage := .output, out := out, outWritten := out.length, rngWait := false } := by
  have h := State.endDirect_fits hj out
  rwa [List.take_of_length_le hlen] at h

/-- A slot that takes what it is for and its budget (R309). -/
def Slot.preset (x : Slot) (attr : Nat) (budget : List Byte) : Slot :=
  { x with state := .prepared, attr := presetAttr attr, budget := leNat budget, uses := 0 }

/-- A preset slot stands PREPARED, and its job in the output stage (R309, R313). -/
theorem State.slot_preset_endDirect {s : State} {j : Nat} {job : Job} (hj : s.job j = some job) (k attr : Nat)
    (budget : List Byte) :
    let t := (s.modSlot k fun x => x.preset attr budget).endDirect j Status.ok []
    t.slot k = (s.slot k).preset attr budget ∧
    t.job j = some { job with stage := .output, out := [], outWritten := 0, rngWait := false } := by
  have hj' : (s.modSlot k fun x => x.preset attr budget).job j = some job := hj
  intro t
  have ht : t = (s.modSlot k fun x => x.preset attr budget).modJob j fun x =>
      { x with stage := .output, out := [], outWritten := 0, rngWait := false } :=
    State.endDirect_output hj' (Nat.zero_le _)
  refine ⟨?_, ht ▸ State.job_modJob hj'⟩
  rw [State.slot, ht, State.modJob_vault]
  exact State.slot_modSlot_of_ne fun h => nomatch congrArg Slot.state h

end Sys2Proof.Machine

namespace Sys2Proof.Claims
open Sys2Proof.Machine

/-- An import with result `f` produces any result of which the same counts, with an engine and without. -/
theorem importProduces_of_seen {s : State} {j : Nat} {i : Instr} {k : OpKind → Bool} {f r : State → Job → OpResult}
    (hexec : exec i s = .next (s.runWithEngine j k f)) (hf : ∀ job, seen (f s job) = seen (r s job))
    (hengine : ∀ n e job, f (s.modEngine n e) job = f s job := by intros; rfl) : ImportProduces s j i k r :=
  ⟨fun hnone => produces_of_seen (hexec.trans (congrArg _ (State.runWithEngine_none hnone k f))) hf,
    fun hsome => engineProduces_of_seen (hexec.trans (congrArg _ (State.runWithEngine_some hsome k f))) hf hengine⟩

/-- Settles O29: every program ends with the result written down but for cycles and words, an import with its engine or without
one (`importProduces_of_seen`); SLOT_PREPARE and READ_PUBLIC_KEY end with their job in the output stage. -/
theorem keyOperations : Obligations.KeyOperations := by
  intro s j
  refine ⟨
    produces_of_seen rfl fun job => rfl,
    produces_of_seen rfl fun job => rfl,
    produces_of_seen rfl fun job => rfl,
    importProduces_of_seen rfl fun job => rfl,
    importProduces_of_seen rfl fun job => ?importWrapped,
    importProduces_of_seen rfl fun job => seen_refused (seen_refused rfl),
    fun job hj hk hst hh hp ho he hpre => ?prepare,
    fun job hj hk hst hh hp ho hl hpair hlen => ?readPublic⟩
  case importWrapped =>
    dsimp only
    generalize symOutput _ _ _ _ _ _ = u
    by_cases hshort : job.input.length % 8 ≠ 0 ∨ job.input.length < 16
    · simp only [decide_eq_true hshort, if_true]
      rw [if_pos (by decide), if_pos (or_assoc.1 (.inl hshort))]
      rfl
    · simp only [decide_eq_false hshort, Bool.false_eq_true, if_false]
      by_cases hok : u.1 = Status.ok
      · rw [if_neg (not_not.2 hok), if_neg fun h => (or_assoc.2 h).elim hshort (not_not.2 hok)]
        cases s.payloadMat (s.claimAttr job) u.2 <;> rfl
      · rw [if_pos hok, if_pos (or_assoc.1 (.inr hok))]
        rfl
  case prepare =>
    have hexec : execSlotPrepare j s =
        .next ((s.modSlot job.desc.keyIndex fun x => x.preset job.desc.param job.input).endDirect j Status.ok []) := by
      simp [execSlotPrepare, hj, hk, hst, hh, hp, ho, he, hpre, Slot.preset]
    obtain ⟨hslot, hjob⟩ := State.slot_preset_endDirect hj job.desc.keyIndex job.desc.param job.input
    exact ⟨_, hexec, hslot, congrArg _ hjob⟩
  case readPublic =>
    have hexec : execReadPublicKey j s = .next (s.endDirect j Status.ok (s.slot job.desc.keyIndex).pub) := by
      simp [execReadPublicKey, hj, hk, hst, hh, hp, ho, hl, hpair]
    refine ⟨_, hexec, ?_⟩
    rw [State.endDirect_output hj hlen]
    exact congrArg _ (State.job_modJob hj)

end Sys2Proof.Claims
end

section
/-!
O45: a message of a digest engine from DIG_CTL to its result (R255 to R264, R504).
-/
namespace Sys2Proof.Machine

/-! An engine's record. -/

/-- An engine reads back what is not its reset value. -/
theorem State.digest_modDigest_of_ne {s : State} {e : Nat} {f : Digest → Digest} (h : f (s.digest e) ≠ {}) :
    (s.modDigest e f).digest e = f (s.digest e) :=
  Map.get_set_of_ne_default h

theorem State.digest_modDigest_other (s : State) {e m : Nat} (h : m ≠ e) (f : Digest → Digest) :
    (s.modDigest e f).digest m = s.digest m :=
  Map.get_modify_ne _ _ h

theorem Digest.ne_default_of_state {d : Digest} (h : d.state ≠ .idle) : d ≠ {} := fun hd => h (hd ▸ rfl)

theorem State.digest_event (s : State) (r : SqId) (mask e : Nat) : (s.event r mask).digest e = s.digest e :=
  congrArg (fun ds : Map Digest => ds.get e {}) (s.event_digests r mask)

/-- What an error leaves of a message (R263, R264). -/
def Digest.failed (d : Digest) (err : DigError) : Digest :=
  { d with state := .error, error := err, result := 0, out := [], key := [], slot := none, message := [], paused := false }

theorem State.digest_digError (s : State) (e : Nat) (err : DigError) :
    (s.digError e err).digest e = (s.digest e).failed err := by
  rw [State.digError, State.digest_event]
  exact State.digest_modDigest_of_ne (Digest.ne_default_of_state (by simp))

theorem State.digError_vault (s : State) (e : Nat) (err : DigError) : (s.digError e err).vault = s.vault :=
  State.event_vault _ _ _

/-! A message begins (R261, R263). -/

/-- What a write to DIG_CTL latches for a message. -/
def Digest.latched (d : Digest) (value : W32) (paused : Bool) : Digest :=
  { d with
    ctl := value.toNat &&& 0x00FF017F, out := [], result := 0, error := .none, message := [], keyReg := [], slot := none
    lenSet := false, paused := paused
    key := (regBytes d.keyReg 32).take d.klen, cust := (regBytes d.custReg 16).take d.clen, expect := regBytes d.expectReg 16 }

/-- A latched message holds the 64 bytes that it is compared with. -/
theorem Digest.latched_ne (d : Digest) (value : W32) (paused : Bool) : d.latched value paused ≠ {} := fun h => by
  have hexpect : (d.latched value paused).expect.length = 0 := by rw [h]; rfl
  simp [Digest.latched, regBytes] at hexpect

/-- The device with the message of a write to DIG_CTL. -/
def State.latchDigest (s : State) (e : Nat) (value : W32) : State :=
  s.modDigest e fun d => d.latched value (s.power.holdActive && decide (e < 16))

/-- The engine takes its message: it is fed, or armed for its read. -/
def State.openDigest (s : State) (e : Nat) : State :=
  s.modDigest e fun x => { x with state := if x.dmaFed then .armed else .feed }

/-- The engine latches the key of its slot, which is charged. -/
def State.keyDigest (s : State) (e k : Nat) : State :=
  (s.charge k).modDigest e fun x => { x with key := (s.slot k).secret, slot := some k }

/-- The start of a message: a bad configuration, software's key, or the key of a slot. -/
def State.beginDigest (s : State) (e : Nat) (value : W32) : State :=
  let t := s.latchDigest e value
  let d := (s.digest e).latched value (s.power.holdActive && decide (e < 16))
  if !d.configOk then t.digError e .config
  else if !d.keySrc then t.openDigest e
  else if t.digKey e d = .none then (t.keyDigest e (bits d.param 11 0)).openDigest e
  else t.digError e (t.digKey e d)

theorem execDigCtlWrite_owned {s : State} {r : Requester} {e : Nat} (value : W32) (hl : s.live r = true)
    (hh : s.heldPair r = none) (ho : s.digOwned r e = true) :
    execDigCtlWrite r e value s = .next (s.beginDigest e value) := by
  unfold execDigCtlWrite State.beginDigest
  simp only [hl, State.noteWrite_none hh, ho, Bool.not_true, Bool.false_eq_true, if_false]
  refine congrArg Host.Outcome.next (ite_congr rfl (fun _ => rfl) fun _ => ite_congr rfl (fun _ => rfl) fun _ => ?_)
  split
  next h => exact (if_pos h).symm
  next h => exact (if_neg h).symm

section
variable {s : State} {e : Nat} {value : W32}

/-- The message that DIG_CTL asks for, with the parameters of the engine. -/
def State.askedDigest (s : State) (e : Nat) (value : W32) : Digest :=
  { s.digest e with ctl := value.toNat &&& 0x00FF017F }

theorem State.beginDigest_refused (hc : (s.askedDigest e value).configOk = false) :
    s.beginDigest e value = (s.latchDigest e value).digError e .config :=
  if_pos (congrArg not hc)

variable (hc : (s.askedDigest e value).configOk = true)
include hc

theorem State.beginDigest_opens (hk : (s.askedDigest e value).keySrc = false) :
    s.beginDigest e value = (s.latchDigest e value).openDigest e :=
  (if_neg (ne_true_of_eq_false (congrArg not hc))).trans (if_pos (congrArg not hk))

variable (hk : (s.askedDigest e value).keySrc = true)
include hk

theorem State.beginDigest_keyed (hd : s.digKey e (s.askedDigest e value) = .none) :
    s.beginDigest e value = ((s.latchDigest e value).keyDigest e (bits (s.digest e).param 11 0)).openDigest e :=
  (if_neg (ne_true_of_eq_false (congrArg not hc))).trans
    ((if_neg (ne_true_of_eq_false (congrArg not hk))).trans (if_pos hd))

theorem State.beginDigest_unkeyed (hd : s.digKey e (s.askedDigest e value) ≠ .none) :
    s.beginDigest e value = (s.latchDigest e value).digError e (s.digKey e (s.askedDigest e value)) :=
  (if_neg (ne_true_of_eq_false (congrArg not hc))).trans
    ((if_neg (ne_true_of_eq_false (congrArg not hk))).trans (if_neg hd))

end

/-! What a message finds in its engine, and what it leaves. -/

/-- A slot that is charged for a use. -/
def Slot.charged (x : Slot) : Slot :=
  { x with budget := if x.budget = unlimited then unlimited else x.budget - 1, uses := x.uses + 1 }

/-- A reading that events and entries of the log leave alone is that of the device whose slot is charged. -/
theorem State.charge_reads {β : Type} (g : State → β) (s : State) (k : Nat)
    (hg : ∀ t : State, g ((t.event .key 2).logKeyEvent 1 k 0) = g t) :
    g (s.charge k) = g (s.modSlot k fun y => { y with budget := (s.slot k).charged.budget, uses := y.uses + 1 }) := by
  unfold State.charge
  extract_lets x b t
  split
  · exact hg t
  · rfl

theorem State.charge_vault (s : State) (k : Nat) : (s.charge k).vault =
    (s.modSlot k fun y => { y with budget := (s.slot k).charged.budget, uses := y.uses + 1 }).vault :=
  State.charge_reads State.vault s k fun t => by simp

section
variable (s : State) (e : Nat) (value : W32)

theorem State.digest_latchDigest : (s.latchDigest e value).digest e =
    (s.digest e).latched value (s.power.holdActive && decide (e < 16)) :=
  State.digest_modDigest_of_ne (Digest.latched_ne _ _ _)

theorem State.digest_openDigest : (s.openDigest e).digest e =
    { s.digest e with state := if (s.digest e).dmaFed then .armed else .feed } :=
  State.digest_modDigest_of_ne (Digest.ne_default_of_state (by dsimp only; split <;> simp))

theorem State.digest_keyDigest (k : Nat) : (s.keyDigest e k).digest e =
    { s.digest e with key := (s.slot k).secret, slot := some k } := by
  have hcharge : (s.charge k).digest e = s.digest e :=
    State.charge_reads (State.digest · e) s k fun t => by simp [State.digest]
  rw [State.keyDigest, State.digest_modDigest_of_ne, hcharge]
  exact fun hd => nomatch congrArg Digest.slot hd

end

/-- What a charge makes of the vault is the vault's own. -/
theorem State.charge_vault_congr {s t : State} (h : s.vault = t.vault) (k : Nat) : (s.charge k).vault = (t.charge k).vault := by
  rw [State.charge_vault, State.charge_vault, State.modSlot, State.modSlot, State.slot, State.slot, h]

section
variable (s : State) (e k : Nat)

theorem State.openDigest_vault : (s.openDigest e).vault = s.vault := rfl
theorem State.openDigest_jobs : (s.openDigest e).jobs = s.jobs := rfl
theorem State.keyDigest_vault : (s.keyDigest e k).vault = (s.charge k).vault := rfl
theorem State.keyDigest_jobs : (s.keyDigest e k).jobs = s.jobs := State.charge_jobs s k

end

/-! Feeding, reading and the result (R262 to R264). -/

section
variable {s : State} {r : Requester} {e : Nat} {value : W32} (hl : s.live r = true) (hh : s.heldPair r = none)
  (ho : s.digOwned r e = true)
include hl hh ho

theorem execDigDataWrite_owned : execDigDataWrite r e value s =
    .next (s.digFeed e (leBytes 4 (s.digest e).dataLo ++ leBytes 4 value.toNat) false) := by
  simp [execDigDataWrite, hl, State.noteWrite_none hh, ho]

theorem execDigLastWrite_owned : execDigLastWrite r e value s =
    .next (s.digFeed e ((leBytes 4 (s.digest e).lastLo ++ leBytes 4 value.toNat).take (s.digest e).lcnt) true) := by
  simp [execDigLastWrite, hl, State.noteWrite_none hh, ho]

theorem execDigAddrHiWrite_armed (hst : (s.digest e).state = .armed) (hset : (s.digest e).lenSet = true) :
    execDigAddrHiWrite r e value s = .next
      (if 2 ^ 64 < value.toNat * 2 ^ 32 + (s.digest e).addrLo + (s.digest e).len then
        (s.modDigest e fun x => { x with addrHi := value.toNat }).digError e .length
      else s.modDigest e fun x => { x with addrHi := value.toNat, state := .dma }) := by
  simp only [execDigAddrHiWrite, hl, State.noteWrite_none hh, ho, hst, hset, Bool.not_true, Bool.false_eq_true, if_false]

end

section
variable {s : State} {e : Nat} (bs : List Byte) (last : Bool)

theorem State.digFeed_absorbs (hst : (s.digest e).state = .feed) (hlen : (s.digest e).message.length + bs.length ≤ 2 ^ 61 - 1) :
    s.digFeed e bs last =
      s.modDigest e fun x => { x with message := x.message ++ bs, state := if last then .final else .feed } := by
  unfold State.digFeed
  simp only [hst]
  exact if_neg (Nat.not_lt.2 hlen)

theorem State.digFeed_outOfSequence (hfeed : (s.digest e).state ≠ .feed) (hfinal : (s.digest e).state ≠ .final) :
    s.digFeed e bs last = s.digError e .sequence := by
  unfold State.digFeed
  dsimp only
  split
  next h => exact absurd h hfeed
  next h => exact absurd h hfinal
  · rfl

end

/-- What the end of a message leaves of its engine (R263, R264). -/
def Digest.finished (d : Digest) : Digest :=
  { d with
    state := .done, key := [], slot := none, message := []
    out := if d.cmp then [] else d.compute
    result := if !d.cmp then 0 else if decide (d.compute = d.expect.take d.outLen) then 1 else 2 }

theorem execDigResultReady_final {s : State} {e : Nat} (hst : (s.digest e).state = .final) (hp : (s.digest e).paused = false)
    (hr : e < 16 ∨ digKeyed (s.digest e).alg = false ∨ s.rng.firstSeed = true) :
    execDigResultReady e s = .next ((s.modDigest e fun _ => (s.digest e).finished).event (.dig e) 1) := by
  have hready : ¬(16 ≤ e ∧ digKeyed (s.digest e).alg ∧ !s.rng.firstSeed) := by
    rintro ⟨he, hk, hf⟩
    rcases hr with hr | hr | hr
    · omega
    · simp [hr] at hk
    · simp [hr] at hf
  simp only [execDigResultReady, hst, hp, hready]
  rfl

end Sys2Proof.Machine

namespace Sys2Proof.Claims
open Sys2Proof.Machine

/-- Settles O45: a write to DIG_CTL begins a message (`State.beginDigest`) with one of four ends, a fed one absorbs or is out of
sequence (`State.digFeed`), and the engine reads back what the message or its error leaves. -/
theorem digestEngines : Obligations.DigestEngines := by
  intro s
  refine ⟨fun r e value hl hh ho hc hk => ?opens, fun r e value hl hh ho hc hk hd => ?keyed,
    fun r e value err hl hh ho hc hk hd hne => ?unkeyed, fun r e value hl hh ho hc => ?refused,
    fun r e value hl hh ho hst hlen => ?data, fun r e value hl hh ho hst hlen => ?last,
    fun r e value hl hh ho hfeed hfinal => ?dataLate, fun r e value hl hh ho hfeed hfinal => ?lastLate,
    fun r e value hl hh ho hst => ?len, fun r e value hl hh ho hst hset hrange => ?addr,
    fun r e value hl hh ho hst hset hrange => ?addrRange, fun e b hst hp => ?dma, fun e hst hp => ?dmaRefused,
    fun e hst hp hr => ?result, fun e err => ?error⟩
  case opens =>
    refine ⟨_, (execDigCtlWrite_owned value hl hh ho).trans (congrArg _ (State.beginDigest_opens hc hk)), ?_⟩
    rw [State.digest_openDigest, State.digest_latchDigest]
    exact ⟨rfl, rfl, rfl, rfl, rfl, rfl, fun m hm =>
      (State.digest_modDigest_other _ hm _).trans (State.digest_modDigest_other _ hm _)⟩
  case keyed =>
    refine ⟨_, (execDigCtlWrite_owned value hl hh ho).trans (congrArg _ (State.beginDigest_keyed hc hk hd)), ?_⟩
    rw [State.digest_openDigest, State.digest_keyDigest, State.digest_latchDigest]
    have hvault (k : Nat) : ((s.latchDigest e value).charge k).vault = (s.charge k).vault :=
      State.charge_vault_congr (s := s.latchDigest e value) (t := s) rfl k
    rw [State.openDigest_vault, State.openDigest_jobs, State.keyDigest_vault, State.keyDigest_jobs]
    exact ⟨rfl, rfl, rfl, hvault _, rfl⟩
  case unkeyed =>
    subst hd
    refine ⟨_, (execDigCtlWrite_owned value hl hh ho).trans (congrArg _ (State.beginDigest_unkeyed hc hk hne)), ?_⟩
    rw [State.digest_digError, State.digError_vault]
    exact ⟨rfl, rfl, rfl, rfl⟩
  case refused =>
    refine ⟨_, (execDigCtlWrite_owned value hl hh ho).trans (congrArg _ (State.beginDigest_refused hc)), ?_⟩
    rw [State.digest_digError, State.digError_vault]
    exact ⟨rfl, rfl, rfl, rfl⟩
  case data => exact (execDigDataWrite_owned hl hh ho).trans (congrArg _ (State.digFeed_absorbs _ _ hst hlen))
  case last => exact (execDigLastWrite_owned hl hh ho).trans (congrArg _ (State.digFeed_absorbs _ _ hst hlen))
  case dataLate => exact (execDigDataWrite_owned hl hh ho).trans (congrArg _ (State.digFeed_outOfSequence _ _ hfeed hfinal))
  case lastLate => exact (execDigLastWrite_owned hl hh ho).trans (congrArg _ (State.digFeed_outOfSequence _ _ hfeed hfinal))
  case len =>
    show execDigLenWrite r e value s = _
    simp [execDigLenWrite, hl, State.noteWrite_none hh, ho, hst]
  case addr => exact (execDigAddrHiWrite_armed hl hh ho hst hset).trans (congrArg _ (if_neg (Nat.not_lt.2 hrange)))
  case addrRange => exact (execDigAddrHiWrite_armed hl hh ho hst hset).trans (congrArg _ (if_pos hrange))
  case dma =>
    show execDigDmaDone e (some b) s = _
    simp [execDigDmaDone, hst, hp]
  case dmaRefused =>
    show execDigDmaDone e none s = _
    simp [execDigDmaDone, hst, hp]
  case result =>
    refine ⟨_, execDigResultReady_final hst hp hr, ?_⟩
    rw [State.digest_event, State.digest_modDigest_of_ne (Digest.ne_default_of_state (by simp [Digest.finished]))]
    refine ⟨rfl, rfl, rfl, fun hc => ?_, fun hc => ?_, State.event_vault _ _ _, State.event_jobs _ _ _⟩
    · simp [Digest.finished, hc]
    · simp [Digest.finished, hc]
  case error =>
    intro t
    rw [State.digest_digError]
    exact ⟨rfl, rfl, rfl, rfl, rfl⟩

end Sys2Proof.Claims
end

section
/-!
O44: noise sources and their retirement (R282 to R284), seeds (R285, R287), the DRBGs of the ports (R291 to R293), random
operations (R294 to R296) and captures (R297).
-/
namespace Sys2Proof.Machine

/-! Failures of a noise source (R283, R284). -/

/-- A source after one more failed block. -/
def Source.failed (x : Source) : Source := { x with consec := min 8 (x.consec + 1), hfail := satAdd 0xFFFFFFFF x.hfail 1 }

theorem State.source_failed (s : State) (k : Nat) :
    (s.modSource k Source.failed).rng.source k = (s.rng.source k).failed :=
  State.source_modSource_of_ne fun h => by
    have hconsec := congrArg Source.consec h
    simp [Source.failed] at hconsec

section
variable {s : State} {k : Nat}

theorem State.blockFailed_few (h : (s.rng.source k).consec < 7) : s.blockFailed k = s.modSource k Source.failed := by
  show (if 8 ≤ ((s.modSource k Source.failed).rng.source k).consec then _ else _) = _
  rw [State.source_failed, Source.failed]
  exact if_neg (by dsimp only; omega)

theorem State.blockFailed_eighth (h : 7 ≤ (s.rng.source k).consec) :
    s.blockFailed k = (s.modSource k Source.failed).retireSource k := by
  show (if 8 ≤ ((s.modSource k Source.failed).rng.source k).consec then _ else _) = _
  rw [State.source_failed, Source.failed]
  exact if_pos (by dsimp only; omega)

/-- The eighth failure in a row retires an active source (R284). -/
theorem State.blockFailed_retires (hr : (s.rng.source k).role = .active) (h : 7 ≤ (s.rng.source k).consec) :
    ((s.blockFailed k).rng.source k).role = .retired := by
  rw [State.blockFailed_eighth h]
  refine State.retireSource_role ?_
  rw [State.source_failed, Source.failed, hr]
  decide

end

/-! Requests of a DRBG (R291 to R293). -/

section
variable {s : State} {p : Nat}

/-- A generator that is ready has neither failed nor still to start. -/
theorem execDrbgInstantiate_wanted (katOk : Bool) (hr : s.rng.state = .ready) (hi : s.rng.instantiated = true)
    (hq : 8 ≤ s.rng.queue.length) (ht : s.boot.tilth ≠ none) (hp : p < s.portCount) (hd : (s.drbg p).state = .uninstantiated) :
    execDrbgInstantiate p katOk s = .next (
      if !katOk then (s.modDrbg p fun d => { d with state := .failed }).event .rng 8
      else
        let kv := drbgInstantiate (s.rng.queue.take 2).flatten (drbgPers s.uid p)
        (s.modRng fun r => { r with queue := r.queue.drop 2 }).modDrbg p fun d =>
          { requests := d.requests, waiting := d.waiting, state := .ready, key := kv.1, v := kv.2 }) := by
  simp only [execDrbgInstantiate, hr, hi, Nat.not_lt.2 hq, ht, Nat.not_le.2 hp, hd]
  rfl

/-- The output of a request goes to its user. -/
def State.handOver (s : State) (p : Nat) (user : DrbgUser) (bytes : List Byte) : State :=
  match user with
  | .job j => s.randomPart j bytes
  | .buffer q => s.refill q p bytes
  | .discard => s

/-- A request that is ready runs for a user whom the command serves: its output is handed over, COUNT moves, and the DRBG goes
on. -/
theorem State.generate_ready {r : DrbgReq} {rest : List DrbgReq} {who : DrbgUser → Bool} {user : DrbgUser}
    (hq : (s.drbg p).requests = r :: rest) (hr : (s.drbg p).ready r = true) (hu : r.user = user) (hw : who user = true) :
    s.generate p who =
      let x := drbgGenerate r.bytes r.input ((s.drbg p).key, (s.drbg p).v)
      State.askForDrbg (((s.modDrbg p fun y =>
        { y with requests := rest, key := x.2.1, v := x.2.2, count := y.count + 1 }).handOver p user x.1).modDrbg p fun y =>
          (y.acceptAll y.waiting.length).advance) p := by
  subst hu
  simp only [State.generate, hq, hr, hw]
  rfl

end

/-! Random operations (R294 to R296). -/

section
variable {s : State} {j : Nat} {job : Job} {o : PairOwner} {predict : Bool} (hj : s.job j = some job)
  (hk : s.kindOf job = .random predict) (hst : job.stage = .execute) (hw : job.rngWait = false)
  (ho : s.pairOwner job.pair = some o)
include hj hk hst hw ho

/-- A job of a port whose DRBG serves reserves its requests. -/
theorem State.randomJob_reserves (hr : s.rng.state = .ready) (hu : (s.drbg o.port).state ≠ .uninstantiated)
    (hf : (s.drbg o.port).state ≠ .failed) :
    s.randomJob j predict =
      let t := (s.modJob j fun x => { x with rngWait := true, outWritten := 0 }).reserveDrbg o.port
        (randomRequests j job.desc.outLen job.input predict)
      State.askForDrbg (if predict then t.requestSeed (.predict o.port) else t) o.port := by
  simp [State.randomJob, hj, hk, hst, hw, ho, hr, hu, hf]

theorem State.randomJob_notReady
    (h : s.rng.state ≠ .ready ∨ (s.drbg o.port).state = .uninstantiated ∨ (s.drbg o.port).state = .failed) :
    s.randomJob j predict = s.endDirect j Status.rngNotReady [] := by
  simp [State.randomJob, hj, hk, hst, hw, ho, h]

end

end Sys2Proof.Machine

namespace Sys2Proof.Claims
open Sys2Proof.Machine

/-- Settles O44: each command stands where its guards hold, so it is its body; a source fails, a request of a DRBG runs and a
random job reserves as the lemmas above say. -/
theorem randomNumbers : Obligations.RandomNumbers := by
  intro s
  refine ⟨fun k raw hw hc hp => ?blockPasses, fun k raw hw hc hp => ?blockFails, fun k h => State.blockFailed_few h,
    fun k hr h => State.blockFailed_retires hr h, fun k hr => ?calibrated, fun k pair rest hf hq hn hp => ?seedOut,
    fun hn hf => ?noSeed, fun hf => ?seedInTime, fun p hr hi hq ht hp hd => execDrbgInstantiate_wanted false hr hi hq ht hp hd,
    fun p hr hi hq ht hp hd => execDrbgInstantiate_wanted true hr hi hq ht hp hd,
    fun p r rest j hq hr hu => ?job, fun p r rest hq hr hu => ?discard, fun p r rest k hq hr hu => ?buffer,
    fun p hr => ?reseed, fun k hl hk hc => ?capture, fun k hl => ?noCapture, fun k samples hc => ?captured,
    fun j job o hj hk hst hw ho hr hu hf => congrArg _ (State.randomJob_reserves hj hk hst hw ho hr hu hf),
    fun j job o hj hk hst hw ho h => congrArg _ (State.randomJob_notReady hj hk hst hw ho h),
    fun j job o hj hk hst hw ho hr hu hf => congrArg _ (State.randomJob_reserves hj hk hst hw ho hr hu hf),
    fun j job o hj hk hst hw ho h => congrArg _ (State.randomJob_notReady hj hk hst hw ho h),
    fun j job hj hk hst hw hr => ?entropy, fun j job hj hk hst hw hr => ?noEntropy⟩
  case blockPasses =>
    show execNoiseBlockDone k raw s = _
    simp only [execNoiseBlockDone, hw, hc, hp]
    rfl
  case blockFails =>
    show execNoiseBlockDone k raw s = _
    simp only [execNoiseBlockDone, hw, hc, hp]
    rfl
  case calibrated => exact congrArg _ (if_pos hr)
  case seedOut =>
    show execConditionerSeedOut s = _
    simp only [execConditionerSeedOut, hf, Nat.not_le.2 hq, hn, hp, or_self, if_false]
  case noSeed => exact congrArg _ ((if_neg (ne_true_of_eq_false hn)).trans (if_neg hf))
  case seedInTime => exact congrArg _ (if_pos hf)
  case job =>
    show execDrbgGenerateDone p s = _
    simp only [execDrbgGenerateDone, State.generate_ready (who := fun u => !u.isBuffer) hq hr hu rfl, State.handOver]
  case discard =>
    show execDrbgGenerateDone p s = _
    simp only [execDrbgGenerateDone, State.generate_ready (who := fun u => !u.isBuffer) hq hr hu rfl, State.handOver]
  case buffer =>
    show execKeyPortBufferRefill k p s = _
    simp only [execKeyPortBufferRefill,
      State.generate_ready (who := fun u => decide (u = .buffer k)) hq hr hu (decide_eq_true rfl), State.handOver]
  case reseed => exact congrArg _ (if_pos hr)
  case capture =>
    show execRngCaptureStart k s = _
    simp [execRngCaptureStart, State.captureStart, hl, Nat.not_lt.2 hk, hc]
  case noCapture => exact congrArg _ (if_pos (.inl hl))
  case captured =>
    show execRngCaptureDone samples s = _
    simp only [execRngCaptureDone, hc]
  case entropy =>
    show execConditionedEntropy j s = _
    simp [execConditionedEntropy, hj, hk, hst, hw, hr]
  case noEntropy =>
    show execConditionedEntropy j s = _
    simp [execConditionedEntropy, hj, hk, hst, hw, hr]

end Sys2Proof.Claims
end

section
/-!
O49: the start of the device, from the immutable duties to START_OK (R303, R338, R342, R343, R357 to R366, R400, R419).
-/
namespace Sys2Proof.Machine

/-! What the ways of a start leave. -/

/-- Writing the entries that waited changes no reading that a written entry and the ring's counts leave alone. -/
theorem State.logFlush_keeps {β : Type} (g : State → β) (hw : ∀ (t : State) time type data, g (t.logWrite time type data) = g t)
    (hh : ∀ (t : State) h, g { t with hzn := h } = g t) (s : State) : g s.logFlush = g s := by
  have hlost : ∀ t : State, g t.logLost = g t := fun t => by
    unfold State.logLost
    split
    · rfl
    · exact (hw _ _ _ _).trans (hh _ _)
  unfold State.logFlush
  dsimp only
  rw [hlost, foldl_keeps _ g _ (fun t e => hw t _ _ _), hh]

theorem State.logFlush_power (s : State) : s.logFlush.power = s.power :=
  State.logFlush_keeps State.power (fun _ _ _ _ => by simp) (fun _ _ => rfl) s

theorem State.logFlush_boot (s : State) : s.logFlush.boot = s.boot :=
  State.logFlush_keeps State.boot (fun _ _ _ _ => by simp) (fun _ _ => rfl) s

theorem State.logFlush_glb_fallow (s : State) : s.logFlush.glb.fallow = s.glb.fallow :=
  State.logFlush_keeps (fun t => t.glb.fallow) (fun _ _ _ _ => by simp) (fun _ _ => rfl) s

theorem State.logFlush_glb_locked (s : State) : s.logFlush.glb.locked = s.glb.locked :=
  State.logFlush_keeps (fun t => t.glb.locked) (fun _ _ _ _ => by simp) (fun _ _ => rfl) s

/-- Fallow mode stands with its reason (R343). -/
theorem State.enterFallow_stands (s : State) (why : Nat) : (s.enterFallow why).power.phase = .fallow ∧
    (s.enterFallow why).boot.fallowWhy = why ∧ (s.enterFallow why).glb.fallow = true := by
  simp [State.enterFallow, State.logStart, State.logFlush_power, State.logFlush_boot, State.logFlush_glb_fallow]

/-- A device that becomes locked runs the lock service (R418, R419). -/
theorem State.startLocked_stands {s : State} (h : s.tamper.locked = false) :
    s.startLocked.power.phase = .lockService ∧ s.startLocked.glb.locked = true := by
  obtain ⟨-, -, -, -, hlocked⟩ := s.enterLockService.becomeLocked_keeps
  have hpower : s.enterLockService.becomeLocked.power = s.enterLockService.power := by
    unfold State.becomeLocked
    split
    · rfl
    · simp
  unfold State.startLocked
  rw [State.logFlush_power, State.logFlush_glb_locked, hpower]
  exact ⟨rfl, hlocked h⟩

/-! The choice of a service or a slot (R342, R359, R400). -/

section
variable {s : State}

/-- A device that runs images checks its root secret (R303, R400). -/
theorem State.dispatchStart_images (h : s.life.state = .manufactured ∨ s.life.state = .owned) :
    s.dispatchStart = if s.vault.rootValid then s.continueStart else s.modPower fun p => { p with phase := .renewing } := by
  rcases h with h | h <;> cases hr : s.vault.rootValid <;> simp [State.dispatchStart, State.checkRoot, h, hr]

theorem State.dispatchStart_factory (h : s.life.state = .raw ∨ s.life.state = .testUnlocked ∨ s.life.state = .testLocked) :
    s.dispatchStart = s.modPower fun p => { p with phase := .factory } := by
  simp [State.dispatchStart, h]

theorem State.dispatchStart_scrapped (h : s.life.state = .scrapped) :
    s.dispatchStart = s.modPower fun p => { p with phase := .scrapped } := by
  simp [State.dispatchStart, h]

variable (hp : bits s.power.strapRaw 1 0 ≠ 3) (hb : bits s.power.strapRaw 3 2 ≠ 3)
include hp hb

theorem State.decideStart_strapped (h : s.bootSel = 2) : s.decideStart = s.enterFallow 2 := by
  simp [State.decideStart, hp, hb, h]

variable (hs : s.bootSel ≠ 2)
include hs

theorem State.decideStart_tooOften (h : s.boot.limitN ≤ s.boot.failCount) : s.decideStart = s.enterFallow 1 := by
  simp [State.decideStart, hp, hb, hs, h]

variable (hn : s.boot.failCount < s.boot.limitN)
include hn

theorem State.decideStart_noSlot (h : s.slotList.any s.slotPasses = false) : s.decideStart = s.enterFallow 3 := by
  simp only [State.decideStart, hp, hb, hs, Nat.not_le.2 hn, h, false_and, if_false, Bool.not_false, if_true]

theorem State.decideStart_slot {i : Nat} (h : s.slotList.any s.slotPasses = true)
    (hi : (s.modBoot fun b => { b with failCount := b.failCount + 1, fallowWhy := 0 }).selectSlot (s.boot.failCount + 1) = some i) :
    s.decideStart = (((s.modBoot fun b => { b with failCount := b.failCount + 1, fallowWhy := 0 }).runSlot i).modPower
      fun p => { p with phase := .chosen }).logStart := by
  have hi' : (s.modBoot fun b => { b with failCount := b.failCount + 1, fallowWhy := 0 }).selectSlot
    (s.modBoot fun b => { b with failCount := b.failCount + 1, fallowWhy := 0 }).boot.failCount = some i := hi
  simp only [State.decideStart, hp, hb, hs, Nat.not_le.2 hn, h, hi', false_and, if_false, Bool.not_true, Bool.false_eq_true]

end

/-! The tilth record (R365). -/

theorem State.setTampers_boot (s : State) (f : Nat → TamperCfg) (sources : List Nat) :
    (sources.foldl (fun s k => s.setTamper k (f k)) s).boot = s.boot :=
  foldl_keeps s State.boot (fun s k => s.setTamper k (f k)) (fun _ _ => rfl) sources

theorem State.applyTamper_boot (s : State) (t : Tilth) : (s.applyTamper t).boot = s.boot := by
  unfold State.applyTamper
  dsimp only
  rw [State.modTamper_boot]
  split
  · exact State.setTampers_boot s _ _
  · exact State.setTampers_boot s tamperDefault _

theorem State.assignSlots_boot (s : State) (t : Tilth) : (s.assignSlots t).boot = s.boot :=
  foldl_keeps _ State.boot _ (fun _ _ => by split <;> rfl) _

theorem State.ownedSlots_boot (s : State) : s.ownedSlots.boot = s.boot := by
  unfold State.ownedSlots
  exact foldl_keeps _ State.boot _ (fun _ _ => by rfl) _

/-- The record that is applied is the one in force, with its LIMIT_N. -/
theorem State.applyTilth_boot (s : State) (i : Nat) (t : Tilth) :
    (s.applyTilth i t).boot.tilth = some t ∧ (s.applyTilth i t).boot.limitN = t.limitN := by
  unfold State.applyTilth
  extract_lets s1 s2
  have hb : (((s2.ownedSlots.assignSlots t).applyTamper t).applyGuard t).boot = s1.boot := by
    refine (State.applyTamper_boot _ t).trans ((State.assignSlots_boot _ t).trans ((State.ownedSlots_boot _).trans ?_))
    exact foldl_keeps _ State.boot _ (fun _ _ => by rfl) _
  rw [hb]
  exact ⟨rfl, rfl⟩

end Sys2Proof.Machine

namespace Sys2Proof.Claims
open Sys2Proof.Machine

/-- Settles O49: each command stands where its guards hold, so it is its body; what a way of the start leaves is read off
`State.logFlush_keeps`. -/
theorem startSequence : Obligations.StartSequence := by
  intro s
  refine ⟨fun cut bad hb hr hl hu => ?duties, fun cut bad hb hr hl hu => ?unlocked, fun torn kat cut bad hb => congrArg _ (if_pos hb),
    State.dispatchStart_factory, State.dispatchStart_scrapped, fun hl hr => ?renewing, fun hl hr hk ht => ?lockService,
    fun hl hr hk => ?slots, fun h hp hb => State.decideStart_strapped hp hb h, State.decideStart_tooOften, State.decideStart_noSlot,
    fun i hp hb hs hn => State.decideStart_slot hp hb hs hn, s.enterFallow_stands, fun hp hf => ?renewal, fun h => ?noRenewal,
    fun hp hf => congrArg _ (if_pos ⟨hp, hf⟩), fun hp hc => ?sealGood, fun hp hc => ?sealBad, fun i t _ _ => s.applyTilth_boot i t,
    fun n hw hu hn hf => ?powerUp, fun n hu => ?noClock, fun hp hu ht hv hk hm hr hn => ?startOk,
    fun hp hu ht hv hk hm hr => ?fallback, fun h hp hu ht hv hk hm hr hn hh => ?raise⟩
  case duties =>
    show execFullResetStart false true cut bad s = _
    have hu' : ((s.lifeDuties cut).transferLatch bad).tamper.unlocked = false := hu
    simp [execFullResetStart, hb, hr, hl, hu', State.scanLog]
  case unlocked =>
    show execFullResetStart false true cut bad s = _
    have hu' : ((s.lifeDuties cut).transferLatch bad).tamper.unlocked = true := hu
    simp [execFullResetStart, hb, hr, hl, hu', State.scanLog]
  case renewing => exact (State.dispatchStart_images hl).trans (if_neg (ne_true_of_eq_false hr))
  case lockService =>
    rw [State.dispatchStart_images hl, if_pos hr, State.continueStart, if_pos hk]
    exact State.startLocked_stands ht
  case slots =>
    rw [State.dispatchStart_images hl, if_pos hr]
    exact if_neg (ne_true_of_eq_false hk)
  case renewal =>
    show execRootSecretRenewal s = _
    simp [execRootSecretRenewal, hp, hf]
  case noRenewal =>
    refine congrArg _ (if_pos (h.imp_right fun hf => ?_))
    rw [hf]
    rfl
  case sealGood =>
    show execSealCheckDone s = _
    simp [execSealCheckDone, hp, hc]
  case sealBad =>
    show execSealCheckDone s = _
    simp [execSealCheckDone, hp, hc]
  case powerUp =>
    show execTopsoilPowerUp n true s = _
    have hvalid : (s.power.valid / 16 * 16 + n % 16) % 16 = 15 := by omega
    simp only [execTopsoilPowerUp, hw, State.modPower_power, State.modPower_rng, hu, hvalid, hf]
    rfl
  case noClock =>
    show execTopsoilPowerUp n false s = _
    simp [execTopsoilPowerUp]
  case startOk =>
    show execStartOk s = _
    simp [execStartOk, hp, hu, ht, hv, hk, hm, hr, hn]
  case fallback =>
    show execStartOk s = _
    simp [execStartOk, hp, hu, ht, hv, hk, hm, hr]
  case raise =>
    show execStartOk s = _
    rw [hr] at hh
    simp [execStartOk, hp, hu, ht, hv, hk, hm, hr, hn, hh]

end Sys2Proof.Claims
end

section
/-!
O48: supplies, clocks and resets (R331 to R341), the services of the immutable boot code (R369, R400, R403) and the TAP (R399).
-/
namespace Sys2Proof.Machine

/-! What a full reset keeps (R337, R339). -/

/-- The keys that a logged reset destroys stand in the log (R323). -/
def State.volatileLogged (s : State) (logged : Bool) : State :=
  if logged then s.volatileKeys.foldl (fun s k => s.logDestroyed k 6) s else s

/-- A reading that the entry of a destroyed key leaves alone is not changed by the entries of a reset. -/
theorem State.volatileLogged_keeps {β : Type} (g : State → β) (h : ∀ (t : State) k, g (t.logDestroyed k 6) = g t) (s : State)
    (logged : Bool) : g (s.volatileLogged logged) = g s := by
  unfold State.volatileLogged
  split
  · exact foldl_keeps s g _ h _
  · rfl

section
variable (s : State) (cause : Nat) (phase : Phase) (logged : Bool)

theorem State.fullReset_epoch : (s.fullReset cause phase logged).glb.epoch = s.glb.epoch :=
  s.volatileLogged_keeps (fun t => t.glb.epoch) (fun t _ => t.log_glb_epoch _ _) logged

theorem State.fullReset_gen : (s.fullReset cause phase logged).uncel.gen = s.uncel.gen :=
  s.volatileLogged_keeps (fun t => t.uncel.gen) (fun t _ => congrArg Uncel.gen (t.log_uncel _ _)) logged

theorem State.fullReset_count : (s.fullReset cause phase logged).tamper.count = s.tamper.count :=
  s.volatileLogged_keeps (fun t => t.tamper.count) (fun t k => congrArg Tamper.count (t.logDestroyed_tamper k 6)) logged

theorem State.fullReset_shelf : (s.fullReset cause phase logged).vault.shelf = s.vault.shelf :=
  s.volatileLogged_keeps (fun t => t.vault.shelf) (fun t k => congrArg Vault.shelf (t.logDestroyed_vault k 6)) logged

theorem State.fullReset_rootSecret : (s.fullReset cause phase logged).vault.rootSecret = s.vault.rootSecret :=
  s.volatileLogged_keeps (fun t => t.vault.rootSecret) (fun t k => congrArg Vault.rootSecret (t.logDestroyed_vault k 6)) logged

theorem State.fullReset_regions : (s.fullReset cause phase logged).boot.regions = s.boot.regions :=
  s.volatileLogged_keeps (fun t => t.boot.regions) (fun t _ => congrArg Boot.regions (t.log_boot _ _)) logged

end

/-! A quadrant that loses its clock (R331, R469). -/

/-- The responses of a source rest on the life cycle and the settings alone (R417). -/
theorem State.responses_congr {s t : State} (hl : t.life = s.life) (hc : t.tamperCfg = s.tamperCfg) (k : Nat) :
    t.responses k = s.responses k := by
  unfold State.responses State.tamperOf
  rw [hl, hc]

/-- A quadrant that has failed (R331). -/
def Quadrant.stopped (x : Quadrant) : Quadrant :=
  { x with failed := true, pllRun := false, pllLocked := false, unlocked := false }

theorem State.quad_stopped (s : State) (q : Nat) : (s.modQuad q Quadrant.stopped).quad q = (s.quad q).stopped := by
  have hne : (s.quad q).stopped ≠ ({} : Quadrant) := fun hd => Bool.noConfusion (congrArg Quadrant.failed hd : true = false)
  exact Map.get_set_of_ne_default hne

/-- Where the loss of a clock raises no alarm, the quadrant has failed. -/
theorem State.quad_failQuadrant {s : State} (hp : s.power.phase ≠ .unpowered) (h : (s.responses 14).testBit 0 = false)
    (q : Nat) : (s.failQuadrant q).quad q = (s.quad q).stopped := by
  unfold State.failQuadrant
  extract_lets s1 s2 hit
  have hevents : ∀ {β : Type} (g : State → β), (∀ t n, g (t.vfEventOf n vfCapacity) = g t) →
      g (hit.foldl (fun s t => s.vfEventOf t vfCapacity) s2) = g s2 := fun g hg => foldl_keeps s2 g _ hg hit
  have hlife := hevents State.life fun t n => by simp
  have hcfg := hevents State.tamperCfg fun t n => by simp
  have hpower := hevents State.power fun t n => by simp
  have hquads := hevents State.quads fun t n => by simp
  generalize hit.foldl (fun s t => s.vfEventOf t vfCapacity) s2 = u at hlife hcfg hpower hquads ⊢
  have hs2 : s2.life = s.life ∧ s2.tamperCfg = s.tamperCfg ∧ s2.power = s.power ∧ s2.quads = s1.quads := by simp [s2, s1]
  obtain ⟨hl, hc, hpow, hq⟩ := hs2
  have hresp : u.responses 14 = s.responses 14 := State.responses_congr (hlife.trans hl) (hcfg.trans hc) 14
  rw [State.raise_powered (by rw [hpower, hpow]; exact hp), State.alarm_unarmed (by simpa [hresp] using h), State.quad, hquads, hq]
  exact s.quad_stopped q

end Sys2Proof.Machine

namespace Sys2Proof.Claims
open Sys2Proof.Machine

/-- Settles O48, clause by clause from the step of each command. Two clauses need more than the guards of their step: a full reset
keeps the evidence although it may log the keys it destroys, and a quadrant has failed although the loss of its clock raises an event
at each tenant that it hits. -/
theorem suppliesAndResets : Obligations.SuppliesAndResets := by
  intro s
  refine ⟨fun k hk hu => ?holdDown, fun k hk hu hh => ?holdFurther, fun k hk hu hh => ?holdFirst, fun k hk hh hb => ?releaseLast,
    fun k hk hh => ?releaseNone, fun hh hr => ?holdTimeout, fun hh => ?noHold, fun k hk hu hr => ?brownOut, fun k hk hu => ?brownOutDown,
    fun k hk hu hr => ?brownOutEarly, fun k hk hk' hp => ?subsoil, rfl, fun hl ho => ?mramFlush, fun hl ho => ?mramShut,
    fun hp hl ho => ?mramFlag, rfl, rfl, fun valid ref hp hv => ?porFresh, fun valid ref hp hv => ?porKept,
    fun straps golden h33 fac hp => congrArg _ (if_neg (not_not.2 hp)), rfl, fun n straps golden taken hl hu hp hn => ?pinReset,
    fun n straps golden taken hl hu hp hn => ?pinGlitch, fun hp hl => ?pllLock, fun h => congrArg _ (if_pos h),
    fun h => congrArg _ (if_neg (ne_true_of_eq_false h)), fun k h1 h3 hl hp hr => ?dogCore, fun hl hp hr => ?dogManager,
    fun k h3 hl hp hr => ?dogEarly, fun k hl => congrArg _ (if_pos (.inr (.inl hl))), fun hp => congrArg _ (if_neg hp),
    fun q hq hr hf hl hu => ?quadLock, fun q hq hr hf hl hu hh => ?quadRelock, fun q hq hr hf hu ht => ?unlockFirst,
    fun q u hq hr hf hu ht hs => ?unlockAgain, fun q hu => congrArg _ (if_pos hu), fun q hp hr => ?quadFailed,
    fun v hp => ?fallowStatus, fun v hp hv => congrArg _ (if_pos ⟨hp, hv⟩), fun v i hp hi hs => ?fallowExit,
    fun v i hp hi => ?fallowRefused, fun v req cut hp ht hv hu => ?direct, fun v req cut hp ht hv hu => ?directCut,
    fun v req cut hp ht hv => ?directFails, fun v req cut hp ht => ?directRefused, fun fac i => rfl,
    fun cause phase logged => ?fullReset⟩
  case holdDown =>
    show execSettleHoldStart k s = _
    simp [execSettleHoldStart, Nat.not_lt.2 hk, hu]
  case holdFurther =>
    show execSettleHoldStart k s = _
    simp [execSettleHoldStart, Nat.not_lt.2 hk, hu, hh]
  case holdFirst =>
    show execSettleHoldStart k s = _
    simp [execSettleHoldStart, Nat.not_lt.2 hk, hu, hh]
  case releaseLast =>
    show execSettleHoldRelease k s = _
    have hlast : (if s.power.holdBy.testBit k then s.power.holdBy - 2 ^ k else s.power.holdBy) = 0 := by
      simp [hb, Nat.testBit_two_pow_self]
    simp only [execSettleHoldRelease, Nat.not_lt.2 hk, if_false, State.modPower_power, hh, hlast]
    rfl
  case releaseNone =>
    show execSettleHoldRelease k s = _
    simp [execSettleHoldRelease, Nat.not_lt.2 hk, hh]
  case holdTimeout =>
    show execSettleHoldTimeout s = _
    simp [execSettleHoldTimeout, State.topsoilBrownOut, hh, hr]
  case noHold => exact congrArg _ (if_neg (ne_true_of_eq_false hh))
  case brownOut =>
    show execTopsoilBrownOut k s = _
    have hr' : (s.modPower fun p => { p with valid := if p.valid.testBit k then p.valid - 2 ^ k else p.valid }).resetRunning = false := hr
    simp only [execTopsoilBrownOut, Nat.not_lt.2 hk, if_false, hu, if_true, State.topsoilBrownOut, hr', Bool.false_eq_true]
  case brownOutDown =>
    show execTopsoilBrownOut k s = _
    simp [execTopsoilBrownOut, Nat.not_lt.2 hk, hu]
  case brownOutEarly =>
    show execTopsoilBrownOut k s = _
    have hr' : (s.modPower fun p => { p with valid := if p.valid.testBit k then p.valid - 2 ^ k else p.valid }).resetRunning = true := hr
    simp only [execTopsoilBrownOut, Nat.not_lt.2 hk, if_false, hu, if_true, State.topsoilBrownOut, hr']
  case subsoil =>
    show execSubsoilBrownOut k s = _
    simp [execSubsoilBrownOut, Nat.not_lt.2 hk, Nat.not_lt.2 hk', hp]
  case mramFlush =>
    show execVddSmRelease s = _
    have hquiet : ¬(s.power.phase = .lockService ∧ s.tamper.locked = true) := fun ⟨hp, hlocked⟩ => by simp [hl hp] at hlocked
    simp only [execVddSmRelease, State.modPower_power, State.modPower_tamper, hquiet, if_false, ho, if_true]
  case mramShut =>
    show execVddSmRelease s = _
    have hquiet : ¬(s.power.phase = .lockService ∧ s.tamper.locked = true) := fun ⟨hp, hlocked⟩ => by simp [hl hp] at hlocked
    simp only [execVddSmRelease, State.modPower_power, State.modPower_tamper, hquiet, if_false, ho, Bool.false_eq_true]
  case mramFlag =>
    show execVddSmRelease s = _
    have ho' : ((s.modPower fun p => { p with warn := if p.warn.testBit 5 then p.warn - 32 else p.warn }).modTamper fun t =>
        { t with flag := true }).logOpen = true := ho
    simp only [execVddSmRelease, State.modPower_power, State.modPower_tamper, hp, hl, and_self, if_true, ho']
  case porFresh =>
    show execPowerOnReset valid true ref s = _
    simp [execPowerOnReset, hp, hv]
  case porKept =>
    show execPowerOnReset valid false ref s = _
    simp [execPowerOnReset, hp, hv]
  case pinReset =>
    show execSysResetRelease n straps golden taken s = _
    simp only [execSysResetRelease, hl, State.modPower_power, hu, hp, hn, or_self, if_false, if_true, Bool.not_true, Bool.false_eq_true]
    rfl
  case pinGlitch =>
    show execSysResetRelease n straps golden taken s = _
    have hshort : ¬(10000 ≤ n ∨ 1000 ≤ n ∧ taken = true) := by
      rintro (h | ⟨h, htaken⟩)
      · omega
      · rcases hn with hn | ⟨hn, hignored⟩
        · omega
        · simp [htaken] at hignored
    simp only [execSysResetRelease, hl, State.modPower_power, hu, hp, hshort, or_self, if_false, Bool.not_true, Bool.false_eq_true]
  case pllLock =>
    show execSubsoilPllLock s = _
    simp [execSubsoilPllLock, hp, hl]
  case dogCore =>
    show execLoamWatchdogTimeout k s = _
    simp only [execLoamWatchdogTimeout, Nat.not_lt.2 h3, hl, hp, hr, or_self, if_false, Bool.false_eq_true]
    rw [if_pos (by omega)]
  case dogManager =>
    show execLoamWatchdogTimeout 0 s = _
    simp only [execLoamWatchdogTimeout, hl, hp, hr, Nat.not_lt_zero, or_self, if_false, Bool.false_eq_true]
    rfl
  case dogEarly =>
    show execLoamWatchdogTimeout k s = _
    simp only [execLoamWatchdogTimeout, Nat.not_lt.2 h3, hl, hp, hr, or_self, if_false, if_true]
  case quadLock =>
    show execQuadrantPllLock q s = _
    simp [execQuadrantPllLock, Nat.not_le.2 hq, hr, hf, hl, hu]
  case quadRelock =>
    show execQuadrantPllLock q s = _
    simp [execQuadrantPllLock, Nat.not_le.2 hq, hr, hf, hl, hu, hh]
  case unlockFirst =>
    show execQuadrantPllUnlock q s = _
    simp [execQuadrantPllUnlock, Nat.not_le.2 hq, hr, hf, hu, ht]
  case unlockAgain =>
    show execQuadrantPllUnlock q s = _
    simp [execQuadrantPllUnlock, Nat.not_le.2 hq, hr, hf, hu, ht]
    omega
  case quadFailed =>
    intro t
    have ht : t.quad q = (s.quad q).stopped := State.quad_failQuadrant (by simp [hp]) hr q
    rw [ht]
    exact ⟨rfl, rfl, rfl⟩
  case fallowStatus =>
    show execFallowStatus v s = _
    simp [execFallowStatus, hp]
  case fallowExit =>
    show execFallowExit v i s = _
    simp [execFallowExit, hp, Nat.not_lt.2 hi, hs]
  case fallowRefused =>
    show execFallowExit v i s = _
    simp only [execFallowExit, hp, hi]
    rfl
  case direct =>
    show execLcDirectRequest v req cut s = _
    simp only [execLcDirectRequest, hp, not_true, if_false, ht, if_true, hv, ne_eq, hu]
  case directCut =>
    show execLcDirectRequest v req cut s = _
    simp only [execLcDirectRequest, hp, not_true, if_false, ht, if_true, hv, ne_eq, hu]
  case directFails =>
    show execLcDirectRequest v req cut s = _
    simp only [execLcDirectRequest, hp, not_true, if_false, ht, if_true, hv, ne_eq, not_false_eq_true]
  case directRefused =>
    show execLcDirectRequest v req cut s = _
    simp only [execLcDirectRequest, hp, not_true, if_false, ht]
    rfl
  case fullReset =>
    exact ⟨rfl, rfl, rfl, rfl, rfl, rfl, rfl, rfl, rfl, rfl, rfl, rfl, s.fullReset_epoch .., s.fullReset_gen .., s.fullReset_count ..,
      s.fullReset_shelf .., s.fullReset_rootSecret .., s.fullReset_regions ..⟩

end Sys2Proof.Claims
end

section
/-!
O51: channels, the sieve, watched blocks and holds of the platform guard (R373 to R389).
-/
namespace Sys2Proof.Machine

/-! A channel reads back what is written of it, unless that is the record of a channel that was never used. -/

theorem State.chan_modChan {s : State} {c : Nat} {f : Chan → Chan} (h : f (s.chan c) ≠ {}) :
    (s.modChan c f).chan c = f (s.chan c) :=
  Map.get_set_of_ne_default h

theorem State.chan_congr {s t : State} (h : t.pgd = s.pgd) (c : Nat) : t.chan c = s.chan c := by
  unfold State.chan
  rw [h]

/-! Sources (R381, R384, R390). -/

/-- A channel that serves a source. -/
def Chan.served (x : Chan) (source : Nat) : Chan :=
  { x with
    state := .serving, serving := some source, left := [], recovers := false, manifest := [], buffers := [], hashing := [] }

theorem State.chan_serveImage (s : State) (c source : Nat) (digests : List (List Byte)) (image : List Byte) :
    ((s.serveImage c source digests image).chan c) = (s.chan c).served source := by
  unfold State.serveImage
  extract_lets blocks rows s1 again s2
  have hne : (s1.chan c).served source ≠ {} := fun h => nomatch congrArg Chan.serving h
  have h2 : s2.chan c = (s.chan c).served source := State.chan_modChan hne
  split
  · exact (State.chan_congr (by simp) c).trans h2
  · exact h2

/-- A channel on which a recovery has started. -/
def Chan.recovering (x : Chan) (cause : Nat) (left : List Nat) : Chan :=
  { x with recovers := true, cause := cause, window := none, serving := none, left := left }

/-- A channel that waits for a delivered image. -/
def Chan.waits (x : Chan) : Chan := { x with state := .waiting, manifest := [] }

/-- A channel that prepares a source of its recovery. -/
def Chan.tries (x : Chan) (r : Nat) (rest : List Nat) : Chan :=
  { x with state := .recovering, source := r, left := rest, manifest := [] }

/-- What the next source of a recovery leaves on its channel. -/
def Chan.nextSource (x : Chan) : Chan :=
  match x.left with
  | [] => x.waits
  | r :: rest => x.tries r rest

/-- The next source changes the channels of the platform guard only. -/
theorem State.nextSource_pgd (s : State) (c : Nat) : ∃ chans, (s.nextSource c).pgd = { s.pgd with chans := chans } := by
  unfold State.nextSource State.chanWaits
  split
  · exact ⟨_, by simp; rfl⟩
  · exact ⟨_, rfl⟩

theorem State.chan_nextSource (s : State) (c : Nat) : (s.nextSource c).chan c = (s.chan c).nextSource := by
  unfold State.nextSource Chan.nextSource
  cases (s.chan c).left with
  | nil =>
    have hwaits : (s.chanWaits c).pgd = (s.modChan c Chan.waits).pgd :=
      (State.logPlatform_pgd ..).trans (State.event_pgd ..)
    have hne : (s.chan c).waits ≠ {} := fun hd => ChanState.noConfusion (congrArg Chan.state hd)
    exact (State.chan_congr hwaits c).trans (State.chan_modChan hne)
  | cons r rest =>
    have hne : (s.chan c).tries r rest ≠ {} := fun hd => ChanState.noConfusion (congrArg Chan.state hd)
    exact State.chan_modChan hne

/-- The recovery that starts, before its first source. -/
def State.recoveryBegun (s : State) (c cause : Nat) (left : List Nat) : State :=
  (s.assertPlanned.modChan c fun x => x.recovering cause left).logPlatform 2 c 0

theorem State.startRecovery_eq (s : State) (c cause : Nat) (left : List Nat) :
    s.startRecovery c cause left = (s.recoveryBegun c cause left).nextSource c := rfl

theorem State.chan_recoveryBegun (s : State) (c cause : Nat) (left : List Nat) :
    (s.recoveryBegun c cause left).chan c = (s.chan c).recovering cause left :=
  (State.chan_congr (State.logPlatform_pgd ..) c).trans (State.chan_modChan fun hd => nomatch congrArg Chan.recovers hd)

theorem State.level_startRecovery (s : State) (c cause : Nat) (left : List Nat) :
    (s.startRecovery c cause left).pgd.level = s.pgd.level ||| s.plannedHolds := by
  obtain ⟨chans, hchans⟩ := (s.recoveryBegun c cause left).nextSource_pgd c
  rw [State.startRecovery_eq, hchans, State.recoveryBegun, State.logPlatform_pgd]
  rfl

theorem State.chan_startRecovery (s : State) (c cause : Nat) (left : List Nat) :
    (s.startRecovery c cause left).chan c = ((s.chan c).recovering cause left).nextSource := by
  rw [State.startRecovery_eq, State.chan_nextSource, State.chan_recoveryBegun]

/-! The sieve (R385 to R388). -/

section
variable {s : State} {c : Nat} {code : Half} {a n : Nat}

theorem State.sieve_permit (h : (s.decideCommand c code a n).action = 0) :
    s.sieve c code a n = (s.countHits (s.decideCommand c code a n).hits, false) :=
  if_pos h

/-- A command that is decided by DENY is denied. -/
theorem State.sieve_deny (h : 2 ≤ (s.decideCommand c code a n).action) : (s.sieve c code a n).2 = true := by
  have h0 : (s.decideCommand c code a n).action ≠ 0 := by omega
  have h1 : (s.decideCommand c code a n).action ≠ 1 := by omega
  simp [State.sieve, h0, h1]

/-- A program or erase that touches the golden copy or the host window is denied before any rule is looked at (R387). -/
theorem State.decideCommand_fixed (hcode : s.codeOk c code = true) (hcls : opClass (s.opOf c (code.toNat % 256)) ∈ [1, 2])
    (h : s.touchesFixed c (s.affected c (s.opOf c (code.toNat % 256)) a n)
      (s.flashRanges c (s.affected c (s.opOf c (code.toNat % 256)) a n)) = true) :
    s.decideCommand c code a n = ⟨2, none, []⟩ := by
  have hwrites : opClass (s.opOf c (code.toNat % 256)) = 1 ∨ opClass (s.opOf c (code.toNat % 256)) = 2 := by simpa using hcls
  simp [State.decideCommand, hcode, hwrites, h]

end

/-! Reads and writes of the host. -/

/-- A read without watched blocks, with good tags, is answered at once. -/
theorem State.serveRead_plain {s : State} {c : Nat} {src : List (Nat × Option MeasEntry)} {data : List Byte}
    (hw : watchedOf src = []) : s.serveRead c src data true = s.emit (.hostFlash c (s.readData src data)) := by
  simp [State.serveRead, hw, State.answerHost]

section
variable {s t : State} {c : Nat} {code : Half} {a n mark : Nat} {data : List Byte}

theorem State.hostWrite_denied (h : s.sieve c code a n = (t, true)) :
    s.hostWrite c code a data n mark = t.modChan c fun x => { x with denied := x.denied ||| mark } := by
  simp [State.hostWrite, h]

variable (h : s.sieve c code a n = (t, false)) (hs : opServe (s.opOf c (code.toNat % 256)) ≠ 1)
include h hs

theorem State.hostWrite_busy (hb : opAddr (s.opOf c (code.toNat % 256)) ≠ 0 ∨ opUnit (s.opOf c (code.toNat % 256)) ≠ 0) :
    s.hostWrite c code a data n mark =
      (t.emit (.toFlash c (code.toNat % 256) (t.flashAddr c a) data)).modChan c fun x => { x with busy := true } := by
  simp only [State.hostWrite, h, hs, if_false]
  exact if_pos hb

theorem State.hostWrite_free (ha : opAddr (s.opOf c (code.toNat % 256)) = 0) (hu : opUnit (s.opOf c (code.toNat % 256)) = 0) :
    s.hostWrite c code a data n mark = t.emit (.toFlash c (code.toNat % 256) (t.flashAddr c a) data) := by
  simp [State.hostWrite, h, hs, ha, hu]

end

end Sys2Proof.Machine

namespace Sys2Proof.Claims
open Sys2Proof.Machine

/-- Settles O51, clause by clause from the step of each command. What a source that serves or fails leaves on its channel is read
back from the table, and the sieve's verdict is taken from its decision. -/
theorem platformGuard : Obligations.PlatformGuard := by
  intro s
  refine ⟨fun c j f a b hi => ?initSilent, fun c j f a b hi => ?initAnswers, fun c m hp hm hf ho => ?manifestGood,
    fun c m hp hm hbad => ?manifestBad, fun c image hp hm hi => ?scanGood, fun c image hp hm hi => ?scanBad,
    fun c source digests image => ?serves, fun c cause left => ?recovers,
    fun k hk ht hd hb hr => congrArg _ (if_pos ⟨hk, ht, hd, by simp [hb], hr⟩), fun c hw => congrArg _ (if_pos hw),
    fun c hb hr => congrArg _ (if_pos ⟨hb, hr⟩), fun c => rfl, fun c code a n slow data tag h => ?noRead,
    fun c code a data h => congrArg _ (if_neg (ne_true_of_eq_false h)), fun c code a h => congrArg _ (if_neg (ne_true_of_eq_false h)),
    fun c code st h => ?noStatus, fun c code a data h => ?noConfig, fun c code a n slow data tag t h hs => ?readDenied,
    fun c code a n slow data tag t h hs hp hd => ?readServed, fun c code a n data tag t h hs hp hd => ?readFast,
    fun c src data hw _ => State.serveRead_plain hw,
    fun c code a data t h hs => congrArg _ ((if_pos h).trans (State.hostWrite_denied hs)),
    fun c code a data t h hs hp hb => congrArg _ ((if_pos h).trans (State.hostWrite_busy hs hp hb)),
    fun c code a data t h hs hp ha hu => congrArg _ ((if_pos h).trans (State.hostWrite_free hs hp ha hu)),
    fun c code a t h hs => congrArg _ ((if_pos h).trans (State.hostWrite_denied hs)),
    fun c code a t h hs hp hb => congrArg _ ((if_pos h).trans (State.hostWrite_busy hs hp hb)),
    fun c code a t h hs hp ha hu => congrArg _ ((if_pos h).trans (State.hostWrite_free hs hp ha hu)),
    fun c code st t h hs => ?statusDenied, fun c code st t h hs hp hc => ?statusServed, fun c code a data t h hs => ?configDenied,
    fun c code a data t h hs hf => ?configTaken, fun c code a data t h hs hf => ?configFew, fun c a data => ⟨rfl, rfl⟩,
    fun c t u h hs ht => ?reset, fun c t h hs => ?resetDenied, fun c code a n => State.sieve_permit,
    fun c code a n => State.sieve_deny, fun c code a n hcode hcls h => ?sieveFixed, fun c k data got hg hb => ?completion,
    fun c k bytes e hf he hd => ?hashMatches, fun c k bytes e hf he hd => ?hashDiffers⟩
  case initSilent =>
    show execChannelInitDone c false j f a b s = _
    simp [execChannelInitDone, hi]
  case initAnswers =>
    show execChannelInitDone c true j f a b s = _
    simp only [execChannelInitDone, hi, ne_eq, not_true, if_false, Bool.not_true, Bool.false_eq_true]
    rfl
  case manifestGood =>
    show execManifestVerifyDone c m s = _
    simp [execManifestVerifyDone, hp, hm, hf, ho]
  case manifestBad =>
    show execManifestVerifyDone c m s = _
    have hjudged : (s.manifestFormat c m && s.manifestOk m) = false := Bool.and_eq_false_iff.2 hbad
    simp only [execManifestVerifyDone, hp, hm, hjudged, ne_eq, not_true, or_self, if_false, Bool.not_true, Bool.false_eq_true]
  case scanGood =>
    show execBlockScanDone c image s = _
    simp [execBlockScanDone, hp, hm, hi]
  case scanBad =>
    show execBlockScanDone c image s = _
    simp [execBlockScanDone, hp, hm, hi]
  case serves =>
    intro t
    have ht : t.chan c = (s.chan c).served source := s.chan_serveImage ..
    rw [ht]
    exact ⟨rfl, rfl, rfl, rfl⟩
  case recovers =>
    intro t
    have ht : t.chan c = ((s.chan c).recovering cause left).nextSource := s.chan_startRecovery ..
    have hlevel : t.pgd.level = s.pgd.level ||| s.plannedHolds := s.level_startRecovery ..
    rw [ht, hlevel]
    cases left with
    | nil => exact ⟨rfl, rfl, rfl, rfl, rfl, rfl⟩
    | cons r rest => exact ⟨rfl, rfl, rfl, rfl, rfl, rfl⟩
  case noRead =>
    show execHostFlashRead c code a n slow data tag s = _
    simp [execHostFlashRead, h]
  case noStatus =>
    show execHostFlashStatus c code st s = _
    simp [execHostFlashStatus, h]
  case noConfig =>
    show execHostFlashConfig c code a data s = _
    simp [execHostFlashConfig, h]
  case readDenied =>
    show execHostFlashRead c code a n slow data tag s = _
    simp [execHostFlashRead, h, hs, State.lateRead, State.answerHost]
  case readServed =>
    show execHostFlashRead c code a n slow data tag s = _
    simp [execHostFlashRead, h, hs, hp, hd]
  case readFast =>
    show execHostFlashRead c code a n false data tag s = _
    simp [execHostFlashRead, h, hs, hp, hd, State.lateRead, State.answerHost]
  case statusDenied =>
    show execHostFlashStatus c code st s = _
    simp [execHostFlashStatus, h, hs, State.answerHost]
  case statusServed =>
    show execHostFlashStatus c code st s = _
    simp only [execHostFlashStatus, h, hs, hp, hc, Bool.not_true, Bool.false_eq_true, if_false, State.answerHost]
  case configDenied =>
    show execHostFlashConfig c code a data s = _
    simp [execHostFlashConfig, h, hs]
  case configTaken =>
    show execHostFlashConfig c code a data s = _
    simp [execHostFlashConfig, h, hs, hf]
  case configFew =>
    show execHostFlashConfig c code a data s = _
    simp only [execHostFlashConfig, h, hs, hf, Bool.not_true, Bool.false_eq_true, if_false, if_true]
  case reset =>
    show execHostFlashReset c s = _
    simp [execHostFlashReset, h, hs, ht]
  case resetDenied =>
    show execHostFlashReset c s = _
    simp [execHostFlashReset, h, hs]
  case sieveFixed =>
    refine State.sieve_deny ?_
    rw [State.decideCommand_fixed hcode hcls h]
  case completion =>
    show execWatchedCompletionRead c k data s = _
    simp [execWatchedCompletionRead, hg, hb]
  case hashMatches =>
    show execWatchedBlockHashDone c k s = _
    simp [execWatchedBlockHashDone, hf, he, hd]
  case hashDiffers =>
    show execWatchedBlockHashDone c k s = _
    simp [execWatchedBlockHashDone, hf, he, hd]

end Sys2Proof.Claims
end

section
/-!
O53: frames of the Uncel chain, enumeration, authenticated operations, joins and their timers (R447 to R461).
-/
namespace Sys2Proof.Machine

/-! What is sent is all that a frame's way changes. -/

theorem State.transmit_out (s : State) (b : Bool) (f : Frame) : ∃ o, s.transmit b f = { s with out := o } := by
  unfold State.transmit
  split
  · exact ⟨_, rfl⟩
  · exact ⟨s.out, rfl⟩

@[simp] theorem State.transmit_uncel (s : State) (b : Bool) (f : Frame) : (s.transmit b f).uncel = s.uncel := by
  obtain ⟨o, ho⟩ := s.transmit_out b f
  rw [ho]

/-- Which frames a device removes rests on its place in the chain alone. -/
theorem State.removes_congr {s t : State} (h : t.uncel = s.uncel) (b : Bool) (f : Frame) : t.removes b f = s.removes b f := by
  simp only [State.removes, State.returned, State.addressed, State.inChild, h]

theorem State.forward_out (s : State) (b : Bool) (f : Frame) : ∃ o, s.forward b f = { s with out := o } := by
  unfold State.forward
  extract_lets t
  have ht : ∃ o, t = { s with out := o } := by
    by_cases hi : s.injects b f = true
    · obtain ⟨o, ho⟩ := s.transmit_out (!b) { f with hops := 0 }
      exact ⟨o, (if_pos hi).trans ho⟩
    · exact ⟨s.out, if_neg hi⟩
  obtain ⟨o, ho⟩ := ht
  rw [ho]
  split
  · exact ⟨o, rfl⟩
  · obtain ⟨o', ho'⟩ := State.transmit_out { s with out := o } b f.hop
    exact ⟨o', ho'⟩

theorem State.forward_removed {s : State} {b : Bool} {f : Frame} (hi : s.injects b f = false) (hr : s.removes b f = true) :
    s.forward b f = s := by
  simp [State.forward, hi, hr]

theorem State.forward_onward {s : State} {b : Bool} {f : Frame} (hi : s.injects b f = false) (hr : s.removes b f = false)
    (hsilent : b = true ∨ s.uncel.silent = false) : s.forward b f = s.transmit b f.hop := by
  have hstays : ¬(s.removes b f = true ∨ (!b) = true ∧ s.uncel.silent = true) := by
    rcases hsilent with rfl | h <;> simp [*]
  simp only [State.forward, hi, Bool.false_eq_true, if_false]
  exact if_neg hstays

theorem State.forward_injected {s : State} {b : Bool} {f : Frame} (hi : s.injects b f = true) (hr : s.removes b f = true) :
    s.forward b f = s.transmit (!b) { f with hops := 0 } := by
  have hgone : (s.transmit (!b) { f with hops := 0 }).removes b f = true := (State.removes_congr (s.transmit_uncel ..) b f).trans hr
  simp only [State.forward, hi, if_true]
  exact if_pos (.inl hgone)

/-! The arrival of a frame, by its cases (R449). -/

section
variable {s : State} {b : Bool} {bytes : List Byte} {f : Frame} {fits : Frame → Bool} {act : Frame → State → State}

theorem State.arrive_unheard (h : s.hears b = false) : s.arrive b bytes fits act = s := by
  simp [State.arrive, h]

/-- A frame whose CRC fails: counted, and its copy aborted unless the device is silent. -/
def State.badFrame (s : State) (b : Bool) (bytes : List Byte) : State :=
  let t := s.modUncel fun u => { u with crcFails := satAdd 0xFFFF u.crcFails 1 }
  if b = false ∧ s.uncel.silent = true then t else t.emit (.uncelAbort b bytes)

theorem State.arrive_bad (h : s.hears b = true) (hp : parseFrame bytes = none) :
    s.arrive b bytes fits act = s.badFrame b bytes := by
  simp [State.arrive, State.badFrame, h, hp]

theorem State.arrive_ignored (h : s.hears b = true) (hp : parseFrame bytes = some f) (hf : fits f = true) :
    s.arrive b bytes fits (fun _ t => t) = s.forward b f := by
  simp [State.arrive, h, hp, hf]

/-- A frame for this device is forwarded and then acted on. -/
theorem State.arrive_acts (h : Claims.Arrives s b bytes f) (hf : fits f = true) :
    s.arrive b bytes fits act = act f (s.forward b f) := by
  obtain ⟨hhears, hparse, haddr, hmine⟩ := h
  obtain ⟨o, ho⟩ := s.forward_out b f
  have haddr' : (s.forward b f).uncel.addr.isSome = true := by rw [ho]; exact haddr
  have hfor : (s.addressed b f || (decide (f.dst / 2 ^ 14 % 4 ≠ 0) && !s.returned b f && !(b && f.dst.testBit 14))) = true := by
    rcases hmine with h | ⟨hflood, hret, hup⟩
    · simp [h]
    · have hnot : (b && f.dst.testBit 14) = false := Bool.and_eq_false_iff.2 hup
      rw [hret, hnot, decide_eq_true hflood, Bool.not_false, Bool.and_self, Bool.and_self, Bool.or_true]
  simp only [State.arrive, hhears, hparse, hf, hfor, haddr', Bool.not_true, Bool.false_eq_true, if_false, Bool.and_self, if_true]

end

/-! The commands of a frame, and the frame of each (R448). -/

/-- TYPE and LEN of a row with one length. -/
theorem isType_exact {f : Frame} {type len : Nat} (ht : f.type = type) (hl : f.payload.length = len) :
    isType type len len f = true := by
  simp [isType, ht, hl]

/-- Every frame command that is not a token arrives. -/
theorem exec_frameCommand {b : Bool} {bytes : List Byte} {c : Instr} (h : Claims.FrameCommand b bytes c) :
    c = .enumerate b bytes ∨ ∃ fits act, ∀ s, exec c s = .next (s.arrive b bytes fits act) := by
  rcases h with rfl | rfl | rfl | rfl | rfl | rfl | rfl | rfl | rfl
  · exact .inl rfl
  all_goals exact .inr ⟨_, _, fun s => rfl⟩

theorem exec_frameCommand_unheard {s : State} {b : Bool} {bytes : List Byte} {c : Instr} (h : Claims.FrameCommand b bytes c)
    (hh : s.hears b = false) : exec c s = .next s := by
  obtain rfl | ⟨fits, act, hc⟩ := exec_frameCommand h
  · exact congrArg _ (if_pos (by simp [hh]))
  · rw [hc, State.arrive_unheard hh]

theorem exec_frameCommand_bad {s : State} {b : Bool} {bytes : List Byte} {c : Instr} (h : Claims.FrameCommand b bytes c)
    (hh : s.hears b = true) (hp : parseFrame bytes = none) : exec c s = .next (s.badFrame b bytes) := by
  obtain rfl | ⟨fits, act, hc⟩ := exec_frameCommand h
  · show execEnumerate b bytes s = _
    simp [execEnumerate, State.badFrame, hh, hp]
  · rw [hc, State.arrive_bad hh hp]

/-- An authenticated frame for this device is judged by R455. -/
theorem authentic_of_exec {s : State} {type len : Nat} {c : Bool → List Byte → Instr} {act : Frame → State → State}
    (hc : ∀ b bytes, exec (c b bytes) s = .next (s.arriveAuth b bytes type len act)) : Claims.Authentic s type len c act := by
  intro b bytes f harr htype hlen hphase t
  obtain ⟨o, ho⟩ := s.forward_out b f
  have hopen : (s.forward b f).power.phase = .gateOpen := by rw [ho]; exact hphase
  have hjudged : s.arriveAuth b bytes type len act =
      if t.frameOk f then act f (t.modUncel fun u => { u with lastCtr := u.lastCtr.insert (addrBits f.src) f.ctr })
      else (t.modUncel fun u => { u with authFails := satAdd 0xFFFF u.authFails 1 }).event .unc uncAuthReject := by
    rw [State.arriveAuth, State.arrive_acts harr (isType_exact htype hlen)]
    exact if_neg (not_not.2 hopen)
  rw [hc, hjudged]
  exact ⟨fun hok => congrArg _ (if_pos hok), fun hbad => congrArg _ (if_neg (ne_true_of_eq_false hbad))⟩

/-- Authenticated frames with the same effect. -/
theorem authentic_congr {s : State} {type len : Nat} {c : Bool → List Byte → Instr} {act act' : Frame → State → State}
    (h : Claims.Authentic s type len c act) (e : ∀ f u, act f u = act' f u) : Claims.Authentic s type len c act' :=
  (funext fun f => funext (e f) : act = act') ▸ h

/-! Enumeration (R451). -/

@[simp] theorem State.passToken_uncel (s : State) (t : Token) : (s.passToken t).uncel = s.uncel := by
  unfold State.passToken
  split <;> simp

@[simp] theorem State.sendChildToken_uncel (s : State) (c base : Nat) : (s.sendChildToken c base).uncel = s.uncel :=
  s.transmit_uncel ..

/-- The test of a child ring leaves the device its own address. -/
theorem State.testChild_addr (s : State) (t : Token) :
    (s.testChild t).uncel.addr = s.uncel.addr ∧ (s.testChild t).uncel.silent = s.uncel.silent := by
  unfold State.testChild
  split
  · simp
  · split
    · simp
    · split <;> simp

/-- A device without an address, or that is no bridge, has no child ring to test. -/
theorem State.testChild_none {s : State} (h : s.bridge = false ∨ s.uncel.addr = none) (t : Token) :
    s.testChild t = s.passToken t :=
  if_pos (h.imp (fun hb => by simp [hb]) id)

section
variable (s : State) {t : Token}

/-- A device that has taken its address from a token. -/
def State.addressTaken (s : State) (t : Token) : State :=
  (s.modUncel fun u => { u with
    addr := some (64 * t.seg + t.nextPos), silent := false, lat := t.base + segmentTime (t.nextPos + 1) }).event .unc 1

theorem State.takeAddress_room (h : t.nextPos < 64) (h' : 64 * t.seg + t.nextPos < 2047) :
    s.takeAddress t = (s.addressTaken t).testChild { t with nextPos := t.nextPos + 1 } :=
  if_neg (by omega)

theorem State.takeAddress_full (h : 64 ≤ t.nextPos ∨ 2047 ≤ 64 * t.seg + t.nextPos) : s.takeAddress t =
    (s.modUncel fun u => { u with addr := none, silent := false }).testChild { t with overflow := true } :=
  if_pos h

theorem State.addressTaken_bridge : (s.addressTaken t).bridge = s.bridge := by
  simp [State.bridge, State.addressTaken]

/-- What the token of a child ring records of it. -/
theorem State.childToken_uncel (t : Token) :
    (s.childToken t).uncel.childOk = !decide (50000 < t.base + (10880 + 150 * t.nextPos)) ∧ (s.childToken t).uncel.token = none := by
  unfold State.childToken
  extract_lets held late flags s1 s2 s3
  have h2 : s2.uncel.childOk = !late ∧ s2.uncel.token = none := ⟨rfl, rfl⟩
  have h3 : s3.uncel = s2.uncel := by
    by_cases hf : flags = true
    · simp only [s3, hf, if_true, State.event_uncel]
    · simp only [s3, hf, if_false, Bool.false_eq_true]
  cases held with
  | none => exact h3 ▸ h2
  | some h => exact ((State.passToken_uncel ..).trans h3) ▸ h2

end

/-! Wall time and generations (R439, R454). -/

/-- An offset that is set from a wall time gives that wall time. -/
theorem State.wallTime_aligned (s : State) {time : Nat} (h : time < 2 ^ 64) :
    (s.modHzn fun x => { x with offset := BitVec.ofNat 64 time - BitVec.ofNat 64 s.rtc }).wallTime = time := by
  have hsum : BitVec.ofNat 64 s.rtc + (BitVec.ofNat 64 time - BitVec.ofNat 64 s.rtc) = BitVec.ofNat 64 time := by
    rw [BitVec.add_comm, BitVec.sub_add_cancel]
  calc (BitVec.ofNat 64 s.rtc + (BitVec.ofNat 64 time - BitVec.ofNat 64 s.rtc)).toNat
      = (BitVec.ofNat 64 time).toNat := by rw [hsum]
    _ = time := by rw [BitVec.toNat_ofNat]; exact Nat.mod_eq_of_lt h

/-- What a new generation records. -/
theorem State.newGeneration_uncel (s : State) (gen : Nat) (secret : List Byte) : (s.newGeneration gen secret).uncel = { s.uncel with
    genPrev := if (s.domainSecret s.uncel.gen).isSome then s.uncel.gen else s.uncel.genPrev, gen := gen, join := none } := by
  unfold State.newGeneration
  rw [State.event_uncel]
  cases s.domainSecret s.uncel.gen <;> rfl

end Sys2Proof.Machine

namespace Sys2Proof.Claims
open Sys2Proof.Machine

/-- Settles O53, clause by clause: frames by the cases of an arrival, tokens by the address they give, and the rest from the step
of each command. -/
theorem uncelChain : Obligations.UncelChain := by
  intro s
  refine ⟨fun cmd b bytes => exec_frameCommand_unheard, fun cmd b bytes => exec_frameCommand_bad,
    fun b bytes hh hp => congrArg _ (if_pos ⟨hh, hp⟩), fun b bytes f hp => congrArg _ (if_neg fun ⟨_, hn⟩ => by simp [hp] at hn),
    fun b f hi => ⟨State.forward_removed hi, State.forward_onward hi⟩, fun b f => State.forward_injected,
    fun b f hh => by simp [State.removes, hh], fun b bytes f hh hp ht h0 h256 => ?mctp,
    fun b bytes f hh hp hf => congrArg _ (State.arrive_ignored hh hp hf), fun b bytes f ha ht hl => ?disown,
    fun b bytes f ha ht hl hp hd hk hg => ?offer, ?epoch, ?epochDone, ?tamper, ?time, fun time => s.wallTime_aligned,
    fun bytes f hh hp ht hl => ?token, fun t h h' => ?address,
    fun t h => ?noAddress, fun t hb h h' => ?segmentDevice, fun bytes f hh hp ht hl hs => ?childBack, s.childToken_uncel,
    fun b => rfl, fun h => ?lossA, fun h => ?lossB, fun hh => ?upA, fun hh hn => ?upB, fun hh hb ha hc => ?upBridge,
    fun a ht ha hp hl => ?leader, fun a ht ha hp hl => ?notLeader, rfl, fun m ek chain owner signature secret hd hp hk hj => ?joinTaken,
    fun m ek chain owner signature secret hd hp hk hj => ?joinRefused,
    fun x answer chain owner signature secret hx hp hs hj hd hg => ?joined, fun x answer chain owner signature hx hp hs => ?joinFails,
    fun gen secret => ?generation, fun x hx ho => ?expires, fun hx => ?noCeremony⟩
  case mctp => exact congrArg _ (State.arrive_ignored hh hp (by simp [isType, ht, h256]; omega))
  case disown => exact congrArg _ (State.arrive_acts ha (isType_exact ht (by rw [hl]; rfl)))
  case offer =>
    obtain ⟨o, ho⟩ := s.forward_out b f
    refine congrArg _ ((State.arrive_acts ha (isType_exact ht hl)).trans (if_pos ?_))
    rw [ho]
    exact ⟨hp, hd, hk, hg⟩
  case epoch =>
    have hacts : Authentic s 0x20 32 .uncelEpochFrame _ := authentic_of_exec fun b bytes => (rfl : execUncelEpochFrame b bytes s = _)
    refine authentic_congr hacts fun f u => ?_
    simp only [decide_eq_true_eq, GuardResult.code]
    rfl
  case epochDone =>
    have hacts : Authentic s 0x21 34 .epochDone _ := authentic_of_exec fun b bytes => (rfl : execEpochDone b bytes s = _)
    refine authentic_congr hacts fun f u => ?_
    refine if_congr Iff.rfl rfl ?_
    by_cases hr : field f.inner 4 2 = 0 <;> simp only [hr, if_true, if_false]
  case tamper =>
    refine authentic_of_exec fun b bytes => ?_
    show execUncelTamperFrame b bytes s = _
    rfl
  case time =>
    refine authentic_of_exec fun b bytes => ?_
    show execUncelTimeFrame b bytes s = _
    rfl
  case token =>
    show execEnumerate false bytes s = _
    simp [execEnumerate, hh, hp, isType_exact ht hl]
  case address =>
    rw [s.takeAddress_room h h', (State.testChild_addr ..).1, (State.testChild_addr ..).2]
    simp [State.addressTaken]
  case noAddress =>
    rw [s.takeAddress_full h, (State.testChild_addr ..).1]
    rfl
  case segmentDevice =>
    rw [s.takeAddress_room h h', State.testChild_none (.inl (s.addressTaken_bridge.trans hb))]
    rfl
  case childBack =>
    show execEnumerate true bytes s = _
    simp [execEnumerate, hh, hp, isType_exact ht hl, hs]
  case lossA =>
    show execLinkLossTimeout false s = _
    simp only [execLinkLossTimeout, h, Bool.not_true, Bool.false_eq_true, if_false]
    rfl
  case lossB =>
    show execLinkLossTimeout true s = _
    simp only [execLinkLossTimeout, h, Bool.not_true, Bool.false_eq_true, if_false, if_true]
  case upA =>
    show execUncelReceiverLinkUp false s = _
    simp [execUncelReceiverLinkUp, hh]
  case upB =>
    show execUncelReceiverLinkUp true s = _
    have hnone : (s.modUncel fun u => { u with linkB := true }).enumerateChild = s.modUncel fun u => { u with linkB := true } :=
      if_pos (.inr (hn.imp id .inr))
    simp only [execUncelReceiverLinkUp, hh, hnone, Bool.not_true, Bool.false_eq_true, if_false, if_true]
  case upBridge =>
    show execUncelReceiverLinkUp true s = _
    have hsent : (s.modUncel fun u => { u with linkB := true }).enumerateChild =
        (s.modUncel fun u => { u with linkB := true, childOk := false }).sendChildToken s.uncel.childSeg s.uncel.lat := by
      have hbridge : (s.modUncel fun u => { u with linkB := true }).bridge = true := hb
      have haddr : s.uncel.addr ≠ none := Option.isSome_iff_ne_none.1 ha
      simp only [State.enumerateChild, hbridge, State.modUncel_uncel, haddr, hc, Bool.not_true, Bool.false_eq_true, or_self, if_false]
      rfl
    simp only [execUncelReceiverLinkUp, hh, hsent, Bool.not_true, Bool.false_eq_true, if_false, if_true]
  case leader =>
    show execTimeLeaderTick s = _
    simp [execTimeLeaderTick, ht, ha, hp, hl, dstDomain]
  case notLeader =>
    show execTimeLeaderTick s = _
    simp [execTimeLeaderTick, ha, hl]
  case joinTaken =>
    show execUncJoinRequest m ek chain owner signature s = _
    simp only [execUncJoinRequest, hd, hp, hk, hj, ne_eq, not_true, Bool.not_true, Bool.false_eq_true, or_self, if_false]
  case joinRefused =>
    show execUncJoinRequest m ek chain owner signature s = _
    simp only [execUncJoinRequest, hd, hj, Bool.not_false, or_true, if_true]
  case joined =>
    show execUncJoinResponse x.leader answer chain owner signature s = _
    have haccept : ((s.modUncel fun u => { u with join := none }).joinParty chain owner (answer ++ chain ++ owner) signature &&
        (s.modUncel fun u => { u with join := none }).domainSlots &&
        decide ((s.modUncel fun u => { u with join := none }).heldGen < x.generation)) = true := by
      rw [Bool.and_eq_true, Bool.and_eq_true, decide_eq_true_eq]
      exact ⟨⟨hj, hd⟩, hg⟩
    simp only [execUncJoinResponse, hx, hp, hs, haccept, ne_eq, not_true, or_self, if_false, if_true]
  case joinFails =>
    show execUncJoinResponse x.leader answer chain owner signature s = _
    simp [execUncJoinResponse, hx, hp, hs]
  case generation =>
    rw [State.newGeneration_uncel]
    exact ⟨rfl, rfl, rfl⟩
  case expires =>
    show execCeremonyExpiry s = _
    simp only [execCeremonyExpiry, hx]
    exact congrArg _ (if_pos ho)
  case noCeremony =>
    show execCeremonyExpiry s = _
    simp [execCeremonyExpiry, hx]

end Sys2Proof.Claims
end
